-- ==== Sys2Proof/Word.lean ====
section
/-!
DEFINITION. The word types of the ZV4096 and the plain data types that several parts of the model share:
register words and bytes, the sparse store that holds registers and tables, and the time unit.
-/

namespace Sys2Proof

/-- A register word (R7). -/
abbrev Word := BitVec 32

/-- A byte of memory, of a packet or of a message (R5). -/
abbrev Byte := BitVec 8

/-- A sparse store of natural numbers by key: strictly rising keys, and no entry of value 0
(an unlisted key reads as 0). -/
abbrev SMap := List (Nat × Nat)

/-- An instant of the STC, counted in units of 2^-16 ns since the PTP epoch (R64: 48 bits of seconds,
30 bits of nanoseconds, 16 bits of fractional nanoseconds). -/
abbrev Time := Nat

/-- A duration in the unit of `Time`. -/
abbrev Span := Nat

end Sys2Proof
end

