-- ==== Sys2Proof/Syntax/Operand.lean ====
section
/-!
DEFINITION. The types of the commands' operands: what the outside world gives with a command.
-/

namespace Sys2Proof

/-- The width of a bus access (R8: only `word`, naturally aligned, is a legal register access). -/
inductive AccessSize where
  | byte | half | word | dword
  deriving DecidableEq, Repr

/-- The two references of R65. -/
inductive RefKind where
  | ptp | frameRef
  deriving DecidableEq, Repr

/-- What the error check of a memory word found. -/
inductive Ecc where
  | clean | single | double
  deriving DecidableEq, Repr

/-- How a drive's transfer for a command ended. -/
inductive NvmeEnd where
  | ok | media | dram
  deriving DecidableEq, Repr

/-- What a mount finds on a drive (R370, R371): the namespace that it presents, with the bytes of its logical blocks and of their metadata;
the store set id and the drive index that its superblock names; the number of its segments, the 64-byte records of its index region, and
the pages of its journal, 4,096 bytes each. -/
structure DriveInfo where
  present    : Bool
  namespace_ : Nat
  block      : Nat
  metadata   : Nat
  storeSet   : Nat
  number     : Nat
  segs       : Nat
  index      : List (List Byte)
  journal    : List (List Byte)
  deriving DecidableEq, Repr

/-- The engines that take lulls (Table 19-3): a Fuller engine, a HEVC session, the Hatbox's reads, the DRAM scrubber of a
quadrant, the SRAM scrubber. -/
inductive LullUnit where
  | fuller (engine : Fin 4)
  | hevc (session : Fin 32)
  | hatbox
  | dramScrub (quadrant : Fin 4)
  | sramScrub
  deriving DecidableEq, Repr

/-- The classes of DRAM traffic (Table 2-3). -/
inductive TrafficClass where
  | live | stream | bulk
  deriving DecidableEq, Repr

/-- The requesters of Table 2-3, of R45 and of R155; of HEVC traffic, whether the session is LIVE; of the temporal-NR reference, whether
the camera is on the Draught path; of Hatbox reads, whether they replay on the wall. -/
inductive Requester where
  | layerRead | tapWrite | nrReference (draught : Bool) | tableRead
  | storeWrite | statistics | recording | replay (wall : Bool) | hevc (live : Bool) | audio | checkpoint
  | fuller | clip | scrub | tblLoad | management | pageMove
  deriving DecidableEq, Repr

/-- The class of a requester's traffic (R35, Table 2-3, R45). The reference of a camera that is not on the Draught path is in no
row of the table: it is frame-store traffic of the Framed path (log entry 103). -/
def Requester.cls : Requester → TrafficClass
  | .layerRead | .tapWrite | .tableRead => .live
  | .nrReference draught => if draught then .live else .stream
  | .storeWrite | .statistics | .recording | .audio | .checkpoint => .stream
  | .replay wall => if wall then .stream else .bulk
  | .hevc live => if live then .stream else .bulk
  | .fuller | .clip | .scrub | .tblLoad | .management | .pageMove => .bulk

/-- A request that reaches a DRAM channel: requester, device address, whether it writes. -/
structure DramArrival where
  from_ : Requester
  addr  : Nat
  write : Bool
  deriving DecidableEq, Repr

/-- What an Announce carries (R463, IEEE 1588): the transport it came by (R460, as TRANSPORT counts them), the sender, the domain, the data set of its grandmaster, stepsRemoved, and
the interval between Announces in ns. -/
structure Announce where
  transport : Nat
  source   : Nat
  domain   : Nat
  gm       : Nat
  prio1    : Nat
  cls      : Nat
  accuracy : Nat
  variance : Nat
  prio2    : Nat
  steps    : Nat
  interval : Nat
  deriving DecidableEq, Repr

/-- A PTP Sync, Follow_Up or Delay_Resp as a port receives it (R460): transport, sender, domain, sequenceId, the time it carries in
2^-16 ns, its correction in 2^-16 ns, whether a Follow_Up will come, and the interval between delay requests in ns that a Delay_Resp grants. -/
structure PtpMsg where
  transport : Nat
  source  : Nat
  domain  : Nat
  seq     : Nat
  time    : Nat
  corr    : Int
  twoStep : Bool
  interval : Nat
  deriving DecidableEq, Repr

/-- Where a cue datagram comes from: port, address family, address, UDP port, with the UDP port that it is sent to; or the SPI target
port. -/
inductive CueFrom where
  | eth (port : Fin 2) (v6 : Bool) (addr : List Byte) (udp : Nat) (dst : Nat)
  | spi
  deriving DecidableEq, Repr

/-- The targets of calibration (Table 11-6). -/
inductive CalKind where
  | rx | cam | dram
  deriving DecidableEq, Repr

/-- The instructions of the IEEE 1149.1 test port (R555): those of the standard, and REGACC, which reaches a register. -/
inductive TestInstr where
  | bypass | idcode | sample | preload | extest | clamp | highz
  | regacc (addr : Nat) (write : Option Nat)
  deriving DecidableEq, Repr

/-- A read of the register bus: its address and its width. -/
structure RegRead where
  addr : Word
  size : AccessSize
  deriving DecidableEq, Repr

/-- A moment of a camera port: the time since the latest moment, and the frequency of the bridge's clock in kHz as the port measures it
(R112). -/
structure CamTick where
  dt  : Nat
  khz : Nat
  deriving DecidableEq, Repr

/-- A check word on CV (R106); `hs` says that HS has risen since the line, so that it comes too late. -/
structure CheckWord where
  hs   : Bool
  word : Word
  deriving DecidableEq, Repr

/-- A use of a lane's retransmit FIFO, with what the error check of its words found. -/
structure FifoUse where
  lane : Fin 64
  ecc  : List Ecc
  deriving DecidableEq, Repr

/-- The blocks that reach the return receiver of a lane (R270). -/
structure LaneBlocks where
  lane   : Fin 64
  blocks : List (BitVec 130)
  deriving DecidableEq, Repr

/-- How a pairing lane stands to the others: its skew in symbols, and the symbols by which the sender's clock is ahead (R322). -/
structure LanePace where
  skew  : Nat
  ahead : Int
  deriving DecidableEq, Repr

/-- An audio frame start: the time since the latest moment, and whether FS falls there instead of rising (R444). -/
structure FrameEdge where
  dt      : Nat
  falling : Bool
  deriving DecidableEq, Repr

/-- An ACK frame: its bytes, the SEQ that it covers, and whether it answers a gap (R347, log entry 109). -/
structure AckRx where
  bytes : List Byte
  seq   : Word
  gap   : Bool
  deriving DecidableEq, Repr

/-- What a SIG frame says: the signature of the frame that begins at a WLN (R352). -/
structure SigRx where
  sig : Word
  wln : Word
  deriving DecidableEq, Repr

/-- A DRAM read as it returns: who asked for it, and what the error check found (R490). -/
structure DramReturn where
  from_ : Requester
  ecc   : Ecc
  deriving DecidableEq, Repr

end Sys2Proof
end

