-- ==== Sys2Proof/Machine/Parts/Base.lean ====
section
/-!
DEFINITION. The parts of the device state that every block shares: the event log (chapter 21), the snapshots,
wall time, the calendar, the commits, the paged tables, boot and the clock monitors (chapters 2, 3, 20).
Fields that a register reports stand in the register file and not here.
-/

namespace Sys2Proof.Machine

/-- The states of the device (Table 1-4, Table 1-5); `off` has no code in TOP.STATE. -/
inductive DevState where
  | off | boot | cold | warm | live | yielded | safe
  deriving DecidableEq, Repr

/-- What the entry of a fired calendar entry holds beside the sixteen bytes of Table 21-1, which have no place for it (log entry
104): the PAST flag (R84), the WLN at which the entry started (R86), and both arguments (Table 3-10). -/
structure FiredNote where
  past : Bool
  wln  : Nat
  arg0 : Nat
  arg1 : Nat
  deriving DecidableEq, Repr

/-- What an event log entry holds beside its sixteen bytes: that of a fired calendar entry, and the requester class of an uncorrectable
DRAM error (R491; log entry 104). -/
inductive LogNote where
  | fired (n : FiredNote)
  | requester (cls : TrafficClass)
  deriving DecidableEq, Repr

/-- An event log entry (Table 21-1), with its stamp as an STC instant, the time it arose, and what it holds beside its bytes. -/
structure LogEntry where
  stamp   : Time
  born    : Time
  source  : Nat
  inst    : Nat
  cls     : Nat
  code    : Nat
  detail  : Nat
  episode : Nat
  note    : Option LogNote
  deriving DecidableEq, Repr

/-- A log source: when ERR takes its latest entry, and how many entries it has dropped since its last
accepted one (R525, R526). -/
structure LogSource where
  source : Nat
  free   : Time
  gap    : Nat
  deriving DecidableEq, Repr

/-- The event log (R524 to R528): the entries ERR holds, the on-chip ring (sequence number and entry, newest
first, at most 256) and the sources. -/
structure LogPart where
  held    : List LogEntry
  ring    : List (Nat × LogEntry)
  sources : List LogSource
  deriving DecidableEq, Repr

/-- One block's snapshot bank (R537, R540): block, instance, the latched register fields, the STC of the latch. -/
structure SnapBank where
  source  : Nat
  inst    : Nat
  vals    : SMap
  stamp   : Time
  latched : Bool
  missed  : Bool
  deriving DecidableEq, Repr

/-- Snapshots (R536 to R541): the banks, the STC of the last broadcast, the time CALM_OUT returns high, whether
CALM_N has triggered before, whether a dump is owed; and the banks before the last broadcast that latched any, with its time, for
blocks whose request is discarded (R55). -/
structure SnapPart where
  banks     : List SnapBank
  last      : Option Time
  outUntil  : Time
  pinFired  : Bool
  dumpOwed  : Bool
  before    : List SnapBank
  latchedAt : Option Time
  deriving DecidableEq, Repr

/-- Wall time (R61 to R80) beyond its registers. -/
structure WtmPart where
  /-- The line generator runs (R230). -/
  running    : Bool
  /-- No boundary has come since the generator started: the next one is WLN 0 (R230). -/
  fresh      : Bool
  /-- WLN, 48 bits (R61). -/
  wln        : Nat
  /-- Lines since the origin `t0`, from which R64 places the boundaries. -/
  n          : Int
  /-- The origin t₀ of R64. -/
  t0         : Int
  /-- STC time of the latest line boundary. -/
  lineAt     : Int
  /-- Phase error still to be removed by slewing, 2^-16 ns (R75). -/
  slewLeft   : Int
  /-- Adjustment of the present frame (R75). -/
  slewNow    : Int
  /-- EPOCH value written since the last step, which the next step takes (R80). -/
  epochHeld  : Option Nat
  /-- EPOCH mapping in use (R66, R80). -/
  epochUse   : Nat
  /-- A step has taken place since BOOT (R80). -/
  stepped    : Bool
  /-- A step is due at the next frame boundary (R71). -/
  stepDue    : Bool
  /-- The first alignment in ACQUIRE after BOOT is done (R71). -/
  aligned    : Bool
  /-- A latch by SAMPLE.GO is due at the next boundary (R79). -/
  sampleDue  : Bool
  ptpValid   : Bool
  frefValid  : Bool
  /-- Time of the latest selected FRAME_REF edge. -/
  frefEdge   : Option Int
  /-- Expected edges missed in a row (R68). -/
  frefMissed : Nat
  /-- Offset of the PTP master that a refused jump left, 2^-16 ns: what an acceptance adds to the STC (R74, R465). -/
  jump       : Int
  deriving DecidableEq, Repr

/-- A calendar entry (R81) with its PAST mark (R83). -/
structure CalEntry where
  target : Nat
  action : Nat
  groups : Nat
  tag    : Nat
  arg0   : Nat
  arg1   : Nat
  past   : Bool
  deriving DecidableEq, Repr

/-- A CUE or MARK entry that has fired and waits for the management core (R86): the entry, and the WLN at which it fired. -/
structure FiredEntry where
  entry : CalEntry
  at_   : Nat
  deriving DecidableEq, Repr

/-- The line calendar (R81 to R89): pending entries in order of insertion, tags of the last 1,024 fired entries
(newest first), fired CUE and MARK entries waiting to start. -/
structure CalPart where
  entries : List CalEntry
  fired   : List Nat
  runq    : List FiredEntry
  deriving DecidableEq, Repr

/-- Commits (R93 to R96): groups held for the cue message in progress, and groups that a COMMIT operation commits at the first
boundary after its message. -/
structure CommitPart where
  msgHold  : Nat
  afterMsg : Nat
  deriving DecidableEq, Repr

/-- Where a page of a table lies (R43). -/
inductive PageLoc where
  | region | pool | dram
  deriving DecidableEq, Repr

/-- A shadow page of a table (R42): the page number, where it lies, and its bytes by table byte offset. -/
structure ShadowPage where
  page  : Nat
  loc   : PageLoc
  bytes : SMap
  deriving DecidableEq, Repr

/-- A table instance (Table 2-5): its live bytes (by byte offset), the live pages that do not lie in the table's own
region, its shadow pages, and committed pages that wait for a camera's frame start (R92). -/
structure TableInst where
  table  : Nat
  inst   : Nat
  live   : SMap
  moved  : List (Nat × PageLoc)
  shadow : List ShadowPage
  held   : List ShadowPage
  deriving DecidableEq, Repr

/-- A TBL load in progress (R48): table, instance, next index, entries left, DRAM address of the next entry. -/
structure TblLoad where
  table : Nat
  inst  : Nat
  index : Nat
  left  : Nat
  addr  : Nat
  deriving DecidableEq, Repr

/-- The table access port and the paged tables (R42 to R49): the tables, the load in progress, each table's commit
group (`TBL.INFO.GROUP`, Table 3-15 defaults until the image sets it), pages of the general pool carved out (R38). -/
structure TblPart where
  tables : List TableInst
  load   : Option TblLoad
  groups : List (Nat × Nat)
  carved : Nat
  deriving DecidableEq, Repr

/-- A section of the Caergon image (Table 20-2). -/
structure Section where
  kind   : Nat
  arg0   : Nat
  arg1   : Nat
  arg2   : Nat
  offset : Nat
  length : Nat
  scrc   : Nat
  deriving DecidableEq, Repr

/-- Boot (R505 to R520): TMODE as sampled, PLL lock, the bank being tried (0 A, 1 B) and whether it is the second,
the header accepted, the channels trained, the image applied, the firmware started, the STC at PORST_N release and
at the watchdog's last start. `octal` says that the flash reads in 8D-8D-8D mode (R505, R507). `stage` holds the image's bytes while they are staged in SRAM, and `mapped` says that the
allocation of Table 2-4 is in effect (R515). -/
structure BootPart where
  tmode    : Bool
  pll      : Bool
  bank     : Nat
  second   : Bool
  header   : Option (List Byte)
  sections : List Section
  dramCfg  : Option Nat
  trained  : Bool
  applied  : Bool
  released : Time
  wdogAt   : Time
  yieldAt  : Time
  supplyIn : Bool
  octal    : Bool
  stage    : List Byte
  mapped   : Bool
  deriving DecidableEq, Repr

/-- A register access that waits at a stopped domain (R56): its width (R8), and whether the cue message in hand made it. -/
structure BusWait where
  addr  : Nat
  write : Bool
  value : Nat
  size  : AccessSize
  since : Time
  cue   : Bool
  deriving DecidableEq, Repr

/-- The clock monitors (R51): stopped domains as (family, instance) in Table 2-17 order, and the register access that
waits. -/
structure ClkPart where
  stopped : List (Nat × Nat)
  wait    : Option BusWait
  deriving DecidableEq, Repr

/-- Levels of the single-bit pins (chapter 22): driven outputs and the sampled inputs the device reads.
`yieldN`, `calmOut`, `xspiOwnN` and `spitIrqN` are outputs; a driven CORE_VID code is given once the PLLs lock. -/
structure Pins where
  yieldN   : Bool
  calmOut  : Bool
  xspiOwnN : Bool
  spitIrqN : Bool
  coreVid  : Option Nat
  pfailN   : Bool
  porstN   : Bool
  strapRole : Bool
  strapBank : Bool
  tmode     : Bool
  /-- Test-port instruction in force (R555), by code; 0 is BYPASS. -/
  testInstr : Nat
  deriving DecidableEq, Repr

/-- A change of the DRAM array that a command makes: bytes written from an address on, or a range set to 0. -/
inductive MemOp where
  | write (addr : Nat) (bytes : List Byte)
  | clear (addr len : Nat)
  deriving DecidableEq, Repr

end Sys2Proof.Machine
end

