-- ==== Sys2Proof/Machine/Parts/Camera.lean ====
section
/-!
DEFINITION. The state of the camera ports (chapter 4) and of the raw pipelines (chapter 5) beyond their registers.
-/

namespace Sys2Proof.Machine

/-- Three colour components of a pixel: linear RGB as signed 18-bit samples (R160). -/
structure Rgb where
  r : Int
  g : Int
  b : Int
  deriving DecidableEq, Repr

/-- One camera port and its raw pipeline. -/
structure CamPart where
  /-- VS is high (R100). -/
  vs        : Bool
  /-- Time of the last frame start. -/
  lastStart : Option Time
  /-- Time of the last rising edge of VS. -/
  lastRise  : Option Time
  /-- Marks of the present frame, bit positions of Table 4-3. -/
  marks     : Nat
  /-- The next frame start is not checked against EXP_PERIOD (R112). -/
  noRate    : Bool
  /-- A glitch while VS was high marks the next frame CLK (R113). -/
  clkNext   : Bool
  /-- The CRC of the last line, whose check word has not come (R106). -/
  check     : Option Nat
  /-- The present frame feeds the pipeline (R107, R108). -/
  feeds     : Bool
  /-- The port rows of the present frame, in order, each completed or cut to WIDTH. -/
  rows      : List (List Nat)
  /-- Replacement runs from this port row on (R116, R151). -/
  replFrom  : Option Nat
  /-- The output rows of the present frame or slot that have left the pipeline, in order. -/
  outRows   : List (List Rgb)
  /-- How many of them have left the camera colour stage. -/
  taken     : Nat
  /-- The reference buffer that holds the last good frame (R144). -/
  goodBuf   : Nat
  /-- Frames since the last history restart, saturating at 4 (R147). -/
  histAge   : Nat
  /-- The next frame is the first after a history restart, and whether the restart sets the last good frame to
  black (R147). -/
  restart   : Bool
  /-- Camera frames since the pipeline started (Table 5-2). -/
  frameSeq  : Nat
  /-- WLN at the present frame's start. -/
  startWln  : Nat
  /-- The statistics of a completed frame that wait to be written (R155). -/
  stat      : Option (List Byte)
  /-- The slot after the last frame start has been filled (R118). -/
  slotDone  : Bool
  /-- STC instant at which the frame or the filled slot whose rows leave the pipeline starts (R118). -/
  slotStart : Int
  /-- Those rows are of a filled slot or a substitute frame, at the line times of a frame that starts at `slotStart` (R118). -/
  filled    : Bool
  /-- The present frame started in substitution (R120). -/
  inSubst   : Bool
  /-- When the next substitute frame is due (R119). -/
  substDue  : Time
  /-- Consecutive calibration deferrals (R123). -/
  defers    : Nat
  deriving DecidableEq, Repr

/-- The two banks of static defect entries of a raw pipeline (R135), by 65,536 × bank + index. -/
structure DefectBanks where
  vals : SMap
  deriving DecidableEq, Repr

end Sys2Proof.Machine
end

