-- ==== Sys2Proof/Machine/Parts/Colour.lean ====
section
/-!
DEFINITION. The state of colour and wall correction (chapter 6) beyond its registers: the banked LUTs and the loops.
-/

namespace Sys2Proof.Machine

/-- A set of loop values (R177): the ambient factor, the power-cap gain in U1.15, per tile how far the derate gain lies below 1.0, in
U1.15 (an unlisted tile stands at 1.0), and with them what a successor continues from (R179; log entry 122): the boundaries since the
power cap last fell, at most 3 (R185), and the tiles whose first telemetry has been taken (R184). -/
structure LoopSet where
  a      : Nat
  cap    : Nat
  loss   : SMap
  capAge : Nat
  seen   : List Nat
  deriving DecidableEq, Repr

/-- An ambient-light sensor (R180): its last good reading in lux, whether it is valid, and readings of the other kind
in a row. -/
structure Sensor where
  lux   : Nat
  valid : Bool
  run   : Nat
  deriving DecidableEq, Repr

/-- Colour and wall correction. -/
structure ClrPart where
  /-- LUT entries (R192) by ((((kind × 16 + instance) × 2 + bank) × 4 + channel) × 2,048 + index). -/
  luts     : SMap
  /-- The set in use for the present frame. -/
  cur      : LoopSet
  /-- The set fixed for the next frame (R177). -/
  next     : LoopSet
  /-- The last set received from the windward, with the frame it is fixed for, and the one received before it (R178). -/
  received : Option (Nat × LoopSet)
  before   : Option (Nat × LoopSet)
  /-- How far each tile's derate target lies below 1.0 (R183). -/
  target   : SMap
  /-- Tiles that sent a temperature since the last frame boundary (R184). -/
  fresh    : List Nat
  /-- Tiles that have reported their power (R185). -/
  reported : List Nat
  /-- The filtered ambient level ℓ_f in units of 2^-32 stop, once set (R181; log entry 11). -/
  level    : Option Int
  sensors  : List Sensor
  /-- A saturation took place in the present wall frame; in the present frame of the cameras in the mask (R163). -/
  satWall  : Bool
  satCams  : Nat
  /-- Step 5 clamped a channel in the present frame (Table 6-9). -/
  clip     : Bool
  deriving DecidableEq, Repr

end Sys2Proof.Machine
end

