-- ==== Sys2Proof/Machine/Parts/Hatbox.lean ====
section
/-!
DEFINITION. The state of the Hatbox recording store (chapter 13) beyond its registers.
-/

namespace Sys2Proof.Machine

/-- A commit record (R373, Table 13-2). -/
structure CommitRec where
  lsn   : Nat
  epoch : Nat
  take  : Nat
  off   : Nat
  len   : Nat
  drive : Nat
  flags : Nat
  lba   : Nat
  deriving DecidableEq, Repr

/-- A take (R375, R376): the take it is linked to (0 none), the client slot whose stream writes it, whether it is open,
the end of its last completed WRITE and of its last completed WRITE with BLOCK_END, and the status that the writes of a
stream in FAULT end its FLUSHes with (0 where it is not in FAULT, R394). -/
structure Take where
  id       : Nat
  prev     : Nat
  client   : Nat
  open_    : Bool
  comp     : Nat
  readable : Nat
  fault    : Nat
  deriving DecidableEq, Repr

/-- A command that holds a tag (R379): its submission entry, its number in order of consumption, when it took the tag, the CMD_TO
committed then (G7, R393),
whether its data is staged and whether it was counted as waiting for staging, the status it has ended with, whether its
completion is posted, the drives with commands outstanding for it, and the WRITEs that a FLUSH covers or a READ waits for; the status
that a WRITE will end with in its turn where that is not OK (R383); the parts of a READ's range that it found in staging (R384). -/
structure HCmd where
  ser    : Nat
  tag    : Nat
  client : Nat
  op     : Nat
  flags  : Nat
  cid    : Nat
  take   : Nat
  off    : Nat
  len    : Nat
  buf    : Nat
  arg    : Nat
  since  : Time
  limit  : Nat
  staged : Bool
  waited : Bool
  status : Option Nat
  posted : Bool
  outs   : List Nat
  cover  : List Nat
  owed   : Option Nat
  laid   : List (Nat × List Byte)
  deriving DecidableEq, Repr

/-- A completion that has yet to be posted: whose, its entry (Table 13-4), the command it ends if that holds a tag, and
whether it was counted as waiting for the ring (R399). -/
structure HCompl where
  client : Nat
  cid    : Nat
  status : Nat
  tag    : Nat
  done   : Nat
  ser    : Option Nat
  waited : Bool
  deriving DecidableEq, Repr

/-- A staged write, or, with no data, the record of an OPEN, CLOSE or DELETE (R382, R386): the number of its command,
where it belongs, its data and the 4 KiB units of the staging area that hold it, its place on a drive, the NVMe Writes tried, and its phase: 0 not issued, 1 an NVMe Write
outstanding, 2 written, 3 in a batch. `complete` once its WRITE has completed with OK; `dead` once it must not be
committed. -/
structure Staged where
  ser      : Nat
  client   : Nat
  take     : Nat
  off      : Nat
  flags    : Nat
  data     : List Byte
  units    : List Nat
  drive    : Nat
  lba      : Nat
  tries    : Nat
  phase    : Nat
  complete : Bool
  dead     : Bool
  deriving DecidableEq, Repr

/-- A commit batch (R386): its step, the numbers of the writes it covers and the records it writes. -/
structure HBatch where
  step  : Nat
  cover : List Nat
  recs  : List CommitRec
  deriving DecidableEq, Repr

/-- A drive (R369, R386, R393): the first block and the number of its segments, its frontier as segment and blocks used,
the ring position of its next journal page, its batch, when its last batch started, the recovery in progress: the commands
whose NVMe Aborts are unresolved and since when, or since when the controller has been reset; whether its link is held down (R393). -/
structure HDrive where
  base    : Nat
  segs    : Nat
  front   : Option (Nat × Nat)
  jpos    : Nat
  batch   : Option HBatch
  batchAt : Option Time
  aborts  : List (Nat × Time)
  resetAt : Option Time
  down    : Bool
  deriving DecidableEq, Repr

/-- A decodable unit that a recorder writes (R377): its length, the frame-store buffer it lies in, and, until the recorder takes it up, its
WRITEs. -/
structure RecUnit where
  len   : Nat
  keep  : Option (Nat × Nat)
  parts : List (Nat × Nat × Bool)
  deriving DecidableEq, Repr

/-- An internal recorder (R377, R378): its client slot, what it records (`Config.ImageFixed`), the take it writes and the offset of its
next WRITE, its next CID, the WRITEs that its ring has no room for (address, length, whether BLOCK_END), and the units whose last
WRITE has not completed. -/
structure Recorder where
  slot  : Nat
  kind  : Nat
  n     : Nat
  take  : Nat
  next  : Nat
  cid   : Nat
  wait  : List (Nat × Nat × Bool)
  units : List RecUnit
  deriving DecidableEq, Repr

/-- The recording store: its takes and durable records (the index with its tail), commands with tags, completions to be
posted, staged writes, drives, the rotations over drives and clients, the next LSN and command number, the CIDs of
posted completions, entries of the submission rings that were ended in place, the next place in each completion ring and
its pass, the firmware activation in progress (tag, drive, start), whether NVMe Writes wait for the first claim of a
takeover and whether the roll-forward of R398 is due; the internal recorders and other internal clients; the namespace and the store set
id that the image names. -/
structure HbxPart where
  takes   : List Take
  recs    : List CommitRec
  cmds    : List HCmd
  compl   : List HCompl
  staged  : List Staged
  drives  : Vector HDrive 4
  rot     : Nat
  turn    : Nat
  lsn     : Nat
  ser     : Nat
  posted  : List (Nat × Nat)
  skip    : List (Nat × Nat)
  cq      : Vector (Nat × Bool) 16
  fw      : Option (Nat × Nat × Time)
  hold    : Bool
  rollDue : Bool
  recorders : List Recorder
  namespace_ : Nat
  storeSet  : Nat
  deriving DecidableEq, Repr

end Sys2Proof.Machine
end

