-- ==== Sys2Proof/Machine/Parts/Pixel.lean ====
section
/-!
DEFINITION. The pixel types of the colour path (R162).
-/

namespace Sys2Proof.Machine

/-- An FP24 result: its code, and whether it or a result it comes from was saturated (R163). -/
structure Fp where
  code : Nat
  sat  : Bool
  deriving DecidableEq, Repr

/-- A pixel of three FP24 values. -/
structure Pix where
  r : Fp
  g : Fp
  b : Fp
  deriving DecidableEq, Repr

end Sys2Proof.Machine
end

