-- ==== Sys2Proof/Machine/Parts/Compositor.lean ====
section
/-!
DEFINITION. The state of the compositor (chapter 7) and of scan-out (chapter 8) beyond their registers.
-/

namespace Sys2Proof.Machine

/-- A source row in a layer's window buffer (R209): its number, its entry time on the STC, its pixels, the start of its
camera frame, and whether it is a row of a repeat slot (R207). -/
structure WinRow where
  y  : Nat
  at_ : Int
  px : List Pix
  start : Int
  rep : Bool
  deriving DecidableEq, Repr

/-- A frame-store buffer: store and buffer number. -/
structure BufRef where
  fs  : Nat
  buf : Nat
  deriving DecidableEq, Repr

/-- A layer (R199 to R220). -/
structure LayerPart where
  /-- The window buffer. -/
  win      : List WinRow
  /-- The camera frame in progress is the selected one (R207). -/
  sel      : Bool
  /-- A frame has been selected in the present lock cycle, or the cycle has been settled as a repeat slot. -/
  settled  : Bool
  /-- The rows of a repeat slot that have yet to enter the window (R207). -/
  slot     : List WinRow
  /-- Of the last selected frame: entry of row 0 after its start, and its line period (R207). -/
  rowLead  : Int
  rowTime  : Int
  /-- Its start. -/
  start    : Int
  /-- The smallest and the largest slack so far (R210). -/
  slackLo  : Option Int
  slackHi  : Option Int
  /-- Rows whose entry gives a band's slack and that had not entered when the band was composited, with its deadline (R210). -/
  pend     : List (Nat × Int)
  /-- The buffer latched for the present wall frame, its SEQ, and the buffer of the frame before (R217, R220). -/
  latch    : Option BufRef
  seq      : Nat
  prev     : Option BufRef
  /-- The latch at L_T − 8 for the next wall frame. -/
  next     : Option BufRef
  nextSeq  : Nat
  /-- Buffers that the layer had latched in the present frame, and in the frame before, until a commit changed its source (R216). -/
  gave     : List BufRef
  gavePrev : List BufRef
  deriving DecidableEq, Repr

/-- A frame that waits to be written to a frame store (R213): its blocks' bytes, DUE, MARKS, the tap that writes it, the class of its
writer's traffic (Table 2-3), and the port and FRAME_SEQ of a camera frame. -/
structure FsFrame where
  fs    : Nat
  bytes : List Byte
  due   : Nat
  marks : Nat
  tap   : Option Nat
  cls   : TrafficClass
  cam   : Option (Nat × Nat)
  deriving DecidableEq, Repr

/-- A tap (R227): frames passed since the one it last took, and the canvas rows taken so far. -/
structure TapPart where
  count : Nat
  rows  : List (List Pix)
  deriving DecidableEq, Repr

/-- The compositor. -/
structure CmpPart where
  /-- Scaler coefficients by 4,096 × bank + INDEX, 12 bits each (R203). -/
  coefs   : SMap
  layers  : Vector LayerPart 16
  taps    : Vector TapPart 4
  waiting : List FsFrame
  /-- Tap buffers that consumers hold (R228): buffer and consumer. -/
  holds   : List (BufRef × Nat)
  /-- The band composited last in this frame, and whether every band of the frame was. -/
  bands   : Nat
  whole   : Bool
  /-- The signature's CRC register so far (R226). -/
  sig     : Nat
  /-- An unmapped block has been counted in this frame (R224). -/
  unmapped : Bool
  /-- The last row of the band before, after the horizontal blends (R222). -/
  above   : List Pix
  deriving DecidableEq, Repr

/-- A batt that a lane has yet to take (R234): tile, canvas position of its first pixel, batt row and column within the
tile, whether it ends its batt row, the WLN of its band's first line, its display line and the line of its deadline as OFS and
MARGIN stood when the band began (R92, R281), its number on the lane, its format, whether its half is black, the Felt controls of its band (FORCE, FLAT_EN, PRED_EN, PAL2_EN as in FLT.CTRL), and when it falls due. -/
structure Batt where
  tile   : Nat
  x      : Nat
  y      : Nat
  row    : Nat
  col    : Nat
  rowEnd : Bool
  band   : Nat
  dline  : Nat
  dead   : Nat
  i      : Nat
  fmt    : Nat
  black  : Bool
  ctl    : Nat
  due    : Int
  deriving DecidableEq, Repr

/-- Scan-out (R232 to R242) and the Felt encoder's frame counts (R266). -/
structure ScnPart where
  /-- Whole line periods since the device entered WARM or LIVE (R232), -1 before the first boundary after an entry within a line. -/
  from_  : Option Int
  run    : Bool
  /-- Drive codes of the pixels of batts not yet taken, by 32,768 × row + column: code + 1. -/
  codes  : SMap
  /-- Keys of those that have not reached the scan-out buffer. -/
  absent : List Nat
  /-- Keys of pixels whose batt was taken before they arrived (R240). -/
  missed : List Nat
  /-- Bands in which a half filled a slot, by half and WLN of the band's first line, and bands whose last batts have yet to be
  taken although their lines have passed (R241). -/
  filled : List (Nat × Nat)
  open_  : List (Nat × Nat)
  /-- Felt counts of the frame in progress: FLAT, PRED, PAL2, TRUNC. -/
  modes  : List Nat
  /-- Largest error of the frame in progress, East and West. -/
  errMax : List Nat
  /-- The refused ratio that has been counted (R265). -/
  refused : Option Nat
  /-- The Felt ratio in use (R264, R265). -/
  ratio  : Nat
  deriving DecidableEq, Repr

end Sys2Proof.Machine
end

