-- ==== Sys2Proof/Machine/Parts/Link.lean ====
section
/-!
DEFINITION. The state of the tile link and of the serial lanes (chapters 10 and 11) beyond their registers.
-/

namespace Sys2Proof.Machine

/-- The link fields of a tile context (Table 10-8, bytes 68 to 103), by tile id. -/
structure TileLink where
  id        : Nat
  txSeq     : Nat
  floor     : Nat
  own       : Nat
  tileOwn   : Nat
  tileEpoch : Nat
  ownLine   : Nat
  fseq      : Nat
  temp      : Nat
  volt      : Nat
  curr      : Nat
  dead      : Nat
  crcErr    : Nat
  lost      : Nat
  tlWln     : Nat
  staleWln  : Nat
  deriving DecidableEq, Repr

/-- A packet before it has a sequence number (R280): a PX of up to 4 batts, or a CT (`op` above 0) with its address and
data. -/
structure Draft where
  tile  : Nat
  op    : Nat
  dline : Nat
  /-- The wall line of its deadline (R281). -/
  dead  : Nat
  row   : Nat
  col   : Nat
  fmt   : Nat
  batts : List (List Byte)
  recon : List Byte
  addr  : Nat
  data  : Nat
  deriving DecidableEq, Repr

/-- A packet in a retransmit FIFO (R283): the wall line of its deadline, its stored words, its transmissions, its release, and whether
that counts as one of the exhausted packets of R301. -/
structure Pkt where
  tile     : Nat
  seq      : Nat
  op       : Nat
  dline    : Nat
  dead     : Nat
  bytes    : List Byte
  sends    : Nat
  lastSent : Time
  released : Bool
  lost     : Bool
  deriving DecidableEq, Repr

/-- A CLAIM or HANDOVER that the redundancy control has asked for (R297): kind 0 CLAIM, 1 HANDOVER; a probe is a CLAIM
that sets no bit of OWN; `sent` is the WLN at which it last went out. -/
structure Vr where
  tile   : Nat
  kind   : Nat
  newEnd : Nat
  epoch  : Nat
  atLine : Nat
  probe  : Bool
  sent   : Option Nat
  since  : Time
  deriving DecidableEq, Repr

/-- An enumeration (R300): when its KP went out, the replies (tile id, HOPS), and whether set positions are out. -/
structure Enum where
  sent    : Option Time
  replies : List (Nat × Nat)
  setPos  : Bool
  deriving DecidableEq, Repr

/-- A pattern checker (R323): the last bits that it has predicted from, the newest in bit 0; how many it has loaded; bits checked
since PAT_MBITS last counted; since when its own generator has fed it. -/
structure Pat where
  reg   : Nat
  got   : Nat
  bits  : Nat
  since : Time
  deriving DecidableEq, Repr

/-- A lane. -/
structure Lane where
  fifo  : List Pkt
  /-- Index of the packet that is sent next. -/
  tx    : Nat
  /-- A rewind in progress reaches up to this index (R286, R287). -/
  upTo  : Nat
  /-- The packet being filled, and packets held for the FIFO (R242); words of the first of these that the FIFO has taken (R284). -/
  fill  : Option Draft
  wait  : List Draft
  within : Nat
  /-- Batts that have yet to fall due, and whether the band was cut short (R238). -/
  due   : List Batt
  over_ : Bool
  /-- The last pixel emitted (R239): three drive codes. -/
  last  : List Nat
  vrs   : List Vr
  /-- Packets released as exhausted in a row just before the oldest one in the FIFO (R301). -/
  exh   : Nat
  enum  : Option Enum
  /-- The forward scrambler's register after the last block sent, and the return descrambler's (R271). -/
  scr   : Nat
  dscr  : Nat
  /-- The return receiver (R272): in block lock; valid sync headers in a row while out of lock; block errors among the last 64
  blocks, the newest in bit 0; the packet that is open, with the blocks still to come, 0 for one of unknown TYPE. -/
  lock  : Bool
  good  : Nat
  errs  : Nat
  rx    : Option (List Byte × Nat)
  /-- The positions that the chain has from this end where a break ends it (R363): from, to. -/
  part  : Option (Nat × Nat)
  /-- ACK_TO stands still since (R328). -/
  pause : Option Time
  pat   : Pat
  deriving DecidableEq, Repr

/-- An octet (R313 to R318): the step of a change of mode (0 none, 1 to 3), the mode it leads to, the mode wanted, the
time of the last step, whether lanes are being enumerated, markers sent, a recovery in progress, lanes that showed the
nearest break at the last boundary, and the preset values in use (TX_SWING, TX_PRE, TX_POST, RX_CTLE). -/
structure Octet where
  step   : Nat
  dest   : Nat
  goal   : Nat
  since  : Time
  enum   : Bool
  mcount : Nat
  auto_  : Bool
  brk    : Nat
  preset : List Nat
  deriving DecidableEq, Repr

/-- The CT in progress (R306): tile, OP, register offset, the wall line of its deadline, its sequence number once it has one. -/
structure CtJob where
  tile  : Nat
  op    : Nat
  addr  : Nat
  dead  : Nat
  seq   : Option Nat
  deriving DecidableEq, Repr

/-- The tile link. -/
structure LinkPart where
  /-- This device stands at the tail end of the chains (R18; log entry 12). -/
  tail   : Bool
  /-- The chain map: per lane, the tile ids by position (Table 20-3). -/
  chains : List (List Nat)
  lanes  : Vector Lane 64
  octets : Vector Octet 8
  ct     : Option CtJob
  /-- The display line from which this device, outgoing in a veer, sends nothing (R361). -/
  until_ : Option Nat
  /-- When the stale timer of each tile last started (R302), for tiles of lanes that are up. -/
  heard  : List (Nat × Time)
  /-- Tiles of which a TL has been accepted (R299). -/
  spoke  : List Nat
  deriving DecidableEq, Repr

/-- A unit of calibration (R325): kind 0 return lane, 1 camera port, 2 DRAM channel, and its number. -/
structure CalUnit where
  kind : Nat
  n    : Nat
  deriving DecidableEq, Repr

/-- A run in progress: its unit, its phase (R328), when it and the phase started, the clean phase and threshold taps of
its eye scan, the mismatches of its residual check, and whether the unit has lost lock or clock in it (R331). -/
structure CalRun where
  unit  : CalUnit
  phase : Nat
  start : Time
  at_   : Time
  ph    : Nat
  thr   : Nat
  errs  : Nat
  lost  : Bool
  deriving DecidableEq, Repr

/-- Calibration (R325 to R333): queued units, runs in progress, retries that are due, bad runs in a row per unit, drift
baselines in quarter degrees, the delay taps of the DRAM channels with their targets (R332), when the last DRAM window
ended, and whether a run has been bad since homing health began anew (R366). -/
structure CalibPart where
  queue  : List CalUnit
  runs   : List CalRun
  retry  : List (CalUnit × Time)
  bad    : List (CalUnit × Nat)
  base   : List (CalUnit × Int)
  dram   : List (List Nat × List Nat)
  dramAt : Time
  anyBad : Bool
  deriving DecidableEq, Repr

/-- A physical pairing lane's receiver (R322): symbols since its last alignment column began, none while it has found none; columns
in a row at the expected spacing; columns missing in a row; errors among the last 256 symbols, the newest in bit 0; the number that
the present column carries; symbols by which its columns come behind those of the first lane; K28.0 symbols that rate compensation has
yet to drop from the lane, or below 0 to add to it. -/
structure PairLane where
  slot : Option Nat
  cols : Nat
  miss : Nat
  errs : Nat
  num  : Nat
  late : Nat
  slip : Int
  pat  : Pat
  deriving DecidableEq, Repr

/-- The pairing lanes, and the symbols by which the partner's reference has run ahead of this device's and that rate compensation has
yet to absorb (R322). -/
structure PairLanes where
  lanes : Vector PairLane 4
  ahead : Int
  deriving DecidableEq, Repr

end Sys2Proof.Machine
end

