-- ==== Sys2Proof/Machine/Parts/Stream.lean ====
section
/-!
DEFINITION. What the pairing stream carries (R346 to R351, Tables 12-2 to 12-6). The spec gives the frames' header and
what a cut holds, and no byte layout of the payloads: here a payload is the data it stands for (log entry 18).
-/

namespace Sys2Proof.Machine

/-- What a cut carries (Table 12-6): its WLN; the register values that the checkpoint carries, with the copies that
commits have taken and those in use, and the Felt ratio in use; the paged tables; the banked memories; the loop value set and the frame it is fixed
for; the tiles' reported state, and which tiles have ever reported; the calendar with the stored cues; wall time; the veer epoch; the arrival number; the index
of the recording store; the next sequence number of each RTP stream (R479). -/
structure Ckpt where
  wln     : Nat
  regs    : SMap
  comm    : SMap
  live    : SMap
  ratio   : Nat
  tables  : List TableInst
  luts    : SMap
  coefs   : SMap
  defects : Vector DefectBanks 8
  loop    : Nat × LoopSet
  tiles   : List TileLink
  reported : List Nat
  cal     : CalPart
  stored  : List (Nat × List Byte)
  sched   : List (Nat × List Byte)
  epoch   : Nat
  lock    : Nat
  veer    : Nat
  arrival : Nat
  takes   : List Take
  recs    : List CommitRec
  rtp     : List Nat
  deriving DecidableEq, Repr

/-- A write that mirror mode carries (R351): of a register, of an entry of a paged table, of an entry of a banked memory
(0 the LUTs, 1 the scaler coefficients, 2 + n the defect list of pipeline n; its key there and its value), or the stream
offset and the RTP sequence number of a HEVC session at a paired restart (R436, R479). -/
inductive MirrorWrite where
  | reg (addr value : Nat)
  | table (table inst index : Nat) (bytes : List Nat)
  | bank (mem key value : Nat)
  | offset (session bytes : Nat) (seqs : List (Nat × Nat))
  deriving DecidableEq, Repr

/-- What a REQUEST frame asks or tells (R350, R357 to R366; log entry 18): versions and FIXED_ID; a veer, on a cue or by
homing; a split of a lane at a position under an epoch, with the line of the paired restart (R436); the end of a segment, with its
epoch and the line V of its handback; whether every lane of the incoming device is
up in forwarded mode; tiles that accepted a HANDOVER, with their OWN_LINE; that tiles of a split segment have accepted;
that a veer stands; that it is aborted, with the epoch that the pair then has. -/
inductive PairReq where
  | versions (ckpt fixed : Nat)
  | veer
  | homing
  | split (lane pos epoch line : Nat)
  | release (lane epoch v : Nat)
  | lanes (up : Bool)
  | accepted (tiles : List Nat) (ownLine : Nat)
  | claimed (tiles : List Nat)
  | stands (v : Nat)
  | abort (epoch : Nat)
  deriving DecidableEq, Repr

/-- The payload of a pairing frame (Table 12-5). ACK says whether it answers a gap (R347; log entry 109), BASE whether it is the last
of its base; CUT holds the CRC-32C over the cut's state frames beside what the cut stands for. -/
inductive PairBody where
  | beat (word : BitVec 128)
  | yield (word : BitVec 128)
  | ack (seq : Nat) (gap : Bool)
  | sig (sig wln : Nat)
  | request (r : PairReq)
  | base (last : Bool)
  | delta
  | cut (c : Ckpt) (crc : Nat)
  | mirror (w : MirrorWrite)
  | commit (line groups : Nat)
  | telem (t : TileLink)
  deriving DecidableEq, Repr

/-- A symbol of a pairing lane after 8b/10b decoding (R320): a control symbol, a data byte, a code violation or a running-disparity
error. -/
inductive PairSym where
  | k285 | k280 | k277 | k297
  | data (b : Byte)
  | code | disp
  deriving DecidableEq, Repr

/-- A frame of the pairing stream (R346, Table 12-4); LEN and the CRC-32C follow from it. -/
structure PairFrame where
  type    : Nat
  flags   : Nat
  seq     : Nat
  wln     : Nat
  payload : List Byte
  deriving DecidableEq, Repr

/-- What brings a word of Table 12-2 (R338): the bytes of a frame on the pairing stream, path A, or the levels of HB_IN by half bits
of 0.5 µs, path B. -/
inductive WordRx where
  | stream (bytes : List Byte)
  | pin (levels : List Bool)
  deriving DecidableEq, Repr

/-- The state frames that STATE_FRAME_RECEIVE brings: part of a base, changes of a frame, a mirrored write. -/
inductive StateBody where
  | base (last : Bool)
  | delta
  | mirror (w : MirrorWrite)
  deriving DecidableEq, Repr

/-- A REQUEST frame: its bytes, and what its payload stands for (log entry 18). -/
structure RequestRx where
  bytes : List Byte
  req   : PairReq
  deriving DecidableEq, Repr

/-- A TELEM frame: its bytes, and the tile's telemetry in it (log entry 18). -/
structure TelemRx where
  bytes : List Byte
  tile  : TileLink
  deriving DecidableEq, Repr

end Sys2Proof.Machine
end

