-- ==== Sys2Proof/Syntax.lean ====
section
/-!
DEFINITION. The commands of the ZV4096 (spec/opcode_table.json): one constructor per row of the table, with the
operands that the outside world gives with the command (log entry 1).
-/

namespace Sys2Proof

/-- The commands and events of the table of operations, one constructor per row. -/
inductive Instr where
  /-- PORST_N_ASSERT (R553): PORST_N held low for 1 µs resets the device to OFF and clears the log rings and all state that R528 names. -/
  | porstNAssert
  /-- PORST_N_RELEASE (R516): Release of PORST_N samples the straps, enters BOOT and starts the boot sequence. -/
  | porstNRelease (role bank tmode : Bool)
  /-- SUPPLY_MONITOR_RESET (R551): A monitored rail below its minimum for 2 µs resets the device as PORST_N does, without a yield word. -/
  | supplyMonitorReset
  /-- PFAIL_N_FALL (R388): PFAIL_N counted fallen stops new NVMe Writes and batches and ends open client commands with POWER_FAIL. -/
  | pfailNFall
  /-- PFAIL_N_RISE (R556): PFAIL_N rising lets batches resume and releases a Hatbox mount delayed at the end of BOOT. -/
  | pfailNRise
  /-- PLL_LOCK_TIMEOUT (R517): A PLL not locked 10 ms after boot step 1 leaves the device in SAFE with PLL_FAIL. -/
  | pllLockTimeout
  /-- PLL_LOCK (R550): The PLLs lock and the device drives the fused CORE_VID code. -/
  | pllLock
  /-- DRAM_TRAINING_DONE (R495): Boot training of all channels completes; a failing channel leaves the device in SAFE with DRAM_FAIL. -/
  | dramTrainingDone (failed : BitVec 32)
  /-- IMAGE_READ_DONE (R513): The bank's image has been read and checks 5 to 8 complete, accepting or rejecting the bank. -/
  | imageReadDone (body : List Byte)
  /-- WDOG_KICK (R520): A write of 1 to BOOT.WDOG_KICK restarts the firmware watchdog. -/
  | wdogKick
  /-- WATCHDOG_EXPIRY (R520): WDOG_MS without a kick fails check 9 in BOOT or is a fatal fault that yields with REASON 0x4. -/
  | watchdogExpiry
  /-- YIELD_TEST (R341): A write of 1 to VEER.CTRL.YIELD_TEST yields with REASON 0xF. -/
  | yieldTest
  /-- YIELD_HOLD_EXPIRY (R344): After YIELD_HOLD a device yielded for any reason other than a thermal trip restarts from BOOT keeping its log. -/
  | yieldHoldExpiry
  /-- READ_BOOT (R519): In SAFE the SPI command 0x10 returns BOOT.STATUS, TOP.STATE and six log codes. -/
  | readBoot
  /-- CLOCK_STOPPED (R51): A clock monitor sees 64 SENSE cycles without an edge, declares the domain stopped and discards pending requests into it. -/
  | clockStopped (family : Fin 18) (inst : Fin 64)
  /-- CLOCK_RUNNING (R51): A clock monitor sees 64 consecutive SENSE cycles with edges and declares the domain running again. -/
  | clockRunning (family : Fin 18) (inst : Fin 64)
  /-- BRIDGE_TIMEOUT (R56): A register access waiting at a stopped domain for 16,384 RBUS cycles is withdrawn with an error response and logged. -/
  | bridgeTimeout
  /-- REGISTER_WRITE (R13): A write to a register without a row of its own acts by its access codes, the access and BOOT-only rules and mirroring. -/
  | registerWrite (addr : Word) (value : Word) (size : AccessSize)
  /-- RC_READ (R15): A read of an RC counter or field returns its value and clears it. -/
  | rcRead (read : RegRead)
  /-- WLN_LO_READ (R78): A read of WTM.WLN_LO latches WLN bits [47:32] into WLN_HI. -/
  | wlnLoRead
  /-- WR_INDEX_LO_READ (R448): A read of AUD.IN WR_INDEX_LO latches WR_INDEX_HI. -/
  | wrIndexLoRead (p : Fin 4)
  /-- ARRIVAL_LO_READ (R97): A read of ETH.ARRIVAL_LO latches ARRIVAL_HI. -/
  | arrivalLoRead
  /-- WALL_LINE_BOUNDARY (R61): The line generator starts the scan of a line and WLN increments, carrying every action placed at that wall line. -/
  | wallLineBoundary
  /-- REFERENCE_VALID (R68): PTP or FRAME_REF becomes valid and a selected reference moves the lock state to ACQUIRE. -/
  | referenceValid (ref : RefKind)
  /-- REFERENCE_LOST (R68): The selected reference is lost and the lock state moves to HOLDOVER or FREE. -/
  | referenceLost (ref : RefKind)
  /-- FRAME_REF_EDGE (R65): A selected edge of FRAME_REF is time-stamped and checked against the expected frame start. -/
  | frameRefEdge (rising : Bool) (dt : Nat)
  /-- FRAME_REF_MISSING (R68): Two expected FRAME_REF edges in a row fail to arrive within ±1 µs and the reference is lost. -/
  | frameRefMissing
  /-- SOURCE_WRITE (R69): A write changing WTM.CTRL.SOURCE counts as loss of the old reference and begins acquisition of the new. -/
  | sourceWrite (value : Word)
  /-- EPOCH_WRITE (R80): A write to WTM.EPOCH is held and takes effect at the next step. -/
  | epochWrite (hi : Bool) (value : Word)
  /-- SAMPLE_GO (R79): A write of 1 to WTM.SAMPLE.GO requests a latch of WLN and STC at the next line boundary. -/
  | sampleGo
  /-- TIME_ACCEPT_SLEW (R465): Time acceptance with SLEW steps the STC and t₀ together by PENDING_JUMP and slews out the phase error. -/
  | timeAcceptSlew
  /-- TIME_ACCEPT_STEP (R465): Time acceptance with STEP steps the STC by PENDING_JUMP and enters ACQUIRE, refused in LIVE or WARM. -/
  | timeAcceptStep
  /-- CAL_INSERT (R83): Insertion of a staged calendar entry is checked in the order of R567 and stored pending or marked PAST. -/
  | calInsert
  /-- CAL_CANCEL (R89): A cancel removes all pending entries with the tag or replies TOO_LATE or NO_SUCH_TAG. -/
  | calCancel
  /-- STORED_CUE_RUN (R86): A fired CUE entry starts its stored cue on the management core after the boundary, or is refused as FIRED_REFUSED. -/
  | storedCueRun
  /-- MARK_RUN (R86): A fired MARK entry writes an event log entry and sends a fired report after the boundary. -/
  | markRun
  /-- COMMIT_ARM_WRITE (R93): Writing 1 to a bit of WTM.COMMIT_ARM arms that group for its next apply line. -/
  | commitArmWrite (value : Word)
  /-- TBL_READ (R49): TBL.CMD.READ copies the selected entry into TBL.DATA, shadow content first. -/
  | tblRead
  /-- TBL_WRITE (R42): TBL.CMD.WRITE copies TBL.DATA into the entry, creating shadow pages as needed. -/
  | tblWrite
  /-- TBL_SEL_WRITE (R49): A write to TBL.SEL that changes TABLE or INSTANCE zeroes every byte of TBL.DATA. -/
  | tblSelWrite (value : Word)
  /-- TBL_LOAD_GO (R48): A write of 1 to TBL.LOAD_GO checks the range and starts a load from DRAM in the BULK class. -/
  | tblLoadGo
  /-- TBL_LOAD_DONE (R48): A load ends, completely or at a DRAM uncorrectable error, and INDEX holds the index after the last entry written. -/
  | tblLoadDone (bad : Option Nat)
  /-- PAGE_MOVE_ONCHIP (R45): A live page held in DRAM moves to a free on-chip page once one is available. -/
  | pageMoveOnchip
  /-- SRAM_SCRUB (R39): The background scrubber reads an SRAM word, correcting and writing back single-bit errors. -/
  | sramScrub (region : Fin 15) (word : Nat) (ecc : Ecc)
  /-- CAM_FRAME_START (R100): The falling edge of VS starts a camera frame, with rate, gang-skew and lock checks and time-stamps. -/
  | camFrameStart (n : Fin 8) (dt : CamTick)
  /-- CAM_FRAME_END (R100): The rising edge of VS ends a frame, completing short frames and ending substitution on a clean frame. -/
  | camFrameEnd (n : Fin 8) (dt : Nat)
  /-- CAM_LINE (R101): An active line's transfers are taken, with capture FIFO overflow, length and missing-check handling. -/
  | camLine (n : Fin 8) (dt : CamTick) (transfers : List Word) (ovf : Option Nat)
  /-- CAM_CHECK_WORD (R106): The check word on CV is compared with the line's CRC-32C and a mismatch marks the frame CHECK. -/
  | camCheckWord (n : Fin 8) (check : CheckWord)
  /-- CAM_GLITCH (R113): A too-short clock period or phase counts GLITCH and marks the present or next frame CLK. -/
  | camGlitch (n : Fin 8)
  /-- MISSED_SLOT (R118): No frame start within EXP_PERIOD + RATE_TOL fills the slot with the last good frame. -/
  | missedSlot (n : Fin 8)
  /-- FRAME_TIMEOUT (R119): No frame start within 2 × EXP_PERIOD sets LOST and enters substitution. -/
  | frameTimeout (n : Fin 8)
  /-- SUBSTITUTE_FRAME (R119): In substitution the pipeline produces one substitute frame per EXP_PERIOD. -/
  | substituteFrame (n : Fin 8)
  /-- CAM_CAL_GO (R123): A write of 1 to CAM CAL_CTRL.GO requests a calibration at the next eligible blanking. -/
  | camCalGo (n : Fin 8)
  /-- CAM_CAL_START (R329): A queued camera-port run starts 10 µs after VS rises and sweeps all 32 delays. -/
  | camCalStart (n : Fin 8)
  /-- DEF_DATA_ACCESS (R136): An access to RAWP DEF_DATA reads or writes the addressed defect entry, refused for the live bank. -/
  | defDataAccess (n : Fin 8) (write : Option Word)
  /-- HIST_ARM_WRITE (R153): A write of 1 to RAWP HIST_ARM.ARM arms a paired restart for HIST_AT. -/
  | histArmWrite (n : Fin 8)
  /-- STATS_WRITE_DONE (R155): A frame's statistics buffer is written and STAT_BUF and STAT_SEQ change together. -/
  | statsWriteDone (n : Fin 8)
  /-- LUT_DATA_ACCESS (R192): An access to CLR.LUT_DATA reads or writes a banked LUT entry, refused for live banks and bad selections. -/
  | lutDataAccess (write : Option Word)
  /-- AMBIENT_READING (R180): Every 100 ms each ambient sensor is read over I²C and the filtered level and target factor are updated. -/
  | ambientReading (readings : List (Option Nat))
  /-- WINDOW_ROW_ENTRY (R209): A source row leaving the camera colour stage enters the layer's window buffer or is dropped. -/
  | windowRowEntry (n : Fin 8) (dt : Nat)
  /-- FRAME_STORE_WRITE (R216): A writer takes the oldest eligible frame-store buffer or discards its frame with WDROP. -/
  | frameStoreWrite (j : Fin 32)
  /-- COEF_DATA_ACCESS (R203): An access to CMP COEF_DATA reads or writes a scaler coefficient, refused for the live bank. -/
  | coefDataAccess (write : Option Word)
  /-- BATT_DUE (R235): A batt falls due and is taken from the scan-out buffer, filled by repetition if pixels are missing. -/
  | battDue (lane : Fin 64)
  /-- SCANOUT_PIXEL (R240): A pixel reaches the scan-out buffer, or is discarded as LATE_PX if its batt has been taken. -/
  | scanoutPixel (x y : Nat)
  /-- FIFO_WRITE (R284): A packet's words are written to the lane retransmit FIFO once space is free. -/
  | fifoWrite (use : FifoUse)
  /-- PACKET_TRANSMIT (R285): A PX or CT packet leaves the lane with RTX, FLOOR and HCRC rewritten. -/
  | packetTransmit (use : FifoUse)
  /-- ALIGNMENT_MARKER (R275): An alignment marker goes out on every forward lane after 4,096 other blocks. -/
  | alignmentMarker (octet : Fin 8)
  /-- AK_RECEIVE (R291): An AK releases the packets it covers and updates the tile's reported state. -/
  | akReceive (lane : Fin 64) (blocks : List (BitVec 130))
  /-- NK_RECEIVE (R286): An NK naming an unreleased sent packet rewinds the lane, or is ignored under R287. -/
  | nkReceive (lane : Fin 64) (blocks : List (BitVec 130))
  /-- TL_RECEIVE (R299): A TL with a newer FSEQ is stored in the tile context, or completes a CT read or an enumeration. -/
  | tlReceive (lane : Fin 64) (blocks : List (BitVec 130))
  /-- RETURN_PACKET_BAD (R294): A return packet failing PCRC or of unknown type is discarded and counted in RX_BAD. -/
  | returnPacketBad (rx : LaneBlocks)
  /-- BLOCK_LOCK_ACQUIRED (R272): A receiver acquires block lock after 64 consecutive valid sync headers. -/
  | blockLockAcquired (rx : LaneBlocks)
  /-- BLOCK_LOCK_LOST (R272): A receiver loses block lock after 16 block errors within 64 blocks. -/
  | blockLockLost (lane : Fin 64) (blocks : List (BitVec 130))
  /-- ACK_TIMEOUT (R286): The oldest unacknowledged sent packet passes ACK_TO and the lane rewinds go-back-N. -/
  | ackTimeout (lane : Fin 64)
  /-- PACKET_DEADLINE (R284): A packet whose deadline passes is released as exhausted. -/
  | packetDeadline (lane : Fin 64)
  /-- TILE_STALE (R302): A tile silent for STALE.WF frames becomes stale and its unreleased packets are cancelled. -/
  | tileStale (tile : BitVec 12)
  /-- VR_REPEAT (R297): An unanswered VR is sent again every 4 wall lines. -/
  | vrRepeat (lane : Fin 64)
  /-- CT_WRITE (R306): CT_CMD.GO with OP write sends a CT write to a tile or completes at once with an error. -/
  | ctWrite (tile : BitVec 12)
  /-- CT_READ (R306): CT_CMD.GO with OP read sends a CT read, completing when its TL of KIND 1 arrives. -/
  | ctRead (tile : BitVec 12)
  /-- CT_SET_POSITION (R306): CT_CMD.GO with OP set position sends a position to a tile. -/
  | ctSetPosition (tile : BitVec 12)
  /-- ENUM_WINDOW_END (R300): The enumeration reply window closes and ids and positions are compared with the chain map. -/
  | enumWindowEnd (lane : Fin 64)
  /-- MODE_REQ_WRITE (R316): A change of OCT_CTRL.MODE_REQ starts an octet mode change, or is taken when the change in progress ends. -/
  | modeReqWrite (octet : Fin 8) (mode : BitVec 2)
  /-- OCTET_IDLE_DRAINED (R313): After 32 idle blocks the octet's forward outputs and FCK go to common mode. -/
  | octetIdleDrained (octet : Fin 8)
  /-- OCTET_FCK_START (R313): Two µs later FCK starts in the new mode and lanes send idle blocks at the new rate. -/
  | octetFckStart (octet : Fin 8)
  /-- OCTET_TRAINING_END (R313): Training ends: markers and KP restart, CHANGING clears and OCTET_MODE is logged. -/
  | octetTrainingEnd (octet : Fin 8)
  /-- LANE_TEST_WRITE (R324): A write of LCTRL.TEST or PAIR CTRL.TEST sets a test mode, refused when the lane is in use. -/
  | laneTestWrite (lane : Option (Fin 64)) (value : Word)
  /-- LCTRL_GO (R326): A write of 1 to LCTRL.GO queues a return calibration run. -/
  | lctrlGo (lane : Fin 64)
  /-- CAL_REQ_RX (R326): CAL_REQ bit 0 queues runs of all up return lanes. -/
  | calReqRx
  /-- CAL_REQ_CAM (R326): CAL_REQ bit 1 queues runs of all camera ports. -/
  | calReqCam
  /-- CAL_REQ_DRAM (R326): CAL_REQ bit 2 queues runs of all DRAM channels. -/
  | calReqDram
  /-- RX_CAL_START (R327): A queued return-lane run starts when its octet's order and mode allow. -/
  | rxCalStart (lane : Fin 64)
  /-- RX_CAL_PHASE_DONE (R328): Offset trim, eye scan or residual check of a return run completes and the next phase starts. -/
  | rxCalPhaseDone (lane : Fin 64) (dt : Nat) (phase thr : BitVec 64) (errs : Word)
  /-- DRAM_CAL_WINDOW (R330): A DRAM channel run blocks the channel for up to 3 µs and sweeps its delays. -/
  | dramCalWindow (chan : Fin 32)
  /-- CAL_RUN_DONE (R331): A run ends good, setting new targets and baseline, or bad, keeping old targets and arming a retry. -/
  | calRunDone (kind : CalKind) (n : Fin 64) (clean : List (BitVec 64)) (errs : Word) (kept : Bool)
  /-- CAL_RUN_TIMEOUT (R331): A run passing 2 ms ends bad. -/
  | calRunTimeout (kind : CalKind) (n : Fin 64)
  /-- CAL_RETRY (R331): CAL_RETRY.MS after a bad run a retry is queued. -/
  | calRetry (kind : CalKind) (n : Fin 64)
  /-- ALIGNMENT_COLUMN_SEND (R321): Every 1,024 symbol slots an alignment column goes out on all four pairing lanes. -/
  | alignmentColumnSend
  /-- PAIR_LANE_ALIGNED (R322): A pairing lane aligns after 4 columns at the expected spacing, possibly bringing the link up. -/
  | pairLaneAligned (lane : Fin 4) (syms : List Machine.PairSym) (pace : LanePace)
  /-- PAIR_ALIGNMENT_LOST (R322): A pairing lane loses alignment on errors or missing columns and the link goes down. -/
  | pairAlignmentLost (lane : Fin 4) (syms : List Machine.PairSym) (pace : LanePace)
  /-- BEAT_RECEIVE (R339): A partner beat with a valid CHECK counts for the frame and drives role selection and path recovery. -/
  | beatReceive (pathB : Bool) (bytes : List Byte)
  /-- PAIR_WAIT_EXPIRY (R336): No beat within PAIR_WAIT (or 4 × PAIR_WAIT without the strap) makes the device windward alone. -/
  | pairWaitExpiry
  /-- PATH_FAULT (R340): Three consecutive misses on one path while the other receives open a path-fault episode. -/
  | pathFault (pathB : Bool)
  /-- PARTNER_FAILED (R340): Three frames missed on both paths declare the partner failed, leading to takeover or PARTNER_LOST. -/
  | partnerFailed
  /-- YIELD_PIN (R343): YIELD_IN_N low for 2 µs while paired detects a partner yield. -/
  | yieldPin
  /-- YIELD_WORD_RECEIVE (R343): A valid yield word on either path detects a partner yield. -/
  | yieldWordReceive (pathB : Bool) (bytes : List Byte)
  /-- CLAIM_GIVEUP (R356): All claims refused for CLAIM_GIVEUP idles the octets and returns the device to COLD. -/
  | claimGiveup
  /-- STATE_FRAME_RECEIVE (R347): A BASE, DELTA or MIRROR state frame is checked for CRC and SEQ gaps and stored or applied. -/
  | stateFrameReceive (bytes : List Byte) (crc : Word) (body : Machine.StateBody)
  /-- CUT_RECEIVE (R349): A CUT frame completes a cut, which the leeward applies whole and which can make it SYNCED. -/
  | cutReceive (bytes : List Byte) (crc : Word) (cut : Machine.Ckpt)
  /-- COMMIT_FRAME_RECEIVE (R351): A COMMIT frame names the groups that a WARM device commits at a line. -/
  | commitFrameReceive (bytes : List Byte) (crc : Word) (line : Word) (groups : Byte)
  /-- ACK_FRAME_RECEIVE (R347): An ACK frame frees covered state frames and makes the sender resend after a gap. -/
  | ackFrameReceive (ack : AckRx)
  /-- ACK_FRAME_SEND (R347): The receiver of state sends an ACK at least once per 10 µs while state frames arrive. -/
  | ackFrameSend
  /-- SIG_FRAME_RECEIVE (R352): A SIG frame gives the partner's signature for comparison in veer preparation and mirror mode. -/
  | sigFrameReceive (bytes : List Byte) (body : SigRx)
  /-- REQUEST_FRAME_RECEIVE (R350): A REQUEST frame carries versions and FIXED_ID, or a veer, split, release or homing request. -/
  | requestFrameReceive (rx : Machine.RequestRx)
  /-- TELEM_FRAME_RECEIVE (R25): A TELEM frame brings the leeward's split-feed tile telemetry to the windward. -/
  | telemFrameReceive (rx : Machine.TelemRx)
  /-- CHECKPOINT_TIMEOUT (R349): No complete cut for 2 WF clears SYNCED. -/
  | checkpointTimeout
  /-- VEER_REQ (R357): The veer request cue is accepted with a VEER entry at V or refused with a reason. -/
  | veerReq
  /-- FIRMWARE_VEER_REQ (R357): A write of 1 to VEER.REQ makes a veer request as a cue does. -/
  | firmwareVeerReq
  /-- SPLIT_HEAL (R365): A segment with no stale tile for HEAL_S seconds is handed back by HANDOVER. -/
  | splitHeal (lane : Fin 64)
  /-- HOMING (R366): Homing health held for HOME_S makes the leeward send a veer request. -/
  | homing
  /-- HATBOX_MOUNT (R371): After BOOT the store reads superblocks and index and rolls the journal forward before serving clients. -/
  | hatboxMount (drives : List DriveInfo)
  /-- HBX_WRITE (R375): A WRITE entry takes a tag and is checked for contiguity and staged. -/
  | hbxWrite
  /-- WRITE_STAGED (R382): A WRITE's data is copied into staging once space is free and completes in stream order. -/
  | writeStaged (tag : Fin 1024)
  /-- HBX_READ (R376): A READ entry below the readable end is served through staging, waiting for overlapping WRITEs. -/
  | hbxRead
  /-- READ_COMPLETE (R381): A READ's data reaches BUF and it completes with OK or an error and the leading bytes copied. -/
  | readComplete (tag : Fin 1024) (data : List Byte) (result : NvmeEnd) (copied : Nat)
  /-- HBX_FLUSH (R385): A FLUSH entry waits for durability of the covered WRITEs. -/
  | hbxFlush
  /-- OPEN_TAKE (R375): OPEN_TAKE creates a take, optionally linked to a previous one. -/
  | openTake
  /-- CLOSE_TAKE (R394): CLOSE_TAKE ends a take at its last durable BLOCK_END. -/
  | closeTake
  /-- DELETE_TAKE (R375): DELETE_TAKE removes a take and releases its space. -/
  | deleteTake
  /-- FW_ACTIVATE (R392): FW_ACTIVATE downloads and commits drive firmware in COLD, holding submissions while it runs. -/
  | fwActivate
  /-- NVME_WRITE_COMPLETE (R394): An NVMe Write completes, or fails and is rewritten on the next drive or faults the stream. -/
  | nvmeWriteComplete (ser : Nat) (result : NvmeEnd)
  /-- COMMIT_BATCH_START (R386): Every COMMIT_US per drive a commit batch starts with an NVMe Flush. -/
  | commitBatchStart (drive : Fin 4)
  /-- BATCH_STEP_DONE (R386): A batch's flush or journal write completes and the batch advances, making writes durable at step 3. -/
  | batchStepDone (drive : Fin 4)
  /-- HBX_ABORT (R389): A write of a CID to CLIENT.ABORT aborts that command and later WRITEs of its stream. -/
  | hbxAbort (client : Fin 16) (cid : BitVec 16)
  /-- HBX_CLIENT_RESET (R391): A write of 1 to CLIENT.RESET ends every uncompleted command of the client and resets its ring. -/
  | hbxClientReset (client : Fin 16)
  /-- HBX_CMD_TIMEOUT (R393): CMD_TO from tag assignment completes the command with TIMEOUT and sends NVMe Aborts. -/
  | hbxCmdTimeout (tag : Fin 1024)
  /-- SSD_ADMIN_TIMEOUT (R393): An unresolved Abort resets the drive controller, and a drive not ready within a further 10 s becomes FAILED. -/
  | ssdAdminTimeout (drive : Fin 4)
  /-- DRIVE_READY (R393): A drive reports ready and returns from UNAVAIL to READY. -/
  | driveReady (drive : Fin 4)
  /-- COMPLETION_POST (R399): A completion is posted once the completion ring has room. -/
  | completionPost (client : Fin 16)
  /-- COMPRESS (R406): A COMPRESS descriptor feeds its stream's engine, cutting blocks at BLOCK_SIZE, FLUSH and stream end. -/
  | compress (ring : Fin 8) (engine : Fin 4)
  /-- DECOMPRESS (R411): A DECOMPRESS descriptor decodes whole blocks, stopping or skipping at a failed block. -/
  | decompress (ring : Fin 8) (engine : Fin 4)
  /-- DESCRIPTOR_COMPLETE (R409): A descriptor completes once its input is read and its blocks are written. -/
  | descriptorComplete (ring : Fin 8)
  /-- FUL_RING_RESET (R414): A write of 1 to RING.RESET ends every uncompleted descriptor and discards a parked stream. -/
  | fulRingReset (ring : Fin 8)
  /-- FUL_RING_RELEASE (R414): After its outstanding DRAM accesses resolve the ring is released and BUSY clears. -/
  | fulRingRelease (ring : Fin 8)
  /-- LULL_END (R502): A lull of L FAB cycles ends and the engine continues. -/
  | lullEnd (unit : LullUnit)
  /-- SESSION_OPEN (R422): A write of 1 to SESSION.CMD.OPEN opens the session or records a refusal in ERROR. -/
  | sessionOpen (session : Fin 32)
  /-- SESSION_CLOSE (R422): A write of 1 to SESSION.CMD.CLOSE closes the session after the picture in progress. -/
  | sessionClose (session : Fin 32)
  /-- SESSION_FLUSH (R438): A write of 1 to SESSION.CMD.FLUSH makes the decoder take the access unit in the ring. -/
  | sessionFlush (session : Fin 32)
  /-- CTU_ROW_DONE (R420): At a CTU-row boundary a core takes the next row by deadline, with fallback under the cap. -/
  | ctuRowDone (dec : Bool)
  /-- PICTURE_COMPLETE (R434): An encoded access unit and its AU entry are written and the device pointers advance. -/
  | pictureComplete (session : Fin 32)
  /-- PICTURE_WATCHDOG (R435): A picture not complete within 3 picture periods is finished in fallback or concealed. -/
  | pictureWatchdog (session : Fin 32)
  /-- RESTART_ARM_WRITE (R436): A write of 1 to HVC RESTART_ARM arms a paired session restart at RESTART_AT. -/
  | restartArmWrite (value : Word)
  /-- ACCESS_UNIT_TAKE (R438): The decoder takes an access unit once the next one starts in the ring and decodes it. -/
  | accessUnitTake (session : Fin 32)
  /-- AUDIO_FRAME (R444): An audio frame start is indexed by STC time and its samples are captured and driven. -/
  | audioFrame (dom : Fin 2) (edge : FrameEdge) (bclks : Nat) (lines : List (List Bool))
  /-- ETH_LINK_CHANGE (R458): A port's link or lock changes, reported in STATUS and logged. -/
  | ethLinkChange (port : Fin 2) (fecLock blockLock link : Bool)
  /-- ETH_SERVICE_FRAME (R458): ARP, neighbour discovery or echo requests are answered at the static addresses. -/
  | ethServiceFrame (port : Fin 2) (frame : List Byte)
  /-- ANNOUNCE_RECEIVE (R463): An Announce enters the best master clock algorithm. -/
  | announceReceive (port : Fin 2) (dt : Nat) (msg : Announce)
  /-- SYNC_RECEIVE (R460): A time-stamped Sync from the selected master feeds the servo. -/
  | syncReceive (port : Fin 2) (dt : Nat) (msg : PtpMsg)
  /-- FOLLOW_UP_RECEIVE (R460): A Follow_Up completes a two-step Sync. -/
  | followUpReceive (port : Fin 2) (msg : PtpMsg)
  /-- DELAY_REQ_SEND (R460): A Delay_Req goes out at the granted interval and its stamp enters the queue. -/
  | delayReqSend (dt : Nat)
  /-- DELAY_RESP_RECEIVE (R460): A Delay_Resp completes an exchange and updates the offset. -/
  | delayRespReceive (port : Fin 2) (dt : Nat) (msg : PtpMsg)
  /-- ANNOUNCE_TIMEOUT (R463): announceReceiptTimeout expiry loses the master, reported to WTM. -/
  | announceTimeout (port : Fin 2)
  /-- TSQ_POP (R462): A write of 1 to TSQ_POP removes the oldest transmit time-stamp entry. -/
  | tsqPop
  /-- CUE_MESSAGE_RECEIVE (R469): A cue datagram or SPI message is authenticated, replay-checked and queued with its arrival number, or refused BUSY. -/
  | cueMessageReceive (src : CueFrom) (bytes : List Byte)
  /-- REG_WRITE (R471): The REG_WRITE operation writes masked bits of a register. -/
  | regWrite
  /-- REG_READ (R473): The REG_READ operation returns 1 to 64 consecutive registers in the reply. -/
  | regRead
  /-- TBL_WRITE_OP (R470): The TBL_WRITE operation writes one table entry, waiting while TBL is busy. -/
  | tblWriteOp
  /-- MEM_WRITE (R470): The MEM_WRITE operation writes bytes into the cue buffer. -/
  | memWrite
  /-- CAL_INSERT_OP (R470): The CAL_INSERT operation inserts a calendar entry. -/
  | calInsertOp
  /-- CAL_CANCEL_OP (R470): The CAL_CANCEL operation cancels pending entries with a tag. -/
  | calCancelOp
  /-- COMMIT_OP (R470): The COMMIT operation commits groups at the first line boundary after the message. -/
  | commitOp
  /-- STORE_CUE (R470): The STORE_CUE operation stores operations in a cue slot. -/
  | storeCue
  /-- SNAPSHOT (R536): The SNAPSHOT operation raises CALM. -/
  | snapshot
  /-- STATUS (R473): The STATUS operation returns state, lock, veer status, epoch and PTP status. -/
  | status
  /-- SUBSCRIBE (R474): The SUBSCRIBE operation records a fired-report destination, replacing the oldest. -/
  | subscribe
  /-- WRITE_MSG (R475): SPI command 0x01 takes a cue message if the output queue admits it. -/
  | writeMsg (bytes : List Byte)
  /-- READ_STATUS (R475): SPI command 0x02 returns the count and length of pending output messages. -/
  | readStatus
  /-- READ_MSG (R475): SPI command 0x03 returns and removes the oldest reply or report. -/
  | readMsg
  /-- RTP_AU_SEND (R478): An RTP stream packetises an access unit per RFC 7798 and paces it out. -/
  | rtpAuSend (stream : Fin 8)
  /-- RTP_LATE_DROP (R478): An access unit not begun within one PERIOD of its latch is discarded whole. -/
  | rtpLateDrop (stream : Fin 8)
  /-- DRAM_WINDOW (R484): A 1,024-cycle arbitration window begins with its LIVE reservation. -/
  | dramWindow (chan : Fin 32) (dt : Nat) (arrivals : List DramArrival) (slots : Fin 257)
  /-- REQUEST_PROMOTION (R485): A request waiting AGE_US is promoted. -/
  | requestPromotion (chan : Fin 32)
  /-- DRAM_READ_COMPLETE (R490): A DRAM read returns, corrected and written back or with an uncorrectable-error response. -/
  | dramReadComplete (addr : Nat) (ret : DramReturn)
  /-- DRAM_REQUEST_TIMEOUT (R487): A request not completed within 10 µs ends with an error response. -/
  | dramRequestTimeout (addr : Nat) (write : Bool)
  /-- MR4_POLL (R493): A channel's MR4 is read and its refresh rate set. -/
  | mr4Poll (chan : Fin 32) (dt : Nat) (rate : Fin 3)
  /-- DRAM_SCRUB (R494): The scrubber reads the next ECC unit of its quadrant. -/
  | dramScrub (quadrant : Fin 4) (dt : Nat) (ecc : Ecc)
  /-- THM_READING (R496): Every millisecond all sites are read, validated, and Tj, band and lull length are updated. -/
  | thmReading (sites : List (Bool × Int))
  /-- LOG_ENTRY_ARISE (R525): A source stamps an event entry and delivers it to ERR, or drops it when 4 wait. -/
  | logEntryArise (source inst : Byte) (cls : Fin 8) (event : BitVec 13) (detail : Word) (episode : Fin 4)
  /-- LOG_COMMIT (R525): ERR commits an entry to the ring 2 µs after its stamp, in stamp order. -/
  | logCommit
  /-- LOG_DRAM_COPY (R527): An entry is copied to the DRAM ring in the BULK class. -/
  | logDramCopy
  /-- ERR_SEL_WRITE (R529): A write to ERR.SEL latches the entry into E0 to E3 and sets RD_STATUS. -/
  | errSelWrite (value : Word)
  /-- CALM_N_FALL (R536): A falling edge on CALM_N held for two FAB samples triggers CALM. -/
  | calmNFall (highNs : Nat)
  /-- SNAP_TRIGGER_WRITE (R536): A write of 1 to SNAP.CTRL.TRIGGER triggers CALM. -/
  | snapTriggerWrite
  /-- CALM_OUT_PULSE_END (R538): CALM_OUT returns high 200 ns after it fell. -/
  | calmOutPulseEnd
  /-- SNAPSHOT_DUMP (R541): After a fatal-fault CALM every bank is written to DUMP_BASE once the last block has latched. -/
  | snapshotDump
  /-- BSEL_WRITE (R542): A write to SNAP BSEL or BADDR updates DATA, L_NS, L_SEC_LO and BSTAT together. -/
  | bselWrite (baddr : Bool) (value : Word)
  /-- HEADER_CHECKED (R513): The SFDP tables and the image header of a bank have been read, and checks 1 to 4 accept it for reading or reject it so that the other bank is tried or SAFE entered. -/
  | headerChecked (sfdp : Option Bool) (header : List Byte)
  /-- DRIVE_ACTIVATION_TIMEOUT (R392): A drive not ready within twice the SSD admin timeout after Firmware Commit ends FW_ACTIVATE with TIMEOUT. -/
  | driveActivationTimeout
  /-- FORMAT (R371): The management-core FORMAT command writes the superblocks of the store set. -/
  | format
  /-- PCIE_LINK_CHANGE (R369): A PCIe link to a drive comes up at a negotiated width or goes down, reported in DRIVE[d].WIDTH and logged as LINK with SOURCE PCIE. -/
  | pcieLinkChange (drive : Fin 4) (width : Fin 5)
  /-- SUPPLY_MONITOR_RELEASE (R551): A monitored rail that had reset the device returns within its operating range and the supply-monitor reset ends. -/
  | supplyMonitorRelease (role bank tmode : Bool)
  /-- TEST_PORT_INSTRUCTION (R555): An IEEE 1149.1 instruction such as EXTEST, CLAMP, HIGHZ or REGACC is loaded through the test port and takes effect, or acts as BYPASS outside test mode. -/
  | testPortInstruction (instr : TestInstr)
  deriving DecidableEq, Repr

end Sys2Proof
end

