-- ==== Sys2Proof/Machine/Parts/Audio.lean ====
section
/-!
DEFINITION. The state of the audio ports (chapter 16) beyond their registers.
-/

namespace Sys2Proof.Machine

/-- A clock domain (R442, R444, R455): the index of its last frame, when the 64 frames being measured began and how many
have come, whether its ports wait for a block boundary, and whether the STC has stepped since that frame (R465). -/
structure AudDom where
  last : Option Nat
  at_  : Option Time
  seen : Nat
  hold : Bool
  moved : Bool
  deriving DecidableEq, Repr

/-- The block that an input port is writing (R448): its number, its stamp, its flags GAP and RATE. -/
structure AudBlock where
  m     : Nat
  stamp : Time
  gap   : Bool
  rate  : Bool
  deriving DecidableEq, Repr

/-- An input port: the block in progress, whether its next block carries GAP, the index of the next block's first frame
(R448), frames since the last detection of each muted pair (R449), ranges of frame indices in the ring. -/
structure AudIn where
  block : Option AudBlock
  gap   : Bool
  wr    : Nat
  pairs : List (Option Nat)
  got   : List (Nat × Nat)
  deriving DecidableEq, Repr

/-- A mapped output slot in use: source port, source slot, effective delay. -/
structure AudTap where
  port  : Nat
  slot  : Nat
  delay : Nat
  deriving DecidableEq, Repr

/-- An output slot (R450, R453): the mapping in use, and the delay that the present block fades from. -/
structure AudSlot where
  tap  : Option AudTap
  from_ : Option Nat
  deriving DecidableEq, Repr

/-- The audio ports: domains, input ports, output slots by 32 × port + slot, and the last block whose settings each output
port took. -/
structure AudPart where
  doms  : Vector AudDom 2
  ins   : Vector AudIn 4
  slots : Vector AudSlot 128
  blk   : Vector (Option Nat) 4
  deriving DecidableEq, Repr

end Sys2Proof.Machine
end

