-- ==== Sys2Proof/Machine/Parts/Fuller.lean ====
section
/-!
DEFINITION. The state of the Fuller engines (chapter 14), and of the thermal block with its lulls (chapter 19).
-/

namespace Sys2Proof.Machine

/-- An open compression stream of a ring (R406, R407): its engine, what its first descriptor fixed, the place in the
chain as entry and bytes used of it, the input bytes of the open block, input bytes in all and in complete blocks, output
bytes of complete blocks, and whether the engine has parked it. -/
structure FStream where
  engine  : Nat
  chain   : Nat
  block   : Nat
  bayer   : Bool
  row     : Nat
  entry   : Nat
  used    : Nat
  pending : List Byte
  fed     : Nat
  safe    : Nat
  out     : Nat
  parked  : Bool
  deriving DecidableEq, Repr

/-- A completion of a job ring that has yet to be posted (Table 14-3, without PHASE). -/
structure FCompl where
  cid    : Nat
  status : Nat
  engine : Nat
  blocks : Nat
  out    : Nat
  safe   : Nat
  bad    : Nat
  deriving DecidableEq, Repr

/-- A job ring (R405, R414): its open stream, completions to be posted, the next place of the completion ring and its
pass, and whether a reset is resolving. -/
structure FRing where
  stream  : Option FStream
  compl   : List FCompl
  cqAt    : Nat
  pass    : Bool
  releasing : Bool
  deriving DecidableEq, Repr

/-- A lull in progress (R503): the engine, when it began, how many FAB cycles it lasts. -/
structure Lull where
  unit  : LullUnit
  start : Time
  len   : Nat
  deriving DecidableEq, Repr

/-- A sensing site (R498): readings in a row that lay far from the median, and readings in a row that passed. -/
structure Site where
  far  : Nat
  good : Nat
  deriving DecidableEq, Repr

/-- The thermal block (R496 to R504): the sites, whether a complete set of readings has come, the lulls in progress and
the bytes that each engine has worked through since its last lull. -/
structure ThmPart where
  sites : Vector Site 32
  read  : Bool
  lulls : List Lull
  bytes : List (LullUnit × Nat)
  deriving DecidableEq, Repr

end Sys2Proof.Machine
end

