-- ==== Sys2Proof/Config.lean ====
section
/-!
DEFINITION. What an implementation fixes and the spec leaves open: free values (opaque constants, of which
no proof can know the value) and the fused or externally standardised functions that the spec names without
giving (log entries 3 and 4).
-/

namespace Sys2Proof.Config

/-- The free values: what the spec leaves open, by the kind of value and the number of the draw.
`Dev.free` counts the draws. Nothing is known of it. -/
opaque freeValue : Nat → Nat → Nat

/-- The SHA-384 digest of the image public key that the fuses hold (R509). -/
opaque fusedKeyDigest : List Byte → Bool

/-- The verdict of the ECDSA P-384 signature check over an image, key and signature given as bytes (R509). -/
opaque ecdsaVerifies : List Byte → List Byte → List Byte → Bool

/-- AES-256-GCM opening of the KEYS section under the fused device-family key (Table 20-3): the plain
bytes, or none where the tag does not verify. -/
opaque gcmOpen : List Byte → Option (List Byte)

/-- The fused CORE_VID code that the device drives once its PLLs lock, 0 to 20 (R550). -/
opaque coreVid : Fin 21

/-- The fused device tag, 16 bits (R337, `VEER.DEV_TAG`). -/
opaque devTag : Nat

/-- The register of a lane's scrambler as the idle blocks since its last packet have left it (R271; log entry 108): how many go out
between two packets is a matter of timing. From the lane, the register after the last packet and the present time. -/
opaque idleScr : Nat → Nat → Nat → Nat

/-- The light, in units of 2^-32 of the curve's full range, of an E' outside 0 to 1 (R205): the standards define their curves
over 0 to 1 only. The flag says HLG; E' is in units of 2^-32 (log entry 107). -/
opaque eotfBeyond : Bool → Int → Nat

/-- What H.265 and the encoder's own decisions leave to the HEVC encode core (R417, R428, R436; log entry 4). A coded picture
is named by a number: a function of the name of the picture before it, of the settings and of the source samples. -/
opaque hevcName : Nat → List Nat → List Nat → Nat

/-- What the sequencer writes into an SPS (R417, R423, R427): PROFILE, general_tier_flag, general_level_idc; the padded size in luma
samples, and the columns and rows that the conformance window crops from its right and bottom; the VUI's transfer characteristics,
colour primaries and matrix coefficients; sps_temporal_mvp_enabled_flag and five_minus_max_num_merge_cand, where the spec fixes them. -/
structure HevcSpsOut where
  profile    : Nat
  tier       : Nat
  level      : Nat
  width      : Nat
  height     : Nat
  cropRight  : Nat
  cropBottom : Nat
  transfer   : Nat
  primaries  : Nat
  matrix     : Nat
  fixed      : Option (Nat × Nat)
  deriving DecidableEq, Repr

/-- The general_tier_flag of an encode session: Main or High tier, which no register chooses (R417), by its level and bit rate. -/
opaque hevcTier : Nat → Nat → Nat

/-- A unit that the sequencer writes before the slices of a coded picture (R426, R427): the VPS; an SPS; a PPS with its id and the tile
column boundary across which the loop filters do not run; a recovery point SEI with exact_match_flag 1 and its recovery_poc_cnt. -/
inductive HevcHeader where
  | vps
  | sps (s : HevcSpsOut)
  | pps (id : Nat) (boundary : Option Nat)
  | recovery (cnt : Nat)
  deriving DecidableEq, Repr

/-- Header and SEI bits of a coded picture. -/
opaque hevcHead : Nat → List HevcHeader → Nat

/-- The QP that rate control chooses for a CTU row of a picture, given the bits allotted to the row and the row's number. -/
opaque hevcQp : Nat → Nat → Nat → Nat

/-- How the core codes a CTU (R425 to R427, R431 to R433): intra, or with inter prediction, given the vector that the search chooses for a
prediction unit (its first luma column and row, width and height) against a predictor, none where every candidate is forbidden, and
whether a merge candidate may be taken for a unit (its first column and width). -/
inductive HevcMode where
  | intra
  | inter (search : Nat → Nat → Nat → Nat → Int × Int → Option (Int × Int)) (mergeOk : Nat → Nat → Int × Int → Bool)

/-- A CTU as coded: its bits, and a number that names what was coded; given its mode, the picture so far, the CTU and its QP. -/
opaque hevcCtu : HevcMode → Nat → Nat → Nat → Nat × Nat

/-- The vectors of the merge candidates of the 64 x 64 unit that is a CTU, in order. -/
opaque hevcMerge : Nat → Nat → List (Int × Int)

/-- A CTU in fallback (R429): a 64 x 64 SKIP CU with a merge candidate; or one 64 x 64 intra CU in DC mode for luma and chroma at a QP, with
every cbf 0. -/
inductive HevcGuard where
  | skip (cand : Nat)
  | dc (qp : Nat)
  deriving DecidableEq, Repr

/-- The bits of a CTU in fallback, of a picture so far. -/
opaque hevcFallback : HevcGuard → Nat → Nat → Nat

/-- A luma sample of a coded picture as the encoder reconstructs it, by column and row. -/
opaque hevcRecon : Nat → Nat → Nat → Nat

/-- A picture at half scale in each axis for HIER (Table 15-1), which does not say how it is made. -/
opaque hevcHalf : (Int → Int → Nat) → Int → Int → Nat

/-- The bits of the slice ends and trailing bits of a coded picture. -/
opaque hevcTail : Nat → Nat

/-- Byte i of a coded picture's access unit of a given length in bits, with the headers that it carries. -/
opaque hevcByte : Nat → List HevcHeader → Nat → Nat → Byte

/-- What an SPS says (R417, R439): general_profile_idc, general_tier_flag, general_level_idc, chroma_format_idc, the bit depths of luma and
chroma, the size in luma samples, the columns and rows that its conformance window crops, and the pictures that
sps_max_dec_pic_buffering asks room for. -/
structure HevcSps where
  profile  : Nat
  tier     : Nat
  level    : Nat
  chroma   : Nat
  depthY   : Nat
  depthC   : Nat
  width    : Nat
  height   : Nat
  cropCols : Nat
  cropRows : Nat
  pictures : Nat
  deriving DecidableEq, Repr, Inhabited

/-- The bytes that a decoded picture buffer of an SPS takes. -/
opaque hevcDpbBytes : HevcSps → Nat

/-- What the NAL units of an access unit hold: its SPS, if it carries one; POC; whether a recovery point SEI starts a recovery, its
recovery_poc_cnt and exact_match_flag; whether its first slice decodes; of each slice with an error the CTUs from the error to its end,
as their first and the one after their last in raster order; whether it names a reference that was never received; pictures that
leave the decoded picture buffer with it. -/
structure HevcAu where
  sps       : Option HevcSps
  poc       : Nat
  recovery  : Option (Nat × Bool)
  decodable : Bool
  bad       : List (Nat × Nat)
  lostRef   : Bool
  bump      : Nat
  deriving DecidableEq, Repr, Inhabited

/-- The content of an access unit, from its NAL units of layer 0. -/
opaque hevcParse : List Byte → HevcAu

/-- The name of a decoded picture: a function of the most recently decoded picture, which stands in for a reference that was never
received (R440) — the names of the pictures that its CTUs come from, each with the CTUs that come from the next instead — and of the
access unit. -/
opaque hevcDecoded : List (Nat × List (Nat × Nat)) → List Byte → Nat

/-- A sample of a decoded picture, by component (0 luma, 1 Cb, 2 Cr), and by column and row of that component, at its own bit depth. -/
opaque hevcSample : Nat → Nat → Nat → Nat → Nat

/-- How the Fuller compressor cuts the bytes of a block into sequences: literal count, distance and match length (0 and 0
where the last sequence has no match). The spec lays down what a block decodes to and not which matches the compressor
finds (R408; log entry 4). -/
opaque fullerParse : List Byte → List (Nat × Nat × Nat)

/-- The 4 KiB pages of DRAM that the device can take for the paged tables (R43, R49; log entry 42). -/
opaque dramPages : Nat

/-- What the image declares beside its sections' registers, tables and maps (R33, R265, Table 20-7): the layers on the Framed
path and the Felt ratios that it permits, bit i for layer i, and bits 1 to 3 for 2:1, 3:1 and 4:1; the internal recorders, as the client
slot that it binds to one (R378) and what that records: 0 the blocks of a Fuller ring, 1 the access units of a HEVC session, 2 the
frames of a frame store; of the slots bound to other internal clients 3 stands for a player, 4 for the replay engine and 5 for a decoding
HEVC session; the width of the PCIe links and the drives of the store set (R369, Table 13-8), the namespace that its drives present
(R370) and its store set id (R371). The spec does not say where in the image they stand (log entry 101). -/
structure ImageFixed where
  framed    : Nat
  ratios    : Nat
  recorders : List (Nat × Nat × Nat)
  bifurc    : Nat
  drives    : Nat
  namespace_ : Nat
  storeSet  : Nat
  deriving DecidableEq, Repr, Inhabited

/-- See `ImageFixed`, from the bytes of the image. -/
opaque imageFixed : List Byte → ImageFixed

/-- The sizes of the index and of the journal of each drive, in MiB, as the image names them (Table 13-1). -/
opaque idxMib : Nat

/-- See `idxMib`. -/
opaque jrnMib : Nat

/-- What the management core's firmware takes from the FW_CFG section (Table 20-3): the blocks of 64 KiB carved out of the
general pool, the address and size of the cue buffer, the stored cues by slot. -/
structure FwCfg where
  carved  : Nat
  buffer  : Nat
  bufSize : Nat
  stored  : List (Nat × List Byte)
  deriving DecidableEq, Repr, Inhabited

/-- The firmware's reading of FW_CFG, whose layout the spec leaves to Caergon and the firmware. -/
opaque fwCfg : List Byte → FwCfg

/-- The frame that a port answers to a frame received (R458: ARP, neighbour discovery, echo, IGMPv3 and MLDv2 at the addresses
of the image), from the port and the frame without its VLAN tag; none where it answers nothing. -/
opaque ethAnswer : Nat → List Byte → Option (List Byte)

/-- The size of the fragments into which a stream cuts a NAL unit, from the most that a packet takes (R478). -/
opaque rtpFragment : Nat → Nat

end Sys2Proof.Config
end

