-- ==== Sys2Proof/Machine/Parts/Hevc.lean ====
section
/-!
DEFINITION. The state of the HEVC block (chapter 15) beyond its registers. What H.265 leaves to an encoder, and the content of
a bitstream, is abstract: a picture is named by a number that a free function of the source gives (log entry 4).
-/

namespace Sys2Proof.Machine

/-- The fields of a session that a picture is coded with (R422): MS, PERIOD, BITRATE, CAP, QP_MIN, QP_MAX as they stood at its latch. -/
structure HSet where
  window  : Bool
  period  : Nat
  bitrate : Nat
  cap     : Nat
  qpMin   : Nat
  qpMax   : Nat
  deriving DecidableEq, Repr

/-- A decoded picture as it stands (R440): the name of a picture, with the ranges of its CTUs that are concealed, which come from the next
of the list; where the list ends, they are mid-grey. -/
abbrev HImage := List (Nat × List (Nat × Nat))

/-- A picture in progress, or latched and waiting for the one before: its number, latch line (or start, for BULK), DUE of its source (of a
decoded picture, the line of its start), whether that source was coded
before, CTU rows done and in all, CTU columns, bits so far, the headers it carries, whether its output is withheld, its row sizes, the name of the coded picture so far, the QP of the last row, TYPE of
Table 15-2, place in its refresh cycle, and whether fallback has begun and the watchdog has expired; the name of its source, its
settings, the buffer it comes from, the name of its reference, whether a paired restart begins with it (R436). Of a decoded picture:
whether it is concealed, how many pictures go out with it, and its concealed CTUs. -/
structure HPic where
  n        : Nat
  latch    : Nat
  due      : Nat
  repeat_  : Bool
  row      : Nat
  rows     : Nat
  cols     : Nat
  bits     : Nat
  heads    : List Config.HevcHeader
  hold     : Bool
  rowBits  : List Nat
  name     : Nat
  qp       : Nat
  type     : Nat
  k        : Nat
  fallback : Bool
  wd       : Bool
  poc      : Nat
  bad      : Bool
  bump     : Nat
  src      : Nat
  set      : HSet
  from_    : Option BufRef
  ref      : Nat
  paired   : Bool
  gone     : List (Nat × Nat)
  deriving DecidableEq, Repr

/-- A decoded picture that has not gone out: its coded video sequence and POC, its samples, with their bit depths and whether its chroma
is 4:2:0, concealed, whether it is written. A ghost is the place of an access unit that was discarded (R440): it takes its number in
output order, after the picture of its POC, and nothing goes out. -/
structure HFrame where
  cvs    : Nat
  poc    : Nat
  img    : HImage
  depthY : Nat
  depthC : Nat
  c420   : Bool
  bad    : Bool
  write  : Bool
  ghost  : Bool
  deriving DecidableEq, Repr

/-- A session (R419 to R441): whether it is open and closing, its class, direction, frame store and size as opened; the number
of its next picture, stream bytes since it opened, the buffer taken last with its SEQ, pictures coded since the IDR, the
number of the IDR's picture, the name of the last picture, row sizes of the last picture, the picture in progress and those
latched behind it (R424), whether
output is withheld, a flush asked for; the decoded picture buffer, whether the SPS in force is accepted, whether decoding has
reached a random access point, the POC up to which a recovery runs, and one with exact_match_flag 1, whether an armed paired
restart began a sequence that has yet to start, pictures put out; latch lines of the access units that the
AU ring holds; the most recently decoded picture, the number of the coded video sequence being decoded, and of the SPS in force the
bit depths of luma and chroma and whether chroma is 4:2:0. -/
structure HSession where
  open_   : Bool
  closing : Bool
  live    : Bool
  dec     : Bool
  fs      : Nat
  w       : Nat
  h       : Nat
  n       : Nat
  bytes   : Nat
  buf     : Option (BufRef × Nat)
  coded   : Nat
  idrN    : Nat
  name    : Nat
  rowBits : List Nat
  pic     : Option HPic
  queue   : List HPic
  wait    : Bool
  flush   : Bool
  dpb     : List HFrame
  spsOk   : Bool
  joined  : Bool
  recover : Option Nat
  exact   : Option Nat
  fresh   : Bool
  shown   : Nat
  latches : List Nat
  last    : HImage
  cvs     : Nat
  depths  : Nat × Nat × Bool
  deriving DecidableEq, Repr

/-- The HEVC block: its sessions, the session whose row is on the encode and on the decode core, the BULK session whose turn
it is on each, stream offsets that wait to go to the partner (R436). -/
structure HvcPart where
  sessions : Vector HSession 32
  core     : Vector (Option Nat) 2
  turn     : Vector Nat 2
  offsets  : List (Nat × Nat)
  deriving DecidableEq, Repr

end Sys2Proof.Machine
end

