-- ==== Sys2Proof/Machine/Parts/Net.lean ====
section
/-!
DEFINITION. The state of PTP, the Ethernet ports, the cue protocol and the SPI target port (chapter 17), and of the DRAM
controllers (chapter 18), beyond their registers.
-/

namespace Sys2Proof.Machine

/-- A master heard by Announce (R463): the port, its Announce as received last, and when its last two came. -/
structure Master where
  port : Nat
  info : Announce
  at_  : Time
  prev : Option Time
  deriving DecidableEq, Repr

/-- An entry of the transmit time-stamp queue (R462). -/
structure TsqEntry where
  seq   : Nat
  type  : Nat
  port  : Nat
  stamp : Time
  deriving DecidableEq, Repr

/-- The PTP servo (R460 to R465): masters heard, the master in use as port and source, whether an offset has been applied
since BOOT, whether an acquisition is in progress and its measured offsets, a two-step Sync that waits for its Follow_Up
(port, sequence, receipt, correction), the receipt, origin and correction of the last Sync, the Delay_Req outstanding
(port, sequence, departure if its stamp was kept), the next sequence number, when the last Delay_Req left and the interval granted in ns, the mean path delay, Sync messages in a row
within 100 ns, the frequency correction in parts per billion and since when it acts, the transmit time-stamps, and until when the last access unit of each RTP stream takes its pace (R478). -/
structure PtpPart where
  masters : List Master
  sel     : Option (Nat × Nat)
  first   : Bool
  acq     : Bool
  exch    : List Int
  twoStep : Option (Nat × Nat × Int × Int)
  sync    : Option (Int × Int)
  req     : Option (Nat × Nat × Option Int)
  seq     : Nat
  reqAt   : Time
  granted : Nat
  delay   : Int
  good    : Nat
  freq    : Int
  freqAt  : Time
  tsq     : List TsqEntry
  pace    : Vector Time 8
  deriving DecidableEq, Repr

/-- Where a reply or a report goes: the SPI target port, or a port, address and UDP port. -/
inductive CueAddr where
  | spi
  | udp (port : Nat) (v6 : Bool) (addr : List Byte) (udp : Nat)
  deriving DecidableEq, Repr

/-- A cue key (R467, R468): its 32 bytes, the highest SEQ accepted, the replies kept by SEQ, the SEQ counter of reports. -/
structure CueKey where
  id      : Nat
  key     : List Byte
  high    : Option Nat
  replies : List (Nat × List Byte)
  out     : Nat
  deriving DecidableEq, Repr

/-- A message in the cue queue (R469). -/
structure CueMsg where
  arrival : Nat
  source  : CueAddr
  bytes   : List Byte
  deriving DecidableEq, Repr

/-- What the management core is executing (R471, R472, R86): the operations left with the index of the first, read data, the
entries removed by CAL_CANCEL, the groups of its COMMIT operations, and what it answers: a message, or a fired entry. -/
structure CueJob where
  ops     : List (Nat × List Byte)
  index   : Nat
  data    : List Byte
  removed : Nat
  commits : Nat
  msg     : Option CueMsg
  fired   : Option FiredEntry
  deriving DecidableEq, Repr

/-- A destination of fired reports (R474). -/
structure Subscriber where
  key  : Nat
  addr : CueAddr
  deriving DecidableEq, Repr

/-- The cue protocol: keys, queue, arrival number, the job in hand, the groups and the end of its commits, subscribers
(oldest first), the SPI output queue (whether each is a report) and SPI requests not yet answered, scheduled operations by
number with the next number, stored cues by slot, the cue buffer's address and size in DRAM. -/
structure CuePart where
  keys    : List CueKey
  queue   : List CueMsg
  arrival : Nat
  job     : Option CueJob
  subs    : List Subscriber
  spi     : List (Bool × List Byte)
  spiOpen : Nat
  sched   : List (Nat × List Byte)
  nextOps : Nat
  stored  : List (Nat × List Byte)
  buffer  : Nat
  bufSize : Nat
  deriving DecidableEq, Repr

/-- A request at a DRAM channel (R484, R485): its number, class, address, whether it writes, when it came, whether it has
been promoted. -/
structure DramReq where
  id    : Nat
  cls   : TrafficClass
  addr  : Nat
  write : Bool
  at_   : Time
  up    : Bool
  deriving DecidableEq, Repr

/-- A DRAM channel: its requests in order of arrival, LIVE bursts that the calibration in progress has kept back, bursts
added to LIVE_RES in the next two windows (R489), requests timed out in the present episode (R487), the end of its last window. -/
structure DramChan where
  queue : List DramReq
  kept  : Nat
  owed  : List Nat
  late  : Nat
  due   : Time
  deriving DecidableEq, Repr

/-- The DRAM controllers: the channels, the number of the next request, and the next unit that each quadrant's scrubber
reads, as channel address / 32 and channel, and when the read after its last one falls due (R494). -/
structure DramPart where
  chans : Vector DramChan 32
  next  : Nat
  scrub : List (Nat × Nat)
  scrubAt : List Time
  deriving DecidableEq, Repr

end Sys2Proof.Machine
end

