-- ==== Sys2Proof/Machine/Parts/Out.lean ====
section
/-!
DEFINITION. What leaves the device: the model's own record of its outputs.
-/

namespace Sys2Proof.Machine

/-- What is asked of a drive over NVMe (R369, R392, R393). -/
inductive NvmeOp where
  | adminQueue | identify | createQueues | read | write | flush | deallocate | abort | resetController | fwDownload | fwCommit
  deriving DecidableEq, Repr

/-- Something that has left the device. -/
inductive Out where
  /-- CALM_OUT was driven low (R538). -/
  | calmOut
  /-- Bytes answered on the SPI target port (R475, R519). -/
  | spi (bytes : List Byte)
  /-- A packet or marker left on a forward lane, as blocks of a sync header and 128 scrambled bits (R270, R271). -/
  | forward (lane : Nat) (blocks : List (BitVec 130))
  /-- The bits that a tile lane in far-end loopback sent back (R323). -/
  | forwardBits (lane : Nat) (bits : List Bool)
  /-- A test pattern starts on the forward output of a tile lane, or on the transmitter of a pairing lane (R323). -/
  | pattern (pairing : Bool) (lane prbs : Nat)
  /-- An alignment column left on the pairing lanes: the symbols of each logical lane (R321). -/
  | column (lanes : List (List PairSym))
  /-- A frame left on the pairing stream (R346): what it holds, what its payload stands for, and the symbols of each logical lane
  (R320), alignment columns left out. -/
  | pairFrame (frame : PairFrame) (body : PairBody) (lanes : List (List PairSym))
  /-- The symbols that a pairing lane in far-end loopback sent back (R323). -/
  | pairSyms (lane : Nat) (syms : List PairSym)
  /-- A beat or yield word left on HB_OUT, path B (R338, R342): the levels of the pin by half bits of 0.5 µs; it is low after them. -/
  | heartbeat (word : BitVec 128) (levels : List Bool)
  /-- A frame left on an Ethernet port (R458). -/
  | eth (port : Nat) (bytes : List Byte)
  /-- A Delay_Req left on a port (R460): its sequenceId. -/
  | delayReq (port seq : Nat)
  /-- A UDP datagram left on a port (R467, R474, R478): address, source and destination UDP port, DSCP, payload. -/
  | udp (port : Nat) (addr : List Byte) (src dst dscp : Nat) (bytes : List Byte)
  /-- A DRAM channel served these requests of a window, in order (R484). -/
  | dramServed (chan : Nat) (ids : List Nat)
  /-- A command to a drive (chapter 13): the model's own number of what it serves, first block, blocks, data. -/
  | nvme (drive : Nat) (op : NvmeOp) (id lba blocks : Nat) (bytes : List Byte)
  /-- A journal page written to a drive (R373): its block and its 4,096 bytes. -/
  | journal (drive lba : Nat) (page : List Byte)
  /-- A superblock written to a drive (Table 13-1): its block, the store set id, the drive index, the drive count, and the sizes of the
  index and journal regions in MiB. -/
  | superblock (drive lba storeSet index count idxMib jrnMib : Nat)
  /-- An output port drove a frame (R443, R450): whether its data changes on the falling edge of BCLK, the bit clocks before its first
slot, and the bits of each slot, none for high impedance. -/
  | audio (port : Nat) (onFalling : Bool) (offset : Nat) (slots : List (List (Option Bool)))
  /-- A master drove the clocks of a frame (R442): AUDd_BCLK at `mclk` / `div` Hz for `bits` bit clocks from the edge of AUDd_FS that
starts the frame, the falling one or the rising one (R443). -/
  | audioClock (dom mclk div bits : Nat) (falling : Bool)
  /-- The answer to a register read or write on the bus: data, and whether it is an error response (R8, R15). -/
  | bus (data : Nat) (err : Bool)
  deriving DecidableEq, Repr

end Sys2Proof.Machine
end

