-- ==== Sys2Proof/Machine/Parts/Pair.lean ====
section
/-!
DEFINITION. The state of the redundancy control (chapter 12) beyond its registers.
-/

namespace Sys2Proof.Machine

/-- A beat of the partner (Table 12-2). -/
structure Beat where
  state    : Nat
  windward : Bool
  synced   : Bool
  strap    : Bool
  ready    : Bool
  epoch    : Nat
  tag      : Nat
  frame    : Nat
  cut      : Nat
  deriving DecidableEq, Repr

/-- A state frame that the sender keeps until an ACK covers it (R347). -/
structure Kept where
  frame : PairFrame
  body  : PairBody
  deriving DecidableEq, Repr

/-- A veer in preparation (R358 to R361): V, the line of the paired restart, whether this device is the incoming one, frames by which V has moved, whether the incoming device's lanes are all up, whether preparation is
complete, the tiles sent a HANDOVER and those that accepted, whether the veer stands. -/
structure Prep where
  v        : Nat
  restart  : Nat
  incoming : Bool
  moves    : Nat
  lanes    : Bool
  ready    : Bool
  sent     : List Nat
  accepted : List Nat
  stands   : Bool
  deriving DecidableEq, Repr

/-- The handback of a segment (R365): its lane, the line V of its veer, its epoch, the tiles sent a HANDOVER and those that
accepted. -/
structure Handback where
  lane     : Nat
  v        : Nat
  epoch    : Nat
  sent     : List Nat
  accepted : List Nat
  deriving DecidableEq, Repr

/-- The redundancy control. -/
structure PairPart where
  /-- Role selection is open (R336), since when the device is in COLD, and whether it has come back from a give-up (R356). -/
  selecting : Bool
  coldAt    : Time
  gaveUp    : Bool
  /-- LIVE was entered by takeover or alone (R356), when, and since when every claim has been refused. -/
  alone     : Bool
  liveAt    : Time
  refSince  : Option Time
  /-- Claims of this device's own declaration go on, so that epochs which tiles report may raise its own (R353, R569). -/
  claiming  : Bool
  /-- When a claim was last accepted or a lane last came up, and whether output is valid since (R355). -/
  readyAt   : Time
  valid     : Bool
  /-- Tiles whose claims have been accepted since the last frame boundary, and when; the tiles that get nothing of the frame that begins
  with a line, since their claims came within eight lines of it (R355). -/
  newly     : List (Nat × Time)
  held      : Nat × List Nat
  /-- The first claim after a takeover is outstanding (R354). -/
  refusing  : Bool
  /-- Beats received in the present frame, consecutive misses, and consecutive receptions, on paths A and B. -/
  gotA      : Bool
  gotB      : Bool
  missA     : Nat
  missB     : Nat
  okA       : Nat
  okB       : Nat
  /-- The last beat, consecutive beats of equal FRAME, and whether the partner has been declared failed. -/
  partner   : Option Beat
  equal     : Nat
  failed    : Bool
  /-- The veer in preparation; the line at which the outgoing device enters COLD; the line of an armed paired restart. -/
  prep      : Option Prep
  /-- The target of a VEER entry whose preparation has been refused here, by R70 or for want of epochs (R335, R368). -/
  barred    : Option Nat
  outLine   : Option Nat
  restart   : Option Nat
  /-- Segments that this device feeds as leeward, and those that its partner feeds, by lane and first position (R363). -/
  segs      : List (Nat × Nat)
  given     : List (Nat × Nat)
  /-- A segment is being handed back; since when each split lane has shown no stale tile. -/
  back      : Option Handback
  /-- The line to which the partner stays WARM after a handback, and mirror mode goes on (R351, R365). -/
  mirrorTo  : Option Nat
  heal      : List (Nat × Time)
  /-- The partner's checkpoint version, and whether its FIXED_ID differs. -/
  version   : Option Nat
  /-- SEQ of the next state frame sent, the frames kept, SEQ of the next frame expected; the CRC-32C registers over the state frames
  of the present cut, sent and received (R349). -/
  txSeq     : Nat
  kept      : List Kept
  rxSeq     : Nat
  txCrc     : Nat
  rxCrc     : Nat
  /-- A complete BASE has come; one is due to be sent; the last complete cut, and when it came or went. -/
  based     : Bool
  baseDue   : Bool
  /-- Frames of the base in progress that have yet to be sent. -/
  baseLeft  : Nat
  cut       : Option Ckpt
  cutAt     : Time
  /-- Commit decisions by line (R351), and writes held until after an occasion, with its line. -/
  decided   : List (Nat × Nat)
  late      : List (Nat × MirrorWrite)
  /-- The present frame counts (R352); signatures by SIG_WLN, of this device, with whether the frame counted, and of its partner;
  consecutive counted frames that differ. -/
  sigOk     : Bool
  sigsOwn   : List (Nat × Nat × Bool)
  sigsHis   : List (Nat × Nat)
  mism      : Nat
  /-- Since when homing health has held (R366). -/
  homeAt    : Option Time
  deriving DecidableEq, Repr

end Sys2Proof.Machine
end

