-- ==== Sys2Proof/Machine/RegMap.lean ====
section
/-!
DEFINITION. The register map of the ZV4096 (Table 2-18 and the register tables of every chapter): every field of
every register as a named constant with its bit address, width, access code, reset value and BOOT-only mark, and
the table of register rows by which an access finds the fields of the register at an address.
-/

namespace Sys2Proof.Machine

/-- The access code of a field (Table 0-3); `rws g` is a shadowed field of commit group g (R14). -/
inductive Acc where
  | rw | ro | rc | wo | w1s | w1c
  | rws (g : Fin 8)
  deriving DecidableEq, Repr

/-- A field of a register: its bit address (8 times the byte address of the register, plus its lowest bit),
its width, its access code, its reset value and whether it is writable in BOOT only (R565). -/
structure Fld where
  key   : Nat
  width : Nat
  acc   : Acc
  reset : Nat
  boot  : Bool
  deriving DecidableEq, Repr

/-- A row of the register map: the address of its first register, the strides and counts of its indices (longest
stride first), and the fields of the register with given indices. It is no part of the state. -/
structure RegRow where
  base : Nat
  dims : List (Nat × Nat)
  flds : List Nat → List Fld

namespace R

/-- The reset value of coefficient i of a 3 by 3 matrix: 1.0 in FP24 on the diagonal and 0 elsewhere. -/
def mtxReset (i : Nat) : Nat := if i % 4 = 0 then 0x3F0000 else 0

/-! Block TOP (01_screen_system.md, R30 and its tables). -/

def TOP_ID : Fld := ⟨8 * (0x0) + 0, 32, .ro, 1515589632, false⟩
def TOP_STATE_CHANGES : Fld := ⟨8 * (0x4) + 16, 8, .ro, 0, false⟩
def TOP_STATE_BANK_STRAP : Fld := ⟨8 * (0x4) + 9, 1, .ro, 0, false⟩
def TOP_STATE_ROLE_STRAP : Fld := ⟨8 * (0x4) + 8, 1, .ro, 0, false⟩
def TOP_STATE_SPLIT : Fld := ⟨8 * (0x4) + 7, 1, .ro, 0, false⟩
def TOP_STATE_PAIRED : Fld := ⟨8 * (0x4) + 6, 1, .ro, 0, false⟩
def TOP_STATE : Fld := ⟨8 * (0x4) + 0, 4, .ro, 1, false⟩

/-! Block CLK (11_lanes_calibration.md, R326 and its tables). -/

def CLK_CAL_CFG_DT : Fld := ⟨8 * (0x10800) + 16, 5, .rw, 8, false⟩
def CLK_CAL_CFG_RETRIES : Fld := ⟨8 * (0x10800) + 8, 3, .rw, 3, false⟩
def CLK_CAL_CFG_AUTO_EN : Fld := ⟨8 * (0x10800) + 0, 1, .rw, 1, false⟩
def CLK_CAL_RETRY_MS : Fld := ⟨8 * (0x10804) + 0, 16, .rw, 1000, false⟩
def CLK_CAL_MIN_EYE_DRAM : Fld := ⟨8 * (0x10808) + 24, 6, .rw, 12, false⟩
def CLK_CAL_MIN_EYE_CAM : Fld := ⟨8 * (0x10808) + 16, 6, .rw, 8, false⟩
def CLK_CAL_MIN_EYE_RX_THR : Fld := ⟨8 * (0x10808) + 8, 6, .rw, 8, false⟩
def CLK_CAL_MIN_EYE_RX_PHASE : Fld := ⟨8 * (0x10808) + 0, 6, .rw, 16, false⟩
def CLK_CAL_REQ_DRAM : Fld := ⟨8 * (0x1080C) + 2, 1, .wo, 0, false⟩
def CLK_CAL_REQ_CAM : Fld := ⟨8 * (0x1080C) + 1, 1, .wo, 0, false⟩
def CLK_CAL_REQ_RX : Fld := ⟨8 * (0x1080C) + 0, 1, .wo, 0, false⟩
def CLK_CAL_BUSY_DRAM : Fld := ⟨8 * (0x10810) + 2, 1, .ro, 0, false⟩
def CLK_CAL_BUSY_CAM : Fld := ⟨8 * (0x10810) + 1, 1, .ro, 0, false⟩
def CLK_CAL_BUSY_RX : Fld := ⟨8 * (0x10810) + 0, 1, .ro, 0, false⟩
def CLK_RUNS_GOOD : Fld := ⟨8 * (0x10880) + 0, 32, .rc, 0, false⟩
def CLK_RUNS_BAD : Fld := ⟨8 * (0x10884) + 0, 32, .rc, 0, false⟩
def CLK_TIMEOUTS : Fld := ⟨8 * (0x10888) + 0, 32, .rc, 0, false⟩

/-! Block WTM (03_wall_time.md, R65 and its tables). -/

def WTM_CTRL_FREF_DIV : Fld := ⟨8 * (0x20000) + 24, 8, .rw, 1, false⟩
def WTM_CTRL_FREE_RUN_OK : Fld := ⟨8 * (0x20000) + 4, 1, .rw, 0, false⟩
def WTM_CTRL_FREF_EDGE : Fld := ⟨8 * (0x20000) + 3, 1, .rw, 0, false⟩
def WTM_CTRL_SOURCE : Fld := ⟨8 * (0x20000) + 0, 2, .rw, 0, false⟩
def WTM_STATUS_LOSSES : Fld := ⟨8 * (0x20004) + 8, 8, .ro, 0, false⟩
def WTM_STATUS_JUMP_PENDING : Fld := ⟨8 * (0x20004) + 7, 1, .ro, 0, false⟩
def WTM_STATUS_FREF_MISSING : Fld := ⟨8 * (0x20004) + 6, 1, .ro, 0, false⟩
def WTM_STATUS_EVER_LOCKED : Fld := ⟨8 * (0x20004) + 5, 1, .ro, 0, false⟩
def WTM_STATUS_LOCK : Fld := ⟨8 * (0x20004) + 0, 3, .ro, 0, false⟩
def WTM_RATE_RATE_NUM : Fld := ⟨8 * (0x20008) + 12, 20, .rw, 60000, true⟩
def WTM_RATE_RATE_DEN : Fld := ⟨8 * (0x20008) + 0, 12, .rw, 1001, true⟩
def WTM_WLN_LO : Fld := ⟨8 * (0x20010) + 0, 32, .ro, 0, false⟩
def WTM_WLN_HI : Fld := ⟨8 * (0x20014) + 0, 16, .ro, 0, false⟩
def WTM_SAMPLE_GO : Fld := ⟨8 * (0x20018) + 0, 1, .wo, 0, false⟩
def WTM_S_WLN_LO : Fld := ⟨8 * (0x20020) + 0, 32, .ro, 0, false⟩
def WTM_S_WLN_HI : Fld := ⟨8 * (0x20024) + 0, 16, .ro, 0, false⟩
def WTM_S_SEC_LO : Fld := ⟨8 * (0x20028) + 0, 32, .ro, 0, false⟩
def WTM_S_SEC_HI : Fld := ⟨8 * (0x2002C) + 0, 16, .ro, 0, false⟩
def WTM_S_NS : Fld := ⟨8 * (0x20030) + 0, 30, .ro, 0, false⟩
def WTM_S_FRAC : Fld := ⟨8 * (0x20034) + 0, 16, .ro, 0, false⟩
def WTM_EPOCH_LO : Fld := ⟨8 * (0x20040) + 0, 32, .rw, 0, false⟩
def WTM_EPOCH_HI : Fld := ⟨8 * (0x20044) + 0, 16, .rw, 0, false⟩
def WTM_PHASE_ERR : Fld := ⟨8 * (0x20048) + 0, 32, .ro, 0, false⟩
def WTM_SLEW_PPM : Fld := ⟨8 * (0x2004C) + 0, 10, .rw, 50, false⟩
def WTM_COMMIT_ARM_ARM : Fld := ⟨8 * (0x20080) + 0, 8, .w1s, 0, false⟩
def WTM_COMMIT_HOLD_HOLD : Fld := ⟨8 * (0x20084) + 0, 8, .rw, 0, false⟩
def WTM_COMMIT_PEND_DEFERRED : Fld := ⟨8 * (0x20088) + 8, 8, .ro, 0, false⟩
def WTM_COMMIT_PEND_DIRTY : Fld := ⟨8 * (0x20088) + 0, 8, .ro, 0, false⟩
def WTM_APPLY_LINE_LINE (n : Nat) : Fld := ⟨8 * (0x20100 + 0x4 * n) + 0, 16, .rw, 65535, false⟩
def WTM_CAL_W_W (n : Nat) : Fld := ⟨8 * (0x20200 + 0x4 * n) + 0, 32, .rw, 0, false⟩
def WTM_CAL_TGT_HI_TGT_HI : Fld := ⟨8 * (0x20210) + 0, 16, .rw, 0, false⟩
def WTM_CAL_CMD_CANCEL : Fld := ⟨8 * (0x20214) + 1, 1, .wo, 0, false⟩
def WTM_CAL_CMD_INSERT : Fld := ⟨8 * (0x20214) + 0, 1, .wo, 0, false⟩
def WTM_CAL_STATUS_REMOVED : Fld := ⟨8 * (0x20218) + 24, 8, .ro, 0, false⟩
def WTM_CAL_STATUS_ERROR : Fld := ⟨8 * (0x20218) + 16, 8, .ro, 0, false⟩
def WTM_CAL_STATUS_PAST_AT_INSERT : Fld := ⟨8 * (0x20218) + 15, 1, .ro, 0, false⟩
def WTM_CAL_STATUS_COUNT : Fld := ⟨8 * (0x20218) + 0, 13, .ro, 0, false⟩
def WTM_CAL_FIRED_FIRED : Fld := ⟨8 * (0x2021C) + 0, 32, .rc, 0, false⟩
def WTM_CAL_PAST_PAST : Fld := ⟨8 * (0x20220) + 0, 32, .rc, 0, false⟩

/-! Block THM (19_thermal.md, R496 and its tables). -/

def THM_CTRL_LULL_MAX : Fld := ⟨8 * (0x30000) + 0, 13, .rw, 4096, false⟩
def THM_STATUS_TRIP : Fld := ⟨8 * (0x30004) + 31, 1, .ro, 0, false⟩
def THM_STATUS_BAND : Fld := ⟨8 * (0x30004) + 28, 3, .ro, 1, false⟩
def THM_STATUS_VALID : Fld := ⟨8 * (0x30004) + 22, 5, .ro, 0, false⟩
def THM_STATUS_HOT_SITE : Fld := ⟨8 * (0x30004) + 16, 5, .ro, 0, false⟩
def THM_STATUS_TJ : Fld := ⟨8 * (0x30004) + 0, 16, .ro, 0, false⟩
def THM_LULL_NOW_L : Fld := ⟨8 * (0x30008) + 0, 13, .ro, 0, false⟩
def THM_CAM_OFS_OFS (n : Nat) : Fld := ⟨8 * (0x30010 + 0x4 * n) + 0, 6, .rw, 0, false⟩
def THM_SITE_VALID (n : Nat) : Fld := ⟨8 * (0x30100 + 0x4 * n) + 31, 1, .ro, 0, false⟩
def THM_SITE_IGNORE (n : Nat) : Fld := ⟨8 * (0x30100 + 0x4 * n) + 30, 1, .rw, 0, false⟩
def THM_SITE_TEMP (n : Nat) : Fld := ⟨8 * (0x30100 + 0x4 * n) + 0, 16, .ro, 0, false⟩
def THM_BAND_CHANGES : Fld := ⟨8 * (0x30200) + 0, 32, .rc, 0, false⟩
def THM_SITE_FAULTS : Fld := ⟨8 * (0x30204) + 0, 32, .rc, 0, false⟩
def THM_B3_MS : Fld := ⟨8 * (0x30208) + 0, 32, .rc, 0, false⟩
def THM_LULLS : Fld := ⟨8 * (0x3020C) + 0, 32, .rc, 0, false⟩

/-! Block ERR (21_errors_snapshots.md, R524 and its tables). -/

def ERR_CTRL_DRAM_EN : Fld := ⟨8 * (0x40000) + 0, 1, .rw, 0, true⟩
def ERR_DRAM_BASE_LO : Fld := ⟨8 * (0x40004) + 0, 32, .rw, 0, true⟩
def ERR_DRAM_BASE_HI : Fld := ⟨8 * (0x40008) + 0, 8, .rw, 0, true⟩
def ERR_WR_SEQ : Fld := ⟨8 * (0x40010) + 0, 32, .ro, 0, false⟩
def ERR_DRAM_SEQ : Fld := ⟨8 * (0x40014) + 0, 32, .ro, 0, false⟩
def ERR_SEL : Fld := ⟨8 * (0x40020) + 0, 32, .rw, 0, false⟩
def ERR_E (n : Nat) : Fld := ⟨8 * (0x40024 + 0x4 * n) + 0, 32, .ro, 0, false⟩
def ERR_RD_STATUS : Fld := ⟨8 * (0x40034) + 0, 2, .ro, 0, false⟩
def ERR_DROPPED : Fld := ⟨8 * (0x40080) + 0, 32, .rc, 0, false⟩
def ERR_NOT_COPIED : Fld := ⟨8 * (0x40084) + 0, 32, .rc, 0, false⟩
def ERR_FATAL : Fld := ⟨8 * (0x40088) + 0, 32, .rc, 0, false⟩

/-! Block SNAP (21_errors_snapshots.md, R536 and its tables). -/

def SNAP_CTRL_TRIGGER : Fld := ⟨8 * (0x50000) + 8, 1, .wo, 0, false⟩
def SNAP_CTRL_OUT_EN : Fld := ⟨8 * (0x50000) + 1, 1, .rw, 1, false⟩
def SNAP_CTRL_HOLD : Fld := ⟨8 * (0x50000) + 0, 1, .rw, 0, false⟩
def SNAP_SEQ : Fld := ⟨8 * (0x50004) + 0, 32, .ro, 0, false⟩
def SNAP_SRC : Fld := ⟨8 * (0x50008) + 0, 2, .ro, 0, false⟩
def SNAP_T_WLN_LO : Fld := ⟨8 * (0x5000C) + 0, 32, .ro, 0, false⟩
def SNAP_T_WLN_HI : Fld := ⟨8 * (0x50010) + 0, 16, .ro, 0, false⟩
def SNAP_T_SEC_LO : Fld := ⟨8 * (0x50014) + 0, 32, .ro, 0, false⟩
def SNAP_T_SEC_HI : Fld := ⟨8 * (0x50018) + 0, 16, .ro, 0, false⟩
def SNAP_T_NS : Fld := ⟨8 * (0x5001C) + 0, 30, .ro, 0, false⟩
def SNAP_BSEL_SOURCE : Fld := ⟨8 * (0x50040) + 8, 8, .rw, 0, false⟩
def SNAP_BSEL_INST : Fld := ⟨8 * (0x50040) + 0, 8, .rw, 0, false⟩
def SNAP_BADDR_OFFSET : Fld := ⟨8 * (0x50044) + 0, 16, .rw, 0, false⟩
def SNAP_DATA : Fld := ⟨8 * (0x50048) + 0, 32, .ro, 0, false⟩
def SNAP_L_NS : Fld := ⟨8 * (0x5004C) + 0, 30, .ro, 0, false⟩
def SNAP_L_SEC_LO : Fld := ⟨8 * (0x50050) + 0, 32, .ro, 0, false⟩
def SNAP_BSTAT_MISSED : Fld := ⟨8 * (0x50054) + 1, 1, .ro, 0, false⟩
def SNAP_BSTAT_LATCHED : Fld := ⟨8 * (0x50054) + 0, 1, .ro, 0, false⟩
def SNAP_DUMP_BASE_LO : Fld := ⟨8 * (0x50060) + 0, 32, .rw, 0, true⟩
def SNAP_DUMP_BASE_HI : Fld := ⟨8 * (0x50064) + 0, 8, .rw, 0, true⟩
def SNAP_TRIGGERS : Fld := ⟨8 * (0x50080) + 0, 32, .rc, 0, false⟩
def SNAP_MERGED : Fld := ⟨8 * (0x50084) + 0, 32, .rc, 0, false⟩
def SNAP_HELD : Fld := ⟨8 * (0x50088) + 0, 32, .rc, 0, false⟩
def SNAP_MISSED_BLOCKS : Fld := ⟨8 * (0x5008C) + 0, 32, .rc, 0, false⟩

/-! Block BOOT (20_boot_configuration.md, R513 and its tables). -/

def BOOT_STATUS_REASON_B : Fld := ⟨8 * (0x60000) + 24, 4, .ro, 0, false⟩
def BOOT_STATUS_REASON_A : Fld := ⟨8 * (0x60000) + 20, 4, .ro, 0, false⟩
def BOOT_STATUS_DRAM_FAIL : Fld := ⟨8 * (0x60000) + 18, 1, .ro, 0, false⟩
def BOOT_STATUS_PLL_FAIL : Fld := ⟨8 * (0x60000) + 17, 1, .ro, 0, false⟩
def BOOT_STATUS_FALLBACK : Fld := ⟨8 * (0x60000) + 16, 1, .ro, 0, false⟩
def BOOT_STATUS_SECT_FAIL : Fld := ⟨8 * (0x60000) + 8, 8, .ro, 255, false⟩
def BOOT_STATUS_BANK : Fld := ⟨8 * (0x60000) + 4, 2, .ro, 0, false⟩
def BOOT_BUILD_ID_LO : Fld := ⟨8 * (0x60004) + 0, 32, .ro, 0, false⟩
def BOOT_BUILD_ID_HI : Fld := ⟨8 * (0x60008) + 0, 32, .ro, 0, false⟩
def BOOT_VERS_CKPT_VER : Fld := ⟨8 * (0x6000C) + 16, 16, .ro, 0, false⟩
def BOOT_VERS_BOOT_MS : Fld := ⟨8 * (0x6000C) + 0, 16, .ro, 0, false⟩
def BOOT_FIXED_ID_LO : Fld := ⟨8 * (0x60010) + 0, 32, .ro, 0, false⟩
def BOOT_FIXED_ID_HI : Fld := ⟨8 * (0x60014) + 0, 32, .ro, 0, false⟩
def BOOT_WDOG_WDOG_MS : Fld := ⟨8 * (0x60018) + 0, 10, .rw, 100, true⟩
def BOOT_WDOG_KICK_KICK : Fld := ⟨8 * (0x6001C) + 0, 1, .wo, 0, false⟩
def BOOT_WDOG_LEFT : Fld := ⟨8 * (0x60020) + 0, 10, .ro, 100, false⟩

/-! Block VEER (12_redundancy.md, R334 and its tables). -/

def VEER_CTRL_HOME_EN : Fld := ⟨8 * (0x70000) + 16, 1, .rw, 0, true⟩
def VEER_CTRL_AUTO_SPLIT : Fld := ⟨8 * (0x70000) + 8, 1, .rw, 1, false⟩
def VEER_CTRL_YIELD_TEST : Fld := ⟨8 * (0x70000) + 0, 1, .wo, 0, false⟩
def VEER_STATUS_WINDWARD : Fld := ⟨8 * (0x70004) + 31, 1, .ro, 0, false⟩
def VEER_STATUS_SYNCED : Fld := ⟨8 * (0x70004) + 30, 1, .ro, 0, false⟩
def VEER_STATUS_PATH_A : Fld := ⟨8 * (0x70004) + 29, 1, .ro, 0, false⟩
def VEER_STATUS_PATH_B : Fld := ⟨8 * (0x70004) + 28, 1, .ro, 0, false⟩
def VEER_STATUS_MIRROR : Fld := ⟨8 * (0x70004) + 27, 1, .ro, 0, false⟩
def VEER_STATUS_VEER_SCHED : Fld := ⟨8 * (0x70004) + 26, 1, .ro, 0, false⟩
def VEER_STATUS_WLN_MISMATCH : Fld := ⟨8 * (0x70004) + 25, 1, .ro, 0, false⟩
def VEER_STATUS_READY : Fld := ⟨8 * (0x70004) + 24, 1, .ro, 0, false⟩
def VEER_STATUS_PARTNER_STATE : Fld := ⟨8 * (0x70004) + 20, 4, .ro, 0, false⟩
def VEER_STATUS_LAST_YIELD : Fld := ⟨8 * (0x70004) + 16, 4, .ro, 0, false⟩
def VEER_STATUS_LAST_REFUSE : Fld := ⟨8 * (0x70004) + 8, 8, .ro, 0, false⟩
def VEER_STATUS_MISS_BOTH : Fld := ⟨8 * (0x70004) + 0, 8, .ro, 0, false⟩
def VEER_EPOCH : Fld := ⟨8 * (0x70008) + 0, 32, .ro, 0, false⟩
def VEER_PARTNER_EPOCH : Fld := ⟨8 * (0x7000C) + 0, 32, .ro, 0, false⟩
def VEER_CFG_VEER_FRAMES : Fld := ⟨8 * (0x70010) + 24, 8, .rw, 12, false⟩
def VEER_CFG_LEAD4 : Fld := ⟨8 * (0x70010) + 16, 8, .rw, 32, false⟩
def VEER_CFG_SIG_MATCH : Fld := ⟨8 * (0x70010) + 8, 8, .rw, 2, false⟩
def VEER_CFG_SIG_WAIT : Fld := ⟨8 * (0x70010) + 0, 8, .rw, 64, false⟩
def VEER_TIMERS_PAIR_WAIT : Fld := ⟨8 * (0x70014) + 20, 12, .rw, 200, false⟩
def VEER_TIMERS_CLAIM_GIVEUP : Fld := ⟨8 * (0x70014) + 10, 10, .rw, 500, false⟩
def VEER_TIMERS_YIELD_HOLD : Fld := ⟨8 * (0x70014) + 0, 10, .rw, 1000, false⟩
def VEER_HOME_HOME_S : Fld := ⟨8 * (0x70018) + 16, 16, .rw, 600, false⟩
def VEER_HOME_HEAL_S : Fld := ⟨8 * (0x70018) + 0, 16, .rw, 10, false⟩
def VEER_DEV_TAG : Fld := ⟨8 * (0x7001C) + 0, 16, .ro, Config.devTag % 65536, false⟩
def VEER_NEXT_V_LO : Fld := ⟨8 * (0x70020) + 0, 32, .ro, 0, false⟩
def VEER_NEXT_V_HI : Fld := ⟨8 * (0x70024) + 0, 16, .ro, 0, false⟩
def VEER_CUT_AGE : Fld := ⟨8 * (0x70028) + 0, 32, .ro, 0, false⟩
def VEER_REQ : Fld := ⟨8 * (0x70030) + 0, 1, .wo, 0, false⟩
def VEER_TAKEOVERS : Fld := ⟨8 * (0x70080) + 0, 32, .rc, 0, false⟩
def VEER_VEERS : Fld := ⟨8 * (0x70084) + 0, 32, .rc, 0, false⟩
def VEER_VEER_ABORTS : Fld := ⟨8 * (0x70088) + 0, 32, .rc, 0, false⟩
def VEER_PARTNER_YIELDS : Fld := ⟨8 * (0x7008C) + 0, 32, .rc, 0, false⟩
def VEER_PATH_A_FAULTS : Fld := ⟨8 * (0x70090) + 0, 32, .rc, 0, false⟩
def VEER_PATH_B_FAULTS : Fld := ⟨8 * (0x70094) + 0, 32, .rc, 0, false⟩
def VEER_BEAT_BAD : Fld := ⟨8 * (0x70098) + 0, 32, .rc, 0, false⟩
def VEER_CUTS : Fld := ⟨8 * (0x7009C) + 0, 32, .rc, 0, false⟩
def VEER_RESENDS : Fld := ⟨8 * (0x700A0) + 0, 32, .rc, 0, false⟩
def VEER_BASE_RESTARTS : Fld := ⟨8 * (0x700A4) + 0, 32, .rc, 0, false⟩
def VEER_MIRROR_LOST : Fld := ⟨8 * (0x700A8) + 0, 32, .rc, 0, false⟩
def VEER_SPLIT_SEGMENTS : Fld := ⟨8 * (0x700AC) + 0, 32, .rc, 0, false⟩
def VEER_CLAIM_GIVEUPS : Fld := ⟨8 * (0x700B0) + 0, 32, .rc, 0, false⟩

/-! Block CAM (04_camera_ports.md, R99 and its tables). -/

def CAM_CTRL_REPL_MASK (n : Nat) : Fld := ⟨8 * (0x100000 + 0x10000 * n) + 16, 8, (.rws 3), 242, false⟩
def CAM_CTRL_GANG (n : Nat) : Fld := ⟨8 * (0x100000 + 0x10000 * n) + 8, 2, (.rws 3), 0, false⟩
def CAM_CTRL_SUBST_BLACK (n : Nat) : Fld := ⟨8 * (0x100000 + 0x10000 * n) + 5, 1, (.rws 3), 0, false⟩
def CAM_CTRL_CHECK_EN (n : Nat) : Fld := ⟨8 * (0x100000 + 0x10000 * n) + 4, 1, (.rws 3), 1, false⟩
def CAM_CTRL_DEPTH (n : Nat) : Fld := ⟨8 * (0x100000 + 0x10000 * n) + 2, 2, (.rws 3), 1, false⟩
def CAM_CTRL_EN (n : Nat) : Fld := ⟨8 * (0x100000 + 0x10000 * n) + 0, 1, (.rws 3), 0, false⟩
def CAM_GEOM_WIDTH (n : Nat) : Fld := ⟨8 * (0x100004 + 0x10000 * n) + 16, 15, (.rws 3), 3840, false⟩
def CAM_GEOM_HEIGHT (n : Nat) : Fld := ⟨8 * (0x100004 + 0x10000 * n) + 0, 15, (.rws 3), 2160, false⟩
def CAM_EXP_PERIOD (n : Nat) : Fld := ⟨8 * (0x100008 + 0x10000 * n) + 0, 32, (.rws 3), 16683333, false⟩
def CAM_RATE_TOL_TOL (n : Nat) : Fld := ⟨8 * (0x10000C + 0x10000 * n) + 0, 24, (.rws 3), 10000, false⟩
def CAM_GANG_SKEW_SKEW (n : Nat) : Fld := ⟨8 * (0x100010 + 0x10000 * n) + 0, 16, (.rws 3), 1000, false⟩
def CAM_STATUS_LAST_MARKS (n : Nat) : Fld := ⟨8 * (0x100020 + 0x10000 * n) + 16, 8, .ro, 0, false⟩
def CAM_STATUS_REPLACING (n : Nat) : Fld := ⟨8 * (0x100020 + 0x10000 * n) + 10, 1, .ro, 0, false⟩
def CAM_STATUS_LOST (n : Nat) : Fld := ⟨8 * (0x100020 + 0x10000 * n) + 9, 1, .ro, 0, false⟩
def CAM_STATUS_CLK_RUN (n : Nat) : Fld := ⟨8 * (0x100020 + 0x10000 * n) + 8, 1, .ro, 0, false⟩
def CAM_STATUS_IN_FRAME (n : Nat) : Fld := ⟨8 * (0x100020 + 0x10000 * n) + 0, 1, .ro, 0, false⟩
def CAM_CLK_KHZ (n : Nat) : Fld := ⟨8 * (0x100024 + 0x10000 * n) + 0, 20, .ro, 0, false⟩
def CAM_MEAS_PERIOD (n : Nat) : Fld := ⟨8 * (0x100028 + 0x10000 * n) + 0, 32, .ro, 0, false⟩
def CAM_MEAS_VBLANK (n : Nat) : Fld := ⟨8 * (0x10002C + 0x10000 * n) + 0, 32, .ro, 0, false⟩
def CAM_FS_SEQ (n : Nat) : Fld := ⟨8 * (0x100030 + 0x10000 * n) + 0, 16, .ro, 0, false⟩
def CAM_FS_WLN_LO (n : Nat) : Fld := ⟨8 * (0x100034 + 0x10000 * n) + 0, 32, .ro, 0, false⟩
def CAM_FS_WLN_HI (n : Nat) : Fld := ⟨8 * (0x100038 + 0x10000 * n) + 0, 16, .ro, 0, false⟩
def CAM_FS_SEC_LO (n : Nat) : Fld := ⟨8 * (0x10003C + 0x10000 * n) + 0, 32, .ro, 0, false⟩
def CAM_FS_SEC_HI (n : Nat) : Fld := ⟨8 * (0x100040 + 0x10000 * n) + 0, 16, .ro, 0, false⟩
def CAM_FS_NS (n : Nat) : Fld := ⟨8 * (0x100044 + 0x10000 * n) + 0, 30, .ro, 0, false⟩
def CAM_FRAMES (n : Nat) : Fld := ⟨8 * (0x100080 + 0x10000 * n) + 0, 32, .rc, 0, false⟩
def CAM_MARKED (n : Nat) : Fld := ⟨8 * (0x100084 + 0x10000 * n) + 0, 32, .rc, 0, false⟩
def CAM_CHECK_ERR (n : Nat) : Fld := ⟨8 * (0x100088 + 0x10000 * n) + 0, 32, .rc, 0, false⟩
def CAM_CHECK_MISS (n : Nat) : Fld := ⟨8 * (0x10008C + 0x10000 * n) + 0, 32, .rc, 0, false⟩
def CAM_LINE_LEN (n : Nat) : Fld := ⟨8 * (0x100090 + 0x10000 * n) + 0, 32, .rc, 0, false⟩
def CAM_SHORT (n : Nat) : Fld := ⟨8 * (0x100094 + 0x10000 * n) + 0, 32, .rc, 0, false⟩
def CAM_LONG (n : Nat) : Fld := ⟨8 * (0x100098 + 0x10000 * n) + 0, 32, .rc, 0, false⟩
def CAM_RATE (n : Nat) : Fld := ⟨8 * (0x10009C + 0x10000 * n) + 0, 32, .rc, 0, false⟩
def CAM_OVF (n : Nat) : Fld := ⟨8 * (0x1000A0 + 0x10000 * n) + 0, 32, .rc, 0, false⟩
def CAM_GANG (n : Nat) : Fld := ⟨8 * (0x1000A4 + 0x10000 * n) + 0, 32, .rc, 0, false⟩
def CAM_GLITCH (n : Nat) : Fld := ⟨8 * (0x1000A8 + 0x10000 * n) + 0, 32, .rc, 0, false⟩
def CAM_CLK_STOP (n : Nat) : Fld := ⟨8 * (0x1000AC + 0x10000 * n) + 0, 32, .rc, 0, false⟩
def CAM_REPLACED (n : Nat) : Fld := ⟨8 * (0x1000B0 + 0x10000 * n) + 0, 32, .rc, 0, false⟩
def CAM_MISSED (n : Nat) : Fld := ⟨8 * (0x1000B4 + 0x10000 * n) + 0, 32, .rc, 0, false⟩
def CAM_SUBST (n : Nat) : Fld := ⟨8 * (0x1000B8 + 0x10000 * n) + 0, 32, .rc, 0, false⟩
def CAM_DROP_UNBOUND (n : Nat) : Fld := ⟨8 * (0x1000BC + 0x10000 * n) + 0, 32, .rc, 0, false⟩
def CAM_DLY_TAP (n i : Nat) : Fld := ⟨8 * (0x100100 + 0x10000 * n + 0x4 * i) + 16, 6, .ro, 32, false⟩
def CAM_DLY_OVR_EN (n i : Nat) : Fld := ⟨8 * (0x100100 + 0x10000 * n + 0x4 * i) + 15, 1, .rw, 0, false⟩
def CAM_DLY_OVR_TAP (n i : Nat) : Fld := ⟨8 * (0x100100 + 0x10000 * n + 0x4 * i) + 8, 6, .rw, 32, false⟩
def CAM_DLY_CAL_TAP (n i : Nat) : Fld := ⟨8 * (0x100100 + 0x10000 * n + 0x4 * i) + 0, 6, .ro, 32, false⟩
def CAM_CTL_DLY_TAP (n : Nat) : Fld := ⟨8 * (0x100180 + 0x10000 * n) + 0, 6, .ro, 32, false⟩
def CAM_CAL_CTRL_HOLD (n : Nat) : Fld := ⟨8 * (0x100200 + 0x10000 * n) + 1, 1, .rw, 0, false⟩
def CAM_CAL_CTRL_GO (n : Nat) : Fld := ⟨8 * (0x100200 + 0x10000 * n) + 0, 1, .wo, 0, false⟩
def CAM_CAL_STATUS_RUNS (n : Nat) : Fld := ⟨8 * (0x100204 + 0x10000 * n) + 24, 8, .ro, 0, false⟩
def CAM_CAL_STATUS_EYE_MIN (n : Nat) : Fld := ⟨8 * (0x100204 + 0x10000 * n) + 16, 6, .ro, 0, false⟩
def CAM_CAL_STATUS_WORST_BIT (n : Nat) : Fld := ⟨8 * (0x100204 + 0x10000 * n) + 8, 5, .ro, 0, false⟩
def CAM_CAL_STATUS_STARVED (n : Nat) : Fld := ⟨8 * (0x100204 + 0x10000 * n) + 3, 1, .ro, 0, false⟩
def CAM_CAL_STATUS_RESULT (n : Nat) : Fld := ⟨8 * (0x100204 + 0x10000 * n) + 0, 3, .ro, 0, false⟩
def CAM_CAL_ERR_ERRORS (n : Nat) : Fld := ⟨8 * (0x100208 + 0x10000 * n) + 0, 32, .ro, 0, false⟩

/-! Block RAWP (05_raw_pipeline.md, R126 and its tables). -/

def RAWP_CTRL_HL_MODE (n : Nat) : Fld := ⟨8 * (0x180000 + 0x10000 * n) + 14, 2, (.rws 3), 0, false⟩
def RAWP_CTRL_CFA (n : Nat) : Fld := ⟨8 * (0x180000 + 0x10000 * n) + 12, 2, (.rws 3), 0, false⟩
def RAWP_CTRL_STATS_EN (n : Nat) : Fld := ⟨8 * (0x180000 + 0x10000 * n) + 7, 1, (.rws 3), 0, false⟩
def RAWP_CTRL_TNR_EN (n : Nat) : Fld := ⟨8 * (0x180000 + 0x10000 * n) + 6, 1, (.rws 3), 0, false⟩
def RAWP_CTRL_SNR_EN (n : Nat) : Fld := ⟨8 * (0x180000 + 0x10000 * n) + 5, 1, (.rws 3), 0, false⟩
def RAWP_CTRL_LSC_EN (n : Nat) : Fld := ⟨8 * (0x180000 + 0x10000 * n) + 4, 1, (.rws 3), 0, false⟩
def RAWP_CTRL_DYN_EN (n : Nat) : Fld := ⟨8 * (0x180000 + 0x10000 * n) + 3, 1, (.rws 3), 0, false⟩
def RAWP_CTRL_DEF_EN (n : Nat) : Fld := ⟨8 * (0x180000 + 0x10000 * n) + 2, 1, (.rws 3), 0, false⟩
def RAWP_CTRL_DEF_BANK (n : Nat) : Fld := ⟨8 * (0x180000 + 0x10000 * n) + 1, 1, (.rws 3), 0, false⟩
def RAWP_CROP_XY_X (n : Nat) : Fld := ⟨8 * (0x180004 + 0x10000 * n) + 16, 15, (.rws 3), 0, false⟩
def RAWP_CROP_XY_Y (n : Nat) : Fld := ⟨8 * (0x180004 + 0x10000 * n) + 0, 15, (.rws 3), 0, false⟩
def RAWP_CROP_WH_W (n : Nat) : Fld := ⟨8 * (0x180008 + 0x10000 * n) + 16, 15, (.rws 3), 3840, false⟩
def RAWP_CROP_WH_H (n : Nat) : Fld := ⟨8 * (0x180008 + 0x10000 * n) + 0, 15, (.rws 3), 2160, false⟩
def RAWP_BLACK (n i : Nat) : Fld := ⟨8 * (0x180010 + 0x10000 * n + 0x4 * i) + 0, 16, (.rws 3), 0, false⟩
def RAWP_SAT_LEVEL (n : Nat) : Fld := ⟨8 * (0x180020 + 0x10000 * n) + 0, 16, (.rws 3), 65535, false⟩
def RAWP_OB_COL_X0 (n : Nat) : Fld := ⟨8 * (0x180024 + 0x10000 * n) + 16, 15, (.rws 3), 0, false⟩
def RAWP_OB_COL_WIDTH (n : Nat) : Fld := ⟨8 * (0x180024 + 0x10000 * n) + 0, 15, (.rws 3), 0, false⟩
def RAWP_OB_ROW_Y0 (n : Nat) : Fld := ⟨8 * (0x180028 + 0x10000 * n) + 16, 15, (.rws 3), 0, false⟩
def RAWP_OB_ROW_HEIGHT (n : Nat) : Fld := ⟨8 * (0x180028 + 0x10000 * n) + 0, 15, (.rws 3), 0, false⟩
def RAWP_OB_LIM_ROW_LIM (n : Nat) : Fld := ⟨8 * (0x18002C + 0x10000 * n) + 0, 16, (.rws 3), 1024, false⟩
def RAWP_DYN_HOT_TH (n : Nat) : Fld := ⟨8 * (0x180030 + 0x10000 * n) + 16, 16, (.rws 3), 4096, false⟩
def RAWP_DYN_COLD_TH (n : Nat) : Fld := ⟨8 * (0x180030 + 0x10000 * n) + 0, 16, (.rws 3), 4096, false⟩
def RAWP_DEF_COUNT0 (n : Nat) : Fld := ⟨8 * (0x180034 + 0x10000 * n) + 0, 17, .rw, 0, false⟩
def RAWP_DEF_COUNT1 (n : Nat) : Fld := ⟨8 * (0x180038 + 0x10000 * n) + 0, 17, .rw, 0, false⟩
def RAWP_DEF_ADDR_AUTOINC (n : Nat) : Fld := ⟨8 * (0x18003C + 0x10000 * n) + 31, 1, .rw, 0, false⟩
def RAWP_DEF_ADDR_BANK (n : Nat) : Fld := ⟨8 * (0x18003C + 0x10000 * n) + 16, 1, .rw, 0, false⟩
def RAWP_DEF_ADDR_INDEX (n : Nat) : Fld := ⟨8 * (0x18003C + 0x10000 * n) + 0, 16, .rw, 0, false⟩
def RAWP_DEF_DATA_DATA (n : Nat) : Fld := ⟨8 * (0x180040 + 0x10000 * n) + 0, 32, .rw, 0, false⟩
def RAWP_LSC_STEP_STEP_Y (n : Nat) : Fld := ⟨8 * (0x180044 + 0x10000 * n) + 16, 16, (.rws 3), 18, false⟩
def RAWP_LSC_STEP_STEP_X (n : Nat) : Fld := ⟨8 * (0x180044 + 0x10000 * n) + 0, 16, (.rws 3), 30, false⟩
def RAWP_NR_STR_SNR_STR (n : Nat) : Fld := ⟨8 * (0x180048 + 0x10000 * n) + 16, 9, (.rws 3), 256, false⟩
def RAWP_NR_STR_TNR_MAX (n : Nat) : Fld := ⟨8 * (0x180048 + 0x10000 * n) + 0, 8, (.rws 3), 192, false⟩
def RAWP_DEM_T (n : Nat) : Fld := ⟨8 * (0x18004C + 0x10000 * n) + 0, 18, (.rws 3), 256, false⟩
def RAWP_WB_GAIN01_G1 (n : Nat) : Fld := ⟨8 * (0x180050 + 0x10000 * n) + 16, 16, (.rws 3), 4096, false⟩
def RAWP_WB_GAIN01_G0 (n : Nat) : Fld := ⟨8 * (0x180050 + 0x10000 * n) + 0, 16, (.rws 3), 4096, false⟩
def RAWP_WB_GAIN23_G3 (n : Nat) : Fld := ⟨8 * (0x180054 + 0x10000 * n) + 16, 16, (.rws 3), 4096, false⟩
def RAWP_WB_GAIN23_G2 (n : Nat) : Fld := ⟨8 * (0x180054 + 0x10000 * n) + 0, 16, (.rws 3), 4096, false⟩
def RAWP_HL_GAIN (n : Nat) : Fld := ⟨8 * (0x180058 + 0x10000 * n) + 0, 16, (.rws 3), 4096, false⟩
def RAWP_REF_BASE_LO (n : Nat) : Fld := ⟨8 * (0x180060 + 0x10000 * n) + 0, 32, (.rws 3), 0, false⟩
def RAWP_REF_BASE_HI (n : Nat) : Fld := ⟨8 * (0x180064 + 0x10000 * n) + 0, 8, (.rws 3), 0, false⟩
def RAWP_REF_BYTES (n : Nat) : Fld := ⟨8 * (0x180068 + 0x10000 * n) + 0, 18, (.rws 3), 0, false⟩
def RAWP_STAT_BASE_LO (n : Nat) : Fld := ⟨8 * (0x180070 + 0x10000 * n) + 0, 32, (.rws 3), 0, false⟩
def RAWP_STAT_BASE_HI (n : Nat) : Fld := ⟨8 * (0x180074 + 0x10000 * n) + 0, 8, (.rws 3), 0, false⟩
def RAWP_HIST_AT_LO (n : Nat) : Fld := ⟨8 * (0x180080 + 0x10000 * n) + 0, 32, .rw, 0, false⟩
def RAWP_HIST_AT_HI (n : Nat) : Fld := ⟨8 * (0x180084 + 0x10000 * n) + 0, 16, .rw, 0, false⟩
def RAWP_HIST_ARM_ARM (n : Nat) : Fld := ⟨8 * (0x180088 + 0x10000 * n) + 0, 1, .w1s, 0, false⟩
def RAWP_INV_SIGMA (n i : Nat) : Fld := ⟨8 * (0x180100 + 0x10000 * n + 0x4 * i) + 0, 16, (.rws 3), 1024, false⟩
def RAWP_SNR_W_W3 (n i : Nat) : Fld := ⟨8 * (0x180180 + 0x10000 * n + 0x4 * i) + 24, 8, (.rws 3), 0, false⟩
def RAWP_SNR_W_W2 (n i : Nat) : Fld := ⟨8 * (0x180180 + 0x10000 * n + 0x4 * i) + 16, 8, (.rws 3), 0, false⟩
def RAWP_SNR_W_W1 (n i : Nat) : Fld := ⟨8 * (0x180180 + 0x10000 * n + 0x4 * i) + 8, 8, (.rws 3), 0, false⟩
def RAWP_SNR_W_W0 (n i : Nat) : Fld := ⟨8 * (0x180180 + 0x10000 * n + 0x4 * i) + 0, 8, (.rws 3), 0, false⟩
def RAWP_TNR_W_W3 (n i : Nat) : Fld := ⟨8 * (0x1801C0 + 0x10000 * n + 0x4 * i) + 24, 8, (.rws 3), 0, false⟩
def RAWP_TNR_W_W2 (n i : Nat) : Fld := ⟨8 * (0x1801C0 + 0x10000 * n + 0x4 * i) + 16, 8, (.rws 3), 0, false⟩
def RAWP_TNR_W_W1 (n i : Nat) : Fld := ⟨8 * (0x1801C0 + 0x10000 * n + 0x4 * i) + 8, 8, (.rws 3), 0, false⟩
def RAWP_TNR_W_W0 (n i : Nat) : Fld := ⟨8 * (0x1801C0 + 0x10000 * n + 0x4 * i) + 0, 8, (.rws 3), 0, false⟩
def RAWP_STATUS_REF_SMALL (n : Nat) : Fld := ⟨8 * (0x180200 + 0x10000 * n) + 9, 1, .ro, 0, false⟩
def RAWP_STATUS_DEF_ORDER (n : Nat) : Fld := ⟨8 * (0x180200 + 0x10000 * n) + 8, 1, .ro, 0, false⟩
def RAWP_STATUS_TNR_STEP (n : Nat) : Fld := ⟨8 * (0x180200 + 0x10000 * n) + 2, 3, .ro, 0, false⟩
def RAWP_STATUS_LAST_GOOD (n : Nat) : Fld := ⟨8 * (0x180200 + 0x10000 * n) + 1, 1, .ro, 0, false⟩
def RAWP_STATUS_STAT_BUF (n : Nat) : Fld := ⟨8 * (0x180200 + 0x10000 * n) + 0, 1, .ro, 0, false⟩
def RAWP_STAT_SEQ (n : Nat) : Fld := ⟨8 * (0x180204 + 0x10000 * n) + 0, 32, .ro, 0, false⟩
def RAWP_FRAMES_OUT (n : Nat) : Fld := ⟨8 * (0x180280 + 0x10000 * n) + 0, 32, .rc, 0, false⟩
def RAWP_DYN_CORR (n : Nat) : Fld := ⟨8 * (0x180284 + 0x10000 * n) + 0, 32, .rc, 0, false⟩
def RAWP_OB_CLAMP (n : Nat) : Fld := ⟨8 * (0x180288 + 0x10000 * n) + 0, 32, .rc, 0, false⟩
def RAWP_REF_POISON (n : Nat) : Fld := ⟨8 * (0x18028C + 0x10000 * n) + 0, 32, .rc, 0, false⟩
def RAWP_REPL_POISON (n : Nat) : Fld := ⟨8 * (0x180290 + 0x10000 * n) + 0, 32, .rc, 0, false⟩
def RAWP_HIST_RESTARTS (n : Nat) : Fld := ⟨8 * (0x180294 + 0x10000 * n) + 0, 32, .rc, 0, false⟩

/-! Block CLR (06_colour.md, R165 and its tables). -/

def CLR_CFG_WALL_DEPTH : Fld := ⟨8 * (0x200000) + 8, 1, .rw, 0, true⟩
def CLR_CFG_WORK_SPACE : Fld := ⟨8 * (0x200000) + 0, 1, .rw, 0, true⟩
def CLR_CAMC_CTRL_LUT3D_EN (n : Nat) : Fld := ⟨8 * (0x200100 + 0x40 * n) + 2, 1, (.rws 4), 0, false⟩
def CLR_CAMC_CTRL_LUT1_BANK (n : Nat) : Fld := ⟨8 * (0x200100 + 0x40 * n) + 1, 1, (.rws 4), 0, false⟩
def CLR_CAMC_CTRL_LUT1_EN (n : Nat) : Fld := ⟨8 * (0x200100 + 0x40 * n) + 0, 1, (.rws 4), 0, false⟩
def CLR_CAMC_MTX (n i : Nat) : Fld := ⟨8 * (0x200104 + 0x40 * n + 0x4 * i) + 0, 24, (.rws 4), mtxReset i, false⟩
def CLR_WALL_CTRL_DITHER_T : Fld := ⟨8 * (0x201000) + 4, 1, (.rws 2), 1, false⟩
def CLR_WALL_CTRL_DITHER_EN : Fld := ⟨8 * (0x201000) + 3, 1, (.rws 2), 1, false⟩
def CLR_WALL_CTRL_TONE_BANK : Fld := ⟨8 * (0x201000) + 2, 1, (.rws 2), 0, false⟩
def CLR_WALL_CTRL_RESP_BANK : Fld := ⟨8 * (0x201000) + 1, 1, (.rws 2), 0, false⟩
def CLR_PEAK : Fld := ⟨8 * (0x201004) + 0, 14, (.rws 2), 1000, false⟩
def CLR_AMB_LO : Fld := ⟨8 * (0x201010) + 0, 18, (.rws 2), 16, false⟩
def CLR_AMB_HI : Fld := ⟨8 * (0x201014) + 0, 18, (.rws 2), 16384, false⟩
def CLR_AMB_TAU : Fld := ⟨8 * (0x201018) + 0, 16, (.rws 2), 3000, false⟩
def CLR_AMB_SLEW : Fld := ⟨8 * (0x20101C) + 0, 13, (.rws 2), 4, false⟩
def CLR_AMB_OVR_OVR_EN : Fld := ⟨8 * (0x201020) + 31, 1, (.rws 2), 0, false⟩
def CLR_AMB_OVR_A_OVR : Fld := ⟨8 * (0x201020) + 0, 13, (.rws 2), 0, false⟩
def CLR_DERATE_SLEW_DOWN : Fld := ⟨8 * (0x201030) + 16, 16, (.rws 2), 32, false⟩
def CLR_DERATE_SLEW_UP : Fld := ⟨8 * (0x201030) + 0, 16, (.rws 2), 8, false⟩
def CLR_CAP_DAY : Fld := ⟨8 * (0x201040) + 0, 32, (.rws 2), 4294967295, false⟩
def CLR_CAP_NIGHT : Fld := ⟨8 * (0x201044) + 0, 32, (.rws 2), 4294967295, false⟩
def CLR_CAP_MIN : Fld := ⟨8 * (0x201048) + 0, 16, (.rws 2), 16384, false⟩
def CLR_CAP_CTL_CAP_HYST : Fld := ⟨8 * (0x20104C) + 16, 8, (.rws 2), 8, false⟩
def CLR_CAP_CTL_CAP_UP : Fld := ⟨8 * (0x20104C) + 0, 16, (.rws 2), 16, false⟩
def CLR_LOOP_STATUS_AMB_VALID : Fld := ⟨8 * (0x201080) + 24, 8, .ro, 0, false⟩
def CLR_LOOP_STATUS_LOOP_LAG : Fld := ⟨8 * (0x201080) + 19, 1, .ro, 0, false⟩
def CLR_LOOP_STATUS_CAP_FLOOR : Fld := ⟨8 * (0x201080) + 18, 1, .ro, 0, false⟩
def CLR_LOOP_STATUS_CAP_ACTIVE : Fld := ⟨8 * (0x201080) + 17, 1, .ro, 0, false⟩
def CLR_LOOP_STATUS_AMB_NONE : Fld := ⟨8 * (0x201080) + 16, 1, .ro, 0, false⟩
def CLR_LOOP_STATUS_AMB_A : Fld := ⟨8 * (0x201080) + 0, 13, .ro, 0, false⟩
def CLR_AMB_OWN_LUX : Fld := ⟨8 * (0x201084) + 0, 18, .ro, 0, false⟩
def CLR_CAP_GAIN : Fld := ⟨8 * (0x201088) + 0, 16, .ro, 32768, false⟩
def CLR_P_SUM : Fld := ⟨8 * (0x20108C) + 0, 32, .ro, 0, false⟩
def CLR_P_BUDGET : Fld := ⟨8 * (0x201090) + 0, 32, .ro, 0, false⟩
def CLR_DR_SEL : Fld := ⟨8 * (0x2010A0) + 0, 12, .rw, 0, false⟩
def CLR_DR_GAIN_TARGET : Fld := ⟨8 * (0x2010A4) + 16, 16, .ro, 32768, false⟩
def CLR_DR_GAIN_GAIN : Fld := ⟨8 * (0x2010A4) + 0, 16, .ro, 32768, false⟩
def CLR_FP_SAT : Fld := ⟨8 * (0x201100) + 0, 32, .rc, 0, false⟩
def CLR_AMB_FAULT : Fld := ⟨8 * (0x201104) + 0, 32, .rc, 0, false⟩
def CLR_CAP_DOWN : Fld := ⟨8 * (0x201108) + 0, 32, .rc, 0, false⟩
def CLR_CAP_FLOOR_WF : Fld := ⟨8 * (0x20110C) + 0, 32, .rc, 0, false⟩
def CLR_LOOP_LAG_WF : Fld := ⟨8 * (0x201110) + 0, 32, .rc, 0, false⟩
def CLR_DRIVE_CLIP : Fld := ⟨8 * (0x201114) + 0, 32, .rc, 0, false⟩
def CLR_TAP_CTRL_TF (n : Nat) : Fld := ⟨8 * (0x201800 + 0x40 * n) + 0, 1, (.rws 1), 0, false⟩
def CLR_TAP_GAIN (n : Nat) : Fld := ⟨8 * (0x201804 + 0x40 * n) + 0, 24, (.rws 1), 4625920, false⟩
def CLR_TAP_MTX (n i : Nat) : Fld := ⟨8 * (0x201808 + 0x40 * n + 0x4 * i) + 0, 24, (.rws 1), mtxReset i, false⟩
def CLR_LUT_SEL_AUTOINC : Fld := ⟨8 * (0x202000) + 31, 1, .rw, 0, false⟩
def CLR_LUT_SEL_KIND : Fld := ⟨8 * (0x202000) + 28, 2, .rw, 0, false⟩
def CLR_LUT_SEL_BANK : Fld := ⟨8 * (0x202000) + 24, 1, .rw, 0, false⟩
def CLR_LUT_SEL_INSTANCE : Fld := ⟨8 * (0x202000) + 20, 4, .rw, 0, false⟩
def CLR_LUT_SEL_CHANNEL : Fld := ⟨8 * (0x202000) + 16, 2, .rw, 0, false⟩
def CLR_LUT_SEL_INDEX : Fld := ⟨8 * (0x202000) + 0, 11, .rw, 0, false⟩
def CLR_LUT_DATA_DATA : Fld := ⟨8 * (0x202004) + 0, 32, .rw, 0, false⟩

/-! Block CMP (07_compositor.md, R195 and its tables). -/

def CMP_CANVAS_H16 : Fld := ⟨8 * (0x210000) + 16, 11, .rw, 144, true⟩
def CMP_CANVAS_W16 : Fld := ⟨8 * (0x210000) + 0, 12, .rw, 256, true⟩
def CMP_SPLIT_SPLIT16 : Fld := ⟨8 * (0x210004) + 0, 12, .rw, 128, true⟩
def CMP_CFG_COEF_BANK : Fld := ⟨8 * (0x210008) + 0, 1, (.rws 1), 0, false⟩
def CMP_BG (n : Nat) : Fld := ⟨8 * (0x210010 + 0x4 * n) + 0, 24, (.rws 1), 0, false⟩
def CMP_COEF_SEL_AUTOINC : Fld := ⟨8 * (0x210020) + 31, 1, .rw, 0, false⟩
def CMP_COEF_SEL_BANK : Fld := ⟨8 * (0x210020) + 12, 1, .rw, 0, false⟩
def CMP_COEF_SEL_INDEX : Fld := ⟨8 * (0x210020) + 0, 12, .rw, 0, false⟩
def CMP_COEF_DATA_COEF : Fld := ⟨8 * (0x210024) + 0, 12, .rw, 0, false⟩
def CMP_SIG : Fld := ⟨8 * (0x210030) + 0, 32, .ro, 0, false⟩
def CMP_SIG_WLN_LO : Fld := ⟨8 * (0x210034) + 0, 32, .ro, 0, false⟩
def CMP_SIG_WLN_HI : Fld := ⟨8 * (0x210038) + 0, 16, .ro, 0, false⟩
def CMP_LAYER_STATUS_LOCK_LOST : Fld := ⟨8 * (0x210040) + 16, 16, .ro, 0, false⟩
def CMP_LAYER_STATUS_CFG_ERR : Fld := ⟨8 * (0x210040) + 0, 16, .ro, 0, false⟩
def CMP_BT_UNMAPPED : Fld := ⟨8 * (0x210044) + 0, 32, .rc, 0, false⟩
def CMP_LAYER_CTRL_EN (n : Nat) : Fld := ⟨8 * (0x210400 + 0x80 * n) + 31, 1, (.rws 1), 0, false⟩
def CMP_LAYER_CTRL_PATH (n : Nat) : Fld := ⟨8 * (0x210400 + 0x80 * n) + 30, 1, .ro, 0, false⟩
def CMP_LAYER_CTRL_KIND (n : Nat) : Fld := ⟨8 * (0x210400 + 0x80 * n) + 24, 2, (.rws 1), 0, false⟩
def CMP_LAYER_CTRL_SOURCE (n : Nat) : Fld := ⟨8 * (0x210400 + 0x80 * n) + 16, 5, (.rws 1), 0, false⟩
def CMP_LAYER_CTRL_FREEZE (n : Nat) : Fld := ⟨8 * (0x210400 + 0x80 * n) + 15, 1, (.rws 1), 0, false⟩
def CMP_LAYER_CTRL_HSET (n : Nat) : Fld := ⟨8 * (0x210400 + 0x80 * n) + 3, 3, (.rws 1), 0, false⟩
def CMP_LAYER_CTRL_VSET (n : Nat) : Fld := ⟨8 * (0x210400 + 0x80 * n) + 0, 3, (.rws 1), 0, false⟩
def CMP_LAYER_OPA_OPA (n : Nat) : Fld := ⟨8 * (0x210404 + 0x80 * n) + 0, 16, (.rws 1), 32768, false⟩
def CMP_LAYER_SRC_XY_SRC_X (n : Nat) : Fld := ⟨8 * (0x210408 + 0x80 * n) + 16, 16, (.rws 1), 0, false⟩
def CMP_LAYER_SRC_XY_SRC_Y (n : Nat) : Fld := ⟨8 * (0x210408 + 0x80 * n) + 0, 16, (.rws 1), 0, false⟩
def CMP_LAYER_SRC_WH_SRC_W (n : Nat) : Fld := ⟨8 * (0x21040C + 0x80 * n) + 16, 16, (.rws 1), 0, false⟩
def CMP_LAYER_SRC_WH_SRC_H (n : Nat) : Fld := ⟨8 * (0x21040C + 0x80 * n) + 0, 16, (.rws 1), 0, false⟩
def CMP_LAYER_DST_XY_DST_X (n : Nat) : Fld := ⟨8 * (0x210410 + 0x80 * n) + 16, 16, (.rws 1), 0, false⟩
def CMP_LAYER_DST_XY_DST_Y (n : Nat) : Fld := ⟨8 * (0x210410 + 0x80 * n) + 0, 16, (.rws 1), 0, false⟩
def CMP_LAYER_DST_WH_DST_W (n : Nat) : Fld := ⟨8 * (0x210414 + 0x80 * n) + 16, 16, (.rws 1), 0, false⟩
def CMP_LAYER_DST_WH_DST_H (n : Nat) : Fld := ⟨8 * (0x210414 + 0x80 * n) + 0, 16, (.rws 1), 0, false⟩
def CMP_LAYER_LOCK_RDIR (n : Nat) : Fld := ⟨8 * (0x210418 + 0x80 * n) + 31, 1, (.rws 1), 0, false⟩
def CMP_LAYER_LOCK_RATIO (n : Nat) : Fld := ⟨8 * (0x210418 + 0x80 * n) + 28, 3, (.rws 1), 0, false⟩
def CMP_LAYER_LOCK_LINE (n : Nat) : Fld := ⟨8 * (0x210418 + 0x80 * n) + 0, 19, (.rws 1), 0, false⟩
def CMP_LAYER_LOCK_TOL (n : Nat) : Fld := ⟨8 * (0x21041C + 0x80 * n) + 0, 16, (.rws 1), 500, false⟩
def CMP_LAYER_IN_GAIN (n : Nat) : Fld := ⟨8 * (0x210420 + 0x80 * n) + 0, 24, (.rws 1), 4625920, false⟩
def CMP_LAYER_IN_MTX (n i : Nat) : Fld := ⟨8 * (0x210424 + 0x80 * n + 0x4 * i) + 0, 24, (.rws 1), mtxReset i, false⟩
def CMP_LAYER_STATUS_I_LATCH_SEQ (n : Nat) : Fld := ⟨8 * (0x210448 + 0x80 * n) + 16, 16, .ro, 0, false⟩
def CMP_LAYER_STATUS_I_CFG_ERR (n : Nat) : Fld := ⟨8 * (0x210448 + 0x80 * n) + 3, 1, .ro, 0, false⟩
def CMP_LAYER_STATUS_I_LOCK_LOST (n : Nat) : Fld := ⟨8 * (0x210448 + 0x80 * n) + 2, 1, .ro, 0, false⟩
def CMP_LAYER_STATUS_I_LATCH_BUF (n : Nat) : Fld := ⟨8 * (0x210448 + 0x80 * n) + 0, 2, .ro, 0, false⟩
def CMP_LAYER_MIN_SLACK (n : Nat) : Fld := ⟨8 * (0x21044C + 0x80 * n) + 0, 32, .ro, 0, false⟩
def CMP_LAYER_MAX_SLACK (n : Nat) : Fld := ⟨8 * (0x210450 + 0x80 * n) + 0, 32, .ro, 0, false⟩
def CMP_LAYER_GANG_OVL (n : Nat) : Fld := ⟨8 * (0x210454 + 0x80 * n) + 0, 9, (.rws 1), 0, false⟩
def CMP_LAYER_LATE_ROWS (n : Nat) : Fld := ⟨8 * (0x210460 + 0x80 * n) + 0, 32, .rc, 0, false⟩
def CMP_LAYER_DROP_ROWS (n : Nat) : Fld := ⟨8 * (0x210464 + 0x80 * n) + 0, 32, .rc, 0, false⟩
def CMP_LAYER_REPEAT (n : Nat) : Fld := ⟨8 * (0x210468 + 0x80 * n) + 0, 32, .rc, 0, false⟩
def CMP_LAYER_SKIP (n : Nat) : Fld := ⟨8 * (0x21046C + 0x80 * n) + 0, 32, .rc, 0, false⟩
def CMP_LAYER_LATE_BLOCKS (n : Nat) : Fld := ⟨8 * (0x210470 + 0x80 * n) + 0, 32, .rc, 0, false⟩
def CMP_LAYER_POISON (n : Nat) : Fld := ⟨8 * (0x210474 + 0x80 * n) + 0, 32, .rc, 0, false⟩
def CMP_LAYER_POISON_BLACK (n : Nat) : Fld := ⟨8 * (0x210478 + 0x80 * n) + 0, 32, .rc, 0, false⟩
def CMP_LAYER_LOCK_ERR (n : Nat) : Fld := ⟨8 * (0x21047C + 0x80 * n) + 0, 32, .rc, 0, false⟩
def CMP_FS_BASE_LO (n : Nat) : Fld := ⟨8 * (0x211000 + 0x20 * n) + 0, 32, (.rws 1), 0, false⟩
def CMP_FS_BASE_HI (n : Nat) : Fld := ⟨8 * (0x211004 + 0x20 * n) + 0, 8, (.rws 1), 0, false⟩
def CMP_FS_CTRL_FMT (n : Nat) : Fld := ⟨8 * (0x211008 + 0x20 * n) + 16, 2, (.rws 1), 0, false⟩
def CMP_FS_CTRL_WRITER (n : Nat) : Fld := ⟨8 * (0x211008 + 0x20 * n) + 8, 3, (.rws 1), 0, false⟩
def CMP_FS_CTRL_WIDX (n : Nat) : Fld := ⟨8 * (0x211008 + 0x20 * n) + 0, 5, (.rws 1), 0, false⟩
def CMP_FS_WH_W (n : Nat) : Fld := ⟨8 * (0x21100C + 0x20 * n) + 16, 16, (.rws 1), 0, false⟩
def CMP_FS_WH_H (n : Nat) : Fld := ⟨8 * (0x21100C + 0x20 * n) + 0, 16, (.rws 1), 0, false⟩
def CMP_FS_BUF_BYTES (n : Nat) : Fld := ⟨8 * (0x211010 + 0x20 * n) + 0, 20, (.rws 1), 0, false⟩
def CMP_FS_NEWEST_NEWEST_SEQ (n : Nat) : Fld := ⟨8 * (0x211014 + 0x20 * n) + 16, 16, .ro, 0, false⟩
def CMP_FS_NEWEST_NEWEST (n : Nat) : Fld := ⟨8 * (0x211014 + 0x20 * n) + 0, 2, .ro, 0, false⟩
def CMP_FS_WDROP (n : Nat) : Fld := ⟨8 * (0x211018 + 0x20 * n) + 0, 32, .rc, 0, false⟩
def CMP_TAP_CTRL_EN (n : Nat) : Fld := ⟨8 * (0x211800 + 0x40 * n) + 31, 1, (.rws 1), 0, false⟩
def CMP_TAP_CTRL_SRC (n : Nat) : Fld := ⟨8 * (0x211800 + 0x40 * n) + 24, 1, (.rws 1), 0, false⟩
def CMP_TAP_CTRL_CAM (n : Nat) : Fld := ⟨8 * (0x211800 + 0x40 * n) + 16, 3, (.rws 1), 0, false⟩
def CMP_TAP_CTRL_FS (n : Nat) : Fld := ⟨8 * (0x211800 + 0x40 * n) + 8, 5, (.rws 1), 0, false⟩
def CMP_TAP_CTRL_DIV (n : Nat) : Fld := ⟨8 * (0x211800 + 0x40 * n) + 0, 4, (.rws 1), 1, false⟩
def CMP_TAP_SRC_XY_SRC_X (n : Nat) : Fld := ⟨8 * (0x211804 + 0x40 * n) + 16, 16, (.rws 1), 0, false⟩
def CMP_TAP_SRC_XY_SRC_Y (n : Nat) : Fld := ⟨8 * (0x211804 + 0x40 * n) + 0, 16, (.rws 1), 0, false⟩
def CMP_TAP_SRC_WH_SRC_W (n : Nat) : Fld := ⟨8 * (0x211808 + 0x40 * n) + 16, 16, (.rws 1), 0, false⟩
def CMP_TAP_SRC_WH_SRC_H (n : Nat) : Fld := ⟨8 * (0x211808 + 0x40 * n) + 0, 16, (.rws 1), 0, false⟩
def CMP_TAP_OUT_WH_OUT_W (n : Nat) : Fld := ⟨8 * (0x21180C + 0x40 * n) + 16, 16, (.rws 1), 0, false⟩
def CMP_TAP_OUT_WH_OUT_H (n : Nat) : Fld := ⟨8 * (0x21180C + 0x40 * n) + 0, 16, (.rws 1), 0, false⟩
def CMP_TAP_SETS_HSET (n : Nat) : Fld := ⟨8 * (0x211810 + 0x40 * n) + 3, 3, (.rws 1), 0, false⟩
def CMP_TAP_SETS_VSET (n : Nat) : Fld := ⟨8 * (0x211810 + 0x40 * n) + 0, 3, (.rws 1), 0, false⟩
def CMP_TAP_OVERRUN (n : Nat) : Fld := ⟨8 * (0x211814 + 0x40 * n) + 0, 32, .rc, 0, false⟩

/-! Block SCN (08_scan_out.md, R229 and its tables). -/

def SCN_LGEN_LT : Fld := ⟨8 * (0x220000) + 0, 16, .rw, 2400, true⟩
def SCN_LGEN_STATUS_RUN : Fld := ⟨8 * (0x220004) + 31, 1, .ro, 0, false⟩
def SCN_LGEN_STATUS_LINE : Fld := ⟨8 * (0x220004) + 0, 16, .ro, 0, false⟩
def SCN_CTRL_BLACK (n : Nat) : Fld := ⟨8 * (0x220100 + 0x8000 * n) + 0, 1, (.rws 0), 0, false⟩
def SCN_TP_CTRL_RAW (n : Nat) : Fld := ⟨8 * (0x220104 + 0x8000 * n) + 4, 1, (.rws 0), 0, false⟩
def SCN_TP_CTRL_MODE (n : Nat) : Fld := ⟨8 * (0x220104 + 0x8000 * n) + 0, 3, (.rws 0), 0, false⟩
def SCN_TP (n i : Nat) : Fld := ⟨8 * (0x220108 + 0x8000 * n + 0x4 * i) + 0, 16, (.rws 0), 0, false⟩
def SCN_STATUS_UNDER_EP (n : Nat) : Fld := ⟨8 * (0x220120 + 0x8000 * n) + 1, 1, .ro, 0, false⟩
def SCN_STATUS_RUN (n : Nat) : Fld := ⟨8 * (0x220120 + 0x8000 * n) + 0, 1, .ro, 0, false⟩
def SCN_LAST_UNDER_WLN_LO (n : Nat) : Fld := ⟨8 * (0x220128 + 0x8000 * n) + 0, 32, .ro, 0, false⟩
def SCN_LAST_UNDER_WLN_HI (n : Nat) : Fld := ⟨8 * (0x22012C + 0x8000 * n) + 0, 16, .ro, 0, false⟩
def SCN_UNDERRUN_PX (n : Nat) : Fld := ⟨8 * (0x220180 + 0x8000 * n) + 0, 32, .rc, 0, false⟩
def SCN_LATE_PX (n : Nat) : Fld := ⟨8 * (0x220184 + 0x8000 * n) + 0, 32, .rc, 0, false⟩
def SCN_LANE_SKIP (n : Nat) : Fld := ⟨8 * (0x220188 + 0x8000 * n) + 0, 32, .rc, 0, false⟩
def SCN_BAND_OVER (n : Nat) : Fld := ⟨8 * (0x22018C + 0x8000 * n) + 0, 32, .rc, 0, false⟩
def SCN_UNDER_EPISODES (n : Nat) : Fld := ⟨8 * (0x220190 + 0x8000 * n) + 0, 32, .rc, 0, false⟩

/-! Block FLT (09_felt_codec.md, R264 and its tables). -/

def FLT_CTRL_RATIO : Fld := ⟨8 * (0x230000) + 8, 2, (.rws 2), 1, false⟩
def FLT_CTRL_PAL2_EN : Fld := ⟨8 * (0x230000) + 6, 1, (.rws 2), 1, false⟩
def FLT_CTRL_PRED_EN : Fld := ⟨8 * (0x230000) + 5, 1, (.rws 2), 1, false⟩
def FLT_CTRL_FLAT_EN : Fld := ⟨8 * (0x230000) + 4, 1, (.rws 2), 1, false⟩
def FLT_CTRL_FORCE : Fld := ⟨8 * (0x230000) + 0, 3, (.rws 2), 0, false⟩
def FLT_CFG_DEPTH : Fld := ⟨8 * (0x230004) + 8, 1, .ro, 0, false⟩
def FLT_CFG_ALLOW_4 : Fld := ⟨8 * (0x230004) + 3, 1, .ro, 0, false⟩
def FLT_CFG_ALLOW_3 : Fld := ⟨8 * (0x230004) + 2, 1, .ro, 0, false⟩
def FLT_CFG_ALLOW_2 : Fld := ⟨8 * (0x230004) + 1, 1, .ro, 0, false⟩
def FLT_STATUS_FMT : Fld := ⟨8 * (0x230008) + 8, 3, .ro, 1, false⟩
def FLT_STATUS_RATIO_REFUSED : Fld := ⟨8 * (0x230008) + 0, 1, .ro, 0, false⟩
def FLT_ERR_MAX_WEST : Fld := ⟨8 * (0x230010) + 16, 16, .ro, 0, false⟩
def FLT_ERR_MAX_EAST : Fld := ⟨8 * (0x230010) + 0, 16, .ro, 0, false⟩
def FLT_FRM_FLAT : Fld := ⟨8 * (0x230080) + 0, 32, .ro, 0, false⟩
def FLT_FRM_PRED : Fld := ⟨8 * (0x230084) + 0, 32, .ro, 0, false⟩
def FLT_FRM_PAL2 : Fld := ⟨8 * (0x230088) + 0, 32, .ro, 0, false⟩
def FLT_FRM_TRUNC : Fld := ⟨8 * (0x23008C) + 0, 32, .ro, 0, false⟩
def FLT_RATIO_REF : Fld := ⟨8 * (0x230090) + 0, 32, .rc, 0, false⟩

/-! Block MVL (10_mirverov_link.md, R281 and its tables). -/

def MVL_DISP_MARGIN : Fld := ⟨8 * (0x240000) + 16, 12, (.rws 5), 16, false⟩
def MVL_DISP_OFS : Fld := ⟨8 * (0x240000) + 0, 12, (.rws 5), 128, false⟩
def MVL_ACK_TO : Fld := ⟨8 * (0x240004) + 0, 16, (.rws 5), 200, false⟩
def MVL_STALE_WF : Fld := ⟨8 * (0x240008) + 0, 8, (.rws 5), 4, false⟩
def MVL_SEG (n : Nat) : Fld := ⟨8 * (0x240010 + 0x4 * n) + 0, 32, .ro, 0, false⟩
def MVL_BREAK (n : Nat) : Fld := ⟨8 * (0x240018 + 0x4 * n) + 0, 32, .ro, 0, false⟩
def MVL_CT_CMD_GO : Fld := ⟨8 * (0x240040) + 31, 1, .wo, 0, false⟩
def MVL_CT_CMD_OP : Fld := ⟨8 * (0x240040) + 24, 2, .rw, 0, false⟩
def MVL_CT_CMD_TILE : Fld := ⟨8 * (0x240040) + 0, 12, .rw, 0, false⟩
def MVL_CT_ADDR_ADDR : Fld := ⟨8 * (0x240044) + 0, 16, .rw, 0, false⟩
def MVL_CT_DATA_DATA : Fld := ⟨8 * (0x240048) + 0, 32, .rw, 0, false⟩
def MVL_CT_STATUS_ERROR : Fld := ⟨8 * (0x24004C) + 24, 8, .ro, 0, false⟩
def MVL_CT_STATUS_DONE : Fld := ⟨8 * (0x24004C) + 1, 1, .ro, 0, false⟩
def MVL_CT_STATUS_BUSY : Fld := ⟨8 * (0x24004C) + 0, 1, .ro, 0, false⟩
def MVL_CT_RDATA : Fld := ⟨8 * (0x240050) + 0, 32, .ro, 0, false⟩
def MVL_LSTAT_BREAK_POS (n : Nat) : Fld := ⟨8 * (0x241000 + 0x40 * n) + 26, 6, .ro, 0, false⟩
def MVL_LSTAT_BREAK_VALID (n : Nat) : Fld := ⟨8 * (0x241000 + 0x40 * n) + 25, 1, .ro, 0, false⟩
def MVL_LSTAT_SCATTER (n : Nat) : Fld := ⟨8 * (0x241000 + 0x40 * n) + 24, 1, .ro, 0, false⟩
def MVL_LSTAT_FOUND (n : Nat) : Fld := ⟨8 * (0x241000 + 0x40 * n) + 16, 7, .ro, 0, false⟩
def MVL_LSTAT_MISWIRED (n : Nat) : Fld := ⟨8 * (0x241000 + 0x40 * n) + 3, 1, .ro, 0, false⟩
def MVL_LSTAT_SEG_LOSS (n : Nat) : Fld := ⟨8 * (0x241000 + 0x40 * n) + 2, 1, .ro, 0, false⟩
def MVL_LSTAT_BACKPRESSURE (n : Nat) : Fld := ⟨8 * (0x241000 + 0x40 * n) + 1, 1, .ro, 0, false⟩
def MVL_LSTAT_UP (n : Nat) : Fld := ⟨8 * (0x241000 + 0x40 * n) + 0, 1, .ro, 0, false⟩
def MVL_FIFO_PEAK (n : Nat) : Fld := ⟨8 * (0x241004 + 0x40 * n) + 16, 15, .rc, 0, false⟩
def MVL_FIFO_USED (n : Nat) : Fld := ⟨8 * (0x241004 + 0x40 * n) + 0, 15, .ro, 0, false⟩
def MVL_STALE_TILES (n : Nat) : Fld := ⟨8 * (0x241008 + 0x40 * n) + 0, 7, .ro, 0, false⟩
def MVL_TX_PKT (n : Nat) : Fld := ⟨8 * (0x241010 + 0x40 * n) + 0, 32, .rc, 0, false⟩
def MVL_RESENT (n : Nat) : Fld := ⟨8 * (0x241014 + 0x40 * n) + 0, 32, .rc, 0, false⟩
def MVL_NK_RX (n : Nat) : Fld := ⟨8 * (0x241018 + 0x40 * n) + 0, 32, .rc, 0, false⟩
def MVL_NK_IGNORED (n : Nat) : Fld := ⟨8 * (0x24101C + 0x40 * n) + 0, 32, .rc, 0, false⟩
def MVL_ACK_TIMEOUT (n : Nat) : Fld := ⟨8 * (0x241020 + 0x40 * n) + 0, 32, .rc, 0, false⟩
def MVL_EXHAUSTED (n : Nat) : Fld := ⟨8 * (0x241024 + 0x40 * n) + 0, 32, .rc, 0, false⟩
def MVL_CANCELLED (n : Nat) : Fld := ⟨8 * (0x241028 + 0x40 * n) + 0, 32, .rc, 0, false⟩
def MVL_SEG_EPISODES (n : Nat) : Fld := ⟨8 * (0x24102C + 0x40 * n) + 0, 32, .rc, 0, false⟩
def MVL_ECC_CORR (n : Nat) : Fld := ⟨8 * (0x241030 + 0x40 * n) + 0, 32, .rc, 0, false⟩
def MVL_RX_BAD (n : Nat) : Fld := ⟨8 * (0x241034 + 0x40 * n) + 0, 32, .rc, 0, false⟩
def MVL_BLOCK_ERR (n : Nat) : Fld := ⟨8 * (0x241038 + 0x40 * n) + 0, 32, .rc, 0, false⟩
def MVL_VR_REFUSED (n : Nat) : Fld := ⟨8 * (0x24103C + 0x40 * n) + 0, 32, .rc, 0, false⟩

/-! Block LNE (11_lanes_calibration.md, R307 and its tables). -/

def LNE_OCT_CTRL_AUTO_REC (n : Nat) : Fld := ⟨8 * (0x300000 + 0x10000 * n) + 16, 1, .rw, 1, false⟩
def LNE_OCT_CTRL_SSC_EN (n : Nat) : Fld := ⟨8 * (0x300000 + 0x10000 * n) + 8, 1, .rw, 0, false⟩
def LNE_OCT_CTRL_MODE_REQ (n : Nat) : Fld := ⟨8 * (0x300000 + 0x10000 * n) + 0, 2, .rw, 0, false⟩
def LNE_OCT_STATUS_BAND (n : Nat) : Fld := ⟨8 * (0x300004 + 0x10000 * n) + 8, 3, .ro, 1, false⟩
def LNE_OCT_STATUS_EASING (n : Nat) : Fld := ⟨8 * (0x300004 + 0x10000 * n) + 5, 1, .ro, 0, false⟩
def LNE_OCT_STATUS_CHANGING (n : Nat) : Fld := ⟨8 * (0x300004 + 0x10000 * n) + 4, 1, .ro, 0, false⟩
def LNE_OCT_STATUS_MODE (n : Nat) : Fld := ⟨8 * (0x300004 + 0x10000 * n) + 0, 2, .ro, 0, false⟩
def LNE_TRAIN_TRAIN_REF (n : Nat) : Fld := ⟨8 * (0x300008 + 0x10000 * n) + 16, 16, .rw, 1000, false⟩
def LNE_TRAIN_TRAIN_FWD (n : Nat) : Fld := ⟨8 * (0x300008 + 0x10000 * n) + 0, 16, .rw, 400, false⟩
def LNE_PRESET_RX_CTLE (n i : Nat) : Fld := ⟨8 * (0x300010 + 0x10000 * n + 0x4 * i) + 24, 4, .rw, 8, false⟩
def LNE_PRESET_TX_SWING (n i : Nat) : Fld := ⟨8 * (0x300010 + 0x10000 * n + 0x4 * i) + 16, 4, .rw, 10, false⟩
def LNE_PRESET_TX_POST (n i : Nat) : Fld := ⟨8 * (0x300010 + 0x10000 * n + 0x4 * i) + 8, 4, .rw, 4, false⟩
def LNE_PRESET_TX_PRE (n i : Nat) : Fld := ⟨8 * (0x300010 + 0x10000 * n + 0x4 * i) + 0, 3, .rw, 1, false⟩
def LNE_MODE_CHANGES (n : Nat) : Fld := ⟨8 * (0x300080 + 0x10000 * n) + 0, 32, .rc, 0, false⟩
def LNE_AUTO_RECOVERIES (n : Nat) : Fld := ⟨8 * (0x300084 + 0x10000 * n) + 0, 32, .rc, 0, false⟩
def LNE_LCTRL_TEST (n i : Nat) : Fld := ⟨8 * (0x300100 + 0x10000 * n + 0x40 * i) + 8, 3, .rw, 0, false⟩
def LNE_LCTRL_PRBS (n i : Nat) : Fld := ⟨8 * (0x300100 + 0x10000 * n + 0x40 * i) + 4, 2, .rw, 0, false⟩
def LNE_LCTRL_GO (n i : Nat) : Fld := ⟨8 * (0x300100 + 0x10000 * n + 0x40 * i) + 0, 1, .wo, 0, false⟩
def LNE_RX_TAPS_PHASE (n i : Nat) : Fld := ⟨8 * (0x300104 + 0x10000 * n + 0x40 * i) + 24, 6, .ro, 32, false⟩
def LNE_RX_TAPS_THR (n i : Nat) : Fld := ⟨8 * (0x300104 + 0x10000 * n + 0x40 * i) + 16, 6, .ro, 32, false⟩
def LNE_RX_TAPS_PHASE_TGT (n i : Nat) : Fld := ⟨8 * (0x300104 + 0x10000 * n + 0x40 * i) + 8, 6, .ro, 32, false⟩
def LNE_RX_TAPS_THR_TGT (n i : Nat) : Fld := ⟨8 * (0x300104 + 0x10000 * n + 0x40 * i) + 0, 6, .ro, 32, false⟩
def LNE_CAL_STATUS_RUNS (n i : Nat) : Fld := ⟨8 * (0x300108 + 0x10000 * n + 0x40 * i) + 24, 8, .ro, 0, false⟩
def LNE_CAL_STATUS_EYE_W (n i : Nat) : Fld := ⟨8 * (0x300108 + 0x10000 * n + 0x40 * i) + 16, 6, .ro, 0, false⟩
def LNE_CAL_STATUS_EYE_H (n i : Nat) : Fld := ⟨8 * (0x300108 + 0x10000 * n + 0x40 * i) + 8, 6, .ro, 0, false⟩
def LNE_CAL_STATUS_EASING (n i : Nat) : Fld := ⟨8 * (0x300108 + 0x10000 * n + 0x40 * i) + 3, 1, .ro, 0, false⟩
def LNE_CAL_STATUS_RESULT (n i : Nat) : Fld := ⟨8 * (0x300108 + 0x10000 * n + 0x40 * i) + 0, 3, .ro, 0, false⟩
def LNE_RESIDUAL (n i : Nat) : Fld := ⟨8 * (0x30010C + 0x10000 * n + 0x40 * i) + 0, 32, .ro, 0, false⟩
def LNE_RX_OVR_OVR_EN (n i : Nat) : Fld := ⟨8 * (0x300110 + 0x10000 * n + 0x40 * i) + 15, 1, .rw, 0, false⟩
def LNE_RX_OVR_OVR_PHASE (n i : Nat) : Fld := ⟨8 * (0x300110 + 0x10000 * n + 0x40 * i) + 8, 6, .rw, 32, false⟩
def LNE_RX_OVR_OVR_THR (n i : Nat) : Fld := ⟨8 * (0x300110 + 0x10000 * n + 0x40 * i) + 0, 6, .rw, 32, false⟩
def LNE_PAT_ERR (n i : Nat) : Fld := ⟨8 * (0x300120 + 0x10000 * n + 0x40 * i) + 0, 32, .rc, 0, false⟩
def LNE_PAT_MBITS (n i : Nat) : Fld := ⟨8 * (0x300124 + 0x10000 * n + 0x40 * i) + 0, 32, .rc, 0, false⟩
def LNE_MODE_DROP (n i : Nat) : Fld := ⟨8 * (0x300128 + 0x10000 * n + 0x40 * i) + 0, 32, .rc, 0, false⟩
def LNE_CAL_BAD (n i : Nat) : Fld := ⟨8 * (0x30012C + 0x10000 * n + 0x40 * i) + 0, 32, .rc, 0, false⟩

/-! Block PAIR (11_lanes_calibration.md, R320 and its tables). -/

def PAIR_CTRL_TEST : Fld := ⟨8 * (0x380000) + 8, 3, .rw, 0, false⟩
def PAIR_CTRL_PRBS : Fld := ⟨8 * (0x380000) + 4, 2, .rw, 0, false⟩
def PAIR_STATUS_MAP : Fld := ⟨8 * (0x380004) + 8, 8, .ro, 0, false⟩
def PAIR_STATUS_ALIGNED : Fld := ⟨8 * (0x380004) + 4, 4, .ro, 0, false⟩
def PAIR_STATUS_UP : Fld := ⟨8 * (0x380004) + 0, 1, .ro, 0, false⟩
def PAIR_SKEW : Fld := ⟨8 * (0x380008) + 0, 5, .rc, 0, false⟩
def PAIR_CODE_ERR : Fld := ⟨8 * (0x380080) + 0, 32, .rc, 0, false⟩
def PAIR_DISP_ERR : Fld := ⟨8 * (0x380084) + 0, 32, .rc, 0, false⟩
def PAIR_REALIGN : Fld := ⟨8 * (0x380088) + 0, 32, .rc, 0, false⟩
def PAIR_COMP_ADD : Fld := ⟨8 * (0x38008C) + 0, 32, .rc, 0, false⟩
def PAIR_COMP_DROP : Fld := ⟨8 * (0x380090) + 0, 32, .rc, 0, false⟩
def PAIR_LINK_DOWN : Fld := ⟨8 * (0x380094) + 0, 32, .rc, 0, false⟩
def PAIR_PAT_ERR : Fld := ⟨8 * (0x380098) + 0, 32, .rc, 0, false⟩

/-! Block HBX (13_hatbox.md, R369 and its tables). -/

def HBX_CTRL_EN : Fld := ⟨8 * (0x400000) + 0, 1, (.rws 7), 0, false⟩
def HBX_CFG_BIFURC : Fld := ⟨8 * (0x400004) + 8, 2, .ro, 0, false⟩
def HBX_CFG_DRIVES : Fld := ⟨8 * (0x400004) + 0, 4, .ro, 0, false⟩
def HBX_CMD_TO : Fld := ⟨8 * (0x400008) + 0, 17, (.rws 7), 2000, false⟩
def HBX_COMMIT_US : Fld := ⟨8 * (0x40000C) + 0, 14, (.rws 7), 1000, false⟩
def HBX_STG_BASE_LO : Fld := ⟨8 * (0x400010) + 0, 32, .rw, 0, true⟩
def HBX_STG_BASE_HI : Fld := ⟨8 * (0x400014) + 0, 8, .rw, 0, true⟩
def HBX_STG_MIB : Fld := ⟨8 * (0x400018) + 0, 14, .rw, 0, true⟩
def HBX_STATUS_FAULT_STREAMS : Fld := ⟨8 * (0x400020) + 24, 8, .ro, 0, false⟩
def HBX_STATUS_TAGS_USED : Fld := ⟨8 * (0x400020) + 10, 11, .ro, 0, false⟩
def HBX_STATUS_FW_ACT : Fld := ⟨8 * (0x400020) + 2, 1, .ro, 0, false⟩
def HBX_STATUS_PFAIL : Fld := ⟨8 * (0x400020) + 1, 1, .ro, 0, false⟩
def HBX_STATUS_MOUNTED : Fld := ⟨8 * (0x400020) + 0, 1, .ro, 0, false⟩
def HBX_STG_USED : Fld := ⟨8 * (0x400024) + 0, 32, .ro, 0, false⟩
def HBX_DRIVE_WIDTH (n : Nat) : Fld := ⟨8 * (0x400040 + 0x4 * n) + 16, 3, .ro, 0, false⟩
def HBX_DRIVE_STATE (n : Nat) : Fld := ⟨8 * (0x400040 + 0x4 * n) + 0, 2, .ro, 0, false⟩
def HBX_CL_SQ_BASE_LO (n : Nat) : Fld := ⟨8 * (0x400100 + 0x40 * n) + 0, 32, .rw, 0, false⟩
def HBX_CL_SQ_BASE_HI (n : Nat) : Fld := ⟨8 * (0x400104 + 0x40 * n) + 0, 8, .rw, 0, false⟩
def HBX_CL_SQ_SIZE (n : Nat) : Fld := ⟨8 * (0x400108 + 0x40 * n) + 16, 16, .rw, 0, false⟩
def HBX_CL_SQ_TAIL (n : Nat) : Fld := ⟨8 * (0x400108 + 0x40 * n) + 0, 16, .rw, 0, false⟩
def HBX_CL_SQ_HEAD (n : Nat) : Fld := ⟨8 * (0x40010C + 0x40 * n) + 0, 16, .ro, 0, false⟩
def HBX_CL_CQ_BASE_LO (n : Nat) : Fld := ⟨8 * (0x400110 + 0x40 * n) + 0, 32, .rw, 0, false⟩
def HBX_CL_CQ_BASE_HI (n : Nat) : Fld := ⟨8 * (0x400114 + 0x40 * n) + 0, 8, .rw, 0, false⟩
def HBX_CL_CQ_SIZE (n : Nat) : Fld := ⟨8 * (0x400118 + 0x40 * n) + 16, 16, .rw, 0, false⟩
def HBX_CL_CQ_HEAD (n : Nat) : Fld := ⟨8 * (0x400118 + 0x40 * n) + 0, 16, .rw, 0, false⟩
def HBX_CL_ABORT_CID (n : Nat) : Fld := ⟨8 * (0x40011C + 0x40 * n) + 0, 16, .wo, 0, false⟩
def HBX_CL_ABORT_STATUS (n : Nat) : Fld := ⟨8 * (0x400120 + 0x40 * n) + 0, 2, .ro, 0, false⟩
def HBX_CL_RESET_RESET (n : Nat) : Fld := ⟨8 * (0x400124 + 0x40 * n) + 0, 1, .wo, 0, false⟩
def HBX_STG_FULL : Fld := ⟨8 * (0x400800) + 0, 32, .rc, 0, false⟩
def HBX_CQ_FULL : Fld := ⟨8 * (0x400804) + 0, 32, .rc, 0, false⟩
def HBX_BATCHES : Fld := ⟨8 * (0x400808) + 0, 32, .rc, 0, false⟩
def HBX_REWRITES : Fld := ⟨8 * (0x40080C) + 0, 32, .rc, 0, false⟩
def HBX_TIMEOUTS : Fld := ⟨8 * (0x400810) + 0, 32, .rc, 0, false⟩
def HBX_ABORTS : Fld := ⟨8 * (0x400814) + 0, 32, .rc, 0, false⟩
def HBX_TOO_LATE : Fld := ⟨8 * (0x400818) + 0, 32, .rc, 0, false⟩
def HBX_MEDIA_ERR : Fld := ⟨8 * (0x40081C) + 0, 32, .rc, 0, false⟩
def HBX_CTRL_RESETS : Fld := ⟨8 * (0x400820) + 0, 32, .rc, 0, false⟩
def HBX_POWER_FAILS : Fld := ⟨8 * (0x400824) + 0, 32, .rc, 0, false⟩

/-! Block FUL (14_fuller.md, R405 and its tables). -/

def FUL_CTRL_EN : Fld := ⟨8 * (0x410000) + 0, 1, (.rws 7), 0, false⟩
def FUL_STATUS_LULLING : Fld := ⟨8 * (0x410004) + 12, 4, .ro, 0, false⟩
def FUL_STATUS_BUSY : Fld := ⟨8 * (0x410004) + 0, 4, .ro, 0, false⟩
def FUL_RING_SQ_BASE_LO (n : Nat) : Fld := ⟨8 * (0x410100 + 0x40 * n) + 0, 32, .rw, 0, false⟩
def FUL_RING_SQ_BASE_HI (n : Nat) : Fld := ⟨8 * (0x410104 + 0x40 * n) + 0, 8, .rw, 0, false⟩
def FUL_RING_SQ_SIZE (n : Nat) : Fld := ⟨8 * (0x410108 + 0x40 * n) + 16, 16, .rw, 0, false⟩
def FUL_RING_SQ_TAIL (n : Nat) : Fld := ⟨8 * (0x410108 + 0x40 * n) + 0, 16, .rw, 0, false⟩
def FUL_RING_SQ_HEAD (n : Nat) : Fld := ⟨8 * (0x41010C + 0x40 * n) + 0, 16, .ro, 0, false⟩
def FUL_RING_CQ_BASE_LO (n : Nat) : Fld := ⟨8 * (0x410110 + 0x40 * n) + 0, 32, .rw, 0, false⟩
def FUL_RING_CQ_BASE_HI (n : Nat) : Fld := ⟨8 * (0x410114 + 0x40 * n) + 0, 8, .rw, 0, false⟩
def FUL_RING_CQ_SIZE (n : Nat) : Fld := ⟨8 * (0x410118 + 0x40 * n) + 16, 16, .rw, 0, false⟩
def FUL_RING_CQ_HEAD (n : Nat) : Fld := ⟨8 * (0x410118 + 0x40 * n) + 0, 16, .rw, 0, false⟩
def FUL_RING_RESET_RESET (n : Nat) : Fld := ⟨8 * (0x41011C + 0x40 * n) + 0, 1, .wo, 0, false⟩
def FUL_RING_STATE_ENGINE (n : Nat) : Fld := ⟨8 * (0x410120 + 0x40 * n) + 4, 2, .ro, 0, false⟩
def FUL_RING_STATE_PARKED (n : Nat) : Fld := ⟨8 * (0x410120 + 0x40 * n) + 2, 1, .ro, 0, false⟩
def FUL_RING_STATE_OPEN (n : Nat) : Fld := ⟨8 * (0x410120 + 0x40 * n) + 1, 1, .ro, 0, false⟩
def FUL_RING_STATE_BUSY (n : Nat) : Fld := ⟨8 * (0x410120 + 0x40 * n) + 0, 1, .ro, 0, false⟩
def FUL_BLK_COMP : Fld := ⟨8 * (0x410800) + 0, 32, .rc, 0, false⟩
def FUL_BLK_STORED : Fld := ⟨8 * (0x410804) + 0, 32, .rc, 0, false⟩
def FUL_BLK_DECOMP : Fld := ⟨8 * (0x410808) + 0, 32, .rc, 0, false⟩
def FUL_BLK_BAD : Fld := ⟨8 * (0x41080C) + 0, 32, .rc, 0, false⟩
def FUL_OUT_OF_SPACE : Fld := ⟨8 * (0x410810) + 0, 32, .rc, 0, false⟩
def FUL_DRAM_ERR : Fld := ⟨8 * (0x410814) + 0, 32, .rc, 0, false⟩
def FUL_LULLS : Fld := ⟨8 * (0x410818) + 0, 32, .rc, 0, false⟩

/-! Block HVC (15_hevc.md, R419 and its tables). -/

def HVC_CTRL_EN : Fld := ⟨8 * (0x420000) + 0, 1, (.rws 6), 0, false⟩
def HVC_LOAD_DEC_LIVE : Fld := ⟨8 * (0x420004) + 16, 16, .ro, 0, false⟩
def HVC_LOAD_ENC_LIVE : Fld := ⟨8 * (0x420004) + 0, 16, .ro, 0, false⟩
def HVC_RESTART_AT_LO : Fld := ⟨8 * (0x420008) + 0, 32, .rw, 0, false⟩
def HVC_RESTART_AT_HI : Fld := ⟨8 * (0x42000C) + 0, 16, .rw, 0, false⟩
def HVC_RESTART_ARM_ARM : Fld := ⟨8 * (0x420010) + 0, 1, .w1s, 0, false⟩
def HVC_S_CTRL_OPEN (n : Nat) : Fld := ⟨8 * (0x421000 + 0x80 * n) + 31, 1, .ro, 0, false⟩
def HVC_S_CTRL_CLASS (n : Nat) : Fld := ⟨8 * (0x421000 + 0x80 * n) + 28, 1, (.rws 6), 0, false⟩
def HVC_S_CTRL_DIR (n : Nat) : Fld := ⟨8 * (0x421000 + 0x80 * n) + 24, 1, (.rws 6), 0, false⟩
def HVC_S_CTRL_PROFILE (n : Nat) : Fld := ⟨8 * (0x421000 + 0x80 * n) + 20, 2, (.rws 6), 1, false⟩
def HVC_S_CTRL_LEVEL_IDC (n : Nat) : Fld := ⟨8 * (0x421000 + 0x80 * n) + 12, 8, (.rws 6), 153, false⟩
def HVC_S_CTRL_MS (n : Nat) : Fld := ⟨8 * (0x421000 + 0x80 * n) + 8, 1, (.rws 6), 0, false⟩
def HVC_S_CTRL_FS (n : Nat) : Fld := ⟨8 * (0x421000 + 0x80 * n) + 0, 5, (.rws 6), 0, false⟩
def HVC_S_CMD_FLUSH (n : Nat) : Fld := ⟨8 * (0x421004 + 0x80 * n) + 2, 1, .wo, 0, false⟩
def HVC_S_CMD_CLOSE (n : Nat) : Fld := ⟨8 * (0x421004 + 0x80 * n) + 1, 1, .wo, 0, false⟩
def HVC_S_CMD_OPEN (n : Nat) : Fld := ⟨8 * (0x421004 + 0x80 * n) + 0, 1, .wo, 0, false⟩
def HVC_S_STATUS_ERROR (n : Nat) : Fld := ⟨8 * (0x421008 + 0x80 * n) + 24, 8, .ro, 0, false⟩
def HVC_S_STATUS_MIRROR_WAIT (n : Nat) : Fld := ⟨8 * (0x421008 + 0x80 * n) + 0, 1, .ro, 0, false⟩
def HVC_S_PERIOD (n : Nat) : Fld := ⟨8 * (0x42100C + 0x80 * n) + 0, 32, (.rws 6), 1228800, false⟩
def HVC_S_START_LO (n : Nat) : Fld := ⟨8 * (0x421010 + 0x80 * n) + 0, 32, (.rws 6), 0, false⟩
def HVC_S_START_HI (n : Nat) : Fld := ⟨8 * (0x421014 + 0x80 * n) + 0, 16, (.rws 6), 0, false⟩
def HVC_S_BITRATE (n : Nat) : Fld := ⟨8 * (0x421018 + 0x80 * n) + 0, 32, (.rws 6), 50000, false⟩
def HVC_S_CAP (n : Nat) : Fld := ⟨8 * (0x42101C + 0x80 * n) + 0, 32, (.rws 6), 2097152, false⟩
def HVC_S_REFRESH_QP_MIN (n : Nat) : Fld := ⟨8 * (0x421020 + 0x80 * n) + 24, 8, (.rws 6), 0, false⟩
def HVC_S_REFRESH_QP_MAX (n : Nat) : Fld := ⟨8 * (0x421020 + 0x80 * n) + 16, 8, (.rws 6), 51, false⟩
def HVC_S_REFRESH_N (n : Nat) : Fld := ⟨8 * (0x421020 + 0x80 * n) + 0, 8, (.rws 6), 0, false⟩
def HVC_S_BUF_BASE_LO (n : Nat) : Fld := ⟨8 * (0x421024 + 0x80 * n) + 0, 32, (.rws 6), 0, false⟩
def HVC_S_BUF_BASE_HI (n : Nat) : Fld := ⟨8 * (0x421028 + 0x80 * n) + 0, 8, (.rws 6), 0, false⟩
def HVC_S_BUF_BYTES (n : Nat) : Fld := ⟨8 * (0x42102C + 0x80 * n) + 0, 20, (.rws 6), 0, false⟩
def HVC_S_DEV_PTR (n : Nat) : Fld := ⟨8 * (0x421030 + 0x80 * n) + 0, 32, .ro, 0, false⟩
def HVC_S_CLI_PTR (n : Nat) : Fld := ⟨8 * (0x421034 + 0x80 * n) + 0, 32, .rw, 0, false⟩
def HVC_S_AU_BASE_LO (n : Nat) : Fld := ⟨8 * (0x421038 + 0x80 * n) + 0, 32, (.rws 6), 0, false⟩
def HVC_S_AU_BASE_HI (n : Nat) : Fld := ⟨8 * (0x42103C + 0x80 * n) + 0, 8, (.rws 6), 0, false⟩
def HVC_S_AU_SIZE (n : Nat) : Fld := ⟨8 * (0x421040 + 0x80 * n) + 0, 16, (.rws 6), 0, false⟩
def HVC_S_AU_PTRS_AU_DEV (n : Nat) : Fld := ⟨8 * (0x421044 + 0x80 * n) + 16, 16, .ro, 0, false⟩
def HVC_S_AU_PTRS_AU_CLI (n : Nat) : Fld := ⟨8 * (0x421044 + 0x80 * n) + 0, 16, .rw, 0, false⟩
def HVC_S_DPB_BASE_LO (n : Nat) : Fld := ⟨8 * (0x421048 + 0x80 * n) + 0, 32, (.rws 6), 0, false⟩
def HVC_S_DPB_BASE_HI (n : Nat) : Fld := ⟨8 * (0x42104C + 0x80 * n) + 0, 8, (.rws 6), 0, false⟩
def HVC_S_DPB_BYTES (n : Nat) : Fld := ⟨8 * (0x421050 + 0x80 * n) + 0, 20, (.rws 6), 0, false⟩
def HVC_S_PICTURES (n : Nat) : Fld := ⟨8 * (0x421060 + 0x80 * n) + 0, 32, .rc, 0, false⟩
def HVC_S_FALLBACK_PIC (n : Nat) : Fld := ⟨8 * (0x421064 + 0x80 * n) + 0, 32, .rc, 0, false⟩
def HVC_S_WATCHDOG (n : Nat) : Fld := ⟨8 * (0x421068 + 0x80 * n) + 0, 32, .rc, 0, false⟩
def HVC_S_DROP_FULL (n : Nat) : Fld := ⟨8 * (0x42106C + 0x80 * n) + 0, 32, .rc, 0, false⟩
def HVC_S_SRC_SKIP (n : Nat) : Fld := ⟨8 * (0x421070 + 0x80 * n) + 0, 32, .rc, 0, false⟩
def HVC_S_CONCEALED (n : Nat) : Fld := ⟨8 * (0x421074 + 0x80 * n) + 0, 32, .rc, 0, false⟩
def HVC_S_SPS_REFUSED (n : Nat) : Fld := ⟨8 * (0x421078 + 0x80 * n) + 0, 32, .rc, 0, false⟩
def HVC_S_SYNTAX_ERR (n : Nat) : Fld := ⟨8 * (0x42107C + 0x80 * n) + 0, 32, .rc, 0, false⟩

/-! Block AUD (16_audio.md, R442 and its tables). -/

def AUD_DOM_CTRL_MODE (n : Nat) : Fld := ⟨8 * (0x430000 + 0x10 * n) + 31, 1, .rw, 0, true⟩
def AUD_DOM_CTRL_FAMILY (n : Nat) : Fld := ⟨8 * (0x430000 + 0x10 * n) + 30, 1, .rw, 0, true⟩
def AUD_DOM_CTRL_BDIV (n : Nat) : Fld := ⟨8 * (0x430000 + 0x10 * n) + 28, 2, .rw, 0, true⟩
def AUD_DOM_CTRL_FS_EDGE (n : Nat) : Fld := ⟨8 * (0x430000 + 0x10 * n) + 27, 1, .rw, 0, true⟩
def AUD_DOM_CTRL_BCLK_INV (n : Nat) : Fld := ⟨8 * (0x430000 + 0x10 * n) + 26, 1, .rw, 0, true⟩
def AUD_DOM_CTRL_FRAME_BITS (n : Nat) : Fld := ⟨8 * (0x430000 + 0x10 * n) + 0, 11, .rw, 1024, true⟩
def AUD_DOM_FS_FS_HZ (n : Nat) : Fld := ⟨8 * (0x430004 + 0x10 * n) + 0, 18, .rw, 48000, true⟩
def AUD_DOM_STATUS_RUN (n : Nat) : Fld := ⟨8 * (0x430008 + 0x10 * n) + 31, 1, .ro, 0, false⟩
def AUD_DOM_STATUS_RATE_ERR (n : Nat) : Fld := ⟨8 * (0x430008 + 0x10 * n) + 30, 1, .ro, 0, false⟩
def AUD_DOM_STATUS_MEAS_HZ (n : Nat) : Fld := ⟨8 * (0x430008 + 0x10 * n) + 0, 18, .ro, 0, false⟩
def AUD_IN_CTRL_EN (n : Nat) : Fld := ⟨8 * (0x430100 + 0x40 * n) + 31, 1, (.rws 6), 0, false⟩
def AUD_IN_CTRL_DOM (n : Nat) : Fld := ⟨8 * (0x430100 + 0x40 * n) + 28, 1, (.rws 6), 0, false⟩
def AUD_IN_CTRL_SLOTS (n : Nat) : Fld := ⟨8 * (0x430100 + 0x40 * n) + 18, 5, (.rws 6), 0, false⟩
def AUD_IN_CTRL_WIDTH (n : Nat) : Fld := ⟨8 * (0x430100 + 0x40 * n) + 16, 2, (.rws 6), 2, false⟩
def AUD_IN_CTRL_OFFSET (n : Nat) : Fld := ⟨8 * (0x430100 + 0x40 * n) + 11, 5, (.rws 6), 0, false⟩
def AUD_IN_CTRL_SBITS (n : Nat) : Fld := ⟨8 * (0x430100 + 0x40 * n) + 9, 2, (.rws 6), 1, false⟩
def AUD_IN_CTRL_DETECT_EN (n : Nat) : Fld := ⟨8 * (0x430100 + 0x40 * n) + 8, 1, (.rws 6), 1, false⟩
def AUD_IN_CTRL_PACK (n : Nat) : Fld := ⟨8 * (0x430100 + 0x40 * n) + 5, 3, (.rws 6), 1, false⟩
def AUD_IN_CTRL_CFG_ERR (n : Nat) : Fld := ⟨8 * (0x430100 + 0x40 * n) + 4, 1, .ro, 0, false⟩
def AUD_IN_RING_BASE_LO (n : Nat) : Fld := ⟨8 * (0x430104 + 0x40 * n) + 0, 32, (.rws 6), 0, false⟩
def AUD_IN_RING_BASE_HI (n : Nat) : Fld := ⟨8 * (0x430108 + 0x40 * n) + 0, 8, (.rws 6), 0, false⟩
def AUD_IN_RING_BLOCKS (n : Nat) : Fld := ⟨8 * (0x43010C + 0x40 * n) + 0, 16, (.rws 6), 0, false⟩
def AUD_IN_STAMP_BASE_LO (n : Nat) : Fld := ⟨8 * (0x430110 + 0x40 * n) + 0, 32, (.rws 6), 0, false⟩
def AUD_IN_STAMP_BASE_HI (n : Nat) : Fld := ⟨8 * (0x430114 + 0x40 * n) + 0, 8, (.rws 6), 0, false⟩
def AUD_IN_WR_INDEX_LO (n : Nat) : Fld := ⟨8 * (0x430118 + 0x40 * n) + 0, 32, .ro, 0, false⟩
def AUD_IN_WR_INDEX_HI (n : Nat) : Fld := ⟨8 * (0x43011C + 0x40 * n) + 0, 16, .ro, 0, false⟩
def AUD_IN_NONAUDIO (n : Nat) : Fld := ⟨8 * (0x430120 + 0x40 * n) + 0, 16, .ro, 0, false⟩
def AUD_OUT_CTRL_EN (n : Nat) : Fld := ⟨8 * (0x430200 + 0x40 * n) + 31, 1, (.rws 6), 0, false⟩
def AUD_OUT_CTRL_DOM (n : Nat) : Fld := ⟨8 * (0x430200 + 0x40 * n) + 28, 1, (.rws 6), 0, false⟩
def AUD_OUT_CTRL_SLOTS (n : Nat) : Fld := ⟨8 * (0x430200 + 0x40 * n) + 18, 5, (.rws 6), 0, false⟩
def AUD_OUT_CTRL_WIDTH (n : Nat) : Fld := ⟨8 * (0x430200 + 0x40 * n) + 16, 2, (.rws 6), 2, false⟩
def AUD_OUT_CTRL_OFFSET (n : Nat) : Fld := ⟨8 * (0x430200 + 0x40 * n) + 11, 5, (.rws 6), 0, false⟩
def AUD_OUT_CTRL_SBITS (n : Nat) : Fld := ⟨8 * (0x430200 + 0x40 * n) + 9, 2, (.rws 6), 1, false⟩
def AUD_OUT_CTRL_HIZ_UNUSED (n : Nat) : Fld := ⟨8 * (0x430200 + 0x40 * n) + 7, 1, (.rws 6), 0, false⟩
def AUD_OUT_CTRL_ALIGN (n : Nat) : Fld := ⟨8 * (0x430200 + 0x40 * n) + 6, 1, (.rws 6), 0, false⟩
def AUD_OUT_CTRL_CFG_ERR_PORT (n : Nat) : Fld := ⟨8 * (0x430200 + 0x40 * n) + 5, 1, .ro, 0, false⟩
def AUD_OUT_CFG_ERR (n : Nat) : Fld := ⟨8 * (0x430204 + 0x40 * n) + 0, 32, .ro, 0, false⟩
def AUD_MAP_SRC_EN (n : Nat) : Fld := ⟨8 * (0x430400 + 0x4 * n) + 31, 1, (.rws 6), 0, false⟩
def AUD_MAP_SRC_PORT (n : Nat) : Fld := ⟨8 * (0x430400 + 0x4 * n) + 29, 2, (.rws 6), 0, false⟩
def AUD_MAP_SRC_SLOT (n : Nat) : Fld := ⟨8 * (0x430400 + 0x4 * n) + 24, 5, (.rws 6), 0, false⟩
def AUD_MAP_DELAY (n : Nat) : Fld := ⟨8 * (0x430400 + 0x4 * n) + 0, 20, (.rws 6), 0, false⟩
def AUD_GAP_FRAMES (n : Nat) : Fld := ⟨8 * (0x430800 + 0x20 * n) + 0, 32, .rc, 0, false⟩
def AUD_SLIP (n : Nat) : Fld := ⟨8 * (0x430804 + 0x20 * n) + 0, 32, .rc, 0, false⟩
def AUD_NONAUDIO_DET (n : Nat) : Fld := ⟨8 * (0x430808 + 0x20 * n) + 0, 32, .rc, 0, false⟩
def AUD_DRAM_ERR_IN (n : Nat) : Fld := ⟨8 * (0x43080C + 0x20 * n) + 0, 32, .rc, 0, false⟩
def AUD_UNDER (n : Nat) : Fld := ⟨8 * (0x430880 + 0x20 * n) + 0, 32, .rc, 0, false⟩
def AUD_DRAM_ERR (n : Nat) : Fld := ⟨8 * (0x430884 + 0x20 * n) + 0, 32, .rc, 0, false⟩

/-! Block PTP (17_network_time.md, R460 and its tables). -/

def PTP_CTRL_EN : Fld := ⟨8 * (0x440000) + 31, 1, (.rws 7), 0, false⟩
def PTP_CTRL_TRANSPORT : Fld := ⟨8 * (0x440000) + 28, 2, (.rws 7), 0, false⟩
def PTP_CTRL_PROFILE : Fld := ⟨8 * (0x440000) + 26, 2, (.rws 7), 0, false⟩
def PTP_CTRL_PORT_SEL : Fld := ⟨8 * (0x440000) + 24, 1, (.rws 7), 0, false⟩
def PTP_CTRL_FALLBACK_EN : Fld := ⟨8 * (0x440000) + 23, 1, (.rws 7), 1, false⟩
def PTP_CTRL_DOMAIN : Fld := ⟨8 * (0x440000) + 0, 8, (.rws 7), 127, false⟩
def PTP_JUMP_NS : Fld := ⟨8 * (0x440004) + 0, 30, (.rws 7), 1000, false⟩
def PTP_STATUS_SERVO : Fld := ⟨8 * (0x440008) + 28, 4, .ro, 0, false⟩
def PTP_STATUS_ACTIVE_PORT : Fld := ⟨8 * (0x440008) + 24, 1, .ro, 0, false⟩
def PTP_STATUS_STEPS_REMOVED : Fld := ⟨8 * (0x440008) + 0, 8, .ro, 0, false⟩
def PTP_OFFSET : Fld := ⟨8 * (0x44000C) + 0, 32, .ro, 0, false⟩
def PTP_PENDING_JUMP : Fld := ⟨8 * (0x440010) + 0, 32, .ro, 0, false⟩
def PTP_GM_ID (n : Nat) : Fld := ⟨8 * (0x440014 + 0x4 * n) + 0, 32, .ro, 0, false⟩
def PTP_LAT_TX_LAT (n : Nat) : Fld := ⟨8 * (0x440020 + 0x4 * n) + 16, 16, (.rws 7), 0, false⟩
def PTP_LAT_RX_LAT (n : Nat) : Fld := ⟨8 * (0x440020 + 0x4 * n) + 0, 16, (.rws 7), 0, false⟩
def PTP_TSQ_STATUS_COUNT : Fld := ⟨8 * (0x440040) + 0, 7, .ro, 0, false⟩
def PTP_TSQ_POP_POP : Fld := ⟨8 * (0x440044) + 0, 1, .wo, 0, false⟩
def PTP_TSQ_INFO_SEQ_ID : Fld := ⟨8 * (0x440048) + 16, 16, .ro, 0, false⟩
def PTP_TSQ_INFO_MSG_TYPE : Fld := ⟨8 * (0x440048) + 8, 4, .ro, 0, false⟩
def PTP_TSQ_INFO_PORT : Fld := ⟨8 * (0x440048) + 0, 1, .ro, 0, false⟩
def PTP_TSQ_SEC_LO : Fld := ⟨8 * (0x44004C) + 0, 32, .ro, 0, false⟩
def PTP_TSQ_SEC_HI : Fld := ⟨8 * (0x440050) + 0, 16, .ro, 0, false⟩
def PTP_TSQ_NS : Fld := ⟨8 * (0x440054) + 0, 30, .ro, 0, false⟩
def PTP_TS_OVF : Fld := ⟨8 * (0x440080) + 0, 32, .rc, 0, false⟩
def PTP_ANNOUNCE_TO : Fld := ⟨8 * (0x440084) + 0, 32, .rc, 0, false⟩
def PTP_MASTER_CHANGES : Fld := ⟨8 * (0x440088) + 0, 32, .rc, 0, false⟩
def PTP_JUMPS_REFUSED : Fld := ⟨8 * (0x44008C) + 0, 32, .rc, 0, false⟩
def PTP_SYNC_RX : Fld := ⟨8 * (0x440090) + 0, 32, .rc, 0, false⟩

/-! Block ETH (17_network_time.md, R457 and its tables). -/

def ETH_PORT_CTRL_EN (n : Nat) : Fld := ⟨8 * (0x450000 + 0x40 * n) + 31, 1, .rw, 0, true⟩
def ETH_PORT_CTRL_SPEED (n : Nat) : Fld := ⟨8 * (0x450000 + 0x40 * n) + 30, 1, .rw, 0, true⟩
def ETH_PORT_CTRL_FEC (n : Nat) : Fld := ⟨8 * (0x450000 + 0x40 * n) + 28, 2, .rw, 0, true⟩
def ETH_PORT_CTRL_VLAN_EN (n : Nat) : Fld := ⟨8 * (0x450000 + 0x40 * n) + 27, 1, .rw, 0, true⟩
def ETH_PORT_CTRL_VID (n : Nat) : Fld := ⟨8 * (0x450000 + 0x40 * n) + 0, 12, .rw, 0, true⟩
def ETH_PORT_STATUS_FEC_LOCK (n : Nat) : Fld := ⟨8 * (0x450004 + 0x40 * n) + 2, 1, .ro, 0, false⟩
def ETH_PORT_STATUS_BLOCK_LOCK (n : Nat) : Fld := ⟨8 * (0x450004 + 0x40 * n) + 1, 1, .ro, 0, false⟩
def ETH_PORT_STATUS_LINK (n : Nat) : Fld := ⟨8 * (0x450004 + 0x40 * n) + 0, 1, .ro, 0, false⟩
def ETH_CUE_PORT : Fld := ⟨8 * (0x450100) + 0, 16, (.rws 7), 52170, false⟩
def ETH_KEYS_VALID : Fld := ⟨8 * (0x450104) + 0, 8, .ro, 0, false⟩
def ETH_QUEUED : Fld := ⟨8 * (0x450108) + 0, 7, .ro, 0, false⟩
def ETH_ARRIVAL_LO : Fld := ⟨8 * (0x45010C) + 0, 32, .ro, 0, false⟩
def ETH_ARRIVAL_HI : Fld := ⟨8 * (0x450110) + 0, 32, .ro, 0, false⟩
def ETH_STREAM_CTRL_EN (n : Nat) : Fld := ⟨8 * (0x450400 + 0x40 * n) + 31, 1, (.rws 7), 0, false⟩
def ETH_STREAM_CTRL_SESSION (n : Nat) : Fld := ⟨8 * (0x450400 + 0x40 * n) + 24, 5, (.rws 7), 0, false⟩
def ETH_STREAM_CTRL_IPV6 (n : Nat) : Fld := ⟨8 * (0x450400 + 0x40 * n) + 23, 1, (.rws 7), 0, false⟩
def ETH_STREAM_CTRL_PORT (n : Nat) : Fld := ⟨8 * (0x450400 + 0x40 * n) + 22, 1, (.rws 7), 0, false⟩
def ETH_STREAM_CTRL_DSCP (n : Nat) : Fld := ⟨8 * (0x450400 + 0x40 * n) + 16, 6, (.rws 7), 34, false⟩
def ETH_STREAM_CTRL_PT (n : Nat) : Fld := ⟨8 * (0x450400 + 0x40 * n) + 0, 7, (.rws 7), 96, false⟩
def ETH_STREAM_DST_IP (n i : Nat) : Fld := ⟨8 * (0x450404 + 0x40 * n + 0x4 * i) + 0, 32, (.rws 7), 0, false⟩
def ETH_STREAM_UDP_SRC_UDP (n : Nat) : Fld := ⟨8 * (0x450414 + 0x40 * n) + 16, 16, (.rws 7), 0, false⟩
def ETH_STREAM_UDP_DST_UDP (n : Nat) : Fld := ⟨8 * (0x450414 + 0x40 * n) + 0, 16, (.rws 7), 0, false⟩
def ETH_STREAM_SSRC (n : Nat) : Fld := ⟨8 * (0x450418 + 0x40 * n) + 0, 32, (.rws 7), 0, false⟩
def ETH_STREAM_NEXT_SEQ (n : Nat) : Fld := ⟨8 * (0x45041C + 0x40 * n) + 0, 16, .ro, 0, false⟩
def ETH_STREAM_PACE_MBPS (n : Nat) : Fld := ⟨8 * (0x450420 + 0x40 * n) + 0, 16, (.rws 7), 1024, false⟩
def ETH_STREAM_MTU (n : Nat) : Fld := ⟨8 * (0x450424 + 0x40 * n) + 0, 14, (.rws 7), 1500, false⟩
def ETH_STREAM_PKTS (n : Nat) : Fld := ⟨8 * (0x450430 + 0x40 * n) + 0, 32, .rc, 0, false⟩
def ETH_STREAM_LATE_DROP (n : Nat) : Fld := ⟨8 * (0x450434 + 0x40 * n) + 0, 32, .rc, 0, false⟩
def ETH_RX_MSG : Fld := ⟨8 * (0x450800) + 0, 32, .rc, 0, false⟩
def ETH_AUTH_FAIL : Fld := ⟨8 * (0x450804) + 0, 32, .rc, 0, false⟩
def ETH_REPLAY_DROP : Fld := ⟨8 * (0x450808) + 0, 32, .rc, 0, false⟩
def ETH_DUP_REPLY : Fld := ⟨8 * (0x45080C) + 0, 32, .rc, 0, false⟩
def ETH_BUSY : Fld := ⟨8 * (0x450810) + 0, 32, .rc, 0, false⟩
def ETH_BAD_FRAME : Fld := ⟨8 * (0x450814) + 0, 32, .rc, 0, false⟩
def ETH_SPI_DROP : Fld := ⟨8 * (0x450818) + 0, 32, .rc, 0, false⟩
def ETH_OVERSIZE : Fld := ⟨8 * (0x45081C) + 0, 32, .rc, 0, false⟩

/-! Block DRM (18_dram.md, R483 and its tables). -/

def DRM_CFG_RATE (n : Nat) : Fld := ⟨8 * (0x500000 + 0x10000 * n) + 8, 2, .rw, 0, true⟩
def DRM_CFG_PKG (n : Nat) : Fld := ⟨8 * (0x500000 + 0x10000 * n) + 4, 2, .rw, 0, true⟩
def DRM_CFG_ORDER (n : Nat) : Fld := ⟨8 * (0x500000 + 0x10000 * n) + 0, 2, .rw, 0, true⟩
def DRM_ARB_AGE_US (n : Nat) : Fld := ⟨8 * (0x500004 + 0x10000 * n) + 8, 8, (.rws 7), 4, false⟩
def DRM_ARB_LIVE_RES (n : Nat) : Fld := ⟨8 * (0x500004 + 0x10000 * n) + 0, 8, (.rws 7), 0, false⟩
def DRM_SCRUB_HOURS (n : Nat) : Fld := ⟨8 * (0x500008 + 0x10000 * n) + 8, 8, (.rws 7), 8, false⟩
def DRM_SCRUB_EN (n : Nat) : Fld := ⟨8 * (0x500008 + 0x10000 * n) + 0, 1, (.rws 7), 1, false⟩
def DRM_STATUS_TRAINED (n : Nat) : Fld := ⟨8 * (0x50000C + 0x10000 * n) + 24, 8, .ro, 0, false⟩
def DRM_STATUS_SCRUBBING (n : Nat) : Fld := ⟨8 * (0x50000C + 0x10000 * n) + 16, 1, .ro, 0, false⟩
def DRM_STATUS_REF_MULT (n : Nat) : Fld := ⟨8 * (0x50000C + 0x10000 * n) + 0, 16, .ro, 0, false⟩
def DRM_UE_ADDR_LO (n : Nat) : Fld := ⟨8 * (0x500010 + 0x10000 * n) + 0, 32, .ro, 0, false⟩
def DRM_UE_ADDR_HI (n : Nat) : Fld := ⟨8 * (0x500014 + 0x10000 * n) + 0, 8, .ro, 0, false⟩
def DRM_HOT (n : Nat) : Fld := ⟨8 * (0x500018 + 0x10000 * n) + 0, 8, .ro, 0, false⟩
def DRM_CE (n i : Nat) : Fld := ⟨8 * (0x500200 + 0x10000 * n + 0x20 * i) + 0, 32, .rc, 0, false⟩
def DRM_UE (n i : Nat) : Fld := ⟨8 * (0x500204 + 0x10000 * n + 0x20 * i) + 0, 32, .rc, 0, false⟩
def DRM_TIMEOUT (n i : Nat) : Fld := ⟨8 * (0x500208 + 0x10000 * n + 0x20 * i) + 0, 32, .rc, 0, false⟩
def DRM_HOT_POLLS (n i : Nat) : Fld := ⟨8 * (0x50020C + 0x10000 * n + 0x20 * i) + 0, 32, .rc, 0, false⟩
def DRM_LIVE_SHORT (n i : Nat) : Fld := ⟨8 * (0x500210 + 0x10000 * n + 0x20 * i) + 0, 32, .rc, 0, false⟩
def DRM_PROMOTED (n i : Nat) : Fld := ⟨8 * (0x500214 + 0x10000 * n + 0x20 * i) + 0, 32, .rc, 0, false⟩
def DRM_CALR_RUNS (n i : Nat) : Fld := ⟨8 * (0x500600 + 0x10000 * n + 0x4 * i) + 24, 8, .ro, 0, false⟩
def DRM_CALR_EYE_MIN (n i : Nat) : Fld := ⟨8 * (0x500600 + 0x10000 * n + 0x4 * i) + 16, 6, .ro, 0, false⟩
def DRM_CALR_ERRORS (n i : Nat) : Fld := ⟨8 * (0x500600 + 0x10000 * n + 0x4 * i) + 8, 8, .ro, 0, false⟩
def DRM_CALR_RESULT (n i : Nat) : Fld := ⟨8 * (0x500600 + 0x10000 * n + 0x4 * i) + 0, 3, .ro, 0, false⟩

/-! Block TBL (02_architecture.md, R49 and its tables). -/

def TBL_SEL_AUTOINC : Fld := ⟨8 * (0x1000000) + 16, 1, .rw, 0, false⟩
def TBL_SEL_INSTANCE : Fld := ⟨8 * (0x1000000) + 8, 8, .rw, 0, false⟩
def TBL_SEL_TABLE : Fld := ⟨8 * (0x1000000) + 0, 8, .rw, 0, false⟩
def TBL_INDEX : Fld := ⟨8 * (0x1000004) + 0, 22, .rw, 0, false⟩
def TBL_CMD_READ : Fld := ⟨8 * (0x1000008) + 1, 1, .wo, 0, false⟩
def TBL_CMD_WRITE : Fld := ⟨8 * (0x1000008) + 0, 1, .wo, 0, false⟩
def TBL_STATUS_ERROR : Fld := ⟨8 * (0x100000C) + 16, 8, .ro, 0, false⟩
def TBL_STATUS_PENDING : Fld := ⟨8 * (0x100000C) + 2, 1, .ro, 0, false⟩
def TBL_STATUS_LOAD_BUSY : Fld := ⟨8 * (0x100000C) + 1, 1, .ro, 0, false⟩
def TBL_STATUS_BUSY : Fld := ⟨8 * (0x100000C) + 0, 1, .ro, 0, false⟩
def TBL_INFO_GROUP : Fld := ⟨8 * (0x1000010) + 12, 3, .ro, 0, false⟩
def TBL_INFO_ESIZE : Fld := ⟨8 * (0x1000010) + 0, 9, .ro, 0, false⟩
def TBL_ENTRIES : Fld := ⟨8 * (0x1000014) + 0, 22, .ro, 0, false⟩
def TBL_LOAD_ADDR_LO : Fld := ⟨8 * (0x1000020) + 0, 32, .rw, 0, false⟩
def TBL_LOAD_ADDR_HI : Fld := ⟨8 * (0x1000024) + 0, 8, .rw, 0, false⟩
def TBL_LOAD_COUNT_COUNT : Fld := ⟨8 * (0x1000028) + 0, 22, .rw, 0, false⟩
def TBL_LOAD_GO_GO : Fld := ⟨8 * (0x100002C) + 0, 1, .wo, 0, false⟩
def TBL_PAGES_IN_DRAM : Fld := ⟨8 * (0x1000030) + 16, 16, .ro, 0, false⟩
def TBL_PAGES_FREE_ONCHIP : Fld := ⟨8 * (0x1000030) + 0, 16, .ro, 0, false⟩
def TBL_DATA_D (n : Nat) : Fld := ⟨8 * (0x1000100 + 0x4 * n) + 0, 32, .rw, 0, false⟩

end R

open R

/-- The register rows of block TOP. -/
def rowsTOP : List RegRow :=
  [ ⟨0x0, [], fun _ => [TOP_ID]⟩,
    ⟨0x4, [], fun _ => [TOP_STATE_CHANGES, TOP_STATE_BANK_STRAP, TOP_STATE_ROLE_STRAP, TOP_STATE_SPLIT, TOP_STATE_PAIRED, TOP_STATE]⟩ ]

/-- The register rows of block CLK. -/
def rowsCLK : List RegRow :=
  [ ⟨0x10800, [], fun _ => [CLK_CAL_CFG_DT, CLK_CAL_CFG_RETRIES, CLK_CAL_CFG_AUTO_EN]⟩,
    ⟨0x10804, [], fun _ => [CLK_CAL_RETRY_MS]⟩,
    ⟨0x10808, [], fun _ => [CLK_CAL_MIN_EYE_DRAM, CLK_CAL_MIN_EYE_CAM, CLK_CAL_MIN_EYE_RX_THR, CLK_CAL_MIN_EYE_RX_PHASE]⟩,
    ⟨0x1080C, [], fun _ => [CLK_CAL_REQ_DRAM, CLK_CAL_REQ_CAM, CLK_CAL_REQ_RX]⟩,
    ⟨0x10810, [], fun _ => [CLK_CAL_BUSY_DRAM, CLK_CAL_BUSY_CAM, CLK_CAL_BUSY_RX]⟩,
    ⟨0x10880, [], fun _ => [CLK_RUNS_GOOD]⟩,
    ⟨0x10884, [], fun _ => [CLK_RUNS_BAD]⟩,
    ⟨0x10888, [], fun _ => [CLK_TIMEOUTS]⟩ ]

/-- The register rows of block WTM. -/
def rowsWTM : List RegRow :=
  [ ⟨0x20000, [], fun _ => [WTM_CTRL_FREF_DIV, WTM_CTRL_FREE_RUN_OK, WTM_CTRL_FREF_EDGE, WTM_CTRL_SOURCE]⟩,
    ⟨0x20004, [], fun _ => [WTM_STATUS_LOSSES, WTM_STATUS_JUMP_PENDING, WTM_STATUS_FREF_MISSING, WTM_STATUS_EVER_LOCKED, WTM_STATUS_LOCK]⟩,
    ⟨0x20008, [], fun _ => [WTM_RATE_RATE_NUM, WTM_RATE_RATE_DEN]⟩,
    ⟨0x20010, [], fun _ => [WTM_WLN_LO]⟩,
    ⟨0x20014, [], fun _ => [WTM_WLN_HI]⟩,
    ⟨0x20018, [], fun _ => [WTM_SAMPLE_GO]⟩,
    ⟨0x20020, [], fun _ => [WTM_S_WLN_LO]⟩,
    ⟨0x20024, [], fun _ => [WTM_S_WLN_HI]⟩,
    ⟨0x20028, [], fun _ => [WTM_S_SEC_LO]⟩,
    ⟨0x2002C, [], fun _ => [WTM_S_SEC_HI]⟩,
    ⟨0x20030, [], fun _ => [WTM_S_NS]⟩,
    ⟨0x20034, [], fun _ => [WTM_S_FRAC]⟩,
    ⟨0x20040, [], fun _ => [WTM_EPOCH_LO]⟩,
    ⟨0x20044, [], fun _ => [WTM_EPOCH_HI]⟩,
    ⟨0x20048, [], fun _ => [WTM_PHASE_ERR]⟩,
    ⟨0x2004C, [], fun _ => [WTM_SLEW_PPM]⟩,
    ⟨0x20080, [], fun _ => [WTM_COMMIT_ARM_ARM]⟩,
    ⟨0x20084, [], fun _ => [WTM_COMMIT_HOLD_HOLD]⟩,
    ⟨0x20088, [], fun _ => [WTM_COMMIT_PEND_DEFERRED, WTM_COMMIT_PEND_DIRTY]⟩,
    ⟨0x20100, [(0x4, 8)], fun ix => match ix with | [n] => [WTM_APPLY_LINE_LINE n] | _ => []⟩,
    ⟨0x20200, [(0x4, 4)], fun ix => match ix with | [n] => [WTM_CAL_W_W n] | _ => []⟩,
    ⟨0x20210, [], fun _ => [WTM_CAL_TGT_HI_TGT_HI]⟩,
    ⟨0x20214, [], fun _ => [WTM_CAL_CMD_CANCEL, WTM_CAL_CMD_INSERT]⟩,
    ⟨0x20218, [], fun _ => [WTM_CAL_STATUS_REMOVED, WTM_CAL_STATUS_ERROR, WTM_CAL_STATUS_PAST_AT_INSERT, WTM_CAL_STATUS_COUNT]⟩,
    ⟨0x2021C, [], fun _ => [WTM_CAL_FIRED_FIRED]⟩,
    ⟨0x20220, [], fun _ => [WTM_CAL_PAST_PAST]⟩ ]

/-- The register rows of block THM. -/
def rowsTHM : List RegRow :=
  [ ⟨0x30000, [], fun _ => [THM_CTRL_LULL_MAX]⟩,
    ⟨0x30004, [], fun _ => [THM_STATUS_TRIP, THM_STATUS_BAND, THM_STATUS_VALID, THM_STATUS_HOT_SITE, THM_STATUS_TJ]⟩,
    ⟨0x30008, [], fun _ => [THM_LULL_NOW_L]⟩,
    ⟨0x30010, [(0x4, 4)], fun ix => match ix with | [n] => [THM_CAM_OFS_OFS n] | _ => []⟩,
    ⟨0x30100, [(0x4, 32)], fun ix => match ix with | [n] => [THM_SITE_VALID n, THM_SITE_IGNORE n, THM_SITE_TEMP n] | _ => []⟩,
    ⟨0x30200, [], fun _ => [THM_BAND_CHANGES]⟩,
    ⟨0x30204, [], fun _ => [THM_SITE_FAULTS]⟩,
    ⟨0x30208, [], fun _ => [THM_B3_MS]⟩,
    ⟨0x3020C, [], fun _ => [THM_LULLS]⟩ ]

/-- The register rows of block ERR. -/
def rowsERR : List RegRow :=
  [ ⟨0x40000, [], fun _ => [ERR_CTRL_DRAM_EN]⟩,
    ⟨0x40004, [], fun _ => [ERR_DRAM_BASE_LO]⟩,
    ⟨0x40008, [], fun _ => [ERR_DRAM_BASE_HI]⟩,
    ⟨0x40010, [], fun _ => [ERR_WR_SEQ]⟩,
    ⟨0x40014, [], fun _ => [ERR_DRAM_SEQ]⟩,
    ⟨0x40020, [], fun _ => [ERR_SEL]⟩,
    ⟨0x40024, [(0x4, 4)], fun ix => match ix with | [n] => [ERR_E n] | _ => []⟩,
    ⟨0x40034, [], fun _ => [ERR_RD_STATUS]⟩,
    ⟨0x40080, [], fun _ => [ERR_DROPPED]⟩,
    ⟨0x40084, [], fun _ => [ERR_NOT_COPIED]⟩,
    ⟨0x40088, [], fun _ => [ERR_FATAL]⟩ ]

/-- The register rows of block SNAP. -/
def rowsSNAP : List RegRow :=
  [ ⟨0x50000, [], fun _ => [SNAP_CTRL_TRIGGER, SNAP_CTRL_OUT_EN, SNAP_CTRL_HOLD]⟩,
    ⟨0x50004, [], fun _ => [SNAP_SEQ]⟩,
    ⟨0x50008, [], fun _ => [SNAP_SRC]⟩,
    ⟨0x5000C, [], fun _ => [SNAP_T_WLN_LO]⟩,
    ⟨0x50010, [], fun _ => [SNAP_T_WLN_HI]⟩,
    ⟨0x50014, [], fun _ => [SNAP_T_SEC_LO]⟩,
    ⟨0x50018, [], fun _ => [SNAP_T_SEC_HI]⟩,
    ⟨0x5001C, [], fun _ => [SNAP_T_NS]⟩,
    ⟨0x50040, [], fun _ => [SNAP_BSEL_SOURCE, SNAP_BSEL_INST]⟩,
    ⟨0x50044, [], fun _ => [SNAP_BADDR_OFFSET]⟩,
    ⟨0x50048, [], fun _ => [SNAP_DATA]⟩,
    ⟨0x5004C, [], fun _ => [SNAP_L_NS]⟩,
    ⟨0x50050, [], fun _ => [SNAP_L_SEC_LO]⟩,
    ⟨0x50054, [], fun _ => [SNAP_BSTAT_MISSED, SNAP_BSTAT_LATCHED]⟩,
    ⟨0x50060, [], fun _ => [SNAP_DUMP_BASE_LO]⟩,
    ⟨0x50064, [], fun _ => [SNAP_DUMP_BASE_HI]⟩,
    ⟨0x50080, [], fun _ => [SNAP_TRIGGERS]⟩,
    ⟨0x50084, [], fun _ => [SNAP_MERGED]⟩,
    ⟨0x50088, [], fun _ => [SNAP_HELD]⟩,
    ⟨0x5008C, [], fun _ => [SNAP_MISSED_BLOCKS]⟩ ]

/-- The register rows of block BOOT. -/
def rowsBOOT : List RegRow :=
  [ ⟨0x60000, [], fun _ => [BOOT_STATUS_REASON_B, BOOT_STATUS_REASON_A, BOOT_STATUS_DRAM_FAIL, BOOT_STATUS_PLL_FAIL, BOOT_STATUS_FALLBACK, BOOT_STATUS_SECT_FAIL, BOOT_STATUS_BANK]⟩,
    ⟨0x60004, [], fun _ => [BOOT_BUILD_ID_LO]⟩,
    ⟨0x60008, [], fun _ => [BOOT_BUILD_ID_HI]⟩,
    ⟨0x6000C, [], fun _ => [BOOT_VERS_CKPT_VER, BOOT_VERS_BOOT_MS]⟩,
    ⟨0x60010, [], fun _ => [BOOT_FIXED_ID_LO]⟩,
    ⟨0x60014, [], fun _ => [BOOT_FIXED_ID_HI]⟩,
    ⟨0x60018, [], fun _ => [BOOT_WDOG_WDOG_MS]⟩,
    ⟨0x6001C, [], fun _ => [BOOT_WDOG_KICK_KICK]⟩,
    ⟨0x60020, [], fun _ => [BOOT_WDOG_LEFT]⟩ ]

/-- The register rows of block VEER. -/
def rowsVEER : List RegRow :=
  [ ⟨0x70000, [], fun _ => [VEER_CTRL_HOME_EN, VEER_CTRL_AUTO_SPLIT, VEER_CTRL_YIELD_TEST]⟩,
    ⟨0x70004, [], fun _ => [VEER_STATUS_WINDWARD, VEER_STATUS_SYNCED, VEER_STATUS_PATH_A, VEER_STATUS_PATH_B, VEER_STATUS_MIRROR, VEER_STATUS_VEER_SCHED, VEER_STATUS_WLN_MISMATCH, VEER_STATUS_READY, VEER_STATUS_PARTNER_STATE, VEER_STATUS_LAST_YIELD, VEER_STATUS_LAST_REFUSE, VEER_STATUS_MISS_BOTH]⟩,
    ⟨0x70008, [], fun _ => [VEER_EPOCH]⟩,
    ⟨0x7000C, [], fun _ => [VEER_PARTNER_EPOCH]⟩,
    ⟨0x70010, [], fun _ => [VEER_CFG_VEER_FRAMES, VEER_CFG_LEAD4, VEER_CFG_SIG_MATCH, VEER_CFG_SIG_WAIT]⟩,
    ⟨0x70014, [], fun _ => [VEER_TIMERS_PAIR_WAIT, VEER_TIMERS_CLAIM_GIVEUP, VEER_TIMERS_YIELD_HOLD]⟩,
    ⟨0x70018, [], fun _ => [VEER_HOME_HOME_S, VEER_HOME_HEAL_S]⟩,
    ⟨0x7001C, [], fun _ => [VEER_DEV_TAG]⟩,
    ⟨0x70020, [], fun _ => [VEER_NEXT_V_LO]⟩,
    ⟨0x70024, [], fun _ => [VEER_NEXT_V_HI]⟩,
    ⟨0x70028, [], fun _ => [VEER_CUT_AGE]⟩,
    ⟨0x70030, [], fun _ => [VEER_REQ]⟩,
    ⟨0x70080, [], fun _ => [VEER_TAKEOVERS]⟩,
    ⟨0x70084, [], fun _ => [VEER_VEERS]⟩,
    ⟨0x70088, [], fun _ => [VEER_VEER_ABORTS]⟩,
    ⟨0x7008C, [], fun _ => [VEER_PARTNER_YIELDS]⟩,
    ⟨0x70090, [], fun _ => [VEER_PATH_A_FAULTS]⟩,
    ⟨0x70094, [], fun _ => [VEER_PATH_B_FAULTS]⟩,
    ⟨0x70098, [], fun _ => [VEER_BEAT_BAD]⟩,
    ⟨0x7009C, [], fun _ => [VEER_CUTS]⟩,
    ⟨0x700A0, [], fun _ => [VEER_RESENDS]⟩,
    ⟨0x700A4, [], fun _ => [VEER_BASE_RESTARTS]⟩,
    ⟨0x700A8, [], fun _ => [VEER_MIRROR_LOST]⟩,
    ⟨0x700AC, [], fun _ => [VEER_SPLIT_SEGMENTS]⟩,
    ⟨0x700B0, [], fun _ => [VEER_CLAIM_GIVEUPS]⟩ ]

/-- The register rows of block CAM. -/
def rowsCAM : List RegRow :=
  [ ⟨0x100000, [(0x10000, 8)], fun ix => match ix with | [n] => [CAM_CTRL_REPL_MASK n, CAM_CTRL_GANG n, CAM_CTRL_SUBST_BLACK n, CAM_CTRL_CHECK_EN n, CAM_CTRL_DEPTH n, CAM_CTRL_EN n] | _ => []⟩,
    ⟨0x100004, [(0x10000, 8)], fun ix => match ix with | [n] => [CAM_GEOM_WIDTH n, CAM_GEOM_HEIGHT n] | _ => []⟩,
    ⟨0x100008, [(0x10000, 8)], fun ix => match ix with | [n] => [CAM_EXP_PERIOD n] | _ => []⟩,
    ⟨0x10000C, [(0x10000, 8)], fun ix => match ix with | [n] => [CAM_RATE_TOL_TOL n] | _ => []⟩,
    ⟨0x100010, [(0x10000, 8)], fun ix => match ix with | [n] => [CAM_GANG_SKEW_SKEW n] | _ => []⟩,
    ⟨0x100020, [(0x10000, 8)], fun ix => match ix with | [n] => [CAM_STATUS_LAST_MARKS n, CAM_STATUS_REPLACING n, CAM_STATUS_LOST n, CAM_STATUS_CLK_RUN n, CAM_STATUS_IN_FRAME n] | _ => []⟩,
    ⟨0x100024, [(0x10000, 8)], fun ix => match ix with | [n] => [CAM_CLK_KHZ n] | _ => []⟩,
    ⟨0x100028, [(0x10000, 8)], fun ix => match ix with | [n] => [CAM_MEAS_PERIOD n] | _ => []⟩,
    ⟨0x10002C, [(0x10000, 8)], fun ix => match ix with | [n] => [CAM_MEAS_VBLANK n] | _ => []⟩,
    ⟨0x100030, [(0x10000, 8)], fun ix => match ix with | [n] => [CAM_FS_SEQ n] | _ => []⟩,
    ⟨0x100034, [(0x10000, 8)], fun ix => match ix with | [n] => [CAM_FS_WLN_LO n] | _ => []⟩,
    ⟨0x100038, [(0x10000, 8)], fun ix => match ix with | [n] => [CAM_FS_WLN_HI n] | _ => []⟩,
    ⟨0x10003C, [(0x10000, 8)], fun ix => match ix with | [n] => [CAM_FS_SEC_LO n] | _ => []⟩,
    ⟨0x100040, [(0x10000, 8)], fun ix => match ix with | [n] => [CAM_FS_SEC_HI n] | _ => []⟩,
    ⟨0x100044, [(0x10000, 8)], fun ix => match ix with | [n] => [CAM_FS_NS n] | _ => []⟩,
    ⟨0x100080, [(0x10000, 8)], fun ix => match ix with | [n] => [CAM_FRAMES n] | _ => []⟩,
    ⟨0x100084, [(0x10000, 8)], fun ix => match ix with | [n] => [CAM_MARKED n] | _ => []⟩,
    ⟨0x100088, [(0x10000, 8)], fun ix => match ix with | [n] => [CAM_CHECK_ERR n] | _ => []⟩,
    ⟨0x10008C, [(0x10000, 8)], fun ix => match ix with | [n] => [CAM_CHECK_MISS n] | _ => []⟩,
    ⟨0x100090, [(0x10000, 8)], fun ix => match ix with | [n] => [CAM_LINE_LEN n] | _ => []⟩,
    ⟨0x100094, [(0x10000, 8)], fun ix => match ix with | [n] => [CAM_SHORT n] | _ => []⟩,
    ⟨0x100098, [(0x10000, 8)], fun ix => match ix with | [n] => [CAM_LONG n] | _ => []⟩,
    ⟨0x10009C, [(0x10000, 8)], fun ix => match ix with | [n] => [CAM_RATE n] | _ => []⟩,
    ⟨0x1000A0, [(0x10000, 8)], fun ix => match ix with | [n] => [CAM_OVF n] | _ => []⟩,
    ⟨0x1000A4, [(0x10000, 8)], fun ix => match ix with | [n] => [CAM_GANG n] | _ => []⟩,
    ⟨0x1000A8, [(0x10000, 8)], fun ix => match ix with | [n] => [CAM_GLITCH n] | _ => []⟩,
    ⟨0x1000AC, [(0x10000, 8)], fun ix => match ix with | [n] => [CAM_CLK_STOP n] | _ => []⟩,
    ⟨0x1000B0, [(0x10000, 8)], fun ix => match ix with | [n] => [CAM_REPLACED n] | _ => []⟩,
    ⟨0x1000B4, [(0x10000, 8)], fun ix => match ix with | [n] => [CAM_MISSED n] | _ => []⟩,
    ⟨0x1000B8, [(0x10000, 8)], fun ix => match ix with | [n] => [CAM_SUBST n] | _ => []⟩,
    ⟨0x1000BC, [(0x10000, 8)], fun ix => match ix with | [n] => [CAM_DROP_UNBOUND n] | _ => []⟩,
    ⟨0x100100, [(0x10000, 8), (0x4, 32)], fun ix => match ix with | [n, i] => [CAM_DLY_TAP n i, CAM_DLY_OVR_EN n i, CAM_DLY_OVR_TAP n i, CAM_DLY_CAL_TAP n i] | _ => []⟩,
    ⟨0x100180, [(0x10000, 8)], fun ix => match ix with | [n] => [CAM_CTL_DLY_TAP n] | _ => []⟩,
    ⟨0x100200, [(0x10000, 8)], fun ix => match ix with | [n] => [CAM_CAL_CTRL_HOLD n, CAM_CAL_CTRL_GO n] | _ => []⟩,
    ⟨0x100204, [(0x10000, 8)], fun ix => match ix with | [n] => [CAM_CAL_STATUS_RUNS n, CAM_CAL_STATUS_EYE_MIN n, CAM_CAL_STATUS_WORST_BIT n, CAM_CAL_STATUS_STARVED n, CAM_CAL_STATUS_RESULT n] | _ => []⟩,
    ⟨0x100208, [(0x10000, 8)], fun ix => match ix with | [n] => [CAM_CAL_ERR_ERRORS n] | _ => []⟩ ]

/-- The register rows of block RAWP. -/
def rowsRAWP : List RegRow :=
  [ ⟨0x180000, [(0x10000, 8)], fun ix => match ix with | [n] => [RAWP_CTRL_HL_MODE n, RAWP_CTRL_CFA n, RAWP_CTRL_STATS_EN n, RAWP_CTRL_TNR_EN n, RAWP_CTRL_SNR_EN n, RAWP_CTRL_LSC_EN n, RAWP_CTRL_DYN_EN n, RAWP_CTRL_DEF_EN n, RAWP_CTRL_DEF_BANK n] | _ => []⟩,
    ⟨0x180004, [(0x10000, 8)], fun ix => match ix with | [n] => [RAWP_CROP_XY_X n, RAWP_CROP_XY_Y n] | _ => []⟩,
    ⟨0x180008, [(0x10000, 8)], fun ix => match ix with | [n] => [RAWP_CROP_WH_W n, RAWP_CROP_WH_H n] | _ => []⟩,
    ⟨0x180010, [(0x10000, 8), (0x4, 4)], fun ix => match ix with | [n, i] => [RAWP_BLACK n i] | _ => []⟩,
    ⟨0x180020, [(0x10000, 8)], fun ix => match ix with | [n] => [RAWP_SAT_LEVEL n] | _ => []⟩,
    ⟨0x180024, [(0x10000, 8)], fun ix => match ix with | [n] => [RAWP_OB_COL_X0 n, RAWP_OB_COL_WIDTH n] | _ => []⟩,
    ⟨0x180028, [(0x10000, 8)], fun ix => match ix with | [n] => [RAWP_OB_ROW_Y0 n, RAWP_OB_ROW_HEIGHT n] | _ => []⟩,
    ⟨0x18002C, [(0x10000, 8)], fun ix => match ix with | [n] => [RAWP_OB_LIM_ROW_LIM n] | _ => []⟩,
    ⟨0x180030, [(0x10000, 8)], fun ix => match ix with | [n] => [RAWP_DYN_HOT_TH n, RAWP_DYN_COLD_TH n] | _ => []⟩,
    ⟨0x180034, [(0x10000, 8)], fun ix => match ix with | [n] => [RAWP_DEF_COUNT0 n] | _ => []⟩,
    ⟨0x180038, [(0x10000, 8)], fun ix => match ix with | [n] => [RAWP_DEF_COUNT1 n] | _ => []⟩,
    ⟨0x18003C, [(0x10000, 8)], fun ix => match ix with | [n] => [RAWP_DEF_ADDR_AUTOINC n, RAWP_DEF_ADDR_BANK n, RAWP_DEF_ADDR_INDEX n] | _ => []⟩,
    ⟨0x180040, [(0x10000, 8)], fun ix => match ix with | [n] => [RAWP_DEF_DATA_DATA n] | _ => []⟩,
    ⟨0x180044, [(0x10000, 8)], fun ix => match ix with | [n] => [RAWP_LSC_STEP_STEP_Y n, RAWP_LSC_STEP_STEP_X n] | _ => []⟩,
    ⟨0x180048, [(0x10000, 8)], fun ix => match ix with | [n] => [RAWP_NR_STR_SNR_STR n, RAWP_NR_STR_TNR_MAX n] | _ => []⟩,
    ⟨0x18004C, [(0x10000, 8)], fun ix => match ix with | [n] => [RAWP_DEM_T n] | _ => []⟩,
    ⟨0x180050, [(0x10000, 8)], fun ix => match ix with | [n] => [RAWP_WB_GAIN01_G1 n, RAWP_WB_GAIN01_G0 n] | _ => []⟩,
    ⟨0x180054, [(0x10000, 8)], fun ix => match ix with | [n] => [RAWP_WB_GAIN23_G3 n, RAWP_WB_GAIN23_G2 n] | _ => []⟩,
    ⟨0x180058, [(0x10000, 8)], fun ix => match ix with | [n] => [RAWP_HL_GAIN n] | _ => []⟩,
    ⟨0x180060, [(0x10000, 8)], fun ix => match ix with | [n] => [RAWP_REF_BASE_LO n] | _ => []⟩,
    ⟨0x180064, [(0x10000, 8)], fun ix => match ix with | [n] => [RAWP_REF_BASE_HI n] | _ => []⟩,
    ⟨0x180068, [(0x10000, 8)], fun ix => match ix with | [n] => [RAWP_REF_BYTES n] | _ => []⟩,
    ⟨0x180070, [(0x10000, 8)], fun ix => match ix with | [n] => [RAWP_STAT_BASE_LO n] | _ => []⟩,
    ⟨0x180074, [(0x10000, 8)], fun ix => match ix with | [n] => [RAWP_STAT_BASE_HI n] | _ => []⟩,
    ⟨0x180080, [(0x10000, 8)], fun ix => match ix with | [n] => [RAWP_HIST_AT_LO n] | _ => []⟩,
    ⟨0x180084, [(0x10000, 8)], fun ix => match ix with | [n] => [RAWP_HIST_AT_HI n] | _ => []⟩,
    ⟨0x180088, [(0x10000, 8)], fun ix => match ix with | [n] => [RAWP_HIST_ARM_ARM n] | _ => []⟩,
    ⟨0x180100, [(0x10000, 8), (0x4, 32)], fun ix => match ix with | [n, i] => [RAWP_INV_SIGMA n i] | _ => []⟩,
    ⟨0x180180, [(0x10000, 8), (0x4, 16)], fun ix => match ix with | [n, i] => [RAWP_SNR_W_W3 n i, RAWP_SNR_W_W2 n i, RAWP_SNR_W_W1 n i, RAWP_SNR_W_W0 n i] | _ => []⟩,
    ⟨0x1801C0, [(0x10000, 8), (0x4, 16)], fun ix => match ix with | [n, i] => [RAWP_TNR_W_W3 n i, RAWP_TNR_W_W2 n i, RAWP_TNR_W_W1 n i, RAWP_TNR_W_W0 n i] | _ => []⟩,
    ⟨0x180200, [(0x10000, 8)], fun ix => match ix with | [n] => [RAWP_STATUS_REF_SMALL n, RAWP_STATUS_DEF_ORDER n, RAWP_STATUS_TNR_STEP n, RAWP_STATUS_LAST_GOOD n, RAWP_STATUS_STAT_BUF n] | _ => []⟩,
    ⟨0x180204, [(0x10000, 8)], fun ix => match ix with | [n] => [RAWP_STAT_SEQ n] | _ => []⟩,
    ⟨0x180280, [(0x10000, 8)], fun ix => match ix with | [n] => [RAWP_FRAMES_OUT n] | _ => []⟩,
    ⟨0x180284, [(0x10000, 8)], fun ix => match ix with | [n] => [RAWP_DYN_CORR n] | _ => []⟩,
    ⟨0x180288, [(0x10000, 8)], fun ix => match ix with | [n] => [RAWP_OB_CLAMP n] | _ => []⟩,
    ⟨0x18028C, [(0x10000, 8)], fun ix => match ix with | [n] => [RAWP_REF_POISON n] | _ => []⟩,
    ⟨0x180290, [(0x10000, 8)], fun ix => match ix with | [n] => [RAWP_REPL_POISON n] | _ => []⟩,
    ⟨0x180294, [(0x10000, 8)], fun ix => match ix with | [n] => [RAWP_HIST_RESTARTS n] | _ => []⟩ ]

/-- The register rows of block CLR. -/
def rowsCLR : List RegRow :=
  [ ⟨0x200000, [], fun _ => [CLR_CFG_WALL_DEPTH, CLR_CFG_WORK_SPACE]⟩,
    ⟨0x200100, [(0x40, 8)], fun ix => match ix with | [n] => [CLR_CAMC_CTRL_LUT3D_EN n, CLR_CAMC_CTRL_LUT1_BANK n, CLR_CAMC_CTRL_LUT1_EN n] | _ => []⟩,
    ⟨0x200104, [(0x40, 8), (0x4, 9)], fun ix => match ix with | [n, i] => [CLR_CAMC_MTX n i] | _ => []⟩,
    ⟨0x201000, [], fun _ => [CLR_WALL_CTRL_DITHER_T, CLR_WALL_CTRL_DITHER_EN, CLR_WALL_CTRL_TONE_BANK, CLR_WALL_CTRL_RESP_BANK]⟩,
    ⟨0x201004, [], fun _ => [CLR_PEAK]⟩,
    ⟨0x201010, [], fun _ => [CLR_AMB_LO]⟩,
    ⟨0x201014, [], fun _ => [CLR_AMB_HI]⟩,
    ⟨0x201018, [], fun _ => [CLR_AMB_TAU]⟩,
    ⟨0x20101C, [], fun _ => [CLR_AMB_SLEW]⟩,
    ⟨0x201020, [], fun _ => [CLR_AMB_OVR_OVR_EN, CLR_AMB_OVR_A_OVR]⟩,
    ⟨0x201030, [], fun _ => [CLR_DERATE_SLEW_DOWN, CLR_DERATE_SLEW_UP]⟩,
    ⟨0x201040, [], fun _ => [CLR_CAP_DAY]⟩,
    ⟨0x201044, [], fun _ => [CLR_CAP_NIGHT]⟩,
    ⟨0x201048, [], fun _ => [CLR_CAP_MIN]⟩,
    ⟨0x20104C, [], fun _ => [CLR_CAP_CTL_CAP_HYST, CLR_CAP_CTL_CAP_UP]⟩,
    ⟨0x201080, [], fun _ => [CLR_LOOP_STATUS_AMB_VALID, CLR_LOOP_STATUS_LOOP_LAG, CLR_LOOP_STATUS_CAP_FLOOR, CLR_LOOP_STATUS_CAP_ACTIVE, CLR_LOOP_STATUS_AMB_NONE, CLR_LOOP_STATUS_AMB_A]⟩,
    ⟨0x201084, [], fun _ => [CLR_AMB_OWN_LUX]⟩,
    ⟨0x201088, [], fun _ => [CLR_CAP_GAIN]⟩,
    ⟨0x20108C, [], fun _ => [CLR_P_SUM]⟩,
    ⟨0x201090, [], fun _ => [CLR_P_BUDGET]⟩,
    ⟨0x2010A0, [], fun _ => [CLR_DR_SEL]⟩,
    ⟨0x2010A4, [], fun _ => [CLR_DR_GAIN_TARGET, CLR_DR_GAIN_GAIN]⟩,
    ⟨0x201100, [], fun _ => [CLR_FP_SAT]⟩,
    ⟨0x201104, [], fun _ => [CLR_AMB_FAULT]⟩,
    ⟨0x201108, [], fun _ => [CLR_CAP_DOWN]⟩,
    ⟨0x20110C, [], fun _ => [CLR_CAP_FLOOR_WF]⟩,
    ⟨0x201110, [], fun _ => [CLR_LOOP_LAG_WF]⟩,
    ⟨0x201114, [], fun _ => [CLR_DRIVE_CLIP]⟩,
    ⟨0x201800, [(0x40, 4)], fun ix => match ix with | [n] => [CLR_TAP_CTRL_TF n] | _ => []⟩,
    ⟨0x201804, [(0x40, 4)], fun ix => match ix with | [n] => [CLR_TAP_GAIN n] | _ => []⟩,
    ⟨0x201808, [(0x40, 4), (0x4, 9)], fun ix => match ix with | [n, i] => [CLR_TAP_MTX n i] | _ => []⟩,
    ⟨0x202000, [], fun _ => [CLR_LUT_SEL_AUTOINC, CLR_LUT_SEL_KIND, CLR_LUT_SEL_BANK, CLR_LUT_SEL_INSTANCE, CLR_LUT_SEL_CHANNEL, CLR_LUT_SEL_INDEX]⟩,
    ⟨0x202004, [], fun _ => [CLR_LUT_DATA_DATA]⟩ ]

/-- The register rows of block CMP, part 1. -/
def rowsCMP1 : List RegRow :=
  [ ⟨0x210000, [], fun _ => [CMP_CANVAS_H16, CMP_CANVAS_W16]⟩,
    ⟨0x210004, [], fun _ => [CMP_SPLIT_SPLIT16]⟩,
    ⟨0x210008, [], fun _ => [CMP_CFG_COEF_BANK]⟩,
    ⟨0x210010, [(0x4, 3)], fun ix => match ix with | [n] => [CMP_BG n] | _ => []⟩,
    ⟨0x210020, [], fun _ => [CMP_COEF_SEL_AUTOINC, CMP_COEF_SEL_BANK, CMP_COEF_SEL_INDEX]⟩,
    ⟨0x210024, [], fun _ => [CMP_COEF_DATA_COEF]⟩,
    ⟨0x210030, [], fun _ => [CMP_SIG]⟩,
    ⟨0x210034, [], fun _ => [CMP_SIG_WLN_LO]⟩,
    ⟨0x210038, [], fun _ => [CMP_SIG_WLN_HI]⟩,
    ⟨0x210040, [], fun _ => [CMP_LAYER_STATUS_LOCK_LOST, CMP_LAYER_STATUS_CFG_ERR]⟩,
    ⟨0x210044, [], fun _ => [CMP_BT_UNMAPPED]⟩,
    ⟨0x210400, [(0x80, 16)], fun ix => match ix with | [n] => [CMP_LAYER_CTRL_EN n, CMP_LAYER_CTRL_PATH n, CMP_LAYER_CTRL_KIND n, CMP_LAYER_CTRL_SOURCE n, CMP_LAYER_CTRL_FREEZE n, CMP_LAYER_CTRL_HSET n, CMP_LAYER_CTRL_VSET n] | _ => []⟩,
    ⟨0x210404, [(0x80, 16)], fun ix => match ix with | [n] => [CMP_LAYER_OPA_OPA n] | _ => []⟩,
    ⟨0x210408, [(0x80, 16)], fun ix => match ix with | [n] => [CMP_LAYER_SRC_XY_SRC_X n, CMP_LAYER_SRC_XY_SRC_Y n] | _ => []⟩,
    ⟨0x21040C, [(0x80, 16)], fun ix => match ix with | [n] => [CMP_LAYER_SRC_WH_SRC_W n, CMP_LAYER_SRC_WH_SRC_H n] | _ => []⟩,
    ⟨0x210410, [(0x80, 16)], fun ix => match ix with | [n] => [CMP_LAYER_DST_XY_DST_X n, CMP_LAYER_DST_XY_DST_Y n] | _ => []⟩,
    ⟨0x210414, [(0x80, 16)], fun ix => match ix with | [n] => [CMP_LAYER_DST_WH_DST_W n, CMP_LAYER_DST_WH_DST_H n] | _ => []⟩,
    ⟨0x210418, [(0x80, 16)], fun ix => match ix with | [n] => [CMP_LAYER_LOCK_RDIR n, CMP_LAYER_LOCK_RATIO n, CMP_LAYER_LOCK_LINE n] | _ => []⟩,
    ⟨0x21041C, [(0x80, 16)], fun ix => match ix with | [n] => [CMP_LAYER_LOCK_TOL n] | _ => []⟩,
    ⟨0x210420, [(0x80, 16)], fun ix => match ix with | [n] => [CMP_LAYER_IN_GAIN n] | _ => []⟩,
    ⟨0x210424, [(0x80, 16), (0x4, 9)], fun ix => match ix with | [n, i] => [CMP_LAYER_IN_MTX n i] | _ => []⟩,
    ⟨0x210448, [(0x80, 16)], fun ix => match ix with | [n] => [CMP_LAYER_STATUS_I_LATCH_SEQ n, CMP_LAYER_STATUS_I_CFG_ERR n, CMP_LAYER_STATUS_I_LOCK_LOST n, CMP_LAYER_STATUS_I_LATCH_BUF n] | _ => []⟩,
    ⟨0x21044C, [(0x80, 16)], fun ix => match ix with | [n] => [CMP_LAYER_MIN_SLACK n] | _ => []⟩,
    ⟨0x210450, [(0x80, 16)], fun ix => match ix with | [n] => [CMP_LAYER_MAX_SLACK n] | _ => []⟩,
    ⟨0x210454, [(0x80, 16)], fun ix => match ix with | [n] => [CMP_LAYER_GANG_OVL n] | _ => []⟩,
    ⟨0x210460, [(0x80, 16)], fun ix => match ix with | [n] => [CMP_LAYER_LATE_ROWS n] | _ => []⟩,
    ⟨0x210464, [(0x80, 16)], fun ix => match ix with | [n] => [CMP_LAYER_DROP_ROWS n] | _ => []⟩,
    ⟨0x210468, [(0x80, 16)], fun ix => match ix with | [n] => [CMP_LAYER_REPEAT n] | _ => []⟩,
    ⟨0x21046C, [(0x80, 16)], fun ix => match ix with | [n] => [CMP_LAYER_SKIP n] | _ => []⟩,
    ⟨0x210470, [(0x80, 16)], fun ix => match ix with | [n] => [CMP_LAYER_LATE_BLOCKS n] | _ => []⟩,
    ⟨0x210474, [(0x80, 16)], fun ix => match ix with | [n] => [CMP_LAYER_POISON n] | _ => []⟩,
    ⟨0x210478, [(0x80, 16)], fun ix => match ix with | [n] => [CMP_LAYER_POISON_BLACK n] | _ => []⟩,
    ⟨0x21047C, [(0x80, 16)], fun ix => match ix with | [n] => [CMP_LAYER_LOCK_ERR n] | _ => []⟩,
    ⟨0x211000, [(0x20, 32)], fun ix => match ix with | [n] => [CMP_FS_BASE_LO n] | _ => []⟩,
    ⟨0x211004, [(0x20, 32)], fun ix => match ix with | [n] => [CMP_FS_BASE_HI n] | _ => []⟩,
    ⟨0x211008, [(0x20, 32)], fun ix => match ix with | [n] => [CMP_FS_CTRL_FMT n, CMP_FS_CTRL_WRITER n, CMP_FS_CTRL_WIDX n] | _ => []⟩,
    ⟨0x21100C, [(0x20, 32)], fun ix => match ix with | [n] => [CMP_FS_WH_W n, CMP_FS_WH_H n] | _ => []⟩,
    ⟨0x211010, [(0x20, 32)], fun ix => match ix with | [n] => [CMP_FS_BUF_BYTES n] | _ => []⟩,
    ⟨0x211014, [(0x20, 32)], fun ix => match ix with | [n] => [CMP_FS_NEWEST_NEWEST_SEQ n, CMP_FS_NEWEST_NEWEST n] | _ => []⟩,
    ⟨0x211018, [(0x20, 32)], fun ix => match ix with | [n] => [CMP_FS_WDROP n] | _ => []⟩ ]

/-- The register rows of block CMP, part 2. -/
def rowsCMP2 : List RegRow :=
  [ ⟨0x211800, [(0x40, 4)], fun ix => match ix with | [n] => [CMP_TAP_CTRL_EN n, CMP_TAP_CTRL_SRC n, CMP_TAP_CTRL_CAM n, CMP_TAP_CTRL_FS n, CMP_TAP_CTRL_DIV n] | _ => []⟩,
    ⟨0x211804, [(0x40, 4)], fun ix => match ix with | [n] => [CMP_TAP_SRC_XY_SRC_X n, CMP_TAP_SRC_XY_SRC_Y n] | _ => []⟩,
    ⟨0x211808, [(0x40, 4)], fun ix => match ix with | [n] => [CMP_TAP_SRC_WH_SRC_W n, CMP_TAP_SRC_WH_SRC_H n] | _ => []⟩,
    ⟨0x21180C, [(0x40, 4)], fun ix => match ix with | [n] => [CMP_TAP_OUT_WH_OUT_W n, CMP_TAP_OUT_WH_OUT_H n] | _ => []⟩,
    ⟨0x211810, [(0x40, 4)], fun ix => match ix with | [n] => [CMP_TAP_SETS_HSET n, CMP_TAP_SETS_VSET n] | _ => []⟩,
    ⟨0x211814, [(0x40, 4)], fun ix => match ix with | [n] => [CMP_TAP_OVERRUN n] | _ => []⟩ ]

/-- The register rows of block SCN. -/
def rowsSCN : List RegRow :=
  [ ⟨0x220000, [], fun _ => [SCN_LGEN_LT]⟩,
    ⟨0x220004, [], fun _ => [SCN_LGEN_STATUS_RUN, SCN_LGEN_STATUS_LINE]⟩,
    ⟨0x220100, [(0x8000, 2)], fun ix => match ix with | [n] => [SCN_CTRL_BLACK n] | _ => []⟩,
    ⟨0x220104, [(0x8000, 2)], fun ix => match ix with | [n] => [SCN_TP_CTRL_RAW n, SCN_TP_CTRL_MODE n] | _ => []⟩,
    ⟨0x220108, [(0x8000, 2), (0x4, 3)], fun ix => match ix with | [n, i] => [SCN_TP n i] | _ => []⟩,
    ⟨0x220120, [(0x8000, 2)], fun ix => match ix with | [n] => [SCN_STATUS_UNDER_EP n, SCN_STATUS_RUN n] | _ => []⟩,
    ⟨0x220128, [(0x8000, 2)], fun ix => match ix with | [n] => [SCN_LAST_UNDER_WLN_LO n] | _ => []⟩,
    ⟨0x22012C, [(0x8000, 2)], fun ix => match ix with | [n] => [SCN_LAST_UNDER_WLN_HI n] | _ => []⟩,
    ⟨0x220180, [(0x8000, 2)], fun ix => match ix with | [n] => [SCN_UNDERRUN_PX n] | _ => []⟩,
    ⟨0x220184, [(0x8000, 2)], fun ix => match ix with | [n] => [SCN_LATE_PX n] | _ => []⟩,
    ⟨0x220188, [(0x8000, 2)], fun ix => match ix with | [n] => [SCN_LANE_SKIP n] | _ => []⟩,
    ⟨0x22018C, [(0x8000, 2)], fun ix => match ix with | [n] => [SCN_BAND_OVER n] | _ => []⟩,
    ⟨0x220190, [(0x8000, 2)], fun ix => match ix with | [n] => [SCN_UNDER_EPISODES n] | _ => []⟩ ]

/-- The register rows of block FLT. -/
def rowsFLT : List RegRow :=
  [ ⟨0x230000, [], fun _ => [FLT_CTRL_RATIO, FLT_CTRL_PAL2_EN, FLT_CTRL_PRED_EN, FLT_CTRL_FLAT_EN, FLT_CTRL_FORCE]⟩,
    ⟨0x230004, [], fun _ => [FLT_CFG_DEPTH, FLT_CFG_ALLOW_4, FLT_CFG_ALLOW_3, FLT_CFG_ALLOW_2]⟩,
    ⟨0x230008, [], fun _ => [FLT_STATUS_FMT, FLT_STATUS_RATIO_REFUSED]⟩,
    ⟨0x230010, [], fun _ => [FLT_ERR_MAX_WEST, FLT_ERR_MAX_EAST]⟩,
    ⟨0x230080, [], fun _ => [FLT_FRM_FLAT]⟩,
    ⟨0x230084, [], fun _ => [FLT_FRM_PRED]⟩,
    ⟨0x230088, [], fun _ => [FLT_FRM_PAL2]⟩,
    ⟨0x23008C, [], fun _ => [FLT_FRM_TRUNC]⟩,
    ⟨0x230090, [], fun _ => [FLT_RATIO_REF]⟩ ]

/-- The register rows of block MVL. -/
def rowsMVL : List RegRow :=
  [ ⟨0x240000, [], fun _ => [MVL_DISP_MARGIN, MVL_DISP_OFS]⟩,
    ⟨0x240004, [], fun _ => [MVL_ACK_TO]⟩,
    ⟨0x240008, [], fun _ => [MVL_STALE_WF]⟩,
    ⟨0x240010, [(0x4, 2)], fun ix => match ix with | [n] => [MVL_SEG n] | _ => []⟩,
    ⟨0x240018, [(0x4, 2)], fun ix => match ix with | [n] => [MVL_BREAK n] | _ => []⟩,
    ⟨0x240040, [], fun _ => [MVL_CT_CMD_GO, MVL_CT_CMD_OP, MVL_CT_CMD_TILE]⟩,
    ⟨0x240044, [], fun _ => [MVL_CT_ADDR_ADDR]⟩,
    ⟨0x240048, [], fun _ => [MVL_CT_DATA_DATA]⟩,
    ⟨0x24004C, [], fun _ => [MVL_CT_STATUS_ERROR, MVL_CT_STATUS_DONE, MVL_CT_STATUS_BUSY]⟩,
    ⟨0x240050, [], fun _ => [MVL_CT_RDATA]⟩,
    ⟨0x241000, [(0x40, 64)], fun ix => match ix with | [n] => [MVL_LSTAT_BREAK_POS n, MVL_LSTAT_BREAK_VALID n, MVL_LSTAT_SCATTER n, MVL_LSTAT_FOUND n, MVL_LSTAT_MISWIRED n, MVL_LSTAT_SEG_LOSS n, MVL_LSTAT_BACKPRESSURE n, MVL_LSTAT_UP n] | _ => []⟩,
    ⟨0x241004, [(0x40, 64)], fun ix => match ix with | [n] => [MVL_FIFO_PEAK n, MVL_FIFO_USED n] | _ => []⟩,
    ⟨0x241008, [(0x40, 64)], fun ix => match ix with | [n] => [MVL_STALE_TILES n] | _ => []⟩,
    ⟨0x241010, [(0x40, 64)], fun ix => match ix with | [n] => [MVL_TX_PKT n] | _ => []⟩,
    ⟨0x241014, [(0x40, 64)], fun ix => match ix with | [n] => [MVL_RESENT n] | _ => []⟩,
    ⟨0x241018, [(0x40, 64)], fun ix => match ix with | [n] => [MVL_NK_RX n] | _ => []⟩,
    ⟨0x24101C, [(0x40, 64)], fun ix => match ix with | [n] => [MVL_NK_IGNORED n] | _ => []⟩,
    ⟨0x241020, [(0x40, 64)], fun ix => match ix with | [n] => [MVL_ACK_TIMEOUT n] | _ => []⟩,
    ⟨0x241024, [(0x40, 64)], fun ix => match ix with | [n] => [MVL_EXHAUSTED n] | _ => []⟩,
    ⟨0x241028, [(0x40, 64)], fun ix => match ix with | [n] => [MVL_CANCELLED n] | _ => []⟩,
    ⟨0x24102C, [(0x40, 64)], fun ix => match ix with | [n] => [MVL_SEG_EPISODES n] | _ => []⟩,
    ⟨0x241030, [(0x40, 64)], fun ix => match ix with | [n] => [MVL_ECC_CORR n] | _ => []⟩,
    ⟨0x241034, [(0x40, 64)], fun ix => match ix with | [n] => [MVL_RX_BAD n] | _ => []⟩,
    ⟨0x241038, [(0x40, 64)], fun ix => match ix with | [n] => [MVL_BLOCK_ERR n] | _ => []⟩,
    ⟨0x24103C, [(0x40, 64)], fun ix => match ix with | [n] => [MVL_VR_REFUSED n] | _ => []⟩ ]

/-- The register rows of block LNE. -/
def rowsLNE : List RegRow :=
  [ ⟨0x300000, [(0x10000, 8)], fun ix => match ix with | [n] => [LNE_OCT_CTRL_AUTO_REC n, LNE_OCT_CTRL_SSC_EN n, LNE_OCT_CTRL_MODE_REQ n] | _ => []⟩,
    ⟨0x300004, [(0x10000, 8)], fun ix => match ix with | [n] => [LNE_OCT_STATUS_BAND n, LNE_OCT_STATUS_EASING n, LNE_OCT_STATUS_CHANGING n, LNE_OCT_STATUS_MODE n] | _ => []⟩,
    ⟨0x300008, [(0x10000, 8)], fun ix => match ix with | [n] => [LNE_TRAIN_TRAIN_REF n, LNE_TRAIN_TRAIN_FWD n] | _ => []⟩,
    ⟨0x300010, [(0x10000, 8), (0x4, 4)], fun ix => match ix with | [n, i] => [LNE_PRESET_RX_CTLE n i, LNE_PRESET_TX_SWING n i, LNE_PRESET_TX_POST n i, LNE_PRESET_TX_PRE n i] | _ => []⟩,
    ⟨0x300080, [(0x10000, 8)], fun ix => match ix with | [n] => [LNE_MODE_CHANGES n] | _ => []⟩,
    ⟨0x300084, [(0x10000, 8)], fun ix => match ix with | [n] => [LNE_AUTO_RECOVERIES n] | _ => []⟩,
    ⟨0x300100, [(0x10000, 8), (0x40, 8)], fun ix => match ix with | [n, i] => [LNE_LCTRL_TEST n i, LNE_LCTRL_PRBS n i, LNE_LCTRL_GO n i] | _ => []⟩,
    ⟨0x300104, [(0x10000, 8), (0x40, 8)], fun ix => match ix with | [n, i] => [LNE_RX_TAPS_PHASE n i, LNE_RX_TAPS_THR n i, LNE_RX_TAPS_PHASE_TGT n i, LNE_RX_TAPS_THR_TGT n i] | _ => []⟩,
    ⟨0x300108, [(0x10000, 8), (0x40, 8)], fun ix => match ix with | [n, i] => [LNE_CAL_STATUS_RUNS n i, LNE_CAL_STATUS_EYE_W n i, LNE_CAL_STATUS_EYE_H n i, LNE_CAL_STATUS_EASING n i, LNE_CAL_STATUS_RESULT n i] | _ => []⟩,
    ⟨0x30010C, [(0x10000, 8), (0x40, 8)], fun ix => match ix with | [n, i] => [LNE_RESIDUAL n i] | _ => []⟩,
    ⟨0x300110, [(0x10000, 8), (0x40, 8)], fun ix => match ix with | [n, i] => [LNE_RX_OVR_OVR_EN n i, LNE_RX_OVR_OVR_PHASE n i, LNE_RX_OVR_OVR_THR n i] | _ => []⟩,
    ⟨0x300120, [(0x10000, 8), (0x40, 8)], fun ix => match ix with | [n, i] => [LNE_PAT_ERR n i] | _ => []⟩,
    ⟨0x300124, [(0x10000, 8), (0x40, 8)], fun ix => match ix with | [n, i] => [LNE_PAT_MBITS n i] | _ => []⟩,
    ⟨0x300128, [(0x10000, 8), (0x40, 8)], fun ix => match ix with | [n, i] => [LNE_MODE_DROP n i] | _ => []⟩,
    ⟨0x30012C, [(0x10000, 8), (0x40, 8)], fun ix => match ix with | [n, i] => [LNE_CAL_BAD n i] | _ => []⟩ ]

/-- The register rows of block PAIR. -/
def rowsPAIR : List RegRow :=
  [ ⟨0x380000, [], fun _ => [PAIR_CTRL_TEST, PAIR_CTRL_PRBS]⟩,
    ⟨0x380004, [], fun _ => [PAIR_STATUS_MAP, PAIR_STATUS_ALIGNED, PAIR_STATUS_UP]⟩,
    ⟨0x380008, [], fun _ => [PAIR_SKEW]⟩,
    ⟨0x380080, [], fun _ => [PAIR_CODE_ERR]⟩,
    ⟨0x380084, [], fun _ => [PAIR_DISP_ERR]⟩,
    ⟨0x380088, [], fun _ => [PAIR_REALIGN]⟩,
    ⟨0x38008C, [], fun _ => [PAIR_COMP_ADD]⟩,
    ⟨0x380090, [], fun _ => [PAIR_COMP_DROP]⟩,
    ⟨0x380094, [], fun _ => [PAIR_LINK_DOWN]⟩,
    ⟨0x380098, [], fun _ => [PAIR_PAT_ERR]⟩ ]

/-- The register rows of block HBX. -/
def rowsHBX : List RegRow :=
  [ ⟨0x400000, [], fun _ => [HBX_CTRL_EN]⟩,
    ⟨0x400004, [], fun _ => [HBX_CFG_BIFURC, HBX_CFG_DRIVES]⟩,
    ⟨0x400008, [], fun _ => [HBX_CMD_TO]⟩,
    ⟨0x40000C, [], fun _ => [HBX_COMMIT_US]⟩,
    ⟨0x400010, [], fun _ => [HBX_STG_BASE_LO]⟩,
    ⟨0x400014, [], fun _ => [HBX_STG_BASE_HI]⟩,
    ⟨0x400018, [], fun _ => [HBX_STG_MIB]⟩,
    ⟨0x400020, [], fun _ => [HBX_STATUS_FAULT_STREAMS, HBX_STATUS_TAGS_USED, HBX_STATUS_FW_ACT, HBX_STATUS_PFAIL, HBX_STATUS_MOUNTED]⟩,
    ⟨0x400024, [], fun _ => [HBX_STG_USED]⟩,
    ⟨0x400040, [(0x4, 4)], fun ix => match ix with | [n] => [HBX_DRIVE_WIDTH n, HBX_DRIVE_STATE n] | _ => []⟩,
    ⟨0x400100, [(0x40, 16)], fun ix => match ix with | [n] => [HBX_CL_SQ_BASE_LO n] | _ => []⟩,
    ⟨0x400104, [(0x40, 16)], fun ix => match ix with | [n] => [HBX_CL_SQ_BASE_HI n] | _ => []⟩,
    ⟨0x400108, [(0x40, 16)], fun ix => match ix with | [n] => [HBX_CL_SQ_SIZE n, HBX_CL_SQ_TAIL n] | _ => []⟩,
    ⟨0x40010C, [(0x40, 16)], fun ix => match ix with | [n] => [HBX_CL_SQ_HEAD n] | _ => []⟩,
    ⟨0x400110, [(0x40, 16)], fun ix => match ix with | [n] => [HBX_CL_CQ_BASE_LO n] | _ => []⟩,
    ⟨0x400114, [(0x40, 16)], fun ix => match ix with | [n] => [HBX_CL_CQ_BASE_HI n] | _ => []⟩,
    ⟨0x400118, [(0x40, 16)], fun ix => match ix with | [n] => [HBX_CL_CQ_SIZE n, HBX_CL_CQ_HEAD n] | _ => []⟩,
    ⟨0x40011C, [(0x40, 16)], fun ix => match ix with | [n] => [HBX_CL_ABORT_CID n] | _ => []⟩,
    ⟨0x400120, [(0x40, 16)], fun ix => match ix with | [n] => [HBX_CL_ABORT_STATUS n] | _ => []⟩,
    ⟨0x400124, [(0x40, 16)], fun ix => match ix with | [n] => [HBX_CL_RESET_RESET n] | _ => []⟩,
    ⟨0x400800, [], fun _ => [HBX_STG_FULL]⟩,
    ⟨0x400804, [], fun _ => [HBX_CQ_FULL]⟩,
    ⟨0x400808, [], fun _ => [HBX_BATCHES]⟩,
    ⟨0x40080C, [], fun _ => [HBX_REWRITES]⟩,
    ⟨0x400810, [], fun _ => [HBX_TIMEOUTS]⟩,
    ⟨0x400814, [], fun _ => [HBX_ABORTS]⟩,
    ⟨0x400818, [], fun _ => [HBX_TOO_LATE]⟩,
    ⟨0x40081C, [], fun _ => [HBX_MEDIA_ERR]⟩,
    ⟨0x400820, [], fun _ => [HBX_CTRL_RESETS]⟩,
    ⟨0x400824, [], fun _ => [HBX_POWER_FAILS]⟩ ]

/-- The register rows of block FUL. -/
def rowsFUL : List RegRow :=
  [ ⟨0x410000, [], fun _ => [FUL_CTRL_EN]⟩,
    ⟨0x410004, [], fun _ => [FUL_STATUS_LULLING, FUL_STATUS_BUSY]⟩,
    ⟨0x410100, [(0x40, 8)], fun ix => match ix with | [n] => [FUL_RING_SQ_BASE_LO n] | _ => []⟩,
    ⟨0x410104, [(0x40, 8)], fun ix => match ix with | [n] => [FUL_RING_SQ_BASE_HI n] | _ => []⟩,
    ⟨0x410108, [(0x40, 8)], fun ix => match ix with | [n] => [FUL_RING_SQ_SIZE n, FUL_RING_SQ_TAIL n] | _ => []⟩,
    ⟨0x41010C, [(0x40, 8)], fun ix => match ix with | [n] => [FUL_RING_SQ_HEAD n] | _ => []⟩,
    ⟨0x410110, [(0x40, 8)], fun ix => match ix with | [n] => [FUL_RING_CQ_BASE_LO n] | _ => []⟩,
    ⟨0x410114, [(0x40, 8)], fun ix => match ix with | [n] => [FUL_RING_CQ_BASE_HI n] | _ => []⟩,
    ⟨0x410118, [(0x40, 8)], fun ix => match ix with | [n] => [FUL_RING_CQ_SIZE n, FUL_RING_CQ_HEAD n] | _ => []⟩,
    ⟨0x41011C, [(0x40, 8)], fun ix => match ix with | [n] => [FUL_RING_RESET_RESET n] | _ => []⟩,
    ⟨0x410120, [(0x40, 8)], fun ix => match ix with | [n] => [FUL_RING_STATE_ENGINE n, FUL_RING_STATE_PARKED n, FUL_RING_STATE_OPEN n, FUL_RING_STATE_BUSY n] | _ => []⟩,
    ⟨0x410800, [], fun _ => [FUL_BLK_COMP]⟩,
    ⟨0x410804, [], fun _ => [FUL_BLK_STORED]⟩,
    ⟨0x410808, [], fun _ => [FUL_BLK_DECOMP]⟩,
    ⟨0x41080C, [], fun _ => [FUL_BLK_BAD]⟩,
    ⟨0x410810, [], fun _ => [FUL_OUT_OF_SPACE]⟩,
    ⟨0x410814, [], fun _ => [FUL_DRAM_ERR]⟩,
    ⟨0x410818, [], fun _ => [FUL_LULLS]⟩ ]

/-- The register rows of block HVC. -/
def rowsHVC : List RegRow :=
  [ ⟨0x420000, [], fun _ => [HVC_CTRL_EN]⟩,
    ⟨0x420004, [], fun _ => [HVC_LOAD_DEC_LIVE, HVC_LOAD_ENC_LIVE]⟩,
    ⟨0x420008, [], fun _ => [HVC_RESTART_AT_LO]⟩,
    ⟨0x42000C, [], fun _ => [HVC_RESTART_AT_HI]⟩,
    ⟨0x420010, [], fun _ => [HVC_RESTART_ARM_ARM]⟩,
    ⟨0x421000, [(0x80, 32)], fun ix => match ix with | [n] => [HVC_S_CTRL_OPEN n, HVC_S_CTRL_CLASS n, HVC_S_CTRL_DIR n, HVC_S_CTRL_PROFILE n, HVC_S_CTRL_LEVEL_IDC n, HVC_S_CTRL_MS n, HVC_S_CTRL_FS n] | _ => []⟩,
    ⟨0x421004, [(0x80, 32)], fun ix => match ix with | [n] => [HVC_S_CMD_FLUSH n, HVC_S_CMD_CLOSE n, HVC_S_CMD_OPEN n] | _ => []⟩,
    ⟨0x421008, [(0x80, 32)], fun ix => match ix with | [n] => [HVC_S_STATUS_ERROR n, HVC_S_STATUS_MIRROR_WAIT n] | _ => []⟩,
    ⟨0x42100C, [(0x80, 32)], fun ix => match ix with | [n] => [HVC_S_PERIOD n] | _ => []⟩,
    ⟨0x421010, [(0x80, 32)], fun ix => match ix with | [n] => [HVC_S_START_LO n] | _ => []⟩,
    ⟨0x421014, [(0x80, 32)], fun ix => match ix with | [n] => [HVC_S_START_HI n] | _ => []⟩,
    ⟨0x421018, [(0x80, 32)], fun ix => match ix with | [n] => [HVC_S_BITRATE n] | _ => []⟩,
    ⟨0x42101C, [(0x80, 32)], fun ix => match ix with | [n] => [HVC_S_CAP n] | _ => []⟩,
    ⟨0x421020, [(0x80, 32)], fun ix => match ix with | [n] => [HVC_S_REFRESH_QP_MIN n, HVC_S_REFRESH_QP_MAX n, HVC_S_REFRESH_N n] | _ => []⟩,
    ⟨0x421024, [(0x80, 32)], fun ix => match ix with | [n] => [HVC_S_BUF_BASE_LO n] | _ => []⟩,
    ⟨0x421028, [(0x80, 32)], fun ix => match ix with | [n] => [HVC_S_BUF_BASE_HI n] | _ => []⟩,
    ⟨0x42102C, [(0x80, 32)], fun ix => match ix with | [n] => [HVC_S_BUF_BYTES n] | _ => []⟩,
    ⟨0x421030, [(0x80, 32)], fun ix => match ix with | [n] => [HVC_S_DEV_PTR n] | _ => []⟩,
    ⟨0x421034, [(0x80, 32)], fun ix => match ix with | [n] => [HVC_S_CLI_PTR n] | _ => []⟩,
    ⟨0x421038, [(0x80, 32)], fun ix => match ix with | [n] => [HVC_S_AU_BASE_LO n] | _ => []⟩,
    ⟨0x42103C, [(0x80, 32)], fun ix => match ix with | [n] => [HVC_S_AU_BASE_HI n] | _ => []⟩,
    ⟨0x421040, [(0x80, 32)], fun ix => match ix with | [n] => [HVC_S_AU_SIZE n] | _ => []⟩,
    ⟨0x421044, [(0x80, 32)], fun ix => match ix with | [n] => [HVC_S_AU_PTRS_AU_DEV n, HVC_S_AU_PTRS_AU_CLI n] | _ => []⟩,
    ⟨0x421048, [(0x80, 32)], fun ix => match ix with | [n] => [HVC_S_DPB_BASE_LO n] | _ => []⟩,
    ⟨0x42104C, [(0x80, 32)], fun ix => match ix with | [n] => [HVC_S_DPB_BASE_HI n] | _ => []⟩,
    ⟨0x421050, [(0x80, 32)], fun ix => match ix with | [n] => [HVC_S_DPB_BYTES n] | _ => []⟩,
    ⟨0x421060, [(0x80, 32)], fun ix => match ix with | [n] => [HVC_S_PICTURES n] | _ => []⟩,
    ⟨0x421064, [(0x80, 32)], fun ix => match ix with | [n] => [HVC_S_FALLBACK_PIC n] | _ => []⟩,
    ⟨0x421068, [(0x80, 32)], fun ix => match ix with | [n] => [HVC_S_WATCHDOG n] | _ => []⟩,
    ⟨0x42106C, [(0x80, 32)], fun ix => match ix with | [n] => [HVC_S_DROP_FULL n] | _ => []⟩,
    ⟨0x421070, [(0x80, 32)], fun ix => match ix with | [n] => [HVC_S_SRC_SKIP n] | _ => []⟩,
    ⟨0x421074, [(0x80, 32)], fun ix => match ix with | [n] => [HVC_S_CONCEALED n] | _ => []⟩,
    ⟨0x421078, [(0x80, 32)], fun ix => match ix with | [n] => [HVC_S_SPS_REFUSED n] | _ => []⟩,
    ⟨0x42107C, [(0x80, 32)], fun ix => match ix with | [n] => [HVC_S_SYNTAX_ERR n] | _ => []⟩ ]

/-- The register rows of block AUD. -/
def rowsAUD : List RegRow :=
  [ ⟨0x430000, [(0x10, 2)], fun ix => match ix with | [n] => [AUD_DOM_CTRL_MODE n, AUD_DOM_CTRL_FAMILY n, AUD_DOM_CTRL_BDIV n, AUD_DOM_CTRL_FS_EDGE n, AUD_DOM_CTRL_BCLK_INV n, AUD_DOM_CTRL_FRAME_BITS n] | _ => []⟩,
    ⟨0x430004, [(0x10, 2)], fun ix => match ix with | [n] => [AUD_DOM_FS_FS_HZ n] | _ => []⟩,
    ⟨0x430008, [(0x10, 2)], fun ix => match ix with | [n] => [AUD_DOM_STATUS_RUN n, AUD_DOM_STATUS_RATE_ERR n, AUD_DOM_STATUS_MEAS_HZ n] | _ => []⟩,
    ⟨0x430100, [(0x40, 4)], fun ix => match ix with | [n] => [AUD_IN_CTRL_EN n, AUD_IN_CTRL_DOM n, AUD_IN_CTRL_SLOTS n, AUD_IN_CTRL_WIDTH n, AUD_IN_CTRL_OFFSET n, AUD_IN_CTRL_SBITS n, AUD_IN_CTRL_DETECT_EN n, AUD_IN_CTRL_PACK n, AUD_IN_CTRL_CFG_ERR n] | _ => []⟩,
    ⟨0x430104, [(0x40, 4)], fun ix => match ix with | [n] => [AUD_IN_RING_BASE_LO n] | _ => []⟩,
    ⟨0x430108, [(0x40, 4)], fun ix => match ix with | [n] => [AUD_IN_RING_BASE_HI n] | _ => []⟩,
    ⟨0x43010C, [(0x40, 4)], fun ix => match ix with | [n] => [AUD_IN_RING_BLOCKS n] | _ => []⟩,
    ⟨0x430110, [(0x40, 4)], fun ix => match ix with | [n] => [AUD_IN_STAMP_BASE_LO n] | _ => []⟩,
    ⟨0x430114, [(0x40, 4)], fun ix => match ix with | [n] => [AUD_IN_STAMP_BASE_HI n] | _ => []⟩,
    ⟨0x430118, [(0x40, 4)], fun ix => match ix with | [n] => [AUD_IN_WR_INDEX_LO n] | _ => []⟩,
    ⟨0x43011C, [(0x40, 4)], fun ix => match ix with | [n] => [AUD_IN_WR_INDEX_HI n] | _ => []⟩,
    ⟨0x430120, [(0x40, 4)], fun ix => match ix with | [n] => [AUD_IN_NONAUDIO n] | _ => []⟩,
    ⟨0x430200, [(0x40, 4)], fun ix => match ix with | [n] => [AUD_OUT_CTRL_EN n, AUD_OUT_CTRL_DOM n, AUD_OUT_CTRL_SLOTS n, AUD_OUT_CTRL_WIDTH n, AUD_OUT_CTRL_OFFSET n, AUD_OUT_CTRL_SBITS n, AUD_OUT_CTRL_HIZ_UNUSED n, AUD_OUT_CTRL_ALIGN n, AUD_OUT_CTRL_CFG_ERR_PORT n] | _ => []⟩,
    ⟨0x430204, [(0x40, 4)], fun ix => match ix with | [n] => [AUD_OUT_CFG_ERR n] | _ => []⟩,
    ⟨0x430400, [(0x4, 128)], fun ix => match ix with | [n] => [AUD_MAP_SRC_EN n, AUD_MAP_SRC_PORT n, AUD_MAP_SRC_SLOT n, AUD_MAP_DELAY n] | _ => []⟩,
    ⟨0x430800, [(0x20, 4)], fun ix => match ix with | [n] => [AUD_GAP_FRAMES n] | _ => []⟩,
    ⟨0x430804, [(0x20, 4)], fun ix => match ix with | [n] => [AUD_SLIP n] | _ => []⟩,
    ⟨0x430808, [(0x20, 4)], fun ix => match ix with | [n] => [AUD_NONAUDIO_DET n] | _ => []⟩,
    ⟨0x43080C, [(0x20, 4)], fun ix => match ix with | [n] => [AUD_DRAM_ERR_IN n] | _ => []⟩,
    ⟨0x430880, [(0x20, 4)], fun ix => match ix with | [n] => [AUD_UNDER n] | _ => []⟩,
    ⟨0x430884, [(0x20, 4)], fun ix => match ix with | [n] => [AUD_DRAM_ERR n] | _ => []⟩ ]

/-- The register rows of block PTP. -/
def rowsPTP : List RegRow :=
  [ ⟨0x440000, [], fun _ => [PTP_CTRL_EN, PTP_CTRL_TRANSPORT, PTP_CTRL_PROFILE, PTP_CTRL_PORT_SEL, PTP_CTRL_FALLBACK_EN, PTP_CTRL_DOMAIN]⟩,
    ⟨0x440004, [], fun _ => [PTP_JUMP_NS]⟩,
    ⟨0x440008, [], fun _ => [PTP_STATUS_SERVO, PTP_STATUS_ACTIVE_PORT, PTP_STATUS_STEPS_REMOVED]⟩,
    ⟨0x44000C, [], fun _ => [PTP_OFFSET]⟩,
    ⟨0x440010, [], fun _ => [PTP_PENDING_JUMP]⟩,
    ⟨0x440014, [(0x4, 2)], fun ix => match ix with | [n] => [PTP_GM_ID n] | _ => []⟩,
    ⟨0x440020, [(0x4, 2)], fun ix => match ix with | [n] => [PTP_LAT_TX_LAT n, PTP_LAT_RX_LAT n] | _ => []⟩,
    ⟨0x440040, [], fun _ => [PTP_TSQ_STATUS_COUNT]⟩,
    ⟨0x440044, [], fun _ => [PTP_TSQ_POP_POP]⟩,
    ⟨0x440048, [], fun _ => [PTP_TSQ_INFO_SEQ_ID, PTP_TSQ_INFO_MSG_TYPE, PTP_TSQ_INFO_PORT]⟩,
    ⟨0x44004C, [], fun _ => [PTP_TSQ_SEC_LO]⟩,
    ⟨0x440050, [], fun _ => [PTP_TSQ_SEC_HI]⟩,
    ⟨0x440054, [], fun _ => [PTP_TSQ_NS]⟩,
    ⟨0x440080, [], fun _ => [PTP_TS_OVF]⟩,
    ⟨0x440084, [], fun _ => [PTP_ANNOUNCE_TO]⟩,
    ⟨0x440088, [], fun _ => [PTP_MASTER_CHANGES]⟩,
    ⟨0x44008C, [], fun _ => [PTP_JUMPS_REFUSED]⟩,
    ⟨0x440090, [], fun _ => [PTP_SYNC_RX]⟩ ]

/-- The register rows of block ETH. -/
def rowsETH : List RegRow :=
  [ ⟨0x450000, [(0x40, 2)], fun ix => match ix with | [n] => [ETH_PORT_CTRL_EN n, ETH_PORT_CTRL_SPEED n, ETH_PORT_CTRL_FEC n, ETH_PORT_CTRL_VLAN_EN n, ETH_PORT_CTRL_VID n] | _ => []⟩,
    ⟨0x450004, [(0x40, 2)], fun ix => match ix with | [n] => [ETH_PORT_STATUS_FEC_LOCK n, ETH_PORT_STATUS_BLOCK_LOCK n, ETH_PORT_STATUS_LINK n] | _ => []⟩,
    ⟨0x450100, [], fun _ => [ETH_CUE_PORT]⟩,
    ⟨0x450104, [], fun _ => [ETH_KEYS_VALID]⟩,
    ⟨0x450108, [], fun _ => [ETH_QUEUED]⟩,
    ⟨0x45010C, [], fun _ => [ETH_ARRIVAL_LO]⟩,
    ⟨0x450110, [], fun _ => [ETH_ARRIVAL_HI]⟩,
    ⟨0x450400, [(0x40, 8)], fun ix => match ix with | [n] => [ETH_STREAM_CTRL_EN n, ETH_STREAM_CTRL_SESSION n, ETH_STREAM_CTRL_IPV6 n, ETH_STREAM_CTRL_PORT n, ETH_STREAM_CTRL_DSCP n, ETH_STREAM_CTRL_PT n] | _ => []⟩,
    ⟨0x450404, [(0x40, 8), (0x4, 4)], fun ix => match ix with | [n, i] => [ETH_STREAM_DST_IP n i] | _ => []⟩,
    ⟨0x450414, [(0x40, 8)], fun ix => match ix with | [n] => [ETH_STREAM_UDP_SRC_UDP n, ETH_STREAM_UDP_DST_UDP n] | _ => []⟩,
    ⟨0x450418, [(0x40, 8)], fun ix => match ix with | [n] => [ETH_STREAM_SSRC n] | _ => []⟩,
    ⟨0x45041C, [(0x40, 8)], fun ix => match ix with | [n] => [ETH_STREAM_NEXT_SEQ n] | _ => []⟩,
    ⟨0x450420, [(0x40, 8)], fun ix => match ix with | [n] => [ETH_STREAM_PACE_MBPS n] | _ => []⟩,
    ⟨0x450424, [(0x40, 8)], fun ix => match ix with | [n] => [ETH_STREAM_MTU n] | _ => []⟩,
    ⟨0x450430, [(0x40, 8)], fun ix => match ix with | [n] => [ETH_STREAM_PKTS n] | _ => []⟩,
    ⟨0x450434, [(0x40, 8)], fun ix => match ix with | [n] => [ETH_STREAM_LATE_DROP n] | _ => []⟩,
    ⟨0x450800, [], fun _ => [ETH_RX_MSG]⟩,
    ⟨0x450804, [], fun _ => [ETH_AUTH_FAIL]⟩,
    ⟨0x450808, [], fun _ => [ETH_REPLAY_DROP]⟩,
    ⟨0x45080C, [], fun _ => [ETH_DUP_REPLY]⟩,
    ⟨0x450810, [], fun _ => [ETH_BUSY]⟩,
    ⟨0x450814, [], fun _ => [ETH_BAD_FRAME]⟩,
    ⟨0x450818, [], fun _ => [ETH_SPI_DROP]⟩,
    ⟨0x45081C, [], fun _ => [ETH_OVERSIZE]⟩ ]

/-- The register rows of block DRM. -/
def rowsDRM : List RegRow :=
  [ ⟨0x500000, [(0x10000, 4)], fun ix => match ix with | [n] => [DRM_CFG_RATE n, DRM_CFG_PKG n, DRM_CFG_ORDER n] | _ => []⟩,
    ⟨0x500004, [(0x10000, 4)], fun ix => match ix with | [n] => [DRM_ARB_AGE_US n, DRM_ARB_LIVE_RES n] | _ => []⟩,
    ⟨0x500008, [(0x10000, 4)], fun ix => match ix with | [n] => [DRM_SCRUB_HOURS n, DRM_SCRUB_EN n] | _ => []⟩,
    ⟨0x50000C, [(0x10000, 4)], fun ix => match ix with | [n] => [DRM_STATUS_TRAINED n, DRM_STATUS_SCRUBBING n, DRM_STATUS_REF_MULT n] | _ => []⟩,
    ⟨0x500010, [(0x10000, 4)], fun ix => match ix with | [n] => [DRM_UE_ADDR_LO n] | _ => []⟩,
    ⟨0x500014, [(0x10000, 4)], fun ix => match ix with | [n] => [DRM_UE_ADDR_HI n] | _ => []⟩,
    ⟨0x500018, [(0x10000, 4)], fun ix => match ix with | [n] => [DRM_HOT n] | _ => []⟩,
    ⟨0x500200, [(0x10000, 4), (0x20, 8)], fun ix => match ix with | [n, i] => [DRM_CE n i] | _ => []⟩,
    ⟨0x500204, [(0x10000, 4), (0x20, 8)], fun ix => match ix with | [n, i] => [DRM_UE n i] | _ => []⟩,
    ⟨0x500208, [(0x10000, 4), (0x20, 8)], fun ix => match ix with | [n, i] => [DRM_TIMEOUT n i] | _ => []⟩,
    ⟨0x50020C, [(0x10000, 4), (0x20, 8)], fun ix => match ix with | [n, i] => [DRM_HOT_POLLS n i] | _ => []⟩,
    ⟨0x500210, [(0x10000, 4), (0x20, 8)], fun ix => match ix with | [n, i] => [DRM_LIVE_SHORT n i] | _ => []⟩,
    ⟨0x500214, [(0x10000, 4), (0x20, 8)], fun ix => match ix with | [n, i] => [DRM_PROMOTED n i] | _ => []⟩,
    ⟨0x500600, [(0x10000, 4), (0x4, 8)], fun ix => match ix with | [n, i] => [DRM_CALR_RUNS n i, DRM_CALR_EYE_MIN n i, DRM_CALR_ERRORS n i, DRM_CALR_RESULT n i] | _ => []⟩ ]

/-- The register rows of block TBL. -/
def rowsTBL : List RegRow :=
  [ ⟨0x1000000, [], fun _ => [TBL_SEL_AUTOINC, TBL_SEL_INSTANCE, TBL_SEL_TABLE]⟩,
    ⟨0x1000004, [], fun _ => [TBL_INDEX]⟩,
    ⟨0x1000008, [], fun _ => [TBL_CMD_READ, TBL_CMD_WRITE]⟩,
    ⟨0x100000C, [], fun _ => [TBL_STATUS_ERROR, TBL_STATUS_PENDING, TBL_STATUS_LOAD_BUSY, TBL_STATUS_BUSY]⟩,
    ⟨0x1000010, [], fun _ => [TBL_INFO_GROUP, TBL_INFO_ESIZE]⟩,
    ⟨0x1000014, [], fun _ => [TBL_ENTRIES]⟩,
    ⟨0x1000020, [], fun _ => [TBL_LOAD_ADDR_LO]⟩,
    ⟨0x1000024, [], fun _ => [TBL_LOAD_ADDR_HI]⟩,
    ⟨0x1000028, [], fun _ => [TBL_LOAD_COUNT_COUNT]⟩,
    ⟨0x100002C, [], fun _ => [TBL_LOAD_GO_GO]⟩,
    ⟨0x1000030, [], fun _ => [TBL_PAGES_IN_DRAM, TBL_PAGES_FREE_ONCHIP]⟩,
    ⟨0x1000100, [(0x4, 64)], fun ix => match ix with | [n] => [TBL_DATA_D n] | _ => []⟩ ]

/-- Every register of the device (Table 2-18), by block. -/
def regRows : List RegRow :=
  rowsTOP ++ rowsCLK ++ rowsWTM ++ rowsTHM ++ rowsERR ++ rowsSNAP ++ rowsBOOT ++ rowsVEER ++ rowsCAM ++ rowsRAWP ++ rowsCLR ++ rowsCMP1 ++ rowsCMP2 ++ rowsSCN ++ rowsFLT ++ rowsMVL ++ rowsLNE ++ rowsPAIR ++ rowsHBX ++ rowsFUL ++ rowsHVC ++ rowsAUD ++ rowsPTP ++ rowsETH ++ rowsDRM ++ rowsTBL

end Sys2Proof.Machine
end

