-- ==== Sys2Proof/Machine/State.lean ====
section
/-!
DEFINITION. The state of the ZV4096: the registers, the DRAM array, every part of the device beyond them, the
reasons a command can stop, and the state right after reset.
-/

namespace Sys2Proof.Machine

/-- The device without its DRAM array and without the queue of waiting commands. -/
structure Dev where
  /-- The register file as the bus sees it: the value of each field that differs from its reset value, by bit address (R7, R10). For an RWS field this is the shadow copy (R14). -/
  regs : SMap
  /-- The copies of RWS fields that commits have taken (R91), where they differ from the reset values. -/
  comm : SMap
  /-- The live copies of RWS fields in use by their blocks (R14, R92), where they differ from the reset values. -/
  live : SMap
  /-- The device is in OFF: PORST_N low or a supply monitor holds reset (Table 1-4). -/
  off : Bool
  /-- Time passed since the state after reset, 2^-16 ns: timers run on it. -/
  now : Time
  /-- The STC minus `now`, 2^-16 ns (R64): what steps of the STC move. -/
  stcOff : Int
  /-- DRAM writes that the command in hand has made; the step performs them as the command ends, and between commands it is empty. -/
  wq : List MemOp
  /-- What has left the device: newest first. The model's own record. -/
  out : List Out
  /-- How many free values have been drawn. The model's own field (log entry 3). -/
  free : Nat
  /-- The event log. -/
  elog : LogPart
  /-- The snapshots. -/
  snap : SnapPart
  /-- Wall time. -/
  wtm : WtmPart
  /-- The line calendar. -/
  cal : CalPart
  /-- Commits. -/
  com : CommitPart
  /-- The table access port and the paged tables. -/
  tbl : TblPart
  /-- Boot. -/
  boot : BootPart
  /-- The clock monitors. -/
  clk : ClkPart
  /-- Corrected errors of each SRAM region in Table 2-4 order: the region's counter, 32 bits, saturating (R39). -/
  sram : List Nat
  /-- The pins. -/
  pins : Pins
  /-- The link fields of the tile contexts (Table 10-8); a tile that is not listed has them all 0. -/
  tiles : List TileLink
  /-- The eight camera ports and raw pipelines. -/
  cams : Vector CamPart 8
  /-- The static defect lists of the eight raw pipelines (R135). -/
  defects : Vector DefectBanks 8
  /-- The 32-byte units of the DRAM array, by address / 32, that hold an uncorrectable error (R490, R491). -/
  poison : List Nat
  /-- Colour and wall correction. -/
  clr : ClrPart
  /-- The compositor. -/
  cmp : CmpPart
  /-- Scan-out and the Felt encoder. -/
  scn : ScnPart
  /-- The tile link and the octets. -/
  link : LinkPart
  /-- Calibration. -/
  calib : CalibPart
  /-- The pairing lanes. -/
  plane : PairLanes
  /-- The 32-byte units of the DRAM array, by address / 32, whose last LIVE read has not returned in time (R219, R487). -/
  late : List Nat
  /-- The Hatbox recording store. -/
  hbx : HbxPart
  /-- The job rings of the Fuller engines. -/
  ful : Vector FRing 8
  /-- The thermal block and the lulls. -/
  thm : ThmPart
  /-- The HEVC block. -/
  hvc : HvcPart
  /-- The audio ports. -/
  aud : AudPart
  /-- The PTP servo. -/
  ptp : PtpPart
  /-- The cue protocol and the SPI target port. -/
  cue : CuePart
  /-- The DRAM controllers. -/
  dram : DramPart
  /-- The redundancy control. -/
  pair : PairPart
  deriving DecidableEq, Repr

/-- The state of the machine: the commands that wait (first in, first out), the DRAM array as (address, byte) pairs
with strictly rising addresses and no zero byte (an unlisted address reads 0, log entry 5), and the device. -/
structure State where
  pending : List Instr
  mem     : List Host.Cell
  dev     : Dev
  deriving DecidableEq, Repr

/-- Why the machine stops with a fault. -/
inductive Fault where
  /-- The WIDTH or HEIGHT of a camera port lies outside the ranges for which R104 defines its behaviour. Raised by the
  commands of a camera port's frames and lines; safe. -/
  | geometryUndefined
  deriving DecidableEq, Repr

/-- Why a command has no meaning. -/
inductive Refusal where
  /-- The command's meaning is not written. Raised by exec's arms alone; safe. -/
  | notModelled (mnemonic : String)
  deriving DecidableEq, Repr

/-- The change from OFF to BOOT has been logged (R334). -/
def LogPart.reset : LogPart := ⟨[⟨0, 0, 0, 0, 0, 0x001, 1, 0, none⟩], [], [⟨0, 43691, 0⟩]⟩
def SnapPart.reset : SnapPart := ⟨[], none, 0, false, false, [], none⟩
def WtmPart.reset : WtmPart :=
  { running := false, fresh := true, wln := 0, n := 0, t0 := 0, lineAt := 0, slewLeft := 0, slewNow := 0, epochHeld := none,
    epochUse := 0, stepped := false, stepDue := false, aligned := false, sampleDue := false, ptpValid := false,
    frefValid := false, frefEdge := none, frefMissed := 0, jump := 0 }
def CalPart.reset : CalPart := ⟨[], [], []⟩
def CommitPart.reset : CommitPart := ⟨0, 0⟩
/-- The commit groups of the tables until an image sets them (Table 3-15). -/
def TblPart.defaultGroups : List (Nat × Nat) := [(1, 2), (2, 5), (3, 4), (4, 3)]
def TblPart.reset : TblPart := ⟨[], none, TblPart.defaultGroups, 0⟩
def BootPart.reset : BootPart :=
  { tmode := false, pll := false, bank := 0, second := false, header := none, sections := [], dramCfg := none,
    trained := false, applied := false, released := 0, wdogAt := 0, yieldAt := 0, supplyIn := true, octal := false, stage := [], mapped := false }
def ClkPart.reset : ClkPart := ⟨[], none⟩
def Pins.reset : Pins :=
  { yieldN := true, calmOut := true, xspiOwnN := false, spitIrqN := true, coreVid := none, pfailN := true,
    porstN := true, strapRole := false, strapBank := false, tmode := false, testInstr := 0 }
def CamPart.reset : CamPart :=
  { vs := true, lastStart := none, lastRise := none, marks := 0, noRate := true, clkNext := false, check := none,
    feeds := false, rows := [], replFrom := none, outRows := [], taken := 0, goodBuf := 0, histAge := 0,
    restart := true, frameSeq := 0, startWln := 0, stat := none, slotDone := false, slotStart := 0,
    filled := false, inSubst := false, substDue := 0, defers := 0 }
def ClrPart.reset : ClrPart :=
  { luts := [], cur := ⟨0, 32768, [], 3, []⟩, next := ⟨0, 32768, [], 3, []⟩, received := none, before := none, target := [], fresh := [],
    reported := [], level := none, sensors := [], satWall := false, satCams := 0, clip := false }
def LayerPart.reset : LayerPart :=
  { win := [], slot := [], sel := false, settled := false, rowLead := 0, rowTime := 0, start := 0, slackLo := none, slackHi := none,
    latch := none, seq := 0, prev := none, next := none, nextSeq := 0, pend := [], gave := [], gavePrev := [] }
def CmpPart.reset : CmpPart :=
  { coefs := [], layers := Vector.replicate 16 LayerPart.reset, taps := Vector.replicate 4 ⟨0, []⟩, waiting := [], holds := [],
    bands := 0, whole := false, sig := 0, unmapped := false, above := [] }
def ScnPart.reset : ScnPart :=
  { from_ := none, run := false, codes := [], absent := [], missed := [], filled := [], open_ := [], modes := [0, 0, 0, 0],
    errMax := [0, 0], refused := none, ratio := 1 }
def Lane.reset : Lane :=
  { fifo := [], tx := 0, upTo := 0, fill := none, wait := [], within := 0, due := [], over_ := false, last := [0, 0, 0], vrs := [],
    exh := 0, enum := none, scr := 0, dscr := 0, lock := false, good := 0, errs := 0, rx := none, part := none, pause := none,
    pat := ⟨0, 0, 0, 0⟩ }
/-- An octet in idle, with the preset of band B1 in use (Table 11-8). -/
def Octet.reset : Octet :=
  { step := 0, dest := 0, goal := 0, since := 0, enum := false, mcount := 0, auto_ := false, brk := 0, preset := [10, 1, 4, 8] }
def LinkPart.reset : LinkPart :=
  { tail := false, chains := List.replicate 64 [], lanes := Vector.replicate 64 Lane.reset,
    octets := Vector.replicate 8 Octet.reset, ct := none, until_ := none, heard := [], spoke := [] }
def CalibPart.reset : CalibPart := ⟨[], [], [], [], [], List.replicate 32 (List.replicate 32 0, List.replicate 32 0), 0, false⟩
def PairLane.reset : PairLane := ⟨none, 0, 0, 0, 0, 0, 0, ⟨0, 0, 0, 0⟩⟩
def PairLanes.reset : PairLanes := ⟨Vector.replicate 4 PairLane.reset, 0⟩
def HDrive.reset : HDrive := ⟨0, 0, none, 0, none, none, [], none, false⟩
def HbxPart.reset : HbxPart :=
  { takes := [], recs := [], cmds := [], compl := [], staged := [], drives := Vector.replicate 4 HDrive.reset, rot := 0, turn := 0,
    lsn := 1, ser := 0, posted := [], skip := [], cq := Vector.replicate 16 (0, false), fw := none, hold := false, rollDue := false, recorders := [],
    namespace_ := 0, storeSet := 0 }

def ThmPart.reset : ThmPart := ⟨Vector.replicate 32 ⟨0, 0⟩, false, [], []⟩
def FRing.reset : FRing := ⟨none, [], 0, false, false⟩
def HSession.reset : HSession :=
  { open_ := false, closing := false, live := false, dec := false, fs := 0, w := 0, h := 0, n := 0, bytes := 0, buf := none, coded := 0,
    idrN := 0, name := 0, rowBits := [], pic := none, queue := [], wait := false, flush := false, dpb := [], spsOk := false, joined := false,
    recover := none, exact := none, fresh := false, shown := 0, latches := [], last := [], cvs := 0, depths := (10, 10, false) }
def HvcPart.reset : HvcPart := ⟨Vector.replicate 32 HSession.reset, Vector.replicate 2 none, Vector.replicate 2 0, []⟩
def AudPart.reset : AudPart :=
  { doms := Vector.replicate 2 ⟨none, none, 0, false, false⟩
    ins := Vector.replicate 4 ⟨none, false, 0, List.replicate 16 none, []⟩
    slots := Vector.replicate 128 ⟨none, none⟩
    blk := Vector.replicate 4 none }
def PtpPart.reset : PtpPart :=
  { masters := [], sel := none, first := true, acq := false, exch := [], twoStep := none, sync := none, req := none, seq := 0,
    reqAt := 0, granted := 0, delay := 0, good := 0, freq := 0, freqAt := 0, tsq := [], pace := Vector.replicate 8 0 }
def CuePart.reset : CuePart :=
  { keys := [], queue := [], arrival := 0, job := none, subs := [], spi := [], spiOpen := 0, sched := [], nextOps := 1, stored := [],
    buffer := 0, bufSize := 0 }
def DramPart.reset : DramPart := ⟨Vector.replicate 32 ⟨[], 0, [0, 0], 0, 0⟩, 0, List.replicate 4 (0, 0), List.replicate 4 0⟩
def PairPart.reset : PairPart :=
  { selecting := false, coldAt := 0, gaveUp := false, alone := false, liveAt := 0, refSince := none, claiming := false,
    readyAt := 0, valid := false, refusing := false, gotA := false,
    gotB := false, missA := 0, missB := 0, okA := 0, okB := 0, partner := none, equal := 0, failed := false, prep := none, barred := none, newly := [], held := (0, []), mirrorTo := none,
    outLine := none, restart := none, segs := [], given := [], back := none, heal := [], version := none, txSeq := 0, kept := [],
    rxSeq := 0, txCrc := 0xFFFFFFFF, rxCrc := 0xFFFFFFFF, based := false, baseDue := false, baseLeft := 0, cut := none, cutAt := 0, decided := [], late := [], sigOk := false, sigsOwn := [], sigsHis := [],
    mism := 0, homeAt := none }

/-- The device right after reset: PORST_N has been released and no image record has been applied (R10), the straps
and pins sampled low (log entry 2). -/
def Dev.reset : Dev where
  regs := []
  comm := []
  live := []
  off := false
  now := 0
  stcOff := 0
  wq := []
  out := []
  free := 0
  elog := LogPart.reset
  snap := SnapPart.reset
  wtm := WtmPart.reset
  cal := CalPart.reset
  com := CommitPart.reset
  tbl := TblPart.reset
  boot := BootPart.reset
  clk := ClkPart.reset
  sram := List.replicate 14 0
  pins := Pins.reset
  tiles := []
  cams := Vector.replicate 8 CamPart.reset
  defects := Vector.replicate 8 ⟨[]⟩
  poison := []
  clr := ClrPart.reset
  cmp := CmpPart.reset
  scn := ScnPart.reset
  link := LinkPart.reset
  calib := CalibPart.reset
  plane := PairLanes.reset
  late := []
  hbx := HbxPart.reset
  ful := Vector.replicate 8 FRing.reset
  thm := ThmPart.reset
  hvc := HvcPart.reset
  aud := AudPart.reset
  ptp := PtpPart.reset
  cue := CuePart.reset
  dram := DramPart.reset
  pair := PairPart.reset

/-- The machine right after reset: nothing waits, the DRAM array lists nothing, every register at its reset value. -/
def State.reset : State where
  pending := []
  mem := []
  dev := Dev.reset

end Sys2Proof.Machine
end

