-- ==== Sys2Proof/Machine/Ops.lean ====
section
/-!
DEFINITION. The named operations over the registers, the DRAM array, the STC, the event log and the outputs: every
meaning reads and writes the state through these.
-/

namespace Sys2Proof.Machine

/-! Sparse stores. -/

/-- The value listed under a key. -/
def SMap.find? : SMap → Nat → Option Nat
  | [], _ => none
  | (k, v) :: r, a => if a = k then some v else SMap.find? r a

/-- The value under a key, 0 where none is listed. -/
def SMap.get (m : SMap) (a : Nat) : Nat := (SMap.find? m a).getD 0

/-- List v under a key. -/
def SMap.put : SMap → Nat → Nat → SMap
  | [], a, v => [(a, v)]
  | (k, w) :: r, a, v =>
    if a < k then (a, v) :: (k, w) :: r else if a = k then (a, v) :: r else (k, w) :: SMap.put r a v

/-- List nothing under a key. -/
def SMap.del (m : SMap) (a : Nat) : SMap := m.filter (fun p => p.1 != a)

/-- List v under a key, or nothing where v is 0. -/
def SMap.set (m : SMap) (a v : Nat) : SMap := if v = 0 then SMap.del m a else SMap.put m a v

/-- Set the bytes from a key on. -/
def SMap.setBytes (m : SMap) : Nat → List Nat → SMap
  | _, [] => m
  | a, b :: r => SMap.setBytes (SMap.set m a b) (a + 1) r

/-- The n bytes from a key on. -/
def SMap.bytes (m : SMap) (a n : Nat) : List Nat := (List.range n).map fun i => SMap.get m (a + i)

/-! Bits, bytes and numbers. -/

/-- Bits [hi:lo] of a number (R4). -/
def bits (v hi lo : Nat) : Nat := (v >>> lo) % 2 ^ (hi + 1 - lo)

/-- Bit i of a number. -/
def bit (v i : Nat) : Bool := Nat.testBit v i

/-- A Bool as 0 or 1. -/
def b2n (b : Bool) : Nat := if b then 1 else 0

/-- v with bit i set to b. -/
def setBit (v i : Nat) (b : Bool) : Nat :=
  if Nat.testBit v i = b then v else if b then v + 2 ^ i else v - 2 ^ i

/-- v with bits [hi:lo] replaced by x. -/
def setBits (v hi lo x : Nat) : Nat :=
  v - (bits v hi lo) * 2 ^ lo + (x % 2 ^ (hi + 1 - lo)) * 2 ^ lo

/-- The bits of m that are not in v, out of the lowest w. -/
def clearBits (w v m : Nat) : Nat := Nat.land v (Nat.xor (2 ^ w - 1) (m % 2 ^ w))

/-- Two's complement reading of the lowest w bits. -/
def sext (w v : Nat) : Int :=
  let u := v % 2 ^ w
  if 2 * u < 2 ^ w then (u : Int) else (u : Int) - (2 ^ w : Nat)

/-- Two's complement coding in w bits. -/
def ofInt (w : Nat) (x : Int) : Nat := (x % (2 ^ w : Nat)).toNat

/-- x held to the range lo to hi. -/
def clampNat (x lo hi : Nat) : Nat := if x < lo then lo else if hi < x then hi else x

/-- x held to the range lo to hi. -/
def clampInt (x lo hi : Int) : Int := if x < lo then lo else if hi < x then hi else x

/-- The n lowest bytes of a number, little-endian (R5). -/
def leBytes : Nat → Nat → List Byte
  | 0, _ => []
  | n + 1, v => BitVec.ofNat 8 v :: leBytes n (v / 256)

/-- The number that bytes give, little-endian (R5). -/
def leNat : List Byte → Nat
  | [] => 0
  | b :: r => b.toNat + 256 * leNat r

/-- The n lowest bytes of a number, big-endian. -/
def beBytes (n v : Nat) : List Byte := (leBytes n v).reverse

/-- The number that bytes give, big-endian. -/
def beNat (bs : List Byte) : Nat := leNat bs.reverse

/-- n bytes of a byte string from an offset. -/
def slice (bs : List Byte) (off n : Nat) : List Byte := (bs.drop off).take n

/-- The little-endian number of n bytes at an offset. -/
def leAt (bs : List Byte) (off n : Nat) : Nat := leNat (slice bs off n)

/-- The big-endian number of n bytes at an offset. -/
def beAt (bs : List Byte) (off n : Nat) : Nat := beNat (slice bs off n)

/-- Replace element i of a list. -/
def setAt {α : Type} (l : List α) (i : Nat) (x : α) : List α := l.set i x

/-- Replace entry i of a vector; an index out of range changes nothing. -/
def setV {α : Type} {n : Nat} (l : Vector α n) (i : Nat) (x : α) : Vector α n := l.setIfInBounds i x

/-- Division rounded to the nearest integer, ties away from zero upward. -/
def divRound (a b : Nat) : Nat := (2 * a + b) / (2 * b)

/-- Division of an integer rounded to the nearest, ties upward. -/
def divRoundInt (a : Int) (b : Nat) : Int := (2 * a + b).fdiv (2 * b : Nat)

/-! Durations in the unit of Time. -/

def nanos (k : Nat) : Span := k * 65536
def micros (k : Nat) : Span := nanos (1000 * k)
def millis (k : Nat) : Span := nanos (1000000 * k)
def seconds (k : Nat) : Span := nanos (1000000000 * k)

/-- The seconds of an instant (R64). -/
def Time.sec (t : Time) : Nat := t / 65536 / 1000000000 % 2 ^ 48

/-- The nanoseconds of an instant (R64). -/
def Time.ns (t : Time) : Nat := t / 65536 % 1000000000

/-- The fractional nanoseconds of an instant (R64). -/
def Time.frac (t : Time) : Nat := t % 65536

/-! The DRAM array. -/

namespace Memory

/-- What an address reads that the list does not name (log entry 5). -/
def unlisted : Byte := 0

/-- The byte at an address. -/
def read : List Host.Cell → Nat → Byte
  | [], _ => unlisted
  | (k, v) :: r, a => if a < k then unlisted else if a = k then v else read r a

/-- Write one byte, keeping the canonical form. -/
def write : List Host.Cell → Nat → Byte → List Host.Cell
  | [], a, b => if b = unlisted then [] else [(a, b)]
  | (k, v) :: r, a, b =>
    if a < k then (if b = unlisted then (k, v) :: r else (a, b) :: (k, v) :: r)
    else if a = k then (if b = unlisted then r else (a, b) :: r)
    else (k, v) :: write r a b

/-- Write bytes from an address on. -/
def writes (m : List Host.Cell) : Nat → List Byte → List Host.Cell
  | _, [] => m
  | a, b :: r => writes (write m a b) (a + 1) r

/-- Set a range to 0. -/
def clear (m : List Host.Cell) (a len : Nat) : List Host.Cell :=
  m.filter fun c => c.1 < a || a + len ≤ c.1

/-- The n bytes from an address on. -/
def bytes (m : List Host.Cell) (a n : Nat) : List Byte := (List.range n).map fun i => read m (a + i)

/-- The little-endian number of n bytes at an address. -/
def leNum (m : List Host.Cell) (a n : Nat) : Nat := leNat (bytes m a n)

/-- Perform one change. -/
def apply (m : List Host.Cell) : MemOp → List Host.Cell
  | .write a bs => writes m a bs
  | .clear a len => clear m a len

/-- Perform changes in order. -/
def applyAll (m : List Host.Cell) (ops : List MemOp) : List Host.Cell := ops.foldl apply m

/-- The keys rise strictly from a bound on, and no listed byte is the unlisted one. -/
def wfFrom : Nat → List Host.Cell → Bool
  | _, [] => true
  | lo, (k, v) :: r => decide (lo ≤ k) && decide (v ≠ unlisted) && wfFrom (k + 1) r

/-- The canonical form of the DRAM array. -/
def wf (m : List Host.Cell) : Bool := wfFrom 0 m

end Memory

/-! The register file. -/

namespace Dev

/-- The value of a field as its block keeps it; of an RWS field, the shadow copy (R13, R14). -/
def rd (d : Dev) (f : Fld) : Nat := (SMap.find? d.regs f.key).getD f.reset

/-- Store a field: the value is cut to the field's width (R7). -/
def wr (d : Dev) (f : Fld) (v : Nat) : Dev :=
  { d with regs := if v % 2 ^ f.width = f.reset then SMap.del d.regs f.key else SMap.put d.regs f.key (v % 2 ^ f.width) }

/-- The live copy of an RWS field (R14). -/
def lv (d : Dev) (f : Fld) : Nat := (SMap.find? d.live f.key).getD f.reset

/-- A one-bit field as a Bool. -/
def rdb (d : Dev) (f : Fld) : Bool := d.rd f != 0

/-- The committed value of an RWS field (R91). -/
def cm (d : Dev) (f : Fld) : Nat := (SMap.find? d.comm f.key).getD f.reset

/-- The committed value of a one-bit RWS field as a Bool. -/
def cmb (d : Dev) (f : Fld) : Bool := d.cm f != 0

/-- The live copy of a one-bit field as a Bool. -/
def lvb (d : Dev) (f : Fld) : Bool := d.lv f != 0

/-- Store a Bool in a one-bit field. -/
def wrb (d : Dev) (f : Fld) (v : Bool) : Dev := d.wr f (b2n v)

/-- A saturating counter gains k (R16). -/
def addCnt (d : Dev) (f : Fld) (k : Nat) : Dev := d.wr f (Nat.min (d.rd f + k) (2 ^ f.width - 1))

/-- A saturating counter gains 1 (R16). -/
def cnt (d : Dev) (f : Fld) : Dev := d.addCnt f 1

/-- A counter that wraps gains 1 (R16). -/
def cntWrap (d : Dev) (f : Fld) : Dev := d.wr f (d.rd f + 1)

/-- Store a number in a pair of registers, low word first. -/
def wrPair (d : Dev) (lo hi : Fld) (v : Nat) : Dev := (d.wr lo v).wr hi (v / 2 ^ 32)

/-- The number in a pair of registers, low word first. -/
def rdPair (d : Dev) (lo hi : Fld) : Nat := d.rd lo + 2 ^ 32 * d.rd hi

/-- The number in a pair of live registers. -/
def lvPair (d : Dev) (lo hi : Fld) : Nat := d.lv lo + 2 ^ 32 * d.lv hi

/-! Fields with a range: a value outside it acts as the nearer limit, and reads back as written (R566). -/

/-- The width of the canvas in units of 16 px, 16 to 2,048 (R195). -/
def canvasW16 (d : Dev) : Nat := clampNat (d.rd R.CMP_CANVAS_W16) 16 2048

/-- The height of the canvas in units of 16 px, 4 to 1,024 (R195). -/
def canvasH16 (d : Dev) : Nat := clampNat (d.rd R.CMP_CANVAS_H16) 4 1024

/-- The display offset in wall lines, 16 to 4,095 (R281). -/
def ofs (d : Dev) : Nat := Nat.max 16 (d.lv R.MVL_DISP_OFS)

/-- The deadline margin in wall lines, 2 to OFS - 8 (R281). -/
def margin (d : Dev) : Nat := clampNat (d.lv R.MVL_DISP_MARGIN) 2 (d.ofs - 8)

/-- Places of a Hatbox client's submission ring, 2 to 65,535 (R378). -/
def sqSize (d : Dev) (c : Nat) : Nat := Nat.max 2 (d.rd (R.HBX_CL_SQ_SIZE c))

/-- Places of a Hatbox client's completion ring, 2 to 65,535 (R379). -/
def cqSize (d : Dev) (c : Nat) : Nat := Nat.max 2 (d.rd (R.HBX_CL_CQ_SIZE c))

/-- Places of a Fuller job ring, 2 to 65,535 (R405). -/
def fulSqSize (d : Dev) (r : Nat) : Nat := Nat.max 2 (d.rd (R.FUL_RING_SQ_SIZE r))

/-- Places of a Fuller completion ring, 2 to 65,535 (R405). -/
def fulCqSize (d : Dev) (r : Nat) : Nat := Nat.max 2 (d.rd (R.FUL_RING_CQ_SIZE r))

/-- The bit clocks of an audio domain's frame, 32 to 1,024 (R454). -/
def frameBits (d : Dev) (k : Nat) : Nat := clampNat (d.rd (R.AUD_DOM_CTRL_FRAME_BITS k)) 32 1024

/-- The blocks of an audio input port's ring, 4 to 65,535 (R446). -/
def ringBlocks (d : Dev) (p : Nat) : Nat := Nat.max 4 (d.lv (R.AUD_IN_RING_BLOCKS p))

/-- The overlap of a layer's gang in columns, 0 to 256 (R212). -/
def gangOvl (d : Dev) (i : Nat) : Nat := Nat.min 256 (d.lv (R.CMP_LAYER_GANG_OVL i))

/-- The pipeline 0 to 7 or the tap 0 to 3 that writes a frame store (Table 7-8). -/
def fsWidx (d : Dev) (j : Nat) : Nat := Nat.min (if d.lv (R.CMP_FS_CTRL_WRITER j) = 2 then 3 else 7) (d.lv (R.CMP_FS_CTRL_WIDX j))

/-! Outputs, DRAM writes, free values, time. -/

/-- Something leaves the device. -/
def emit (d : Dev) (o : Out) : Dev := { d with out := o :: d.out }


/-- The command sets a range of DRAM to 0. -/
def memClear (d : Dev) (a len : Nat) : Dev := { d with wq := d.wq ++ [.clear a len] }

/-- The free value that the next draw of a kind gives (log entry 3). -/
def freeVal (d : Dev) (kind : Nat) : Nat := Config.freeValue kind d.free

/-- A free value has been drawn. -/
def drawn (d : Dev) : Dev := { d with free := d.free + 1 }

/-- The STC (R64). -/
def stc (d : Dev) : Time := ((d.now : Int) + d.stcOff).toNat

/-- Time reaches an instant, unless it has passed it. -/
def upTo (d : Dev) (t : Time) : Dev := { d with now := Nat.max d.now t }

/-- Time passes. -/
def pass (d : Dev) (dt : Span) : Dev := { d with now := d.now + dt }

/-! The device state (R30, R31). -/

/-- The code of TOP.STATE.STATE (Table 1-5). -/
def stateCode : DevState → Nat
  | .off => 0 | .boot => 1 | .cold => 2 | .warm => 3 | .live => 4 | .yielded => 5 | .safe => 6

/-- The present state (Table 1-4). -/
def state (d : Dev) : DevState :=
  if d.off then .off else
  match d.rd R.TOP_STATE with
  | 1 => .boot | 2 => .cold | 3 => .warm | 4 => .live | 5 => .yielded | _ => .safe

/-- The device is in LIVE, or in WARM. -/
def liveOrWarm (d : Dev) : Bool := d.state = .live || d.state = .warm

/-- The device is in COLD, WARM or LIVE. -/
def inService (d : Dev) : Bool := d.state = .cold || d.state = .warm || d.state = .live

/-! The event log (R524 to R526). -/

/-- One FAB cycle, rounded to the unit of Time (1.5 GHz). -/
def fabCycle : Span := 43691

/-- Replace or add a log source. -/
def putSource (l : List LogSource) (x : LogSource) : List LogSource :=
  x :: l.filter fun y => y.source != x.source

/-- An entry arises at a source: ERR takes one entry of a source per FAB cycle, four can wait, a fifth is dropped
(R525, R526). -/
def logEntry (d : Dev) (e : LogEntry) : Dev :=
  let src := (d.elog.sources.find? fun x => x.source = e.source).getD ⟨e.source, 0, 0⟩
  if d.now + 4 * fabCycle ≤ src.free then
    { d with elog := { d.elog with sources := putSource d.elog.sources { src with gap := src.gap + 1 } } }.cnt R.ERR_DROPPED
  else
    let gapEntry : List LogEntry :=
      if src.gap = 0 then [] else [⟨e.stamp, d.now, e.source, e.inst, 3, 0x01F, src.gap % 2 ^ 32, 0, none⟩]
    let start := Nat.max src.free d.now
    { d with elog := { d.elog with
        held := d.elog.held ++ gapEntry ++ [e]
        sources := putSource d.elog.sources ⟨e.source, start + fabCycle, 0⟩ } }

/-- Write an event log entry stamped now. -/
def log (d : Dev) (source inst cls code detail : Nat) (episode : Nat := 0) (note : Option LogNote := none) : Dev :=
  d.logEntry ⟨d.stc, d.now, source, inst, cls, code, detail % 2 ^ 32, episode, note⟩

/-- The state changes: STATE and CHANGES in one update, and a STATE entry (R31, R334). A change to the present
state is none. -/
def setState (d : Dev) (st : DevState) : Dev :=
  if d.state = st then d else
  let old := d.rd R.TOP_STATE
  let d := (d.wr R.TOP_STATE (stateCode st)).cntWrap R.TOP_STATE_CHANGES
  d.log 0x00 0 0 0x001 (stateCode st + 16 * old)

/-- SPLIT changes; it counts as no change of state. -/
def setSplit (d : Dev) (v : Bool) : Dev := d.wrb R.TOP_STATE_SPLIT v

/-! The DRAM array as the controllers see it (chapter 18). -/

/-- The usable capacity C in bytes (R481, R482). -/
def dramC (d : Dev) : Nat :=
  (match d.rd (R.DRM_CFG_PKG 0) with
    | 0 => 30
    | 1 => 60
    | _ => 120) * 2 ^ 30

/-- Three exclusive-OR folds of a granule number (Table 18-1). -/
def fold3 (u k : Nat) : Nat := Nat.xor (Nat.xor u (u >>> k)) (u >>> (2 * k))

/-- The global channel and the channel address of a device address (R483). -/
def dramPlace (d : Dev) (a : Nat) : Nat × Nat :=
  let c := d.dramC
  let spread (g : Nat) : Nat × Nat := (fold3 (a / g) 5 % 32, a / g / 32 * g + a % g)
  match d.rd (R.DRM_CFG_ORDER 0) with
  | 0 => spread 256
  | 1 => spread 2048
  | 2 =>
    let v := a % (c / 4) / 256
    (8 * (a / (c / 4)) + fold3 v 3 % 8, v / 8 * 256 + a % 256)
  | _ => (a / (c / 32), a % (c / 32))

/-- A read of a unit by a requester of a class finds an uncorrectable error (R491). -/
def dramUe (d : Dev) (unit : Nat) (cls : TrafficClass := .bulk) : Dev :=
  let ch := (d.dramPlace (32 * unit)).1
  let d := (d.cnt (R.DRM_UE (ch / 8) (ch % 8))).wrPair (R.DRM_UE_ADDR_LO (ch / 8)) (R.DRM_UE_ADDR_HI (ch / 8)) (32 * unit)
  d.log (0x50 + ch / 8) ch 3 0x00B (unit % 2 ^ 32) 0 (some (.requester cls))

/-- A read of a range meets an uncorrectable DRAM error, its last read timed out, or it reaches beyond the usable capacity and ends with an
error response (R482, R487, R491). -/
def unreadable (d : Dev) (a n : Nat) : Bool :=
  decide (0 < n) && (decide (d.dramC < a + n) || (d.poison ++ d.late).any fun u => decide (a / 32 ≤ u) && decide (u ≤ (a + n - 1) / 32))

/-- A requester of a class reads a range that it cannot have: each uncorrectable error is reported (R491), and an access at or beyond the
usable capacity is logged (R482). A time-out has been logged as it came (R487). -/
def reportRead (d : Dev) (a n : Nat) (cls : TrafficClass := .bulk) : Dev :=
  let d := (d.poison.filter fun u => decide (a / 32 ≤ u) && decide (u ≤ (a + n - 1) / 32)).foldl (fun d u => d.dramUe u cls) d
  if d.dramC < a + n then d.log 0x50 0 4 0x005 ((Nat.max a d.dramC) % 65536) else d

/-- The bytes of a write that fall into one unit of 32 bytes, with their address. -/
def unitPart (a : Nat) (bs : List Byte) (u : Nat) : Nat × List Byte :=
  let lo := Nat.max a (32 * u)
  (lo, (bs.drop (lo - a)).take (32 * u + 32 - lo))

/-- The command writes bytes to DRAM. Of units that hold an uncorrectable error, one that is written whole takes the data
and loses the error, and one that is written in part keeps its content (R492). -/
def memWriteIn (d : Dev) (a : Nat) (bs : List Byte) (cls : TrafficClass) : Dev :=
  let hit := d.poison.filter fun u => decide (a < 32 * u + 32) && decide (32 * u < a + bs.length)
  if hit = [] then { d with wq := d.wq ++ [.write a bs] } else
  let part := hit.filter fun u => decide (32 * u < a) || decide (a + bs.length < 32 * u + 32)
  let us := (List.range (bs.length / 32 + 2)).map (a / 32 + ·)
  let ops := (us.filter fun u => !part.contains u).filterMap fun u =>
    let p := unitPart a bs u
    if p.2 = [] then none else some (MemOp.write p.1 p.2)
  let d := { d with wq := d.wq ++ ops, poison := d.poison.filter fun u => !(hit.contains u && !part.contains u) }
  part.foldl (fun d u => d.dramUe u cls) d

/-- A write by a requester of a class. What lies at or beyond the usable capacity ends with an error response and an event log entry, and
changes nothing (R482). -/
def memWrite (d : Dev) (a : Nat) (bs : List Byte) (cls : TrafficClass := .bulk) : Dev :=
  if a + bs.length ≤ d.dramC then d.memWriteIn a bs cls else
  let d := d.log 0x50 0 4 0x005 ((Nat.max a d.dramC) % 65536 + 65536)
  if d.dramC ≤ a then d else d.memWriteIn a (bs.take (d.dramC - a)) cls

end Dev

/-! Running a command. -/

/-- A command's effect on the device, given the DRAM array: the array takes the command's DRAM writes as it ends, and
the queue is left alone. -/
def settle (s : State) (d : Dev) : State :=
  { s with mem := Memory.applyAll s.mem d.wq, dev := { d with wq := [] } }

/-- Run a command's effect to its end. In OFF the device does nothing (Table 1-4, log entry 7). -/
def run (s : State) (f : List Host.Cell → Dev → Dev) : Host.Outcome State Fault Refusal :=
  if s.dev.off then .next s else .next (settle s (f s.mem { s.dev with wq := [] }))

/-- Run a command of an engine: the engines stand still in YIELDED (R342). -/
def runEngine (s : State) (f : List Host.Cell → Dev → Dev) : Host.Outcome State Fault Refusal :=
  if s.dev.state = .yielded then .next s else run s f

/-- Run a command that acts in OFF as well. -/
def runAny (s : State) (f : List Host.Cell → Dev → Dev) : Host.Outcome State Fault Refusal :=
  .next (settle s (f s.mem { s.dev with wq := [] }))

end Sys2Proof.Machine
end

