-- ==== Sys2Proof/Machine/Digest.lean ====
section
/-!
DEFINITION. Check words and message digests: CRC-32C (R105), CRC-16 as the link uses it, SHA-256 and HMAC-SHA-256
(R467).
-/

namespace Sys2Proof.Machine

/-- k steps of a reflected CRC register. -/
def crcShift (poly : Nat) : Nat → Nat → Nat
  | 0, r => r
  | k + 1, r => crcShift poly k (if r % 2 = 1 then Nat.xor (r / 2) poly else r / 2)

/-- A reflected CRC register after one byte. -/
def crcByte (poly r : Nat) (b : Byte) : Nat := crcShift poly 8 (Nat.xor r b.toNat)

/-- CRC-32C: reflected polynomial 0x82F63B78, initial value and final XOR 0xFFFFFFFF (R105). -/
def crc32c (bs : List Byte) : Nat :=
  Nat.xor (bs.foldl (crcByte 0x82F63B78) 0xFFFFFFFF) 0xFFFFFFFF

/-- k steps of a CRC register of width w that takes the highest bit first. -/
def crcShiftMsb (w poly : Nat) : Nat → Nat → Nat
  | 0, r => r
  | k + 1, r =>
    crcShiftMsb w poly k (if Nat.testBit r (w - 1) then Nat.xor (2 * r % 2 ^ w) poly else 2 * r % 2 ^ w)

/-- A CRC of width w over bytes, highest bit first. -/
def crcMsb (w poly init : Nat) (bs : List Byte) : Nat :=
  bs.foldl (fun r b => crcShiftMsb w poly 8 (Nat.xor r (b.toNat * 2 ^ (w - 8)))) init

/-! SHA-256 (FIPS 180-4), which R467 names. Its constants are the first 32 bits of the fractional parts of roots of primes. -/

/-- The first 64 primes. -/
def smallPrimes : List Nat :=
  [2, 3, 5, 7, 11, 13, 17, 19, 23, 29, 31, 37, 41, 43, 47, 53, 59, 61, 67, 71, 73, 79, 83, 89, 97, 101, 103, 107, 109, 113, 127, 131] ++
  [137, 139, 149, 151, 157, 163, 167, 173, 179, 181, 191, 193, 197, 199, 211, 223, 227, 229, 233, 239, 241, 251, 257, 263, 269, 271, 277,
   281, 283, 293, 307, 311]

/-- The largest number on from r, by the bits below bit b, whose k-th power is at most n. -/
def powRoot (k n : Nat) : Nat → Nat → Nat
  | 0, r => r
  | b + 1, r => powRoot k n b (if (r + 2 ^ b) ^ k ≤ n then r + 2 ^ b else r)

/-- The first 32 bits of the fractional part of the k-th root of p. -/
def rootWord (k p : Nat) : Nat := powRoot k (p * 2 ^ (32 * k)) 36 0 % 2 ^ 32

/-- The exclusive or of a word turned right by some numbers of bits. -/
def turns (x : Nat) (ks : List Nat) : Nat := ks.foldl (fun n k => Nat.xor n ((x + x * 2 ^ 32) / 2 ^ k % 2 ^ 32)) 0

/-- The word of the message schedule after sixteen others, given newest first. -/
def nextWord (w : List Nat) : Nat :=
  let old := w.getD 14 0
  let new := w.getD 1 0
  (w.getD 15 0 + Nat.xor (turns old [7, 18]) (old / 8) + w.getD 6 0 + Nat.xor (turns new [17, 19]) (new / 1024)) % 2 ^ 32

/-- The eight working words after a round with a word of the schedule and its constant: all move on by one place, the first and the
fifth take what the round adds. -/
def shaRound (v : List Nat) (add : Nat) : List Nat :=
  let at_ := fun (i : Nat) => v.getD i 0
  let choice := Nat.xor (at_ 6) (Nat.land (at_ 4) (Nat.xor (at_ 5) (at_ 6)))
  let most := Nat.lor (Nat.land (at_ 0) (at_ 1)) (Nat.land (at_ 2) (Nat.lor (at_ 0) (at_ 1)))
  let low := at_ 7 + turns (at_ 4) [6, 11, 25] + choice + add
  (((low + turns (at_ 0) [2, 13, 22] + most) % 2 ^ 32 :: v).take 8).set 4 ((at_ 3 + low) % 2 ^ 32)

/-- Rounds over primes: `w` holds the last sixteen words of the schedule, newest first, the oldest of which the round uses. -/
def shaRounds : List Nat → List Nat → List Nat → List Nat
  | [], _, v => v
  | p :: ps, w, v => shaRounds ps ((nextWord w :: w).take 16) (shaRound v (rootWord 3 p + w.getD 15 0))

/-- A block of 64 bytes goes into a digest of eight words. -/
def shaBlock (h : List Nat) (blk : List Byte) : List Nat :=
  let v := shaRounds smallPrimes ((List.range 16).map fun i => beAt blk (60 - 4 * i) 4) h
  (List.range 8).map fun i => (h.getD i 0 + v.getD i 0) % 2 ^ 32

/-- The 64-byte pieces of a string, of at most n. -/
def pieces64 : Nat → List Byte → List (List Byte)
  | 0, _ => []
  | n + 1, bs => if bs = [] then [] else bs.take 64 :: pieces64 n (bs.drop 64)

/-- SHA-256 of a byte string. -/
def sha256 (bs : List Byte) : List Byte :=
  let whole := bs ++ 0x80 :: List.replicate ((119 - bs.length % 64) % 64) 0 ++ beBytes 8 (8 * bs.length)
  ((pieces64 whole.length whole).foldl shaBlock ((smallPrimes.take 8).map (rootWord 2))).flatMap (beBytes 4)

/-- HMAC-SHA-256 under a key of at most 64 bytes. -/
def hmacSha256 (key msg : List Byte) : List Byte :=
  let k := key ++ List.replicate (64 - key.length) 0
  let x (c : Byte) := k.map fun b => b ^^^ c
  sha256 (x 0x5C ++ sha256 (x 0x36 ++ msg))

end Sys2Proof.Machine
end

