-- ==== Sys2Proof/Machine/Flags.lean ====
section
/-!
DEFINITION. Status flags and their event log entries (R530, R534, R570), the fields that a register shows from state
held elsewhere, and the field tables of the register map.
-/

namespace Sys2Proof.Machine

/-! The register map as a function of the address. -/

/-- The indices that a byte offset has under strides and counts, longest stride first, with what is left over. -/
def splitIndex : List (Nat × Nat) → Nat → Option (List Nat × Nat)
  | [], off => some ([], off)
  | (st, n) :: r, off =>
    let i := off / st
    if i < n then
      match splitIndex r (off - i * st) with
      | some (ix, left) => some (i :: ix, left)
      | none => none
    else none

/-- The fields of a row's register at an address. -/
def RegRow.at (r : RegRow) (addr : Nat) : Option (List Fld) :=
  if addr < r.base then none else
  match splitIndex r.dims (addr - r.base) with
  | some (ix, left) => if left = 0 then some (r.flds ix) else none
  | none => none

/-- The fields of the register at an address, if a register stands there (R7, R8). -/
def regAt (addr : Nat) : Option (List Fld) := regRows.findSome? fun r => r.at addr

/-- The byte address of the register that holds a field. -/
def Fld.addr (f : Fld) : Nat := f.key / 32 * 4

/-- The lowest bit of a field in its register. -/
def Fld.lo (f : Fld) : Nat := f.key % 32

/-- The SOURCE code of the block whose window holds an address (Table 21-1). -/
def sourceOf (addr : Nat) : Nat := if addr / 65536 = 0x100 then 0xF0 else addr / 65536 % 256

/-- The instance of a block with several windows, 0 for a single block (R11; log entry 6). -/
def instOf (addr : Nat) : Nat :=
  let w := addr / 65536
  if 0x10 ≤ w && w < 0x20 then w % 8 else if 0x30 ≤ w && w < 0x38 then w % 8
  else if 0x50 ≤ w && w < 0x54 then w % 4 else 0

namespace Dev

/-- Set or clear a status flag that carries FLAG entries: a change is logged with the class given when it sets, and,
where its clearing is logged, as an episode with class 0 when it clears (R530, R534, R570). -/
def flag (d : Dev) (inst : Nat) (f : Fld) (cls : Nat) (logClear v : Bool) : Dev :=
  if d.rdb f = v then d else
  let d := d.wrb f v
  let src := sourceOf f.addr
  let detail := f.addr % 65536 + 65536 * f.lo + 16777216 * b2n v
  if v then d.log src inst cls 0x006 detail (if logClear then 1 else 0)
  else if logClear then d.log src inst 0 0x006 detail 2 else d

/-- As `flag`, for one bit of a field that holds several flags. -/
def flagBit (d : Dev) (inst : Nat) (f : Fld) (i cls : Nat) (logClear v : Bool) : Dev :=
  if bit (d.rd f) i = v then d else
  let d := d.wr f (setBit (d.rd f) i v)
  let src := sourceOf f.addr
  let detail := f.addr % 65536 + 65536 * (f.lo + i) + 16777216 * b2n v
  if v then d.log src inst cls 0x006 detail (if logClear then 1 else 0)
  else if logClear then d.log src inst 0 0x006 detail 2 else d

/-! The clock monitors (R51). -/

/-- The domain of Table 2-17, as family and instance, on which the registers at an address run (Table 2-1, R537). -/
def domainOf (addr : Nat) : Nat × Nat :=
  let w := addr / 65536
  if w = 2 then (1, 0) else if w = 3 then (17, 0) else if w = 4 then (2, 0) else if w = 5 then (2, 0)
  else if w = 7 then (2, 0)
  else if 0x10 ≤ w && w < 0x18 then (5, w % 8) else if 0x18 ≤ w && w < 0x20 then (1, 0)
  else if 0x20 ≤ w && w < 0x24 then (1, 0) else if w = 0x24 then (2, 0)
  else if 0x30 ≤ w && w < 0x38 then (6, w % 8) else if w = 0x38 then (8, 0)
  else if w = 0x40 || w = 0x41 then (2, 0) else if w = 0x42 then (10, 0) else if w = 0x43 then (13, 0)
  else if w = 0x44 then (14, 0) else if w = 0x45 then (2, 0) else if w = 0x46 then (12, 0)
  else if 0x50 ≤ w && w < 0x54 then (9, w % 4) else (4, 0)

/-- A domain is declared stopped (R51). -/
def domainStopped (d : Dev) (family inst : Nat) : Bool := d.clk.stopped.contains (family, inst)

/-! The paged tables' geometry (Table 2-5), which TBL shows. -/

/-- Blocks in a canvas row (R195: CANVAS counts in units of 16 px). -/
def blocksW (d : Dev) : Nat := d.canvasW16

/-- Block rows of the canvas. -/
def blocksH (d : Dev) : Nat := d.canvasH16

/-- Entry bytes of a table instance; 0 for no such table or instance (Table 2-5). -/
def tblEsize (table inst : Nat) : Nat :=
  match table with
  | 1 => if inst = 0 then 6 else 0
  | 2 => if inst = 0 then 256 else 0
  | 3 => if inst < 8 then 6 else 0
  | 4 => if inst < 8 then 8 else 0
  | _ => 0

/-- Entry count of a table instance (Table 2-5). -/
def tblEntries (d : Dev) (table inst : Nat) : Nat :=
  if tblEsize table inst = 0 then 0 else
  match table with
  | 1 => d.blocksW * d.blocksH
  | 2 => 4096
  | 3 => 274625
  | _ => 16641

/-- A table instance as it stands. -/
def tblInst (d : Dev) (table inst : Nat) : TableInst :=
  (d.tbl.tables.find? fun t => t.table = table && t.inst = inst).getD ⟨table, inst, [], [], [], []⟩

/-- The commit group of a table (`TBL.INFO.GROUP`). -/
def tblGroup (d : Dev) (table : Nat) : Nat :=
  ((d.tbl.groups.find? fun p => p.1 = table).map Prod.snd).getD 0

/-- Pages that lie in a place, over all tables, live, held and shadow. -/
def pagesIn (d : Dev) (l : PageLoc) : Nat :=
  (d.tbl.tables.map fun t => (t.moved.filter fun p => p.2 = l).length + (t.shadow.filter fun p => p.loc = l).length
    + (t.held.filter fun p => p.loc = l).length).sum

/-- Pages of the live Blocking Table that lie in its own region. -/
def blockRegionLive (d : Dev) : Nat :=
  (d.blocksW * d.blocksH * 6 + 4095) / 4096 - ((d.tblInst 1 0).moved.filter fun p => p.2 ≠ .region).length

/-- Pages of a table instance that lie in its own region beyond its live ones: shadow pages and held ones. -/
def ownSpare (t : TableInst) : Nat :=
  (t.shadow.filter fun p => p.loc = .region).length + (t.held.filter fun p => p.loc = .region).length

/-- Free pages of the Blocking Table's 12 MiB region, on which only the Blocking Table draws (Table 2-4, R43). -/
def regionFree (d : Dev) : Nat := 3072 - d.blockRegionLive - ownSpare (d.tblInst 1 0)

/-- Free pages of the other tables' regions: those that live pages held elsewhere have left (R43). -/
def leftFree (t : TableInst) : Nat := t.moved.length - ownSpare t

/-- Free pages of the general pool (R38). -/
def poolFree (d : Dev) : Nat := 1792 - 16 * d.tbl.carved - d.pagesIn .pool

/-- Free on-chip pages, table regions and general pool together (Table 2-15). -/
def freeOnchip (d : Dev) : Nat :=
  d.regionFree + ((d.tbl.tables.filter fun t => t.table != 1).map leftFree).sum + d.poolFree

/-! What registers show from state held elsewhere. -/

/-- A calibration run of a kind is queued or running (Table 11-12). -/
def calBusy (d : Dev) (kind : Nat) : Bool :=
  (d.calib.queue.any fun u => u.kind = kind) || (d.calib.runs.any fun r => r.unit.kind = kind)

/-- Descriptors that a job ring holds (R405). -/
def fulCount (d : Dev) (r : Nat) : Nat :=
  let n := d.fulSqSize r
  (d.rd (R.FUL_RING_SQ_TAIL r) % n + n - d.rd (R.FUL_RING_SQ_HEAD r) % n) % n

/-- What the registers of the Fuller engines show (Tables 14-7 and 14-8). -/
def fulViews (d : Dev) : List (Fld × Nat) :=
  let ring (r : Nat) : FRing := d.ful.getD r ⟨none, [], 0, false, false⟩
  let runs (e : Nat) : Bool := d.ful.any fun x => match x.stream with
    | some s => s.engine = e && !s.parked
    | none => false
  let lulls (e : Nat) : Bool := d.thm.lulls.any fun l => match l.unit with
    | .fuller k => k.val = e
    | _ => false
  let mask (p : Nat → Bool) : Nat := ((List.range 4).map fun e => if p e then 2 ^ e else 0).sum
  [(R.FUL_STATUS_BUSY, mask runs), (R.FUL_STATUS_LULLING, mask lulls)] ++
  (List.range 8).flatMap fun r =>
    let x := ring r
    let (o, p, e) := match x.stream with
      | some s => (1, b2n s.parked, s.engine)
      | none => (0, 0, 0)
    [ (R.FUL_RING_STATE_OPEN r, o), (R.FUL_RING_STATE_PARKED r, p), (R.FUL_RING_STATE_ENGINE r, e),
      (R.FUL_RING_STATE_BUSY r, b2n (o = 1 || x.releasing || x.compl != [] || decide (0 < d.fulCount r))) ]

/-- The VEER entry that is pending next, if there is one (R357): the one whose target comes first. -/
def pendingVeer (d : Dev) : Option CalEntry :=
  let far (e : CalEntry) : Int := sext 48 (e.target % 2 ^ 48 + 2 ^ 48 - d.wtm.wln % 2 ^ 48)
  (d.cal.entries.filter fun e => e.action = 3).foldl (fun (b : Option CalEntry) e =>
    match b with
    | some x => if far e < far x then some e else b
    | none => some e) none

/-- A mask of n bits from a predicate. -/
def maskOf (n : Nat) (p : Nat → Bool) : Nat := ((List.range n).map fun i => if p i then 2 ^ i else 0).sum

/-- What registers of several blocks show that stands elsewhere: the scheduled veer, the layers' flags, the lanes' flags, the
derating of the selected tile, the time that the firmware watchdog has left (Tables 12-12, 12-13, 7-5, 10-12, 6-8, R520). -/
def otherViews (d : Dev) : List (Fld × Nat) :=
  let v := d.pendingVeer
  let left := d.boot.wdogAt + millis (clampNat (d.rd R.BOOT_WDOG_WDOG_MS) 10 1000) - d.now
  [ (R.VEER_STATUS_VEER_SCHED, b2n v.isSome),
    (R.VEER_NEXT_V_LO, (v.map CalEntry.target).getD 0),
    (R.VEER_NEXT_V_HI, (v.map CalEntry.target).getD 0 / 2 ^ 32),
    (R.CMP_LAYER_STATUS_LOCK_LOST, maskOf 16 fun i => d.rdb (R.CMP_LAYER_STATUS_I_LOCK_LOST i)),
    (R.CMP_LAYER_STATUS_CFG_ERR, maskOf 16 fun i => d.rdb (R.CMP_LAYER_STATUS_I_CFG_ERR i)),
    (R.CLR_DR_GAIN_TARGET, 32768 - SMap.get d.clr.target (d.rd R.CLR_DR_SEL)),
    (R.CLR_DR_GAIN_GAIN, 32768 - SMap.get d.clr.cur.loss (d.rd R.CLR_DR_SEL)),
    (R.MVL_SEG 0, maskOf 32 fun k => d.rdb (R.MVL_LSTAT_SEG_LOSS k)),
    (R.MVL_SEG 1, maskOf 32 fun k => d.rdb (R.MVL_LSTAT_SEG_LOSS (32 + k))),
    (R.MVL_BREAK 0, maskOf 32 fun k => d.rdb (R.MVL_LSTAT_BREAK_VALID k)),
    (R.MVL_BREAK 1, maskOf 32 fun k => d.rdb (R.MVL_LSTAT_BREAK_VALID (32 + k))),
    (R.BOOT_WDOG_LEFT, if d.boot.applied then left / millis 1 else R.BOOT_WDOG_LEFT.reset) ]

/-- The fields whose value is held elsewhere in the state, with that value: each has one home. -/
def views (d : Dev) : List (Fld × Nat) :=
  let t := d.rd R.TBL_SEL_TABLE
  let i := d.rd R.TBL_SEL_INSTANCE
  [ (R.WTM_WLN_LO, d.wtm.wln),
    (R.WTM_CAL_STATUS_COUNT, d.cal.entries.length),
    (R.VEER_STATUS_WINDWARD, b2n (d.state = .live)),
    (R.CLK_CAL_BUSY_RX, b2n (d.calBusy 0)),
    (R.CLK_CAL_BUSY_CAM, b2n (d.calBusy 1)),
    (R.CLK_CAL_BUSY_DRAM, b2n (d.calBusy 2)),
    (R.FLT_CFG_DEPTH, d.rd R.CLR_CFG_WALL_DEPTH),
    (R.SCN_LGEN_STATUS_RUN, b2n d.wtm.running),
    (R.SCN_LGEN_STATUS_LINE, d.wtm.wln % Nat.max 1 (d.rd R.SCN_LGEN_LT)),
    (R.HBX_STATUS_TAGS_USED, d.hbx.cmds.length),
    (R.HBX_STATUS_FAULT_STREAMS, Nat.min 255 (d.hbx.takes.filter fun t => t.open_ && t.fault != 0).length),
    (R.HBX_STATUS_FW_ACT, b2n d.hbx.fw.isSome),
    (R.HBX_STATUS_PFAIL, b2n (!d.pins.pfailN)),
    (R.HBX_STG_USED, (d.hbx.staged.map fun w => w.units.length).sum +
      ((d.hbx.cmds.filter fun c => c.op = 2 && c.staged && c.status.isNone).map fun c => (c.len + 4095) / 4096).sum),
    (R.PTP_TSQ_STATUS_COUNT, d.ptp.tsq.length),
    (R.PTP_TSQ_INFO_SEQ_ID, (d.ptp.tsq.headD ⟨0, 0, 0, 0⟩).seq),
    (R.PTP_TSQ_INFO_MSG_TYPE, (d.ptp.tsq.headD ⟨0, 0, 0, 0⟩).type),
    (R.PTP_TSQ_INFO_PORT, (d.ptp.tsq.headD ⟨0, 0, 0, 0⟩).port),
    (R.PTP_TSQ_SEC_LO, Time.sec (d.ptp.tsq.headD ⟨0, 0, 0, 0⟩).stamp),
    (R.PTP_TSQ_SEC_HI, Time.sec (d.ptp.tsq.headD ⟨0, 0, 0, 0⟩).stamp / 2 ^ 32),
    (R.PTP_TSQ_NS, Time.ns (d.ptp.tsq.headD ⟨0, 0, 0, 0⟩).stamp),
    (R.ETH_QUEUED, d.cue.queue.length),
    (R.ETH_ARRIVAL_LO, d.cue.arrival),
    (R.TBL_INFO_ESIZE, tblEsize t i),
    (R.TBL_INFO_GROUP, d.tblGroup t),
    (R.TBL_ENTRIES, d.tblEntries t i),
    (R.TBL_STATUS_PENDING, b2n ((d.tblInst t i).shadow != [])),
    (R.TBL_STATUS_LOAD_BUSY, b2n d.tbl.load.isSome),
    (R.TBL_PAGES_IN_DRAM, d.pagesIn .dram),
    (R.TBL_PAGES_FREE_ONCHIP, if d.boot.applied then d.freeOnchip else R.TBL_PAGES_FREE_ONCHIP.reset) ] ++ d.fulViews ++ d.otherViews

/-- What a read of a field shows (R13): the shadow copy of an RWS field, 0 for a WO field, and for a field whose value
is held elsewhere that value. -/
def shown (d : Dev) (f : Fld) : Nat :=
  if f.acc = .wo then 0 else
  match d.views.find? fun p => p.1.key = f.key with
  | some p => p.2 % 2 ^ f.width
  | none => d.rd f

/-- The word that the fields of a register show (R9: other bits read 0). -/
def shownWord (d : Dev) (fs : List Fld) : Nat := (fs.map fun f => d.shown f * 2 ^ f.lo).sum

end Dev
end Sys2Proof.Machine
end

