-- ==== Sys2Proof/Machine/Symbols.lean ====
section
/-!
DEFINITION. What the pairing lanes and HB_OUT carry (R320, R321, R338, R346): symbols, frames, alignment columns, the words of
Table 12-2 and their Manchester code.
-/

namespace Sys2Proof.Config

/-- The bytes of a frame's payload where the spec says what it stands for and lays down no layout (log entry 18), by the frame's SEQ:
at most the 4,096 that R346 allows are used. -/
opaque pairPayload : Nat → Machine.PairBody → List Byte

end Sys2Proof.Config

namespace Sys2Proof.Machine

/-! Frames (R346, Tables 12-4 and 12-5). -/

/-- TYPE of a payload. -/
def pairType : PairBody → Nat
  | .beat _ => 0x01
  | .yield _ => 0x02
  | .ack _ _ => 0x03
  | .sig _ _ => 0x04
  | .request _ => 0x05
  | .base _ => 0x10
  | .delta => 0x11
  | .cut _ _ => 0x12
  | .mirror _ => 0x13
  | .commit _ _ => 0x14
  | .telem _ => 0x20

/-- The bytes of a payload: a word of Table 12-2 goes from bit 127 down. -/
def pairBytes (seq : Nat) : PairBody → List Byte
  | .beat w => beBytes 16 w.toNat
  | .yield w => beBytes 16 w.toNat
  | b => (Config.pairPayload seq b).take 4096

/-- FLAGS of a payload: bit 0 says the last frame of a cut. -/
def pairFlags : PairBody → Nat
  | .cut _ _ => 1
  | _ => 0

/-- The bytes of a frame between its delimiters: header, payload, CRC-32C. -/
def sealFrame (f : PairFrame) : List Byte :=
  let h := leBytes 1 f.type ++ leBytes 1 f.flags ++ leBytes 2 f.payload.length ++ leBytes 4 f.seq ++ leBytes 4 f.wln ++ f.payload
  h ++ leBytes 4 (crc32c h)

/-- The bytes of a frame and the CRC-32C that ends it. -/
def withCrc (bytes : List Byte) (crc : Word) : List Byte := bytes ++ leBytes 4 crc.toNat

/-- A frame received between its delimiters; none where its CRC fails or its LEN disagrees with its length. -/
def openFrame (bs : List Byte) : Option PairFrame :=
  let n := bs.length - 16
  if bs.length < 16 ∨ 4096 < n ∨ leAt bs 2 2 ≠ n ∨ leAt bs (12 + n) 4 ≠ crc32c (bs.take (12 + n)) then none
  else some ⟨leAt bs 0 1, leAt bs 1 1, leAt bs 4 4, leAt bs 8 4, (bs.drop 12).take n⟩

/-! Symbols (R320, R321). -/

/-- Symbol i of the stream goes on logical lane i mod 4, from lane 0 on; the last column is filled with K28.0 (log entry 110). -/
def stripe (l : List PairSym) : List (List PairSym) :=
  (List.range 4).map fun i => (List.range ((l.length + 3) / 4)).map fun c => l.getD (4 * c + i) .k280

/-- A frame on the lanes, with its delimiters. -/
def frameLanes (f : PairFrame) : List (List PairSym) := stripe (.k277 :: (sealFrame f).map .data ++ [.k297])

/-- An alignment column. -/
def alignColumn : List (List PairSym) := (List.range 4).map fun i => [.k285, .data (BitVec.ofNat 8 i), .k280, .k280]

/-! Words of Table 12-2 on HB_OUT (R338). -/

/-- The levels of bits, a 1 low then high. -/
def manchester (bits : List Bool) : List Bool := bits.flatMap fun b => [!b, b]

/-- The bits of bytes, each byte from its highest bit. -/
def msbBits (bs : List Byte) : List Bool := bs.flatMap fun b => (List.range 8).map fun i => bit b.toNat (7 - i)

/-- The preamble, the delimiter and the word. -/
def wordLevels (w : BitVec 128) : List Bool := manchester (msbBits (0xAA :: 0xAB :: beBytes 16 w.toNat))

/-- The bits of levels; none where a bit has no transition. -/
def manchesterBits : List Bool → Option (List Bool)
  | [] => some []
  | [_] => none
  | a :: b :: r => if a = b then none else (manchesterBits r).map (b :: ·)

/-- The number that bits make, the first highest. -/
def bitsNat (l : List Bool) : Nat := l.foldl (fun n b => 2 * n + b2n b) 0

/-- The word that reaches a device: in a frame of a TYPE on the stream, or after the preamble and the delimiter on HB_IN. -/
def rxWord (type : Nat) : WordRx → Option (BitVec 128)
  | .stream bs => (openFrame bs).bind fun f =>
      if f.type = type ∧ f.payload.length = 16 then some (BitVec.ofNat 128 (beAt f.payload 0 16)) else none
  | .pin ls => (manchesterBits ls).bind fun l =>
      if l.length = 144 ∧ bitsNat (l.take 16) = 0xAAAB then some (BitVec.ofNat 128 (bitsNat (l.drop 16))) else none

/-- A word as it reaches a device: on path A the bytes of a frame, on path B the levels of HB_IN, eight to a byte, in order from its
highest bit. -/
def wordRx (pathB : Bool) (bytes : List Byte) : WordRx := if pathB then .pin (msbBits bytes) else .stream bytes

/-- The word came on path B. -/
def onPin : WordRx → Bool
  | .stream _ => false
  | .pin _ => true

/-- A word of the beat's form: its first twelve bytes from the fields, then their CHECK. -/
def beatPack (type reason : Nat) (b : Beat) : BitVec 128 :=
  let v := [(type, 4), (b.state, 4), (b2n b.windward, 1), (b2n b.synced, 1), (b2n b.strap, 1), (b2n b.ready, 1), (reason, 4), (b.epoch, 32),
    (b.tag, 16), (b.frame, 16), (b.cut, 16)].foldl (fun (a : Nat) (f : Nat × Nat) => a * 2 ^ f.2 + f.1 % 2 ^ f.2) 0
  BitVec.ofNat 128 (v * 2 ^ 32 + crc32c (beBytes 12 v))

/-- The TYPE and the fields of a word, if its CHECK is right. -/
def beatParse (w : BitVec 128) : Option (Nat × Beat) :=
  let v := w.toNat
  if crc32c (beBytes 12 (v / 2 ^ 32)) ≠ v % 2 ^ 32 then none else
  some (bits v 127 124, ⟨bits v 123 120, bit v 119, bit v 118, bit v 117, bit v 116, bits v 111 80, bits v 79 64, bits v 63 48, bits v 47 32⟩)

/-! Alignment (R322). -/

/-- What a symbol does to a pairing lane's receiver: the lane after it, whether it is aligned, and whether a column of it is complete.
It is no part of the state. -/
structure PairRx where
  lane    : PairLane
  aligned : Bool
  column  : Bool

/-- The ones among 256 bits. -/
def ones256 (n : Nat) : Nat := ((List.range 256).filter fun i => bit n i).length

/-- A receiver that is not aligned: K28.5 begins a column, a lane number and two K28.0 follow, and four columns in a row at the
expected spacing align the lane. -/
def seekColumn (l : PairLane) (s : PairSym) : PairRx :=
  let go (l : PairLane) : PairRx := ⟨l, false, false⟩
  match s, l.slot with
  | .k285, some 1023 => go { l with slot := some 0, cols := l.cols + 1 }
  | .k285, _ => go { l with slot := some 0, cols := 1 }
  | .data b, some 0 => if b.toNat < 4 then go { l with slot := some 1, num := b.toNat } else go { l with slot := none, cols := 0 }
  | _, some 0 => go { l with slot := none, cols := 0 }
  | .k280, some 1 => go { l with slot := some 2 }
  | _, some 1 => go { l with slot := none, cols := 0 }
  | .k280, some 2 => ⟨{ l with slot := some 3, miss := 0, errs := 0 }, decide (4 ≤ l.cols), decide (4 ≤ l.cols)⟩
  | _, some 2 => go { l with slot := none, cols := 0 }
  | _, some n => if n < 1023 then go { l with slot := some (n + 1) } else go { l with slot := none, cols := 0 }
  | _, none => go l

/-- A receiver that is aligned: four errors within 256 symbols, or two columns missing, lose the alignment. -/
def keepColumn (l : PairLane) (s : PairSym) : PairRx :=
  let n := (l.slot.getD 0 + 1) % 1024
  let errs := (2 * l.errs + b2n (s = .code || s = .disp)) % 2 ^ 256
  let miss := if n = 0 then (if s = .k285 then 0 else l.miss + 1) else l.miss
  let num := match s with
    | .data b => if n = 1 && l.miss = 0 && decide (b.toNat < 4) then b.toNat else l.num
    | _ => l.num
  if 4 ≤ ones256 errs || 2 ≤ miss then ⟨{ l with slot := none, cols := 0, miss := 0, errs := 0 }, false, false⟩
  else ⟨{ l with slot := some n, errs := errs, miss := miss, num := num }, true, decide (n = 3) && decide (miss = 0)⟩

/-! Test patterns (R323). -/

/-- The length of a pattern's register and its second tap: PRBS-7, PRBS-15, PRBS-31 (log entry 111). -/
def prbsTaps (v : Nat) : Nat × Nat := match v with
  | 1 => (15, 14)
  | 2 => (31, 28)
  | _ => (7, 6)

/-- The bit that follows a register. -/
def prbsNext (v r : Nat) : Bool := bit r ((prbsTaps v).1 - 1) != bit r ((prbsTaps v).2 - 1)

/-- A checker takes a bit: the first bits load its register, and it then predicts every further bit itself. Answers also whether the
bit is in error. -/
def patTake (v : Nat) (p : Pat) (b : Bool) : Pat × Bool :=
  let n := (prbsTaps v).1
  if p.got < n then ({ p with reg := (2 * p.reg + b2n b) % 2 ^ n, got := p.got + 1 }, false)
  else
    let e := prbsNext v p.reg
    ({ p with reg := (2 * p.reg + b2n e) % 2 ^ n, bits := p.bits + 1 }, e != b)

/-- A checker takes bits: the checker after them, and the errors. -/
def patRun (v : Nat) (p : Pat) (l : List Bool) : Pat × Nat :=
  l.foldl (fun (q : Pat × Nat) b => ((patTake v q.1 b).1, q.2 + b2n (patTake v q.1 b).2)) (p, 0)

end Sys2Proof.Machine
end

