-- ==== Sys2Proof/Machine/Stream.lean ====
section
/-!
DEFINITION. What the pairing stream sends (R346, R347, R351, R568): frames, the state frames that the sender keeps, and the
mirroring of writes.
-/

namespace Sys2Proof.Machine
namespace Dev

/-- The pairing link is up: path A can carry frames (R322). -/
def pathUp (d : Dev) : Bool := d.rdb R.PAIR_STATUS_UP

/-- The frame that carries a payload, queued now (Table 12-4). -/
def pairFrame (d : Dev) (seq : Nat) (body : PairBody) : PairFrame :=
  ⟨pairType body, pairFlags body, seq, d.wtm.wln % 2 ^ 32, pairBytes seq body⟩

/-- A frame goes out on the pairing lanes. -/
def emitFrame (d : Dev) (f : PairFrame) (body : PairBody) : Dev := d.emit (.pairFrame f body (frameLanes f))

/-- A frame that is no state frame goes out on the pairing stream; its SEQ is 0 (Table 12-4). -/
def sendFrame (d : Dev) (body : PairBody) : Dev :=
  if d.pathUp then d.emitFrame (d.pairFrame 0 body) body else d

/-- A word of Table 12-2 goes out on HB_OUT (R338). -/
def emitWord (d : Dev) (w : BitVec 128) : Dev := d.emit (.heartbeat w (wordLevels w))

/-- The bytes that kept frames take may not exceed 64 MiB (R347). -/
def keptLimit : Nat := 64 * 2 ^ 20

/-- The base is restarted: a BASE is due from its beginning (R347, R349). -/
def restartBase (d : Dev) : Dev :=
  { d with pair := { d.pair with baseDue := true, baseLeft := 0 } }.cnt R.VEER_BASE_RESTARTS

/-- The bytes of the frames that the sender keeps. -/
def keptBytes (l : List Kept) : Nat := (l.map fun k => 16 + k.frame.payload.length).sum

/-- The register of a cut's CRC-32C goes on over a state frame; a CUT begins it anew (R349). -/
def cutCrc (r : Nat) (f : PairFrame) : Nat := if f.type = 0x12 then 0xFFFFFFFF else (sealFrame f).foldl (crcByte 0x82F63B78) r

/-- A state frame goes out and is kept until an ACK covers it; the base restarts where the frames kept come to exceed 64 MiB
(R347). -/
def sendState (d : Dev) (body : PairBody) : Dev :=
  if !(d.pathUp && d.rdb R.TOP_STATE_PAIRED) then d else
  let f := d.pairFrame d.pair.txSeq body
  let was := keptBytes d.pair.kept
  let d := d.emitFrame f body
  let d := { d with pair := { d.pair with
    txSeq := (f.seq + 1) % 2 ^ 32, txCrc := cutCrc d.pair.txCrc f, kept := d.pair.kept ++ [⟨f, body⟩] } }
  if was ≤ keptLimit && decide (keptLimit < keptBytes d.pair.kept) then d.restartBase else d

/-- Mirror mode runs on this device as windward (R351). -/
def mirrorOn (d : Dev) : Bool := d.state = .live && d.rdb R.VEER_STATUS_MIRROR

/-- A write that the checkpoint carries is mirrored as it lands (R351). -/
def mirrorWrite (d : Dev) (w : MirrorWrite) : Dev := if d.mirrorOn then d.sendState (.mirror w) else d

/-- The registers at an address are set by each device of a pair for itself (R568). -/
def localReg (a : Nat) : Bool :=
  let w := a / 65536
  let o := a % 65536
  decide (w ≤ 1) || decide (3 ≤ w && w ≤ 7) || decide (0x30 ≤ w && w ≤ 0x38) ||
    (decide (0x10 ≤ w && w < 0x18) && (decide (0x100 ≤ o && o < 0x200) || decide (o = 0x200))) ||
    (decide (0x18 ≤ w && w < 0x20) && decide (0x80 ≤ o && o ≤ 0x88)) ||
    (decide (w = 0x42) && decide (8 ≤ o && o ≤ 0x10))

/-- A write to a register is mirrored, unless the register is one that each device sets for itself (R351, R568). -/
def mirrorReg (d : Dev) (a v : Nat) : Dev := if localReg a then d else d.mirrorWrite (.reg a v)

/-- The line of an occasion of a group that the windward has decided and that has not passed (R351): the occasions of a line
stand in the upper byte of its decision. -/
def decidedLine (d : Dev) (g : Nat) : Option Nat :=
  if d.mirrorOn then (d.pair.decided.find? fun p => bit p.2 (8 + g)).map Prod.fst else none

/-- A write is held until the boundary after an occasion (R351). -/
def holdWrite (d : Dev) (line : Nat) (w : MirrorWrite) : Dev :=
  { d with pair := { d.pair with late := d.pair.late ++ [(line, w)] } }

/-- An entry of a banked memory takes a value: memory 0 the LUTs, 1 the scaler coefficients, 2 + n the defect list of pipeline n. -/
def putBank (d : Dev) (mem key value : Nat) : Dev :=
  match mem with
  | 0 => { d with clr := { d.clr with luts := SMap.set d.clr.luts key value } }
  | 1 => { d with cmp := { d.cmp with coefs := SMap.set d.cmp.coefs key value } }
  | n + 2 => { d with defects := setV d.defects n ⟨SMap.set (d.defects.getD n ⟨[]⟩).vals key value⟩ }

/-- The commit group of an entry of a banked memory. -/
def bankGroup (mem key : Nat) : Nat := match mem with
  | 0 => if key / 2 ^ 14 / 16 = 1 then 4 else 2
  | 1 => 1
  | _ => 3

/-- A write to a banked memory: mirrored as it lands, and held near a decided commit occasion of its group (R351). -/
def writeBank (d : Dev) (mem key value : Nat) : Dev :=
  match d.decidedLine (bankGroup mem key) with
  | some l => d.holdWrite l (.bank mem key value)
  | none => (d.putBank mem key value).mirrorWrite (.bank mem key value)

end Dev
end Sys2Proof.Machine
end

