-- ==== Sys2Proof/Machine/Tables.lean ====
section
/-!
DEFINITION. The paged tables and the table access port TBL (R42 to R49, Table 2-5).
-/

namespace Sys2Proof.Machine
namespace Dev

/-- The link fields of a tile (Table 10-8). -/
def tileLink (d : Dev) (id : Nat) : TileLink :=
  (d.tiles.find? fun t => t.id = id).getD ⟨id, 0, 0, 0, 0, 0, 0, 0, 0, 0, 0, 0, 0, 0, 0, 0⟩

/-- Store the link fields of a tile. -/
def putTile (d : Dev) (t : TileLink) : Dev :=
  { d with tiles := t :: d.tiles.filter fun u => u.id != t.id }

/-- Bytes 68 to 103 of a tile context (Table 10-8). -/
def tileLinkBytes (t : TileLink) : List Byte :=
  leBytes 2 t.txSeq ++ leBytes 2 t.floor ++ leBytes 1 t.own ++ leBytes 1 t.tileOwn ++ leBytes 4 t.tileEpoch
    ++ leBytes 4 t.ownLine ++ leBytes 2 t.fseq ++ leBytes 2 t.temp ++ leBytes 2 t.volt ++ leBytes 2 t.curr
    ++ leBytes 2 t.dead ++ leBytes 2 t.crcErr ++ leBytes 2 t.lost ++ leBytes 4 t.tlWln ++ leBytes 4 t.staleWln

/-- A byte offset of a tile context that the link layer updates (R46, R304). -/
def isLinkByte (off : Nat) : Bool := decide (68 ≤ off) && decide (off < 104)

/-- A byte of a tile context without its reserved bits, which are 0 (R174, R304, Tables 6-3 and 10-8). -/
def ctxKeep (off v : Nat) : Nat :=
  if off = 27 then v % 16 else if 36 ≤ off ∧ off < 64 then 0
  else if off = 64 ∨ off = 65 then v % 64 else if off = 66 then v % 16 else if off = 67 then v % 2
  else if 104 ≤ off then 0 else v

/-- A stored byte of a table as it reads: reserved bits of a tile context, and bits [1:0] of a Blocking Table entry, read 0 (R9, R221). -/
def tblKeep (table off v : Nat) : Nat :=
  if table = 2 then ctxKeep (off % 256) v else if table = 1 && off % 6 = 0 then v / 4 * 4 else v

/-- Store a table instance. -/
def putInst (d : Dev) (t : TableInst) : Dev :=
  { d with tbl := { d.tbl with
      tables := t :: d.tbl.tables.filter fun u => !(u.table = t.table && u.inst = t.inst) } }

/-- The live byte of a table at a byte offset, which its consumers use; of a tile context's link fields, their present
value (R46). -/
def tblLive (d : Dev) (table inst off : Nat) : Nat :=
  if table = 2 && isLinkByte (off % 256) then
    ((tileLinkBytes (d.tileLink (off / 256))).getD (off % 256 - 68) 0).toNat
  else tblKeep table off (SMap.get (d.tblInst table inst).live off)

/-- The byte that a read through TBL returns: shadow content where a shadow page exists, else the content that the
last commit switched in (R42). -/
def tblByte (d : Dev) (table inst off : Nat) : Nat :=
  if table = 2 && isLinkByte (off % 256) then d.tblLive table inst off else
  let t := d.tblInst table inst
  let page (l : List ShadowPage) : Option ShadowPage := l.find? fun p => p.page = off / 4096
  tblKeep table off (SMap.get (((page t.shadow).or (page t.held)).elim t.live ShadowPage.bytes) off)

/-- The bytes of an entry as TBL reads them. -/
def tblEntry (d : Dev) (table inst index : Nat) : List Nat :=
  let e := tblEsize table inst
  (List.range e).map fun i => d.tblByte table inst (index * e + i)

/-- The bytes of an entry as its consumers use them. -/
def liveEntry (d : Dev) (table inst index : Nat) : List Nat :=
  let e := tblEsize table inst
  (List.range e).map fun i => d.tblLive table inst (index * e + i)

/-- Free pages in a table's own region (R43): the Blocking Table's spare pages, and of the other tables the pages that
their live pages have left. -/
def ownFree (d : Dev) (table inst : Nat) : Nat :=
  if table = 1 then d.regionFree else leftFree (d.tblInst table inst)

/-- Where the next shadow page of a table goes (R43): its own region, the general pool, DRAM; none where no page is free
anywhere (R49). -/
def nextPageLoc (d : Dev) (table inst : Nat) : Option PageLoc :=
  if 0 < d.ownFree table inst then some .region else if 0 < d.poolFree then some .pool
  else if d.pagesIn .dram < Config.dramPages then some .dram else none

/-- Give a page of a table a shadow page, a copy of the page as committed, if it has none and a page is free (R42). -/
def ensureShadow (d : Dev) (table inst page : Nat) : Dev :=
  let t := d.tblInst table inst
  if t.shadow.any fun p => p.page = page then d else
  let bytes := match t.held.find? fun p => p.page = page with
    | some p => p.bytes
    | none => t.live.filter fun p => p.1 / 4096 = page
  match d.nextPageLoc table inst with
  | some loc => d.putInst { t with shadow := t.shadow ++ [⟨page, loc, bytes⟩] }
  | none => d

/-- A write to an entry finds no free page, DRAM included, for a page that the entry touches (R49). -/
def noFreePage (d : Dev) (table inst index : Nat) : Bool :=
  let e := tblEsize table inst
  let a := index * e / 4096
  let b := (index * e + e - 1) / 4096
  let t := ((d.ensureShadow table inst a).ensureShadow table inst b).tblInst table inst
  !(t.shadow.any fun p => p.page = a) || !(t.shadow.any fun p => p.page = b)

/-- Write one byte of a table into its shadow page (R42). A write to a link field is ignored (R46). -/
def tblWriteByte (d : Dev) (table inst off v : Nat) : Dev :=
  let d := d.ensureShadow table inst (off / 4096)
  if table = 2 && isLinkByte (off % 256) then d else
  let t := d.tblInst table inst
  d.putInst { t with shadow := t.shadow.map fun p =>
    if p.page = off / 4096 then { p with bytes := SMap.set p.bytes off (v % 256) } else p }

/-- Write bytes of a table from an offset on. -/
def tblWriteBytes (d : Dev) (table inst : Nat) : Nat → List Nat → Dev
  | _, [] => d
  | off, b :: r => (d.tblWriteByte table inst off b).tblWriteBytes table inst (off + 1) r

/-- Mark the group of a table written since its last commit (`COMMIT_PEND.DIRTY`). -/
def dirty (d : Dev) (g : Nat) : Dev := d.wr R.WTM_COMMIT_PEND_DIRTY (setBit (d.rd R.WTM_COMMIT_PEND_DIRTY) g true)

/-- Write an entry of a table (R42). In mirror mode the write is mirrored as it lands, and held near a commit occasion of its
group (R351). -/
def tblWriteEntry (d : Dev) (table inst index : Nat) (bytes : List Nat) : Dev :=
  let e := bytes.take (tblEsize table inst)
  match d.decidedLine (d.tblGroup table) with
  | some l => d.holdWrite l (.table table inst index e)
  | none =>
    ((d.tblWriteBytes table inst (index * tblEsize table inst) e).dirty (d.tblGroup table)).mirrorWrite (.table table inst index e)

/-- The bytes of TBL.DATA as it stands. -/
def tblData (d : Dev) : List Nat :=
  (List.range 64).flatMap fun i => (leBytes 4 (d.rd (R.TBL_DATA_D i))).map BitVec.toNat

/-- Put bytes into TBL.DATA; bytes at or beyond ESIZE read 0 (Table 2-16). -/
def putTblData (d : Dev) (bytes : List Nat) : Dev :=
  (List.range 64).foldl (fun d i =>
    d.wr (R.TBL_DATA_D i) (bytes.getD (4 * i) 0 + 256 * bytes.getD (4 * i + 1) 0 + 65536 * bytes.getD (4 * i + 2) 0
      + 16777216 * bytes.getD (4 * i + 3) 0)) d

/-- End a TBL command with an ERROR code (Table 2-9); INDEX advances only after a command with ERROR 0 (R49). -/
def tblEnd (d : Dev) (err : Nat) : Dev :=
  let d := d.wr R.TBL_STATUS_ERROR err
  if err = 0 && d.rdb R.TBL_SEL_AUTOINC then d.wr R.TBL_INDEX (d.rd R.TBL_INDEX + 1) else d

/-- The check of a TBL command before it acts: its ERROR code, 0 where it may act (R49). -/
def tblCheck (d : Dev) : Nat :=
  if d.tbl.load.isSome then 5 else
  if tblEsize (d.rd R.TBL_SEL_TABLE) (d.rd R.TBL_SEL_INSTANCE) = 0 then 1 else
  if d.rd R.TBL_INDEX < d.tblEntries (d.rd R.TBL_SEL_TABLE) (d.rd R.TBL_SEL_INSTANCE) then 0 else 2

end Dev

/-- TBL.CMD.READ (R49): the entry selected, shadow content first, into TBL.DATA. -/
def actTblRead (d : Dev) : Dev :=
  if d.tblCheck = 0 then
    (d.putTblData (d.tblEntry (d.rd R.TBL_SEL_TABLE) (d.rd R.TBL_SEL_INSTANCE) (d.rd R.TBL_INDEX))).tblEnd 0
  else d.tblEnd d.tblCheck

/-- TBL.CMD.WRITE (R42, R49): TBL.DATA into the entry selected; ERROR 0x03 where no page is free for it, and then nothing
changes. -/
def actTblWrite (d : Dev) : Dev :=
  if d.tblCheck = 0 then
    if d.noFreePage (d.rd R.TBL_SEL_TABLE) (d.rd R.TBL_SEL_INSTANCE) (d.rd R.TBL_INDEX) then d.tblEnd 3 else
    (d.tblWriteEntry (d.rd R.TBL_SEL_TABLE) (d.rd R.TBL_SEL_INSTANCE) (d.rd R.TBL_INDEX) d.tblData).tblEnd 0
  else d.tblEnd d.tblCheck

/-- A write to TBL.CMD (Table 2-8); both bits set is ERROR 0x06, but during a load any command is ERROR 0x05 (R49). -/
def actTblCmd (d : Dev) (v : Nat) : Dev :=
  if bit v 0 && bit v 1 then d.tblEnd (if d.tbl.load.isSome then 5 else 6)
  else if bit v 1 then actTblRead d else if bit v 0 then actTblWrite d else d

/-- A write to TBL.SEL (R49): a change of TABLE or INSTANCE zeroes TBL.DATA. -/
def actTblSel (d : Dev) (v : Nat) : Dev :=
  let change := bits v 7 0 ≠ d.rd R.TBL_SEL_TABLE ∨ bits v 15 8 ≠ d.rd R.TBL_SEL_INSTANCE
  let d := ((d.wr R.TBL_SEL_TABLE (bits v 7 0)).wr R.TBL_SEL_INSTANCE (bits v 15 8)).wr R.TBL_SEL_AUTOINC (bits v 16 16)
  if change then d.putTblData [] else d

/-- A write of 1 to TBL.LOAD_GO (R48, R49): the range is checked, an empty load completes at once, and a load begins. DESIGN
CHOICE (log entry 102): the range is checked first, so that a load with COUNT 0 whose INDEX lies beyond ENTRIES ends with 0x02. -/
def actTblLoadGo (d : Dev) : Dev :=
  let t := d.rd R.TBL_SEL_TABLE
  let i := d.rd R.TBL_SEL_INSTANCE
  let n := d.rd R.TBL_LOAD_COUNT_COUNT
  let x := d.rd R.TBL_INDEX
  if d.tbl.load.isSome then d.wr R.TBL_STATUS_ERROR 5 else
  if Dev.tblEsize t i = 0 then d.wr R.TBL_STATUS_ERROR 1 else
  if d.tblEntries t i < x + n then d.wr R.TBL_STATUS_ERROR 2 else
  let d := d.wr R.TBL_STATUS_ERROR 0
  if n = 0 then d else
  { d with tbl := { d.tbl with load := some ⟨t, i, x, n, d.rdPair R.TBL_LOAD_ADDR_LO R.TBL_LOAD_ADDR_HI⟩ } }

/-- The entries of a load, one after another, from DRAM into shadow pages: the device, the entries not written, and the ERROR
code. The load stops at an entry that cannot be read (R48, R482, R487), or for which no page is free (R49). -/
def loadEntries (m : List Host.Cell) (table inst : Nat) : Nat → Nat → Nat → Dev → Dev × Nat × Nat
  | 0, _, _, d => (d, 0, 0)
  | n + 1, index, addr, d =>
    let e := Dev.tblEsize table inst
    if d.unreadable addr e then (d.reportRead addr e, n + 1, 4) else
    if d.noFreePage table inst index then (d, n + 1, 3) else
    loadEntries m table inst n (index + 1) (addr + e)
      (d.tblWriteEntry table inst index ((Memory.bytes m addr e).map BitVec.toNat))

/-- A load ends (R48), after all its entries, at an entry that it cannot read or place, or at entry `bad` (counted from 0 within
the load), at which DRAM answers with an uncorrectable error: that entry is not written, ERROR is 0x04, and INDEX is the index
after the last written. -/
def actTblLoadDone (bad : Option Nat) (m : List Host.Cell) (d : Dev) : Dev :=
  match d.tbl.load with
  | none => d
  | some l =>
    let n := match bad with
      | some b => Nat.min b l.left
      | none => l.left
    let r := loadEntries m l.table l.inst n l.index l.addr d
    let d := { r.1 with tbl := { r.1.tbl with load := none } }
    (d.wr R.TBL_INDEX (l.index + n - r.2.1)).wr R.TBL_STATUS_ERROR (if r.2.2 = 0 && decide (n < l.left) then 4 else r.2.2)

/-- A live page that lies in DRAM moves to a free on-chip page (R45): its entries do not change. -/
def movePage (d : Dev) (t : TableInst) (page : Nat) : Dev :=
  let own := 0 < d.ownFree t.table t.inst
  if own then d.putInst { t with moved := t.moved.filter fun p => p.1 != page }
  else if 0 < d.poolFree then
    d.putInst { t with moved := t.moved.map fun p => if p.1 = page then (page, .pool) else p }
  else d

/-- The first live page held in DRAM for which a page is free on chip moves there (R45). -/
def actPageMove (d : Dev) : Dev :=
  let able (t : TableInst) : Bool := decide (0 < d.ownFree t.table t.inst) || decide (0 < d.poolFree)
  match d.tbl.tables.find? fun t => able t && t.moved.any fun p => p.2 = .dram with
  | none => d
  | some t =>
    let t := d.tblInst t.table t.inst
    match t.moved.find? fun p => p.2 = .dram with
    | none => d
    | some p => movePage d t p.1

namespace Dev

/-- A page of a table becomes live (R44). -/
def switchPage (t : TableInst) (p : ShadowPage) : TableInst :=
  { t with
    live := (t.live.filter fun q => q.1 / 4096 != p.page) |> fun l =>
      p.bytes.foldl (fun m q => SMap.set m q.1 q.2) l
    moved := (t.moved.filter fun q => q.1 != p.page) ++ (if p.loc = .region then [] else [(p.page, p.loc)]) }

/-- A table's pages switch at its group's commit (R44): at once, or, for the lens-shading grids and the camera 3D LUTs,
held until the camera's frame start (R92). -/
def commitInst (t : TableInst) : TableInst :=
  if t.table = 3 || t.table = 4 then
    { t with held := (t.held.filter fun p => !(t.shadow.any fun q => q.page = p.page)) ++ t.shadow, shadow := [] }
  else { t.shadow.foldl switchPage t with shadow := [] }

/-- The held pages of a table become live, at a camera's frame start (R92). -/
def applyHeld (t : TableInst) : TableInst := { t.held.foldl switchPage t with held := [] }

/-- The tables of a group switch (R44). -/
def commitTables (d : Dev) (g : Nat) : Dev :=
  { d with tbl := { d.tbl with
      tables := d.tbl.tables.map fun t => if d.tblGroup t.table = g then commitInst t else t } }

/-- A TBL command or load into a table of a group is in progress (R47). -/
def tblBusyFor (d : Dev) (g : Nat) : Bool :=
  match d.tbl.load with
  | some l => d.tblGroup l.table = g
  | none => false

end Dev

def execTblLoadDone (bad : Option Nat) (s : State) : Host.Outcome State Fault Refusal :=
  run s fun m d => actTblLoadDone bad m d
def execPageMoveOnchip (s : State) : Host.Outcome State Fault Refusal := run s fun _ d => actPageMove d

end Sys2Proof.Machine
end

