-- ==== Sys2Proof/Machine/Errors.lean ====
section
/-!
DEFINITION. The event log, the clock monitors' declarations that stop no wall path, and CALM snapshots (chapter 21).
-/

namespace Sys2Proof.Machine

/-! The event log. -/

/-- The 16 bytes of an entry (Table 21-1). -/
def LogEntry.encode (e : LogEntry) : List Byte :=
  leBytes 4 (Time.sec e.stamp) ++ leBytes 4 (Time.ns e.stamp + 2 ^ 30 * e.episode) ++ leBytes 1 e.source
    ++ leBytes 1 e.inst ++ leBytes 2 (e.code + 8192 * e.cls) ++ leBytes 4 e.detail

/-- The order in which ERR commits entries: stamp, then SOURCE, then INST (R525). -/
def LogEntry.before (a b : LogEntry) : Bool :=
  if a.stamp = b.stamp then (if a.source = b.source then a.inst < b.inst else a.source < b.source) else a.stamp < b.stamp

/-- The entry of a list that comes first in ERR's order, and the others in their order. -/
def takeFirst : List LogEntry → Option (LogEntry × List LogEntry)
  | [] => none
  | e :: r =>
    match takeFirst r with
    | none => some (e, [])
    | some (f, q) => if f.before e then some (f, e :: q) else some (e, f :: q)

namespace Dev

/-- Entry s of the on-chip ring, if it is still there. -/
def ringEntry (d : Dev) (s : Nat) : Option LogEntry := (d.elog.ring.find? fun p => p.1 = s).map Prod.snd

/-- ERR writes an entry to the on-chip ring under the next sequence number (R524); the entry that leaves the ring is
lost from the DRAM ring if its copy has not been written (R527). -/
def ringPut (d : Dev) (e : LogEntry) : Dev :=
  let s := d.rd R.ERR_WR_SEQ
  let leaving := (d.elog.ring.drop 255).head?
  let d := match leaving with
    | some (q, _) =>
      if d.rdb R.ERR_CTRL_DRAM_EN && d.rd R.ERR_DRAM_SEQ = q then (d.cnt R.ERR_NOT_COPIED).cntWrap R.ERR_DRAM_SEQ else d
    | none => d
  let d := { d with elog := { d.elog with ring := (s, e) :: d.elog.ring.take 255 } }
  let d := d.cntWrap R.ERR_WR_SEQ
  if e.cls = 5 then d.cnt R.ERR_FATAL else d

end Dev

/-- ERR commits the earliest held entry, 2 µs after its stamp (R525). -/
def actLogCommit (d : Dev) : Dev :=
  match takeFirst d.elog.held with
  | none => d
  | some (e, r) =>
    let d := d.upTo (e.born + micros 2)
    ({ d with elog := { d.elog with held := r } }).ringPut e

/-- The next entry is copied to the DRAM ring, while DRAM_EN is 1 (R524, R527). -/
def actLogCopy (d : Dev) : Dev :=
  let s := d.rd R.ERR_DRAM_SEQ
  if d.rdb R.ERR_CTRL_DRAM_EN then
    match d.ringEntry s with
    | some e =>
      (d.memWrite (d.rdPair R.ERR_DRAM_BASE_LO R.ERR_DRAM_BASE_HI + 16 * (s % 65536)) e.encode).cntWrap R.ERR_DRAM_SEQ
    | none => d
  else d

/-- A write to ERR.SEL (R529). -/
def actErrSel (d : Dev) (v : Nat) : Dev :=
  let d := d.wr R.ERR_SEL v
  let put (d : Dev) (st : Nat) (bs : List Byte) : Dev :=
    ((((d.wr (R.ERR_E 0) (leAt bs 0 4)).wr (R.ERR_E 1) (leAt bs 4 4)).wr (R.ERR_E 2) (leAt bs 8 4)).wr (R.ERR_E 3)
      (leAt bs 12 4)).wr R.ERR_RD_STATUS st
  match d.ringEntry v with
  | some e => put d 0 e.encode
  | none => if 0 < (d.rd R.ERR_WR_SEQ + 2 ^ 32 - v) % 2 ^ 32 && (d.rd R.ERR_WR_SEQ + 2 ^ 32 - v) % 2 ^ 32 < 2 ^ 31
      then put d 1 [] else put d 2 []

/-! Snapshots. -/

/-- The windows of Table 2-18: base address in units of 64 KiB. -/
def windows : List Nat :=
  [0, 1, 2, 3, 4, 5, 6, 7] ++ (List.range 16).map (· + 0x10) ++ [0x20, 0x21, 0x22, 0x23, 0x24]
    ++ (List.range 8).map (· + 0x30) ++ [0x38, 0x40, 0x41, 0x42, 0x43, 0x44, 0x45, 0x46]
    ++ (List.range 4).map (· + 0x50) ++ [0x100]

namespace Dev

/-- The register contents of a window as a snapshot copies them (R537). -/
def windowVals (d : Dev) (w : Nat) : SMap :=
  d.views.foldl (fun m p => if p.1.addr / 65536 = w then SMap.put m p.1.key (p.2 % 2 ^ p.1.width) else m)
    (d.regs.filter fun p => p.1 / 32 * 4 / 65536 = w)

/-- The bank of a window among some. -/
def bankOf (l : List SnapBank) (w : Nat) : SnapBank :=
  (l.find? fun b => b.source = sourceOf (w * 65536)).getD
    ⟨sourceOf (w * 65536), instOf (w * 65536), [], 0, false, false⟩

/-- The bank of a window. -/
def bank (d : Dev) (w : Nat) : SnapBank := bankOf d.snap.banks w

/-- A block latches its bank, or, with its clock declared stopped, keeps it and is marked as missed (R537, R540). -/
def latchBank (d : Dev) (w : Nat) : Dev :=
  let dom := domainOf (w * 65536)
  let b := d.bank w
  let others := d.snap.banks.filter fun x => x.source != b.source
  if d.domainStopped dom.1 dom.2 then
    { d with snap := { d.snap with banks := { b with latched := false, missed := true } :: others } }.cnt R.SNAP_MISSED_BLOCKS
  else
    { d with snap := { d.snap with
        banks := ⟨b.source, b.inst, d.windowVals w, d.stc, true, false⟩ :: others } }

/-- The broadcast drives CALM_OUT low for 200 ns, unless the trigger arrived on CALM_N (R538). -/
def calmOut (d : Dev) (fromPin : Bool) : Dev :=
  if !fromPin && d.rdb R.SNAP_CTRL_OUT_EN then
    { d with pins := { d.pins with calmOut := false }, snap := { d.snap with outUntil := d.now + nanos 200 } }.emit .calmOut
  else d

/-- Record a trigger instant and its source, write the SNAPSHOT entry and latch every bank (R536, R539). -/
def latchAll (d : Dev) (src : Nat) : Dev :=
  let d := windows.foldl latchBank d
  let d := (d.cntWrap R.SNAP_SEQ).wr R.SNAP_SRC src
  let d := d.wrPair R.SNAP_T_WLN_LO R.SNAP_T_WLN_HI d.wtm.wln
  let d := (d.wrPair R.SNAP_T_SEC_LO R.SNAP_T_SEC_HI (Time.sec d.stc)).wr R.SNAP_T_NS (Time.ns d.stc)
  d.log 0x05 0 0 0x020 (d.rd R.SNAP_SEQ)

/-- Store what the snapshots hold. -/
def putSnap (d : Dev) (x : SnapPart) : Dev := { d with snap := x }

/-- A trigger that is not merged: its instant, and CALM_OUT. -/
def calmMark (d : Dev) (src : Nat) : Dev := (d.putSnap { d.snap with last := some d.now }).calmOut (src = 0)

/-- The banks are latched; after a fatal fault a dump is owed (R541). -/
def calmLatch (d : Dev) (src : Nat) : Dev :=
  let d := (d.putSnap { d.snap with before := d.snap.banks, latchedAt := some d.now }).latchAll src
  if src = 3 then d.putSnap { d.snap with dumpOwed := true } else d

/-- CALM is raised (R536, R539): `src` as in SNAP.SRC (0 CALM_N, 1 calendar, 2 cue or TRIGGER, 3 fatal fault). -/
def calm (d : Dev) (src : Nat) : Dev :=
  let d := d.cnt R.SNAP_TRIGGERS
  let merged := match d.snap.last with
    | some t => decide (d.now ≤ t + micros 1)
    | none => false
  if merged then d.cnt R.SNAP_MERGED else
  let d := d.calmMark src
  if d.rdb R.SNAP_CTRL_HOLD then d.cnt R.SNAP_HELD else d.calmLatch src

end Dev

/-- A falling edge on CALM_N that two FAB samples confirm (R536), after the pin was high for `highNs` ns (R538). -/
def actCalmFall (highNs : Nat) (d : Dev) : Dev :=
  if d.snap.pinFired && decide (highNs < 100) then d
  else { d with snap := { d.snap with pinFired := true } }.calm 0

/-- CALM_OUT returns high 200 ns after it fell (R538). -/
def actCalmOutEnd (d : Dev) : Dev :=
  if d.pins.calmOut then d
  else { d.upTo d.snap.outUntil with pins := { d.pins with calmOut := true } }

/-- What DATA shows of a bank at a register offset (Table 21-9): the status and counter fields, 0 elsewhere. -/
def bankWord (b : SnapBank) (w off : Nat) : Nat :=
  match regAt (w * 65536 + off) with
  | none => 0
  | some fs => (fs.map fun f =>
      if f.acc = .ro || f.acc = .rc then (SMap.find? b.vals f.key).getD f.reset * 2 ^ f.lo else 0).sum

/-- The window of a SOURCE code and an instance (Table 21-1), if a block has them. -/
def windowOf (source inst : Nat) : Option Nat :=
  windows.find? fun w => sourceOf (w * 65536) = source && instOf (w * 65536) = inst

/-- A write to SNAP.BSEL or SNAP.BADDR updates DATA, L_NS, L_SEC_LO and BSTAT together (R542). -/
def actBsel (baddr : Bool) (v : Nat) (d : Dev) : Dev :=
  let d := if baddr then d.wr R.SNAP_BADDR_OFFSET v
    else (d.wr R.SNAP_BSEL_SOURCE (v / 256)).wr R.SNAP_BSEL_INST v
  match windowOf (d.rd R.SNAP_BSEL_SOURCE) (d.rd R.SNAP_BSEL_INST) with
  | none => ((((d.wr R.SNAP_DATA 0).wr R.SNAP_L_NS 0).wr R.SNAP_L_SEC_LO 0).wr R.SNAP_BSTAT_MISSED 0).wr R.SNAP_BSTAT_LATCHED 0
  | some w =>
    let b := d.bank w
    ((((d.wr R.SNAP_DATA (bankWord b w (d.rd R.SNAP_BADDR_OFFSET))).wr R.SNAP_L_NS (Time.ns b.stamp)).wr R.SNAP_L_SEC_LO
      (Time.sec b.stamp)).wrb R.SNAP_BSTAT_MISSED b.missed).wrb R.SNAP_BSTAT_LATCHED b.latched

/-- Every index list under strides and counts, longest stride first, with its byte offset. -/
def allIndices : List (Nat × Nat) → List (List Nat × Nat)
  | [] => [([], 0)]
  | (st, n) :: r => (List.range n).flatMap fun i => (allIndices r).map fun p => (i :: p.1, i * st + p.2)

/-- The registers of a window that hold status or counter fields. -/
def snapRegs (w : Nat) : List Nat :=
  regRows.flatMap fun r =>
    ((allIndices r.dims).filter fun p =>
      (r.base + p.2) / 65536 = w && (r.flds p.1).any fun f => f.acc = .ro || f.acc = .rc).map fun p => r.base + p.2 - w * 65536

/-- An 8-byte record of the dump (R541). -/
def dumpRecord (off inst source v : Nat) : List Byte := leBytes 2 off ++ leBytes 1 inst ++ leBytes 1 source ++ leBytes 4 v

/-- The records of one block in the dump (R541). -/
def dumpBlock (d : Dev) (w : Nat) : List Byte :=
  let b := d.bank w
  if b.missed then dumpRecord 0xFFFF b.inst b.source 0 else
  ((snapRegs w).flatMap fun off => dumpRecord off b.inst b.source (bankWord b w off))
    ++ dumpRecord 0xFFF0 b.inst b.source (Time.ns b.stamp) ++ dumpRecord 0xFFF4 b.inst b.source (Time.sec b.stamp)

/-- After a fatal-fault CALM every bank is written to DUMP_BASE (R541). -/
def actDump (d : Dev) : Dev :=
  if d.snap.dumpOwed then
    { d with snap := { d.snap with dumpOwed := false } }.memWrite (d.rdPair R.SNAP_DUMP_BASE_LO R.SNAP_DUMP_BASE_HI)
      (windows.flatMap (dumpBlock d) ++ dumpRecord 0 0 0xFF 0)
  else d

/-! The clock monitors (R51). -/

/-- A domain is declared stopped: its clock has had no edge for 2.56 µs (R51), so that a CALM broadcast since then is a request that
still waits, and is discarded (R55). The block keeps the bank that it had, and is marked as missed (R540). -/
def Dev.discardCalm (d : Dev) (family inst : Nat) : Dev :=
  if !(d.snap.latchedAt.any fun t => decide (d.now ≤ t + nanos 2560)) then d else
  (windows.filter fun w => domainOf (w * 65536) = (family, inst)).foldl (fun d w =>
    let b := Dev.bankOf d.snap.before w
    if !(d.bank w).latched then d else
    (d.putSnap { d.snap with banks := { b with latched := false, missed := true } :: d.snap.banks.filter fun x => x.source != b.source }).cnt
      R.SNAP_MISSED_BLOCKS) d

/-- A clock monitor's declaration is logged (R51, Table 21-3): class 3 for a domain that stops, 0 for one that runs. -/
def Dev.clockLog (d : Dev) (family inst : Nat) (runs : Bool) : Dev :=
  d.log 0x01 inst (if runs then 0 else 3) 0x003 (family + 32 * inst + 2 ^ 31 * b2n runs)

def execLogEntryArise (source inst : Byte) (cls : Fin 8) (event : BitVec 13) (detail : Word) (episode : Fin 4)
    (s : State) : Host.Outcome State Fault Refusal :=
  run s fun _ d => d.log source.toNat inst.toNat cls event.toNat detail.toNat episode
def execLogCommit (s : State) : Host.Outcome State Fault Refusal := run s fun _ d => actLogCommit d
def execLogDramCopy (s : State) : Host.Outcome State Fault Refusal := run s fun _ d => actLogCopy d
def execCalmNFall (highNs : Nat) (s : State) : Host.Outcome State Fault Refusal := run s fun _ d => actCalmFall highNs d
def execCalmOutPulseEnd (s : State) : Host.Outcome State Fault Refusal := run s fun _ d => actCalmOutEnd d
def execSnapshotDump (s : State) : Host.Outcome State Fault Refusal := run s fun _ d => actDump d

end Sys2Proof.Machine
end

