-- ==== Sys2Proof/Machine/WallTime.lean ====
section
/-!
DEFINITION. Wall time (chapter 3): the line generator, the lock states, steps, slewing, and the references.
-/

namespace Sys2Proof.Machine
namespace Dev

/-- L_T, the line periods of a wall frame (R229). -/
def lt (d : Dev) : Nat := Nat.max 1 (d.rd R.SCN_LGEN_LT)

/-- H, the canvas height in rows (R195). -/
def canvasH (d : Dev) : Nat := 16 * d.canvasH16

/-- W, the canvas width in px (R195). -/
def canvasW (d : Dev) : Nat := 16 * d.canvasW16

/-- The line of its frame at which a WLN stands (R61). -/
def lineOf (d : Dev) (w : Nat) : Nat := w % d.lt

/-- The present line of the frame. -/
def line (d : Dev) : Nat := d.lineOf d.wtm.wln

/-- The frame that holds a WLN (R66). -/
def frameOf (d : Dev) (w : Nat) : Nat := w / d.lt

/-- RATE_NUM and RATE_DEN, as the image's records or a write in BOOT leave them. R77 wants a fraction within 23.976 Hz to 240 Hz and does
not say what another does: it acts as written, and a zero as 1 (DESIGN CHOICE, log entry 39). -/
def rateNum (d : Dev) : Nat := Nat.max 1 (d.rd R.WTM_RATE_RATE_NUM)
def rateDen (d : Dev) : Nat := Nat.max 1 (d.rd R.WTM_RATE_RATE_DEN)

/-- A duration in whole µs as an integer. -/
def usI (k : Nat) : Int := ((k * 65536000 : Nat) : Int)

/-- One second in the unit of Time. -/
def secUnits : Nat := 65536000000000

/-- The frame period, rounded down to the unit of Time. -/
def framePeriod (d : Dev) : Nat := d.rateDen * secUnits / d.rateNum

/-- The time from the origin to line n, to the nearest unit (R64). -/
def linePos (d : Dev) (n : Int) : Int := divRoundInt (n * (d.rateDen * secUnits : Nat)) (d.rateNum * d.lt)

/-- The time of ST 2059-2 alignment point k (R65). -/
def alignPoint (d : Dev) (k : Int) : Int := divRoundInt (k * (d.rateDen * secUnits : Nat)) d.rateNum

/-- The STC time of line n, which is line l of its frame: blanking lines carry their share of the frame's slew
(R64, R75). R64 puts the exception in the last blanking line of a frame, R75 spreads the adjustment over all of them: the model
spreads it, and rounds the share that has fallen due down (DESIGN CHOICE, log entry 102). -/
def boundaryAt (d : Dev) (n : Int) (l : Nat) : Int :=
  d.wtm.t0 + d.linePos n +
    (if d.canvasH < l && d.canvasH < d.lt then d.wtm.slewNow * ((l - d.canvasH : Nat) : Int) / ((d.lt - d.canvasH : Nat) : Int) else 0)

/-! Lock states (R67). -/

def lockFree : Nat := 0
def lockAcquire : Nat := 1
def lockLocked : Nat := 2
def lockHoldover : Nat := 3
def lockSlewing : Nat := 4

/-- The present lock state. -/
def lock (d : Dev) : Nat := d.rd R.WTM_STATUS_LOCK

/-- The lock state changes; every change is logged (R68, Table 21-3). -/
def setLock (d : Dev) (l : Nat) : Dev :=
  if d.lock = l then d else
  let old := d.lock
  let d := d.wr R.WTM_STATUS_LOCK l
  let d := if l = lockLocked then d.wr R.WTM_STATUS_EVER_LOCKED 1 else d
  d.log 0x02 0 0 0x002 (l + 16 * old)

/-- The device may enter LIVE or WARM (R70). -/
def mayGoLive (d : Dev) : Bool :=
  d.lock = lockLocked || d.lock = lockSlewing || d.lock = lockHoldover
    || (d.lock = lockFree && d.rdb R.WTM_CTRL_FREE_RUN_OK)

/-- The reference that SOURCE selects: 0 none, 1 PTP, 2 FRAME_REF; 3 acts as 0 (Table 3-2). -/
def refSource (d : Dev) : Nat := if d.rd R.WTM_CTRL_SOURCE = 3 then 0 else d.rd R.WTM_CTRL_SOURCE

/-- A reference is valid (R68). -/
def refValid (d : Dev) (src : Nat) : Bool := (src = 1 && d.wtm.ptpValid) || (src = 2 && d.wtm.frefValid)

/-- FREF_MISSING while SOURCE selects FRAME_REF and it is not valid (R68). -/
def frefFlag (d : Dev) : Dev :=
  d.flag 0 R.WTM_STATUS_FREF_MISSING 0 false (d.refSource = 2 && !d.wtm.frefValid)

/-! Phase error and slewing (R74, R75). -/

/-- The STC time of the start of the present frame. -/
def frameStart (d : Dev) : Int := d.wtm.t0 + d.linePos (d.wtm.n - (d.line : Nat))

/-- The alignment point nearest to an instant, as a frame count k and the point's time (R65). Under FRAME_REF the
points lie whole frames from the latest edge. -/
def nearestPoint (d : Dev) (t : Int) : Int × Int :=
  let p : Nat := Nat.max 1 d.framePeriod
  if d.refSource = 2 then
    match d.wtm.frefEdge with
    | some e => let k := divRoundInt (t - e) p
                (k, e + divRoundInt (k * (d.rateDen * secUnits : Nat)) d.rateNum)
    | none => (0, t)
  else
    let k := divRoundInt (t * (d.rateNum : Nat)) (d.rateDen * secUnits)
    (k, d.alignPoint k)

/-- Frame start minus alignment point, reduced to half a frame period (R75). -/
def phaseErr (d : Dev) : Int := d.frameStart - (d.nearestPoint d.frameStart).2

/-- A time in the unit of Time as whole ns, saturating at 2^31 − 1 either way, in 32 bits (Table 3-8, Table 21-3). -/
def satNs (x : Int) : Nat := ofInt 32 (clampInt (x.tdiv 65536) (-(2 ^ 31 - 1)) (2 ^ 31 - 1))

/-- PHASE_ERR shows the phase error (Table 3-8). -/
def showPhase (d : Dev) : Dev := d.wr R.WTM_PHASE_ERR (satNs d.phaseErr)

/-- A mapping comes into use; from the first step on, reads of EPOCH return it (R80). -/
def useEpoch (d : Dev) (e : Nat) : Dev :=
  let d := { d with wtm := { d.wtm with epochUse := e % 2 ^ 48 } }
  if d.wtm.stepped then d.wrPair R.WTM_EPOCH_LO R.WTM_EPOCH_HI (e % 2 ^ 48) else d

/-- Slewing begins: EPOCH takes whole-frame corrections, and the phase error left is what each frame removes (R75). HOLDOVER is
left for SLEWING, and SLEWING for LOCKED once the error is within 1 µs (Table 3-1). LOCKED with a larger error, which the offset of a new
master can leave, has no row for SLEWING in Table 3-1: it goes there by HOLDOVER, as at a reference that is lost and back (DEDUCED, log
entry 88). -/
def startSlew (d : Dev) : Dev :=
  let k := (d.nearestPoint d.frameStart).1
  let d := if d.refSource = 2 then d
    else d.useEpoch ((k - (d.frameOf d.wtm.wln : Nat)) % (2 ^ 48 : Nat)).toNat
  let d := { d with wtm := { d.wtm with slewLeft := d.phaseErr, aligned := true } }.showPhase
  let d := if d.lock = lockHoldover then d.setLock lockSlewing else d
  if -usI 1 ≤ d.wtm.slewLeft ∧ d.wtm.slewLeft ≤ usI 1 then d.setLock lockLocked
  else (if d.lock = lockLocked then d.setLock lockHoldover else d).setLock lockSlewing

/-- The slew limit of a frame (R75): PPM acts as 1 to 1,000. -/
def slewLimit (d : Dev) : Int := ((clampNat (d.rd R.WTM_SLEW_PPM) 1 1000 * d.framePeriod / 1000000 : Nat) : Int)

/-- At a frame boundary the origin takes the frame's slew, and the next frame's is set (R75). -/
def slewFrame (d : Dev) : Dev :=
  let w := d.wtm
  let left := w.slewLeft + w.slewNow
  let t0 := w.t0 + w.slewNow
  let d := { d with wtm := { w with t0 := t0, slewLeft := left, slewNow := 0 } }
  let active := d.lock = lockSlewing ∨ d.lock = lockLocked
  let now := if active then -(clampInt left (-d.slewLimit) d.slewLimit) else 0
  let d := { d with wtm := { d.wtm with slewNow := now } }
  if d.lock = lockSlewing ∧ -usI 1 ≤ left ∧ left ≤ usI 1 then d.setLock lockLocked else d

/-! Steps (R71, R72). -/

/-- A step at a frame boundary of the old count: WLN takes the value that the reference's alignment demands. EPOCH takes the value
written since the last step, if one was (R80). A step in ACQUIRE is the first alignment; one in another state (R73) leaves that to
come (R71). The origin t₀ that a step sets is the alignment point rounded to the unit of the STC, and R64's term is rounded once more
(DESIGN CHOICE, log entry 119). -/
def stepWln (d : Dev) : Dev :=
  let t : Int := d.wtm.lineAt
  let d := { d with wtm := { d.wtm with stepped := true, stepDue := false, aligned := d.wtm.aligned || d.lock = lockAcquire, slewLeft := 0, slewNow := 0 } }
  let d := d.useEpoch (d.wtm.epochHeld.getD d.wtm.epochUse)
  let d := { d with wtm := { d.wtm with epochHeld := none } }
  if d.refSource = 2 then
    let f : Int := (d.frameOf d.wtm.wln : Nat)
    let p := d.nearestPoint t
    let start : Int := if p.2 ≤ t then p.2 else p.2 - (d.framePeriod : Nat)
    let l := ((t - start) * (d.rateNum * d.lt : Nat)) / ((d.rateDen * secUnits : Nat) : Int)
    let n := f * (d.lt : Nat) + l
    { d with wtm := { d.wtm with n := n, t0 := start - d.linePos (f * (d.lt : Nat)), wln := (n % (2 ^ 48 : Nat)).toNat } }
  else
    let e := d.alignPoint (d.wtm.epochUse : Nat)
    let n := ((t - e) * (d.rateNum * d.lt : Nat)).fdiv ((d.rateDen * secUnits : Nat) : Int)
    { d with wtm := { d.wtm with n := n, t0 := e, wln := (n % (2 ^ 48 : Nat)).toNat } }

/-- How far ahead a target lies, as the signed 32-bit difference of R84. -/
def ahead (d : Dev) (target : Nat) : Int := sext 32 (target % 2 ^ 32 + 2 ^ 32 - d.wtm.wln % 2 ^ 32)

/-- How far a target lies ahead over the full 48 bits (R83). -/
def ahead48 (d : Dev) (target : Nat) : Int := sext 48 (target % 2 ^ 48 + 2 ^ 48 - d.wtm.wln % 2 ^ 48)

/-- Calendar entries whose target is no longer ahead after a step are marked PAST, however far it moved WLN (R72). -/
def markPast (d : Dev) : Dev :=
  let mark (e : CalEntry) : CalEntry := if d.ahead48 e.target ≤ 0 then { e with past := true } else e
  { d with cal := { d.cal with entries := d.cal.entries.map mark } }

/-- The alignment at a frame boundary (R67, R71): a step where one is due and the device is in neither LIVE nor WARM,
else slewing. Answers also whether a step took place. -/
def alignFrame (d : Dev) : Dev × Bool :=
  if (d.lock = lockAcquire) then
    if (!d.wtm.aligned || d.wtm.stepDue) && !d.liveOrWarm then
      ((d.stepWln.setLock lockLocked).showPhase, true)
    else ({ d with wtm := { d.wtm with stepDue := false } }.startSlew, false)
  else if d.wtm.stepDue && d.state = .cold then (d.stepWln, true)
  else if d.refValid d.refSource then (d.showPhase, false) else (d, false)

/-- WLN counts (R61, R63) and the boundary takes its place on the STC (R64). -/
def countLine (d : Dev) : Dev :=
  let w := d.wtm
  let d := if w.fresh then { d with wtm := { w with fresh := false, wln := 0, n := 0 } }
    else { d with wtm := { w with wln := (w.wln + 1) % 2 ^ 48, n := w.n + 1 } }
  let d := if d.line = 0 then d.slewFrame else d
  let t := d.boundaryAt d.wtm.n d.line
  { d.upTo (t - d.stcOff).toNat with wtm := { d.wtm with lineAt := t }, scn := { d.scn with from_ := d.scn.from_.map (· + 1) } }

/-- A sample asked for is latched at the boundary (R79). -/
def sampleLine (d : Dev) : Dev :=
  if d.wtm.sampleDue then
    let t := d.wtm.lineAt.toNat
    let d := { d with wtm := { d.wtm with sampleDue := false } }
    (((d.wrPair R.WTM_S_WLN_LO R.WTM_S_WLN_HI d.wtm.wln).wrPair R.WTM_S_SEC_LO R.WTM_S_SEC_HI (Time.sec t)).wr
      R.WTM_S_NS (Time.ns t)).wr R.WTM_S_FRAC (Time.frac t)
  else d

/-! References coming and going (R67, R68, R69, R74). -/

/-- The jump threshold of R464, in the unit of Time: JUMP_NS held to 50 ns to 1 s. -/
def jumpLimit (d : Dev) : Int := (nanos (clampNat (d.cm R.PTP_JUMP_NS) 50 1000000000) : Nat)

/-- A jump is refused (R74, Table 21-3): JUMP_PENDING is set, the offset is logged, and where the jump is one of the selected
reference the lock state stays or becomes HOLDOVER. -/
def refuseJump (d : Dev) (off : Int) (selected : Bool) : Dev :=
  let d := (d.flag 0 R.WTM_STATUS_JUMP_PENDING 0 false true).log 0x02 0 4 0x01C (satNs off)
  if selected then d.setLock lockHoldover else d

/-- The selected reference is lost (R67, R68): LOSSES counts it. -/
def lockLost (d : Dev) : Dev :=
  let d := d.cntWrap R.WTM_STATUS_LOSSES
  if d.lock = lockAcquire then d.setLock (if d.rdb R.WTM_STATUS_EVER_LOCKED then lockHoldover else lockFree)
  else if d.lock = lockLocked ∨ d.lock = lockSlewing then d.setLock lockHoldover else d

/-- FRAME_REF has returned (R74): its offset is measured, and refused beyond the jump threshold. Within it the device slews, and a
refused jump of FRAME_REF, which holds no offset of a PTP master, waits no longer. -/
def frefReturn (d : Dev) : Dev :=
  if decide (-d.jumpLimit ≤ d.phaseErr) && decide (d.phaseErr ≤ d.jumpLimit) then
    (if d.wtm.jump = 0 then d.flag 0 R.WTM_STATUS_JUMP_PENDING 0 false false else d).startSlew
  else d.refuseJump d.phaseErr true

/-- The selected reference becomes valid (R67, R74). PTP, whose offset the servo has measured, is slewed to unless its jump waits for
an acceptance. -/
def lockValid (d : Dev) : Dev :=
  if d.lock = lockFree then d.setLock lockAcquire
  else if d.lock ≠ lockHoldover then d
  else if d.refSource = 2 then d.frefReturn
  else if d.rdb R.WTM_STATUS_JUMP_PENDING then d else d.startSlew

/-- A selected edge of FRAME_REF has come when expected: frames start at it (R65), so that the phase error measured there is what the
slew removes next (R75). -/
def followEdge (d : Dev) : Dev :=
  if d.refSource = 2 && (d.lock = lockLocked || d.lock = lockSlewing) then
    { d with wtm := { d.wtm with slewLeft := d.phaseErr } }
  else d

/-- The validity of PTP changes (R68): it is valid while the servo holds a master whose offset it has applied. -/
def setPtpValid (d : Dev) (v : Bool) : Dev :=
  if d.wtm.ptpValid = v then d else
  let d := { d with wtm := { d.wtm with ptpValid := v } }
  if d.refSource = 1 then (if v then d.lockValid else d.lockLost) else d

/-- The validity of FRAME_REF changes (R68). -/
def setFrefValid (d : Dev) (v : Bool) : Dev :=
  if d.wtm.frefValid = v then d else
  let d := { d with wtm := { d.wtm with frefValid := v } }
  let d := d.frefFlag
  if d.refSource = 2 then (if v then d.lockValid else d.lockLost) else d

/-- The nominal time between FRAME_REF edges (R65, Table 3-2). -/
def frefPeriod (d : Dev) : Int := ((Nat.max 1 (d.rd R.WTM_CTRL_FREF_DIV) * d.framePeriod : Nat) : Int)

/-- Moments that the device holds as STC times keep their moment through a step of the STC: due times, the entry of window rows and
the starts of camera frames. The audio domains note the step, which their next frame's index shows (R465). -/
def keepMoments (d : Dev) (x : Int) : Dev :=
  { d with
    link := { d.link with lanes := d.link.lanes.map fun l => { l with due := l.due.map fun b => { b with due := b.due + x } } }
    cams := d.cams.map fun c => { c with slotStart := c.slotStart + x }
    aud := { d.aud with doms := d.aud.doms.map fun k => { k with moved := true } }
    cmp := { d.cmp with layers := d.cmp.layers.map fun l => { l with
      start := l.start + x, pend := l.pend.map fun p => (p.1, p.2 + x)
      win := l.win.map fun r => { r with at_ := r.at_ + x, start := r.start + x } } } }

/-- The STC steps by an amount: master-mode audio domains count it in SLIP (R465), and the latest FRAME_REF edge keeps its
moment. -/
def stcMove (d : Dev) (x : Int) : Dev :=
  let d := ({ d with stcOff := d.stcOff + x, wtm := { d.wtm with frefEdge := d.wtm.frefEdge.map (· + x) } }).keepMoments x
  (List.range 4).foldl (fun d p =>
    if d.rdb (R.AUD_DOM_CTRL_MODE (d.lv (R.AUD_IN_CTRL_DOM p))) then d.cnt (R.AUD_SLIP p) else d) d

/-- The STC steps by an amount, and the step is logged (R465). -/
def stcStep (d : Dev) (x : Int) : Dev := (d.stcMove x).log 0x02 0 0 0x01C (satNs x)

/-- The STC and the line generator's origin step together, so that no line boundary moves in time (R464, R465). -/
def originStep (d : Dev) (x : Int) : Dev := { d with wtm := { d.wtm with t0 := d.wtm.t0 + x, lineAt := d.wtm.lineAt + x } }

end Dev

/-- REFERENCE_VALID (R68). -/
def actRefValid (r : RefKind) (d : Dev) : Dev :=
  match r with
  | .ptp => d.setPtpValid true
  | .frameRef => d.setFrefValid true

/-- REFERENCE_LOST (R68). -/
def actRefLost (r : RefKind) (d : Dev) : Dev :=
  match r with
  | .ptp => d.setPtpValid false
  | .frameRef => { d.setFrefValid false with wtm := { (d.setFrefValid false).wtm with frefEdge := none } }

/-- An edge of FRAME_REF (R65, R68), `dt` after the latest moment: a selected edge that comes when expected confirms the
reference, and frames follow it; two that lie FREF_DIV nominal frame periods apart make it valid. -/
def actFrefEdge (rising : Bool) (dt : Nat) (d : Dev) : Dev :=
  let d := d.pass dt
  if rising = d.rdb R.WTM_CTRL_FREF_EDGE then d else
  let t : Int := (d.stc : Nat)
  let near (x : Int) : Bool := decide (-Dev.usI 1 ≤ x) && decide (x ≤ Dev.usI 1)
  match d.wtm.frefEdge with
  | none => { d with wtm := { d.wtm with frefEdge := some t } }
  | some e =>
    if near (t - e - d.frefPeriod) || (d.wtm.frefValid && near (t - e - 2 * d.frefPeriod)) then
      (({ d with wtm := { d.wtm with frefEdge := some t } }).setFrefValid true).followEdge
    else if d.wtm.frefValid then d
    else { d with wtm := { d.wtm with frefEdge := some t } }

/-- Two expected edges in a row have not arrived (R68). -/
def actFrefMissing (d : Dev) : Dev :=
  if d.wtm.frefValid then
    let d := d.setFrefValid false
    { d with wtm := { d.wtm with frefEdge := none } }
  else d

/-- A write to WTM.CTRL: a change of SOURCE counts as loss of the old reference while LOCKED or SLEWING, and the new one
is acquired (R68, R69). With no reference selected the state is FREE (Table 3-1, log entry 8). R69 does not say what a change in
ACQUIRE is: the model leaves ACQUIRE for HOLDOVER or FREE as at a loss and does not count it in LOSSES (DESIGN CHOICE, log entry
102). -/
def actSource (v : Nat) (d : Dev) : Dev :=
  let old := d.refSource
  let d := (((d.wr R.WTM_CTRL_SOURCE (bits v 1 0)).wr R.WTM_CTRL_FREF_EDGE (bits v 3 3)).wr R.WTM_CTRL_FREE_RUN_OK
    (bits v 4 4)).wr R.WTM_CTRL_FREF_DIV (bits v 31 24)
  if d.refSource = old then d else
  let d := if old ≠ 0 ∧ (d.lock = Dev.lockLocked ∨ d.lock = Dev.lockSlewing) then d.lockLost
    else if d.lock = Dev.lockAcquire then
      d.setLock (if d.rdb R.WTM_STATUS_EVER_LOCKED then Dev.lockHoldover else Dev.lockFree) else d
  let d := d.frefFlag
  if d.refSource = 0 then d.setLock Dev.lockFree
  else if d.refValid d.refSource then d.setLock Dev.lockAcquire else d

/-- A write to WTM.EPOCH_LO or EPOCH_HI (R80): the value is held for the next step; until the first step, reads return
it. The half not written is that of a value already held, else that of the mapping in use. -/
def actEpoch (hi : Bool) (v : Nat) (d : Dev) : Dev :=
  let h := d.wtm.epochHeld.getD d.wtm.epochUse
  let h := if hi then h % 2 ^ 32 + 2 ^ 32 * (v % 2 ^ 16) else h / 2 ^ 32 * 2 ^ 32 + v % 2 ^ 32
  let d := { d with wtm := { d.wtm with epochHeld := some h } }
  if d.wtm.stepped then d else d.wrPair R.WTM_EPOCH_LO R.WTM_EPOCH_HI h

/-- A write of 1 to WTM.SAMPLE.GO (R79). -/
def actSampleGo (d : Dev) : Dev := { d with wtm := { d.wtm with sampleDue := true } }

/-- A read of WTM.WLN_LO latches the upper bits into WLN_HI (R78). -/
def actWlnLoRead (d : Dev) : Dev := d.wr R.WTM_WLN_HI (d.wtm.wln / 2 ^ 32)

namespace Dev

/-- The pending jump is taken: JUMP_PENDING clears, and the STC steps by the offset of the PTP master (R76, R465). -/
def takeJump (d : Dev) : Dev :=
  let j := d.wtm.jump
  let d := d.flag 0 R.WTM_STATUS_JUMP_PENDING 0 false false
  let d := { d with wtm := { d.wtm with jump := 0 } }
  if j = 0 then d else d.stcStep j

/-- A time acceptance with SLEW (R76, R465): the STC and t₀ step together; the phase error is slewed out, of a line generator that
follows PTP in whatever state it counts on a reference. -/
def acceptSlew (d : Dev) : Dev :=
  let d := (d.takeJump).originStep d.wtm.jump
  if d.lock = lockHoldover || (d.refSource = 1 && (d.lock = lockLocked || d.lock = lockSlewing)) then d.startSlew else d

/-- A time acceptance with STEP (R76, R465): the STC steps and the lock state becomes ACQUIRE, with a step due. A line
generator that follows FRAME_REF keeps its boundaries. In FREE, where no reference is selected or valid, ACQUIRE would have nothing to
align to: the device stays FREE, and a device in COLD steps at its next frame boundary (DESIGN CHOICE, log entry 102); where PTP is
selected the acceptance makes it valid, and the device enters ACQUIRE with it (`ptpAccepted`). -/
def acceptStep (d : Dev) : Dev :=
  let j := d.wtm.jump
  let d := d.takeJump
  let d := if d.refSource = 1 then d else d.originStep j
  let d := { d with wtm := { d.wtm with stepDue := true } }
  if d.lock = lockFree then d else d.setLock lockAcquire

end Dev

def execReferenceValid (ref : RefKind) (s : State) : Host.Outcome State Fault Refusal := run s fun _ d => actRefValid ref d
def execReferenceLost (ref : RefKind) (s : State) : Host.Outcome State Fault Refusal := run s fun _ d => actRefLost ref d
def execFrameRefEdge (rising : Bool) (dt : Nat) (s : State) : Host.Outcome State Fault Refusal :=
  run s fun _ d => actFrefEdge rising dt d
def execFrameRefMissing (s : State) : Host.Outcome State Fault Refusal := run s fun _ d => actFrefMissing d

end Sys2Proof.Machine
end

