-- ==== Sys2Proof/Machine/Calendar.lean ====
section
/-!
DEFINITION. The line calendar (R81 to R89, R567) and the commits (R90 to R96).
-/

namespace Sys2Proof.Machine

/-! Insertion and cancelling. -/

/-- GROUPS, ARG0 and ARG1 obey the columns of Table 3-10 for a known action (R82). -/
def calArgsOk (action groups arg0 arg1 : Nat) : Bool :=
  match action with
  | 1 => groups != 0 && arg0 = 0 && arg1 = 0
  | 2 => groups = 0 && arg0 = 0 && arg1 = 0
  | 3 => groups = 0 && arg1 = 0
  | 4 => groups = 0 && decide (arg0 ≤ 255) && arg1 = 0
  | _ => groups = 0

/-- The check of an insertion in the order of R567: the ERROR code of CAL_STATUS, 0 for an entry that is accepted. -/
def Dev.calCheck (d : Dev) (target action groups arg0 arg1 : Nat) : Nat :=
  if action = 0 ∨ 5 < action then 3
  else if !calArgsOk action groups arg0 arg1 then 7
  else if 2 ^ 31 ≤ d.ahead48 target then 2
  else if 4096 ≤ d.cal.entries.length then 1
  else if action = 3 && d.cal.entries.any (fun e => e.action = 3 && e.target = target % 2 ^ 48) then 4
  else 0

/-- Store an entry that has passed its check (R83). -/
def Dev.calStore (d : Dev) (target action groups tag arg0 arg1 : Nat) : Dev :=
  { d with cal := { d.cal with
      entries := d.cal.entries ++ [⟨target % 2 ^ 48, action, groups, tag, arg0, arg1, decide (d.ahead48 target ≤ 0)⟩] } }

/-- Insert an entry: the ERROR code and the device after it (R83, R85, R567). -/
def Dev.calInsert (d : Dev) (target action groups tag arg0 arg1 : Nat) : Nat × Dev :=
  let e := d.calCheck target action groups arg0 arg1
  if e = 0 then (0, d.calStore target action groups tag arg0 arg1) else (e, d)

/-- Cancel the pending entries with a tag (R89): the ERROR code, how many were removed, and the device after it. -/
def Dev.calCancel (d : Dev) (tag : Nat) : Nat × Nat × Dev :=
  let hit := d.cal.entries.filter fun e => e.tag = tag
  if hit = [] then ((if d.cal.fired.contains tag then 6 else 5), 0, d)
  else (0, hit.length, { d with cal := { d.cal with entries := d.cal.entries.filter fun e => e.tag != tag } })

/-- A write of 1 to CAL_CMD.INSERT: the staged entry is inserted (R83). -/
def actCalInsert (d : Dev) : Dev :=
  let w1 := d.rd (R.WTM_CAL_W_W 1)
  let target := d.rd (R.WTM_CAL_W_W 0) + 2 ^ 32 * d.rd R.WTM_CAL_TGT_HI_TGT_HI
  let past := d.ahead48 target ≤ 0
  let (e, d) := d.calInsert target (bits w1 31 24) (bits w1 23 16) (bits w1 15 0) (d.rd (R.WTM_CAL_W_W 2)) (d.rd (R.WTM_CAL_W_W 3))
  let d := d.wr R.WTM_CAL_STATUS_ERROR e
  if e = 0 then d.wrb R.WTM_CAL_STATUS_PAST_AT_INSERT past else d

/-- A write of 1 to CAL_CMD.CANCEL: the entries with the staged TAG are cancelled (R89). -/
def actCalCancel (d : Dev) : Dev :=
  let (e, n, d) := d.calCancel (bits (d.rd (R.WTM_CAL_W_W 1)) 15 0)
  (d.wr R.WTM_CAL_STATUS_ERROR e).wr R.WTM_CAL_STATUS_REMOVED (Nat.min n 255)

/-- A write to WTM.CAL_CMD; both bits set is ERROR 0x08 (Table 3-13). -/
def actCalCmd (v : Nat) (d : Dev) : Dev :=
  if bit v 0 && bit v 1 then d.wr R.WTM_CAL_STATUS_ERROR 8
  else if bit v 0 then actCalInsert d else if bit v 1 then actCalCancel d else d

/-! Firing. -/

/-- Insert an entry into a list in order of target; among equal targets it follows (R86). -/
def Dev.insertFired (d : Dev) (e : CalEntry) : List CalEntry → List CalEntry
  | [] => [e]
  | f :: r => if d.ahead48 e.target < d.ahead48 f.target then e :: f :: r else f :: Dev.insertFired d e r

/-- The entries that fire at this boundary, in order (R84, R86); at a boundary that carries a step, only those marked
PAST before it (R72). -/
def Dev.firing (d : Dev) (stepped : Bool) : List CalEntry :=
  (d.cal.entries.filter fun e => e.past || (!stepped && decide (d.ahead e.target ≤ 0))).foldl
    (fun l e => d.insertFired e l) []

/-- An entry fires: it leaves the calendar and is counted, and its tag is kept (R84, R89). -/
def Dev.fireCount (d : Dev) (e : CalEntry) : Dev :=
  let d := { d with cal := { d.cal with fired := (e.tag :: d.cal.fired).take 1024 } }
  let d := d.cnt R.WTM_CAL_FIRED_FIRED
  if e.past then d.cnt R.WTM_CAL_PAST_PAST else d

/-- Remove the firing entries from the calendar. -/
def Dev.dropFired (d : Dev) (l : List CalEntry) : Dev :=
  { d with cal := { d.cal with entries := d.cal.entries.filter fun e => !(l.contains e) } }

/-! Commits. -/

/-- The commit group of the RWS field at a key of the register file, if it is one (R14, R90). -/
def groupOfKey (k : Nat) : Option Nat :=
  match regAt (k / 32 * 4) with
  | none => none
  | some fs =>
    match fs.find? fun f => f.key = k with
    | some f => (match f.acc with
      | .rws g => some g
      | _ => none)
    | none => none

/-- A store with the entries that satisfy a predicate taken from another store. -/
def SMap.takeFrom (m src : SMap) (p : Nat → Bool) : SMap :=
  (src.filter fun q => p q.1).foldr (fun q m => SMap.put m q.1 q.2) (m.filter fun q => !(p q.1))

namespace Dev

/-- Groups whose blocks use a committed value at once (R92): G0, G1, G2 and G5. G3 and G4 wait for a camera's frame,
G6 for a port's block or a session's picture, G7 for an engine's next command. -/
def atOnce (g : Nat) : Bool := g = 0 || g = 1 || g = 2 || g = 5

/-- A group commits (R91): its shadows are copied, its tables switch, and it is clean. -/
def commitGroup (d : Dev) (g : Nat) : Dev :=
  let p : Nat → Bool := fun k => groupOfKey k = some g
  let d := { d with comm := SMap.takeFrom d.comm d.regs p }
  let d := if atOnce g then { d with live := SMap.takeFrom d.live d.regs p } else d
  let d := d.commitTables g
  (d.wr R.WTM_COMMIT_PEND_DIRTY (setBit (d.rd R.WTM_COMMIT_PEND_DIRTY) g false)).wr R.WTM_COMMIT_PEND_DEFERRED
    (setBit (d.rd R.WTM_COMMIT_PEND_DEFERRED) g false)

/-- The committed values of the fields that satisfy a predicate come into use (R92). -/
def applyComm (d : Dev) (p : Nat → Bool) : Dev := { d with live := SMap.takeFrom d.live d.comm p }

/-- Every shadow of every group becomes live in one step and COMMIT_PEND clears (R512). -/
def commitAll (d : Dev) : Dev :=
  let p : Nat → Bool := fun k => (groupOfKey k).isSome
  let d := { d with comm := SMap.takeFrom d.comm d.regs p, live := SMap.takeFrom d.live d.regs p }
  let d := { d with tbl := { d.tbl with tables := d.tbl.tables.map fun t => applyHeld (commitInst t) } }
  (d.wr R.WTM_COMMIT_PEND_DIRTY 0).wr R.WTM_COMMIT_PEND_DEFERRED 0

/-- Why a commit occasion of a group is deferred (R94, R96, Table 21-3): 1 HOLD, 2 TBL busy, 3 cue message; 0 not. -/
def deferCause (d : Dev) (g : Nat) : Nat :=
  if bit (d.rd R.WTM_COMMIT_HOLD_HOLD) g then 1
  else if d.tblBusyFor g then 2 else if bit d.com.msgHold g then 3 else 0

/-- A commit occasion is deferred (R94). -/
def deferGroup (d : Dev) (g cause : Nat) : Dev :=
  (d.wr R.WTM_COMMIT_PEND_DEFERRED (setBit (d.rd R.WTM_COMMIT_PEND_DEFERRED) g true)).log 0x02 0 4 0x007 (2 ^ g + 256 * cause)

/-- The groups with an apply-line occasion at this boundary (R93, R94). -/
def applyOccasion (d : Dev) (g : Nat) : Bool :=
  d.rd (R.WTM_APPLY_LINE_LINE g) = d.line &&
    (bit (d.rd R.WTM_COMMIT_ARM_ARM) g || bit (d.rd R.WTM_COMMIT_PEND_DEFERRED) g)

/-- A deferred group whose apply line never occurs has its occasion at the first boundary after the cause (R94). -/
def strayOccasion (d : Dev) (g : Nat) : Bool :=
  decide (d.lt ≤ d.rd (R.WTM_APPLY_LINE_LINE g)) && bit (d.rd R.WTM_COMMIT_PEND_DEFERRED) g && d.deferCause g = 0

/-- The commit occasion of one group at a boundary (R93 to R96): answers the device and whether the group committed. -/
def commitOccasion (d : Dev) (g : Nat) (calls : Bool) : Dev × Bool :=
  let apply := d.applyOccasion g
  if apply || calls || d.strayOccasion g then
    let c := d.deferCause g
    if c = 0 then
      let d := d.commitGroup g
      (if apply then d.wr R.WTM_COMMIT_ARM_ARM (setBit (d.rd R.WTM_COMMIT_ARM_ARM) g false) else d, true)
    else (d.deferGroup g c, false)
  else (d, false)

/-- The commit occasions of every group at a boundary that the calendar and COMMIT operations name in a mask: answers
the device and the mask of the groups that committed. -/
def commitOccasions (d : Dev) (mask : Nat) : Dev × Nat :=
  (List.range 8).foldl (fun (p : Dev × Nat) g =>
    let q := p.1.commitOccasion g (bit mask g)
    (q.1, if q.2 then p.2 + 2 ^ g else p.2)) (d, 0)

end Dev

/-- A write to WTM.COMMIT_ARM sets the bits written 1 (R93). -/
def actCommitArm (v : Nat) (d : Dev) : Dev :=
  d.wr R.WTM_COMMIT_ARM_ARM (Nat.lor (d.rd R.WTM_COMMIT_ARM_ARM) (v % 256))


end Sys2Proof.Machine
end

