-- ==== Sys2Proof/Machine/Raw.lean ====
section
/-!
DEFINITION. The raw pipelines (chapter 5): the ten stages as functions of the port frame, the reference and the live
registers.
-/

namespace Sys2Proof.Machine

/-- A sample of stages 2 to 10: its value and its saturation flag (R127, R130). -/
structure Sample where
  v : Int
  flag : Bool
  deriving DecidableEq, Repr

/-- Saturate to the S18 range (R127). -/
def s18 (x : Int) : Int := clampInt x (-131072) 131071

/-- The mirror image of a coordinate inside a window of n samples (R129), taken again at the other edge as often as it falls outside. -/
def mirror (n : Nat) (k : Int) : Nat :=
  let a := (k % (2 * ((n : Int) - 1))).toNat
  if n ≤ 1 then 0 else if a < n then a else 2 * (n - 1) - a

/-- The mean of numbers (R132). Of none, where an OB region that a cue has set holds no sample of a CFA position (R133), it is 0 (DESIGN
CHOICE, log entry 120). -/
def meanNat (l : List Nat) : Nat := if l = [] then 0 else l.sum / l.length

/-- Insert into a sorted list of integers. -/
def insertInt (x : Int) : List Int → List Int
  | [] => [x]
  | y :: r => if x ≤ y then x :: y :: r else y :: insertInt x r

/-- Sort integers. -/
def sortInt (l : List Int) : List Int := l.foldl (fun a x => insertInt x a) []

namespace Dev

/-- Port n and its pipeline. -/
def cam (d : Dev) (n : Nat) : CamPart := d.cams.getD n CamPart.reset

/-- Store port n and its pipeline. -/
def putCam (d : Dev) (n : Nat) (c : CamPart) : Dev := { d with cams := setV d.cams n c }

/-- The raw depth of a port (R102). -/
def camDepth (d : Dev) (n : Nat) : Nat := 10 + 2 * d.lv (R.CAM_CTRL_DEPTH n)

/-! Gangs (R109). -/

/-- The number of ports of port n's gang; 0b11 acts as single. -/
def gangSize (d : Dev) (n : Nat) : Nat :=
  match d.lv (R.CAM_CTRL_GANG n) with
  | 1 => 2 | 2 => 4 | _ => 1

/-- The leader of port n's gang: its lowest port. -/
def gangLeader (d : Dev) (n : Nat) : Nat := n / d.gangSize n * d.gangSize n

/-- The ports of port n's gang. -/
def gangMembers (d : Dev) (n : Nat) : List Nat := (List.range (d.gangSize n)).map (d.gangLeader n + ·)

/-- A Draught-path layer takes this port: a live layer of the Draught path with KIND camera whose SOURCE is the port, or the leader of
its gang (R117, R212). -/
def portDraught (d : Dev) (n : Nat) : Bool :=
  (List.range 16).any fun i =>
    d.lvb (R.CMP_LAYER_CTRL_EN i) && !d.rdb (R.CMP_LAYER_CTRL_PATH i) && d.lv (R.CMP_LAYER_CTRL_KIND i) = 1
      && (d.lv (R.CMP_LAYER_CTRL_SOURCE i) = n || d.lv (R.CMP_LAYER_CTRL_SOURCE i) = d.gangLeader n)

/-- Pipeline n uses its reference: that of a Draught-path port always, that of a Framed-path port with TNR_EN at 1 (R117, R148). -/
def refUsed (d : Dev) (n : Nat) : Bool := d.portDraught n || d.lvb (R.RAWP_CTRL_TNR_EN n)

/-! Stage 2: black level and optical black (R132). -/

/-- A port sample scaled to 16 bits. -/
def raw16 (d : Dev) (n : Nat) (rows : List (List Nat)) (x y : Nat) : Nat :=
  ((rows.getD y []).getD x 0) * 2 ^ (16 - d.camDepth n)

/-- BLACK of a CFA position. -/
def black (d : Dev) (n p : Nat) : Int := ((d.lv (R.RAWP_BLACK n p) : Nat) : Int)

/-- The row offset before clamping, 0 where OB_COL.WIDTH is 0 (R132). -/
def rowOffset (d : Dev) (n : Nat) (rows : List (List Nat)) (y p : Nat) : Int :=
  let x0 := d.lv (R.RAWP_OB_COL_X0 n)
  let w := d.lv (R.RAWP_OB_COL_WIDTH n)
  if w = 0 then 0 else
  let xs := ((List.range w).map (x0 + ·)).filter fun x => x % 2 = p % 2
  ((meanNat (xs.map fun x => d.raw16 n rows x y) : Nat) : Int) - d.black n p

/-- The clamp of the row offset. -/
def rowLim (d : Dev) (n : Nat) : Int := ((d.lv (R.RAWP_OB_LIM_ROW_LIM n) : Nat) : Int)

/-- The column offset, 0 where OB_ROW.HEIGHT is 0 (R132): both means run over the OB rows of the position's own
row parity. -/
def colOffset (d : Dev) (n : Nat) (rows : List (List Nat)) (x p : Nat) : Int :=
  let y0 := d.lv (R.RAWP_OB_ROW_Y0 n)
  let h := d.lv (R.RAWP_OB_ROW_HEIGHT n)
  if h = 0 then 0 else
  let ys := ((List.range h).map (y0 + ·)).filter fun y => y % 2 = p / 2
  let own := meanNat (ys.map fun y => d.raw16 n rows x y)
  let xs := (List.range (d.lv (R.CAM_GEOM_WIDTH n))).filter fun x => x % 2 = p % 2
  let all := meanNat (ys.flatMap fun y => xs.map fun x => d.raw16 n rows x y)
  (own : Int) - (all : Int)

/-- Stage 2 at a port position. -/
def stage2 (d : Dev) (n : Nat) (rows : List (List Nat)) (x y : Nat) : Sample :=
  let p := 2 * (y % 2) + x % 2
  let u := d.raw16 n rows x y
  ⟨s18 ((u : Int) - d.black n p - clampInt (d.rowOffset n rows y p) (-d.rowLim n) (d.rowLim n) - d.colOffset n rows x p),
   decide (d.lv (R.RAWP_SAT_LEVEL n) ≤ u)⟩

/-! The window that the stages see: crop coordinates, mirrored (R129). -/

/-- What the windows of a frame need: the pipeline, the port rows, and the number of rows that count as the frame
(R151). -/
structure RawFrame where
  n    : Nat
  rows : List (List Nat)
  h    : Nat

def cropX (d : Dev) (n : Nat) : Nat := d.lv (R.RAWP_CROP_XY_X n)
def cropY (d : Dev) (n : Nat) : Nat := d.lv (R.RAWP_CROP_XY_Y n)
def cropW (d : Dev) (n : Nat) : Nat := d.lv (R.RAWP_CROP_WH_W n)
def cropH (d : Dev) (n : Nat) : Nat := d.lv (R.RAWP_CROP_WH_H n)

/-- The stage 2 sample at a crop position that may lie outside the window (R129). -/
def at2 (d : Dev) (f : RawFrame) (x y : Int) : Sample :=
  d.stage2 f.n f.rows (d.cropX f.n + mirror (d.cropW f.n) x) (d.cropY f.n + mirror f.h y)

/-! Stage 3: defect pixels (R135 to R139). -/

/-- The usable entries of a list: those before the first that is not greater than its predecessor (R137). -/
def rising : List Nat → List Nat
  | [] => []
  | [e] => [e]
  | e :: f :: r => if e < f then e :: rising (f :: r) else [e]

/-- The raster order of a defect entry: by Y, then by X (R135). -/
def defKey (e : Nat) : Nat := bits e 29 16 * 16384 + bits e 13 0

/-- The entries of the live defect bank. -/
def defList (d : Dev) (n : Nat) : List Nat :=
  let b := d.lv (R.RAWP_CTRL_DEF_BANK n)
  let cnt := if b = 0 then d.rd (R.RAWP_DEF_COUNT0 n) else d.rd (R.RAWP_DEF_COUNT1 n)
  (List.range (Nat.min cnt 65536)).map fun i => defKey (SMap.get (d.defects.getD n ⟨[]⟩).vals (65536 * b + i))

/-- A port position is a static defect. -/
def isDef (d : Dev) (n x y : Nat) : Bool :=
  d.lvb (R.RAWP_CTRL_DEF_EN n) && (rising (d.defList n)).contains (y * 16384 + x)

/-- The eight same-colour neighbours at distance 2 (R138). -/
def ring8 : List (Int × Int) := [(-2, -2), (0, -2), (2, -2), (-2, 0), (2, 0), (-2, 2), (0, 2), (2, 2)]

/-- A crop position, mirrored, is a static defect. -/
def defAt (d : Dev) (f : RawFrame) (x y : Int) : Bool :=
  d.isDef f.n (d.cropX f.n + mirror (d.cropW f.n) x) (d.cropY f.n + mirror f.h y)

/-- A sample not in the static list is a dynamic defect (R139). -/
def dynDef (d : Dev) (f : RawFrame) (x y : Int) : Bool :=
  d.lvb (R.RAWP_CTRL_DYN_EN f.n) && !d.defAt f x y &&
    (let c := (d.at2 f x y).v
     let ns := ring8.map fun o => (d.at2 f (x + o.1) (y + o.2)).v
     let mx := ns.foldl max (-131072)
     let mn := ns.foldl min 131071
     decide (mx + (d.lv (R.RAWP_DYN_HOT_TH f.n) : Nat) < c) || decide (c < mn - (d.lv (R.RAWP_DYN_COLD_TH f.n) : Nat)))

/-- The corrected value of a defect (R138). Its flag is that of the samples it is made of: those of the chosen pair (DEDUCED from R130,
log entry 102). -/
def correct (d : Dev) (f : RawFrame) (x y : Int) : Sample :=
  let h1 := d.at2 f (x - 2) y
  let h2 := d.at2 f (x + 2) y
  let v1 := d.at2 f x (y - 2)
  let v2 := d.at2 f x (y + 2)
  let hBad := d.defAt f (x - 2) y || d.defAt f (x + 2) y
  let vBad := d.defAt f x (y - 2) || d.defAt f x (y + 2)
  let useH := if hBad then false else if vBad then true else decide ((h1.v - h2.v).natAbs ≤ (v1.v - v2.v).natAbs)
  if hBad && vBad then
    let ok := ring8.filter fun o => !d.defAt f (x + o.1) (y + o.2)
    let ss := ok.map fun o => d.at2 f (x + o.1) (y + o.2)
    match (sortInt (ss.map Sample.v))[(ss.length - 1) / 2]? with
    | some m => ⟨m, ss.any Sample.flag⟩
    | none => d.at2 f x y
  else if useH then ⟨s18 ((h1.v + h2.v).tdiv 2), h1.flag || h2.flag⟩
  else ⟨s18 ((v1.v + v2.v).tdiv 2), v1.flag || v2.flag⟩

/-- Stage 3 at a crop position. -/
def at3 (d : Dev) (f : RawFrame) (x y : Int) : Sample :=
  if d.defAt f x y || d.dynDef f x y then d.correct f x y else d.at2 f x y

/-! Stage 4: lens shading (R140, R141). -/

/-- A grid node's gain for a CFA position, U4.12. -/
def lscNode (d : Dev) (n i j p : Nat) : Nat :=
  let off := (Nat.min i 128 + 129 * Nat.min j 128) * 8 + 2 * p
  d.tblLive 4 n off + 256 * d.tblLive 4 n (off + 1)

/-- The interpolated gain at a port position, 12 fractional bits. A step that a cue writes outside R141's conditions acts as written,
held to 2 to 256, and a crop outside R131's as written (DESIGN CHOICE, log entry 102). -/
def lscGain (d : Dev) (n x y : Nat) : Nat :=
  let p := 2 * (y % 2) + x % 2
  let sx := clampNat (d.lv (R.RAWP_LSC_STEP_STEP_X n)) 2 256
  let sy := clampNat (d.lv (R.RAWP_LSC_STEP_STEP_Y n)) 2 256
  let i := x / sx
  let j := y / sy
  let fx := ((x - i * sx) * 4096 + sx / 2) / sx
  let fy := ((y - j * sy) * 4096 + sy / 2) / sy
  (d.lscNode n i j p * (4096 - fx) * (4096 - fy) + d.lscNode n (i + 1) j p * fx * (4096 - fy)
    + d.lscNode n i (j + 1) p * (4096 - fx) * fy + d.lscNode n (i + 1) (j + 1) p * fx * fy + 8388608) / 16777216

/-- Stage 4 at a crop position. -/
def at4 (d : Dev) (f : RawFrame) (x y : Int) : Sample :=
  let s := d.at3 f x y
  if d.lvb (R.RAWP_CTRL_LSC_EN f.n) then
    let g := d.lscGain f.n (d.cropX f.n + mirror (d.cropW f.n) x) (d.cropY f.n + mirror f.h y)
    ⟨s18 ((s.v * (g : Int) + 2048).tdiv 4096), s.flag⟩
  else s

/-- The stage 4 sample that a window of a later stage has at a position: outside the crop window its mirror image inside (R129). Stage 6's
nine positions are mirrored like the windows that R129 names (DESIGN CHOICE, log entry 120). -/
def win4 (d : Dev) (f : RawFrame) (x y : Int) : Sample := d.at4 f (mirror (d.cropW f.n) x : Nat) (mirror f.h y : Nat)

/-! Stage 5: spatial noise reduction (R142, R143). -/

/-- The normalised difference q of a difference at the level of a sample (R142). -/
def qOf (d : Dev) (n : Nat) (c diff : Int) : Nat :=
  let k := (clampInt c 0 65535).toNat / 2048
  Nat.min 63 (diff.natAbs * d.lv (R.RAWP_INV_SIGMA n k) / 65536)

/-- A weight of the spatial table (Table 5-7). -/
def snrW (d : Dev) (n q : Nat) : Nat :=
  match q % 4 with
  | 0 => d.lv (R.RAWP_SNR_W_W0 n (q / 4)) | 1 => d.lv (R.RAWP_SNR_W_W1 n (q / 4))
  | 2 => d.lv (R.RAWP_SNR_W_W2 n (q / 4)) | _ => d.lv (R.RAWP_SNR_W_W3 n (q / 4))

/-- A weight of the temporal table (Table 5-7). -/
def tnrW (d : Dev) (n q : Nat) : Nat :=
  match q % 4 with
  | 0 => d.lv (R.RAWP_TNR_W_W0 n (q / 4)) | 1 => d.lv (R.RAWP_TNR_W_W1 n (q / 4))
  | 2 => d.lv (R.RAWP_TNR_W_W2 n (q / 4)) | _ => d.lv (R.RAWP_TNR_W_W3 n (q / 4))

/-- Stage 5 at a crop position. -/
def at5 (d : Dev) (f : RawFrame) (x y : Int) : Sample :=
  let c := d.at4 f x y
  if d.lvb (R.RAWP_CTRL_SNR_EN f.n) then
    let ns := ring8.map fun o => d.win4 f (x + o.1) (y + o.2)
    let dw := ns.map fun s => (s.v - c.v, d.snrW f.n (d.qOf f.n c.v (s.v - c.v)))
    let num : Int := (dw.map fun p => p.1 * (p.2 : Int)).sum
    let den : Nat := 256 + (dw.map Prod.snd).sum
    let fl := num.tdiv (den : Int)
    ⟨s18 (c.v + (((Nat.min (d.lv (R.RAWP_NR_STR_SNR_STR f.n)) 256 : Nat) : Int) * fl).tdiv 256),
     c.flag || ns.any Sample.flag⟩
  else c

/-! The reference (R144, R145) and stage 6: temporal noise reduction (R146). -/

/-- The REF16 code of a stage 6 output. -/
def ref16 (v : Int) : Nat :=
  if v < -2048 then 0 else if v ≤ 49151 then (v + 2048).toNat else (51200 + (v - 49152).tdiv 8).toNat

/-- The value of a REF16 code. -/
def unref16 (e : Nat) : Int := if e < 51200 then (e : Int) - 2048 else 49152 + ((e : Int) - 51200) * 8 + 4

/-- Bytes of a reference row (R144). -/
def refRow (d : Dev) (n : Nat) : Nat := (d.cropW n * 2 + 63) / 64 * 64

/-- The base address of a reference buffer (R144). -/
def refBase (d : Dev) (n buf : Nat) : Nat :=
  d.lvPair (R.RAWP_REF_BASE_LO n) (R.RAWP_REF_BASE_HI n) + buf * (d.lv (R.RAWP_REF_BYTES n) * 4096)

/-- The reference is too small (R149). -/
def refSmall (d : Dev) (n : Nat) : Bool := decide (d.lv (R.RAWP_REF_BYTES n) * 4096 < d.refRow n * d.cropH n)

/-- A last good frame other than black exists and is read (R148, R149). -/
def hasGood (d : Dev) (n : Nat) : Bool := d.rdb (R.RAWP_STATUS_LAST_GOOD n) && !d.refSmall n && d.refUsed n

/-- The address of a pixel of the last good frame. -/
def refAddr (d : Dev) (n x y : Nat) : Nat := d.refBase n (d.cam n).goodBuf + y * d.refRow n + 2 * x

/-- A DRAM unit of 32 bytes is poisoned: it holds an uncorrectable error, or its last read timed out, which counts as one (R150,
R487, R491). -/
def poisoned (d : Dev) (addr : Nat) : Bool := d.poison.contains (addr / 32) || d.late.contains (addr / 32)

/-- A pixel of the last good frame, decoded; black where there is none (R145). -/
def refPx (m : List Host.Cell) (d : Dev) (n x y : Nat) : Int :=
  if d.hasGood n then unref16 (Memory.leNum m (d.refAddr n x y) 2) else 0

/-- The cap of the temporal weight for the present frame (R147). -/
def tnrCap (d : Dev) (n : Nat) : Nat := 64 * Nat.min (d.cam n).histAge 4

/-- The pixel at a position of the reference, mirrored into the window; stage 6's neighbours beyond the crop window are mirrored too, though
R129 names stages 3, 5 and 9 only (DESIGN CHOICE, log entry 120). -/
def mirrorXY (d : Dev) (f : RawFrame) (x y : Int) : Nat × Nat := (mirror (d.cropW f.n) x, mirror f.h y)

/-- The nine same-colour positions of R146. -/
def ring9 : List (Int × Int) := (0, 0) :: ring8

/-- Stage 6 at a crop position. -/
def at6 (m : List Host.Cell) (d : Dev) (f : RawFrame) (x y : Int) : Sample :=
  let s := d.at5 f x y
  if d.lvb (R.RAWP_CTRL_TNR_EN f.n) && !d.refSmall f.n then
    let cs := ring9.map fun o => d.win4 f (x + o.1) (y + o.2)
    let ps := ring9.map fun o => d.mirrorXY f (x + o.1) (y + o.2)
    let rs := ps.map fun p => d.refPx m f.n p.1 p.2
    let bad := d.hasGood f.n && ps.any fun p => d.poisoned (d.refAddr f.n p.1 p.2)
    let diff : Nat := (List.zipWith (fun (c : Sample) r => (c.v - r).natAbs) cs rs).sum / 9
    let c := d.at4 f x y
    let w := if bad then 0 else
      Nat.min (d.tnrW f.n (d.qOf f.n c.v (diff : Int))) (Nat.min (d.lv (R.RAWP_NR_STR_TNR_MAX f.n)) (d.tnrCap f.n))
    ⟨s18 (s.v + ((w : Int) * (rs.getD 0 0 - s.v)).tdiv 256), s.flag || cs.any Sample.flag⟩
  else s

/-! Stage 8: white balance (R157). -/

/-- WB_GAIN of a CFA position. -/
def wbGain (d : Dev) (n p : Nat) : Nat :=
  match p with
  | 0 => d.lv (R.RAWP_WB_GAIN01_G0 n) | 1 => d.lv (R.RAWP_WB_GAIN01_G1 n)
  | 2 => d.lv (R.RAWP_WB_GAIN23_G2 n) | _ => d.lv (R.RAWP_WB_GAIN23_G3 n)

/-- White balance of a sample at a CFA position. -/
def whiteBal (d : Dev) (n p : Nat) (s : Sample) : Sample :=
  ⟨s18 ((s.v * (d.wbGain n p : Int) + 2048).tdiv 4096), s.flag⟩

/-- What stage 9 reads: the live frame, or, in replacement, missed-slot and substitute rows, the last good frame, where
a poisoned unit shows 0 (R150, R151). Positions are crop positions, mirrored. -/
def at8 (m : List Host.Cell) (d : Dev) (f : RawFrame) (repl : Bool) (x y : Int) : Sample :=
  let q := d.mirrorXY f x y
  let p := 2 * ((d.cropY f.n + q.2) % 2) + (d.cropX f.n + q.1) % 2
  if repl then
    d.whiteBal f.n p ⟨if d.hasGood f.n && d.poisoned (d.refAddr f.n q.1 q.2) then 0 else refPx m d f.n q.1 q.2, false⟩
  else d.whiteBal f.n p (at6 m d f (q.1 : Nat) (q.2 : Nat))

/-! Stage 9: demosaic (R158). -/

/-- The colour at a crop position: 0 red, 1 green, 2 blue (R128). -/
def cfaColour (d : Dev) (f : RawFrame) (x y : Int) : Nat :=
  let q := d.mirrorXY f x y
  let p := 2 * ((d.cropY f.n + q.2) % 2) + (d.cropX f.n + q.1) % 2
  match d.lv (R.RAWP_CTRL_CFA f.n), p with
  | 0, 0 => 0 | 0, 3 => 2
  | 1, 1 => 0 | 1, 2 => 2
  | 2, 2 => 0 | 2, 1 => 2
  | 3, 3 => 0 | 3, 0 => 2
  | _, _ => 1

/-- The mean of the four orthogonal greens of a red or blue site (R158). -/
def gHat (m : List Host.Cell) (d : Dev) (f : RawFrame) (repl : Bool) (x y : Int) : Sample :=
  let l := [at8 m d f repl (x - 1) y, at8 m d f repl (x + 1) y, at8 m d f repl x (y - 1), at8 m d f repl x (y + 1)]
  ⟨(l.map Sample.v).sum.tdiv 4, l.any Sample.flag⟩

/-- Green at a red or blue site (R158, step 1). The differences that choose the direction are taken as part of its formula: it is
flagged when any of the nine samples is (DEDUCED from R130, log entry 102). -/
def greenAt (m : List Host.Cell) (d : Dev) (f : RawFrame) (repl : Bool) (x y : Int) : Sample :=
  let P (i j : Int) := at8 m d f repl (x + i) (y + j)
  let c := (P 0 0).v
  let l := (P (-1) 0).v
  let r := (P 1 0).v
  let l2 := (P (-2) 0).v
  let r2 := (P 2 0).v
  let u := (P 0 (-1)).v
  let b := (P 0 1).v
  let u2 := (P 0 (-2)).v
  let b2 := (P 0 2).v
  let dh := (l - r).natAbs + (2 * c - l2 - r2).natAbs
  let dv := (u - b).natAbs + (2 * c - u2 - b2).natAbs
  let gh := (2 * (l + r) + 2 * c - l2 - r2).tdiv 4
  let gv := (2 * (u + b) + 2 * c - u2 - b2).tdiv 4
  let t := d.lv (R.RAWP_DEM_T f.n)
  let fl := [P 0 0, P (-1) 0, P 1 0, P (-2) 0, P 2 0, P 0 (-1), P 0 1, P 0 (-2), P 0 2].any Sample.flag
  ⟨s18 (if dh + t < dv then gh else if dv + t < dh then gv else (gh + gv).tdiv 2), fl⟩

/-- A colour at a green site from the two sites beside it in one direction (R158, step 2). -/
def chromaAtGreen (m : List Host.Cell) (d : Dev) (f : RawFrame) (repl : Bool) (x y i j : Int) : Sample :=
  let a := at8 m d f repl (x - i) (y - j)
  let b := at8 m d f repl (x + i) (y + j)
  let ga := gHat m d f repl (x - i) (y - j)
  let gb := gHat m d f repl (x + i) (y + j)
  let c := at8 m d f repl x y
  ⟨s18 (c.v + ((a.v - ga.v) + (b.v - gb.v)).tdiv 2), a.flag || b.flag || ga.flag || gb.flag || c.flag⟩

/-- Blue at a red site, or red at a blue site (R158, step 3). -/
def chromaDiag (m : List Host.Cell) (d : Dev) (f : RawFrame) (repl : Bool) (x y : Int) : Sample :=
  let g := greenAt m d f repl x y
  let ds : List (Int × Int) := [(-1, -1), (1, -1), (-1, 1), (1, 1)]
  let xs := ds.map fun o => (at8 m d f repl (x + o.1) (y + o.2), gHat m d f repl (x + o.1) (y + o.2))
  ⟨s18 (g.v + ((xs.map fun (p : Sample × Sample) => p.1.v - p.2.v).sum).tdiv 4),
   g.flag || xs.any fun (p : Sample × Sample) => p.1.flag || p.2.flag⟩

/-- Stage 9 at a crop position: red, green and blue. -/
def at9 (m : List Host.Cell) (d : Dev) (f : RawFrame) (repl : Bool) (x y : Int) : Sample × Sample × Sample :=
  let own := at8 m d f repl x y
  match d.cfaColour f x y with
  | 0 => (own, greenAt m d f repl x y, chromaDiag m d f repl x y)
  | 2 => (chromaDiag m d f repl x y, greenAt m d f repl x y, own)
  | _ =>
    let inRow := chromaAtGreen m d f repl x y 1 0
    let inCol := chromaAtGreen m d f repl x y 0 1
    if d.cfaColour f (x + 1) y = 0 then (inRow, own, inCol) else (inCol, own, inRow)

/-! Stage 10: highlight reconstruction (R159). -/

/-- Stage 10 on the three samples of a pixel. -/
def highlight (d : Dev) (n : Nat) (p : Sample × Sample × Sample) : Rgb :=
  let l := [p.1, p.2.1, p.2.2]
  let mx := max p.1.v (max p.2.1.v p.2.2.v)
  if !l.any Sample.flag then ⟨p.1.v, p.2.1.v, p.2.2.v⟩ else
  match d.lv (R.RAWP_CTRL_HL_MODE n) with
  | 1 => ⟨mx, mx, mx⟩
  | 2 =>
    let ok := (l.filter fun s => !s.flag).map Sample.v
    if ok = [] then ⟨mx, mx, mx⟩ else
    let t := ((ok.sum.tdiv (ok.length : Int)) * ((d.lv (R.RAWP_HL_GAIN n) : Nat) : Int)).tdiv 4096
    let up (s : Sample) : Int := if s.flag then s18 (max s.v t) else s.v
    ⟨up p.1, up p.2.1, up p.2.2⟩
  | _ => ⟨p.1.v, p.2.1.v, p.2.2.v⟩

/-- The pipeline output of a row of crop coordinate y (R160): from the live frame, or from the last good frame. -/
def rawRow (m : List Host.Cell) (d : Dev) (f : RawFrame) (repl : Bool) (y : Nat) : List Rgb :=
  (List.range (d.cropW f.n)).map fun x => d.highlight f.n (at9 m d f repl (x : Int) (y : Int))

/-! Statistics (R154, Table 5-2). -/

/-- Zone width or height of a window dimension. -/
def zoneDim (w : Nat) : Nat := w / 64 / 2 * 2

/-- The zone of a coordinate: the last takes the remainder. -/
def zoneOf (z x : Nat) : Nat := if z = 0 then 63 else Nat.min 63 (x / z)

/-- The statistics buffer of a frame of which the first h rows of the crop window are live data. A zone sum that does not fit 32 bits wraps
(DESIGN CHOICE, log entry 120: R154 gives neither wrap nor saturation). -/
def statBytes (m : List Host.Cell) (d : Dev) (f : RawFrame) (seq marks wln : Nat) (repl : Bool) : List Byte :=
  let n := f.n
  let zw := zoneDim (d.cropW n)
  let zh := zoneDim (d.cropH n)
  let pos := (List.range f.h).flatMap fun y => (List.range (d.cropW n)).map fun x => (x, y)
  let ss := pos.map fun q => (q.1, q.2, 2 * ((d.cropY n + q.2) % 2) + (d.cropX n + q.1) % 2, at6 m d f (q.1 : Nat) (q.2 : Nat))
  let sums := (List.range 4096).flatMap fun z => (List.range 4).flatMap fun p =>
    leBytes 4 ((ss.filter fun q => zoneOf zh q.2.1 * 64 + zoneOf zw q.1 = z && q.2.2.1 = p && !q.2.2.2.flag).map fun q =>
      (clampInt q.2.2.2.v 0 131071).toNat).sum
  let counts := (List.range 4096).flatMap fun z =>
    leBytes 4 (ss.filter fun q => zoneOf zh q.2.1 * 64 + zoneOf zw q.1 = z && q.2.2.2.flag).length
  let hist := (List.range 4).flatMap fun p => (List.range 256).flatMap fun b =>
    leBytes 4 (ss.filter fun q => q.2.2.1 = p && !q.2.2.2.flag && (clampInt q.2.2.2.v 0 65535).toNat / 256 = b).length
  leBytes 4 seq ++ leBytes 4 (marks + 256 * b2n repl) ++ leBytes 4 wln ++ leBytes 4 (wln / 2 ^ 32) ++ leBytes 2 zw
    ++ leBytes 2 zh ++ List.replicate 44 0 ++ sums ++ counts ++ hist

end Dev
end Sys2Proof.Machine
end

