-- ==== Sys2Proof/Machine/Layers.lean ====
section
/-!
DEFINITION. The geometry of layers and of their sources, and which settings are valid (R200, R204): every commit that reaches
a layer, a frame store or a camera checks them.
-/

namespace Sys2Proof.Machine
namespace Dev

/-- Width and height of a frame store (R213). -/
def fsW (d : Dev) (j : Nat) : Nat := d.lv (R.CMP_FS_WH_W j)
def fsH (d : Dev) (j : Nat) : Nat := d.lv (R.CMP_FS_WH_H j)

/-- The layer is on the Framed path (R33). -/
def layerFramed (d : Dev) (i : Nat) : Bool := d.rdb (R.CMP_LAYER_CTRL_PATH i)

/-- The layer's source: port or store. -/
def layerSrc (d : Dev) (i : Nat) : Nat := d.lv (R.CMP_LAYER_CTRL_SOURCE i)

/-- Width and height of the layer's source (R212, R213). -/
def sourceW (d : Dev) (i : Nat) : Nat :=
  if d.layerFramed i then d.fsW (d.layerSrc i)
  else (((d.gangMembers (d.layerSrc i)).map d.cropW).sum) - (d.gangSize (d.layerSrc i) - 1) * d.gangOvl i
def sourceH (d : Dev) (i : Nat) : Nat := if d.layerFramed i then d.fsH (d.layerSrc i) else d.cropH (d.layerSrc i)

def srcX (d : Dev) (i : Nat) : Nat := d.lv (R.CMP_LAYER_SRC_XY_SRC_X i)
def srcY (d : Dev) (i : Nat) : Nat := d.lv (R.CMP_LAYER_SRC_XY_SRC_Y i)
def srcW (d : Dev) (i : Nat) : Nat := d.lv (R.CMP_LAYER_SRC_WH_SRC_W i)
def srcH (d : Dev) (i : Nat) : Nat := d.lv (R.CMP_LAYER_SRC_WH_SRC_H i)
def dstX (d : Dev) (i : Nat) : Int := sext 16 (d.lv (R.CMP_LAYER_DST_XY_DST_X i))
def dstY (d : Dev) (i : Nat) : Int := sext 16 (d.lv (R.CMP_LAYER_DST_XY_DST_Y i))
def dstW (d : Dev) (i : Nat) : Nat := d.lv (R.CMP_LAYER_DST_WH_DST_W i)
def dstH (d : Dev) (i : Nat) : Nat := d.lv (R.CMP_LAYER_DST_WH_DST_H i)

/-- The live settings of a layer are valid (R200, R204, R107). -/
def layerValid (d : Dev) (i : Nat) : Bool :=
  let src := d.layerSrc i
  let fits (s0 s n : Nat) : Bool := decide (16 ≤ s) && decide (s0 + s ≤ n)
  let ratio (s t : Nat) : Bool := decide (s ≤ 4 * t) && decide (t ≤ 32 * s)
  (if d.layerFramed i then d.lv (R.CMP_LAYER_CTRL_KIND i) = 2 && decide (0 < d.fsW src) && decide (0 < d.fsH src)
    else d.lv (R.CMP_LAYER_CTRL_KIND i) = 1 && decide (src < 8) && (d.gangMembers src).all (fun q => d.lvb (R.CAM_CTRL_EN q)))
  && fits (d.srcX i) (d.srcW i) (d.sourceW i) && fits (d.srcY i) (d.srcH i) (d.sourceH i)
  && ratio (d.srcW i) (d.dstW i) && ratio (d.srcH i) (d.dstH i)

/-- CFG_ERR of every layer after a commit (R200): an enabled layer whose live settings are invalid. -/
def checkLayers (d : Dev) : Dev :=
  (List.range 16).foldl (fun d i =>
    d.flag 0 (R.CMP_LAYER_STATUS_I_CFG_ERR i) 4 false (d.lvb (R.CMP_LAYER_CTRL_EN i) && !d.layerValid i)) d

end Dev
end Sys2Proof.Machine
end

