-- ==== Sys2Proof/Machine/Camera.lean ====
section
/-!
DEFINITION. The camera ports (chapter 4) and what their frames and lines do to the raw pipelines (chapter 5).
-/

namespace Sys2Proof.Machine
namespace Dev

/-! Frame slots of a gang (R110). -/

/-- Time in whole ns between two instants. -/
def nsBetween (a b : Time) : Nat := (b - a) / 65536

/-- The last frame starts of two ports belong to one frame slot. The spec does not say which do: the model takes those that lie within
half an EXP_PERIOD of each other (DESIGN CHOICE, log entry 102). -/
def sameSlot (d : Dev) (n q : Nat) : Bool :=
  match (d.cam n).lastStart, (d.cam q).lastStart with
  | some a, some b => decide (2 * nsBetween (Nat.min a b) (Nat.max a b) ≤ d.lv (R.CAM_EXP_PERIOD n))
  | _, _ => false

/-- The other members of a port's gang whose frame of its slot has started. -/
def slotMates (d : Dev) (n : Nat) : List Nat := (d.gangMembers n).filter fun q => q != n && d.sameSlot n q

/-- Port n, and the members of its gang whose frame of its slot has started, be it over or not. -/
def inSlot (d : Dev) (n : Nat) : List Nat := n :: d.slotMates n

/-! Marks and replacement (R115, R116). -/

/-- The counter that a mark increments, where a mark counts frames (Table 4-10). -/
def markCounter (n mark : Nat) : Option Fld :=
  match mark with
  | 1 => some (R.CAM_SHORT n) | 2 => some (R.CAM_LONG n) | 5 => some (R.CAM_RATE n)
  | 6 => some (R.CAM_OVF n) | 7 => some (R.CAM_GANG n) | _ => none

/-- A frame of port n does not reach its frame stores (R116): one that waits is taken back. What a tap takes of it stays. -/
def dropFramed (d : Dev) (n : Nat) : Dev :=
  { d with cmp := { d.cmp with waiting := d.cmp.waiting.filter fun f => f.tap.isSome || f.cam != some (n, (d.cam n).frameSeq) } }

/-- The last frame of port n as it waits for frame stores carries the marks that it has by now (R115). -/
def tagFramed (d : Dev) (n : Nat) : Dev :=
  { d with cmp := { d.cmp with waiting := d.cmp.waiting.map fun f =>
      if (f.cam == some (n, (d.cam n).frameSeq)) then { f with marks := (d.cam n).marks } else f } }

/-- Replacement of the last frame of a port begins after the rows taken so far, if it has not begun; on the Framed path the
frame is discarded whole (R116). Of a frame that is over no row is left to replace: it is no good frame (R110). -/
def replaceFrom (d : Dev) (n : Nat) : Dev :=
  let c := d.cam n
  if c.feeds && c.replFrom.isNone then
    let d := ((d.putCam n { c with replFrom := some c.rows.length }).cnt (R.CAM_REPLACED n)).dropFramed n
    if d.rdb (R.CAM_STATUS_IN_FRAME n) then d.wr (R.CAM_STATUS_REPLACING n) 1 else d
  else d

/-- The last frame of a port gains a mark (R115): it is counted, it goes with the frame to the stores, and a mark of REPL_MASK replaces
the frame in every member of the gang whose frame of the slot has started (R110, R116). -/
def mark (d : Dev) (n k : Nat) : Dev :=
  let c := d.cam n
  if bit c.marks k then d else
  let d := if c.marks = 0 then d.cnt (R.CAM_MARKED n) else d
  let d := match markCounter n k with
    | some f => d.cnt f
    | none => d
  let d := (d.putCam n { d.cam n with marks := setBit c.marks k true }).tagFramed n
  let d := if d.rdb (R.CAM_STATUS_IN_FRAME n) then d else d.wr (R.CAM_STATUS_LAST_MARKS n) (d.cam n).marks
  if bit (d.lv (R.CAM_CTRL_REPL_MASK n)) k then (d.inSlot n).foldl replaceFrom d else d

/-! Unpacking (R102, R106). -/

/-- The bit stream of a line's transfers as a number. -/
def streamNum (ts : List Word) : Nat := leNat (ts.flatMap fun t => leBytes 4 t.toNat)

/-- The k whole pixels of depth b at the start of a stream. -/
def unpack (b k s : Nat) : List Nat := (List.range k).map fun i => (s >>> (i * b)) % 2 ^ b

/-- Complete a short line by repeating its last two pixels alternately (R106). A line of one whole pixel repeats that one, and a line of
none is 0 (DESIGN CHOICE, log entry 102). -/
def completeLine (w : Nat) (px : List Nat) : List Nat :=
  let k := px.length
  (List.range w).map fun i =>
    if i < k then px.getD i 0 else if k < 2 then px.getD 0 0 else px.getD (k - 2 + (i - k) % 2) 0

/-- The transfers that a line of w pixels of depth b takes, padding included: an even number (R102). -/
def lineTransfers (w b : Nat) : Nat := ((w * b + 31) / 32 + 1) / 2 * 2

/-! Pipeline output. -/

/-- The pipelines run: WARM and LIVE (Table 1-4). -/
def pipesRun (d : Dev) : Bool := d.liveOrWarm

/-- Rows of the crop window that count as live for the present frame (R151). -/
def liveRows (d : Dev) (n : Nat) : Nat :=
  let c := d.cam n
  let taken := match c.replFrom with
    | some y => Nat.min y c.rows.length
    | none => c.rows.length
  Nat.min (taken - d.cropY n) (d.cropH n)

/-- The crop rows of the present frame that can leave the pipeline: a row leaves once six more port rows have come, and
the last rows once the frame has all its rows or has ended (R161). -/
def readyRows (d : Dev) (n : Nat) (ended : Bool) : Nat :=
  let c := d.cam n
  if ended || d.lv (R.CAM_GEOM_HEIGHT n) ≤ c.rows.length then d.cropH n
  else Nat.min (c.rows.length - 6 - d.cropY n) (d.cropH n)

/-- Write a stage 6 row to the reference in progress (R144, R148): for a Draught-path port always, for a Framed-path
port with TNR_EN at 1, and never where the reference is too small (R149). -/
def writeRef (m : List Host.Cell) (d : Dev) (f : RawFrame) (y : Nat) : Dev :=
  let n := f.n
  if d.refUsed n && !d.refSmall n then
    d.memWrite (d.refBase n (1 - (d.cam n).goodBuf) + y * d.refRow n)
      ((List.range (d.cropW n)).flatMap fun x => leBytes 2 (ref16 (at6 m d f (x : Int) (y : Int)).v)) (Requester.nrReference (d.portDraught n)).cls
  else d

/-- The poisoned reference units that temporal NR meets in a row (R150). -/
def poisonUnits (d : Dev) (n y : Nat) : Nat :=
  ((List.range ((d.cropW n + 15) / 16)).filter fun u => d.poisoned (d.refAddr n (16 * u) y)).length

/-- One row leaves the pipeline: a live row, which is written to the reference, or a row of the last good frame. -/
def emitRow (m : List Host.Cell) (d : Dev) (n y : Nat) : Dev :=
  let c := d.cam n
  let live := d.liveRows n
  if y < live then
    let f : RawFrame := ⟨n, c.rows, live⟩
    let d := d.addCnt (R.RAWP_DYN_CORR n) ((List.range (d.cropW n)).filter fun x => d.dynDef f (x : Int) (y : Int)).length
    let d := if d.lvb (R.RAWP_CTRL_TNR_EN n) && d.hasGood n then d.addCnt (R.RAWP_REF_POISON n) (d.poisonUnits n y) else d
    let d := d.writeRef m f y
    d.putCam n { d.cam n with outRows := (d.cam n).outRows ++ [rawRow m d f false y] }
  else
    let f : RawFrame := ⟨n, c.rows, d.cropH n⟩
    let d := if d.hasGood n then d.addCnt (R.RAWP_REPL_POISON n) (d.poisonUnits n y) else d
    d.putCam n { d.cam n with outRows := (d.cam n).outRows ++ [rawRow m d f true y] }

/-- Every row that is ready leaves the pipeline. -/
def emitRows (m : List Host.Cell) (d : Dev) (n : Nat) (ended : Bool) : Dev :=
  if (d.cam n).feeds && d.pipesRun then
    let k := (d.cam n).outRows.length
    (List.range (d.readyRows n ended - k)).foldl (fun d i => emitRow m d n (k + i)) d
  else d

/-- A whole frame or slot of the last good frame, or of black, leaves the pipeline (R118, R119). -/
def emitFill (m : List Host.Cell) (d : Dev) (n : Nat) (black : Bool) : Dev :=
  let f : RawFrame := ⟨n, [], d.cropH n⟩
  let rows := if black then List.replicate (d.cropH n) (List.replicate (d.cropW n) ⟨0, 0, 0⟩)
    else (List.range (d.cropH n)).map (rawRow m d f true)
  let d := if d.hasGood n && !black then
      d.addCnt (R.RAWP_REPL_POISON n) ((List.range (d.cropH n)).map fun y => d.poisonUnits n y).sum else d
  (d.putCam n { d.cam n with outRows := rows, taken := 0, filled := true }).cnt (R.RAWP_FRAMES_OUT n)

/-! Frame starts. -/

/-- The window of camera time that a commit of G3 or G4 reaches for port n (R90, R92): CAM[n], RAWP[n] and the camera
stage of CLR. -/
def camKey (n k : Nat) : Bool :=
  let a := k / 32 * 4
  a / 65536 = 0x10 + n || a / 65536 = 0x18 + n
    || (a / 65536 = 0x20 && decide (0x100 + 0x40 * n ≤ a % 65536) && decide (a % 65536 < 0x140 + 0x40 * n))

/-- What a G3 commit must change to restart the history (R147). -/
def histCfg (d : Dev) (n : Nat) : List Nat :=
  [d.lv (R.RAWP_CTRL_CFA n), d.cropX n, d.cropY n, d.cropW n, d.cropH n, d.refBase n 0, d.lv (R.RAWP_REF_BYTES n)]

/-- The committed values and tables of port n come into use at its frame start (R92, R107); a change of binding, and a
change that R147 names, have their effects, and the layers that take the port are checked again (R200). -/
def applyCam (d : Dev) (n : Nat) : Dev :=
  let cfg := d.histCfg n
  let en := d.lvb (R.CAM_CTRL_EN n)
  let d := d.applyComm (camKey n)
  let d := { d with tbl := { d.tbl with tables := d.tbl.tables.map fun (t : TableInst) =>
    if (t.table = 3 || t.table = 4) && t.inst = n then applyHeld t else t } }
  let bound := d.lvb (R.CAM_CTRL_EN n)
  let d := if bound != en then d.putCam n { d.cam n with noRate := true } else d
  let d := if bound && !en then d.putCam n { d.cam n with frameSeq := 0 } else d
  let d := d.checkLayers
  if (bound && !en) || d.histCfg n != cfg then
    (d.putCam n { d.cam n with restart := true }).wr (R.RAWP_STATUS_LAST_GOOD n) 0
  else d

/-- A paired restart of pipeline n is due at a frame that starts at this WLN (R153). -/
def pairedDue (d : Dev) (n : Nat) : Bool :=
  d.rdb (R.RAWP_HIST_ARM_ARM n) &&
    decide (0 ≤ sext 48 (d.wtm.wln + 2 ^ 48 - d.rdPair (R.RAWP_HIST_AT_LO n) (R.RAWP_HIST_AT_HI n)))

/-- The history of pipeline n at a frame start (R147, R153). -/
def startHistory (d : Dev) (n : Nat) : Dev :=
  let paired := d.pairedDue n
  let d := if paired then (d.cnt (R.RAWP_HIST_RESTARTS n)).wr (R.RAWP_HIST_ARM_ARM n) 0 else d
  let c := d.cam n
  let age := if c.restart || paired then 0 else Nat.min 4 (c.histAge + 1)
  (d.putCam n { c with histAge := age, restart := false }).wr (R.RAWP_STATUS_TNR_STEP n) age

/-- Every pipeline starts, on leaving COLD: a history restart with black (R147). A frame in progress does not feed. -/
def startPipes (d : Dev) : Dev :=
  (List.range 8).foldl (fun d n =>
    (d.putCam n { d.cam n with restart := true, feeds := false, frameSeq := 0, outRows := [], taken := 0 }).wr
      (R.RAWP_STATUS_LAST_GOOD n) 0) d

/-- The RATE check of a frame start (R112). The first frame after the frame timeout is not checked (the case of R120). -/
def rateBad (d : Dev) (n : Nat) : Bool :=
  let c := d.cam n
  match c.lastStart with
  | none => false
  | some t =>
    let iv := nsBetween t d.now
    let p := d.lv (R.CAM_EXP_PERIOD n)
    let tol := d.lv (R.CAM_RATE_TOL_TOL n)
    !c.noRate && (decide (iv + tol < p) || decide (p + tol < iv))

/-- The gang skew check at a member's frame start (R110): the mark stands on the frame of the slot in every member, one that starts
later among them, and so does a replacement. -/
def gangCheck (d : Dev) (n : Nat) : Dev :=
  if d.gangSize n = 1 then d else
  let ldr := d.gangLeader n
  let mates := d.slotMates n
  let late := (if n = ldr then mates else mates.filter (· = ldr)).any fun q =>
    match (d.cam q).lastStart with
    | some t => decide (d.lv (R.CAM_GANG_SKEW_SKEW n) < nsBetween t d.now)
    | none => false
  let d := if late || mates.any fun q => bit (d.cam q).marks 7 then (d.inSlot n).foldl (fun d q => d.mark q 7) d else d
  if mates.any fun q => (d.cam q).replFrom.isSome then d.replaceFrom n else d

/-- The geometry lies in the ranges for which R104 defines the port. -/
def geomOk (w h : Nat) : Bool :=
  w % 2 = 0 && decide (64 ≤ w) && decide (w ≤ 16384) && h % 2 = 0 && decide (16 ≤ h) && decide (h ≤ 16384)

/-- The time-stamps of a frame start change together (R125). -/
def stampStart (d : Dev) (n : Nat) : Dev :=
  let d := (d.cntWrap (R.CAM_FS_SEQ n)).wrPair (R.CAM_FS_WLN_LO n) (R.CAM_FS_WLN_HI n) d.wtm.wln
  (d.wrPair (R.CAM_FS_SEC_LO n) (R.CAM_FS_SEC_HI n) (Time.sec d.stc)).wr (R.CAM_FS_NS n) (Time.ns d.stc)

/-- The frequency in use of a port's clock, while it runs (R112, Table 4-9). The port's frame starts and lines bring it; the model updates
the register with them and not every 1 ms (DESIGN CHOICE, log entry 121). -/
def showKhz (d : Dev) (n khz : Nat) : Dev :=
  if d.rdb (R.CAM_STATUS_CLK_RUN n) then d.wr (R.CAM_CLK_KHZ n) khz else d

/-- The measurements of a frame start (Table 4-9). -/
def measStart (d : Dev) (n : Nat) : Dev :=
  let c := d.cam n
  let d := match c.lastStart with
    | some t => d.wr (R.CAM_MEAS_PERIOD n) (nsBetween t d.now)
    | none => d
  match c.lastRise with
  | some t => d.wr (R.CAM_MEAS_VBLANK n) (nsBetween t d.now)
  | none => d

end Dev

/-- The falling edge of VS starts a frame (R100, R107, R110, R112, R125), the port's clock running. -/
def actFrameStart (n : Nat) (tick : CamTick) (d : Dev) : Dev :=
  let d := d.pass tick.dt
  if !(d.cam n).vs then d else
  let d := d.applyCam n
  let bad := d.rateBad n
  let d := (d.measStart n).stampStart n
  let d := d.cnt (R.CAM_FRAMES n)
  let en := d.lvb (R.CAM_CTRL_EN n)
  let d := if en then d else d.cnt (R.CAM_DROP_UNBOUND n)
  let c := d.cam n
  let d := d.putCam n { c with
    vs := false, lastStart := some d.now, marks := 0, noRate := false, check := none, feeds := en && d.pipesRun,
    rows := [], replFrom := none, outRows := [], taken := 0, frameSeq := (c.frameSeq + 1) % 2 ^ 32,
    startWln := d.wtm.wln, slotDone := false, clkNext := false, slotStart := (d.stc : Int), filled := false,
    inSubst := d.rdb (R.CAM_STATUS_LOST n), substDue := d.now + nanos (d.lv (R.CAM_EXP_PERIOD n)) }
  let d := { d with clr := { d.clr with satCams := setBit d.clr.satCams n false } }
  let d := d.showKhz n tick.khz
  let d := (d.wr (R.CAM_STATUS_IN_FRAME n) 1).wr (R.CAM_STATUS_REPLACING n) 0
  let d := d.wrb (R.RAWP_STATUS_REF_SMALL n) (d.refSmall n)
  let d := if en && d.pipesRun then d.startHistory n else d
  let d := if c.clkNext then d.mark n 4 else d
  let d := if bad then d.mark n 5 else d
  d.gangCheck n

namespace Dev

/-- A line without its check word by the next HS (R106). -/
def missedCheck (d : Dev) (n : Nat) : Dev :=
  if (d.cam n).check.isSome then
    let d := d.putCam n { d.cam n with check := none }
    if d.lvb (R.CAM_CTRL_CHECK_EN n) then (d.cnt (R.CAM_CHECK_MISS n)).mark n 0 else d
  else d

/-- An out-of-order defect entry that the stage has met (R137): the entry before it lies in the rows taken, those that a replacement hides
(R151) among them (DESIGN CHOICE, log entry 120). -/
def defOrder (d : Dev) (n : Nat) : Dev :=
  if d.lvb (R.RAWP_CTRL_DEF_EN n) && (d.cam n).feeds then
    let l := d.defList n
    let ok := rising l
    let met := decide (ok.length < l.length) && decide (ok.getLastD 0 / 16384 < (d.cam n).rows.length)
    if met && !d.rdb (R.RAWP_STATUS_DEF_ORDER n) then d.flag n (R.RAWP_STATUS_DEF_ORDER n) 2 false true else d
  else d

/-- A port row whose row offset is clamped counts in OB_CLAMP (R134): each row of the port frame, outside the crop window as well, since
stage 2 measures it there (R131), and once whatever the number of its positions that are clamped (DESIGN CHOICE, log entry 102). -/
def obClamp (d : Dev) (n y : Nat) : Dev :=
  let c := d.cam n
  if !c.feeds || d.lv (R.RAWP_OB_COL_WIDTH n) = 0 then d else
  let beyond := [2 * (y % 2), 2 * (y % 2) + 1].any fun p =>
    decide (((d.rowLim n).toNat : Nat) < (d.rowOffset n c.rows y p).natAbs)
  if beyond then d.cnt (R.RAWP_OB_CLAMP n) else d

/-- In substitution a gang shows a frame slot only where every member has a frame of it (R110, R120): a line that comes more than
GANG_SKEW after its frame's start while one has none belongs to a frame that is replaced (DEDUCED, log entry 106). -/
def gangSubst (d : Dev) (n : Nat) : Dev :=
  let late := match (d.cam n).lastStart with
    | some t => decide (d.lv (R.CAM_GANG_SKEW_SKEW n) < nsBetween t d.now)
    | none => false
  if d.rdb (R.CAM_STATUS_LOST n) && late && decide ((d.inSlot n).length < d.gangSize n) then d.replaceFrom n else d

end Dev

/-- An active line (R101 to R106): its transfers, `dt` after the latest moment; `ovf` gives the number of transfers
taken before the capture FIFO overflowed. -/
def actCamLine (n : Nat) (tick : CamTick) (ts : List Word) (ovf : Option Nat) (m : List Host.Cell) (d : Dev) : Dev :=
  let d := (d.pass tick.dt).showKhz n tick.khz
  if (d.cam n).vs || !d.rdb (R.CAM_STATUS_IN_FRAME n) then d else
  let d := d.missedCheck n
  if d.lv (R.CAM_GEOM_HEIGHT n) ≤ (d.cam n).rows.length then d.mark n 2 else
  let w := d.lv (R.CAM_GEOM_WIDTH n)
  let b := d.camDepth n
  let got := match ovf with
    | some k => ts.take k
    | none => ts
  let short := decide (32 * got.length < w * b)
  let long := decide (Dev.lineTransfers w b < got.length)
  let px := if short then Dev.completeLine w (Dev.unpack b (32 * got.length / b) (Dev.streamNum got))
    else Dev.unpack b w (Dev.streamNum got)
  let d := d.putCam n { d.cam n with
    rows := (d.cam n).rows ++ [px], check := some (crc32c (ts.flatMap fun t => leBytes 4 t.toNat)) }
  let d := if ovf.isSome then d.mark n 6
    else if short || long then (d.cnt (R.CAM_LINE_LEN n)).mark n 3 else d
  let d := (d.defOrder n).obClamp n ((d.cam n).rows.length - 1)
  let d := d.gangSubst n
  d.emitRows m n false

/-- The check word of the last line (R106); one that comes after the next HS has missed its line. -/
def actCheckWord (n : Nat) (hs : Bool) (w : Word) (d : Dev) : Dev :=
  if hs then d.missedCheck n else
  match (d.cam n).check with
  | none => d
  | some crc =>
    let d := d.putCam n { d.cam n with check := none }
    if d.lvb (R.CAM_CTRL_CHECK_EN n) && crc != w.toNat then (d.cnt (R.CAM_CHECK_ERR n)).mark n 0 else d

/-- A clock glitch (R113). -/
def actGlitch (n : Nat) (d : Dev) : Dev :=
  let d := d.cnt (R.CAM_GLITCH n)
  if (d.cam n).vs then d.putCam n { d.cam n with clkNext := true } else d.mark n 4

namespace Dev

/-- Complete a frame by repeating its last line (R111). A frame without any line is completed with empty rows, whose samples read 0
(DESIGN CHOICE, log entry 102). -/
def repeatLast (h : Nat) (rows : List (List Nat)) : List (List Nat) :=
  rows ++ List.replicate (h - rows.length) (rows.getLastD [])

/-- The last frame of port n is over, with no mark of REPL_MASK and no row replaced. -/
def wholeFrame (d : Dev) (n : Nat) : Bool :=
  Nat.land (d.cam n).marks (d.lv (R.CAM_CTRL_REPL_MASK n)) = 0 && (d.cam n).replFrom.isNone && !d.rdb (R.CAM_STATUS_IN_FRAME n)

/-- A frame that has left the pipeline with no mark of REPL_MASK is the last good frame: the reference buffers swap (R144). In a gang they
swap once the slot's frame is good in every bound member, as the last of them ends, since a mark of one would replace all (R110). -/
def goodFrame (d : Dev) (n : Nat) : Dev :=
  let bound := (d.gangMembers n).filter fun q => d.lvb (R.CAM_CTRL_EN q)
  if d.pipesRun && (d.cam n).feeds && bound.all fun q => d.wholeFrame q && (d.cam q).feeds && d.sameSlot n q then
    bound.foldl (fun d q =>
      if d.refUsed q && !d.refSmall q then
        (d.putCam q { d.cam q with goodBuf := 1 - (d.cam q).goodBuf }).wr (R.RAWP_STATUS_LAST_GOOD q) 1
      else d) d
  else d

/-- The frame of port n that has ended started in substitution and is clean: complete with no mark of REPL_MASK (R120). -/
def cleanFrame (d : Dev) (n : Nat) : Bool := d.wholeFrame n && (d.cam n).inSubst

/-- Substitution ends with a clean frame, in a gang at a slot in which every member delivers one (R110, R120). -/
def endSubst (d : Dev) (n : Nat) : Dev :=
  if d.rdb (R.CAM_STATUS_LOST n) && (d.gangMembers n).all fun q =>
      d.cleanFrame q && d.sameSlot n q then
    (d.gangMembers n).foldl (fun d q =>
      (d.flag q (R.CAM_STATUS_LOST q) 2 true false).putCam q
        { (d.flag q (R.CAM_STATUS_LOST q) 2 true false).cam q with noRate := true, restart := true }) d
  else d

/-- A frame in progress ends (R111, R114, R115): a short frame is completed, its rows leave, its marks stand, its
statistics wait to be written. The last line's check word that has not come by the rising edge of VS counts as missed, though no HS has
come (DESIGN CHOICE, log entry 120: R106 does not say how VS rises in relation to CV and HS). -/
def endFrame (m : List Host.Cell) (d : Dev) (n : Nat) : Dev :=
  let d := d.missedCheck n
  let h := d.lv (R.CAM_GEOM_HEIGHT n)
  let d := if (d.cam n).rows.length < h then d.mark n 1 else d
  let c := d.cam n
  let d := if c.replFrom.isNone then
      let e := (d.putCam n { c with rows := repeatLast h c.rows }).defOrder n
      (List.range (h - c.rows.length)).foldl (fun d i => d.obClamp n (c.rows.length + i)) e
    else d
  let d := emitRows m d n true
  let c := d.cam n
  let d := (d.wr (R.CAM_STATUS_LAST_MARKS n) c.marks).wr (R.CAM_STATUS_IN_FRAME n) 0
  let d := d.wr (R.CAM_STATUS_REPLACING n) 0
  let d := if d.rdb (R.RAWP_STATUS_DEF_ORDER n) then d.flag n (R.RAWP_STATUS_DEF_ORDER n) 2 false false else d
  let d := if c.feeds && d.pipesRun then d.cnt (R.RAWP_FRAMES_OUT n) else d
  let d := if c.feeds && d.pipesRun && d.lvb (R.RAWP_CTRL_STATS_EN n) then
      d.putCam n { d.cam n with
        stat := some (statBytes m d ⟨n, c.rows, d.liveRows n⟩ c.frameSeq c.marks c.startWln (decide (d.liveRows n < d.cropH n))) }
    else d
  (d.goodFrame n).endSubst n

end Dev

/-- The rising edge of VS ends a frame (R100). -/
def actFrameEnd (n dt : Nat) (m : List Host.Cell) (d : Dev) : Dev :=
  let d := d.pass dt
  if (d.cam n).vs then d else
  let d := if d.rdb (R.CAM_STATUS_IN_FRAME n) then d.endFrame m n else d
  d.putCam n { d.cam n with vs := true, lastRise := some d.now }

/-- The run of a unit has lost lock or clock (R331). -/
def Dev.runLost (d : Dev) (u : CalUnit) : Dev :=
  { d with calib := { d.calib with runs := d.calib.runs.map fun r => if r.unit = u then { r with lost := true } else r } }

/-- The port's clock is declared stopped (R114): a frame in progress ends at once, marked CLK; no HS comes by which the check word of its
last line could be missed. What VS does while the clock stands the port does not sample: it sees the next rising edge once the clock
runs, and a blanking in which the clock stopped is not measured. -/
def Dev.camClockStop (m : List Host.Cell) (d : Dev) (n : Nat) : Dev :=
  let d := (d.cnt (R.CAM_CLK_STOP n)).wr (R.CAM_STATUS_CLK_RUN n) 0
  let d := (d.putCam n { d.cam n with check := none, lastRise := none }).runLost ⟨1, n⟩
  if d.rdb (R.CAM_STATUS_IN_FRAME n) then (d.mark n 4).endFrame m n else d

/-- A frame still in progress where its slot is over leaves the pipeline to what fills the next one: none of its rows leaves any more, and
it is no good frame (DESIGN CHOICE, log entry 47). -/
def Dev.abandon (d : Dev) (n : Nat) : Dev :=
  if d.rdb (R.CAM_STATUS_IN_FRAME n) && (d.cam n).feeds then
    (d.putCam n { d.cam n with feeds := false, replFrom := some (d.cam n).rows.length }).dropFramed n
  else d

/-- The slot that begins at an instant is missed in one member of a gang, and so in this port (R110, R118): a frame of it that has
started is replaced; else the slot is filled with the last good frame, at the line times that a frame which starts at that instant
would have had. -/
def Dev.missSlot (m : List Host.Cell) (slot : Time) (d : Dev) (n : Nat) : Dev :=
  let c := d.cam n
  let begun := match c.lastStart with
    | some s => decide (slot ≤ s + nanos (d.lv (R.CAM_EXP_PERIOD n)) / 2)
    | none => false
  if begun then d.replaceFrom n
  else if c.slotDone || !d.lvb (R.CAM_CTRL_EN n) then d else
  let d := (d.abandon n).emitFill m n false
  let d := d.putCam n { d.cam n with slotStart := (slot : Int) + d.stcOff, slotDone := true }
  (d.cnt (R.CAM_MISSED n)).wr (R.CAM_STATUS_REPLACING n) 1

/-- A missed slot of a Draught-path port (R118), in every member of the gang (R110). -/
def actMissedSlot (n : Nat) (m : List Host.Cell) (d : Dev) : Dev :=
  let c := d.cam n
  match c.lastStart with
  | none => d
  | some t =>
    if d.portDraught n && d.pipesRun && d.lvb (R.CAM_CTRL_EN n) && !c.slotDone && !d.rdb (R.CAM_STATUS_LOST n) then
      let d := d.upTo (t + nanos (d.lv (R.CAM_EXP_PERIOD n) + d.lv (R.CAM_RATE_TOL_TOL n)))
      (d.gangMembers n).foldl (Dev.missSlot m (t + nanos (d.lv (R.CAM_EXP_PERIOD n)))) d
    else d

/-- The frame timeout expires (R119): LOST, and substitution, in every member of the gang (R110). -/
def actFrameTimeout (n : Nat) (d : Dev) : Dev :=
  match (d.cam n).lastStart with
  | none => d
  | some t =>
    if d.rdb (R.CAM_STATUS_LOST n) then d else
    let due := t + nanos (2 * d.lv (R.CAM_EXP_PERIOD n))
    let d := d.upTo due
    (d.gangMembers n).foldl (fun d q =>
      let e := d.flag q (R.CAM_STATUS_LOST q) 2 true true
      e.putCam q { e.cam q with noRate := true, substDue := due }) d

/-- In substitution the pipeline produces one substitute frame per EXP_PERIOD (R119): the first as substitution begins, each next one
an EXP_PERIOD later, or an EXP_PERIOD after the start of a frame that has come meanwhile. A frame that is still in progress then, as of a
camera that hangs, gives way to it. -/
def actSubstitute (n : Nat) (m : List Host.Cell) (d : Dev) : Dev :=
  if d.rdb (R.CAM_STATUS_LOST n) && d.pipesRun && d.lvb (R.CAM_CTRL_EN n) then
    let due := (d.cam n).substDue
    let d := ((d.upTo due).abandon n).emitFill m n (d.lvb (R.CAM_CTRL_SUBST_BLACK n))
    let d := d.putCam n { d.cam n with
      startWln := d.wtm.wln, slotStart := (due : Int) + d.stcOff, substDue := due + nanos (d.lv (R.CAM_EXP_PERIOD n)) }
    (d.cnt (R.CAM_SUBST n)).wr (R.CAM_STATUS_REPLACING n) 1
  else d

/-- A write of RAWP.DEF_DATA addresses the live bank (R136). -/
def defRefused (n : Nat) (d : Dev) : Bool := decide (d.rd (R.RAWP_DEF_ADDR_BANK n) = d.lv (R.RAWP_CTRL_DEF_BANK n))

/-- A read or write of RAWP.DEF_DATA (R136): `w` is the word written, none for a read. A write into the live bank ends
with an error response and an ACCESS entry. The entry is stored and read back as written: 1s written to its reserved bits [31:30] and
[15:14], which R135 calls 0, stay in it and name no other pixel (DESIGN CHOICE, log entry 102). -/
def actDefData (n : Nat) (w : Option Nat) (d : Dev) : Dev :=
  let b := d.rd (R.RAWP_DEF_ADDR_BANK n)
  let i := d.rd (R.RAWP_DEF_ADDR_INDEX n)
  let adv (d : Dev) : Dev := if d.rdb (R.RAWP_DEF_ADDR_AUTOINC n) then d.wr (R.RAWP_DEF_ADDR_INDEX n) (i + 1) else d
  match w with
  | some v =>
    if defRefused n d then d.log (0x18 + n) n 4 0x005 (0x40 + 65536)
    else
      adv (d.writeBank (2 + n) (65536 * b + i) (v % 2 ^ 32))
  | none => adv (d.wr (R.RAWP_DEF_DATA_DATA n) (SMap.get (d.defects.getD n ⟨[]⟩).vals (65536 * b + i)))

/-- A write of 1 to RAWP.HIST_ARM.ARM arms a paired restart (R153). -/
def actHistArm (n : Nat) (d : Dev) : Dev := d.wr (R.RAWP_HIST_ARM_ARM n) 1

/-- A frame's statistics have been written (R155): STAT_BUF and STAT_SEQ change together. -/
def actStatsDone (n : Nat) (d : Dev) : Dev :=
  match (d.cam n).stat with
  | none => d
  | some bs =>
    let buf := d.rd (R.RAWP_STAT_SEQ n) % 2
    let d := d.memWrite (d.lvPair (R.RAWP_STAT_BASE_LO n) (R.RAWP_STAT_BASE_HI n) + 0x20000 * buf) bs Requester.statistics.cls
    let d := d.putCam n { d.cam n with stat := none }
    (d.cntWrap (R.RAWP_STAT_SEQ n)).wr (R.RAWP_STATUS_STAT_BUF n) buf

def execCamLine (n : Fin 8) (dt : CamTick) (transfers : List Word) (ovf : Option Nat) (s : State) :
    Host.Outcome State Fault Refusal := run s fun m d => actCamLine n dt transfers ovf m d
def execCamCheckWord (n : Fin 8) (check : CheckWord) (s : State) : Host.Outcome State Fault Refusal :=
  run s fun _ d => actCheckWord n check.hs check.word d
def execCamGlitch (n : Fin 8) (s : State) : Host.Outcome State Fault Refusal := run s fun _ d => actGlitch n d
def execMissedSlot (n : Fin 8) (s : State) : Host.Outcome State Fault Refusal := run s fun m d => actMissedSlot n m d
def execFrameTimeout (n : Fin 8) (s : State) : Host.Outcome State Fault Refusal := run s fun _ d => actFrameTimeout n d
def execSubstituteFrame (n : Fin 8) (s : State) : Host.Outcome State Fault Refusal := run s fun m d => actSubstitute n m d
def execStatsWriteDone (n : Fin 8) (s : State) : Host.Outcome State Fault Refusal := run s fun _ d => actStatsDone n d

end Sys2Proof.Machine
end

