-- ==== Sys2Proof/Machine/Fp.lean ====
section
/-!
DEFINITION. FP24 arithmetic and the LOG16 shaper (R162 to R164): values are exact fractions, and a result is rounded
once to FP24 (log entry 10).
-/

namespace Sys2Proof.Machine

/-- An exact number: numerator over a positive denominator. It is no part of the state. -/
structure Frac where
  num : Int
  den : Nat

namespace Frac

def ofNat (n : Nat) : Frac := ⟨n, 1⟩
def ofInt (n : Int) : Frac := ⟨n, 1⟩
def add (a b : Frac) : Frac := ⟨a.num * b.den + b.num * a.den, a.den * b.den⟩
def sub (a b : Frac) : Frac := ⟨a.num * b.den - b.num * a.den, a.den * b.den⟩
def mul (a b : Frac) : Frac := ⟨a.num * b.num, a.den * b.den⟩
/-- a / n for a positive whole n. -/
def divN (a : Frac) (n : Nat) : Frac := ⟨a.num, a.den * n⟩
/-- a / b for a positive b. -/
def div (a b : Frac) : Frac := ⟨a.num * b.den, a.den * b.num.toNat⟩
def le (a b : Frac) : Bool := decide (a.num * b.den ≤ b.num * a.den)
def pos (a : Frac) : Bool := decide (0 < a.num)
def min (a b : Frac) : Frac := if le a b then a else b
def max (a b : Frac) : Frac := if le a b then b else a
/-- The nearest whole number, ties upward. -/
def round (a : Frac) : Int := divRoundInt a.num a.den
/-- In units of 2^-32, rounded down. -/
def fix32 (a : Frac) : Int := (a.num * 4294967296).fdiv a.den

end Frac

/-- The code of the largest finite FP24 value. -/
def fpMax : Nat := 0x7EFFFF

/-- The value of an FP24 code (R162): exponent 127 reads as the largest finite value of the sign. -/
def fpVal (code : Nat) : Frac :=
  let e := bits code 22 16
  let m := if e = 127 then 0xFFFF else bits code 15 0
  let e := if e = 127 then 126 else e
  if e = 0 then ⟨0, 1⟩ else
  let mag : Nat := 65536 + m
  let s : Int := if bit code 23 then -1 else 1
  if 79 ≤ e then ⟨s * (mag * 2 ^ (e - 79) : Nat), 1⟩ else ⟨s * (mag : Nat), 2 ^ (79 - e)⟩

/-- Division of whole numbers, rounded to nearest with ties to even. -/
def divEven (a b : Nat) : Nat :=
  let q := a / b
  let r := a % b
  if 2 * r < b then q else if b < 2 * r then q + 1 else if q % 2 = 0 then q else q + 1

/-- The power of two at or below a positive fraction. -/
def floorLog2 (n d : Nat) : Int :=
  let k : Int := (Nat.log2 n : Int) - (Nat.log2 d : Int)
  let ge : Bool := if 0 ≤ k then decide (d * 2 ^ k.toNat ≤ n) else decide (d ≤ n * 2 ^ (-k).toNat)
  if ge then k else k - 1

/-- Round an exact value to FP24 (R163): nearest, ties to even, with unbounded exponent; then underflow to zero and
saturation. -/
def fpRound (q : Frac) : Fp :=
  let n := q.num.natAbs
  let d := Nat.max 1 q.den
  if n = 0 then ⟨0, false⟩ else
  let sgn := if q.num < 0 then 2 ^ 23 else 0
  let k := floorLog2 n d
  let m := if k ≤ 16 then divEven (n * 2 ^ (16 - k).toNat) d else divEven n (d * 2 ^ (k - 16).toNat)
  let k := if m = 131072 then k + 1 else k
  let m := if m = 131072 then 65536 else m
  if k < -62 then ⟨0, false⟩
  else if 63 < k then ⟨sgn + fpMax, true⟩
  else ⟨sgn + (k + 63).toNat * 65536 + (m - 65536), false⟩

/-- The exact value of an FP24 result. -/
def Fp.val (x : Fp) : Frac := fpVal x.code

/-- A formula over FP24 values gives one FP24 result (R163): rounded once, marked where an operand was. -/
def fpFrom (ins : List Fp) (q : Frac) : Fp := let r := fpRound q; ⟨r.code, r.sat || ins.any Fp.sat⟩

/-- A pixel of zeros. -/
def Pix.zero : Pix := ⟨⟨0, false⟩, ⟨0, false⟩, ⟨0, false⟩⟩

/-- A pixel of zeros that keeps whether saturations took place in it (R223). -/
def Pix.muted (p : Pix) : Pix := ⟨⟨0, p.r.sat⟩, ⟨0, p.g.sat⟩, ⟨0, p.b.sat⟩⟩

/-- A pixel of which no saturation is still to be counted (R163). -/
def Pix.counted (p : Pix) : Pix := ⟨⟨p.r.code, false⟩, ⟨p.g.code, false⟩, ⟨p.b.code, false⟩⟩

/-- A pixel whose components are FP24 codes. -/
def Pix.ofCodes (r g b : Nat) : Pix := ⟨⟨r, false⟩, ⟨g, false⟩, ⟨b, false⟩⟩

/-- A saturation took place in a pixel. -/
def Pix.sat (p : Pix) : Bool := p.r.sat || p.g.sat || p.b.sat

/-- Component k of a pixel: 0 R, 1 G, 2 B. -/
def Pix.comp (p : Pix) (k : Nat) : Fp := match k with
  | 0 => p.r | 1 => p.g | _ => p.b

/-- Apply a function to each component, by its number. -/
def Pix.map (f : Nat → Fp → Fp) (p : Pix) : Pix := ⟨f 0 p.r, f 1 p.g, f 2 p.b⟩

/-- a + w (b − a) of two pixels, rounded once (R199, R212, R222). -/
def Pix.blend (a b : Pix) (w : Frac) : Pix :=
  let f (x y : Fp) : Fp := fpFrom [x, y] (x.val.add (w.mul (y.val.sub x.val)))
  ⟨f a.r b.r, f a.g b.g, f a.b b.b⟩

/-- A 3 by 3 matrix of FP24 codes applied to a pixel: each row is the sum of three exact products, rounded once
(R163, R167). -/
def fpMatrix (m : Nat → Nat) (p : Pix) : Pix :=
  let row (i : Nat) : Fp := fpFrom [p.r, p.g, p.b]
    ((((fpVal (m (3 * i))).mul p.r.val).add ((fpVal (m (3 * i + 1))).mul p.g.val)).add ((fpVal (m (3 * i + 2))).mul p.b.val))
  ⟨row 0, row 1, row 2⟩

/-- The nine bytes of a pixel in memory and in the signature: R, G and B, three bytes each (R214, R226). -/
def Pix.bytes (p : Pix) : List Byte := leBytes 3 p.r.code ++ leBytes 3 p.g.code ++ leBytes 3 p.b.code

/-- The largest number below 2^k whose p-th power is at most n. -/
def rootBits (n p : Nat) : Nat → Nat → Nat
  | 0, r => r
  | k + 1, r => rootBits n p k (if (r + 2 ^ k) ^ p ≤ n then r + 2 ^ k else r)

/-- The LOG16 code of a value (R164): 2,048 codes a stop above 2^-20, rounded to nearest with ties up, computed exactly
as the number of half codes that lie at or below it. -/
def log16 (q : Frac) : Nat :=
  if q.num ≤ 0 then 0 else
  let n := q.num.toNat
  let k := floorLog2 n q.den
  if k < -20 || (decide (k = -20) && decide (n * 2 ^ 20 = q.den)) then 0 else
  let a := if 0 ≤ k then n else n * 2 ^ (-k).toNat
  let b := if 0 ≤ k then q.den * 2 ^ k.toNat else q.den
  let h := (floorLog2 (a ^ 4096) (b ^ 4096)).toNat
  Nat.min 65535 (2048 * (k + 20).toNat + (h + 1) / 2)

/-- 2^(j / p) as an FP24 code with exponent k, for j below p: the mantissa is rounded to nearest (R164, R176). -/
def fpExp (k : Int) (j p : Nat) : Nat :=
  let t := rootBits (2 ^ (17 * p + j)) p 18 0
  (k + 63).toNat * 65536 + ((t + 1) / 2 - 65536)

/-- The FP24 value of a LOG16 code (R164). -/
def unlog16 (c : Nat) : Nat := if c = 0 then 0 else fpExp ((c / 2048 : Nat) - 20) (c % 2048) 2048

/-- The uniformity gain 2^((128 − u) / 384), rounded to FP24 (R176). -/
def uniGain (u : Nat) : Nat := if u ≤ 128 then fpExp 0 (128 - u) 384 else fpExp (-1) (384 + 128 - u) 384

end Sys2Proof.Machine
end

