-- ==== Sys2Proof/Machine/Curves.lean ====
section
/-!
DEFINITION. The transfer functions that R190 and R205 name: the inverse EOTF and the EOTF of SMPTE ST 2084, the OETF of ITU-R
BT.2100 HLG and its inverse. The rules name the standards and do not repeat their formulas: the constants below are the
standards' (PRESUMED, log entry 107). Results are rounded down, far below the step of a ten-bit code.
-/

namespace Sys2Proof.Machine

/-- The largest number below 2^k, on from r, that a test which holds up to some number accepts. -/
def searchBits (ok : Nat → Bool) : Nat → Nat → Nat
  | 0, r => r
  | k + 1, r => searchBits ok k (if ok (r + 2 ^ k) then r + 2 ^ k else r)

/-- x^(p / q) of a fraction from 0 to 1, in units of 2^-n. -/
def powRat (x : Frac) (p q n : Nat) : Nat :=
  rootBits (x.num.toNat ^ p * 2 ^ (n * q) / x.den ^ p) q (n + 1) 0

/-- A fraction held to the range from 0 to 1. -/
def Frac.unit (x : Frac) : Frac := (x.max ⟨0, 1⟩).min ⟨1, 1⟩

/-- ST 2084's constants c1, c2 and c3, in units of 1/4,096; its exponents are m1 = 1,305/8,192 and m2 = 2,523/32. -/
def pqC1 : Int := 3424
def pqC2 : Int := 77216
def pqC3 : Int := 76544

/-- The ST 2084 inverse EOTF (R190): E′ in units of 2^-32 from luminance / 10,000. -/
def pqEncode (y : Frac) : Nat :=
  let u : Int := powRat y.unit 1305 8192 40
  powRat ⟨pqC1 * 2 ^ 40 + pqC2 * u, ((4096 * 2 ^ 40 + pqC3 * u : Int)).toNat⟩ 2523 32 32

/-- The ST 2084 EOTF (R205): luminance / 10,000 from E′ in 0 to 1. -/
def pqDecode (e : Frac) : Frac :=
  let t : Int := powRat e.unit 32 2523 48
  let top := 4096 * t - pqC1 * 2 ^ 48
  if top ≤ 0 then ⟨0, 1⟩ else
  ⟨(powRat ⟨top, (pqC2 * 2 ^ 48 - pqC3 * t).toNat⟩ 8192 1305 48 : Nat), 2 ^ 48⟩

/-- log2 of a positive fraction in units of 2^-32: the whole part from the lengths, each further bit by squaring. -/
def log2Frac (x : Frac) : Int :=
  let k := floorLog2 x.num.toNat x.den
  let m := if 0 ≤ k then x.num.toNat * 2 ^ 63 / (x.den * 2 ^ k.toNat) else x.num.toNat * 2 ^ (63 + (-k).toNat) / x.den
  let bitsOf := (List.range 32).foldl (fun (p : Nat × Nat) _ =>
    let q := p.1 * p.1 / 2 ^ 63
    if 2 ^ 64 ≤ q then (q / 2, 2 * p.2 + 1) else (q, 2 * p.2)) (m, 0)
  k * 2 ^ 32 + (bitsOf.2 : Int)

/-- The BT.2100 HLG OETF (R190), in units of 2^-32: sqrt(3 E) up to E = 1/12, a × ln(12 E − b) + c above, with a = 0.17883277,
b = 0.28466892 and c = 0.55991073. ln 2 is 0.6931471805599453. -/
def hlgEncode (e : Frac) : Nat :=
  let e := e.unit
  if e.le ⟨1, 12⟩ then powRat (e.mul ⟨3, 1⟩) 1 2 32 else
  let l := log2Frac ((e.mul ⟨12, 1⟩).sub ⟨28466892, 100000000⟩)
  ((l * 6931471805599453 * 17883277).fdiv (10 ^ 24) + (55991073 * 2 ^ 32) / 10 ^ 8).toNat

/-- The BT.2100 HLG inverse OETF (R205) of E′ in 0 to 1, as the largest value that the OETF takes no higher. -/
def hlgDecode (e : Frac) : Frac :=
  let u := (e.unit).fix32.toNat
  ⟨(searchBits (fun r => decide (r ≤ 2 ^ 40) && decide (hlgEncode ⟨(r : Nat), 2 ^ 40⟩ ≤ u)) 41 0 : Nat), 2 ^ 40⟩

end Sys2Proof.Machine
end

