-- ==== Sys2Proof/Machine/Colour.lean ====
section
/-!
DEFINITION. Colour science and wall correction (chapter 6): the camera colour stage, the wall colour stage, the closed
loops, the taps' encoding and the banked LUTs.
-/

namespace Sys2Proof.Machine

/-- The key of a LUT entry in the store of LUTs. -/
def lutKey (kind inst bank ch index : Nat) : Nat := (((kind * 16 + inst) * 2 + bank) * 4 + ch) * 2048 + index

/-- The bits that LUT_DATA keeps, by KIND (Table 6-11). -/
def lutWidth (kind : Nat) : Nat := match kind with
  | 1 => 24 | 2 => 32 | _ => 20

/-- The dither threshold of a pixel (R189): n is 0 to 15, k the channel. -/
def ditherT (x y n k : Nat) : Nat :=
  let xx := (x + 7 * n + 5 * k) % 16
  let yy := (y + 11 * n + 3 * k) % 16
  let v := Nat.xor xx yy
  (List.range 4).foldl (fun t i => 4 * t + 2 * bits v i i + bits yy i i) 0

/-- A drive value in units of 1/16 code as a drive code (R188). -/
def driveCode (depth36 : Bool) (v t : Nat) : Nat :=
  if depth36 then Nat.min 4095 ((v + t) / 256) else Nat.min 65535 ((16 * v + t) / 256)

/-- What the wall stage makes of a pixel: three drive codes, and whether a saturation or a clamp took place. It is no
part of the state. -/
structure Drive where
  r    : Nat
  g    : Nat
  b    : Nat
  sat  : Bool
  clip : Bool

/-- The logarithm of a positive whole number in units of 2^-32, rounded down (log entry 11). -/
def log2Fix (n : Nat) : Nat := (log2Frac (Frac.ofNat n)).toNat

/-- The lower median of numbers (R181). -/
def lowerMedian (l : List Nat) : Nat := ((sortInt (l.map Int.ofNat)).getD ((l.length - 1) / 2) 0).toNat

/-- x moves toward y by at most `up` or `down`. -/
def moveTo (x y up down : Nat) : Nat := if x < y then Nat.min y (x + up) else Nat.max y (x - down)

namespace Dev

/-- A LUT entry. -/
def lut (d : Dev) (kind inst bank ch index : Nat) : Nat := SMap.get d.clr.luts (lutKey kind inst bank ch index)

/-! The camera colour stage. -/

/-- The response 1D LUT of camera c, channel k (R166). -/
def lut1D (d : Dev) (c k : Nat) (s : Int) : Fp :=
  if !d.lvb (R.CLR_CAMC_CTRL_LUT1_EN c) then fpRound ⟨s, 65536⟩ else
  let e (i : Nat) : Frac := fpVal (d.lut 1 c (d.lv (R.CLR_CAMC_CTRL_LUT1_BANK c)) k i)
  if 0 ≤ s then
    let v := Nat.min s.toNat 131071
    let i := v / 128
    fpRound ((e i).add (((Frac.ofNat (v % 128)).mul ((e (i + 1)).sub (e i))).divN 128))
  else fpRound ((e 0).add (((Frac.ofInt s).divN 128).mul ((e 1).sub (e 0))))

/-- A LOG16 code of the live 3D LUT node (r, g, b) of camera c, component k (R168). -/
def lut3DNode (d : Dev) (c r g b k : Nat) : Int :=
  let o := ((r * 65 + g) * 65 + b) * 6 + 2 * k
  ((d.tblLive 3 c o + 256 * d.tblLive 3 c (o + 1) : Nat) : Int)

/-- The 3D LUT of camera c (R168). -/
def lut3D (d : Dev) (c : Nat) (p : Pix) : Pix :=
  if !d.lvb (R.CLR_CAMC_CTRL_LUT3D_EN c) then p else
  let cr := log16 p.r.val
  let cg := log16 p.g.val
  let cb := log16 p.b.val
  let fr : Int := ((cr % 1024 : Nat) : Int)
  let fg : Int := ((cg % 1024 : Nat) : Int)
  let fb : Int := ((cb % 1024 : Nat) : Int)
  p.map fun k x =>
    let n (i j l : Nat) : Int := d.lut3DNode c (cr / 1024 + i) (cg / 1024 + j) (cb / 1024 + l) k
    let c000 := n 0 0 0
    let c100 := n 1 0 0
    let c010 := n 0 1 0
    let c001 := n 0 0 1
    let c110 := n 1 1 0
    let c101 := n 1 0 1
    let c011 := n 0 1 1
    let c111 := n 1 1 1
    let t :=
      if fr ≥ fg ∧ fg ≥ fb then fr * (c100 - c000) + fg * (c110 - c100) + fb * (c111 - c110)
      else if fr ≥ fb ∧ fb ≥ fg then fr * (c100 - c000) + fb * (c101 - c100) + fg * (c111 - c101)
      else if fb ≥ fr ∧ fr ≥ fg then fb * (c001 - c000) + fr * (c101 - c001) + fg * (c111 - c101)
      else if fg ≥ fr ∧ fr ≥ fb then fg * (c010 - c000) + fr * (c110 - c010) + fb * (c111 - c110)
      else if fg ≥ fb ∧ fb ≥ fr then fg * (c010 - c000) + fb * (c011 - c010) + fr * (c111 - c011)
      else fb * (c001 - c000) + fg * (c011 - c001) + fr * (c111 - c011)
    ⟨unlog16 (clampInt (c000 + (t + 512).fdiv 1024) 0 65535).toNat, x.sat⟩

/-- The camera colour stage of camera c on one pixel (R165). -/
def camColour (d : Dev) (c : Nat) (p : Rgb) : Pix :=
  let q : Pix := ⟨d.lut1D c 0 p.r, d.lut1D c 1 p.g, d.lut1D c 2 p.b⟩
  d.lut3D c (fpMatrix (fun i => d.lv (R.CLR_CAMC_MTX c i)) q)

/-! The wall colour stage. -/

/-- Byte i of a tile's live context. -/
def ctxByte (d : Dev) (tile i : Nat) : Nat := d.tblLive 2 0 (256 * tile + i)

/-- A little-endian number of n bytes of a tile's live context. -/
def ctxNum (d : Dev) (tile i n : Nat) : Nat := (List.range n).foldr (fun j v => d.ctxByte tile (i + j) + 256 * v) 0

/-- A tone LUT at a LOG16 code (R172), in cd/m². -/
def tone (d : Dev) (curve c : Nat) : Frac :=
  let e (i : Nat) : Frac := ⟨(d.lut 2 curve (d.lv R.CLR_WALL_CTRL_TONE_BANK) 0 i : Nat), 262144⟩
  (e (c / 64)).add (((Frac.ofNat (c % 64)).mul ((e (c / 64 + 1)).sub (e (c / 64)))).divN 64)

/-- Step 1, the output transform (R172, R173). -/
def outputTransform (d : Dev) (p : Pix) : Pix :=
  let m := ((p.r.val).max p.g.val).max p.b.val
  if !m.pos then Pix.zero else
  let c := log16 m
  let a := d.clr.cur.a
  let l := (((Frac.ofNat (4096 - a)).mul (d.tone 0 c)).add ((Frac.ofNat a).mul (d.tone 1 c))).divN 4096
  let l := (Frac.ofNat (clampNat (d.lv R.CLR_PEAK) 1 12000)).min l
  p.map fun _ x => fpFrom [x] ((x.val.mul l).div m)

/-- Step 2, the tile's primary matrix, clamped below at 0 (R174, R175). -/
def tileMatrix (d : Dev) (tile : Nat) (p : Pix) : Pix :=
  (fpMatrix (fun i => d.ctxNum tile (3 * i) 3) p).map fun _ x => if x.val.num < 0 then ⟨0, x.sat⟩ else x

/-- A gain applied to an FP24 value. -/
def gainFp (x : Fp) (g : Frac) : Fp := fpFrom [x] (x.val.mul g)

/-- Step 6, the LED response of a tile's class (R187): the drive value in units of 1/16 code. -/
def response (d : Dev) (cls k : Nat) (f : Frac) : Nat :=
  let e (i : Nat) : Nat := d.lut 3 cls (d.lv R.CLR_WALL_CTRL_RESP_BANK) k i
  let p := rootBits (f.num.toNat * 2 ^ 40 / Nat.max 1 f.den) 2 21 0
  let i := p / 1024
  let w := p % 1024
  if 1024 ≤ i then e 1024
  else (((e i : Nat) : Int) + (((w : Nat) : Int) * (((e (i + 1) : Nat) : Int) - ((e i : Nat) : Int)) + 512).fdiv 1024).toNat

/-- The frame number that moves the dither (R189): the ST 2059-2 frame count of R66 modulo 16, 0 with DITHER_T at 0. -/
def ditherN (d : Dev) : Nat :=
  if d.lvb R.CLR_WALL_CTRL_DITHER_T then (d.frameOf d.wtm.wln + d.wtm.epochUse) % 16 else 0

/-- Steps 3 to 7 on one channel (R176, R183, R185, R187, R188): fraction, uniformity code (none: unity), tile,
channel and position; answers the drive code, and whether a saturation and a clamp took place. -/
def driveOf (d : Dev) (x : Fp) (u : Option Nat) (tile k px py : Nat) : Nat × Bool × Bool :=
  let x := match u with
    | some u => gainFp x (fpVal (uniGain u))
    | none => x
  let x := gainFp x ⟨((32768 - SMap.get d.clr.cur.loss tile : Nat) : Int), 32768⟩
  let x := gainFp x ⟨(d.clr.cur.cap : Nat), 32768⟩
  let clip := !(x.val.le ⟨1, 1⟩)
  let f : Frac := if clip then ⟨1, 1⟩ else x.val
  if !f.pos then (0, x.sat, clip) else
  let t := if d.lvb R.CLR_WALL_CTRL_DITHER_EN then ditherT px py d.ditherN k else 128
  (driveCode (d.rdb R.CLR_CFG_WALL_DEPTH) (d.response (d.ctxByte tile 27 % 16) k f) t, x.sat, clip)

/-- The whole wall stage on a pixel of a tile (R169, R171): `pattern` replaces the result of step 2 (R245, R246), the
flag with it telling that step 3 is at unity. -/
def wallStage (d : Dev) (p : Pix) (tile : Nat) (u : Nat → Nat) (pattern : Option (Pix × Bool)) (x y : Nat) : Drive :=
  let q := match pattern with
    | some (f, _) => f
    | none => d.tileMatrix tile (d.outputTransform p)
  let unity := match pattern with
    | some (_, raw) => raw
    | none => false
  let black := pattern.isNone && !((p.r.val.max p.g.val).max p.b.val).pos
  if black then ⟨0, 0, 0, p.sat, false⟩ else
  let c (k : Nat) : Nat × Bool × Bool := d.driveOf (q.comp k) (if unity then none else some (u k)) tile k x y
  let a := c 0
  let b := c 1
  let e := c 2
  ⟨a.1, b.1, e.1, p.sat || a.2.1 || b.2.1 || e.2.1, a.2.2 || b.2.2 || e.2.2⟩

/-! The closed loops. -/

/-- The device is the windward (R336: the device in LIVE). -/
def windward (d : Dev) : Bool := d.state = .live

/-- The tiles of the chain maps. -/
def mapTiles (d : Dev) : List Nat := d.link.chains.flatten

/-- The derate target's distance below 1.0 for a tile's last temperature (R183). -/
def derateLoss (d : Dev) (tile : Nat) : Nat :=
  let t := sext 16 (d.tileLink tile).temp
  let t0 := sext 16 (d.ctxNum tile 28 2)
  let t1 := sext 16 (d.ctxNum tile 30 2)
  let full := 32768 - d.ctxNum tile 32 2
  if t ≤ t0 then 0 else if t1 ≤ t then full
  else (-((-((full : Nat) : Int) * (t - t0)).fdiv (t1 - t0))).toNat

/-- A tile's context is live: its wall-stage fields hold something (R184). -/
def ctxLive (d : Dev) (tile : Nat) : Bool := (List.range 36).any fun i => d.ctxByte tile i != 0

/-- The derate loop of one tile at a frame boundary (R183, R184): its gain in the set being fixed, and its target. -/
def derateTile (d : Dev) (s : LoopSet) (tile : Nat) : Dev × LoopSet :=
  if !(d.clr.fresh.contains tile && d.ctxLive tile) then (d, s) else
  let want := d.derateLoss tile
  let old := SMap.get s.loss tile
  let first := !s.seen.contains tile
  let now := if first && decide (0 < want) then want
    else moveTo old want (d.lv R.CLR_DERATE_SLEW_DOWN) (d.lv R.CLR_DERATE_SLEW_UP)
  ({ d with clr := { d.clr with target := SMap.set d.clr.target tile want } },
    { s with loss := SMap.set s.loss tile now, seen := if first then tile :: s.seen else s.seen })

/-- The power of all tiles in µW (R185). -/
def wallPower (d : Dev) : Nat :=
  (d.mapTiles.map fun t =>
    if d.clr.reported.contains t then (d.tileLink t).volt * (d.tileLink t).curr else d.ctxNum t 34 2 * 1000000).sum

/-- The ambient target factor (R181). AMB_LO or AMB_HI of 0, whose logarithm the spec does not give, acts as 1 (DESIGN CHOICE, log entry 122). -/
def ambTarget (d : Dev) : Option Nat :=
  match d.clr.level with
  | none => none
  | some l =>
    let lo : Int := log2Fix (Nat.max 1 (d.lv R.CLR_AMB_LO))
    let hi : Int := log2Fix (Nat.max 1 (d.lv R.CLR_AMB_HI))
    some (clampInt (divRoundInt (4096 * (l - lo)) (hi - lo).toNat) 0 4096).toNat

/-- The ambient factor of the next set (R181, R182). With AMB_HI at or below AMB_LO it is 0 though no sensor is valid (DESIGN CHOICE, log
entry 122: R182's two sentences meet there). -/
def nextA (d : Dev) (a : Nat) : Nat :=
  if d.lvb R.CLR_AMB_OVR_OVR_EN then Nat.min 4096 (d.lv R.CLR_AMB_OVR_A_OVR)
  else if d.lv R.CLR_AMB_HI ≤ d.lv R.CLR_AMB_LO then 0
  else if !(d.clr.sensors.any fun s => s.valid) then a
  else match d.ambTarget with
    | some t => moveTo a t (d.lv R.CLR_AMB_SLEW) (d.lv R.CLR_AMB_SLEW)
    | none => a

/-- The budget of the power cap in W (R185). -/
def capBudget (d : Dev) (a : Nat) : Nat :=
  (((d.lv R.CLR_CAP_NIGHT : Nat) : Int) + ((a : Nat) : Int) *
    (((d.lv R.CLR_CAP_DAY : Nat) : Int) - ((d.lv R.CLR_CAP_NIGHT : Nat) : Int)) / 4096).toNat

/-- The power-cap loop at a frame boundary (R185, R186), `age` boundaries after the last decrease: answers the new gain. -/
def capLoop (d : Dev) (a g age : Nat) : Dev × Nat :=
  let p := d.wallPower
  let b := d.capBudget a
  let cmin := d.lv R.CLR_CAP_MIN
  let tooMuch := decide (1000000 * b < p)
  let d := (d.wr R.CLR_P_SUM (Nat.min (p / 1000000) (2 ^ 32 - 1))).wr R.CLR_P_BUDGET b
  let floor := tooMuch && decide (g = cmin)
  let d := d.flag 0 R.CLR_LOOP_STATUS_CAP_FLOOR 2 true floor
  let d := if floor then d.cnt R.CLR_CAP_FLOOR_WF else d
  let g' := if tooMuch && decide (3 ≤ age) then Nat.max cmin (g * b * 1000000 / p)
    else if p * 256 < 1000000 * b * (256 - d.lv R.CLR_CAP_CTL_CAP_HYST) then Nat.min 32768 (g + d.lv R.CLR_CAP_CTL_CAP_UP)
    else g
  (if g' < g then d.cnt R.CLR_CAP_DOWN else d, g')

/-- The windward fixes the set of loop values for the next frame (R177). -/
def fixLoops (d : Dev) : Dev :=
  let s := d.clr.next
  let a := d.nextA s.a
  let p := (d.clr.fresh).foldl (fun (p : Dev × LoopSet) t => p.1.derateTile p.2 t) (d, s)
  let q := p.1.capLoop a s.cap s.capAge
  let age := if q.2 < s.cap then 0 else Nat.min 3 (s.capAge + 1)
  { q.1 with clr := { q.1.clr with next := { p.2 with a := a, cap := q.2, capAge := age }, fresh := [] } }

/-- LOOP_LAG shows whether a late set is in use (Table 6-8). -/
def loopLag (d : Dev) (late : Bool) : Dev := d.flag 0 R.CLR_LOOP_STATUS_LOOP_LAG 2 true late

/-- A set comes into use, and the registers show it. -/
def useLoops (d : Dev) (s : LoopSet) : Dev :=
  let d := { d with clr := { d.clr with cur := s } }
  ((d.wr R.CLR_LOOP_STATUS_AMB_A s.a).wr R.CLR_CAP_GAIN s.cap).wrb R.CLR_LOOP_STATUS_CAP_ACTIVE (decide (s.cap < 32768))

/-- The set that the windward fixed for a frame, of the last two received (R178). -/
def setFor (d : Dev) (frame : Nat) : Option LoopSet :=
  ([d.clr.received, d.clr.before].filterMap id).find? (fun p => p.1 = frame) |>.map Prod.snd

/-- A WARM device brings a set into use for the frame that begins (R178): the one fixed for it, else the last received, which
is late where the device drives a segment. -/
def warmLoops (d : Dev) : Dev :=
  let own := d.setFor (d.frameOf d.wtm.wln)
  let late := own.isNone && d.rdb R.TOP_STATE_SPLIT
  let d := match own.or (d.clr.received.map Prod.snd) with
    | some s => d.useLoops s
    | none => d
  let d := d.loopLag late
  if late then d.cnt R.CLR_LOOP_LAG_WF else d

/-- A veer that stands takes place at this line (R361). -/
def veerHere (d : Dev) : Bool :=
  match d.pair.prep with
  | some p => p.stands && decide (p.v = d.wtm.wln)
  | none => false

/-- The frame boundary of the closed loops (R177, R178): the set for this frame comes into use, and the windward fixes the
next. A device that is about to become windward here keeps what its tiles have sent. One that is not windward works no power cap: its
CAP_FLOOR is 0 (Table 6-8). -/
def loopBoundary (d : Dev) : Dev :=
  if d.windward then ((d.useLoops d.clr.next).loopLag false).fixLoops else
  let d := (if d.state = .warm then d.warmLoops else d.loopLag false).flag 0 R.CLR_LOOP_STATUS_CAP_FLOOR 2 true false
  if d.veerHere then d else { d with clr := { d.clr with fresh := [] } }

/-- The set with which an installation starts (R179, R182). -/
def firstLoops (d : Dev) : LoopSet :=
  ⟨if d.lv R.CLR_AMB_HI ≤ d.lv R.CLR_AMB_LO then 0 else d.ambTarget.getD 0, 32768, [], 3, []⟩

/-- A device becomes windward (R179, R184, R185): it goes on from the last set it received, which comes into use for the frame it was
fixed for, or starts afresh. At a frame boundary that has brought no set for the frame after, it fixes that set itself
(R177). -/
def startLoops (d : Dev) : Dev :=
  match d.clr.received with
  | some (f, s) =>
    let now := d.frameOf d.wtm.wln
    let d := match d.setFor now with
      | some c => (d.useLoops c).loopLag false
      | none => if f = now + 1 then d else d.useLoops s
    let d := { d with clr := { d.clr with next := s } }
    if f ≠ now + 1 ∧ d.line = 0 then d.fixLoops else d
  | none =>
    let s := d.firstLoops
    { d with clr := { d.clr with next := s, fresh := [] } }.useLoops s

/-- At the start of a frame the marks of the last one are counted (Table 6-9). -/
def countSat (d : Dev) : Dev :=
  { d with clr := { d.clr with satWall := false, clip := false } }

/-- A saturation in the wall path, counted once a frame (R163). -/
def markSat (d : Dev) (s : Bool) : Dev :=
  if s && !d.clr.satWall then { d with clr := { d.clr with satWall := true } }.cnt R.CLR_FP_SAT else d

/-- A clamp in step 5, counted once a frame (Table 6-9). -/
def markClip (d : Dev) (s : Bool) : Dev :=
  if s && !d.clr.clip then { d with clr := { d.clr with clip := true } }.cnt R.CLR_DRIVE_CLIP else d

/-- A saturation in a camera stage, counted once a camera frame (R163). -/
def markSatCam (d : Dev) (n : Nat) (s : Bool) : Dev :=
  if s && !bit d.clr.satCams n then { d with clr := { d.clr with satCams := setBit d.clr.satCams n true } }.cnt R.CLR_FP_SAT
  else d

/-! Ambient sensors. -/

/-- One sensor takes a reading, none for a bus failure (R180). -/
def senseOne (d : Dev) (i : Nat) (r : Option Nat) : Dev :=
  let s := d.clr.sensors.getD i ⟨0, false, 0⟩
  let good : Option Nat := match r with
    | some v => if v ≤ 200000 then some v else none
    | none => none
  let put (d : Dev) (s : Sensor) : Dev := { d with clr := { d.clr with sensors := setAt d.clr.sensors i s } }
  match good with
  | some v =>
    if s.valid then put d ⟨v, true, 0⟩
    else if s.run + 1 < 3 then put d ⟨v, false, s.run + 1⟩
    else (put d ⟨v, true, 0⟩).flagBit 0 R.CLR_LOOP_STATUS_AMB_VALID i 0 true true
  | none =>
    if !s.valid then put d { s with run := 0 }
    else if s.run + 1 < 3 then put d { s with run := s.run + 1 }
    else ((put d { s with valid := false, run := 0 }).flagBit 0 R.CLR_LOOP_STATUS_AMB_VALID i 0 true false).cnt R.CLR_AMB_FAULT

/-- The filter takes the median level of the valid sensors (R181). Sensors start invalid (R180), so that the first reading after BOOT whose
level it takes over directly is the first that finds a valid one (DESIGN CHOICE, log entry 122). -/
def filterLevel (d : Dev) : Dev :=
  let v := (d.clr.sensors.filter fun s => s.valid).map fun s => s.lux
  let d := d.wrb R.CLR_LOOP_STATUS_AMB_NONE (v.isEmpty)
  if v.isEmpty then d else
  let e := lowerMedian v
  let d := d.wr R.CLR_AMB_OWN_LUX e
  let l : Int := log2Fix (Nat.max 1 e)
  let tau := Nat.max 10 (d.lv R.CLR_AMB_TAU)
  let l := match d.clr.level with
    | some f => f + ((l - f) * 10).fdiv tau
    | none => l
  { d with clr := { d.clr with level := some l } }

/-! The taps' encoding (R190, R191). -/

/-- A tap's pixel after its matrix and its gain (R190). -/
def tapColour (d : Dev) (j : Nat) (p : Pix) : Pix :=
  (fpMatrix (fun i => d.lv (R.CLR_TAP_MTX j i)) p).map fun _ x => gainFp x (fpVal (d.lv (R.CLR_TAP_GAIN j)))

/-- A tap's pixel as R′, G′, B′ in units of 2^-32 (R190). -/
def tapPrime (d : Dev) (j : Nat) (p : Pix) : List Int :=
  let q := d.tapColour j p
  [q.r, q.g, q.b].map fun x =>
    if d.lvb (R.CLR_TAP_CTRL_TF j) then ((hlgEncode x.val : Nat) : Int) else ((pqEncode (x.val.divN 10000) : Nat) : Int)

/-- Luma and colour differences of R′G′B′, in units of 2^-32 (R191). -/
def lumaOf (p : List Int) : Int := divRoundInt (2627 * p.getD 0 0 + 6780 * p.getD 1 0 + 593 * p.getD 2 0) 10000
def cbOf (p : List Int) : Int := divRoundInt ((p.getD 2 0 - lumaOf p) * 10000) 18814
def crOf (p : List Int) : Int := divRoundInt ((p.getD 0 0 - lumaOf p) * 10000) 14746

/-- Quantised luma and chroma (R191). -/
def quantY (y : Int) : Nat := (clampInt (divRoundInt (876 * y + 64 * 4294967296) 4294967296) 4 1019).toNat
def quantC (c : Int) : Nat := (clampInt (divRoundInt (896 * c + 512 * 4294967296) 4294967296) 4 1019).toNat

end Dev

/-- The 100 ms reading of the ambient sensors (R180 to R182): lux by each sensor's image scale, none for a failure. -/
def actAmbient (readings : List (Option Nat)) (d : Dev) : Dev :=
  if d.state = .boot || d.state = .safe then d else
  let more := List.replicate (readings.length - d.clr.sensors.length) ⟨0, false, 0⟩
  let d := { d with clr := { d.clr with sensors := d.clr.sensors ++ more } }
  ((readings.zipIdx).foldl (fun d p => d.senseOne p.2 p.1) d).filterLevel

/-- An access of CLR.LUT_DATA names no entry, or writes a live bank (R192). -/
def lutRefused (write : Bool) (d : Dev) : Bool :=
  let kind := d.rd R.CLR_LUT_SEL_KIND
  let inst := d.rd R.CLR_LUT_SEL_INSTANCE
  let ch := d.rd R.CLR_LUT_SEL_CHANNEL
  let live := if kind = 1 then d.lv (R.CLR_CAMC_CTRL_LUT1_BANK inst)
    else if kind = 2 then d.lv R.CLR_WALL_CTRL_TONE_BANK else d.lv R.CLR_WALL_CTRL_RESP_BANK
  decide (kind = 0) || decide (ch = 3) || decide (1024 < d.rd R.CLR_LUT_SEL_INDEX) || (decide (kind = 1) && decide (7 < inst))
    || (decide (kind = 2) && (decide (1 < inst) || decide (ch ≠ 0))) || (write && decide (d.rd R.CLR_LUT_SEL_BANK = live))

/-- A read or write of CLR.LUT_DATA (R192): `w` is the word written, none for a read. -/
def actLutData (w : Option Nat) (d : Dev) : Dev :=
  let kind := d.rd R.CLR_LUT_SEL_KIND
  let i := d.rd R.CLR_LUT_SEL_INDEX
  let key := lutKey kind (d.rd R.CLR_LUT_SEL_INSTANCE) (d.rd R.CLR_LUT_SEL_BANK) (d.rd R.CLR_LUT_SEL_CHANNEL) i
  let adv (d : Dev) : Dev := if d.rdb R.CLR_LUT_SEL_AUTOINC then d.wr R.CLR_LUT_SEL_INDEX (i + 1) else d
  if lutRefused w.isSome d then d.log 0x20 0 4 0x005 (0x2004 + (if w.isSome then 65536 else 0)) else
  match w with
  | some v =>
    adv (d.writeBank 0 key (v % 2 ^ lutWidth kind))
  | none => adv (d.wr R.CLR_LUT_DATA_DATA (SMap.get d.clr.luts key))

def execAmbientReading (readings : List (Option Nat)) (s : State) : Host.Outcome State Fault Refusal :=
  run s fun _ d => actAmbient readings d

end Sys2Proof.Machine
end

