-- ==== Sys2Proof/Machine/Recorder.lean ====
section
/-!
DEFINITION. The internal recorders (R377, R378): clients of the recording store that drive their own rings. A recorder writes into the
open take of its slot; with none open it does not run (log entry 114).
-/

namespace Sys2Proof.Machine
namespace Dev

/-- A command counts as not completed: its completion is not posted. -/
def uncompleted (c : HCmd) : Bool := !c.posted

/-- A WRITE of a take that stands: not completed and not to end otherwise than OK. -/
def standing (take : Nat) (c : HCmd) : Bool := c.op = 1 && c.take = take && uncompleted c && c.owed.isNone && (c.status = none || c.status = some 0)

/-- Where the next WRITE of a stream must start (R375; log entry 14). -/
def nextOff (d : Dev) (t : Take) : Nat :=
  (d.hbx.cmds.filter (standing t.id)).foldl (fun e c => Nat.max e (c.off + c.len)) t.comp

/-! Submission rings (R378). -/

/-- Entries that a client's submission ring holds. -/
def sqCount (d : Dev) (c : Nat) : Nat :=
  let n := d.sqSize c
  (d.rd (R.HBX_CL_SQ_TAIL c) % n + n - d.rd (R.HBX_CL_SQ_HEAD c) % n) % n

/-! Recorders. -/

def putRecorder (d : Dev) (r : Recorder) : Dev :=
  { d with hbx := { d.hbx with recorders := d.hbx.recorders.map fun x => if x.slot = r.slot then r else x } }

/-- The internal client in a client slot. -/
def recorder (d : Dev) (slot : Nat) : Option Recorder := d.hbx.recorders.find? fun r => r.slot = slot

/-- The bytes of a WRITE entry (Table 13-3). -/
def writeEntry (cid take off len buf : Nat) (end_ : Bool) : List Byte :=
  leBytes 1 1 ++ leBytes 1 (b2n end_) ++ leBytes 2 cid ++ leBytes 4 take ++ leBytes 8 off ++ leBytes 4 len ++ leBytes 4 0 ++ leBytes 8 buf
    ++ leBytes 8 0 ++ List.replicate 24 0

/-- A recorder submits the WRITEs that wait, while its ring has room. -/
def recordPump (d : Dev) (slot : Nat) : Nat → Dev
  | 0 => d
  | k + 1 =>
    match d.recorder slot with
    | none => d
    | some r =>
      match r.wait with
      | [] => d
      | (a, n, e) :: rest =>
        if d.sqCount slot + 1 = d.sqSize slot then d else
        let i := d.rd (R.HBX_CL_SQ_TAIL slot) % d.sqSize slot
        let d := d.memWrite (d.rdPair (R.HBX_CL_SQ_BASE_LO slot) (R.HBX_CL_SQ_BASE_HI slot) + 64 * i) (writeEntry r.cid r.take r.next n a e) .stream
        let d := d.wr (R.HBX_CL_SQ_TAIL slot) ((i + 1) % d.sqSize slot)
        (d.putRecorder { r with next := r.next + n, cid := (r.cid + 1) % 65536, wait := rest }).recordPump slot k

/-- A range in pieces that a WRITE can carry (R375). -/
def recordPieces : Nat → Nat → Nat → List (Nat × Nat)
  | 0, _, _ => []
  | k + 1, a, n => if n = 0 then [] else (a, Nat.min n 262144) :: recordPieces k (a + 262144) (n - 262144)

/-- The oldest unit of a recorder, if it has not been taken up, is: the recorder holds its buffer, the one it may hold (R228). -/
def beginUnit (d : Dev) (slot : Nat) : Dev :=
  match d.recorder slot with
  | none => d
  | some r =>
    match r.units with
    | [] => d
    | u :: rest =>
      if u.parts = [] then d else
      let d := d.putRecorder { r with wait := r.wait ++ u.parts, units := { u with parts := [] } :: rest }
      match u.keep with
      | some (fs, b) => { d with cmp := { d.cmp with holds := (⟨fs, b⟩, 32 + slot) :: d.cmp.holds } }
      | none => d

/-- A decodable unit of a source is complete in DRAM, at some places in order: the recorders of that source write it, and the last WRITE
carries BLOCK_END (R377). `keep` is the frame-store buffer that holds it: a recorder that holds one takes the next up after it, and
passes over a frame whose buffer has been written again by then (R228; log entry 114). -/
def recordUnit (d : Dev) (kind n : Nat) (places : List (Nat × Nat)) (keep : Option (Nat × Nat)) : Dev :=
  (d.hbx.recorders.filter fun r => r.kind = kind && r.n = n).foldl (fun d r =>
    match d.hbx.takes.find? fun t => t.open_ && t.client = r.slot with
    | none => d
    | some t =>
      let ps := places.flatMap fun p => recordPieces (p.2 / 262144 + 1) p.1 p.2
      let idle := r.wait.isEmpty && decide (d.sqCount r.slot = 0)
      let ws := ps.zipIdx.map fun q => (q.1.1, q.1.2, decide (q.2 + 1 = ps.length))
      let r := { r with
        take := t.id, next := if r.take = t.id && !idle then r.next else d.nextOff t
        wait := if keep.isNone then r.wait ++ ws else r.wait
        units := (r.units.filter fun u => u.parts = [] || u.keep != keep)
          ++ [⟨(places.map Prod.snd).sum, keep, if keep.isNone then [] else ws⟩] }
      ((d.putRecorder r).beginUnit r.slot).recordPump r.slot (r.wait.length + ws.length + 1)) d

/-- The recorder's stream continues in a new take (R397, R398): of a unit some of whose WRITEs have gone to the old take the rest goes with
it. -/
def switchTake (d : Dev) (slot take : Nat) : Dev :=
  match d.recorder slot with
  | none => d
  | some r =>
    let len (l : List (Nat × Nat × Bool)) : Nat := (l.map fun p => p.2.1).sum
    let whole := ((r.units.filter fun u => u.parts = []).reverse.take (r.wait.filter fun p => p.2.2).length).map RecUnit.len
    let wait := if len r.wait = whole.sum then r.wait else (r.wait.dropWhile fun p => !p.2.2).drop 1
    d.putRecorder { r with take := take, next := 0, wait := wait }

/-- Where a recorder's stream stands once everything that it has in hand is written. -/
def streamEnd (d : Dev) (t : Take) : Nat :=
  match d.recorder t.client with
  | some r =>
    let len (l : List (Nat × Nat × Bool)) : Nat := (l.map fun p => p.2.1).sum
    if t.open_ && r.take = t.id then Nat.max t.comp (r.next + len r.wait + (r.units.map fun u => len u.parts).sum) else t.comp
  | none => t.comp

/-- The oldest access unit leaves the rings of its session. -/
def auConsume (d : Dev) (s len : Nat) : Dev :=
  let size := Nat.max 1 (4096 * d.lv (R.HVC_S_BUF_BYTES s))
  (d.wr (R.HVC_S_AU_PTRS_AU_CLI s) ((d.rd (R.HVC_S_AU_PTRS_AU_CLI s) + 1) % Nat.max 1 (d.lv (R.HVC_S_AU_SIZE s)))).wr
    (R.HVC_S_CLI_PTR s) ((d.rd (R.HVC_S_CLI_PTR s) + len) % size)

/-- A WRITE of a recorder has completed: with BLOCK_END its unit is done with, and a HEVC session's access unit leaves its rings. -/
def recordDone (d : Dev) (slot : Nat) (end_ : Bool) : Dev :=
  match d.recorder slot with
  | none => d
  | some r =>
    if !end_ then d else
    match r.units with
    | [] => d
    | u :: rest =>
      let d := d.putRecorder { r with units := rest }
      let d := if r.kind = 1 then d.auConsume r.n u.len else d
      let d := match u.keep with
        | some (fs, b) => { d with cmp := { d.cmp with holds := d.cmp.holds.erase (⟨fs, b⟩, 32 + slot) } }
        | none => d
      d.beginUnit slot

end Dev
end Sys2Proof.Machine
end

