-- ==== Sys2Proof/Machine/Compositor.lean ====
section
/-!
DEFINITION. The canvas compositor (chapter 7): layers, scalers, the raster lock, frame stores, the Blocking Table's seams
and flags, the canvas signature and the taps.
-/

namespace Sys2Proof.Machine

/-- The blocks of a picture of w by h pixels, in raster order, as pairs of block column and block row (R214). -/
def blockList (w h : Nat) : List (Nat × Nat) :=
  (List.range ((h + 15) / 16)).flatMap fun by_ => (List.range ((w + 15) / 16)).map fun bx => (bx, by_)

/-- Ten-bit samples packed from bit 0 upward (Table 7-2). -/
def pack10 (l : List Nat) : List Byte :=
  leBytes ((10 * l.length + 7) / 8) (l.foldr (fun v acc => v % 1024 + 1024 * acc) 0)

/-- An FP24 picture as the bytes of its blocks (Table 7-2). -/
def fp24Blocks (w h : Nat) (px : Nat → Nat → Pix) : List Byte :=
  (blockList w h).flatMap fun (bx, by_) =>
    (List.range 256).flatMap fun i =>
      let x := 16 * bx + i % 16
      let y := 16 * by_ + i / 16
      if x < w ∧ y < h then (px x y).bytes else List.replicate 9 0

/-- A picture of R′G′B′ in units of 2^-32 as the bytes of its 4:2:2 blocks (R191, Table 7-2). -/
def yuvBlocks (w h : Nat) (px : Nat → Nat → List Int) : List Byte :=
  let chroma (f : List Int → Int) (x y : Nat) : Nat :=
    let c (k : Int) : Int := f (px (mirror w k) y)
    Dev.quantC (divRoundInt (c ((x : Int) - 1) + 2 * c x + c ((x : Int) + 1)) 4)
  (blockList w h).flatMap fun (bx, by_) =>
    let inside (x y : Nat) : Bool := decide (x < w) && decide (y < h)
    pack10 ((List.range 256).map fun i =>
      let x := 16 * bx + i % 16
      let y := 16 * by_ + i / 16
      if inside x y then Dev.quantY (Dev.lumaOf (px x y)) else 0) ++
    pack10 ((List.range 128).flatMap fun i =>
      let x := 16 * bx + 2 * (i % 8)
      let y := 16 * by_ + i / 8
      if inside x y then [chroma Dev.cbOf x y, chroma Dev.crOf x y] else [0, 0])

/-- The position of a destination sample in the source (R202): whole part and phase. -/
def scalePos (src dst k : Nat) : Int × Nat :=
  let step : Int := ((src * 2 ^ 24 / Nat.max 1 dst : Nat) : Int)
  let p := ((2 * (k : Int) + 1) * step).fdiv 2 - 8388608
  (p.fdiv 16777216, ((p % 16777216) / 262144).toNat)

namespace Dev

/-- Layer i. -/
def layer (d : Dev) (i : Nat) : LayerPart := d.cmp.layers.getD i LayerPart.reset

/-- Store layer i. -/
def putLayer (d : Dev) (i : Nat) (l : LayerPart) : Dev := { d with cmp := { d.cmp with layers := setV d.cmp.layers i l } }

/-! Scalers (R202, R203). -/

/-- A coefficient of the live bank. -/
def coef (d : Dev) (set phase k : Nat) : Int :=
  sext 12 (SMap.get d.cmp.coefs (4096 * d.lv R.CMP_CFG_COEF_BANK + set * 512 + phase * 8 + k))

/-- One pass of a scaler at destination sample k of `dst`, over `src` samples: none where a sample is missing. -/
def scale1 (d : Dev) (set src dst k : Nat) (s : Nat → Option Pix) : Option Pix :=
  let p := scalePos src dst k
  let l := (List.range 8).map fun (j : Nat) => s (mirror src (p.1 - 3 + (j : Int)))
  if l.any Option.isNone then none else
  let comp (c : Nat) : Fp :=
    let v := l.map fun o => (o.getD Pix.zero).comp c
    let sum := ((v.zipIdx).foldl (fun (a : Frac) q => a.add ((Frac.ofInt (d.coef set p.2 q.2)).mul q.1.val)) ⟨0, 1⟩).divN 1024
    fpFrom v sum
  some ⟨comp 0, comp 1, comp 2⟩

/-- Both passes, the horizontal first: a destination pixel from source pixels addressed by column and row. -/
def scale2 (d : Dev) (hset vset sw sh dw dh x y : Nat) (s : Nat → Nat → Option Pix) : Option Pix :=
  d.scale1 vset sh dh y fun r => d.scale1 hset sw dw x fun c => s c r

/-- The source rows that a destination row needs (R202, R209). -/
def rowsNeeded (sh dh y : Nat) : List Nat :=
  (List.range 8).map fun (j : Nat) => mirror sh ((scalePos sh dh y).1 - 3 + (j : Int))

/-! Frame stores (R213 to R216). -/

/-- The base of a store; bits [11:0] are 0. -/
def fsBase (d : Dev) (j : Nat) : Nat := (d.lv (R.CMP_FS_BASE_LO j) / 4096 * 4096) + 2 ^ 32 * d.lv (R.CMP_FS_BASE_HI j)

/-- Where a buffer's blocks and its header start (R215). -/
def bufAddr (d : Dev) (b : BufRef) : Nat := d.fsBase b.fs + 4096 + b.buf * d.lv (R.CMP_FS_BUF_BYTES b.fs) * 4096
def hdrAddr (d : Dev) (b : BufRef) : Nat := d.fsBase b.fs + 64 * b.buf

/-- The header fields of a buffer (Table 7-3). -/
def bufState (m : List Host.Cell) (d : Dev) (b : BufRef) : Nat := Memory.leNum m (d.hdrAddr b) 4
def bufSeq (m : List Host.Cell) (d : Dev) (b : BufRef) : Nat := Memory.leNum m (d.hdrAddr b + 4) 4
def bufDue (m : List Host.Cell) (d : Dev) (b : BufRef) : Nat := Memory.leNum m (d.hdrAddr b + 8) 8 % 2 ^ 48

/-- The four buffers of a store. -/
def bufs (j : Nat) : List BufRef := (List.range 4).map fun b => ⟨j, b⟩

/-- Bytes of a block of a store. -/
def blockSize (d : Dev) (j : Nat) : Nat := if d.lv (R.CMP_FS_CTRL_FMT j) = 0 then 2304 else 640

/-- The address of the block that holds a pixel of a buffer. -/
def blockAddr (d : Dev) (b : BufRef) (x y : Nat) : Nat :=
  d.bufAddr b + (y / 16 * ((d.fsW b.fs + 15) / 16) + x / 16) * d.blockSize b.fs

/-- A unit of a block is listed in a set of units of 32 bytes. -/
def blockIn (units : List Nat) (addr size : Nat) : Bool :=
  units.any fun u => decide (addr ≤ 32 * u) && decide (32 * u < addr + size)

/-- A buffer may be taken by a writer (R216): no layer has it latched in this frame, for the next frame or in the frame before,
and no tap consumer holds it. -/
def bufFree (d : Dev) (b : BufRef) : Bool :=
  !(d.cmp.layers.any fun l => l.latch = some b || l.prev = some b || l.next = some b || l.gave.contains b || l.gavePrev.contains b)
    && !(d.cmp.holds.any fun h => h.1 = b)

/-- The oldest of some buffers: never written first, then by SEQ (R216). -/
def oldest (m : List Host.Cell) (d : Dev) (l : List BufRef) : Option BufRef :=
  let newest := d.rd (R.CMP_FS_NEWEST_NEWEST (l.headD ⟨0, 0⟩).fs)
  let top := d.bufSeq m ⟨(l.headD ⟨0, 0⟩).fs, newest⟩
  let age (b : BufRef) : Nat := if d.bufState m b = 2 then (top + 2 ^ 32 - d.bufSeq m b) % 2 ^ 32 else 2 ^ 32
  l.foldl (fun best b => match best with
    | none => some b
    | some c => if age c < age b then some b else some c) none

/-- The buffer that a frame takes (R216, R228), and whether it overwrites one that is not free. -/
def pickBuf (m : List Host.Cell) (d : Dev) (f : FsFrame) : Option BufRef × Bool :=
  match oldest m d ((bufs f.fs).filter d.bufFree) with
  | some b => (some b, false)
  | none =>
    if f.tap.isSome then
      (oldest m d ((bufs f.fs).filter fun b => d.bufState m b = 2 && !(d.cmp.holds.any fun h => h.1 = b)
        && !(d.cmp.layers.any fun l => l.latch = some b || l.next = some b)), true)
    else (none, false)

/-- A frame is written to its store, or discarded (R215, R216, R228): its blocks and header, and the newest buffer. A tap sets DUE to the
line after its write. A recorder of the store writes the frame on (R377). -/
def fsWrite (m : List Host.Cell) (d : Dev) (f : FsFrame) : Dev :=
  let p := d.pickBuf m f
  let overrun (d : Dev) : Dev := match f.tap with
    | some j => d.cnt (R.CMP_TAP_OVERRUN j)
    | none => d
  let d := if p.2 then overrun d else d
  match p.1 with
  | none => if f.tap.isSome then (if p.2 then d else overrun d) else d.cnt (R.CMP_FS_WDROP f.fs)
  | some b =>
    let newest : BufRef := ⟨f.fs, d.rd (R.CMP_FS_NEWEST_NEWEST f.fs)⟩
    let seq := if d.bufState m newest = 2 then (d.bufSeq m newest + 1) % 2 ^ 32 else 1
    let due := if f.tap.isSome then d.wtm.wln + 1 else f.due
    let head := leBytes 4 2 ++ leBytes 4 seq ++ leBytes 8 (due % 2 ^ 48) ++ leBytes 4 (f.marks % 512) ++ List.replicate 44 0
    let d := ((d.memWrite (d.hdrAddr b) (leBytes 4 1) f.cls).memWrite (d.bufAddr b) f.bytes f.cls).memWrite (d.hdrAddr b) head f.cls
    let u0 := d.bufAddr b / 32
    let u1 := (d.bufAddr b + f.bytes.length) / 32
    let d := { d with poison := d.poison.filter fun u => !(decide (u0 ≤ u) && decide (u < u1)) }
    ((d.wr (R.CMP_FS_NEWEST_NEWEST f.fs) b.buf).wr (R.CMP_FS_NEWEST_NEWEST_SEQ f.fs) seq).recordUnit 2 f.fs
      [(d.bufAddr b, f.bytes.length)] (some (b.fs, b.buf))

/-- A layer takes part in composition (R200). -/
def layerOn (d : Dev) (i : Nat) : Bool := d.lvb (R.CMP_LAYER_CTRL_EN i) && !d.rdb (R.CMP_LAYER_STATUS_I_CFG_ERR i)

/-! Frame-store pixels (R205, R219, R220). -/

/-- A ten-bit sample of a block. -/
def sample10 (m : List Host.Cell) (addr k : Nat) : Nat := (Memory.leNum m (addr + 10 * k / 8) 2 >>> (10 * k % 8)) % 1024

/-- The column whose chroma an odd pixel of a store takes besides that of the column before it (R205). -/
def nextCol (d : Dev) (j x : Nat) : Nat := mirror (d.fsW j) ((x : Int) + 1)

/-- A 4:2:2 pixel of a buffer as R′, G′, B′ (R205). The block of the next even column may come from another buffer, `nb`; of one that is
black the chroma is that of black (R220). -/
def yuvPrime (m : List Host.Cell) (d : Dev) (b : BufRef) (nb : Option BufRef) (x y : Nat) : List Frac :=
  let luma (x y : Nat) : Nat := sample10 m (d.blockAddr b x y) (16 * (y % 16) + x % 16)
  let pair (b : BufRef) (c : Nat) (x : Nat) : Nat := sample10 m (d.blockAddr b x y + 320) (2 * (8 * (y % 16) + x % 16 / 2) + c)
  let even (c : Nat) : Frac :=
    let s := if x % 2 = 0 then 2 * pair b c x else pair b c (x - 1) + nb.elim 512 fun t => pair t c (d.nextCol b.fs x)
    ⟨((s : Nat) : Int) - 1024, 1792⟩
  let yy : Frac := ⟨((luma x y : Nat) : Int) - 64, 876⟩
  let bb := yy.add ((even 0).mul ⟨18814, 10000⟩)
  let rr := yy.add ((even 1).mul ⟨14746, 10000⟩)
  let gg := ((yy.sub (rr.mul ⟨2627, 10000⟩)).sub (bb.mul ⟨593, 10000⟩)).mul ⟨10000, 6780⟩
  [rr, gg, bb]

/-- The light of a component of a stored pixel (R205): cd/m² for PQ, scene light for HLG. -/
def storeLight (hlg : Bool) (c : Frac) : Frac :=
  let beyond := c.num < 0 || !c.le ⟨1, 1⟩
  let l : Frac := if beyond then ⟨(Config.eotfBeyond hlg c.fix32 : Nat), 4294967296⟩ else if hlg then hlgDecode c else pqDecode c
  if hlg then l else l.mul ⟨10000, 1⟩

/-- A stored pixel in the working space, for layer i (R205): an FP24 store is taken as it is. A gain of 0 leaves a free
value (log entry 3). -/
def storePix (m : List Host.Cell) (d : Dev) (i : Nat) (b : BufRef) (nb : Option BufRef) (x y : Nat) : Pix :=
  let fmt := d.lv (R.CMP_FS_CTRL_FMT b.fs)
  if fmt = 0 then
    let a := d.blockAddr b x y + 9 * (16 * (y % 16) + x % 16)
    Pix.ofCodes (Memory.leNum m a 3) (Memory.leNum m (a + 3) 3) (Memory.leNum m (a + 6) 3)
  else
    let g := fpVal (d.lv (R.CMP_LAYER_IN_GAIN i))
    let light (c : Frac) : Frac := storeLight (fmt ≠ 1) c
    let l := (yuvPrime m d b nb x y).map fun c =>
      if g.num = 0 then ⟨Config.freeValue 1 0 % 2 ^ 24, false⟩
      else if g.num < 0 then fpRound ((light c).div ⟨-g.num, g.den⟩ |>.mul ⟨-1, 1⟩) else fpRound ((light c).div g)
    fpMatrix (fun k => d.lv (R.CMP_LAYER_IN_MTX i k)) ⟨l.getD 0 ⟨0, false⟩, l.getD 1 ⟨0, false⟩, l.getD 2 ⟨0, false⟩⟩

/-- A block has not returned: a LIVE read of it waits in a channel (R219, R484). -/
def blockLate (d : Dev) (addr size : Nat) : Bool :=
  d.dram.chans.toList.any fun c => c.queue.any fun r => !r.write && r.cls = .live && decide (addr ≤ r.addr) && decide (r.addr < addr + size)

/-- A block read meets an uncorrectable error, or timed out, which a requester treats alike (R220, R487). -/
def blockBad (d : Dev) (addr size : Nat) : Bool := blockIn d.poison addr size || blockIn d.late addr size

/-- The co-sited block of a buffer can be read: the buffer has one, and it is neither late nor poisoned (R220). -/
def blockGood (d : Dev) (b : BufRef) (x y : Nat) : Bool :=
  let a := d.blockAddr b x y
  let size := d.blockSize b.fs
  decide (x < d.fsW b.fs) && decide (y < d.fsH b.fs) && !d.blockLate a size && !d.blockBad a size

/-- How a block of a layer's latched buffer is read (R219, R220): 0 as it is, 1 late, 2 from the buffer of the frame
before, 3 black. -/
def blockRead (d : Dev) (i : Nat) (b : BufRef) (x y : Nat) : Nat :=
  let size := d.blockSize b.fs
  let a := d.blockAddr b x y
  if d.blockLate a size then 1
  else if !d.blockBad a size then 0
  else match (d.layer i).prev with
    | some p => if p ≠ b && d.blockGood p x y then 2 else 3
    | none => 3

/-- Where a block of a layer's latched buffer is read: none where it is late, else a buffer, or black. -/
def blockSrc (d : Dev) (i : Nat) (b : BufRef) (x y : Nat) : Option (Option BufRef) :=
  match d.blockRead i b x y with
  | 0 => some (some b)
  | 1 => none
  | 2 => some (d.layer i).prev
  | _ => some none

/-- A pixel of a Framed-path layer's source; none where a block that it needs is late (R219). An odd pixel of a 4:2:2 store needs the block
of the next even column too. -/
def framedPix (m : List Host.Cell) (d : Dev) (i : Nat) (x y : Nat) : Option Pix :=
  match (d.layer i).latch with
  | none => none
  | some b =>
    match d.blockSrc i b x y with
    | none => none
    | some none => some Pix.zero
    | some (some s) =>
      if x % 2 = 0 || d.lv (R.CMP_FS_CTRL_FMT b.fs) = 0 then some (storePix m d i s (some s) x y)
      else (d.blockSrc i b (d.nextCol b.fs x) y).map fun t => storePix m d i s t x y

/-! Draught-path windows (R209, R212). -/

/-- The boundary by which the source rows of a canvas row's band must have entered: line 4b − 4 of the frame (R209), seen from the
present line. -/
def rowDeadline (d : Dev) (y : Nat) : Int :=
  d.wtm.lineAt + (d.linePos (d.wtm.n + ((4 * (y / 4) : Nat) : Int) - 4 - ((d.line : Nat) : Int)) - d.linePos d.wtm.n)

/-- The first band of a Draught-path layer, and the boundary by which its rows must have entered: a camera frame that starts
later is of a wall frame to come (R207, R209). -/
def winBand0 (d : Dev) (i : Nat) : Nat := (d.dstY i).toNat / 4
def winCut (d : Dev) (i : Nat) : Int :=
  d.wtm.lineAt + (d.linePos (d.wtm.n + ((4 * d.winBand0 i : Nat) : Int) - 4 - ((d.line : Nat) : Int)) - d.linePos d.wtm.n)

/-- A row of the present wall frame's window that had entered by an instant. -/
def winRow (d : Dev) (i : Nat) (t : Int) (y : Nat) : Option WinRow :=
  let cut := d.winCut i
  ((d.layer i).win.filter fun r => r.y = y && decide (r.at_ ≤ t) && decide (r.start ≤ cut)).getLast?

/-- The last source row of the present wall frame that is present at an instant. -/
def winLast (d : Dev) (i : Nat) (t : Int) : Option WinRow :=
  let cut := d.winCut i
  ((d.layer i).win.filter fun r => decide (r.at_ ≤ t) && decide (r.start ≤ cut)).getLast?

/-- A pixel of a Draught-path layer's window at an instant: a missing row is the last one present (R209). -/
def draughtPix (d : Dev) (i : Nat) (t : Int) (x y : Nat) : Option Pix :=
  match d.winRow i t y with
  | some r => some (r.px.getD x Pix.zero)
  | none => (d.winLast i t).map fun r => r.px.getD x Pix.zero

/-- Two strips joined over `ovl` columns (R212). -/
def joinStrips (ovl : Nat) (a b : List Pix) : List Pix :=
  if ovl = 0 then a ++ b else
  let n := a.length - ovl
  a.take n ++ (List.range ovl).map (fun (j : Nat) =>
    (a.getD (n + j) Pix.zero).blend (b.getD j Pix.zero) ⟨2 * (j : Int) + 1, 2 * ovl⟩) ++ b.drop ovl

/-- Rows of the gang's members joined, left to right. -/
def joinRows (ovl : Nat) : List (List Pix) → List Pix
  | [] => []
  | a :: r => r.foldl (joinStrips ovl) a

/-- A row of camera n after its colour stage. -/
def colourRow (d : Dev) (n : Nat) (row : List Rgb) : List Pix := row.map (d.camColour n)

/-- A row that enters the window buffers: its saturations count for the camera frame (R163), and not again for the wall frames that show
it. -/
def counted (row : List Pix) : List Pix := row.map Pix.counted

/-! Composition (R199). -/

/-- What layer i gives at a canvas pixel. -/
def layerPix (m : List Host.Cell) (d : Dev) (i x y : Nat) : Option Pix :=
  if !d.layerOn i then none else
  let dx := (x : Int) - d.dstX i
  let dy := (y : Int) - d.dstY i
  if dx < 0 ∨ dy < 0 ∨ (d.dstW i : Int) ≤ dx ∨ (d.dstH i : Int) ≤ dy then none else
  d.scale2 (d.lv (R.CMP_LAYER_CTRL_HSET i)) (d.lv (R.CMP_LAYER_CTRL_VSET i)) (d.srcW i) (d.srcH i) (d.dstW i) (d.dstH i)
    dx.toNat dy.toNat fun c r =>
      if d.layerFramed i then framedPix m d i (d.srcX i + c) (d.srcY i + r) else d.draughtPix i (d.rowDeadline y) (d.srcX i + c) (d.srcY i + r)

/-- The composited pixel, before the seams (R199). -/
def composite (m : List Host.Cell) (d : Dev) (x y : Nat) : Pix :=
  let bg := Pix.ofCodes (d.lv (R.CMP_BG 0)) (d.lv (R.CMP_BG 1)) (d.lv (R.CMP_BG 2))
  (List.range 16).foldl (fun below i =>
    match layerPix m d i x y with
    | some s => below.blend s ⟨(d.lv (R.CMP_LAYER_OPA_OPA i) : Nat), 32768⟩
    | none => below) bg

/-- A composited canvas row. -/
def compositeRow (m : List Host.Cell) (d : Dev) (y : Nat) : List Pix := (List.range d.canvasW).map fun x => composite m d x y

/-! The Blocking Table (R221 to R225). -/

/-- The live entry of a block. -/
def blockEntry (d : Dev) (bx by_ : Nat) : Nat :=
  (d.liveEntry 1 0 (by_ * d.blocksW + bx)).foldr (fun b v => b + 256 * v) 0

/-- The tile of a block, none where it is untiled or names a tile in no chain map (R221, R224). -/
def blockTile (d : Dev) (bx by_ : Nat) : Option Nat :=
  let e := d.blockEntry bx by_
  if bit e 4 || !d.mapTiles.contains (bits e 47 36) then none else some (bits e 47 36)

/-- The uniformity code of a block (Table 7-4). -/
def blockUni (e k : Nat) : Nat := match k with
  | 0 => bits e 35 27 | 1 => bits e 26 18 | _ => bits e 17 9

/-- The seam weight of a block (Table 7-4). -/
def seamW (e : Nat) : Frac := ⟨(bits e 6 5 + 1 : Nat), 8⟩

/-- The horizontal seam blends of a row (R222), from the unblended pixels. -/
def blendRow (d : Dev) (y : Nat) (row : List Pix) : List Pix :=
  (List.range row.length).map fun x =>
    let p := row.getD x Pix.zero
    let e := d.blockEntry (x / 16) (y / 16)
    let f := d.blockEntry (x / 16 + 1) (y / 16)
    if x % 16 = 0 ∧ 0 < x ∧ bit e 8 then p.blend (row.getD (x - 1) Pix.zero) (seamW e)
    else if x % 16 = 15 ∧ x + 1 < row.length ∧ bit f 8 then p.blend (row.getD (x + 1) Pix.zero) (seamW f)
    else p

/-- The vertical seam blends of a row (R222): `other` is the row across the block edge. -/
def blendEdge (d : Dev) (by_ : Nat) (row other : List Pix) : List Pix :=
  (List.range row.length).map fun x =>
    let p := row.getD x Pix.zero
    let e := d.blockEntry (x / 16) by_
    if bit e 7 then p.blend (other.getD x Pix.zero) (seamW e) else p

/-- A row after the seams and the muting (R222, R223): `raw` is the row after the horizontal blends. The row across the bottom edge
of a band is the one that the next band shows, from the source rows that have entered by that band's own deadline. A muted pixel keeps the
saturations that took place in it (R163). -/
def finishRow (m : List Host.Cell) (d : Dev) (y : Nat) (raw above : List Pix) : List Pix :=
  let r :=
    if y % 16 = 0 ∧ 0 < y then d.blendEdge (y / 16) raw above
    else if y % 16 = 15 ∧ y + 1 < d.canvasH then
      d.blendEdge (y / 16 + 1) raw (d.blendRow (y + 1) (compositeRow m d (y + 1)))
    else raw
  (r.zipIdx).map fun q => if bit (d.blockEntry (q.2 / 16) (y / 16)) 3 then q.1.muted else q.1

/-! Taps (R227, R228). -/

/-- A tap is enabled, with a 4:2:2 store. -/
def tapOn (d : Dev) (j : Nat) : Bool :=
  d.lvb (R.CMP_TAP_CTRL_EN j) && decide (d.lv (R.CMP_FS_CTRL_FMT (d.lv (R.CMP_TAP_CTRL_FS j))) ≠ 0)

/-- A tap's output size (R227). -/
def tapW (d : Dev) (j : Nat) : Nat := Nat.min 8192 (d.lv (R.CMP_TAP_OUT_WH_OUT_W j))
def tapH (d : Dev) (j : Nat) : Nat := Nat.min 8192 (d.lv (R.CMP_TAP_OUT_WH_OUT_H j))

/-- A scaled pixel of a tap, from the pixels of its source, addressed by column and row (R227). -/
def tapPix (d : Dev) (j : Nat) (s : Nat → Nat → Pix) (x y : Nat) : Pix :=
  let sx := d.lv (R.CMP_TAP_SRC_XY_SRC_X j)
  let sy := d.lv (R.CMP_TAP_SRC_XY_SRC_Y j)
  (d.scale2 (d.lv (R.CMP_TAP_SETS_HSET j)) (d.lv (R.CMP_TAP_SETS_VSET j)) (d.lv (R.CMP_TAP_SRC_WH_SRC_W j))
    (d.lv (R.CMP_TAP_SRC_WH_SRC_H j)) (d.tapW j) (d.tapH j) x y fun c r => some (s (sx + c) (sy + r))).getD Pix.zero

/-- The frame of a tap (R227, R190, R191). -/
def tapFrame (d : Dev) (j : Nat) (s : Nat → Nat → Pix) (marks : Nat) (cam : Option (Nat × Nat)) : FsFrame :=
  ⟨d.lv (R.CMP_TAP_CTRL_FS j), yuvBlocks (d.tapW j) (d.tapH j) fun x y => d.tapPrime j (d.tapPix j s x y), 0, marks, some j,
    Requester.tapWrite.cls, cam⟩

/-- A tap's scaler, matrix or gain saturates in a frame (R163). -/
def tapSat (d : Dev) (j : Nat) (s : Nat → Nat → Pix) : Bool :=
  (List.range (d.tapH j)).any fun y => (List.range (d.tapW j)).any fun x => (d.tapColour j (d.tapPix j s x y)).sat

/-- A tap's source delivers a frame: one in DIV is written, of a camera once its frame is over, whose marks it carries (R115). A
saturation marks the frame of the source (R163). -/
def tapTake (m : List Host.Cell) (d : Dev) (j : Nat) (s : Nat → Nat → Pix) (marks : Nat) (cam : Option (Nat × Nat)) : Dev :=
  let t := d.cmp.taps.getD j ⟨0, []⟩
  let div := Nat.max 1 (d.lv (R.CMP_TAP_CTRL_DIV j))
  let put (d : Dev) (c : Nat) : Dev := { d with cmp := { d.cmp with taps := setV d.cmp.taps j ⟨c, []⟩ } }
  if div ≤ t.count + 1 then
    let f := d.tapFrame j s marks cam
    let sat := d.tapSat j s
    if d.lvb (R.CMP_TAP_CTRL_SRC j) then
      let d := put (d.markSatCam (d.lv (R.CMP_TAP_CTRL_CAM j)) sat) 0
      { d with cmp := { d.cmp with waiting := d.cmp.waiting ++ [f] } }
    else fsWrite m (put (d.markSat sat) 0) f
  else put d (t.count + 1)

/-- The canvas taps take a band's rows, before the seams; with the frame's last band they have a frame (R227). -/
def canvasTaps (m : List Host.Cell) (d : Dev) (rows : List (List Pix)) (first last : Bool) : Dev :=
  (List.range 4).foldl (fun d j =>
    if d.tapOn j && !d.lvb (R.CMP_TAP_CTRL_SRC j) then
      let t := d.cmp.taps.getD j ⟨0, []⟩
      let all := if first then rows else t.rows ++ rows
      let d := { d with cmp := { d.cmp with taps := setV d.cmp.taps j { t with rows := all } } }
      if last && decide (all.length = d.canvasH) then d.tapTake m j (fun x y => (all.getD y []).getD x Pix.zero) 0 none else d
    else d) d

/-- The marks of the rows that leave pipeline n as a frame, and the camera frame that they are: those of a filled slot or a substitute frame
have none and are none (DESIGN CHOICE, log entry 120). -/
def frameMarks (d : Dev) (n : Nat) : Nat × Option (Nat × Nat) :=
  let c := d.cam n
  if c.filled then (0, none) else (c.marks, some (n, c.frameSeq))

/-- The camera taps of camera n take a frame of its camera stage (R227). -/
def cameraTaps (m : List Host.Cell) (d : Dev) (n : Nat) (rows : List (List Pix)) : Dev :=
  (List.range 4).foldl (fun d j =>
    if d.tapOn j && d.lvb (R.CMP_TAP_CTRL_SRC j) && decide (d.lv (R.CMP_TAP_CTRL_CAM j) = n) then
      d.tapTake m j (fun x y => (rows.getD y []).getD x Pix.zero) (d.frameMarks n).1 (d.frameMarks n).2
    else d) d

/-! The raster lock (R207, R208). -/

/-- The lock ratio k, the lines of a lock cycle, and the line of the present cycle. -/
def lockK (d : Dev) (i : Nat) : Nat := d.lv (R.CMP_LAYER_LOCK_RATIO i) + 1
def lockCycle (d : Dev) (i : Nat) : Nat := if d.lvb (R.CMP_LAYER_LOCK_RDIR i) then d.lt else d.lockK i * d.lt
def lockPos (d : Dev) (i : Nat) : Nat :=
  if d.lvb (R.CMP_LAYER_LOCK_RDIR i) then d.line
  else (d.frameOf d.wtm.wln + d.wtm.epochUse) % d.lockK i * d.lt + d.line

/-- The line of each lock cycle at which a camera frame is expected to start: LOCK_LINE, 0 to k × L_T - 1 (R207, R566). -/
def lockAt (d : Dev) (i : Nat) : Nat := Nat.min (d.lv (R.CMP_LAYER_LOCK_LINE i)) (d.lockK i * d.lt - 1) % d.lockCycle i

/-- The instant at which a line of the lock cycle starts, in the cycle `c` cycles away from the present one. -/
def lockTime (d : Dev) (i pos : Nat) (c : Int) : Int :=
  let ahead : Int := (pos : Int) - (d.lockPos i : Nat) + c * (d.lockCycle i : Nat)
  d.wtm.lineAt + (d.linePos (d.wtm.n + ahead) - d.linePos d.wtm.n)

/-- A camera frame that starts now lies within LOCK_TOL of an expected start. -/
def lockHit (d : Dev) (i : Nat) : Bool :=
  [(-1 : Int), 0, 1].any fun c =>
    decide (((d.stc : Int) - d.lockTime i (d.lockAt i) c).natAbs ≤ nanos (d.lv (R.CMP_LAYER_LOCK_TOL i)))

/-- A band still to be composited needs a row (R209): it is of a wall frame to come, or of the present one and within the
source rows that the layer's canvas rows from `next` on take. -/
def winNeeds (d : Dev) (i : Nat) (next : Int) (r : WinRow) : Bool :=
  let cut := d.winCut i
  let from_ := (rowsNeeded (d.srcH i) (d.dstH i) next.toNat).foldl Nat.min 65536
  d.srcY i ≤ r.y && decide (r.y < d.srcY i + d.srcH i) &&
    (decide (cut < r.start) ||
      (decide (cut < r.start + (d.framePeriod : Nat)) && decide (next < (d.dstH i : Nat)) && decide (d.srcY i + from_ ≤ r.y)))

/-- A row arrives at a layer's window buffer of 16 rows (R209). -/
def admitRow (d : Dev) (i : Nat) (row : WinRow) : Dev :=
  let l := d.layer i
  if !d.winNeeds i (((4 * d.cmp.bands : Nat) : Int) - d.dstY i) row then d
  else if 16 ≤ (l.win.filter fun r => decide (r.at_ ≤ row.at_)).length then d.cnt (R.CMP_LAYER_DROP_ROWS i)
  else d.putLayer i { l with win := l.win ++ [row] }

/-- The rows of a repeat slot that are due at a line boundary enter (R207, R209). -/
def slotRows (d : Dev) (i : Nat) : Dev :=
  let due := (d.layer i).slot.filter fun r => decide (r.at_ ≤ d.wtm.lineAt)
  let d := d.putLayer i { d.layer i with slot := (d.layer i).slot.filter fun r => !decide (r.at_ ≤ d.wtm.lineAt) }
  due.foldl (fun d r => d.admitRow i r) d

/-- A repeat slot (R207, R151): the last good frame's rows, at the row times of the last selected frame. -/
def repeatSlot (m : List Host.Cell) (d : Dev) (i : Nat) (t : Int) : Dev :=
  let n := d.layerSrc i
  let l := d.layer i
  let rows := (List.range (d.cropH n)).map fun y =>
    let px := joinRows (d.gangOvl i)
      ((d.gangMembers n).map fun q => counted (d.colourRow q (rawRow m d ⟨q, [], d.cropH q⟩ true y)))
    (⟨y, t + l.rowLead + (y : Int) * l.rowTime, px, t, true⟩ : WinRow)
  (d.putLayer i { l with slot := l.slot ++ rows.filter (fun (r : WinRow) => d.srcY i ≤ r.y && decide (r.y < d.srcY i + d.srcH i)), sel := false }).cnt (R.CMP_LAYER_REPEAT i)

/-- The expected start, of this lock cycle or of the one before, that has passed by more than LOCK_TOL and lies less than half a
cycle back. -/
def lockMissed (d : Dev) (i : Nat) : Option Int :=
  let half := d.linePos (d.wtm.n + (d.lockCycle i / 2 : Nat)) - d.linePos d.wtm.n
  ([0, -1].map (d.lockTime i (d.lockAt i))).find? fun t =>
    decide (t + (nanos (d.lv (R.CMP_LAYER_LOCK_TOL i)) : Nat) < d.wtm.lineAt) && decide (d.wtm.lineAt ≤ t + half)

/-- The lock of a Draught-path layer at a line boundary (R207): a cycle without a selected frame shows a repeat slot. -/
def lockLine (m : List Host.Cell) (d : Dev) (i : Nat) : Dev :=
  if !(d.layerOn i) || d.layerFramed i then d else
  let line := d.lockAt i
  let cyc := Nat.max 1 (d.lockCycle i)
  let c := d.lockPos i
  let l := d.layer i
  let d := match d.lockMissed i, l.settled with
    | some t, false =>
      let d := d.putLayer i { l with settled := true }
      let d := (d.cnt (R.CMP_LAYER_LOCK_ERR i)).flag 0 (R.CMP_LAYER_STATUS_I_LOCK_LOST i) 2 true true
      repeatSlot m d i t
    | _, _ => if decide (c = (line + cyc / 2) % cyc) then d.putLayer i { l with settled := false } else d
  (if (List.range (d.lockK i)).any fun j =>
      decide (0 < j) && !d.lvb (R.CMP_LAYER_LOCK_RDIR i) && decide (c = (line + j * d.lt) % cyc) then
    repeatSlot m d i d.wtm.lineAt
  else d).slotRows i

/-- A camera frame starts on port n: the Draught-path layers that take it select it or not (R207). -/
def lockStart (d : Dev) (n : Nat) : Dev :=
  (List.range 16).foldl (fun d i =>
    if !d.layerFramed i && d.layerOn i && decide (d.layerSrc i = n) then
      if d.lockHit i then
        let d := d.putLayer i { d.layer i with sel := true, settled := true, start := (d.stc : Int) }
        d.flag 0 (R.CMP_LAYER_STATUS_I_LOCK_LOST i) 2 true false
      else d.putLayer i { d.layer i with sel := false }
    else d) d

/-- A band's slack joins those of the selected frame (R210). -/
def addSlack (d : Dev) (i : Nat) (s : Int) : Dev :=
  let l := d.layer i
  d.putLayer i { l with slackLo := some (min s (l.slackLo.getD s)), slackHi := some (max s (l.slackHi.getD s)) }

/-- A row that enters after its bands were composited gives them their slack, which is negative (R210). -/
def lateSlack (d : Dev) (i : Nat) (r : WinRow) : Dev :=
  let l := d.layer i
  if r.rep || decide (d.winCut i < r.start) then d else
  let d := d.putLayer i { l with pend := l.pend.filter fun p => p.1 != r.y }
  (l.pend.filter fun p => p.1 = r.y).foldl (fun d p => d.addSlack i (p.2 - r.at_)) d

/-- At the end of a wall frame MIN_SLACK and MAX_SLACK show the selected frame's slacks (R210). -/
def showSlack (d : Dev) (i : Nat) : Dev :=
  let l := d.layer i
  let d := match l.slackLo, l.slackHi with
    | some a, some b => (d.wr (R.CMP_LAYER_MIN_SLACK i) (satNs a)).wr (R.CMP_LAYER_MAX_SLACK i) (satNs b)
    | _, _ => d
  d.putLayer i { l with slackLo := none, slackHi := none, pend := [] }

/-- A row enters the window buffers of the layers that take port n's gang (R209, R212). A row of a filled slot or of a substitute frame
enters at the line time that a frame which starts with the slot would have had (R118). -/
def enterRow (d : Dev) (n y : Nat) (px : Nat → List Pix) : Dev :=
  (List.range 16).foldl (fun d i =>
    let l := d.layer i
    if !d.layerFramed i && d.layerOn i && decide (d.layerSrc i = n) && l.sel then
      let c := d.cam n
      let t : Int := if c.filled then c.slotStart + l.rowLead + (y : Int) * l.rowTime else (d.stc : Int)
      let lead := if y = 0 && !c.filled then t - c.slotStart else l.rowLead
      let h := d.cropH n
      let time := if y + 1 = h ∧ 1 < h ∧ !c.filled then (t - c.slotStart - lead) / ((h - 1 : Nat) : Int) else l.rowTime
      let row : WinRow := ⟨y, t, px (d.gangOvl i), c.slotStart, c.filled⟩
      ((d.putLayer i { l with rowLead := lead, rowTime := time }).lateSlack i row).admitRow i row
    else d) d

/-- After a band the rows that no band still to come needs leave a window (R209). -/
def pruneWin (d : Dev) (i b : Nat) : Dev :=
  let l := d.layer i
  let next := 4 * b + 4 - d.dstY i
  d.putLayer i { l with win := l.win.filter fun r => d.winNeeds i next r }

/-- The counts and the slack of a Draught-path layer's band (R209, R210). -/
def draughtBand (d : Dev) (i b : Nat) : Dev :=
  let l := d.layer i
  let t := d.rowDeadline (4 * b)
  let cut := d.winCut i
  let rows := (List.range 4).filterMap fun r =>
    let y : Int := (4 * b + r : Nat) - d.dstY i
    if 0 ≤ y ∧ y < (d.dstH i : Nat) then some y.toNat else none
  let lateRows := rows.filter fun y =>
    (rowsNeeded (d.srcH i) (d.dstH i) y).any fun s => (d.winRow i t (d.srcY i + s)).isNone
  let d := d.addCnt (R.CMP_LAYER_LATE_ROWS i) lateRows.length
  match rows.getLast? with
  | none => d
  | some y =>
    let h := d.srcY i + Nat.min (d.srcH i - 1) ((scalePos (d.srcH i) (d.dstH i) y).1 + 4).toNat
    match (l.win.filter fun r => r.y = h && decide (r.start ≤ cut)).getLast? with
    | some r => if r.rep then d else d.addSlack i (t - r.at_)
    | none => d.putLayer i { d.layer i with pend := l.pend ++ [(h, t)] }

/-- The late and poisoned blocks of a Framed-path layer's band are counted (R219, R220). -/
def framedBand (d : Dev) (i b : Nat) : Dev :=
  match (d.layer i).latch with
  | none => d
  | some f =>
    let rows := (List.range 4).flatMap fun r =>
      let y : Int := (4 * b + r : Nat) - d.dstY i
      if 0 ≤ y ∧ y < (d.dstH i : Nat) then (rowsNeeded (d.srcH i) (d.dstH i) y.toNat).map (d.srcY i + ·) else []
    let brows := (rows.map (· / 16)).dedup
    let cols := (List.range (d.srcW i)).map fun c => d.srcX i + c
    let more := if d.lv (R.CMP_FS_CTRL_FMT f.fs) = 0 then [] else (cols.filter (· % 2 = 1)).map (d.nextCol f.fs)
    let bcols := ((cols ++ more).map (· / 16)).dedup
    let kinds := brows.flatMap fun br => bcols.map fun bc => d.blockRead i f (16 * bc) (16 * br)
    let n (k : Nat) : Nat := (kinds.filter (· = k)).length
    ((d.addCnt (R.CMP_LAYER_LATE_BLOCKS i) (n 1)).addCnt (R.CMP_LAYER_POISON i) (n 2 + n 3)).addCnt
      (R.CMP_LAYER_POISON_BLACK i) (n 3)

/-! Latching of frame-store buffers (R217, R218). -/

/-- The complete buffer of a store with the largest DUE that is not beyond the present WLN. -/
def dueBuf (m : List Host.Cell) (d : Dev) (j : Nat) : Option BufRef :=
  let ok (b : BufRef) : Bool := d.bufState m b = 2 && decide (0 ≤ sext 48 (d.wtm.wln + 2 ^ 48 - d.bufDue m b))
  ((bufs j).filter ok).foldl (fun best b => match best with
    | none => some b
    | some c => if 0 < sext 48 (d.bufDue m b + 2 ^ 48 - d.bufDue m c) then some b else some c) none

/-- The status shows a latched buffer. -/
def showLatch (d : Dev) (i : Nat) (b : BufRef) (seq : Nat) : Dev :=
  (d.wr (R.CMP_LAYER_STATUS_I_LATCH_BUF i) b.buf).wr (R.CMP_LAYER_STATUS_I_LATCH_SEQ i) seq

/-- The latch of a Framed-path layer, composited or not, for the next wall frame, at line L_T − 8 (R217). -/
def latchLayer (m : List Host.Cell) (d : Dev) (i : Nat) : Dev :=
  let l := d.layer i
  if !d.layerFramed i then d
  else if d.lvb (R.CMP_LAYER_CTRL_FREEZE i) then d.putLayer i { l with next := l.latch, nextSeq := l.seq }
  else match dueBuf m d (d.layerSrc i) with
    | none => d.putLayer i { l with next := l.latch, nextSeq := l.seq }
    | some b =>
      let seq := d.bufSeq m b
      if l.latch = some b then (d.putLayer i { l with next := some b, nextSeq := seq }).cnt (R.CMP_LAYER_REPEAT i) else
      let after (s : Nat) : Bool := decide (0 < sext 32 (s + 2 ^ 32 - l.seq)) && decide (0 < sext 32 (seq + 2 ^ 32 - s))
      let skipped := (bufs (d.layerSrc i)).filter fun c => d.bufState m c = 2 && after (d.bufSeq m c)
      let d := if l.latch.isSome then d.addCnt (R.CMP_LAYER_SKIP i) skipped.length else d
      (d.putLayer i { l with next := some b, nextSeq := seq }).showLatch i b seq

/-- At a frame boundary the latches for the frame come into use, and the slacks of the last one appear. -/
def turnLatches (d : Dev) : Dev :=
  let d := (List.range 16).foldl showSlack d
  { d with cmp := { d.cmp with layers := d.cmp.layers.map fun l =>
      { l with prev := l.latch, latch := l.next, seq := l.nextSeq, gave := [], gavePrev := l.gave } } }

/-- After a commit, from the device `was`, a Framed-path layer whose source changed latches at once and counts nothing (R217, the
case), but for a frozen one (R218). The buffer of the frame before stays that of R220. -/
def relatch (m : List Host.Cell) (was d : Dev) : Dev :=
  (List.range 16).foldl (fun d i =>
    let l := d.layer i
    if d.layerFramed i && decide (was.layerSrc i ≠ d.layerSrc i) && !d.lvb (R.CMP_LAYER_CTRL_FREEZE i) then
      let l := { l with gave := l.gave ++ l.latch.toList }
      match dueBuf m d (d.layerSrc i) with
      | some b => (d.putLayer i { l with latch := some b, seq := d.bufSeq m b, next := some b, nextSeq := d.bufSeq m b }).showLatch
          i b (d.bufSeq m b)
      | none => d.putLayer i { l with latch := none, next := none }
    else d) d

/-! Bands (R197). -/

/-- CRC-32C of the pixels of SIG blocks of a row, on from a register (R226). -/
def sigRow (d : Dev) (y : Nat) (crc : Nat) (row : List Pix) : Nat :=
  (row.zipIdx).foldl (fun c q =>
    if bit (d.blockEntry (q.2 / 16) (y / 16)) 2 then q.1.bytes.foldl (crcByte 0x82F63B78) c else c) crc

/-- A block of the band's block row names a tile in no chain map (R224). -/
def unmappedRow (d : Dev) (by_ : Nat) : Bool :=
  (List.range d.blocksW).any fun bx =>
    let e := d.blockEntry bx by_
    !bit e 4 && !d.mapTiles.contains (bits e 47 36)

/-- Band b is composited and handed on (R197, R222, R226, R227): answers the device and the four finished rows. -/
def bandComposite (m : List Host.Cell) (d : Dev) (b : Nat) : Dev × List (List Pix) :=
  let d := if b = 0 then { d with cmp := { d.cmp with bands := 0, whole := true, sig := 0xFFFFFFFF, unmapped := false, above := [] } }
    else if d.cmp.bands ≠ b then { d with cmp := { d.cmp with whole := false } } else d
  let ys := (List.range 4).map (4 * b + ·)
  let raw := ys.map fun y => compositeRow m d y
  let blended := (raw.zip ys).map fun q => d.blendRow q.2 q.1
  let rows := (List.range 4).map fun r =>
    finishRow m d (4 * b + r) (blended.getD r []) (if r = 0 then d.cmp.above else blended.getD (r - 1) [])
  let sig := (rows.zip ys).foldl (fun c q => d.sigRow q.2 c q.1) d.cmp.sig
  let d := d.markSat (rows.any fun r => r.any Pix.sat)
  let d := (List.range 16).foldl (fun d i =>
    if d.layerOn i then (if d.layerFramed i then d.framedBand i b else d.draughtBand i b) else d) d
  let newly := d.unmappedRow (b / 4) && !d.cmp.unmapped
  let d := if newly then d.cnt R.CMP_BT_UNMAPPED else d
  let d := { d with cmp := { d.cmp with bands := b + 1, sig := sig, unmapped := d.cmp.unmapped || newly, above := blended.getD 3 [] } }
  let last := decide (d.canvasH = 4 * b + 4)
  let d := d.canvasTaps m raw (b = 0) last
  let d := (List.range 16).foldl (fun d i => if d.layerOn i && !d.layerFramed i then d.pruneWin i b else d) d
  let d := if last && d.cmp.whole then
      let line0 := (d.wtm.wln + 2 ^ 48 - 4 * b) % 2 ^ 48
      (d.wr R.CMP_SIG (Nat.xor d.cmp.sig 0xFFFFFFFF)).wrPair R.CMP_SIG_WLN_LO R.CMP_SIG_WLN_HI line0
    else d
  (d, rows)

/-- ⌈EXP_PERIOD / t_L⌉ of pipeline n, with t_L = RATE_DEN / (RATE_NUM × L_T) s (R215). -/
def duePeriod (d : Dev) (n : Nat) : Nat :=
  (d.lv (R.CAM_EXP_PERIOD n) * (d.rateNum * d.lt) + d.rateDen * 1000000000 - 1) / (d.rateDen * 1000000000)

/-- The frame that pipeline n has completed waits for the frame stores that it writes (R213, R215); a replaced frame is discarded
(R116). -/
def pipeFrame (d : Dev) (n : Nat) (rows : List (List Pix)) : Dev :=
  let c := d.cam n
  if c.replFrom.isSome && !c.filled then d else
  let due := c.startWln + d.duePeriod n
  (List.range 32).foldl (fun d j =>
    if d.lv (R.CMP_FS_CTRL_WRITER j) = 1 && d.fsWidx j = n && d.lv (R.CMP_FS_CTRL_FMT j) = 0 then
      let f : FsFrame := ⟨j, fp24Blocks (d.fsW j) (d.fsH j) (fun x y => (rows.getD y []).getD x Pix.zero), due, (d.frameMarks n).1, none,
        Requester.storeWrite.cls, (d.frameMarks n).2⟩
      { d with cmp := { d.cmp with waiting := d.cmp.waiting ++ [f] } }
    else d) d

end Dev

/-- The next row of pipeline n leaves its camera colour stage (R165, R209, R212), `dt` after the latest moment: it enters
the windows of the layers that take it; with the frame's last row the frame stores and taps have a frame. -/
def actWindowRow (n dt : Nat) (m : List Host.Cell) (d : Dev) : Dev :=
  let d := d.pass dt
  let c := d.cam n
  if !d.pipesRun || c.outRows.length ≤ c.taken then d else
  let y := c.taken
  let d := d.putCam n { c with taken := y + 1 }
  let row (q : Nat) : List Pix := d.colourRow q ((d.cam q).outRows.getD y [])
  let d := d.markSatCam n ((row n).any Pix.sat)
  let members := d.gangMembers n
  let d := if members.all fun q => decide (y < (d.cam q).taken) then
      d.enterRow (d.gangLeader n) y fun ovl => Dev.joinRows ovl (members.map fun q => Dev.counted (row q))
    else d
  if y + 1 = d.cropH n then
    let rows := (d.cam n).outRows.map (d.colourRow n)
    (d.pipeFrame n rows).cameraTaps m n rows
  else d

/-- A frame may be written: a camera frame once its port and the other members of its gang have ended the slot's, so that no mark can
still replace it (R110, R116). -/
def Dev.fsReady (d : Dev) (f : FsFrame) : Bool := match f.cam with
  | some (n, q) => decide ((d.cam n).frameSeq ≠ q) || (d.inSlot n).all fun k => !d.rdb (R.CAM_STATUS_IN_FRAME k)
  | none => true

/-- The oldest frame that waits for store j and may be written is written or discarded (R216). -/
def actFsWrite (j : Nat) (m : List Host.Cell) (d : Dev) : Dev :=
  match d.cmp.waiting.find? fun f => f.fs = j && d.fsReady f with
  | none => d
  | some f => Dev.fsWrite m { d with cmp := { d.cmp with waiting := d.cmp.waiting.erase f } } f

/-- A write of CMP.COEF_DATA addresses the live bank (R203). -/
def coefRefused (d : Dev) : Bool := decide (d.rd R.CMP_COEF_SEL_BANK = d.lv R.CMP_CFG_COEF_BANK)

/-- A read or write of CMP.COEF_DATA (R203): `w` is the word written, none for a read. A write to the live bank ends with
an error response. -/
def actCoefData (w : Option Nat) (d : Dev) : Dev :=
  let b := d.rd R.CMP_COEF_SEL_BANK
  let i := d.rd R.CMP_COEF_SEL_INDEX
  let adv (d : Dev) : Dev := if d.rdb R.CMP_COEF_SEL_AUTOINC then d.wr R.CMP_COEF_SEL_INDEX (i + 1) else d
  match w with
  | some v =>
    if coefRefused d then d.log 0x21 0 4 0x005 (0x24 + 65536)
    else
      adv (d.writeBank 1 (4096 * b + i) (v % 4096))
  | none => adv (d.wr R.CMP_COEF_DATA_COEF (SMap.get d.cmp.coefs (4096 * b + i)))

def execWindowRowEntry (n : Fin 8) (dt : Nat) (s : State) : Host.Outcome State Fault Refusal :=
  run s fun m d => actWindowRow n dt m d
def execFrameStoreWrite (j : Fin 32) (s : State) : Host.Outcome State Fault Refusal := run s fun m d => actFsWrite j m d

end Sys2Proof.Machine
end

