-- ==== Sys2Proof/Machine/Blocks.lean ====
section
/-!
DEFINITION. The blocks of the serial lanes (R270 to R273): sync headers, the scrambler x^58 + x^39 + 1, and the receiver of a
return lane. A scrambler's register holds the last 58 bits of the line, the newest in bit 0.
-/

namespace Sys2Proof.Machine

/-- What the register adds to a bit (R271). -/
def scrTap (r : Nat) : Bool := bit r 38 != bit r 57

/-- The register after a bit of the line. -/
def scrShift (r : Nat) (b : Bool) : Nat := (2 * r + b2n b) % 2 ^ 58

/-- The n bits of v scrambled, the highest first: the bits of the line, and the register after them. -/
def scramble : Nat → Nat → Nat → Nat × Nat
  | 0, r, _ => (0, r)
  | n + 1, r, v =>
    let s := bit v n != scrTap r
    let q := scramble n (scrShift r s) v
    (b2n s * 2 ^ n + q.1, q.2)

/-- The n bits of a line w descrambled, the highest first: the payload, and the register after them. -/
def descramble : Nat → Nat → Nat → Nat × Nat
  | 0, r, _ => (0, r)
  | n + 1, r, w =>
    let s := bit w n
    let q := descramble n (scrShift r s) w
    (b2n (s != scrTap r) * 2 ^ n + q.1, q.2)

/-- Payloads as blocks, on from a register: the first starts a packet where `first` says so, the others continue it. -/
def sealBlocks : Bool → Nat → List Nat → List (BitVec 130) × Nat
  | _, r, [] => ([], r)
  | first, r, v :: rest =>
    let p := scramble 128 r v
    let q := sealBlocks false p.2 rest
    (BitVec.ofNat 130 ((if first then 2 else 1) * 2 ^ 128 + p.1) :: q.1, q.2)

/-- A packet of whole blocks as it goes on the line (R270, R271). -/
def linkBlocks (r : Nat) (bytes : List Byte) : List (BitVec 130) × Nat :=
  sealBlocks true r ((List.range (bytes.length / 16)).map fun i => beAt bytes (16 * i) 16)

/-- The ones among 64 bits. -/
def ones (n : Nat) : Nat := ((List.range 64).filter fun i => bit n i).length

/-- What a block does to a receiver: the lane after it, a block error, and the packets that it ends, none for one that is damaged or
of unknown TYPE. It is no part of the state. -/
structure RxStep where
  lane : Lane
  err  : Bool
  done : List (Option (List Byte))

/-- The packet that a 0b10 block opens (R273, Table 10-6), with the blocks still to come, and the packets ended by it. One of another
TYPE or another VER is discarded with every block that continues it. -/
def openBlock (v : Nat) : Option (List Byte × Nat) × List (Option (List Byte)) :=
  match v / 2 ^ 124, v / 2 ^ 120 % 16 with
  | 0, _ => (none, [])
  | 8, 1 | 9, 1 => (none, [some (beBytes 16 v)])
  | 10, 1 => (some (beBytes 16 v, 1), [])
  | _, _ => (some ([], 0), [none])

/-- A receiver out of lock takes a block (R272): 64 valid sync headers in a row give lock. -/
def hunt (l : Lane) (valid : Bool) : RxStep :=
  let g := if valid then l.good + 1 else 0
  if g = 64 then ⟨{ l with lock := true, good := 0, errs := 0, rx := none }, false, []⟩ else ⟨{ l with good := g }, false, []⟩

/-- A receiver in lock takes a block (R272, R273): a packet that a 0b10 block cuts off is damaged, and sixteen block errors among the
last 64 blocks lose the lock. -/
def follow (l : Lane) (h v : Nat) : RxStep :=
  let err := !(h = 1 || h = 2) || (h = 1 && l.rx.isNone)
  let errs := (2 * l.errs + b2n err) % 2 ^ 64
  let p := match h, l.rx with
    | 2, some (_, _ + 1) => ((openBlock v).1, none :: (openBlock v).2)
    | 2, _ => openBlock v
    | 1, some (bs, 1) => (none, [some (bs ++ beBytes 16 v)])
    | _, o => (o, [])
  if 16 ≤ ones errs then ⟨{ l with lock := false, good := 0, errs := 0, rx := none }, err, p.2⟩
  else ⟨{ l with errs := errs, rx := p.1 }, err, p.2⟩

/-- A receiver takes a block off the line. -/
def takeBlock (l : Lane) (b : BitVec 130) : RxStep :=
  let h := b.toNat / 2 ^ 128
  let p := descramble 128 l.dscr (b.toNat % 2 ^ 128)
  let l := { l with dscr := p.2 }
  if l.lock then follow l h p.1 else hunt l (h = 1 || h = 2)

end Sys2Proof.Machine
end

