-- ==== Sys2Proof/Machine/Link.lean ====
section
/-!
DEFINITION. Mirverov Link (chapter 10): packets, the retransmit FIFOs, ownership claims, control transfers, stale tiles and
breaks, as one device sees them.
-/

namespace Sys2Proof.Machine

/-- Fields of given widths, the first first and each with its highest bit first, as bytes (R274). -/
def packFields (fs : List (Nat × Nat)) : List Byte :=
  let v := fs.foldl (fun a f => a * 2 ^ f.2 + f.1 % 2 ^ f.2) 0
  beBytes ((fs.map Prod.snd).sum / 8) v

/-- The check of a link packet: CRC-16, polynomial 0x1021, initial value 0xFFFF (R274). -/
def linkCrc (bs : List Byte) : Nat := crcMsb 16 0x1021 0xFFFF bs

/-- Bytes with the check of all before them at the end. -/
def withCheck (bs : List Byte) : List Byte := bs ++ beBytes 2 (linkCrc bs)

/-- Bytes padded with zeros to a whole number of blocks. -/
def padBlocks (bs : List Byte) : List Byte := bs ++ List.replicate ((16 - bs.length % 16) % 16) 0

/-- Replace bytes at an offset. -/
def patch (bs : List Byte) (off : Nat) (new : List Byte) : List Byte := bs.take off ++ new ++ bs.drop (off + new.length)

/-- The signed 32-bit difference of wall line numbers (R84, R281). -/
def diff32 (a b : Nat) : Int := sext 32 (a % 2 ^ 32 + 2 ^ 32 - b % 2 ^ 32)

/-- A return packet (Table 10-6) taken apart. It is no part of the state. -/
structure Ret where
  type   : Nat
  tile   : Nat
  pos    : Nat
  end_   : Nat
  ownEnd : Nat
  status : Nat
  seq    : Nat
  hops   : Nat
  owned  : Nat
  epoch  : Nat
  f      : List Nat

/-- A return packet from its bytes, if its length, TYPE, VER and PCRC are right (R273, R294). -/
def parseRet (bs : List Byte) : Option Ret :=
  let t := beAt bs 0 1 / 16
  let n := if t = 10 then 32 else 16
  if !(t = 8 || t = 9 || t = 10) || beAt bs 0 1 % 16 ≠ 1 || bs.length ≠ n || linkCrc (bs.take (n - 2)) ≠ beAt bs (n - 2) 2
  then none else
  let v := beAt bs 0 n
  let w := 8 * n
  let at_ (off width : Nat) : Nat := v / 2 ^ (w - off - width) % 2 ^ width
  some ⟨t, at_ 8 12, at_ 20 6, at_ 26 1, at_ 27 1, at_ 28 4, at_ 32 16, at_ 48 6, at_ 54 1, at_ 56 32,
    if t = 10 then [at_ 120 16, at_ 136 16, at_ 152 16, at_ 168 16, at_ 184 16, at_ 200 16] else []⟩

namespace Dev

def lane (d : Dev) (k : Nat) : Lane := d.link.lanes.getD k Lane.reset
def putLane (d : Dev) (k : Nat) (l : Lane) : Dev := { d with link := { d.link with lanes := setV d.link.lanes k l } }
def octet (d : Dev) (j : Nat) : Octet := d.link.octets.getD j Octet.reset
def putOctet (d : Dev) (j : Nat) (o : Octet) : Dev := { d with link := { d.link with octets := setV d.link.octets j o } }

/-- The chain of a lane: tile ids by position. -/
def chain (d : Dev) (k : Nat) : List Nat := d.link.chains.getD k []

/-- The lane and chain position of a tile (Table 20-3). -/
def tilePlace (d : Dev) (tile : Nat) : Option (Nat × Nat) :=
  (d.link.chains.zipIdx).findSome? fun c =>
    let p := c.1.idxOf tile
    if p < c.1.length then some (c.2, p) else none

/-- This device's end of the chains: 0 head, 1 tail (R268). -/
def myEnd (d : Dev) : Nat := b2n d.link.tail

/-- The mode in use of a lane's octet (Table 11-1): 0 idle, 1 reference, 2 forwarded. -/
def laneMode (d : Dev) (k : Nat) : Nat := d.rd (R.LNE_OCT_STATUS_MODE (k / 8))

/-- The octet of a lane is changing mode (R313). -/
def laneChanging (d : Dev) (k : Nat) : Bool := d.rdb (R.LNE_OCT_STATUS_CHANGING (k / 8))

def laneUp (d : Dev) (k : Nat) : Bool := d.rdb (R.MVL_LSTAT_UP k)

/-- The present veer epoch. -/
def epoch (d : Dev) : Nat := d.rd R.VEER_EPOCH

/-! Ownership in the tile contexts (R282, R304). -/

def setOwnBit (d : Dev) (tile i : Nat) (v : Bool) : Dev :=
  let t := d.tileLink tile
  d.putTile { t with own := setBit t.own i v }

/-- A tile is stale (R302). -/
def tileStale (d : Dev) (tile : Nat) : Bool := bit (d.tileLink tile).own 3

/-- A WARM device that has left mirror mode sends neither PX nor CT (R352); an outgoing device of a veer is none. -/
def silenced (d : Dev) : Bool := d.state = .warm && !d.rdb R.VEER_STATUS_MIRROR && d.link.until_.isNone

/-- The context shows that this end owns a display line, or is claiming the tile (R282). The tiles of a segment that is handed back
get no display lines from V + OFS on (R361, R365). -/
def maySend (d : Dev) (tile dline : Nat) : Bool :=
  let t := d.tileLink tile
  let before := match d.link.until_ with
    | some u => decide (diff32 dline u < 0)
    | none => true
  let kept := match d.pair.back with
    | some b => !(b.sent.contains tile && decide (0 ≤ diff32 dline (b.v + d.ofs)))
    | none => true
  !d.silenced && kept &&
    (bit t.own 2 || (before && (bit t.own 0 || (bit t.own 1 && decide (0 ≤ diff32 dline t.ownLine)))))

/-! The retransmit FIFO (R283, R284). -/

def pktWords (p : Pkt) : Nat := p.bytes.length / 16

/-- The words of a draft (Tables 10-1 to 10-3). -/
def draftWords (f : Draft) : Nat := if f.op = 0 then (24 + f.batts.flatten.length + 15) / 16 else 2

/-- Words in use: those of the packets, and those that a packet has taken of which more are held. -/
def fifoUsed (l : Lane) : Nat := (l.fifo.map pktWords).sum + l.within

/-- The FIFO's registers follow it (Table 10-13). -/
def showFifo (d : Dev) (k : Nat) : Dev :=
  let u := fifoUsed (d.lane k)
  let d := d.wr (R.MVL_FIFO_USED k) u
  let d := if d.rd (R.MVL_FIFO_PEAK k) < u then d.wr (R.MVL_FIFO_PEAK k) u else d
  d.wrb (R.MVL_LSTAT_BACKPRESSURE k) (decide (16384 ≤ u))

/-- The oldest unreleased sequence number of a tile, or its next one (Table 10-8). -/
def floorOf (d : Dev) (k tile : Nat) : Nat :=
  match (d.lane k).fifo.find? fun p => p.tile = tile && !p.released with
  | some p => p.seq
  | none => (d.tileLink tile).txSeq

/-- The length of the run of exhausted packets that ends with packets, after a run of n before them. -/
def lostRun (n : Nat) (l : List Pkt) : Nat := l.foldl (fun n p => if p.lost then n + 1 else 0) n

/-- Space becomes free from the oldest end, over released packets (R284); the pointers follow. -/
def trim (d : Dev) (k : Nat) : Dev :=
  let l := d.lane k
  let n := (l.fifo.takeWhile fun p => p.released).length
  (d.putLane k { l with fifo := l.fifo.drop n, tx := l.tx - n, upTo := l.upTo - n, exh := lostRun l.exh (l.fifo.take n) }).showFifo k

/-- The tile of a released packet shows its FLOOR. -/
def showFloor (d : Dev) (k tile : Nat) : Dev :=
  d.putTile { d.tileLink tile with floor := d.floorOf k tile }

/-- The CT in progress ends (R306): RDATA, ERROR, DONE and BUSY change together. -/
def ctEnd (d : Dev) (err : Nat) (rdata : Option Nat) : Dev :=
  let d := { d with link := { d.link with ct := none } }
  let d := match rdata with
    | some v => d.wr R.MVL_CT_RDATA v
    | none => d
  ((d.wr R.MVL_CT_STATUS_ERROR err).wr R.MVL_CT_STATUS_DONE 1).wr R.MVL_CT_STATUS_BUSY 0

/-- Why a packet is released: by an AK with a status, as exhausted, as cancelled, or once sent to a stale tile. It is no
part of the state. -/
inductive Release where
  | ack (status : Nat)
  | exhausted
  | cancelled
  | once

/-- The packets released as exhausted in a row, in FIFO order, about the one at an index. -/
def runAround (l : Lane) (i : Nat) : Nat :=
  lostRun l.exh (l.fifo.take i) + ((l.fifo.drop i).takeWhile fun p => p.lost).length

/-- The packet at an index has been released (R301, R314): the eighth consecutive exhausted one begins a segment-loss episode, and an AK
ends it; packets released before that end count for no later episode (log entry 124). -/
def segCount (d : Dev) (k i : Nat) (why : Release) : Dev :=
  let l := d.lane k
  match why with
  | .exhausted =>
    if d.laneChanging k then d else
    let l := { l with fifo := l.fifo.modify i fun p => { p with lost := true } }
    let d := d.putLane k l
    if 8 ≤ runAround l i && !d.rdb (R.MVL_LSTAT_SEG_LOSS k) then
      (d.flag k (R.MVL_LSTAT_SEG_LOSS k) 2 true true).cnt (R.MVL_SEG_EPISODES k)
    else d
  | .ack _ =>
    if !d.rdb (R.MVL_LSTAT_SEG_LOSS k) then d else
    (d.putLane k { l with exh := 0, fifo := l.fifo.map fun p => { p with lost := false } }).flag k (R.MVL_LSTAT_SEG_LOSS k) 2 true false
  | _ => d

/-- Release of the packet at an index (R284). -/
def releaseAt (d : Dev) (k i : Nat) (why : Release) : Dev :=
  let l := d.lane k
  match l.fifo[i]? with
  | none => d
  | some p =>
    if p.released then d else
    let d := d.putLane k { l with fifo := setAt l.fifo i { p with released := true } }
    let d := match why with
      | .exhausted => d.cnt (R.MVL_EXHAUSTED k)
      | .cancelled => d.cnt (R.MVL_CANCELLED k)
      | _ => d
    (d.segCount k i why).showFloor k p.tile

/-- Release of every packet that satisfies a test, oldest first, then the freeing of space. -/
def releaseAll (d : Dev) (k : Nat) (test : Pkt → Bool) (why : Release) : Dev :=
  ((List.range (d.lane k).fifo.length).foldl (fun d i =>
    match (d.lane k).fifo[i]? with
    | some p => if !p.released && test p then d.releaseAt k i why else d
    | none => d) d).trim k

/-- The wall line of the deadline of a display line (R281). -/
def deadOf (d : Dev) (dline : Nat) : Nat := (dline + 2 ^ 32 - d.margin) % 2 ^ 32

/-- A packet's deadline has passed (R281). -/
def pastDeadline (d : Dev) (dead : Nat) : Bool := decide (0 ≤ diff32 d.wtm.wln dead)

/-- A packet goes out on a lane (R270, R271), after whatever idle blocks have gone before it. -/
def sendBlocks (d : Dev) (k : Nat) (bytes : List Byte) : Dev :=
  let q := linkBlocks (Config.idleScr k (d.lane k).scr d.now % 2 ^ 58) (padBlocks bytes)
  (d.putLane k { d.lane k with scr := q.2 }).emit (.forward k q.1)

/-! Building and sending packets (R280, R285, Tables 10-2 and 10-3). -/

/-- A draft's stored bytes, RTX, FLOOR and check 0. -/
def draftBytes (d : Dev) (f : Draft) (seq : Nat) : List Byte :=
  let pos := match d.tilePlace f.tile with
    | some (_, p) => p
    | none => 0
  if f.op = 0 then
    padBlocks (packFields [(1, 4), (1, 4), (f.tile, 12), (pos, 6), (d.myEnd, 1), (0, 1), (f.fmt, 3), (0, 1), (seq, 16), (0, 16),
      (f.dline, 32), (f.row, 12), (f.col, 10), (f.batts.length, 3), (0, 23), (0, 16)] ++ f.batts.flatten
      ++ beBytes 4 (crc32c f.recon))
  else
    packFields [(2, 4), (1, 4), (f.tile, 12), (pos, 6), (d.myEnd, 1), (0, 1), (f.op, 4), (seq, 16), (0, 16), (f.dline, 32),
      (f.addr, 16), (0, 16), (f.data, 32), (0, 80), (0, 16)]

/-- A packet as it goes out: RTX, FLOOR and the check rewritten in its first block (R285). -/
def wireBytes (d : Dev) (k : Nat) (p : Pkt) : List Byte :=
  let b3 := beAt p.bytes 3 1
  let bs := patch p.bytes 3 [BitVec.ofNat 8 (setBit b3 4 (decide (0 < p.sends)))]
  let bs := patch bs 6 (beBytes 2 (d.floorOf k p.tile))
  let n := if p.op = 0 then 18 else 30
  patch bs n (beBytes 2 (linkCrc (bs.take n)))

/-- A draft is written to the FIFO (R284): it takes the tile's next sequence number. -/
def fifoPut (d : Dev) (k : Nat) (f : Draft) : Dev :=
  let t := d.tileLink f.tile
  let p : Pkt := ⟨f.tile, t.txSeq, f.op, f.dline, f.dead, d.draftBytes f t.txSeq, 0, 0, false, false⟩
  let l := d.lane k
  let d := (d.putLane k { l with fifo := l.fifo ++ [p] }).putTile { t with txSeq := (t.txSeq + 1) % 65536 }
  let ct := d.link.ct.map fun j =>
    if f.op = j.op && j.tile = f.tile && f.dead = j.dead && j.seq.isNone then { j with seq := some t.txSeq } else j
  (({ d with link := { d.link with ct := ct } }).showFloor k f.tile).showFifo k

/-- Held drafts enter the FIFO, in order, word by word until it is full (R242, R284). -/
def fifoFill (d : Dev) (k : Nat) : Dev :=
  ((List.range (d.lane k).wait.length).foldl (fun d _ =>
    let l := d.lane k
    match l.wait with
    | [] => d
    | f :: r =>
      let free := 16384 - fifoUsed l
      if draftWords f - l.within ≤ free then (d.putLane k { l with wait := r, within := 0 }).fifoPut k f
      else d.putLane k { l with within := l.within + free }) d).showFifo k

/-- A draft is handed to the FIFO, and held while it is full. -/
def queueDraft (d : Dev) (k : Nat) (f : Draft) : Dev :=
  let l := d.lane k
  (d.putLane k { l with wait := l.wait ++ [f] }).showFifo k

/-- A lane is in test (R324). -/
def laneTested (d : Dev) (k : Nat) : Bool :=
  decide (1 ≤ d.rd (R.LNE_LCTRL_TEST (k / 8) (k % 8))) && decide (d.rd (R.LNE_LCTRL_TEST (k / 8) (k % 8)) ≤ 4)

/-- A lane may send: its octet has a mode in use and is not changing (R313), and it is not in test (R324). -/
def laneSends (d : Dev) (k : Nat) : Bool := decide (d.laneMode k ≠ 0) && !d.laneChanging k && !d.laneTested k

/-- The transmit pointer moves over what is not sent: released packets; a packet past its deadline or sent three times, which is
released as exhausted (R286); and a PX or a CT write whose tile's context shows neither ownership of its display line nor a claim
(R282), which stays as it is (log entry 124). -/
def skipUnsent (d : Dev) (k : Nat) : Nat → Dev
  | 0 => d
  | n + 1 =>
    let l := d.lane k
    match l.fifo[l.tx]? with
    | none => d
    | some p =>
      let d1 := d.putLane k { l with tx := l.tx + 1 }
      if p.released then skipUnsent d1 k n
      else if d.pastDeadline p.dead || decide (3 ≤ p.sends) then skipUnsent (d1.releaseAt k l.tx .exhausted) k n
      else if decide (p.op ≤ 1) && !d.maySend p.tile p.dline then skipUnsent d1 k n
      else d

/-- The words of the packet at an index are read or written with these errors (R39, R283): a corrected one is counted, and an
uncorrectable one releases the packet as exhausted, with an entry that names the word. -/
def fifoEcc (d : Dev) (k i : Nat) (ecc : List Ecc) : Dev :=
  let l := d.lane k
  match l.fifo[i]? with
  | none => d
  | some p =>
    if p.released then d else
    let words := ecc.take (pktWords p)
    let n := (words.filter (· = .single)).length
    let d := if n = 0 then d else
      { d.addCnt (R.MVL_ECC_CORR k) n with sram := d.sram.set 2 (Nat.min (2 ^ 32 - 1) (d.sram.getD 2 0 + n)) }
    let w := words.idxOf .double
    if w < words.length then
      ((d.releaseAt k i .exhausted).log 0xF2 2 3 0x00A (2 ^ 14 * k + ((l.fifo.take i).map pktWords).sum + w)).trim k
    else d

/-- The lane sends the packet at its transmit pointer (R285, R302). PX goes in forwarded mode only (Table 11-1), and on no lane marked
miswired (R19). -/
def transmit (d : Dev) (k : Nat) : Dev :=
  if !d.laneSends k || d.silenced then d else
  let d := d.skipUnsent k (d.lane k).fifo.length
  let l := d.lane k
  match l.fifo[l.tx]? with
  | none => d.trim k
  | some p =>
    if p.op = 0 && (decide (d.laneMode k ≠ 2) || d.rdb (R.MVL_LSTAT_MISWIRED k)) then d.trim k else
    let d := d.sendBlocks k (d.wireBytes k p)
    let d := d.cnt (if p.sends = 0 then R.MVL_TX_PKT k else R.MVL_RESENT k)
    let d := d.putLane k { d.lane k with
      fifo := setAt l.fifo l.tx { p with sends := p.sends + 1, lastSent := d.now }, tx := l.tx + 1 }
    let d := if d.tileStale p.tile then d.releaseAt k l.tx .once else d
    d.trim k

/-- A rewind to the packet at an index (R286); packets that it would send a fourth time are released as exhausted
(R284). -/
def rewind (d : Dev) (k i : Nat) : Dev :=
  let l := d.lane k
  let d := d.putLane k { l with tx := i, upTo := Nat.max l.upTo l.tx }
  ((List.range l.fifo.length).foldl (fun d j =>
    match (d.lane k).fifo[j]? with
    | some p => if decide (i ≤ j) && decide (3 ≤ p.sends) then d.releaseAt k j .exhausted else d
    | none => d) d).trim k

/-- A packet of a tile with a sequence number, unreleased. -/
def findPkt (d : Dev) (k tile seq : Nat) : Option (Nat × Pkt) :=
  (((d.lane k).fifo.zipIdx).find? fun q => q.1.tile = tile && q.1.seq = seq && !q.1.released).map fun q => (q.2, q.1)

/-! VR packets (R296, R297). -/

/-- A VR's bytes (Table 10-3). -/
def vrBytes (d : Dev) (v : Vr) : List Byte :=
  let pos := match d.tilePlace v.tile with
    | some (_, p) => p
    | none => 0
  withCheck (packFields [(3, 4), (1, 4), (v.tile, 12), (pos, 6), (d.myEnd, 1), (v.kind, 1), (v.newEnd, 1), (0, 3),
    ((d.tileLink v.tile).txSeq, 16), (0, 16), (v.epoch, 32), (v.atLine, 32), (0, 32), (0, 80)])

/-- A lane sends the VRs that fall due (R297): none yet sent, or four lines after the last; a CLAIM waits for the tile's
unreleased packets. -/
def sendVrs (d : Dev) (k : Nat) : Dev :=
  if !d.laneSends k then d else
  (List.range (d.lane k).vrs.length).foldl (fun d i =>
    match (d.lane k).vrs[i]? with
    | none => d
    | some v =>
      let dueNow := match v.sent with
        | none => true
        | some w => decide (4 ≤ diff32 d.wtm.wln w)
      let free := v.kind = 1 || !((d.lane k).fifo.any fun p => p.tile = v.tile && !p.released)
      if dueNow && free then
        let d := d.sendBlocks k (d.vrBytes v)
        let d := d.putLane k { d.lane k with vrs := setAt (d.lane k).vrs i { v with sent := some d.wtm.wln } }
        if v.kind = 0 && !v.probe && decide ((d.tileLink v.tile).tileEpoch < v.epoch) then d.setOwnBit v.tile 2 true else d
      else d) d

/-- The redundancy control asks for a VR to a tile; it replaces one that is out. -/
def askVr (d : Dev) (tile kind newEnd epoch atLine : Nat) (probe : Bool) : Dev :=
  match d.tilePlace tile with
  | none => d
  | some (k, _) =>
    let l := d.lane k
    let v : Vr := ⟨tile, kind, newEnd, epoch, atLine, probe, none, d.now⟩
    (d.putLane k { l with vrs := (l.vrs.filter fun x => x.tile != tile) ++ [v] }).sendVrs k

/-- The redundancy control withdraws the VRs of a tile. -/
def dropVr (d : Dev) (tile : Nat) : Dev :=
  match d.tilePlace tile with
  | none => d
  | some (k, _) =>
    let l := d.lane k
    let d := d.putLane k { l with vrs := l.vrs.filter fun x => x.tile != tile }
    d.setOwnBit tile 2 false

/-! Telemetry and stale tiles (R299, R302). -/

/-- What a return packet reports of its tile (Table 10-8). -/
def noteTile (d : Dev) (r : Ret) : Dev :=
  d.putTile { d.tileLink r.tile with tileOwn := r.owned + 2 * r.ownEnd, tileEpoch := r.epoch }

/-- Stale tiles of a lane (Table 10-13). -/
def showStale (d : Dev) (k : Nat) : Dev :=
  d.wr (R.MVL_STALE_TILES k) ((d.chain k).filter d.tileStale).length

/-- A return packet restarts its tile's stale timer and ends its staleness (R302). -/
def heardTile (d : Dev) (k tile : Nat) : Dev :=
  let d := if d.laneUp k then
      { d with link := { d.link with heard := (tile, d.now) :: d.link.heard.filter fun h => h.1 != tile } } else d
  if d.tileStale tile then
    let d := d.setOwnBit tile 3 false
    let d := d.putTile { d.tileLink tile with staleWln := d.wtm.wln % 2 ^ 32 }
    (d.log 0x24 k 2 0x00F tile 2).showStale k
  else d

/-- The stale timer of a tile expires (R302). -/
def tileGoesStale (d : Dev) (tile : Nat) : Dev :=
  match d.tilePlace tile, d.link.heard.find? fun h => h.1 = tile with
  | some (k, _), some h =>
    if d.tileStale tile || !d.laneUp k then d else
    let d := d.upTo (h.2 + Nat.max 1 (d.lv R.MVL_STALE_WF) * d.framePeriod)
    let d := d.setOwnBit tile 3 true
    let d := d.putTile { d.tileLink tile with staleWln := d.wtm.wln % 2 ^ 32 }
    let d := d.log 0x24 k 2 0x00F (tile + 2 ^ 31) 1
    (d.releaseAll k (fun p => p.tile = tile) .cancelled).showStale k
  | _, _ => d

/-- The tiles of a lane to which this device sends PX (R282), those it is claiming among them, with their positions. -/
def fedTiles (d : Dev) (k : Nat) : List (Nat × Nat) :=
  ((d.chain k).zipIdx).filter fun q => (d.tileLink q.1).own % 8 != 0

/-- The chain-break detector of a lane at a frame boundary (R303). -/
def breakDetect (d : Dev) (k : Nat) : Dev :=
  let fed := d.fedTiles k
  let stale := fed.filter fun q => d.tileStale q.1
  let pos := if d.link.tail then (stale.map Prod.snd).foldl Nat.max 0 else (stale.map Prod.snd).foldl Nat.min 63
  let beyond := fed.filter fun q => if d.link.tail then decide (q.2 ≤ pos) else decide (pos ≤ q.2)
  let valid := !stale.isEmpty && decide (stale.length = beyond.length)
  let scatter := !stale.isEmpty && !valid
  let p := if valid then pos else 0
  let same := d.rdb (R.MVL_LSTAT_BREAK_VALID k) = valid && d.rdb (R.MVL_LSTAT_SCATTER k) = scatter
    && decide (d.rd (R.MVL_LSTAT_BREAK_POS k) = p)
  if same then d else
  (((d.wr (R.MVL_LSTAT_BREAK_POS k) p).wrb (R.MVL_LSTAT_BREAK_VALID k) valid).wrb (R.MVL_LSTAT_SCATTER k) scatter).log
    0x24 k 2 0x010 (p + 256 * b2n valid + 512 * b2n scatter)

/-! KP and markers (R275, R278). -/

/-- A KP's bytes. -/
def kpBytes (d : Dev) (enum : Bool) : List Byte :=
  withCheck (packFields [(4, 4), (1, 4), (d.myEnd, 1), (b2n (d.line = 0), 1), (b2n enum, 1), (0, 5), (d.wtm.wln, 48),
    (d.epoch, 32), (0, 16)])

/-- A marker's bytes. -/
def markerBytes (k mcount : Nat) : List Byte :=
  withCheck (packFields [(15, 4), (1, 4), (k, 6), (0, 2), (mcount, 32), (0, 64)])

/-- A KP goes out on every lane that sends, at a line whose WLN is a multiple of 4; it starts an enumeration that waits
(R278, R300). -/
def sendKps (d : Dev) : Dev :=
  if d.wtm.wln % 4 ≠ 0 then d else
  (List.range 64).foldl (fun d k =>
    if !d.laneSends k then d else
    match (d.lane k).enum with
    | some ⟨none, _, _⟩ =>
      let d := d.sendBlocks k (d.kpBytes true)
      d.putLane k { d.lane k with enum := some ⟨some d.now, [], false⟩ }
    | _ => d.sendBlocks k (d.kpBytes false)) d

/-- A marker goes out on the eight lanes of an octet (R275), but for one in test, which MVL does not use (R324). -/
def sendMarkers (d : Dev) (j : Nat) : Dev :=
  let o := d.octet j
  let d := (List.range 8).foldl (fun d i =>
    if d.laneTested (8 * j + i) then d else d.sendBlocks (8 * j + i) (markerBytes (8 * j + i) o.mcount)) d
  d.putOctet j { o with mcount := (o.mcount + 1) % 2 ^ 32 }

/-! Control transfers (R306). -/

/-- The display line of a CT queued now (R281). -/
def ctDline (d : Dev) : Nat := (d.wtm.wln + d.ofs) % 2 ^ 32

/-- A CT completes at once with an error: DONE is set and BUSY left at 0. -/
def ctRefuse (d : Dev) (err : Nat) : Dev :=
  ((d.wr R.MVL_CT_STATUS_ERROR err).wr R.MVL_CT_STATUS_DONE 1).wr R.MVL_CT_STATUS_BUSY 0

/-- CT_CMD.GO (R306). A CT is in progress until it has ended, also where BUSY has been left at 0 by one refused meanwhile (log entry
58). -/
def ctStart (d : Dev) (tile op : Nat) : Dev :=
  let d := (d.wr R.MVL_CT_CMD_TILE tile).wr R.MVL_CT_CMD_OP op
  if d.link.ct.isSome then d.ctRefuse 1
  else if op % 4 = 0 then d.ctRefuse 5
  else match d.tilePlace (tile % 4096) with
    | none => d.ctRefuse 2
    | some (k, p) =>
      if !d.laneUp k || d.rdb (R.MVL_LSTAT_MISWIRED k) then d.ctRefuse 2 else
      let dl := d.ctDline
      let d := { d with link := { d.link with ct := some ⟨tile % 4096, op % 4, d.rd R.MVL_CT_ADDR_ADDR, d.deadOf dl, none⟩ } }
      let d := ((d.wr R.MVL_CT_STATUS_BUSY 1).wr R.MVL_CT_STATUS_DONE 0).wr R.MVL_CT_STATUS_ERROR 0
      if op % 4 = 1 && !d.maySend (tile % 4096) dl then d
      else d.queueDraft k ⟨tile % 4096, op % 4, dl, d.deadOf dl, 0, 0, 0, [], [], d.rd R.MVL_CT_ADDR_ADDR,
        if op % 4 = 3 then p else d.rd R.MVL_CT_DATA_DATA⟩

/-! Batts (R280, R314). -/

/-- The packet in hand goes to the FIFO. -/
def closeFill (d : Dev) (k : Nat) : Dev :=
  match (d.lane k).fill with
  | some f => (d.putLane k { d.lane k with fill := none }).queueDraft k f
  | none => d

/-- A tile gets nothing of the frame that a band belongs to (R355). -/
def heldBack (d : Dev) (tile band : Nat) : Bool :=
  d.pair.held.2.contains tile && decide ((band + 2 ^ 48 - d.pair.held.1) % 2 ^ 48 < d.lt)

/-- The link layer takes a coded batt (R280, R281, R282, R314, R355). -/
def takeBatt (d : Dev) (k : Nat) (b : Batt) (bytes recon : List Byte) : Dev :=
  let dl := b.dline
  if d.laneChanging k then d.cnt (R.LNE_MODE_DROP (k / 8) (k % 8))
  else if !d.laneUp k || d.laneMode k ≠ 2 || d.rdb (R.MVL_LSTAT_MISWIRED k) || !d.maySend b.tile dl || d.heldBack b.tile b.band then d
  else
    let d := match (d.lane k).fill with
      | some f => if f.tile = b.tile && f.row = b.row && f.dline = dl && f.fmt = b.fmt then d else d.closeFill k
      | none => d
    let f := match (d.lane k).fill with
      | some f => { f with batts := f.batts ++ [bytes], recon := f.recon ++ recon }
      | none => ⟨b.tile, 0, dl, b.dead, b.row, b.col, b.fmt, [bytes], recon, 0, 0⟩
    let d := d.putLane k { d.lane k with fill := some f }
    if f.batts.length = 4 || b.rowEnd then d.closeFill k else d

end Dev

/-! Events of a lane. -/

/-- Held drafts enter the FIFO; `ecc` are the errors of the words of the packet that went in last. -/
def actFifoWrite (k : Nat) (ecc : List Ecc) (d : Dev) : Dev :=
  let d := d.fifoFill k
  (d.fifoEcc k ((d.lane k).fifo.length - 1) ecc).showFifo k

/-- A packet is read and sent; `ecc` are the errors of the words of the packet that the transmit pointer comes to. -/
def actTransmit (k : Nat) (ecc : List Ecc) (d : Dev) : Dev :=
  if !d.laneSends k || d.silenced then d else
  let d := d.skipUnsent k (d.lane k).fifo.length
  (d.fifoEcc k (d.lane k).tx ecc).transmit k

/-- A return packet fails its check, or is of no known type (R273, R294). -/
def actRetBad (k : Nat) (d : Dev) : Dev := d.cnt (R.MVL_RX_BAD k)

/-- An NK (R286, R287). -/
def actNk (k : Nat) (r : Ret) (d : Dev) : Dev :=
  let d := (d.heardTile k r.tile).noteTile r
  let d := d.cnt (R.MVL_NK_RX k)
  match d.findPkt k r.tile r.seq with
  | none => d.cnt (R.MVL_NK_IGNORED k)
  | some (i, p) =>
    let l := d.lane k
    if p.sends = 0 || (decide (l.tx ≤ i) && decide (i < l.upTo)) then d.cnt (R.MVL_NK_IGNORED k) else d.rewind k i

/-- The oldest unreleased packet sent is not acknowledged within ACK_TO of its latest transmission (R286). -/
def actAckTimeout (k : Nat) (d : Dev) : Dev :=
  let l := d.lane k
  match (l.fifo.zipIdx).find? fun q => !q.1.released && decide (0 < q.1.sends) with
  | some (p, i) =>
    if l.pause.isSome || (decide (l.tx ≤ i) && decide (i < l.upTo)) then d else
    let d := d.upTo (p.lastSent + nanos (100 * Nat.max 10 (d.lv R.MVL_ACK_TO)))
    (d.cnt (R.MVL_ACK_TIMEOUT k)).rewind k i
  | none => d

/-- Packets of a lane whose deadlines have passed are released as exhausted (R284); a CT that has not been acknowledged by its deadline
ends there (R306). -/
def actDeadline (k : Nat) (d : Dev) : Dev :=
  let d := d.releaseAll k (fun p => d.pastDeadline p.dead) .exhausted
  match d.link.ct with
  | some j =>
    if d.pastDeadline j.dead && decide ((d.tilePlace j.tile).map Prod.fst = some k) then d.ctEnd 3 none else d
  | none => d

/-- A marker falls due after 4,096 other blocks (R275). -/
def actMarker (j : Nat) (d : Dev) : Dev :=
  if d.rd (R.LNE_OCT_STATUS_MODE j) ≠ 0 && !d.rdb (R.LNE_OCT_STATUS_CHANGING j) then d.sendMarkers j else d

def execFifoWrite (use : FifoUse) (s : State) : Host.Outcome State Fault Refusal :=
  run s fun _ d => actFifoWrite use.lane use.ecc d
def execAlignmentMarker (octet : Fin 8) (s : State) : Host.Outcome State Fault Refusal := run s fun _ d => actMarker octet d
def execTileStale (tile : BitVec 12) (s : State) : Host.Outcome State Fault Refusal := run s fun _ d => d.tileGoesStale tile.toNat
def execVrRepeat (lane : Fin 64) (s : State) : Host.Outcome State Fault Refusal := run s fun _ d => d.sendVrs lane

end Sys2Proof.Machine
end

