-- ==== Sys2Proof/Machine/Lanes.lean ====
section
/-!
DEFINITION. The serial lanes (chapter 11): octet modes and their changes, enumeration (R300), presets, the pairing lanes,
loopback tests.
-/

namespace Sys2Proof.Machine
namespace Dev

/-- The line generator counts (R230, R318). -/
def lineCounts (d : Dev) : Bool := d.wtm.running && d.state ≠ .off && d.state ≠ .boot && d.state ≠ .safe

/-! Test patterns of the tile lanes (R323). -/

/-- A checker has been fed bits: PAT_ERR and PAT_MBITS count. -/
def patPut (d : Dev) (k : Nat) (p : Pat) (errs : Nat) : Dev :=
  let j := k / 8
  let i := k % 8
  ((d.putLane k { d.lane k with pat := { p with bits := p.bits % 2 ^ 20 } }).addCnt (R.LNE_PAT_ERR j i) errs).addCnt
    (R.LNE_PAT_MBITS j i) (p.bits / 2 ^ 20)

/-- A tile lane in near-end loopback has checked its own pattern since the last flush, 24 bits a ns in forwarded mode and 6 in
reference mode, without error. -/
def patFlush (d : Dev) (k : Nat) : Dev :=
  let t := d.rd (R.LNE_LCTRL_TEST (k / 8) (k % 8))
  let p := (d.lane k).pat
  if t = 1 ∨ t = 2 then
    let rate := match d.laneMode k with
      | 0 => 0
      | 2 => 24
      | _ => 6
    d.patPut k { p with bits := p.bits + (d.now - p.since) * rate / 65536, since := d.now } 0
  else d

/-- What the return lane brings to a lane in test: its checker takes it, or far-end loopback sends it back, each bit 8 times in
forwarded mode and twice in reference mode. -/
def patTakeBits (d : Dev) (k : Nat) (l : List Bool) : Dev :=
  match d.rd (R.LNE_LCTRL_TEST (k / 8) (k % 8)) with
  | 3 =>
    if d.laneMode k = 0 then d else
    d.emit (.forwardBits k (l.flatMap fun b => List.replicate (if d.laneMode k = 2 then 8 else 2) b))
  | 4 =>
    let q := patRun (d.rd (R.LNE_LCTRL_PRBS (k / 8) (k % 8))) (d.lane k).pat l
    d.patPut k q.1 q.2
  | _ => d

/-- A lane's forward output carries a generator's pattern, while its octet has a rate. -/
def patSend (d : Dev) (k : Nat) : Dev :=
  let t := d.rd (R.LNE_LCTRL_TEST (k / 8) (k % 8))
  if d.laneMode k ≠ 0 ∧ (t = 1 ∨ t = 2 ∨ t = 4) then d.emit (.pattern false k (d.rd (R.LNE_LCTRL_PRBS (k / 8) (k % 8)))) else d

/-! Octet modes (R313 to R316). -/

/-- The lanes of an octet. -/
def octetLanes (j : Nat) : List Nat := (List.range 8).map (8 * j + ·)

/-- A lane has a chain in the image. -/
def laneUsed (d : Dev) (k : Nat) : Bool := !(d.chain k).isEmpty

/-- The time of a block at the octet's rate (R270, Table 11-1). -/
def blockTime (mode : Nat) : Span := if mode = 2 then 130 * 65536 / 24 else 130 * 65536 / 6

/-- A lane leaves idle no more: it is not up, and its enumeration is void. -/
def laneDown (d : Dev) (k : Nat) : Dev :=
  let d := (d.wr (R.MVL_LSTAT_UP k) 0).putLane k { d.lane k with enum := none }
  { d with link := { d.link with heard := d.link.heard.filter fun h => !(d.chain k).contains h.1 } }

/-- A change of an octet to a mode begins (R313): from idle at step 3, else at step 1. -/
def startChange (d : Dev) (j dest : Nat) : Dev :=
  let o := d.octet j
  if d.rd (R.LNE_OCT_STATUS_MODE j) = 0 then
    (d.putOctet j { o with step := 3, dest := 1, since := d.now }).wr (R.LNE_OCT_STATUS_CHANGING j) 1
  else (d.putOctet j { o with step := 1, dest := dest, since := d.now }).wr (R.LNE_OCT_STATUS_CHANGING j) 1

/-- An octet whose mode is not the one wanted begins to change, unless a change or an enumeration is in progress that leads
there (R315, R316). -/
def seekMode (d : Dev) (j : Nat) : Dev :=
  let o := d.octet j
  let mode := d.rd (R.LNE_OCT_STATUS_MODE j)
  if o.step ≠ 0 ∨ o.goal = mode then d
  else if o.enum ∧ o.goal = 2 then d
  else d.startChange j o.goal

/-- MODE_REQ takes a value (R316): 3 acts as 0. -/
def requestMode (d : Dev) (j v : Nat) : Dev :=
  if d.rd (R.LNE_OCT_CTRL_MODE_REQ j) = v % 4 then d else
  let d := d.wr (R.LNE_OCT_CTRL_MODE_REQ j) v
  let goal := if v % 4 = 3 then 0 else v % 4
  (d.putOctet j { d.octet j with goal := goal }).seekMode j

/-- The octets that carry chains of the image. -/
def usedOctets (d : Dev) : List Nat := (List.range 8).filter fun j => (octetLanes j).any d.laneUsed

/-- The device asks a mode of every octet of its image. -/
def requestAll (d : Dev) (v : Nat) : Dev := d.usedOctets.foldl (fun d j => d.requestMode j v) d

/-- Every octet goes to idle (R316, R342, R504). -/
def idleAll (d : Dev) : Dev := (List.range 8).foldl (fun d j => d.requestMode j 0) d

/-- A change of mode is complete: a lane in near-end loopback has counted at the old rate; MODE, CHANGING, the count and the entry (R313, Table 21-3). -/
def endChange (d : Dev) (j : Nat) : Dev :=
  let o := d.octet j
  let old := d.rd (R.LNE_OCT_STATUS_MODE j)
  let d := ((octetLanes j).foldl patFlush d).putOctet j { o with step := 0 }
  let d := (d.wr (R.LNE_OCT_STATUS_MODE j) o.dest).wr (R.LNE_OCT_STATUS_CHANGING j) 0
  (d.cnt (R.LNE_MODE_CHANGES j)).log (0x30 + j) j 0 0x021 (o.dest + 16 * old + 256 * b2n o.auto_)

/-! Enumeration (R300, R315). -/

/-- A lane's chain is to be enumerated. -/
def enumLane (d : Dev) (k : Nat) : Dev := d.putLane k { d.lane k with enum := some ⟨none, [], false⟩ }

/-- A lane of the image has been enumerated, or marked miswired. -/
def laneDone (d : Dev) (k : Nat) : Bool :=
  !d.laneUsed k || ((d.lane k).enum.isNone && (d.laneUp k || d.rdb (R.MVL_LSTAT_MISWIRED k)))

/-- With every lane of the image done, the octet goes on to forwarded mode if that is wanted (R315). -/
def enumCheck (d : Dev) (j : Nat) : Dev :=
  if (d.octet j).enum && (octetLanes j).all d.laneDone then
    (d.putOctet j { d.octet j with enum := false }).seekMode j
  else d

/-- The positions of a lane that this device enumerates (R19, R363). -/
def enumPart (d : Dev) (k : Nat) : Nat × Nat := ((d.lane k).part).getD (0, (d.chain k).length - 1)

/-- The tiles that enumeration must find, with their positions. -/
def enumTiles (d : Dev) (k : Nat) : List (Nat × Nat) :=
  ((d.chain k).zipIdx).filter fun q => decide ((d.enumPart k).1 ≤ q.2) && decide (q.2 ≤ (d.enumPart k).2)

/-- The position that HOPS gives a tile (R300): from the tail end of a chain it is below 0 where the chain has more tiles than the image
says. -/
def hopsPos (d : Dev) (k hops : Nat) : Int := if d.link.tail then ((d.chain k).length : Int) - 1 - hops else hops

/-- The return time of a lane's chain (R300): at most two return blocks of 130 / 3.000 Gb/s a tile (Table 10-5; log entry 62). -/
def returnTime (d : Dev) (k : Nat) : Span := (d.chain k).length * (2 * 130 * 65536 / 3)

/-- The window for enumeration replies closes (R300, R19). A tile too many shows as a second reply of an id, too. -/
def enumEnd (d : Dev) (k : Nat) : Dev :=
  match (d.lane k).enum with
  | some ⟨some t, replies, false⟩ =>
    let d := d.upTo (t + millis 1 + d.returnTime k)
    let d := d.wr (R.MVL_LSTAT_FOUND k) replies.length
    let found := replies.map fun r => (r.1, d.hopsPos k r.2)
    let want := d.enumTiles k
    if found.length = want.length && found.all (fun f => want.any fun w => f = (w.1, (w.2 : Int))) &&
        want.all (fun w => found.contains (w.1, (w.2 : Int))) then
      let d := (d.wr (R.MVL_LSTAT_MISWIRED k) 0).putLane k { d.lane k with enum := some ⟨some t, replies, true⟩ }
      want.foldl (fun d w => d.queueDraft k ⟨w.1, 3, d.ctDline, d.deadOf d.ctDline, 0, 0, 0, [], [], 0, w.2⟩) d
    else
      let d := ((d.wr (R.MVL_LSTAT_MISWIRED k) 1).wr (R.MVL_LSTAT_UP k) 0).putLane k { d.lane k with enum := none }
      (d.log 0x24 k 2 0x011 k).enumCheck (k / 8)
  | _ => d

/-- A unit joins the queue of calibration, unless it is queued or running (R327). -/
def queueCal (d : Dev) (u : CalUnit) : Dev :=
  if d.calib.queue.contains u || d.calib.runs.any (fun r => r.unit = u) then d else
  let d := { d with calib := { d.calib with queue := d.calib.queue ++ [u] } }
  match u.kind with
  | 0 => d.wr (R.LNE_CAL_STATUS_RESULT (u.n / 8) (u.n % 8)) 5
  | 2 => d.wr (R.DRM_CALR_RESULT (u.n / 8) (u.n % 8)) 5
  | _ => d

/-- A lane comes up: every set position sent on it has been released (R302, R315, R326). Answers also whether it did. -/
def laneUpCheck (d : Dev) (k : Nat) : Dev × Bool :=
  match (d.lane k).enum with
  | some ⟨some _, _, true⟩ =>
    let l := d.lane k
    if (l.fifo.any fun p => p.op = 3 && !p.released) || (l.wait.any fun f => f.op = 3) then (d, false) else
    let d := (d.wr (R.MVL_LSTAT_UP k) 1).putLane k { l with enum := none }
    let mine := (d.enumTiles k).map Prod.fst
    let heard : List (Nat × Time) := mine.map (fun t => (t, d.now)) ++ d.link.heard.filter fun h => !mine.contains h.1
    let d := { d with link := { d.link with heard := heard } }
    ((d.queueCal ⟨0, k⟩).enumCheck (k / 8), true)
  | _ => (d, false)

/-! Automatic recovery (R317). -/

/-- A lane shows a break at the tile nearest this device. -/
def nearBreak (d : Dev) (k : Nat) : Bool :=
  d.rdb (R.MVL_LSTAT_BREAK_VALID k) &&
    decide (d.rd (R.MVL_LSTAT_BREAK_POS k) = if d.link.tail then (d.chain k).length - 1 else 0)

/-- The recovery of an octet at a wall-frame boundary. -/
def autoRecover (d : Dev) (j : Nat) : Dev :=
  let o := d.octet j
  let carry := (List.range 8).filter fun i => d.laneUp (8 * j + i) && !(d.fedTiles (8 * j + i)).isEmpty
  let shows := carry.filter fun i => d.nearBreak (8 * j + i)
  let now := d.rdb (R.LNE_OCT_CTRL_AUTO_REC j) && decide (d.rd (R.LNE_OCT_STATUS_MODE j) = 2) && decide (o.step = 0)
    && decide (2 ≤ shows.length) && decide (carry.length ≤ 2 * shows.length)
  let mask := (shows.map (2 ^ ·)).sum
  if !now then d.putOctet j { o with brk := 0 }
  else if o.brk = 0 then d.putOctet j { o with brk := mask }
  else
    let d := (d.putOctet j { o with brk := 0, auto_ := true }).startChange j 1
    (d.cnt (R.LNE_AUTO_RECOVERIES j)).log (0x30 + j) j 2 0x022 mask

/-! Presets (R318). -/

/-- The preset of the band in use: TX_SWING, TX_PRE, TX_POST, RX_CTLE. -/
def presetWant (d : Dev) (j : Nat) : List Nat :=
  let b := d.rd (R.LNE_OCT_STATUS_BAND j)
  [d.rd (R.LNE_PRESET_TX_SWING j b), d.rd (R.LNE_PRESET_TX_PRE j b), d.rd (R.LNE_PRESET_TX_POST j b),
    d.rd (R.LNE_PRESET_RX_CTLE j b)]

/-- One step from x toward y. -/
def stepTo (x y : Nat) : Nat := if x < y then x + 1 else if y < x then x - 1 else x

/-- Every field of an octet's preset moves by one step, or at once while the line generator does not count. -/
def easePreset (d : Dev) (j : Nat) : Dev :=
  let o := d.octet j
  let want := d.presetWant j
  let now := if d.lineCounts then (o.preset.zip want).map fun q => stepTo q.1 q.2 else want
  (d.putOctet j { o with preset := now }).wrb (R.LNE_OCT_STATUS_EASING j) (now != want)

/-- The preset in use of an octet has a new target: a write or a change of band. -/
def presetChanged (d : Dev) (j : Nat) : Dev :=
  if d.lineCounts then d.wrb (R.LNE_OCT_STATUS_EASING j) ((d.octet j).preset != d.presetWant j) else d.easePreset j

/-! Pairing lanes (R322). -/

/-- The logical number that a physical lane carries. -/
def pairMap (d : Dev) (p : Nat) : Nat := bits (d.rd R.PAIR_STATUS_MAP) (2 * p + 1) (2 * p)

/-- A pairing lane's receiver. -/
def plane1 (d : Dev) (p : Nat) : PairLane := d.plane.lanes.getD p PairLane.reset
def putPlane (d : Dev) (p : Nat) (l : PairLane) : Dev := { d with plane := { d.plane with lanes := setV d.plane.lanes p l } }

/-- The skew of every lane lies within the 16 symbols that the receiver tolerates. -/
def deskewed (d : Dev) : Bool := (List.range 4).all fun p => decide ((d.plane1 p).late ≤ 16)

/-- All lanes are aligned, with distinct numbers and deskewed. -/
def pairReady (d : Dev) : Bool :=
  decide (d.rd R.PAIR_STATUS_ALIGNED = 15) && d.deskewed && decide (((List.range 4).map d.pairMap).dedup.length = 4)

/-- The link is up: its lanes are ready, and in no test (R324). -/
def pairWant (d : Dev) : Bool :=
  d.pairReady && decide (d.rd R.PAIR_CTRL_TEST = 0 ∨ 5 ≤ d.rd R.PAIR_CTRL_TEST)

/-- UP follows; each change is logged (R322). -/
def pairShow (d : Dev) : Dev :=
  let v := d.pairWant
  if d.rdb R.PAIR_STATUS_UP = v then d else
  let d := if v then d else d.cnt R.PAIR_LINK_DOWN
  (d.wrb R.PAIR_STATUS_UP v).log 0x38 0 0 0x012 (b2n v)

/-! Tests (R324). -/

/-- A value of TEST that is not off. -/
def testOn (v : Nat) : Bool := decide (1 ≤ v) && decide (v ≤ 4)

/-- An access that ends with an error response is logged (R15, R530, Table 21-3). -/
def accessLog (d : Dev) (addr : Nat) (write : Bool) : Dev :=
  d.log (sourceOf addr) (instOf addr) 4 0x005 (addr % 65536 + 65536 * b2n write)

end Dev

/-- A change of OCT_CTRL.MODE_REQ (R316). -/
def actModeReq (j v : Nat) (d : Dev) : Dev := d.requestMode j v

/-- Step 2 of a mode change (R313): a change to idle ends here. -/
def actDrained (j : Nat) (d : Dev) : Dev :=
  let o := d.octet j
  if o.step ≠ 1 then d else
  let d := d.upTo (o.since + 32 * Dev.blockTime (d.rd (R.LNE_OCT_STATUS_MODE j)))
  if o.dest = 0 then
    let d := d.endChange j
    let d := (Dev.octetLanes j).foldl Dev.laneDown d
    (d.putOctet j { d.octet j with enum := false, auto_ := false, brk := 0 }).seekMode j
  else d.putOctet j { o with step := 2, since := d.now }

/-- Step 3 of a mode change. -/
def actFck (j : Nat) (d : Dev) : Dev :=
  let o := d.octet j
  if o.step ≠ 2 then d else
  let d := d.upTo (o.since + micros 2)
  d.putOctet j { o with step := 3, since := d.now }

/-- Steps 4 and 5 (R313, R315): training ends; a change from idle or of a recovery goes on with enumeration, unless idle has been
asked for meanwhile. -/
def actTrained (j : Nat) (d : Dev) : Dev :=
  let o := d.octet j
  if o.step ≠ 3 then d else
  let us := if o.dest = 2 then d.rd (R.LNE_TRAIN_TRAIN_FWD j) else d.rd (R.LNE_TRAIN_TRAIN_REF j)
  let d := d.upTo (o.since + micros (Nat.max 50 us))
  let fresh := decide (d.rd (R.LNE_OCT_STATUS_MODE j) = 0) || (o.auto_ && decide (o.dest = 1))
  let d := d.endChange j
  let d := (d.putOctet j { d.octet j with mcount := 0, enum := fresh, auto_ := o.auto_ && decide (o.dest = 1) }).sendMarkers j
  let d := (Dev.octetLanes j).foldl Dev.patSend d
  if fresh && decide ((d.octet j).goal = 0) then (d.putOctet j { d.octet j with enum := false }).seekMode j
  else if fresh then (((Dev.octetLanes j).filter d.laneUsed).foldl Dev.enumLane d).enumCheck j
  else d.seekMode j

/-- A write of LCTRL or of PAIR.CTRL (R324): a value of TEST other than off is refused while the lane is in use. The GO bit
of a lane is `actLctrlGo`'s. Answers also whether the write ended with an error response. -/
def actTest (lane : Option Nat) (v : Nat) (d : Dev) : Dev × Bool :=
  let test := bits v 10 8
  match lane with
  | some k =>
    if Dev.testOn test && (d.laneUp k || d.laneChanging k) then
      (d.accessLog (0x300100 + 0x10000 * (k / 8) + 0x40 * (k % 8)) true, true)
    else
      let d := d.patFlush k
      let d := (d.wr (R.LNE_LCTRL_TEST (k / 8) (k % 8)) test).wr (R.LNE_LCTRL_PRBS (k / 8) (k % 8)) (bits v 5 4)
      ((d.putLane k { d.lane k with pat := ⟨0, 0, (d.lane k).pat.bits, d.now⟩ }).patSend k, false)
  | none =>
    if Dev.testOn test && d.rdb R.TOP_STATE_PAIRED && d.state ≠ .safe then (d.accessLog 0x380000 true, true)
    else
      let d := (d.wr R.PAIR_CTRL_TEST test).wr R.PAIR_CTRL_PRBS (bits v 5 4)
      let d := (List.range 4).foldl (fun d p =>
        let d := d.putPlane p { d.plane1 p with pat := ⟨0, 0, 0, d.now⟩ }
        if test = 1 ∨ test = 2 ∨ test = 4 then d.emit (.pattern true p (bits v 5 4)) else d) d
      (d.pairShow, false)

def execOctetIdleDrained (octet : Fin 8) (s : State) : Host.Outcome State Fault Refusal := run s fun _ d => actDrained octet d
def execOctetFckStart (octet : Fin 8) (s : State) : Host.Outcome State Fault Refusal := run s fun _ d => actFck octet d
def execAlignmentColumnSend (s : State) : Host.Outcome State Fault Refusal := run s fun _ d => if Dev.testOn (d.rd R.PAIR_CTRL_TEST) then d else d.emit (.column alignColumn)

end Sys2Proof.Machine
end

