-- ==== Sys2Proof/Machine/Calib.lean ====
section
/-!
DEFINITION. Calibration of the return receivers, camera ports and DRAM channels (R325 to R333, R121 to R124), and the
commands of a camera's frame edges, at which camera-port runs start, are deferred and end.
-/

namespace Sys2Proof.Machine
namespace Dev

/-! Eyes (R328, R329). -/

/-- The run of set bits of m that starts at tap t, of 64 taps. -/
def runAt (m t : Nat) : Nat := ((List.range (64 - t)).takeWhile fun i => bit m (t + i)).length

/-- The longest run of clean taps, and the taps that are centres of such a run. A run of even length has two middle taps. -/
def eye (m : Nat) : Nat × List Nat :=
  let n := ((List.range 64).map (runAt m)).foldl Nat.max 0
  if n = 0 then (0, []) else
  (n, ((List.range 64).filter fun t => runAt m t = n).flatMap fun t =>
    if n % 2 = 1 then [t + n / 2] else [t + n / 2 - 1, t + n / 2])

/-- One of several values that the spec leaves open, drawn as a free value (log entry 3). -/
def pick (d : Dev) (kind : Nat) (l : List Nat) (none_ : Nat) : Dev × Nat :=
  if l.length ≤ 1 then (d, l.headD none_) else (d.drawn, l.getD (d.freeVal kind % l.length) none_)

/-- A length of 64 taps does not fit its field: the field holds a free value (log entry 3). -/
def eyeField (d : Dev) (n : Nat) : Dev × Nat := if n < 64 then (d, n) else (d.drawn, d.freeVal 6 % 64)

/-! Units. -/

/-- The sensing site of a unit (Table 19-1). -/
def calSite (u : CalUnit) : Nat := match u.kind with
  | 0 => u.n / 8
  | 1 => 8 + u.n
  | _ => 16 + u.n / 8

/-- The temperature of a unit, in quarter degrees: its site, or the junction while the site is invalid (R497). -/
def unitTemp (d : Dev) (u : CalUnit) : Int :=
  if d.rdb (R.THM_SITE_VALID (calSite u)) then sext 16 (d.rd (R.THM_SITE_TEMP (calSite u))) else sext 16 (d.rd R.THM_STATUS_TJ)

/-- RESULT of a unit. -/
def showResult (d : Dev) (u : CalUnit) (v : Nat) : Dev := match u.kind with
  | 0 => d.wr (R.LNE_CAL_STATUS_RESULT (u.n / 8) (u.n % 8)) v
  | 1 => d.wr (R.CAM_CAL_STATUS_RESULT u.n) v
  | _ => d.wr (R.DRM_CALR_RESULT (u.n / 8) (u.n % 8)) v

/-- RUNS of a unit counts a run. -/
def countRun (d : Dev) (u : CalUnit) : Dev := match u.kind with
  | 0 => d.cntWrap (R.LNE_CAL_STATUS_RUNS (u.n / 8) (u.n % 8))
  | 1 => d.cntWrap (R.CAM_CAL_STATUS_RUNS u.n)
  | _ => d.cntWrap (R.DRM_CALR_RUNS (u.n / 8) (u.n % 8))

/-- The run of a unit, if it runs. -/
def calRun (d : Dev) (u : CalUnit) : Option CalRun := d.calib.runs.find? fun r => r.unit = u

/-- Replace the run of a unit. -/
def putRun (d : Dev) (r : CalRun) : Dev :=
  { d with calib := { d.calib with runs := r :: d.calib.runs.filter fun x => x.unit != r.unit } }

/-- A queued unit starts to run. -/
def startRun (d : Dev) (u : CalUnit) : Dev :=
  let d := { d with calib := { d.calib with
    queue := d.calib.queue.erase u, runs := ⟨u, 0, d.now, d.now, 0, 0, 0, false⟩ :: d.calib.runs } }
  d.showResult u 4

/-- A unit's run leaves the list of runs; a channel's window has ended with it, or 3 µs after its start (R330). -/
def dropRun (d : Dev) (u : CalUnit) : Dev :=
  let end_ := match d.calRun u with
    | some r => Nat.min d.now (r.start + micros 3)
    | none => d.now
  let d := { d with calib := { d.calib with runs := d.calib.runs.filter fun x => x.unit != u } }
  if u.kind = 2 then { d with calib := { d.calib with dramAt := end_ } } else d

/-! Easing (R332, R501). -/

/-- A target tap with the band's offset (R501). -/
def camGoal (d : Dev) (n i : Nat) : Nat :=
  let b := Nat.min 3 (d.rd R.THM_STATUS_BAND)
  (clampInt (((d.rd (R.CAM_DLY_CAL_TAP n i) : Nat) : Int) + sext 6 (d.rd (R.THM_CAM_OFS_OFS b))) 0 63).toNat

/-- The median of the 32 data taps of a port (R121): any value between the two middle taps. -/
def tapMedian (d : Dev) (n : Nat) : Dev × Nat :=
  let l := (sortInt ((List.range 32).map fun i => ((d.rd (R.CAM_DLY_TAP n i) : Nat) : Int))).map Int.toNat
  let lo := l.getD 15 0
  let hi := l.getD 16 0
  d.pick 7 ((List.range (hi + 1 - lo)).map (lo + ·)) lo

/-- The taps of a camera port move: by one tap, or with `jump` at once. A tap under override stands at its override. -/
def easeCam (d : Dev) (jump : Bool) (n : Nat) : Dev :=
  let before := (List.range 32).map fun i => d.rd (R.CAM_DLY_TAP n i)
  let d := (List.range 32).foldl (fun d i =>
    let g := d.camGoal n i
    let t := d.rd (R.CAM_DLY_TAP n i)
    d.wr (R.CAM_DLY_TAP n i)
      (if d.rdb (R.CAM_DLY_OVR_EN n i) then d.rd (R.CAM_DLY_OVR_TAP n i) else if jump then g else stepTo t g)) d
  if before = (List.range 32).map (fun i => d.rd (R.CAM_DLY_TAP n i)) then d else
  let m := d.tapMedian n
  m.1.wr (R.CAM_CTL_DLY_TAP n) m.2

/-- The taps of a return receiver move. -/
def easeRx (d : Dev) (jump : Bool) (k : Nat) : Dev :=
  let j := k / 8
  let i := k % 8
  let mv (t g : Nat) : Nat := if jump then g else stepTo t g
  if d.rdb (R.LNE_RX_OVR_OVR_EN j i) then
    ((d.wr (R.LNE_RX_TAPS_PHASE j i) (d.rd (R.LNE_RX_OVR_OVR_PHASE j i))).wr (R.LNE_RX_TAPS_THR j i)
      (d.rd (R.LNE_RX_OVR_OVR_THR j i))).wr (R.LNE_CAL_STATUS_EASING j i) 0
  else
    let pg := d.rd (R.LNE_RX_TAPS_PHASE_TGT j i)
    let tg := d.rd (R.LNE_RX_TAPS_THR_TGT j i)
    let p := mv (d.rd (R.LNE_RX_TAPS_PHASE j i)) pg
    let t := mv (d.rd (R.LNE_RX_TAPS_THR j i)) tg
    ((d.wr (R.LNE_RX_TAPS_PHASE j i) p).wr (R.LNE_RX_TAPS_THR j i) t).wrb (R.LNE_CAL_STATUS_EASING j i)
      (decide (p ≠ pg) || decide (t ≠ tg))

/-- The taps of a DRAM channel move. -/
def easeDram (jump : Bool) (c : List Nat × List Nat) : List Nat × List Nat :=
  (if jump then c.2 else (c.2.zipIdx).map fun q => stepTo (c.1.getD q.2 q.1) q.1, c.2)

/-- Every tap of the device moves. -/
def easeAll (d : Dev) (jump : Bool) : Dev :=
  let d := (List.range 64).foldl (fun d k => d.easeRx jump k) d
  let d := (List.range 8).foldl (fun d n => d.easeCam jump n) d
  { d with calib := { d.calib with dram := d.calib.dram.map (easeDram jump) } }

/-- Presets and taps at a line boundary (R318, R332). -/
def easeLine (d : Dev) : Dev := ((List.range 8).foldl Dev.easePreset d).easeAll false

/-- New targets apply at once where no line is counted (R332). -/
def easeNow (d : Dev) : Dev := if d.lineCounts then d else d.easeAll true

/-! Ends of runs (R331). -/

/-- A run ends good: the count of bad runs resets and the drift baseline is taken. -/
def runGood (d : Dev) (u : CalUnit) : Dev :=
  let t := d.unitTemp u
  let d := { (d.dropRun u) with calib := { (d.dropRun u).calib with
    bad := d.calib.bad.filter fun b => b.1 != u
    base := (u, t) :: d.calib.base.filter fun b => b.1 != u } }
  (((d.showResult u 1).countRun u).cnt R.CLK_RUNS_GOOD).easeNow

/-- A run ends bad: the targets stay, the run is counted and logged, and a retry is armed, RETRIES in a row. -/
def runBad (d : Dev) (u : CalUnit) (eyeTaps : Nat) (timedOut : Bool) : Dev :=
  let n := (((d.calib.bad.find? fun b => b.1 = u).map Prod.snd).getD 0) + 1
  let at_ := d.now + millis (d.rd R.CLK_CAL_RETRY_MS)
  let d := d.dropRun u
  let d := { d with calib := { d.calib with
    bad := (u, n) :: d.calib.bad.filter fun b => b.1 != u
    anyBad := true
    retry := if n ≤ d.rd R.CLK_CAL_CFG_RETRIES then (u, at_) :: d.calib.retry.filter fun r => r.1 != u else d.calib.retry } }
  let d := ((d.showResult u 2).countRun u).cnt R.CLK_RUNS_BAD
  let d := if u.kind = 0 then d.cnt (R.LNE_CAL_BAD (u.n / 8) (u.n % 8)) else d
  let src := match u.kind with
    | 0 => 0x30 + u.n / 8
    | 1 => 0x10 + u.n
    | _ => 0x50 + u.n / 8
  d.log src u.n 2 0x00E (u.kind + 256 * (Nat.min eyeTaps 255) + 65536 * b2n timedOut)

/-- ACK_TO of a lane resumes with its remaining time (R328): of a packet sent during the pause, all of it. -/
def resumeTimer (d : Dev) (k : Nat) : Dev :=
  let l := d.lane k
  match l.pause with
  | some t =>
    d.putLane k { l with pause := none, fifo := l.fifo.map fun p =>
      if 0 < p.sends then { p with lastSent := p.lastSent + (d.now - Nat.max t p.lastSent) } else p }
  | none => d

/-- The offset trim of a lane ends: its receiver has block lock again, and ACK_TO resumes (R328). -/
def resumeAck (d : Dev) (k : Nat) : Dev :=
  if (d.lane k).pause.isNone then d else (d.putLane k { d.lane k with lock := true }).resumeTimer k

/-- The trip stops every run; none ends good or bad (R333). What RESULT then shows is not stated: a free value. -/
def stopRuns (d : Dev) : Dev :=
  let us := d.calib.runs.map fun r => r.unit
  let d := us.foldl (fun d u =>
    let d := (d.showResult u (d.freeVal 8)).drawn
    if u.kind = 0 then d.resumeTimer u.n else d) d
  { d with calib := { d.calib with runs := [] } }

/-- The drift triggers, at a reading of the sites (R326). -/
def driftCheck (d : Dev) : Dev :=
  if !d.rdb R.CLK_CAL_CFG_AUTO_EN then d else
  d.calib.base.foldl (fun d b =>
    if decide (4 * clampNat (d.rd R.CLK_CAL_CFG_DT) 2 30 ≤ (d.unitTemp b.1 - b.2).natAbs) then d.queueCal b.1 else d) d

/-- The runs of every up return lane, of every camera port, of every DRAM channel are queued (R319, R326). -/
def queueRx (d : Dev) : Dev := ((List.range 64).filter d.laneUp).foldl (fun d k => d.queueCal ⟨0, k⟩) d
def queueCams (d : Dev) : Dev := (List.range 8).foldl (fun d n => d.queueCal ⟨1, n⟩) d
def queueDram (d : Dev) : Dev := (List.range 32).foldl (fun d c => d.queueCal ⟨2, c⟩) d

/-! Camera ports (R123, R329). -/

/-- A camera-port run may take place in the present blanking. -/
def camCalOk (d : Dev) (n : Nat) : Bool :=
  !d.rdb (R.CAM_CAL_CTRL_HOLD n) && decide (200000 ≤ d.rd (R.CAM_MEAS_VBLANK n))

/-- A queued camera-port run is deferred to the next blanking. -/
def camDefer (d : Dev) (n : Nat) : Dev :=
  let k := (d.cam n).defers + 1
  let d := (d.putCam n { d.cam n with defers := k }).wr (R.CAM_CAL_STATUS_RESULT n) 3
  if k = 64 then d.flag n (R.CAM_CAL_STATUS_STARVED n) 2 false true else d

/-- VS rises: a queued run that may not take place is deferred. -/
def camBlank (d : Dev) (n : Nat) : Dev :=
  if d.calib.queue.contains ⟨1, n⟩ && !d.camCalOk n then d.camDefer n else d

/-- VS falls during a run: the port restores its taps, and the run is deferred and queued again. -/
def camAbort (d : Dev) (n : Nat) : Dev :=
  if (d.calRun ⟨1, n⟩).isSome then ((d.dropRun ⟨1, n⟩).queueCal ⟨1, n⟩).camDefer n else d

end Dev

/-- LCTRL.GO (R326). -/
def actLctrlGo (k : Nat) (d : Dev) : Dev := d.queueCal ⟨0, k⟩
/-- CAM.CAL_CTRL.GO (R123, R326). -/
def actCamCalGo (n : Nat) (d : Dev) : Dev := d.queueCal ⟨1, n⟩

/-- A queued camera-port run starts 10 µs after VS rises (R329). -/
def actCamCalStart (n : Nat) (d : Dev) : Dev :=
  let u : CalUnit := ⟨1, n⟩
  match (d.cam n).lastRise with
  | some t =>
    if d.calib.queue.contains u && (d.cam n).vs && d.camCalOk n then
      let d := (d.upTo (t + micros 10)).putCam n { d.cam n with defers := 0 }
      (d.flag n (R.CAM_CAL_STATUS_STARVED n) 2 false false).startRun u
    else d
  | none => d

/-- A queued return-lane run starts (R327): lanes in ascending order, one per octet, not while the octet changes mode. The
offset trim begins, the lane delivers nothing and ACK_TO stands still (R328). -/
def actRxStart (k : Nat) (d : Dev) : Dev :=
  let first := !(d.calib.queue.any fun u => u.kind = 0 && u.n / 8 = k / 8 && decide (u.n < k))
  let busy := d.calib.runs.any fun r => r.unit.kind = 0 && r.unit.n / 8 = k / 8
  if d.calib.queue.contains ⟨0, k⟩ && first && !busy && !d.laneChanging k then
    let d := d.startRun ⟨0, k⟩
    d.putLane k { d.lane k with lock := false, pause := some d.now }
  else d

/-- The time of the eye scan, and of the residual check (R328): 2^20 bits at 3.000 Gb/s. -/
def scanTime : Span := 1048576 * 65536 / 3

/-- A phase of a return run ends (R328), `dt` after the latest moment for the offset trim: the clean taps of the eye scan, and
the mismatches of the residual check. -/
def actRxPhase (k dt ph thr errs : Nat) (d : Dev) : Dev :=
  match d.calRun ⟨0, k⟩ with
  | none => d
  | some r =>
    let j := k / 8
    let i := k % 8
    match r.phase with
    | 0 =>
      let d := d.upTo (Nat.min (d.now + dt) (r.at_ + micros 40))
      (d.putRun { r with phase := 1, at_ := d.now }).resumeAck k
    | 1 =>
      let d := d.upTo (r.at_ + scanTime)
      let w := d.eyeField (Dev.eye ph).1
      let h := w.1.eyeField (Dev.eye thr).1
      (((h.1.wr (R.LNE_CAL_STATUS_EYE_W j i) w.2).wr (R.LNE_CAL_STATUS_EYE_H j i) h.2)).putRun
        { r with phase := 2, at_ := d.now, ph := ph, thr := thr }
    | 2 =>
      let d := d.upTo (r.at_ + scanTime)
      (d.wr (R.LNE_RESIDUAL j i) errs).putRun { r with phase := 3, at_ := d.now, errs := errs }
    | _ => d

/-- A DRAM channel's window begins (R327, R330). -/
def actDramWindow (c : Nat) (d : Dev) : Dev :=
  let first := !(d.calib.queue.any fun u => u.kind = 2 && decide (u.n < c))
  let busy := d.calib.runs.any fun r => r.unit.kind = 2
  if d.calib.queue.contains ⟨2, c⟩ && first && !busy then
    (d.upTo (d.calib.dramAt + micros 100)).startRun ⟨2, c⟩
  else d

/-- The end of a return run (R331): good with both eyes wide enough and no mismatch. -/
def Dev.endRx (d : Dev) (k : Nat) (r : CalRun) (kept : Bool) : Dev :=
  let u : CalUnit := ⟨0, k⟩
  let w := Dev.eye r.ph
  let h := Dev.eye r.thr
  if r.phase = 3 && kept && !r.lost && r.errs = 0 && decide (d.rd R.CLK_CAL_MIN_EYE_RX_PHASE ≤ w.1)
      && decide (d.rd R.CLK_CAL_MIN_EYE_RX_THR ≤ h.1) then
    let p := d.pick 9 w.2 (d.rd (R.LNE_RX_TAPS_PHASE_TGT (k / 8) (k % 8)))
    let t := p.1.pick 9 h.2 (d.rd (R.LNE_RX_TAPS_THR_TGT (k / 8) (k % 8)))
    let d := (t.1.wr (R.LNE_RX_TAPS_PHASE_TGT (k / 8) (k % 8)) p.2).wr (R.LNE_RX_TAPS_THR_TGT (k / 8) (k % 8)) t.2
    let d := d.wrb (R.LNE_CAL_STATUS_EASING (k / 8) (k % 8)) (!d.rdb (R.LNE_RX_OVR_OVR_EN (k / 8) (k % 8)) &&
      (decide (d.rd (R.LNE_RX_TAPS_PHASE (k / 8) (k % 8)) ≠ p.2) || decide (d.rd (R.LNE_RX_TAPS_THR (k / 8) (k % 8)) ≠ t.2)))
    d.runGood u
  else (d.resumeAck k).runBad u w.1 false

/-- The end of a camera-port run: the clean taps of the 32 lines and the errors at the targets. -/
def Dev.endCam (d : Dev) (n : Nat) (clean : List Nat) (errs : Nat) (kept : Bool) : Dev :=
  let u : CalUnit := ⟨1, n⟩
  let kept := kept && !((d.calRun u).map CalRun.lost).getD false
  let eyes := (List.range 32).map fun i => Dev.eye (clean.getD i 0)
  let least := (eyes.map Prod.fst).foldl Nat.min 64
  let worst := (List.range 32).filter fun i => (eyes.getD i (0, [])).1 = least
  let f := d.eyeField least
  let b := f.1.pick 10 worst 0
  let d := ((b.1.wr (R.CAM_CAL_STATUS_EYE_MIN n) f.2).wr (R.CAM_CAL_STATUS_WORST_BIT n) b.2).wr (R.CAM_CAL_ERR_ERRORS n) errs
  if kept && errs = 0 && decide (d.rd R.CLK_CAL_MIN_EYE_CAM ≤ least) then
    let d := (List.range 32).foldl (fun d i =>
      let t := d.pick 9 (eyes.getD i (0, [])).2 (d.rd (R.CAM_DLY_CAL_TAP n i))
      t.1.wr (R.CAM_DLY_CAL_TAP n i) t.2) d
    d.runGood u
  else d.runBad u least false

/-- The end of a DRAM run: the clean taps of the 32 delays, of 16 DQ bits for reads and then for writes (log entry 112), and the errors
at the targets (Table 11-13). -/
def Dev.endDram (d : Dev) (c : Nat) (clean : List Nat) (errs : Nat) (kept : Bool) : Dev :=
  let u : CalUnit := ⟨2, c⟩
  let d := d.upTo (match d.calRun u with
    | some r => Nat.min (Nat.max d.now r.start) (r.start + micros 3)
    | none => d.now)
  let kept := kept && !((d.calRun u).map CalRun.lost).getD false
  let eyes := (List.range 32).map fun i => Dev.eye (clean.getD i 0)
  let least := (eyes.map Prod.fst).foldl Nat.min 64
  let f := d.eyeField least
  let d := (f.1.wr (R.DRM_CALR_EYE_MIN (c / 8) (c % 8)) f.2).wr (R.DRM_CALR_ERRORS (c / 8) (c % 8)) (Nat.min errs 255)
  if kept && errs = 0 && decide (d.rd R.CLK_CAL_MIN_EYE_DRAM ≤ least) then
    let old := (d.calib.dram.getD c ([], [])).2
    let t := (eyes.zipIdx).foldl (fun (a : Dev × List Nat) q =>
      let x := a.1.pick 9 q.1.2 (old.getD q.2 32)
      (x.1, a.2 ++ [x.2])) (d, [])
    let inUse := ((t.1.calib.dram.getD c ([], [])).1)
    let d := { t.1 with calib := { t.1.calib with
      dram := setAt t.1.calib.dram c (inUse, t.2) } }
    d.runGood u
  else d.runBad u least false

/-- The unit of a target and a number. -/
def calUnit (kind : CalKind) (n : Nat) : CalUnit := match kind with
  | .rx => ⟨0, n⟩
  | .cam => ⟨1, n % 8⟩
  | .dram => ⟨2, n % 32⟩

/-- A run has passed 2 ms and ends bad (R331). -/
def Dev.runTimeout (d : Dev) (u : CalUnit) (r : CalRun) : Dev :=
  let d := (d.upTo (r.start + millis 2)).cnt R.CLK_TIMEOUTS
  let d := if u.kind = 0 then d.resumeAck u.n else d
  d.runBad u (if u.kind = 0 then (Dev.eye r.ph).1 else 0) true

/-- A run ends (R331); one that ends later than 2 ms after its start has timed out. -/
def actRunDone (kind : CalKind) (n : Nat) (clean : List Nat) (errs : Nat) (kept : Bool) (d : Dev) : Dev :=
  let u := calUnit kind n
  match d.calRun u with
  | none => d
  | some r =>
    if r.start + millis 2 < d.now then d.runTimeout u r else
    match kind with
    | .rx => d.endRx u.n r kept
    | .cam => d.endCam u.n clean errs kept
    | .dram => d.endDram u.n clean errs kept

/-- A run passes 2 ms and ends bad (R331). -/
def actRunTimeout (kind : CalKind) (n : Nat) (d : Dev) : Dev :=
  let u := calUnit kind n
  match d.calRun u with
  | none => d
  | some r => d.runTimeout u r

/-- A retry falls due (R331). -/
def actRetry (kind : CalKind) (n : Nat) (d : Dev) : Dev :=
  let u := calUnit kind n
  match d.calib.retry.find? fun r => r.1 = u with
  | none => d
  | some r =>
    let d := d.upTo r.2
    ({ d with calib := { d.calib with retry := d.calib.retry.filter fun x => x.1 != u } }).queueCal u

/-- A camera's frame starts: the port, the lock of the layers that take it, and a calibration run that it ends. -/
def actCamStart (n : Nat) (dt : CamTick) (d : Dev) : Dev :=
  if !(d.cam n).vs then d.pass dt.dt else ((actFrameStart n dt d).lockStart n).camAbort n

/-- A camera's frame ends. -/
def actCamEnd (n dt : Nat) (m : List Host.Cell) (d : Dev) : Dev :=
  if (d.cam n).vs then d.pass dt else (actFrameEnd n dt m d).camBlank n

/-- The live size of a port's frames lies in the ranges for which R104 defines the port. -/
def Dev.sizeOk (d : Dev) (n : Nat) : Bool := Dev.geomOk (d.lv (R.CAM_GEOM_WIDTH n)) (d.lv (R.CAM_GEOM_HEIGHT n))

/-- The size that a port's next frame would use lies in those ranges; an unbound port's frames are dropped (R107). -/
def Dev.nextSizeOk (d : Dev) (n : Nat) : Bool :=
  let e := d.applyComm (Dev.camKey n)
  e.sizeOk n || !e.lvb (R.CAM_CTRL_EN n)

/-- A camera frame of a port whose WIDTH or HEIGHT lies outside R104's ranges has undefined behaviour: a fault. -/
def execCamFrameStart (n : Fin 8) (dt : CamTick) (s : State) : Host.Outcome State Fault Refusal :=
  if s.dev.off || s.dev.nextSizeOk n then run s fun _ d => actCamStart n dt d else .fault .geometryUndefined
def execCamFrameEnd (n : Fin 8) (dt : Nat) (s : State) : Host.Outcome State Fault Refusal :=
  run s fun m d => actCamEnd n dt m d
def execCamCalStart (n : Fin 8) (s : State) : Host.Outcome State Fault Refusal := run s fun _ d => actCamCalStart n d
def execRxCalStart (lane : Fin 64) (s : State) : Host.Outcome State Fault Refusal := run s fun _ d => actRxStart lane d
def execRxCalPhaseDone (lane : Fin 64) (dt : Nat) (phase thr : BitVec 64) (errs : Word) (s : State) :
    Host.Outcome State Fault Refusal :=
  run s fun _ d => actRxPhase lane dt phase.toNat thr.toNat errs.toNat d
def execDramCalWindow (chan : Fin 32) (s : State) : Host.Outcome State Fault Refusal := run s fun _ d => actDramWindow chan d
def execCalRunDone (kind : CalKind) (n : Fin 64) (clean : List (BitVec 64)) (errs : Word) (kept : Bool) (s : State) :
    Host.Outcome State Fault Refusal :=
  run s fun _ d => actRunDone kind n (clean.map BitVec.toNat) errs.toNat kept d
def execCalRunTimeout (kind : CalKind) (n : Fin 64) (s : State) : Host.Outcome State Fault Refusal :=
  run s fun _ d => actRunTimeout kind n d
def execCalRetry (kind : CalKind) (n : Fin 64) (s : State) : Host.Outcome State Fault Refusal :=
  run s fun _ d => actRetry kind n d

end Sys2Proof.Machine
end

