-- ==== Sys2Proof/Machine/Lulls.lean ====
section
/-!
DEFINITION. Lulls (R502, R503): pauses of background engines.
-/

namespace Sys2Proof.Machine
namespace Dev

/-- An engine is in a lull. -/
def lulling (d : Dev) (u : LullUnit) : Bool := d.thm.lulls.any fun l => l.unit = u

/-- Lulls are issued to an engine: k of the length in use (R503). -/
def takeLulls (d : Dev) (u : LullUnit) (k : Nat) : Dev :=
  let len := d.rd R.THM_LULL_NOW_L
  if k = 0 ∨ len = 0 then d else
  let d := { d with thm := { d.thm with lulls := ⟨u, d.now, k * len⟩ :: d.thm.lulls.filter fun l => l.unit != u } }
  let d := d.addCnt R.THM_LULLS k
  match u with
  | .fuller _ => d.addCnt R.FUL_LULLS k
  | _ => d

/-- An engine has worked through n bytes more: one lull for every `quantum` of them (Table 19-3). -/
def lullAfter (d : Dev) (u : LullUnit) (quantum n : Nat) : Dev :=
  let old := ((d.thm.bytes.find? fun p => p.1 = u).map Prod.snd).getD 0
  let d := { d with thm := { d.thm with
    bytes := (u, (old + n) % quantum) :: d.thm.bytes.filter fun p => p.1 != u } }
  d.takeLulls u ((old + n) / quantum)

end Dev

/-- A lull ends and its engine continues (R502). -/
def actLullEnd (u : LullUnit) (d : Dev) : Dev :=
  match d.thm.lulls.find? fun l => l.unit = u with
  | none => d
  | some l =>
    let d := d.upTo (l.start + l.len * 131072 / 3)
    { d with thm := { d.thm with lulls := d.thm.lulls.filter fun x => x.unit != u } }

def execLullEnd (unit : LullUnit) (s : State) : Host.Outcome State Fault Refusal := run s fun _ d => actLullEnd unit d

end Sys2Proof.Machine
end

