-- ==== Sys2Proof/Machine/Hevc.lean ====
section
/-!
DEFINITION. HEVC encoding and decoding (chapter 15): sessions, the cores' schedule, gradual refresh, the picture cap and
fallback, motion search, the rings, pairing and the decoder's robustness.
-/

namespace Sys2Proof.Machine
namespace Hevc

/-! Motion search (R431 to R433). Vectors are in quarter samples. -/

/-- The bins of one component of a motion vector difference (R431). -/
def bins (c : Int) : Nat :=
  let a := c.natAbs
  if a = 0 then 1 else if a = 1 then 3 else 5 + 2 * (Nat.log2 a - 1)

/-- 16 × λ at a QP (R431): the largest whole number not above 9.12 × 2^((QP − 12) / 6). -/
def lambda16 (qp : Nat) : Nat :=
  ((List.range 4096).filter fun n => decide ((100 * n) ^ 6 * 2 ^ 12 ≤ 912 ^ 6 * 2 ^ qp)).length - 1

/-- 16 × the cost of a candidate (R431). -/
def cost (qp : Nat) (pred : Int × Int) (sad : Nat) (v : Int × Int) : Nat :=
  16 * sad + lambda16 qp * (bins (v.1 - pred.1) + bins (v.2 - pred.2))

/-- The best of some candidates in their order (R431): the smaller cost, then the smaller |mvx| + |mvy|, then the earlier. -/
def best (c : Int × Int → Nat) (ok : Int × Int → Bool) (start : Option (Int × Int)) (l : List (Int × Int)) : Option (Int × Int) :=
  l.foldl (fun b v =>
    if !ok v then b else
    match b with
    | none => some v
    | some w =>
      if c v < c w ∨ (c v = c w ∧ v.1.natAbs + v.2.natAbs < w.1.natAbs + w.2.natAbs) then some v else b) start

/-- Every vector within ±w by ±h around a centre, in steps, dy ascending, then dx ascending. -/
def field (cx cy : Int) (w h : Nat) (step : Int) : List (Int × Int) :=
  (List.range (2 * h + 1)).flatMap fun (j : Nat) => (List.range (2 * w + 1)).map fun (i : Nat) =>
    (cx + step * ((i : Int) - w), cy + step * ((j : Int) - h))

/-- The eight neighbours of a vector at a distance, in the order of R433. -/
def ring (v : Int × Int) (s : Int) : List (Int × Int) :=
  [(-s, -s), (0, -s), (s, -s), (-s, 0), (s, 0), (-s, s), (0, s), (s, s)].map fun (o : Int × Int) => (v.1 + o.1, v.2 + o.2)

/-- The half-sample and quarter-sample stages (R433) about the best vector of the integer stage. A stage about a vector that R432 has let
pass has that vector itself as its first candidate. -/
def fractional (c : Int × Int → Nat) (ok : Int × Int → Bool) (v : Option (Int × Int)) : Option (Int × Int) :=
  let around (s : Int) (v : Option (Int × Int)) : Option (Int × Int) := v.bind fun v => best c ok (some v) (ring v s)
  around 1 (around 2 v)

/-- The WINDOW search (R433): `sad` gives the SAD of a vector at full scale. None where every candidate is forbidden. -/
def window (qp : Nat) (sad : Nat → Int × Int → Nat) (ok : Int × Int → Bool) (pred : Int × Int) : Option (Int × Int) :=
  let c (v : Int × Int) : Nat := cost qp pred (sad 0 v) v
  fractional c ok (best c ok none (field 0 0 128 64 4))

/-- The HIER search (Table 15-1): `sad` gives the SAD of a vector at level 0, 1 or 2. A level whose candidates are all forbidden leaves
nothing to go on from. -/
def hier (qp : Nat) (sad : Nat → Int × Int → Nat) (ok : Int × Int → Bool) (pred : Int × Int) : Option (Int × Int) :=
  let c (level : Nat) (v : Int × Int) : Nat := cost qp pred (sad level v) v
  let whole (x s : Int) : Int := x / s * s
  let near (level : Nat) (s : Int) (v : Option (Int × Int)) : Option (Int × Int) :=
    v.bind fun v => best (c level) ok none (field v.1 v.2 4 4 s)
  let v2 := best (c 2) ok none (field 0 0 128 64 16 ++ field (whole pred.1 16) (whole pred.2 16) 128 64 16)
  fractional (c 0) ok (near 0 4 (near 1 8 v2))

/-! The prediction of luma and its SAD (R431, R433; log entry 127). -/

/-- The samples of a picture of a size, with the nearest sample of the picture for places outside it. -/
def padded (w h : Nat) (f : Nat → Nat → Nat) (x y : Int) : Nat := f (clampInt x 0 ((w : Int) - 1)).toNat (clampInt y 0 ((h : Int) - 1)).toNat

/-- The taps of H.265's luma interpolation filter at a quarter position: 3 samples to the left, 4 to the right. -/
def lumaTaps (q : Nat) : List Int := match q with
  | 1 => [-1, 4, -10, 58, 17, -5, 1, 0]
  | 2 => [-1, 4, -11, 40, 40, -11, 4, -1]
  | 3 => [0, 1, -5, 17, 58, -10, 4, -1]
  | _ => [0, 0, 0, 64, 0, 0, 0, 0]

/-- Eight samples about a place under the taps of a quarter position. -/
def filtered (q : Nat) (f : Int → Int) (x : Int) : Int := ((lumaTaps q).zipIdx.map fun t => t.1 * f (x + (t.2 : Int) - 3)).sum

/-- A luma sample of the prediction that a vector in quarter samples gives (H.265's interpolation and rounding at a bit depth). -/
def predicted (depth : Nat) (ref : Int → Int → Nat) (v : Int × Int) (x y : Int) : Nat :=
  let qx := (v.1 % 4).toNat
  let qy := (v.2 % 4).toNat
  let row (j i : Int) : Int := filtered qx (fun i => (ref i j : Int)) i / 2 ^ (depth - 8)
  let mid := if qy = 0 then row (y + v.2 / 4) (x + v.1 / 4) else filtered qy (fun j => row j (x + v.1 / 4)) (y + v.2 / 4) / 64
  (clampInt ((mid + 2 ^ (13 - depth)) / 2 ^ (14 - depth)) 0 (2 ^ depth - 1)).toNat

/-- The SAD of a prediction unit against its source, at a level of scale: full scale with the fractions of the vector, half and quarter
scale in whole samples of that scale. -/
def sadOf (depth : Nat) (src ref : Int → Int → Nat) (x y w h level : Nat) (v : Int × Int) : Nat :=
  let s := 2 ^ level
  let down (f : Int → Int → Nat) : Int → Int → Nat := (List.range level).foldl (fun f _ => Config.hevcHalf f) f
  ((List.range (Nat.max 1 (h / s))).map fun j => ((List.range (Nat.max 1 (w / s))).map fun i =>
    let px : Int := (x / s + i : Nat)
    let py : Int := (y / s + j : Nat)
    let p := if level = 0 then predicted depth ref v px py else down ref (px + v.1 / (4 * (s : Int))) (py + v.2 / (4 * (s : Int)))
    ((down src px py : Int) - (p : Int)).natAbs).sum).sum

/-- A vector within the limits of H.265 (R432): each component in 16 bits. -/
def vectorOk (v : Int × Int) : Bool :=
  decide (-32768 ≤ v.1) && decide (v.1 < 32768) && decide (-32768 ≤ v.2) && decide (v.2 < 32768)

/-! Gradual refresh (R426, R427). -/

/-- Where the refresh column of picture k of a cycle of n begins, among c CTU columns. -/
def refreshFrom (n c k : Nat) : Nat := k * c / Nat.max 1 n

/-- E_k: the columns of the clean region (R426). -/
def cleanEnd (n c k : Nat) : Nat := (k + 1) * c / Nat.max 1 n

/-- A CTU column is coded intra in picture k. -/
def inRefresh (n c k col : Nat) : Bool := n != 0 && decide (refreshFrom n c k ≤ col) && decide (col < cleanEnd n c k)

/-- A vector for a prediction unit (its first luma column, its width) of a clean CTU reads only columns of the reference's own
clean region (R427): the luma columns with the four taps to the right, and the columns of chroma, which has half as many, with the two
taps that H.265's chroma filter has there. -/
def refreshAllows (n c k : Nat) (pu : Nat × Nat) (v : Int × Int) : Bool :=
  if n = 0 ∨ cleanEnd n c k * 64 ≤ pu.1 then true else
  let e := if k = 0 then c else cleanEnd n c (k - 1)
  let luma : Int := (pu.1 + pu.2 - 1 : Nat) + v.1 / 4 + (if v.1 % 4 = 0 then 0 else 4)
  let chroma : Int := ((pu.1 + pu.2) / 2 - 1 : Nat) + v.1 / 8 + (if v.1 % 8 = 0 then 0 else 2)
  decide (luma < ((64 * e : Nat) : Int)) && decide (chroma < ((32 * e : Nat) : Int))

/-- The units before the slices of a picture (R426, R427): a PPS precedes every picture, with the tile boundary of its clean region;
picture 0 of a cycle carries the VPS, the SPS and a recovery point SEI. An IDR picture carries the parameter sets. -/
def headers (sps : Config.HevcSpsOut) (idr : Bool) (n c k : Nat) : List Config.HevcHeader :=
  let sps := Config.HevcHeader.sps sps
  if idr then [.vps, sps, .pps 0 none]
  else if n = 0 then [.pps 0 none]
  else
    let e := cleanEnd n c k
    (if k = 0 then [.vps, sps] else []) ++ [.pps (k % 64) (if e < c then some e else none)] ++ (if k = 0 then [.recovery (n - 1)] else [])

/-- The share of a target that each CTU row has (R428): in proportion to the rows of the picture before, and in equal shares where
there is none. -/
def allotment (target rows : Nat) (before : List Nat) (r : Nat) : Nat :=
  if before.sum = 0 then target / Nat.max 1 rows else target * before.getD r 0 / before.sum

/-- What rows before have left unspent of their allotments (R428). -/
def unspent (target rows : Nat) (before done : List Nat) : Nat :=
  (done.zipIdx).foldl (fun c q => c + allotment target rows before q.2 - q.1) 0

/-! The Annex B byte stream (R417, R438; log entry 115). -/

/-- The start codes of a byte stream, as offsets. -/
def startCodes : Nat → List Byte → List Nat
  | _, [] => []
  | i, a :: r => if a = 0 ∧ r.getD 0 1 = 0 ∧ r.getD 1 0 = 1 then i :: startCodes (i + 1) r else startCodes (i + 1) r

/-- The NAL units of a byte stream, each with its offset and from its start code on. -/
def nalUnits (bs : List Byte) : List (Nat × List Byte) :=
  let s := startCodes 0 bs
  s.zipIdx.map fun q => (q.1, slice bs q.1 (s.getD (q.2 + 1) bs.length - q.1))

/-- nal_unit_type and nuh_layer_id of a NAL unit. -/
def nalType (u : List Byte) : Nat := (u.getD 3 0).toNat / 2 % 64
def nalLayer (u : List Byte) : Nat := (u.getD 3 0).toNat % 2 * 32 + (u.getD 4 0).toNat / 8

/-- A NAL unit of layer 0 that holds coded data, one that begins a picture, and one of an IRAP picture. -/
def isVcl (u : List Byte) : Bool := decide (5 ≤ u.length) && nalLayer u = 0 && decide (nalType u < 32)
def beginsPicture (u : List Byte) : Bool := isVcl u && bit (u.getD 5 0).toNat 7
def isIrap (u : List Byte) : Bool := isVcl u && decide (16 ≤ nalType u) && decide (nalType u ≤ 23)

/-- A NAL unit of an IDR or BLA picture, with which a coded video sequence begins. -/
def newCvs (u : List Byte) : Bool := isVcl u && decide (16 ≤ nalType u) && decide (nalType u ≤ 20)

/-- A NAL unit that begins an access unit where coded data has come before: an access unit delimiter, a parameter set, a prefix SEI or
a reserved or unspecified unit of that kind, or the first slice of a picture. -/
def beginsAu (u : List Byte) : Bool :=
  let t := nalType u
  beginsPicture u || (decide (5 ≤ u.length) && nalLayer u = 0
    && ((decide (32 ≤ t) && decide (t ≤ 35)) || t = 39 || (decide (41 ≤ t) && decide (t ≤ 44)) || (decide (48 ≤ t) && decide (t ≤ 55))))

/-- Where the second access unit begins. -/
def nextAu : Bool → List (Nat × List Byte) → Option Nat
  | _, [] => none
  | seen, (i, u) :: r => if seen && beginsAu u then some i else nextAu (seen || isVcl u) r

/-- The bytes of the first access unit of a byte stream: with a flush, all that is left where no other begins; 0 where its end is not
in the stream. -/
def auLength (bs : List Byte) (flush : Bool) : Nat :=
  match nextAu false (nalUnits bs) with
  | some i => if 0 < i ∧ bs.getD (i - 1) 1 = 0 then i - 1 else i
  | none => if flush then bs.length else 0

/-- The NAL units of layer 0 of an access unit; the others are discarded (R417). -/
def layer0 (bs : List Byte) : List (List Byte) := ((nalUnits bs).map Prod.snd).filter fun u => decide (5 ≤ u.length) && nalLayer u = 0

/-- The profile, the levels and the sizes that the device decodes (R417): Main, Main 10 and Main 4:2:2 10, up to level 6.2. -/
def levels : List Nat := [30, 60, 63, 90, 93, 120, 123, 150, 153, 156, 180, 183, 186]
def sizeFits (w h : Nat) : Bool :=
  decide (0 < w) && decide (0 < h) && decide (w * h ≤ 35651584) && decide (w ≤ 16888) && decide (h ≤ 16888)
def spsFits (p : Config.HevcSps) : Bool :=
  let depth (n : Nat) : Bool := decide (8 ≤ p.depthY) && decide (p.depthY ≤ n) && decide (8 ≤ p.depthC) && decide (p.depthC ≤ n)
  let format := match p.profile with
    | 1 => decide (p.chroma = 1) && depth 8
    | 2 => decide (p.chroma = 1) && depth 10
    | 4 => (decide (p.chroma = 1) || decide (p.chroma = 2)) && depth 10
    | _ => false
  format && decide (p.tier ≤ 1) && levels.contains p.level && sizeFits p.width p.height

/-- The reserve of a CTU (R429): 192 bits in a refresh column or an IDR picture, else 24. -/
def reserve (idr : Bool) (n c k col : Nat) : Nat := if idr || inRefresh n c k col then 192 else 24

/-- The reserves of every CTU of a picture from one on. -/
def reserveFrom (idr : Bool) (n c k total i : Nat) : Nat :=
  ((List.range (total - i)).map fun j => reserve idr n c k ((i + j) % Nat.max 1 c)).sum

end Hevc

namespace Dev

def hs (d : Dev) (s : Nat) : HSession := d.hvc.sessions.getD s HSession.reset
def putHs (d : Dev) (s : Nat) (x : HSession) : Dev := { d with hvc := { d.hvc with sessions := setV d.hvc.sessions s x } }

/-- The fields of a session that take effect at its next picture (R422, Table 15-6), and those that wait for an OPEN. -/
def hvcPicKeys (s : Nat) : List Nat :=
  [R.HVC_S_CTRL_MS s, R.HVC_S_PERIOD s, R.HVC_S_BITRATE s, R.HVC_S_CAP s, R.HVC_S_REFRESH_QP_MIN s, R.HVC_S_REFRESH_QP_MAX s].map Fld.key
def hvcOpenKeys (s : Nat) : List Nat :=
  [R.HVC_S_CTRL_CLASS s, R.HVC_S_CTRL_DIR s, R.HVC_S_CTRL_PROFILE s, R.HVC_S_CTRL_LEVEL_IDC s, R.HVC_S_CTRL_FS s, R.HVC_S_START_LO s,
    R.HVC_S_START_HI s, R.HVC_S_REFRESH_N s, R.HVC_S_BUF_BASE_LO s, R.HVC_S_BUF_BASE_HI s, R.HVC_S_BUF_BYTES s, R.HVC_S_AU_BASE_LO s,
    R.HVC_S_AU_BASE_HI s, R.HVC_S_AU_SIZE s, R.HVC_S_DPB_BASE_LO s, R.HVC_S_DPB_BASE_HI s, R.HVC_S_DPB_BYTES s].map Fld.key

/-- PERIOD in 1/256 lines; a zero is read as 1. -/
def hvcPeriod (d : Dev) (s : Nat) : Nat := Nat.max 1 (d.lv (R.HVC_S_PERIOD s))

/-- The latch line of picture n (R424). -/
def hvcLatch (d : Dev) (s n : Nat) : Nat := (d.lvPair (R.HVC_S_START_LO s) (R.HVC_S_START_HI s) + n * d.hvcPeriod s / 256) % 2 ^ 48

/-- Luma samples per second of a session (R419). -/
def hvcRate (d : Dev) (s : Nat) : Rat :=
  ((d.hs s).w * (d.hs s).h * 256 * d.rateNum * d.lt : Nat) / ((d.hvcPeriod s * d.rateDen : Nat) : Rat)

/-- The admitted LIVE load of a direction (R419). -/
def hvcLoad (d : Dev) (dec : Bool) : Rat :=
  ((List.range 32).filter fun s => (d.hs s).open_ && (d.hs s).live && (d.hs s).dec = dec).foldl (fun a s => a + d.hvcRate s) 0

/-- LOAD shows the admitted rates in Mpx/s (Table 15-5). -/
def showLoad (d : Dev) : Dev :=
  (d.wr R.HVC_LOAD_ENC_LIVE ((d.hvcLoad false / 1000000).floor.toNat)).wr R.HVC_LOAD_DEC_LIVE ((d.hvcLoad true / 1000000).floor.toNat)

/-- CTU columns and rows of a picture. -/
def ctuCols (w : Nat) : Nat := (w + 63) / 64

/-! Opening and closing (R422). -/

/-- The check of an OPEN with the values as they have come into use (R417, R422, R425, R430, R419; log entry 116): the ERROR code, 0 for
a session that opens. -/
def openCheck (d : Dev) (s : Nat) : Nat :=
  let fs := d.lv (R.HVC_S_CTRL_FS s)
  let w := d.fsW fs
  let h := d.fsH fs
  let dec := d.lvb (R.HVC_S_CTRL_DIR s)
  let n := d.lv (R.HVC_S_REFRESH_N s)
  if !(d.lv (R.CMP_FS_CTRL_FMT fs) = 1 || d.lv (R.CMP_FS_CTRL_FMT fs) = 2) ∨ !Hevc.sizeFits w h ∨ d.lv (R.HVC_S_PERIOD s) = 0
      ∨ d.lv (R.HVC_S_BUF_BYTES s) = 0 ∨ d.lv (R.HVC_S_BUF_BASE_LO s) % 4096 ≠ 0 then 2
  else if !dec ∧ (d.lv (R.HVC_S_CTRL_PROFILE s) = 3 ∨ ctuCols w / 4 < n ∨ d.lv (R.HVC_S_AU_SIZE s) < 2
      ∨ d.lv (R.HVC_S_AU_BASE_LO s) % 32 ≠ 0 ∨ !Hevc.levels.contains (d.lv (R.HVC_S_CTRL_LEVEL_IDC s)) ∨ 51 < d.lv (R.HVC_S_REFRESH_QP_MAX s)
      ∨ d.lv (R.HVC_S_REFRESH_QP_MAX s) < d.lv (R.HVC_S_REFRESH_QP_MIN s)) then 2
  else if dec ∧ (d.lv (R.HVC_S_DPB_BASE_LO s) % 4096 ≠ 0 ∨ d.lv (R.HVC_S_DPB_BYTES s) = 0) then 2
  else if !dec ∧ d.lv (R.HVC_S_CAP s) < 16384 + 192 * (ctuCols w * ctuCols h) then 3
  else if d.lvb (R.HVC_S_CTRL_CLASS s) ∧ 2000000000 < d.hvcLoad dec +
      ((w * h * 256 * d.rateNum * d.lt : Nat) : Rat) / ((d.hvcPeriod s * d.rateDen : Nat) : Rat) then 1
  else 0

/-- Drop the frame-store buffer that a session holds as a tap consumer (R228, R423). -/
def hvcRelease (d : Dev) (s : Nat) : Dev := { d with cmp := { d.cmp with holds := d.cmp.holds.filter fun h => h.2 != 256 + s } }

/-- A session is closed. -/
def hvcClosed (d : Dev) (s : Nat) : Dev :=
  let d := (d.hvcRelease s).putHs s HSession.reset
  let d := { d with hvc := { d.hvc with core := d.hvc.core.map fun c => if c = some s then none else c } }
  ((d.wr (R.HVC_S_CTRL_OPEN s) 0).wr (R.HVC_S_STATUS_MIRROR_WAIT s) 0).showLoad

end Dev

/-- SESSION.CMD.OPEN (R422): a LIVE session in LIVE or WARM, a BULK session on the windward only (R437). -/
def actSessionOpen (s : Nat) (d : Dev) : Dev :=
  if (d.hs s).open_ then d.wr (R.HVC_S_STATUS_ERROR s) 5 else
  let keys := Dev.hvcPicKeys s ++ Dev.hvcOpenKeys s
  if d.cm R.HVC_CTRL_EN = 0 || !(if d.cm (R.HVC_S_CTRL_CLASS s) = 1 then d.liveOrWarm else decide (d.state = .live)) then
    d.wr (R.HVC_S_STATUS_ERROR s) 4 else
  let d := d.applyComm fun k => keys.contains k
  let e := d.openCheck s
  let d := d.wr (R.HVC_S_STATUS_ERROR s) e
  if e ≠ 0 then d else
  let fs := d.lv (R.HVC_S_CTRL_FS s)
  let live := d.lvb (R.HVC_S_CTRL_CLASS s)
  let wait := live && d.rdb R.VEER_STATUS_MIRROR && decide (d.state = .warm)
  let d := d.putHs s { HSession.reset with open_ := true, live := live, dec := d.lvb (R.HVC_S_CTRL_DIR s), fs := fs, w := d.fsW fs, h := d.fsH fs, wait := wait }
  ((((d.wr (R.HVC_S_CTRL_OPEN s) 1).wrb (R.HVC_S_STATUS_MIRROR_WAIT s) wait).wr (R.HVC_S_DEV_PTR s) 0).wr (R.HVC_S_AU_PTRS_AU_DEV s) 0).showLoad

/-- SESSION.CMD.CLOSE (R422). -/
def actSessionClose (s : Nat) (d : Dev) : Dev :=
  let x := d.hs s
  if !x.open_ then d
  else if x.pic.isSome && !x.dec then d.putHs s { x with closing := true } else d.hvcClosed s

namespace Dev

/-! Sources (R423, R424). -/

/-- The size of a picture padded to multiples of 8 (R423). -/
def encSize (d : Dev) (s : Nat) : Nat × Nat := (((d.hs s).w + 7) / 8 * 8, ((d.hs s).h + 7) / 8 * 8)

/-- A source sample at the profile's bit depth (R423). -/
def encDepth (d : Dev) (s v : Nat) : Nat := if d.lv (R.HVC_S_CTRL_PROFILE s) = 0 then Nat.min 255 ((v + 2) / 4) else v

/-- A luma sample of the padded source (R423). -/
def encLuma (m : List Host.Cell) (d : Dev) (s : Nat) (b : BufRef) (i j : Nat) : Nat :=
  let i := Nat.min i ((d.hs s).w - 1)
  let j := Nat.min j ((d.hs s).h - 1)
  d.encDepth s (sample10 m (d.blockAddr b i j) (16 * (j % 16) + i % 16))

/-- The source samples of a picture as the encoder takes them (R423): luma, then chroma, of the padded picture. -/
def encSamples (m : List Host.Cell) (d : Dev) (s : Nat) (b : BufRef) : List Nat :=
  let x := d.hs s
  let profile := d.lv (R.HVC_S_CTRL_PROFILE s)
  let (pw, ph) := d.encSize s
  let pair (c i j : Nat) : Nat :=
    let i := Nat.min i ((x.w - 1) / 2)
    let j := Nat.min j (x.h - 1)
    sample10 m (d.blockAddr b (2 * i) j + 320) (2 * (8 * (j % 16) + i % 8) + c)
  let chroma (c i j : Nat) : Nat := if profile = 2 then pair c i j else (pair c i (2 * j) + pair c i (2 * j + 1) + 1) / 2
  let rows := if profile = 2 then ph else ph / 2
  ((List.range ph).flatMap fun j => (List.range pw).map fun i => encLuma m d s b i j) ++
    (List.range 2).flatMap fun c => (List.range rows).flatMap fun j => (List.range (pw / 2)).map fun i => d.encDepth s (chroma c i j)

/-- The settings that a coded picture depends on. -/
def encSettings (d : Dev) (s type k : Nat) : List Nat :=
  [type, k, d.lv (R.HVC_S_CTRL_PROFILE s), d.lv (R.HVC_S_CTRL_LEVEL_IDC s), d.lv (R.HVC_S_CTRL_MS s), d.hvcPeriod s,
    d.lv (R.HVC_S_BITRATE s), d.lv (R.HVC_S_CAP s), d.lv (R.HVC_S_REFRESH_QP_MIN s), d.lv (R.HVC_S_REFRESH_QP_MAX s),
    d.lv (R.HVC_S_REFRESH_N s), d.lv (R.CMP_FS_CTRL_FMT (d.hs s).fs), (d.hs s).w, (d.hs s).h]

/-- The fields that a picture latched now is coded with. -/
def encSet (d : Dev) (s : Nat) : HSet :=
  ⟨d.lvb (R.HVC_S_CTRL_MS s), d.hvcPeriod s, d.lv (R.HVC_S_BITRATE s), d.lv (R.HVC_S_CAP s), d.lv (R.HVC_S_REFRESH_QP_MIN s),
    d.lv (R.HVC_S_REFRESH_QP_MAX s)⟩

/-- The SPS of a session's coded video sequences (R417, R423, R427): VUI transfer characteristics 16 for PQ and 18 for HLG, and the colour
primaries and matrix coefficients of BT.2020 non-constant luminance, which H.265 numbers 9 (log entry 127). -/
def encSps (d : Dev) (s : Nat) : Config.HevcSpsOut :=
  let x := d.hs s
  let (pw, ph) := d.encSize s
  let level := d.lv (R.HVC_S_CTRL_LEVEL_IDC s)
  ⟨d.lv (R.HVC_S_CTRL_PROFILE s), Config.hevcTier level (d.lv (R.HVC_S_BITRATE s)) % 2, level, pw, ph, pw - x.w, ph - x.h,
    if d.lv (R.CMP_FS_CTRL_FMT x.fs) = 1 then 16 else 18, 9, 9, if d.lv (R.HVC_S_REFRESH_N s) = 0 then none else some (0, 0)⟩

/-- The target T of a picture in bits (R428). -/
def encTarget (d : Dev) (p : HSet) : Nat := p.bitrate * 1000 * p.period * d.rateDen / (256 * d.rateNum * d.lt)

/-- There is room for a picture (R434): CAP / 8 bytes and one entry, beyond what the pictures latched before may still take, in rings that
never fill their last place. -/
def encRoom (d : Dev) (s : Nat) : Bool :=
  let ahead := (d.hs s).pic.toList ++ (d.hs s).queue
  let size := 4096 * d.lv (R.HVC_S_BUF_BYTES s)
  let used := (d.rd (R.HVC_S_DEV_PTR s) + size - d.rd (R.HVC_S_CLI_PTR s) % Nat.max 1 size) % Nat.max 1 size
  let n := d.lv (R.HVC_S_AU_SIZE s)
  let au := (d.rd (R.HVC_S_AU_PTRS_AU_DEV s) + n - d.rd (R.HVC_S_AU_PTRS_AU_CLI s) % Nat.max 1 n) % Nat.max 1 n
  decide (used + (ahead.map fun p => p.set.cap / 8).sum + d.lv (R.HVC_S_CAP s) / 8 < size) && decide (au + ahead.length + 1 < n)

/-- The picture that was latched next begins to be coded (R425, R436): from the last coded picture, with the bits of its headers; the
windward's offset at the IDR of a paired restart is known. -/
def encNext (d : Dev) (s : Nat) : Dev :=
  let x := d.hs s
  match x.pic, x.queue with
  | none, p :: rest =>
    let idr := p.type = 1
    let ref := if idr then 0 else x.name
    let name := Config.hevcName ref [p.src, p.type, p.k] []
    let p := { p with name := name, ref := ref, bits := Nat.min 15360 (Config.hevcHead name p.heads) }
    let d := if p.paired then { d with hvc := { d.hvc with offsets := d.hvc.offsets ++ [(s, x.bytes)] } } else d
    let d := d.hvcRelease s
    let d := match p.from_ with
      | some b => { d with cmp := { d.cmp with holds := (b, 256 + s) :: d.cmp.holds } }
      | none => d
    d.putHs s { x with pic := some p, queue := rest, rowBits := if idr then [] else x.rowBits }
  | _, _ => d

/-- A picture is latched from a buffer, of which the encoder takes the samples (R423 to R426): the first of a coded video sequence is an
IDR picture. It is coded once the one before is complete (log entry 127). -/
def encStart (m : List Host.Cell) (d : Dev) (s : Nat) (b : BufRef) (latch : Nat) (again : Bool) : Dev :=
  let x := d.hs s
  let n := x.n
  let x := { x with n := n + 1 }
  if !d.encRoom s then (d.putHs s x).cnt (R.HVC_S_DROP_FULL s) else
  let cyc := d.lv (R.HVC_S_REFRESH_N s)
  let idr := x.coded = 0
  let k := if idr ∨ cyc = 0 then 0 else (x.coded - 1) % cyc
  let type := if idr then 1 else if cyc ≠ 0 ∧ k = 0 then 2 else 3
  let wait := x.wait && !(idr && x.fresh)
  let idrN := if idr then n else x.idrN
  let pic : HPic :=
    { n := n, latch := latch, due := d.bufDue m b, repeat_ := again, row := 0, rows := ctuCols x.h, cols := ctuCols x.w,
      bits := 0, heads := Hevc.headers (d.encSps s) idr cyc (ctuCols x.w) k, hold := wait, rowBits := [], name := 0, qp := 0, type := type, k := k,
      fallback := false, wd := false, poc := n - idrN, bad := false, bump := 0, src := Config.hevcName 0 (d.encSettings s type k) (d.encSamples m s b),
      set := d.encSet s, from_ := some b, ref := 0, paired := idr && x.fresh && d.rdb R.VEER_STATUS_MIRROR && d.state = .live && x.live, gone := [] }
  ((d.putHs s { x with queue := x.queue ++ [pic], buf := some (b, d.bufSeq m b), idrN := idrN, wait := wait, fresh := x.fresh && !idr
                       coded := x.coded + 1 }).wrb (R.HVC_S_STATUS_MIRROR_WAIT s) wait).encNext s

/-- The latch of a LIVE encode session at its latch line (R424), whether or not the picture before is complete. A frame that has been
written between the one taken before and this one is passed over, whether or not its buffer has been used again. -/
def encLatch (m : List Host.Cell) (d : Dev) (s : Nat) : Dev :=
  let x := d.hs s
  if !x.open_ || x.dec || !x.live || x.closing || d.cm R.HVC_CTRL_EN = 0 || d.hvcLatch s x.n ≠ d.wtm.wln then d else
  let keys := hvcPicKeys s
  let d := d.applyComm fun k => keys.contains k
  match dueBuf m d x.fs with
  | none => (d.putHs s { x with n := x.n + 1 }).cnt (R.HVC_S_DROP_FULL s)
  | some b =>
    let seq := d.bufSeq m b
    match x.buf with
    | none => d.encStart m s b d.wtm.wln false
    | some (c, q) =>
      if c = b ∧ q = seq then d.encStart m s b d.wtm.wln true else
      (d.addCnt (R.HVC_S_SRC_SKIP s) (diff32 seq q - 1).toNat).encStart m s b d.wtm.wln false

/-- Latch lines that lie behind are passed over: after an OPEN beyond START_WLN, a new PERIOD or a step of the WLN (log entry 116). -/
def encCatch (d : Dev) (s : Nat) : Dev :=
  let x := d.hs s
  let p := d.hvcPeriod s
  let gone := sext 48 (d.wtm.wln + 2 ^ 48 - d.lvPair (R.HVC_S_START_LO s) (R.HVC_S_START_HI s))
  if x.open_ && !x.dec && x.live && decide (0 < sext 48 (d.wtm.wln + 2 ^ 48 - d.hvcLatch s x.n)) then
    d.putHs s { x with n := (gone.toNat * 256 + p - 1) / p }
  else d

/-- A BULK encode session takes the next complete buffer in SEQ order as soon as it has finished the picture before (R424) and
there is room for a picture (R434; log entry 116). -/
def bulkStart (m : List Host.Cell) (d : Dev) (s : Nat) : Dev :=
  let x := d.hs s
  if !x.open_ || x.dec || x.live || x.closing || x.pic.isSome || d.cm R.HVC_CTRL_EN = 0 then d else
  let newer (b : BufRef) : Bool := d.bufState m b = 2 && (match x.buf with
    | some (_, q) => decide (0 < sext 32 (d.bufSeq m b + 2 ^ 32 - q))
    | none => true)
  let first := ((bufs x.fs).filter newer).foldl (fun best b => match best with
    | none => some b
    | some c => if 0 < sext 32 (d.bufSeq m c + 2 ^ 32 - d.bufSeq m b) then some b else some c) (none : Option BufRef)
  match first with
  | none => d
  | some b =>
    let keys := hvcPicKeys s
    let d := d.applyComm fun k => keys.contains k
    if d.encRoom s then d.encStart m s b d.wtm.wln false else d

/-! Coding rows (R428, R429). -/

/-- How the core searches in a picture (R431 to R433), against the picture's source and the picture it predicts from. -/
def encSearch (m : List Host.Cell) (d : Dev) (s : Nat) (p : HPic) (qp x y w h : Nat) (pred : Int × Int) : Option (Int × Int) :=
  let (pw, ph) := d.encSize s
  let depth := if d.lv (R.HVC_S_CTRL_PROFILE s) = 0 then 8 else 10
  let src := Hevc.padded pw ph fun i j => match p.from_ with
    | some b => encLuma m d s b i j
    | none => 0
  let sad := Hevc.sadOf depth src (Hevc.padded pw ph (Config.hevcRecon p.ref)) x y w h
  let ok (v : Int × Int) : Bool := Hevc.vectorOk v && Hevc.refreshAllows (d.lv (R.HVC_S_REFRESH_N s)) p.cols p.k (x, w) v
  if p.set.window then Hevc.window qp sad ok pred else Hevc.hier qp sad ok pred

/-- How a CTU is coded (R425 to R427): intra in an IDR picture and in a refresh column. -/
def ctuMode (m : List Host.Cell) (d : Dev) (s : Nat) (p : HPic) (qp i : Nat) : Config.HevcMode :=
  let n := d.lv (R.HVC_S_REFRESH_N s)
  if p.type = 1 || Hevc.inRefresh n p.cols p.k (i % Nat.max 1 p.cols) then .intra
  else .inter (encSearch m d s p qp) fun x w v => Hevc.refreshAllows n p.cols p.k (x, w) v

/-- A CTU in fallback (R429): the guard pattern in a refresh column or an IDR picture; elsewhere SKIP with the first merge candidate whose
vector is zero, or candidate 0 where there is none. -/
def ctuGuard (d : Dev) (s : Nat) (p : HPic) (i : Nat) : Config.HevcGuard :=
  if p.type = 1 || Hevc.inRefresh (d.lv (R.HVC_S_REFRESH_N s)) p.cols p.k (i % Nat.max 1 p.cols) then .dc 51
  else
    let l := Config.hevcMerge p.name i
    .skip (if l.contains (0, 0) then l.idxOf (0, 0) else 0)

/-- The QP of a row (R428): chosen for the row's allotment and what the rows before have left, within QP_MIN to QP_MAX, and at most 2 away from the row before. -/
def rowQp (d : Dev) (s : Nat) (p : HPic) : Nat :=
  let lo := p.set.qpMin
  let hi := Nat.max lo (Nat.min 51 p.set.qpMax)
  let t := d.encTarget p.set
  let before := (d.hs s).rowBits
  let budget := Hevc.allotment t p.rows before p.row + Hevc.unspent t p.rows before p.rowBits
  let want := clampNat (Config.hevcQp p.name budget p.row) lo hi
  if p.row = 0 then want else clampNat (clampNat want (p.qp - 2) (p.qp + 2)) lo hi

/-- One CTU of the row in hand (R429): coded, or, from the first that would not leave the reserves, in fallback. What was coded goes into
the picture's name. -/
def codeCtu (m : List Host.Cell) (d : Dev) (s : Nat) (qp : Nat) (p : HPic) (i : Nat) : HPic :=
  let n := d.lv (R.HVC_S_REFRESH_N s)
  let idr := p.type = 1
  let col := i % Nat.max 1 p.cols
  let q := Hevc.reserveFrom idr n p.cols p.k (p.rows * p.cols) (i + 1)
  let c := Config.hevcCtu (ctuMode m d s p qp i) p.name i qp
  let spent := decide (p.set.cap < p.bits + c.1 + 1024 + q)
  if p.fallback || spent then
    let g := d.ctuGuard s p i
    let kind := match g with
      | .skip k => [i, 1, k]
      | .dc v => [i, 2, v]
    { p with fallback := true, bits := p.bits + Nat.min (Hevc.reserve idr n p.cols p.k col) (Config.hevcFallback g p.name i)
             name := Config.hevcName p.name kind [] }
  else { p with bits := p.bits + c.1, name := Config.hevcName p.name [i, 0, c.2] [] }

/-- The next CTU row of a picture is done; from its CTU `cut` on, if that is given, in fallback (R435). -/
def codeRow (m : List Host.Cell) (d : Dev) (s : Nat) (cut : Option Nat) (p : HPic) : HPic :=
  if (d.hs s).dec then { p with row := p.row + 1 } else
  let qp := d.rowQp s p
  let q := (List.range p.cols).foldl (fun p c =>
    codeCtu m d s qp (if cut = some c then { p with fallback := true } else p) (p.row * p.cols + c)) p
  { q with qp := qp, row := p.row + 1, rowBits := p.rowBits ++ [q.bits - p.bits] }

/-- A session has a row to do on its core. -/
def rowReady (d : Dev) (s : Nat) : Bool :=
  match (d.hs s).pic with
  | some p => decide (p.row < p.rows) && ((d.hs s).live || !d.lulling (.hevc (Fin.ofNat 32 s)))
  | none => false

/-- The session whose row a core takes next (R420): the earliest deadline among LIVE sessions, then BULK sessions in rotation,
one picture each: while the session whose turn it is takes a lull, no other BULK session goes on. -/
def nextRow (d : Dev) (dec : Bool) : Option Nat :=
  let mine := (List.range 32).filter fun s => (d.hs s).open_ && (d.hs s).dec = dec && d.rowReady s
  let dl (s : Nat) : Nat := (match (d.hs s).pic with
    | some p => p.latch + (if dec then d.hvcPeriod s else p.set.period) / 256
    | none => 0)
  let live := (mine.filter fun s => (d.hs s).live).foldl (fun b s => match b with
    | none => some s
    | some c => if 0 < sext 48 (dl c + 2 ^ 48 * 4 - dl s) then some s else some c) (none : Option Nat)
  match live with
  | some s => some s
  | none =>
    let t := d.hvc.turn.getD (b2n dec) 0
    let due (s : Nat) : Bool := (d.hs s).open_ && (d.hs s).dec = dec && !(d.hs s).live && (match (d.hs s).pic with
      | some p => decide (p.row < p.rows)
      | none => false)
    (((List.range 32).map fun i => (t + i) % 32).find? due).filter fun s => mine.contains s

end Dev

/-- A core reaches a CTU-row boundary (R420, R421): the row in progress is done, and the core takes the next. -/
def actCtuRow (dec : Bool) (m : List Host.Cell) (d : Dev) : Dev :=
  let i := b2n dec
  let d := (List.range 32).foldl (fun d s => d.bulkStart m s) d
  let d := match d.hvc.core.getD i none with
    | none => d
    | some s =>
      match (d.hs s).pic with
      | none => d
      | some p =>
        let p := if p.row < p.rows then Dev.codeRow m d s none p else p
        let d := d.putHs s { d.hs s with pic := some p }
        if (d.hs s).live then d else
        let d := if p.row < p.rows then d else { d with hvc := { d.hvc with turn := setV d.hvc.turn i ((s + 1) % 32) } }
        d.takeLulls (.hevc (Fin.ofNat 32 s)) 1
  let next := d.nextRow dec
  let d := match next with
    | some s => if (d.hs s).live then d else { d with hvc := { d.hvc with turn := setV d.hvc.turn i s } }
    | none => d
  { d with hvc := { d.hvc with core := setV d.hvc.core i next } }

namespace Dev

/-! Completing pictures (R434, R435, R438 to R441). -/

/-- Write bytes into a byte ring of a size from an offset on, in a traffic class. -/
def ringWrite (d : Dev) (base size off : Nat) (bs : List Byte) (cls : TrafficClass) : Dev :=
  let k := Nat.min bs.length (size - off)
  let d := if k = 0 then d else d.memWrite (base + off) (bs.take k) cls
  if bs.length ≤ k then d else d.memWrite base (bs.drop k) cls

/-- The n bytes of a byte ring from an offset on. -/
def ringRead (m : List Host.Cell) (base size off n : Nat) : List Byte :=
  let k := Nat.min n (size - off)
  Memory.bytes m (base + off) k ++ Memory.bytes m base (n - k)

/-- An encoded picture is complete: its access unit, its AU entry, then the pointers (R434, Table 15-2). -/
def encDone (d : Dev) (s : Nat) (p : HPic) : Dev :=
  let x := d.hs s
  let bits := p.bits + Nat.min 1024 (Config.hevcTail p.name)
  let len := Nat.min ((Nat.min bits p.set.cap + 7) / 8) (p.set.cap / 8)
  let size := 4096 * d.lv (R.HVC_S_BUF_BYTES s)
  let base := d.lvPair (R.HVC_S_BUF_BASE_LO s) (R.HVC_S_BUF_BASE_HI s)
  let off := d.rd (R.HVC_S_DEV_PTR s)
  let au := d.rd (R.HVC_S_AU_PTRS_AU_DEV s)
  let n := Nat.max 1 (d.lv (R.HVC_S_AU_SIZE s))
  let flags := b2n p.fallback + 2 * b2n p.wd + 4 * b2n p.repeat_
  let entry := leBytes 8 x.bytes ++ leBytes 4 len ++ leBytes 4 p.poc ++ leBytes 1 p.type ++ leBytes 1 flags ++ leBytes 6 p.due
    ++ List.replicate 8 0
  let d := d.cnt (R.HVC_S_PICTURES s)
  let d := if p.fallback then d.cnt (R.HVC_S_FALLBACK_PIC s) else d
  let d := d.hvcRelease s
  let name := p.name
  let x := { x with pic := none, name := name, rowBits := p.rowBits }
  if p.hold then (d.putHs s x).encNext s else
  let d := (d.ringWrite base size off ((List.range len).map fun i => Config.hevcByte name p.heads bits i) (Requester.hevc x.live).cls).memWrite
    (d.lvPair (R.HVC_S_AU_BASE_LO s) (R.HVC_S_AU_BASE_HI s) + 32 * au) entry (Requester.hevc x.live).cls
  let d := (d.wr (R.HVC_S_DEV_PTR s) ((off + len) % Nat.max 1 size)).wr (R.HVC_S_AU_PTRS_AU_DEV s) ((au + 1) % n)
  let k := Nat.min len (size - off)
  let d := d.recordUnit 1 s ([(base + off, k), (base, len - k)].filter fun p => decide (0 < p.2)) none
  (d.putHs s { x with bytes := x.bytes + len, latches := x.latches ++ [p.latch] }).encNext s

/-- A sample of a decoded picture at its bit depth (R440): a concealed CTU takes the co-located CTU of the picture before, or mid-grey. `i`
is its CTU. -/
def imgSample (depth c x y i : Nat) : HImage → Nat
  | [] => 2 ^ (depth - 1)
  | (name, gone) :: r =>
    if gone.any fun g => decide (g.1 ≤ i) && decide (i < g.2) then imgSample depth c x y i r
    else Config.hevcSample name c x y % 2 ^ depth

/-- A decoded picture as the bytes of its 4:2:2 blocks (R438): samples of 8 bits shifted left by 2, and a chroma row of 4:2:0 in both
rows that it covers. -/
def decBlocks (w h : Nat) (f : HFrame) : List Byte :=
  let ctu (x y : Nat) : Nat := y / 64 * ctuCols w + x / 64
  let luma (x y : Nat) : Nat := imgSample f.depthY 0 x y (ctu x y) f.img * 2 ^ (10 - f.depthY)
  let chroma (c x y : Nat) : Nat := imgSample f.depthC c (x / 2) (if f.c420 then y / 2 else y) (ctu x y) f.img * 2 ^ (10 - f.depthC)
  (blockList w h).flatMap fun (bx, by_) =>
    pack10 ((List.range 256).map fun i =>
      let x := 16 * bx + i % 16
      let y := 16 * by_ + i / 16
      if x < w ∧ y < h then luma x y else 0) ++
    pack10 ((List.range 128).flatMap fun i =>
      let x := 16 * bx + 2 * (i % 8)
      let y := 16 * by_ + i / 8
      if x < w ∧ y < h then [chroma 1 x y, chroma 2 x y] else [0, 0])

/-- The order of output: by coded video sequence, then by POC, a ghost after the picture of its POC. -/
def outBefore (f g : HFrame) : Bool :=
  decide (f.cvs < g.cvs) || (f.cvs = g.cvs && (decide (f.poc < g.poc) || (f.poc = g.poc && !f.ghost && g.ghost)))

/-- The frame that is first in output order. -/
def firstOut (l : List HFrame) : Option HFrame :=
  l.foldl (fun b f => match b with
    | none => some f
    | some g => if outBefore f g then some f else some g) none

/-- Ghosts that come first in output order take their numbers (R440). -/
def passGhosts (d : Dev) (s : Nat) : Dev :=
  (List.range (d.hs s).dpb.length).foldl (fun d _ =>
    let x := d.hs s
    match firstOut x.dpb with
    | some f => if f.ghost then d.putHs s { x with dpb := x.dpb.erase f, shown := x.shown + 1 } else d
    | none => d) d

/-- One picture goes out in output order (R438, R440). -/
def putOut (d : Dev) (s : Nat) : Dev :=
  let d := d.passGhosts s
  let x := d.hs s
  match firstOut x.dpb with
  | none => d
  | some f =>
    let due := d.hvcLatch s x.shown
    let d := d.putHs s { x with dpb := x.dpb.erase f, shown := x.shown + 1 }
    if f.write then
      let w : FsFrame := ⟨x.fs, decBlocks x.w x.h f, due, if f.bad then 256 else 0, none, (Requester.hevc x.live).cls, none⟩
      let d := { d with cmp := { d.cmp with waiting := d.cmp.waiting ++ [w] } }
      let d := d.cnt (R.HVC_S_PICTURES s)
      if f.bad then d.cnt (R.HVC_S_CONCEALED s) else d
    else d

/-- The core writes a picture into its session's decoded picture buffer and nowhere else (R439): which bytes of the buffer change, and to
what, is a free value (log entry 127). -/
def dpbWrite (d : Dev) (s : Nat) : Dev :=
  let size := 4096 * d.lv (R.HVC_S_DPB_BYTES s)
  if size = 0 then d else
  let off := d.freeVal 46 % size
  let d := d.drawn
  let n := 1 + d.freeVal 47 % (size - off)
  let d := d.drawn
  { d.memWrite (d.lvPair (R.HVC_S_DPB_BASE_LO s) (R.HVC_S_DPB_BASE_HI s) + off) ((List.range n).map fun j => BitVec.ofNat 8 (Config.freeValue 48 (d.free + j)))
      (Requester.hevc (d.hs s).live).cls with free := d.free + n }

/-- A decoded picture is complete: where it has concealed CTUs, they come from the picture before (R440). -/
def decDone (d : Dev) (s : Nat) (p : HPic) : Dev :=
  let x := d.hs s
  let img : HImage := (p.name, p.gone) :: (if p.gone = [] then [] else x.last)
  let f : HFrame := ⟨x.cvs, p.poc, img, x.depths.1, x.depths.2.1, x.depths.2.2, p.bad, x.joined && !x.wait, false⟩
  let d := (d.putHs s { x with pic := none, last := img, dpb := x.dpb ++ [f] }).dpbWrite s
  (List.range p.bump).foldl (fun d _ => d.putOut s) d

end Dev

/-- A picture whose rows are all done is complete (R434, R438); a session that is closing closes with it (R422). -/
def actPictureDone (s : Nat) (d : Dev) : Dev :=
  match (d.hs s).pic with
  | none => d
  | some p =>
    if p.row < p.rows then d else
    let closing := (d.hs s).closing
    let d := if (d.hs s).dec then d.decDone s p else d.encDone s p
    if closing then d.hvcClosed s else d

/-- A picture is not complete within three periods (R435, Table 15-3): the rest is fallback from its next CTU, or concealed. How far the row
in hand has come is a free value. A BULK session's turn ends with its picture (R420). -/
def actPictureWatchdog (s : Nat) (m : List Host.Cell) (d : Dev) : Dev :=
  match (d.hs s).pic with
  | none => d
  | some p =>
    let since := if (d.hs s).dec then p.due else p.latch
    let i := b2n (d.hs s).dec
    let period := if (d.hs s).dec then d.hvcPeriod s else p.set.period
    if p.rows ≤ p.row ∨ sext 48 (d.wtm.wln + 2 ^ 48 - since) < ((3 * period / 256 : Nat) : Int) then d else
    let cut := if d.hvc.core.getD i none = some s then d.freeVal 49 % Nat.max 1 p.cols else 0
    let d := d.drawn.cnt (R.HVC_S_WATCHDOG s)
    let p := if (d.hs s).dec then { p with row := p.rows, bad := true, gone := p.gone ++ [(p.row * p.cols, p.rows * p.cols)] } else
      (List.range (p.rows - p.row - 1)).foldl (fun p _ => Dev.codeRow m d s none p) (Dev.codeRow m d s (some cut) { p with wd := true, fallback := p.fallback || cut = 0 })
    let d := d.putHs s { d.hs s with pic := some p }
    let d := { d with hvc := { d.hvc with core := d.hvc.core.map fun c => if c = some s then none else c } }
    if !(d.hs s).live && decide (d.hvc.turn.getD i 0 = s) then { d with hvc := { d.hvc with turn := setV d.hvc.turn i ((s + 1) % 32) } } else d

/-- The place of an access unit that is discarded (R440): after what the decoded picture buffer holds. -/
def Dev.ghostOf (x : HSession) : HFrame :=
  let last := x.dpb.foldl (fun b f => if Dev.outBefore b f then f else b) ⟨x.cvs, 0, [], 10, 10, false, false, false, true⟩
  { last with ghost := true }

/-- The decoder takes the next access unit of its ring (R438 to R441). -/
def takeAu (s : Nat) (flush : Bool) (m : List Host.Cell) (d : Dev) : Dev :=
  let x := d.hs s
  if !x.open_ || !x.dec || x.closing || x.pic.isSome || d.cm R.HVC_CTRL_EN = 0 then d else
  let size := Nat.max 1 (4096 * d.lv (R.HVC_S_BUF_BYTES s))
  let base := d.lvPair (R.HVC_S_BUF_BASE_LO s) (R.HVC_S_BUF_BASE_HI s)
  let off := d.rd (R.HVC_S_DEV_PTR s)
  let n := (d.rd (R.HVC_S_CLI_PTR s) % size + size - off) % size
  let bs := Dev.ringRead m base size off n
  let len := Nat.min (Hevc.auLength bs flush) n
  if len = 0 then d else
  let keys := Dev.hvcPicKeys s
  let d := (d.wr (R.HVC_S_DEV_PTR s) ((off + len) % size)).applyComm fun k => keys.contains k
  let x := { x with flush := false }
  let units := Hevc.layer0 (bs.take len)
  let irap := units.any Hevc.isIrap
  let au := Config.hevcParse units.flatten
  let ok := match au.sps with
    | none => x.spsOk
    | some p => Hevc.spsFits p && decide (p.width - p.cropCols = x.w) && decide (p.height - p.cropRows = x.h)
        && decide (Config.hevcDpbBytes p ≤ 4096 * d.lv (R.HVC_S_DPB_BYTES s))
  let d := if au.sps.isSome && !ok then d.cnt (R.HVC_S_SPS_REFUSED s) else d
  let x := { x with spsOk := ok }
  if !ok then d.putHs s x else
  let x := { x with
    depths := (au.sps.map fun (p : Config.HevcSps) => (p.depthY, p.depthC, decide (p.chroma = 1))).getD x.depths
    cvs := if units.any Hevc.newCvs then x.cvs + 1 else x.cvs }
  if !au.decodable then d.putHs s { x with n := x.n + 1, dpb := x.dpb ++ [Dev.ghostOf x], shown := x.shown } else
  let d := d.addCnt (R.HVC_S_SYNTAX_ERR s) au.bad.length
  let begin_ (needed : Bool) (old : Option Nat) (ok : Bool) : Option Nat := match au.recovery with
    | some (c, e) => if needed && (e || ok) then some (old.getD (au.poc + c)) else old
    | none => old
  let ended (r : Option Nat) : Bool := irap || (match r with
    | some p => decide (p ≤ au.poc)
    | none => false)
  let recover := begin_ (!x.joined) x.recover true
  let exact := begin_ x.wait x.exact false
  let joined := x.joined || ended recover
  let wait := x.wait && !ended exact
  let first := Nat.min len (size - off)
  let dpb := d.unreadable (d.lvPair (R.HVC_S_DPB_BASE_LO s) (R.HVC_S_DPB_BASE_HI s)) (4096 * d.lv (R.HVC_S_DPB_BYTES s))
  let dram := d.unreadable (base + off) first || d.unreadable base (len - first) || (!irap && dpb && d.freeVal 45 % 2 = 1)
  let d := d.drawn
  let ctus := Dev.ctuCols x.w * Dev.ctuCols x.h
  let gone := au.bad ++ if dram then [(d.freeVal 50 % Nat.max 1 ctus, ctus)] else []
  let d := d.drawn
  let pic : HPic :=
    { n := x.n, latch := if x.live then d.hvcLatch s x.n else d.wtm.wln, due := d.wtm.wln, repeat_ := false, row := 0, rows := Dev.ctuCols x.h,
      cols := Dev.ctuCols x.w, bits := 0, heads := [], hold := false, rowBits := [], name := Config.hevcDecoded x.last units.flatten, qp := 0, type := 0, k := 0,
      fallback := false, wd := false, poc := au.poc, bad := !au.bad.isEmpty || au.lostRef || dram || !joined, bump := au.bump
      src := 0, set := d.encSet s, from_ := none, ref := 0, paired := false, gone := gone }
  (d.putHs s { x with pic := some pic, joined := joined, wait := wait, recover := if joined then none else recover
                      exact := if wait then exact else none, n := x.n + 1 }).wrb
    (R.HVC_S_STATUS_MIRROR_WAIT s) wait

/-- ACCESS_UNIT_TAKE (R438): also where a flush waits for the picture in progress. -/
def actAuTake (s : Nat) (m : List Host.Cell) (d : Dev) : Dev := takeAu s (d.hs s).flush m d

/-- SESSION.CMD.FLUSH (R438). -/
def actSessionFlush (s : Nat) (m : List Host.Cell) (d : Dev) : Dev :=
  let x := d.hs s
  if !x.open_ || !x.dec then d
  else if x.pic.isSome then d.putHs s { x with flush := true } else takeAu s true m d

/-- A write of RESTART_ARM (R436, W1S). -/
def actRestartArm (v : Nat) (d : Dev) : Dev := if bit v 0 then d.wr R.HVC_RESTART_ARM_ARM 1 else d

namespace Dev

/-- The LIVE encode sessions begin a new coded video sequence, at an armed restart or after a takeover (R436, R437). -/
def hvcNewCvs (d : Dev) (armed : Bool) : Dev :=
  { d with hvc := { d.hvc with sessions := d.hvc.sessions.map fun x =>
      if x.open_ && x.live && !x.dec then { x with coded := 0, rowBits := [], fresh := armed } else x } }

/-- The HEVC block at a line boundary: an armed paired restart, then the latches (R424, R436). -/
def hvcLine (m : List Host.Cell) (d : Dev) : Dev :=
  let at_ := d.rdPair R.HVC_RESTART_AT_LO R.HVC_RESTART_AT_HI
  let d := if d.rdb R.HVC_RESTART_ARM_ARM && decide (0 ≤ sext 48 (d.wtm.wln + 2 ^ 48 - at_)) then (d.hvcNewCvs true).wr R.HVC_RESTART_ARM_ARM 0 else d
  (List.range 32).foldl (fun d s => (d.encCatch s).encLatch m s) d

/-- Mirror mode begins on the incoming device: its LIVE sessions withhold output (R436, R441), that of pictures decoded before among it. -/
def hvcMirror (d : Dev) : Dev :=
  (List.range 32).foldl (fun d s =>
    let x := d.hs s
    let dpb := if x.dec then x.dpb.map fun f => { f with write := false } else x.dpb
    if x.open_ && x.live then (d.putHs s { x with wait := true, dpb := dpb }).wr (R.HVC_S_STATUS_MIRROR_WAIT s) 1 else d) d

/-- Mirror mode ends on the device that was to come in: nothing is withheld any more (R436, R441). -/
def hvcUnmirror (d : Dev) : Dev :=
  (List.range 32).foldl (fun d s =>
    let x := d.hs s
    if x.wait then (d.putHs s { x with wait := false }).wr (R.HVC_S_STATUS_MIRROR_WAIT s) 0 else d) d

/-- A device leaves LIVE: its BULK sessions close with STATE (R437). -/
def hvcLeaveLive (d : Dev) : Dev :=
  (List.range 32).foldl (fun d s =>
    if (d.hs s).open_ && !(d.hs s).live then (d.hvcClosed s).wr (R.HVC_S_STATUS_ERROR s) 4 else d) d

/-- The engines stop (R342): every session closes. -/
def hvcStop (d : Dev) : Dev :=
  (List.range 32).foldl (fun d s => if (d.hs s).open_ then d.hvcClosed s else d) d

/-- The windward's stream offset of a session at a paired restart (R436). -/
def hvcOffset (d : Dev) (s bytes : Nat) : Dev := d.putHs s { d.hs s with bytes := bytes }

end Dev

def execCtuRowDone (dec : Bool) (s : State) : Host.Outcome State Fault Refusal := run s fun m d => actCtuRow dec m d
def execPictureComplete (session : Fin 32) (s : State) : Host.Outcome State Fault Refusal := run s fun _ d => actPictureDone session d
def execPictureWatchdog (session : Fin 32) (s : State) : Host.Outcome State Fault Refusal := run s fun m d => actPictureWatchdog session m d
def execAccessUnitTake (session : Fin 32) (s : State) : Host.Outcome State Fault Refusal := run s fun m d => actAuTake session m d

end Sys2Proof.Machine
end

