-- ==== Sys2Proof/Machine/Audio.lean ====
section
/-!
DEFINITION. The audio ports (chapter 16): frames and their indices, the capture rings, non-audio payload, the output
slots with their delays, rate and framing errors.
-/

namespace Sys2Proof.Machine
namespace Dev

/-! Domains, frames and slots (R442 to R445). -/

def audDom (d : Dev) (k : Nat) : AudDom := d.aud.doms.getD k ⟨none, none, 0, false, false⟩
def putAudDom (d : Dev) (k : Nat) (x : AudDom) : Dev := { d with aud := { d.aud with doms := setV d.aud.doms k x } }
def audIn (d : Dev) (p : Nat) : AudIn := d.aud.ins.getD p ⟨none, false, 0, [], []⟩
def putAudIn (d : Dev) (p : Nat) (x : AudIn) : Dev := { d with aud := { d.aud with ins := setV d.aud.ins p x } }
def audSlot (d : Dev) (i : Nat) : AudSlot := d.aud.slots.getD i ⟨none, none⟩
def putAudSlot (d : Dev) (i : Nat) (x : AudSlot) : Dev := { d with aud := { d.aud with slots := setV d.aud.slots i x } }

/-- The family of the audio domains in Table 2-17, counted from 0. -/
def audFamily : Nat := 13

/-- FS_HZ of a domain, 8,000 to 192,000 (R566), and with its FRAME_BITS at most 49.152 MHz (R442). DEDUCED (log entry 84): FS_HZ acts as the
nearer limit there too. -/
def audFs (d : Dev) (k : Nat) : Nat :=
  Nat.min (clampNat (d.rd (R.AUD_DOM_FS_FS_HZ k)) 8000 192000) (49152000 / d.frameBits k)

/-- MCLK of a domain's family (R442). -/
def audMclk (d : Dev) (k : Nat) : Nat := if d.rdb (R.AUD_DOM_CTRL_FAMILY k) then 45158400 else 49152000

/-- The clocks that a master drives for a frame (R442): BDIV divides by 1, 2, 4 or 8. -/
def audClock (d : Dev) (k : Nat) : Out :=
  .audioClock k (d.audMclk k) (2 ^ d.rd (R.AUD_DOM_CTRL_BDIV k)) (d.frameBits k) (d.rdb (R.AUD_DOM_CTRL_FS_EDGE k))

/-- The index of the frame that starts at an STC instant (R444). -/
def audIndex (d : Dev) (k : Nat) (t : Time) : Nat := divRound (t * d.audFs k) secUnits % 2 ^ 48

/-- The STC instant n / FS_HZ, to the nearest ns: where a master places frame start n (R444). -/
def audStart (d : Dev) (k n : Nat) : Time := nanos (divRound (n * 1000000000) (d.audFs k))

/-- Bits of a slot: the codes of WIDTH and SBITS (Tables 16-4 and 16-5). -/
def audBits (code : Nat) : Nat := 16 + 8 * code

/-- A port's geometry obeys R443. -/
def audGeomOk (d : Dev) (k width sbits offset slots : Nat) : Bool :=
  width != 3 && sbits != 3 && decide (sbits ≤ width) &&
    decide (offset + (slots + 1) * audBits width ≤ d.frameBits k)

/-- The settings of an input port in use are ones that the port can run (R443, R447). -/
def audInOk (d : Dev) (p : Nat) : Bool :=
  d.audGeomOk (d.lv (R.AUD_IN_CTRL_DOM p)) (d.lv (R.AUD_IN_CTRL_WIDTH p)) (d.lv (R.AUD_IN_CTRL_SBITS p))
    (d.lv (R.AUD_IN_CTRL_OFFSET p)) (d.lv (R.AUD_IN_CTRL_SLOTS p)) && decide (d.lv (R.AUD_IN_CTRL_PACK p) ≤ 4)

/-- The settings of an output port in use are ones that the port can run (R443). -/
def audOutOk (d : Dev) (p : Nat) : Bool :=
  d.audGeomOk (d.lv (R.AUD_OUT_CTRL_DOM p)) (d.lv (R.AUD_OUT_CTRL_WIDTH p)) (d.lv (R.AUD_OUT_CTRL_SBITS p))
    (d.lv (R.AUD_OUT_CTRL_OFFSET p)) (d.lv (R.AUD_OUT_CTRL_SLOTS p))

/-- An input port captures. -/
def audInRuns (d : Dev) (p : Nat) : Bool := d.lvb (R.AUD_IN_CTRL_EN p) && d.audInOk p

/-- An output port drives. -/
def audOutRuns (d : Dev) (p : Nat) : Bool := d.lvb (R.AUD_OUT_CTRL_EN p) && d.audOutOk p

/-! The ring (R446 to R448). -/

def audSlots (d : Dev) (p : Nat) : Nat := d.lv (R.AUD_IN_CTRL_SLOTS p) + 1

/-- Bytes of a stored sample (Table 16-1). -/
def audBytes (pack : Nat) : Nat := match pack with
  | 0 => 2
  | 1 => 3
  | _ => 4

/-- The frames that a port's ring holds. -/
def audRing (d : Dev) (p : Nat) : Nat := d.ringBlocks p * 64

/-- A left-aligned sample as it is stored (Table 16-1). -/
def audPack (pack x : Nat) : List Byte :=
  match pack with
  | 0 => leBytes 2 (x / 65536)
  | 1 => leBytes 3 (x / 256)
  | 2 => leBytes 4 (x / 256 * 256)
  | 3 => leBytes 4 (ofInt 32 (sext 24 (x / 256)))
  | _ => leBytes 4 x

/-- A stored sample expanded to 32 bits, left-aligned, with zero low bits (R447). -/
def audUnpack (pack : Nat) (bs : List Byte) : Nat :=
  match pack with
  | 0 => leNat bs * 65536
  | 1 => leNat bs * 256
  | 2 => leNat bs / 256 * 256
  | 3 => leNat bs % 2 ^ 24 * 256
  | _ => leNat bs

/-- The address of a frame's sample of a slot. -/
def audAddr (d : Dev) (p n slot : Nat) : Nat :=
  d.lvPair (R.AUD_IN_RING_BASE_LO p) (R.AUD_IN_RING_BASE_HI p) +
    (n % d.audRing p * d.audSlots p + slot) * audBytes (d.lv (R.AUD_IN_CTRL_PACK p))

/-- The sample that a slot carries, left-aligned to 32 bits (R443, R447). The line holds the level at the rising edge, then at the
falling edge of each bit clock from the frame start on; the active edge is the falling one with BCLK_INV. -/
def audSample (inv : Bool) (line : List Bool) (first sbits : Nat) : Nat :=
  ((List.range sbits).foldl (fun v i => 2 * v + b2n (line.getD (2 * (first + i) + b2n inv) false)) 0) * 2 ^ (32 - sbits)

/-- The samples of a frame of an input port, by slot. -/
def audSamples (d : Dev) (p : Nat) (line : List Bool) : List Nat :=
  (List.range (d.audSlots p)).map fun i =>
    audSample (d.rdb (R.AUD_DOM_CTRL_BCLK_INV (d.lv (R.AUD_IN_CTRL_DOM p)))) line (d.lv (R.AUD_IN_CTRL_OFFSET p) + i * audBits (d.lv (R.AUD_IN_CTRL_WIDTH p)))
      (audBits (d.lv (R.AUD_IN_CTRL_SBITS p)))

/-- Units that hold an uncorrectable error and of which a write covers only a part (R492). -/
def partialUnits (d : Dev) (a n : Nat) : Nat :=
  (d.poison.filter fun u => decide (a < 32 * u + 32) && decide (32 * u < a + n) &&
    (decide (32 * u < a) || decide (a + n < 32 * u + 32))).length

/-- A port writes to its ring or to its stamps; DRAM_ERR_IN counts what the write could not replace. -/
def audWrite (d : Dev) (p a : Nat) (bs : List Byte) : Dev :=
  (d.addCnt (R.AUD_DRAM_ERR_IN p) (d.partialUnits a bs.length)).memWrite a bs .stream

/-- Frame n joins the frames that a ring of r frames holds; frames that its place and the ring's length have overwritten
leave them. -/
def audGot (got : List (Nat × Nat)) (r n : Nat) : List (Nat × Nat) :=
  let kept := (got.filter fun q => decide (n < q.2 + r)).map fun q => (Nat.max q.1 (n + 1 - r), q.2)
  if kept.any fun q => decide (q.1 ≤ n) && decide (n ≤ q.2) then kept else
  match kept with
  | (lo, hi) :: rest => if hi + 1 = n then (lo, n) :: rest else (n, n) :: (lo, hi) :: rest
  | [] => [(n, n)]

/-- The ring of a port holds a frame. -/
def audHolds (d : Dev) (p n : Nat) : Bool := (d.audIn p).got.any fun q => decide (q.1 ≤ n) && decide (n ≤ q.2)

/-- The block in progress ends: its stamp is written and WR_INDEX advances past it (R448). -/
def audCloseBlock (d : Dev) (p : Nat) : Dev :=
  let x := d.audIn p
  match x.block with
  | none => d
  | some b =>
    let flags := d.rd (R.AUD_IN_NONAUDIO p) + 65536 * b2n b.gap + 131072 * b2n b.rate
    let bytes := leBytes 6 (Time.sec b.stamp) ++ leBytes 4 (Time.ns b.stamp) ++ leBytes 2 (Time.frac b.stamp) ++ leBytes 4 flags
    let n := d.ringBlocks p
    let d := d.audWrite p (d.lvPair (R.AUD_IN_STAMP_BASE_LO p) (R.AUD_IN_STAMP_BASE_HI p) + b.m % n * 16) bytes
    let w := 64 * (b.m + 1)
    (d.putAudIn p { x with block := none, wr := w }).wr (R.AUD_IN_WR_INDEX_LO p) w

/-! Non-audio payload (R449). -/

/-- The check of one slot pair in a frame: its muting state after the frame, and whether the frame's samples are muted. A
muted pair is released after 4,096 frames in a row without a detection. -/
def audPair (found : Bool) (st : Option Nat) : Option Nat × Bool :=
  if found then (some 0, true) else
  match st with
  | none => (none, false)
  | some c => if c + 1 = 4096 then (none, true) else (some (c + 1), true)

/-- A slot pair carries the IEC 61937 preamble. -/
def audPreamble (samples : List Nat) (k : Nat) : Bool :=
  samples.getD (2 * k) 0 / 65536 = 0xF872 && samples.getD (2 * k + 1) 0 / 65536 = 0x4E1F &&
    decide (2 * k + 1 < samples.length)

/-- The pairs of an input port are checked: the samples as they are written, and the device after it. -/
def audMute (d : Dev) (p : Nat) (samples : List Nat) : List Nat × Dev :=
  (List.range 16).foldl (fun (q : List Nat × Dev) k =>
    let (samples, d) := q
    let x := d.audIn p
    let found := d.lvb (R.AUD_IN_CTRL_DETECT_EN p) && audPreamble samples k
    let (st, mute) := audPair found (x.pairs.getD k none)
    let d := d.putAudIn p { x with pairs := setAt x.pairs k st }
    let d := if found then d.cnt (R.AUD_NONAUDIO_DET p) else d
    let d := d.flagBit p (R.AUD_IN_NONAUDIO p) k 0 false st.isSome
    ((if mute then setAt (setAt samples (2 * k) 0) (2 * k + 1) 0 else samples), d)) (samples, d)

/-! Capture. -/

/-- The fields of an input port. -/
def audInKey (p k : Nat) : Bool := decide (8 * (0x430100 + 0x40 * p) ≤ k) && decide (k < 8 * (0x430140 + 0x40 * p))

/-- The fields of an output port with its MAP entries. -/
def audOutKey (p k : Nat) : Bool :=
  (decide (8 * (0x430200 + 0x40 * p) ≤ k) && decide (k < 8 * (0x430240 + 0x40 * p))) ||
    (decide (8 * (0x430400 + 0x80 * p) ≤ k) && decide (k < 8 * (0x430480 + 0x80 * p)))

/-- What places the frames in an input port's ring. -/
def audLayout (d : Dev) (p : Nat) : List Nat :=
  [d.lv (R.AUD_IN_CTRL_EN p), d.lv (R.AUD_IN_CTRL_SLOTS p), d.lv (R.AUD_IN_CTRL_PACK p), d.lv (R.AUD_IN_RING_BASE_LO p),
   d.lv (R.AUD_IN_RING_BASE_HI p), d.ringBlocks p]

/-- A block boundary of an input port: the block before it ends, and committed settings come into use (R445). Frames
written under another layout are frames that this ring never held (R452). -/
def audInBoundary (d : Dev) (p : Nat) : Dev :=
  let d := d.audCloseBlock p
  let old := d.audLayout p
  let d := d.applyComm (audInKey p)
  let d := if d.audLayout p = old then d else d.putAudIn p { d.audIn p with got := [] }
  d.wrb (R.AUD_IN_CTRL_CFG_ERR p) (d.lvb (R.AUD_IN_CTRL_EN p) && !d.audInOk p)

/-- An input port writes frame n (R446, R448, R454, R455). `t` is the STC time of the frame start. -/
def audCapture (d : Dev) (k p n : Nat) (t : Time) (line : List Bool) (framing mute : Bool) : Dev :=
  let x := d.audIn p
  let x := match x.block with
    | some _ => x
    | none =>
      let stamp := if n % 64 = 0 then t else divRound (64 * (n / 64) * secUnits) (d.audFs k)
      { x with block := some ⟨n / 64, stamp, x.gap, false⟩, gap := false }
  let x := { x with block := x.block.map fun b => { b with gap := b.gap || framing, rate := b.rate || mute } }
  let d := d.putAudIn p x
  let d := if framing then d.cnt (R.AUD_GAP_FRAMES p) else d
  let samples := if framing || mute then List.replicate (d.audSlots p) 0 else d.audSamples p line
  let (samples, d) := d.audMute p samples
  let r := d.audRing p
  let d := d.audWrite p (d.audAddr p n 0) (samples.flatMap (audPack (d.lv (R.AUD_IN_CTRL_PACK p))))
  let d := d.putAudIn p { d.audIn p with got := audGot (d.audIn p).got r n }
  if n % 64 = 63 then d.audCloseBlock p else d

/-! Output slots (R450 to R453). -/

/-- A, the frames of the display offset (R450). -/
def audAlign (d : Dev) (p : Nat) : Nat :=
  if d.lvb (R.AUD_OUT_CTRL_ALIGN p) then
    divRound (d.ofs * d.rateDen * d.audFs (d.lv (R.AUD_OUT_CTRL_DOM p))) (d.rateNum * d.lt)
  else 0

/-- The mapping of output slot i = 32 p + s in use. -/
def audTap (d : Dev) (p i : Nat) : AudTap :=
  ⟨d.lv (R.AUD_MAP_SRC_PORT i), d.lv (R.AUD_MAP_SRC_SLOT i), d.lv (R.AUD_MAP_DELAY i) + d.audAlign p⟩

/-- The mapping of an output slot is valid (R451). -/
def audMapOk (d : Dev) (p i : Nat) : Bool :=
  let src := d.lv (R.AUD_MAP_SRC_PORT i)
  let fs := d.audFs (d.lv (R.AUD_OUT_CTRL_DOM p))
  d.audInRuns src && decide (d.lv (R.AUD_MAP_SRC_SLOT i) < d.audSlots src) &&
    decide (d.audFs (d.lv (R.AUD_IN_CTRL_DOM src)) = fs) && decide (d.lv (R.AUD_MAP_DELAY i) ≤ 4 * fs) &&
    decide (8 + (d.audTap p i).delay + 128 ≤ d.audRing src)

/-- The slots that an output port has. -/
def audOutSlots (d : Dev) (p : Nat) : Nat := d.lv (R.AUD_OUT_CTRL_SLOTS p) + 1

/-- A block boundary of an output port (R445, R450, R451, R453): committed settings come into use, A is computed again, and
each slot takes its mapping, fading from the old delay where the source is the same. -/
def audOutBoundary (d : Dev) (p m : Nat) : Dev :=
  let d := { d with aud := { d.aud with blk := setV d.aud.blk p (some m) } }
  let d := d.applyComm (audOutKey p)
  let d := d.wrb (R.AUD_OUT_CTRL_CFG_ERR_PORT p) (d.lvb (R.AUD_OUT_CTRL_EN p) && !d.audOutOk p)
  (List.range 32).foldl (fun d s =>
    let i := 32 * p + s
    let used := d.audOutRuns p && decide (s < d.audOutSlots p) && d.lvb (R.AUD_MAP_SRC_EN i)
    let ok := d.audMapOk p i
    let d := d.flagBit p (R.AUD_OUT_CFG_ERR p) s 4 true (used && !ok)
    if used && ok then
      let tap := d.audTap p i
      let from_ := match (d.audSlot i).tap with
        | some old => if old.port = tap.port && old.slot = tap.slot && old.delay != tap.delay then some old.delay else none
        | none => none
      d.putAudSlot i ⟨some tap, from_⟩
    else d.putAudSlot i ⟨none, none⟩) d

/-- What output frame n reads of a source at a delay: the left-aligned sample, whether its frame was never written, and
the units that answered with an error (R450, R452). -/
def audRead (d : Dev) (mem : List Host.Cell) (n port slot delay : Nat) : Nat × Bool × List Nat :=
  if n < 8 + delay ∨ !(d.audHolds port (n - 8 - delay)) then (0, true, []) else
  let pack := d.lv (R.AUD_IN_CTRL_PACK port)
  let a := d.audAddr port (n - 8 - delay) slot
  let len := audBytes pack
  let bad := ([a / 32, (a + len - 1) / 32].eraseDups).filter fun u => d.poison.contains u || d.late.contains u
  if bad = [] then (audUnpack pack (Memory.bytes mem a len), false, []) else (0, false, bad)

/-- The crossfade of sample j of a block (R453). -/
def audFade (old new j : Nat) : Nat :=
  ofInt 32 (((64 - (j : Int)) * sext 32 old + (j : Int) * sext 32 new).tdiv 64)

/-- The code of an output slot in frame n, samples of frames never written, and units in error. -/
def audSlotOut (d : Dev) (mem : List Host.Cell) (p s n : Nat) : Option Nat × Nat × List Nat :=
  let i := 32 * p + s
  let sbits := audBits (d.lv (R.AUD_OUT_CTRL_SBITS p))
  if !(d.lvb (R.AUD_MAP_SRC_EN i)) then ((if d.lvb (R.AUD_OUT_CTRL_HIZ_UNUSED p) then none else some 0), 0, []) else
  match (d.audSlot i).tap with
  | none => (some 0, 0, [])
  | some t =>
    let (new, u, bad) := d.audRead mem n t.port t.slot t.delay
    match (d.audSlot i).from_ with
    | none => (some (new / 2 ^ (32 - sbits)), b2n u, bad)
    | some delay =>
      let (old, u2, bad2) := d.audRead mem n t.port t.slot delay
      (some (audFade old new (n % 64) / 2 ^ (32 - sbits)), b2n u + b2n u2, bad ++ bad2)

/-- TDM output data is driven only in LIVE, and in WARM with a split-feed segment (R24). DESIGN CHOICE: a WARM device has a segment, for
R24, from the split request on, though it owns one, for SPLIT, only from the first claim that a tile accepts (log entry 71). -/
def audDriven (d : Dev) : Bool := d.state = .live || (d.state = .warm && d.pair.segs != [])

/-- The bits of a slot: its code MSB first in the upper SBITS bits, then 0; high impedance throughout where it drives nothing (R443,
R450). -/
def audSlotBits (width sbits : Nat) : Option Nat → List (Option Bool)
  | none => List.replicate width none
  | some v => (List.range width).map fun i => some (decide (i < sbits) && bit v (sbits - 1 - i))

/-- The slots of an output port, as it drives them from OFFSET bit clocks after the frame start on, on the edge of BCLK that is not the
active one (R443). -/
def audOut (d : Dev) (p : Nat) (codes : List (Option Nat)) : Out :=
  .audio p (!d.rdb (R.AUD_DOM_CTRL_BCLK_INV (d.lv (R.AUD_OUT_CTRL_DOM p)))) (d.lv (R.AUD_OUT_CTRL_OFFSET p))
    (codes.map (audSlotBits (audBits (d.lv (R.AUD_OUT_CTRL_WIDTH p))) (audBits (d.lv (R.AUD_OUT_CTRL_SBITS p)))))

/-- An output port drives frame n. Each unit in error counts once for the frame. -/
def audDrive (d : Dev) (mem : List Host.Cell) (p n : Nat) (mute : Bool) : Dev :=
  let slots := List.range (d.audOutSlots p)
  if !d.audDriven then d.emit (d.audOut p (slots.map fun _ => none)) else
  if mute then d.emit (d.audOut p (slots.map fun _ => some 0)) else
  let outs := slots.map fun s => d.audSlotOut mem p s n
  let bad := (outs.flatMap fun o => o.2.2).eraseDups
  let d := d.addCnt (R.AUD_UNDER p) (outs.map fun o => o.2.1).sum
  let d := d.addCnt (R.AUD_DRAM_ERR p) bad.length
  let d := (bad.filter fun u => d.poison.contains u).foldl (fun d u => d.dramUe u .stream) d
  d.emit (d.audOut p (outs.map fun o => o.1))

/-! Rate errors (R455) and clock stops (R456). -/

/-- The rate check of a slave domain at a frame start: every 64 frames the measured rate is compared with FS_HZ. -/
def audRate (d : Dev) (k : Nat) : Dev :=
  if d.rdb (R.AUD_DOM_CTRL_MODE k) then d else
  let x := d.audDom k
  match x.at_ with
  | none => d.putAudDom k { x with at_ := some d.now, seen := 0 }
  | some t0 =>
    if x.seen + 1 < 64 then d.putAudDom k { x with seen := x.seen + 1 } else
    let span := d.now - t0
    let fs := d.audFs k
    let off : Int := (64 * secUnits : Nat) - (fs * span : Nat)
    let bad := decide ((fs * span : Nat) < 1000 * off) || decide ((fs * span : Nat) < -(1000 * off))
    let was := d.rdb (R.AUD_DOM_STATUS_RATE_ERR k)
    let d := d.wr (R.AUD_DOM_STATUS_MEAS_HZ k) (Nat.min (divRound (64 * secUnits) (Nat.max 1 span)) (2 ^ 18 - 1))
    let d := d.putAudDom k { x with at_ := some d.now, seen := 0, hold := x.hold || (was && !bad) }
    d.flag k (R.AUD_DOM_STATUS_RATE_ERR k) 2 true bad

/-- A domain's bit clock has been declared stopped: its ports stop, and the first block that each input writes after the
resumption carries GAP (R456). -/
def audStop (d : Dev) (k : Nat) : Dev :=
  let d := (d.putAudDom k ⟨none, none, 0, false, false⟩).wrb (R.AUD_DOM_STATUS_RUN k) false
  (List.range 4).foldl (fun d p =>
    if d.lv (R.AUD_IN_CTRL_DOM p) = k then d.putAudIn p { d.audIn p with gap := true } else d) d

/-- One frame of a domain in the ports, with index n and STC time t. -/
def audPorts (d : Dev) (mem : List Host.Cell) (k n : Nat) (t : Time) (boundary framing mute : Bool) (lines : List (List Bool)) :
    Dev :=
  let d := (List.range 4).foldl (fun d p =>
    if d.lv (R.AUD_IN_CTRL_DOM p) ≠ k then d else
    let d := if boundary then d.audInBoundary p else d
    if d.audInRuns p && d.lv (R.AUD_IN_CTRL_DOM p) = k then d.audCapture k p n t (lines.getD p []) framing mute else d) d
  (List.range 4).foldl (fun d p =>
    if d.lv (R.AUD_OUT_CTRL_DOM p) ≠ k then d else
    let d := if d.aud.blk.getD p none = some (n / 64) then d else d.audOutBoundary p (n / 64)
    if d.audOutRuns p && d.lv (R.AUD_OUT_CTRL_DOM p) = k then d.audDrive mem p n mute else d) d

/-- The index of a master's next frame: the first whose place on the STC has not passed, after the last (R444). -/
def audNext (d : Dev) (k : Nat) : Nat :=
  let c := d.stc * d.audFs k / secUnits
  let n := if d.stc ≤ d.audStart k c then c else c + 1
  if (d.audDom k).last = some (n % 2 ^ 48) then n + 1 else n

end Dev

/-- AUDIO_FRAME (R444): a frame starts in a domain. In slave mode it comes with an edge of AUDd_FS `dt` after the latest moment and has
`bclks` bit clocks, and the edge that FS_EDGE does not select starts none (R443); a master places it itself, and has counted a step of the STC in SLIP at
the step (R465). `lines` holds each input's
levels from the frame start on. -/
def actAudioFrame (k dt : Nat) (falling : Bool) (bclks : Nat) (lines : List (List Bool)) (mem : List Host.Cell) (d : Dev) : Dev :=
  if d.domainStopped Dev.audFamily k || !d.inService then d else
  let master := d.rdb (R.AUD_DOM_CTRL_MODE k)
  if !master && falling != d.rdb (R.AUD_DOM_CTRL_FS_EDGE k) then d else
  let (n, d) := if master then
      let n := d.audNext k
      (n % 2 ^ 48, (d.upTo ((d.audStart k n : Int) - d.stcOff).toNat).emit (d.audClock k))
    else let d := d.pass dt
      (d.audIndex k d.stc, d)
  let t := d.stc
  let d := d.wrb (R.AUD_DOM_STATUS_RUN k) true
  let d := d.audRate k
  let x := d.audDom k
  let slip := match x.last with
    | some l => !(master && x.moved) && (l + 1) % 2 ^ 48 != n
    | none => false
  let d := if slip then (List.range 4).foldl (fun d p =>
      if d.lv (R.AUD_IN_CTRL_DOM p) = k && d.lvb (R.AUD_IN_CTRL_EN p) then d.cnt (R.AUD_SLIP p) else d) d else d
  let boundary := match x.last with
    | some l => l / 64 != n / 64
    | none => n % 64 = 0
  if x.last = none && !boundary then d else
  let x := { x with last := some n, hold := x.hold && !boundary, moved := false }
  let d := d.putAudDom k x
  let framing := !master && bclks != d.frameBits k
  d.audPorts mem k n t boundary framing (d.rdb (R.AUD_DOM_STATUS_RATE_ERR k) || x.hold) lines

/-- A read of WR_INDEX_LO latches the upper bits into WR_INDEX_HI (Table 16-4). -/
def actWrIndexLoRead (p : Nat) (d : Dev) : Dev := d.wr (R.AUD_IN_WR_INDEX_HI p) ((d.audIn p).wr / 2 ^ 32)

def execAudioFrame (dom : Fin 2) (edge : FrameEdge) (bclks : Nat) (lines : List (List Bool)) (s : State) : Host.Outcome State Fault Refusal :=
  run s fun m d => actAudioFrame dom.val edge.dt edge.falling bclks lines m d

end Sys2Proof.Machine
end

