-- ==== Sys2Proof/Machine/Fuller.lean ====
section
/-!
DEFINITION. The Fuller lossless engines (chapter 14): blocks, tokens, the Bayer pre-pass, output chains and job rings.
-/

namespace Sys2Proof.Machine
namespace Fuller

/-! The Bayer pre-pass (R404). -/

/-- 16-bit little-endian samples of bytes. -/
def samples : List Byte → List Nat
  | a :: b :: r => (a.toNat + 256 * b.toNat) :: samples r
  | _ => []

/-- The prediction of sample i, given the samples before it, newest first. -/
def predict (row x i : Nat) (before : List Nat) : Nat :=
  if 2 ≤ x ∧ 2 ≤ i then before.getD 1 0 else if 2 * row ≤ i then before.getD (2 * row - 1) 0 else 0

/-- The zigzag code of a sample against its prediction. -/
def zigzag (s p : Nat) : Nat :=
  let e := (s + 65536 - p % 65536) % 65536
  if e < 32768 then 2 * e else Nat.xor (2 * e % 65536) 65535

/-- The sample that a zigzag code gives against a prediction. -/
def unzigzag (z p : Nat) : Nat :=
  let e := if z % 2 = 0 then z / 2 else 65535 - z / 2
  (p + e) % 65536

/-- The pre-pass over the samples of a block that starts in column x0. -/
def forward (row x0 : Nat) : Nat → List Nat → List Nat → List Nat
  | _, _, [] => []
  | i, before, s :: r => zigzag s (predict row ((x0 + i) % Nat.max 1 row) i before) :: forward row x0 (i + 1) (s :: before) r

/-- The inverse of the pre-pass. -/
def inverse (row x0 : Nat) : Nat → List Nat → List Nat → List Nat
  | _, _, [] => []
  | i, before, z :: r =>
    let s := unzigzag z (predict row ((x0 + i) % Nat.max 1 row) i before)
    s :: inverse row x0 (i + 1) (s :: before) r

/-- Bytes of samples. -/
def sampleBytes (l : List Nat) : List Byte := l.flatMap fun s => leBytes 2 s

/-! Tokens (R402, R403). -/

/-- Copy a match one byte at a time from a distance back; the output is held newest byte first. -/
def copyMatch (dist : Nat) : Nat → List Byte → List Byte
  | 0, out => out
  | n + 1, out => copyMatch dist n (out.getD (dist - 1) 0 :: out)

/-- The extension bytes of a literal count: their sum and the bytes after them; none where they run out. -/
def literalExt : List Byte → Option (Nat × List Byte)
  | [] => none
  | b :: r => if b.toNat = 255 then (literalExt r).map fun p => (255 + p.1, p.2) else some (b.toNat, r)

/-- Decode sequences until the output holds rawLen bytes (newest first); an error is its status of Table 14-5, and the
checks run in field order (R411). -/
def decode (rawLen : Nat) : Nat → List Byte → List Byte → Except Nat (List Byte)
  | 0, _, _ => .error 6
  | fuel + 1, code, out =>
    match code with
    | [] => .error 6
    | t :: r =>
      let lit := t.toNat / 16
      let mlen := t.toNat % 16
      match (if lit = 15 then (literalExt r).map fun p => (15 + p.1, p.2) else some (lit, r)) with
      | none => .error 6
      | some (n, r) =>
        if r.length < n ∨ rawLen < out.length + n then .error 6 else
        let out := (r.take n).reverse ++ out
        let r := r.drop n
        if mlen = 0 then
          if out.length = rawLen ∧ r = [] then .ok out else .error 6
        else
          match r with
          | a :: b :: r =>
            let dist := a.toNat + 256 * b.toNat + 1
            if out.length < dist then .error 5 else
            match (if mlen = 15 then (match r with
                | [] => none
                | x :: q => some (x.toNat, q)) else some (0, r)) with
            | none => .error 6
            | some (ext, r) =>
              if 240 < ext then .error 4 else
              let len := if mlen = 15 then 18 + ext else mlen + 3
              if rawLen < out.length + len then .error 6 else
              let out := copyMatch dist len out
              if out.length = rawLen then (if r = [] then .ok out else .error 6) else decode rawLen fuel r out
          | _ => .error 6

/-- The extension bytes that code a number. -/
def extBytes : Nat → Nat → List Byte
  | 0, _ => []
  | f + 1, n => if n < 255 then [BitVec.ofNat 8 n] else 255 :: extBytes f (n - 255)

/-- The bytes of one sequence over some literals (R402). -/
def sequence (lits : List Byte) (dist len : Nat) : List Byte :=
  let lit := Nat.min 15 lits.length
  let m := if len = 0 then 0 else if len < 18 then len - 3 else 15
  [BitVec.ofNat 8 (16 * lit + m)] ++ (if lit = 15 then extBytes (lits.length / 255 + 1) (lits.length - 15) else []) ++ lits
    ++ (if len = 0 then [] else leBytes 2 (dist - 1)) ++ (if m = 15 then leBytes 1 (len - 18) else [])

/-- The token bytes that a parse of the bytes gives. -/
def tokens : List Byte → List (Nat × Nat × Nat) → List Byte
  | _, [] => []
  | bs, (n, dist, len) :: r => sequence (bs.take n) dist len ++ tokens (bs.drop (n + len)) r

/-- The tokens of a payload, where the compressor's parse of it is one that decodes to it. -/
def compress (payload : List Byte) : Option (List Byte) :=
  let t := tokens payload (Config.fullerParse payload)
  match decode payload.length (t.length + 1) t [] with
  | .ok out => if out.reverse = payload then some t else none
  | .error _ => none

/-- A block of original bytes (R400, R401, R408), and whether it is STORED. -/
def block (bayer : Bool) (row x0 : Nat) (orig : List Byte) : List Byte × Bool :=
  let payload := if bayer then sampleBytes (forward row x0 0 [] (samples orig)) else orig
  let (body, stored) := match compress payload with
    | some t => if t.length < payload.length then (t, false) else (payload, true)
    | none => (payload, true)
  (leBytes 2 0xC1F7 ++ leBytes 1 1 ++ leBytes 1 (b2n stored + 2 * b2n bayer) ++ leBytes 4 orig.length ++ leBytes 4 body.length
    ++ leBytes 2 (if bayer then row else 0) ++ leBytes 2 (if bayer then x0 else 0) ++ body ++ leBytes 4 (crc32c orig), stored)

/-- The checks of a block header in stream order, field by field (R411, Table 14-4): the end of each field, and whether its value breaks
Table 14-1. -/
def headerFields (bs : List Byte) : List (Nat × Bool) :=
  let flags := leAt bs 3 1
  let raw := leAt bs 4 4
  let row := leAt bs 12 2
  [(2, decide (leAt bs 0 2 ≠ 0xC1F7)), (3, decide (leAt bs 2 1 ≠ 1)), (4, decide (4 ≤ flags)),
   (8, decide (raw = 0) || decide (1048576 < raw) || (bit flags 1 && decide (raw % 2 = 1))),
   (12, bit flags 0 && decide (leAt bs 8 4 ≠ raw)), (20 + leAt bs 8 4, false),
   (16, bit flags 1 && (decide (row < 2) || decide (16384 < row))), (16, bit flags 1 && decide (row ≤ leAt bs 14 2))]

/-- The check of a block header against the input that is left: a status of Table 14-5, 0 for a header that passes
(Table 14-4). What follows CODED_LEN, tokens and trailer among it, counts as a field that ends with the block. -/
def headerCheck (bs : List Byte) : Nat :=
  match (headerFields bs).find? fun f => decide (bs.length < f.1) || f.2 with
  | some f => if bs.length < f.1 then 6 else 4
  | none => 0

/-- The original bytes of a block whose header has passed, or its error (R401, R404, R412). -/
def openBlock (bs : List Byte) : Except Nat (List Byte) :=
  let flags := leAt bs 3 1
  let raw := leAt bs 4 4
  let coded := leAt bs 8 4
  let body := slice bs 16 coded
  let payload : Except Nat (List Byte) := if bit flags 0 then .ok body else
    match decode raw (coded + 1) body [] with
    | .ok out => .ok out.reverse
    | .error e => .error e
  match payload with
  | .error e => .error e
  | .ok p =>
    let orig := if bit flags 1 then sampleBytes (inverse (leAt bs 12 2) (leAt bs 14 2) 0 [] (samples p)) else p
    if crc32c orig = leAt bs (16 + coded) 4 then .ok orig else .error 7

end Fuller

namespace Dev

/-! Output chains (R410). -/

/-- The places that n bytes of output take from a place in a chain on, and the place after them; none where the entry
marked LAST fills up first. A chain ends, too, before an entry whose SIZE is 0, which R410 rules out (log
entry 126). -/
def spans (m : List Host.Cell) (chain : Nat) : Nat → Nat → Nat → Nat → List (Nat × Nat) × Option (Nat × Nat)
  | 0, _, _, _ => ([], none)
  | f + 1, i, u, n =>
    if n = 0 then ([], some (i, u)) else
    let a := chain + 16 * i
    let size := Memory.leNum m (a + 8) 4
    if size = 0 then ([], none)
    else if size ≤ u then
      if bit (Memory.leNum m (a + 12) 4) 0 then ([], none) else spans m chain f (i + 1) 0 n
    else
      let k := Nat.min (size - u) n
      let r := spans m chain f i (u + k) (n - k)
      ((Memory.leNum m a 8 + u, k) :: r.1, r.2)

/-- Write bytes to places. -/
def writeSpans (d : Dev) : List (Nat × Nat) → List Byte → Dev
  | [], _ => d
  | (a, k) :: r, bs => (d.memWrite a (bs.take k)).writeSpans r (bs.drop k)

/-- Some of the places lie in part over a unit with an uncorrectable error, or beyond the capacity: output written there meets an error
(R482, R492). -/
def badOutput (d : Dev) (sp : List (Nat × Nat)) : Bool :=
  sp.any fun p => decide (d.dramC < p.1 + p.2) || d.poison.any fun u =>
    decide (p.1 < 32 * u + 32) && decide (32 * u < p.1 + p.2) && (decide (32 * u < p.1) || decide (p.1 + p.2 < 32 * u + 32))

/-- What stands beyond OUT_DONE in a chain is undefined (R410, R413): every byte that is left of it holds a free value
(log entry 3). -/
def scramble (m : List Host.Cell) (d : Dev) (chain i u : Nat) : Dev :=
  let sp := (spans m chain (d.dramC / 8 + 2) i u (2 ^ 64)).1
  sp.foldl (fun d p =>
    { d.memWrite p.1 ((List.range p.2).map fun j => BitVec.ofNat 8 (Config.freeValue 15 (d.free + j))) with free := d.free + p.2 }) d

/-! Job rings. -/

def fring (d : Dev) (r : Nat) : FRing := d.ful.getD r FRing.reset
def putRing (d : Dev) (r : Nat) (x : FRing) : Dev := { d with ful := setV d.ful r x }

/-- The bytes of a descriptor in a ring. -/
def fulDesc (m : List Host.Cell) (d : Dev) (r i : Nat) : List Byte :=
  Memory.bytes m (d.rdPair (R.FUL_RING_SQ_BASE_LO r) (R.FUL_RING_SQ_BASE_HI r) + 64 * i) 64

/-- The places of a ring that hold descriptors, in order. -/
def fulPlaces (d : Dev) (r : Nat) : List Nat :=
  let n := d.fulSqSize r
  (List.range (d.fulCount r)).map fun i => (d.rd (R.FUL_RING_SQ_HEAD r) + i) % n

/-- The head of a ring moves on by some descriptors. -/
def fulAdvance (d : Dev) (r k : Nat) : Dev :=
  d.wr (R.FUL_RING_SQ_HEAD r) ((d.rd (R.FUL_RING_SQ_HEAD r) + k) % d.fulSqSize r)

/-- An engine runs the stream of another ring (R407). -/
def engineBusy (d : Dev) (e r : Nat) : Bool :=
  (List.range 8).any fun q => q != r && (match (d.fring q).stream with
    | some s => s.engine = e && !s.parked
    | none => false)

def addFCompl (d : Dev) (r : Nat) (x : FCompl) : Dev := d.putRing r { d.fring r with compl := (d.fring r).compl ++ [x] }

/-- An input range meets an uncorrectable DRAM error. -/
def badInput (d : Dev) (a n : Nat) : Bool := d.unreadable a n

/-- A descriptor's own form (Table 14-2): flags and reserved bytes that must be 0, and what opens a stream. -/
def descOk (b : List Byte) (first : Bool) : Bool :=
  let fl := leAt b 1 1
  let op := leAt b 0 1
  let bs := leAt b 24 4
  decide (fl < 16) && (slice b 30 34).all (· = 0)
    && (op = 2 || decide (0 < leAt b 4 4) || bit fl 1)
    && (!first || op = 2 || (decide (4096 ≤ bs) && decide (bs ≤ 1048576) && bs % 4096 = 0
        && (!bit fl 2 || (decide (2 ≤ leAt b 28 2) && decide (leAt b 28 2 ≤ 16384)))))

/-- The rest of a stream that has ended early: its descriptors in the ring complete with ABORTED, with what the stream has done, up to
the first without MORE (R410, Table 14-3). -/
def abortRest (m : List Host.Cell) (d : Dev) (r : Nat) (s : FStream) : List Nat → Dev
  | [] => d
  | i :: q =>
    let b := d.fulDesc m r i
    let d := (d.fulAdvance r 1).addFCompl r ⟨leAt b 2 2, 1, s.engine, 0, s.out, s.safe, 0⟩
    if bit (leAt b 1 1) 0 then abortRest m d r s q else d

/-- The open stream of a ring ends early with a status (R410, Table 14-5), and what is left of it is aborted. -/
def endStream (m : List Host.Cell) (d : Dev) (r : Nat) (s : FStream) (cid status blocks : Nat) (more : Bool) (rest : List Nat) : Dev :=
  let d := d.addFCompl r ⟨cid, status, s.engine, blocks, s.out, s.safe, 0⟩
  let d := if more then d.abortRest m r s rest else d
  d.putRing r { d.fring r with stream := none }

/-- Cut the first n bytes of the open block of ring r off as a block and write it, for a recorder of the ring, too (R377); answers the
stream after it, or the status with which it ends: OUT_OF_SPACE, or DRAM_ERROR on output. -/
def cutBlock (m : List Host.Cell) (r : Nat) (d : Dev) (s : FStream) (n : Nat) : Dev × Except Nat FStream :=
  let orig := s.pending.take n
  let (bs, stored) := Fuller.block s.bayer s.row (s.safe / 2 % Nat.max 1 s.row) orig
  let d := d.cnt R.FUL_BLK_COMP
  let d := if stored then d.cnt R.FUL_BLK_STORED else d
  match spans m s.chain (2 * bs.length + 64) s.entry s.used bs.length with
  | (sp, some (i, u)) =>
    if d.badOutput sp then (scramble m (d.writeSpans sp bs) s.chain s.entry s.used, .error 8) else
    ((d.writeSpans sp bs).recordUnit 0 r sp none, .ok { s with
      pending := s.pending.drop n, entry := i, used := u, safe := s.safe + orig.length, out := s.out + bs.length })
  | (_, none) => (scramble m d s.chain s.entry s.used, .error 3)

/-- Cut blocks while BLOCK_SIZE bytes have accumulated, then, at a flush, what is left (R406). Answers the stream, the
blocks cut, and the status: 0 where the chain took them. -/
def cutBlocks (m : List Host.Cell) (r : Nat) (flush : Bool) : Nat → Dev → FStream → Nat → Dev × FStream × Nat × Nat
  | 0, d, s, k => (d, s, k, 0)
  | f + 1, d, s, k =>
    if s.block ≤ s.pending.length || (flush && s.pending != []) then
      match d.cutBlock m r s (Nat.min s.block s.pending.length) with
      | (d, .ok s) => cutBlocks m r flush f d s (k + 1)
      | (d, .error e) => (d, s, k, e)
    else (d, s, k, 0)

end Dev

/-- COMPRESS (R406 to R409): the next descriptor of a ring is read and the blocks that end within it are written. A
descriptor whose opcode Table 14-2 does not name ends here with BAD_ARG. -/
def actCompress (r e : Nat) (m : List Host.Cell) (d : Dev) : Dev :=
  match d.fulPlaces r with
  | [] => d
  | i :: rest =>
    let b := d.fulDesc m r i
    let x := d.fring r
    let e := match x.stream with
      | some s => s.engine
      | none => e
    let op := leAt b 0 1
    if !d.cmb R.FUL_CTRL_EN || x.releasing || (op = 2 && x.stream.isNone) || d.engineBusy e r
        || d.lulling (.fuller (Fin.ofNat 4 e)) then d else
    let d := d.fulAdvance r 1
    let fl := leAt b 1 1
    let len := leAt b 4 4
    let s := x.stream.getD ⟨e, leAt b 16 8, leAt b 24 4, bit fl 2, leAt b 28 2, 0, 0, [], 0, 0, 0, false⟩
    let cid := leAt b 2 2
    if op ≠ 1 ∨ !Dev.descOk b x.stream.isNone ∨ (s.bayer ∧ len % 2 = 1) then
      let d := d.addFCompl r ⟨cid, 2, e, 0, s.out, s.safe, 0⟩
      d.putRing r { d.fring r with stream := x.stream.map fun s => { s with parked := rest.isEmpty } }
    else
    let src := leAt b 8 8
    if d.badInput src len then (d.cnt R.FUL_DRAM_ERR).endStream m r s cid 8 0 (bit fl 0) rest
    else
      let s := { s with pending := s.pending ++ Memory.bytes m src len, fed := s.fed + len }
      let flush := bit fl 1 || !bit fl 0
      let (d, s, k, st) := Dev.cutBlocks m r flush (s.pending.length + 1) d s 0
      let d := d.lullAfter (.fuller (Fin.ofNat 4 e)) 65536 len
      if st = 0 then
        let d := d.addFCompl r ⟨cid, 0, e, k, s.out, s.safe, 0⟩
        d.putRing r { d.fring r with stream := if bit fl 0 then some { s with parked := rest.isEmpty } else none }
      else
        (d.cnt (if st = 3 then R.FUL_OUT_OF_SPACE else R.FUL_DRAM_ERR)).endStream m r s cid st k (bit fl 0) rest

/-- A decoding job as far as it has come: place in the chain, input bytes in complete blocks, output bytes, blocks
decoded, blocks skipped. -/
structure FJob where
  entry : Nat
  used  : Nat
  safe  : Nat
  out   : Nat
  good  : Nat
  bad   : Nat
  deriving DecidableEq, Repr

/-- Decode blocks until the input is consumed or one fails (R411 to R413), by its input or by an uncorrectable error where it is written
(Table 14-5): answers the job and its status. -/
def decodeBlocks (m : List Host.Cell) (src chain : Nat) (skip : Bool) : Nat → List Byte → Dev → FJob → Dev × FJob × Nat
  | 0, _, d, j => (d, j, 0)
  | f + 1, bs, d, j =>
    if bs = [] then (d, j, 0) else
    if d.badInput (src + j.safe) (Nat.min 16 bs.length) then
      (Dev.scramble m ((d.cnt R.FUL_DRAM_ERR).cnt R.FUL_BLK_BAD) chain j.entry j.used, j, 8) else
    let h := Fuller.headerCheck bs
    if h ≠ 0 then (Dev.scramble m (d.cnt R.FUL_BLK_BAD) chain j.entry j.used, j, h) else
    let size := 20 + leAt bs 8 4
    let dram := d.badInput (src + j.safe) size
    let d := if dram then d.cnt R.FUL_DRAM_ERR else d
    let res : Except Nat (List Byte) := if dram then .error 8 else Fuller.openBlock bs
    let (whole, data, st) : Bool × List Byte × Nat := match res with
      | .ok o => (true, o, 0)
      | .error e => (false, List.replicate (leAt bs 4 4) 0, e)
    let place := Dev.spans m chain (2 * data.length + 64) j.entry j.used data.length
    let lost := (whole || skip) && place.2.isSome && d.badOutput place.1
    let d := if lost then d.cnt R.FUL_DRAM_ERR else d
    let good := whole && !lost
    let data := if good then data else List.replicate (leAt bs 4 4) 0
    let d := if good then d.cnt R.FUL_BLK_DECOMP else d.cnt R.FUL_BLK_BAD
    if !good && !skip then
      (Dev.scramble m (if lost then d.writeSpans place.1 data else d) chain j.entry j.used, j, if whole then 8 else st)
    else
    match place with
    | (sp, some (i, u)) =>
      decodeBlocks m src chain skip f (bs.drop size) (d.writeSpans sp data)
        { j with entry := i, used := u, safe := j.safe + size, out := j.out + data.length,
                 good := j.good + b2n good, bad := j.bad + b2n (!good) }
    | (_, none) => (Dev.scramble m (d.cnt R.FUL_OUT_OF_SPACE) chain j.entry j.used, j, 3)

/-- DECOMPRESS (R411 to R413): the next descriptor of a ring with no open stream is decoded. -/
def actDecompress (r e : Nat) (m : List Host.Cell) (d : Dev) : Dev :=
  match d.fulPlaces r with
  | [] => d
  | i :: _ =>
    let b := d.fulDesc m r i
    let x := d.fring r
    if !d.cmb R.FUL_CTRL_EN || x.releasing || leAt b 0 1 != 2 || x.stream.isSome || d.engineBusy e r
        || d.lulling (.fuller (Fin.ofNat 4 e)) then d else
    let d := d.fulAdvance r 1
    if !Dev.descOk b true then d.addFCompl r ⟨leAt b 2 2, 2, e, 0, 0, 0, 0⟩ else
    let src := leAt b 8 8
    let bs := Memory.bytes m src (leAt b 4 4)
    let (d, j, st) := decodeBlocks m src (leAt b 16 8) (bit (leAt b 1 1) 3) (bs.length + 1) bs d ⟨0, 0, 0, 0, 0, 0⟩
    let d := d.lullAfter (.fuller (Fin.ofNat 4 e)) 65536 j.out
    d.addFCompl r ⟨leAt b 2 2, st, e, j.good, j.out, j.safe, j.bad⟩

/-- The first completion of a ring that waits is posted, if its completion ring has room (R405, R409, Table 14-3). -/
def actDescComplete (r : Nat) (d : Dev) : Dev :=
  let x := d.fring r
  match x.compl with
  | [] => d
  | c :: rest =>
    let n := d.fulCqSize r
    if (x.cqAt + 1) % n = d.rd (R.FUL_RING_CQ_HEAD r) % n ∨ d.lulling (.fuller (Fin.ofNat 4 c.engine)) then d else
    let phase := (Config.freeValue 11 1 + b2n x.pass) % 2
    let d := d.memWrite (d.rdPair (R.FUL_RING_CQ_BASE_LO r) (R.FUL_RING_CQ_BASE_HI r) + 32 * x.cqAt)
      (leBytes 2 c.cid ++ leBytes 1 c.status ++ leBytes 1 c.engine ++ leBytes 4 c.blocks ++ leBytes 8 c.out ++ leBytes 8 c.safe
        ++ leBytes 4 c.bad ++ leBytes 4 phase)
    let wrap := x.cqAt + 1 = n
    d.putRing r { x with compl := rest, cqAt := if wrap then 0 else x.cqAt + 1, pass := if wrap then !x.pass else x.pass }

/-- The ABORTED completions of the descriptors of a ring that was reset (R414, Table 14-3): those of the open stream, up to its last, count
what the stream has done. -/
def Dev.abortedAll (m : List Host.Cell) (d : Dev) (r : Nat) : Option FStream → List Nat → List FCompl
  | _, [] => []
  | s, i :: q =>
    let b := d.fulDesc m r i
    let x : FCompl := match s with
      | some s => ⟨leAt b 2 2, 1, s.engine, 0, s.out, s.safe, 0⟩
      | none => ⟨leAt b 2 2, 1, 0, 0, 0, 0, 0⟩
    x :: abortedAll m d r (if bit (leAt b 1 1) 0 then s else none) q

/-- A write of 1 to RING.RESET (R414). -/
def actFulReset (r : Nat) (m : List Host.Cell) (d : Dev) : Dev :=
  let x := d.fring r
  let old := x.compl.map fun c => { c with status := 1 }
  let new := d.abortedAll m r x.stream (d.fulPlaces r)
  let d := d.putRing r ⟨none, old ++ new, 0, false, true⟩
  ((d.wr (R.FUL_RING_SQ_HEAD r) 0).wr (R.FUL_RING_SQ_TAIL r) 0).wr (R.FUL_RING_CQ_HEAD r) 0

/-- The outstanding accesses of a ring that was reset have resolved (R414). -/
def actFulRelease (r : Nat) (d : Dev) : Dev := d.putRing r { d.fring r with releasing := false }

def execCompress (ring : Fin 8) (engine : Fin 4) (s : State) : Host.Outcome State Fault Refusal :=
  runEngine s fun m d => actCompress ring engine m d
def execDecompress (ring : Fin 8) (engine : Fin 4) (s : State) : Host.Outcome State Fault Refusal :=
  runEngine s fun m d => actDecompress ring engine m d
def execDescriptorComplete (ring : Fin 8) (s : State) : Host.Outcome State Fault Refusal := runEngine s fun _ d => actDescComplete ring d
def execFulRingRelease (ring : Fin 8) (s : State) : Host.Outcome State Fault Refusal := runEngine s fun _ d => actFulRelease ring d

end Sys2Proof.Machine
end

