-- ==== Sys2Proof/Machine/Hatbox.lean ====
section
/-!
DEFINITION. The Hatbox recording store (chapter 13): takes, rings and tags, staging, commit batches, aborts, drive
recovery, the mount and the roll-forward.
-/

namespace Sys2Proof.Machine

/-- 4 KiB units of a length. -/
def units (n : Nat) : Nat := (n + 4095) / 4096

/-- Blocks of a segment (Table 13-1). -/
def segBlocks : Nat := 65536

/-! Commit records (R373, R374). -/

/-- Bytes 0 to 59 of a commit record. -/
def CommitRec.body (r : CommitRec) : List Byte :=
  leBytes 8 r.lsn ++ leBytes 4 r.epoch ++ leBytes 4 r.take ++ leBytes 8 r.off ++ leBytes 4 r.len ++ leBytes 1 r.drive
    ++ leBytes 1 r.flags ++ leBytes 2 0 ++ leBytes 8 r.lba ++ List.replicate 20 0

/-- A commit record as it stands in a journal page (Table 13-2). -/
def CommitRec.encode (r : CommitRec) : List Byte := r.body ++ leBytes 4 (crc32c r.body)

/-- A commit record from its 64 bytes; none where its RCRC fails. -/
def decodeRec (b : List Byte) : Option CommitRec :=
  if b.length = 64 ∧ crc32c (b.take 60) = leAt b 60 4 then
    some ⟨leAt b 0 8, leAt b 8 4, leAt b 12 4, leAt b 16 8, leAt b 24 4, leAt b 28 1, leAt b 29 1, leAt b 32 8⟩
  else none

/-- The records of a list up to the first whose RCRC fails (R374). -/
def recsUpTo : List (List Byte) → List CommitRec
  | [] => []
  | b :: r => match decodeRec b with
    | some c => c :: recsUpTo r
    | none => []

/-- A journal page (R373): the header of 16 bytes, the ring position and the count of valid records in 8 bytes each (DESIGN CHOICE, log
entry 76), 63 records of 64 bytes, 48 bytes reserved. -/
def journalPage (position : Nat) (recs : List CommitRec) : List Byte :=
  leBytes 8 position ++ leBytes 8 recs.length ++ recs.flatMap CommitRec.encode ++ List.replicate (64 * (63 - recs.length) + 48) 0

/-- The records of a journal page (R373, R374). -/
def pageRecs (page : List Byte) : List CommitRec :=
  recsUpTo ((List.range (Nat.min 63 (leAt page 8 8))).map fun i => slice page (16 + 64 * i) 64)

/-- One record resolves over another where they overlap (R374). -/
def CommitRec.later (a b : CommitRec) : Bool := decide (b.epoch < a.epoch) || (a.epoch = b.epoch && decide (b.lsn < a.lsn))

/-- The record that holds a byte of a take (R374). -/
def recAt (recs : List CommitRec) (take off : Nat) : Option CommitRec :=
  recs.foldl (fun best r =>
    if r.take = take && decide (r.off ≤ off) && decide (off < r.off + r.len) then
      match best with
      | some b => if r.later b then some r else some b
      | none => some r
    else best) none

/-- The end of the last record of a take that carries BLOCK_END (R387). -/
def durableEnd (recs : List CommitRec) (take : Nat) : Nat :=
  recs.foldl (fun e r => if r.take = take && bit r.flags 0 then Nat.max e (r.off + r.len) else e) 0

/-- The end of what records of a take hold (R397). -/
def writtenEnd (recs : List CommitRec) (take : Nat) : Nat :=
  recs.foldl (fun e r => if r.take = take then Nat.max e (r.off + r.len) else e) 0

/-- Records hold every byte of a take from one offset to another; with as many steps as there are records. -/
def holdRange (recs : List CommitRec) (take : Nat) : Nat → Nat → Nat → Bool
  | 0, a, b => decide (b ≤ a)
  | k + 1, a, b =>
    if b ≤ a then true else
    match recs.find? fun r => r.take = take && decide (r.off ≤ a) && decide (a < r.off + r.len) with
    | some r => holdRange recs take k (r.off + r.len) b
    | none => false

namespace Dev

/-! Access to the parts. -/

def hput (d : Dev) (h : HbxPart) : Dev := { d with hbx := h }
def hdrive (d : Dev) (k : Nat) : HDrive := d.hbx.drives.getD k HDrive.reset
def putDrive (d : Dev) (k : Nat) (x : HDrive) : Dev := d.hput { d.hbx with drives := setV d.hbx.drives k x }
def findTake (d : Dev) (id : Nat) : Option Take := d.hbx.takes.find? fun t => t.id = id
def putTake (d : Dev) (t : Take) : Dev :=
  d.hput { d.hbx with takes := if d.hbx.takes.any fun u => u.id = t.id then d.hbx.takes.map fun u => if u.id = t.id then t else u
    else d.hbx.takes ++ [t] }
def hcmd (d : Dev) (ser : Nat) : Option HCmd := d.hbx.cmds.find? fun c => c.ser = ser
def hcmdTag (d : Dev) (tag : Nat) : Option HCmd := d.hbx.cmds.find? fun c => c.tag = tag
def putCmd (d : Dev) (c : HCmd) : Dev :=
  d.hput { d.hbx with cmds := d.hbx.cmds.map fun x => if x.ser = c.ser then c else x }
def mapStaged (d : Dev) (f : Staged → Staged) : Dev := d.hput { d.hbx with staged := d.hbx.staged.map f }

/-- A drive's state (Table 13-8): 0 ABSENT, 1 READY, 2 UNAVAIL, 3 FAILED. -/
def driveState (d : Dev) (k : Nat) : Nat := d.rd (R.HBX_DRIVE_STATE k)

/-- A drive changes state; the change is logged (R393, Table 21-3). -/
def setDrive (d : Dev) (k st : Nat) : Dev :=
  if d.driveState k = st then d else
  (d.wr (R.HBX_DRIVE_STATE k) st).log 0x40 k (if st = 3 then 3 else 0) 0x01D (k + 256 * st)

def anyReady (d : Dev) : Bool := (List.range 4).any fun k => d.driveState k = 1

/-- The device issues NVMe Writes and starts batches (R388, R396 to R398). -/
def hbxWrites (d : Dev) : Bool := d.state = .live && d.pins.pfailN && !d.hbx.hold && !d.hbx.rollDue

/-! Space on the drives. -/

/-- A segment of a drive holds nothing and is no frontier. -/
def segFree (d : Dev) (k s : Nat) : Bool :=
  let x := d.hdrive k
  let lo := x.base + s * segBlocks
  let inSeg (lba : Nat) : Bool := decide (lo ≤ lba) && decide (lba < lo + segBlocks)
  !((match x.front with
      | some p => p.1 = s
      | none => false)
    || (d.hbx.recs.any fun r => r.drive = k && decide (0 < r.len) && inSeg r.lba)
    || (d.hbx.staged.any fun w => decide (1 ≤ w.phase) && w.drive = k && w.data != [] && inSeg w.lba))

/-- The first free segment of a drive (log entry 13). -/
def freeSeg (d : Dev) (k : Nat) : Option Nat := (List.range (d.hdrive k).segs).find? fun s => d.segFree k s

/-- A free segment exists on a READY drive (R395). -/
def spaceLeft (d : Dev) : Bool := (List.range 4).any fun k => d.driveState k = 1 && (d.freeSeg k).isSome

/-- A place for some blocks at a drive's frontier: the block and the frontier after it (R372). -/
def place (d : Dev) (k n : Nat) : Option (Nat × (Nat × Nat)) :=
  let x := d.hdrive k
  let fresh := (d.freeSeg k).map fun s => (x.base + s * segBlocks, (s, n))
  match x.front with
  | some (s, u) => if u + n ≤ segBlocks then some (x.base + s * segBlocks + u, (s, u + n)) else fresh
  | none => fresh

/-! Completions (R379, R399). -/

/-- A client's completion ring, next place and pass. -/
def cqAt (d : Dev) (c : Nat) : Nat × Bool := d.hbx.cq.getD c (0, false)

/-- A client's completion ring is full. -/
def cqFull (d : Dev) (c : Nat) : Bool :=
  let n := d.cqSize c
  decide (((d.cqAt c).1 + 1) % n = d.rd (R.HBX_CL_CQ_HEAD c) % n)

/-- Completions that find their ring full wait, and each is counted once (R399). -/
def noteFull (d : Dev) (c : Nat) : Dev :=
  if d.cqFull c then
    let k := (d.hbx.compl.filter fun x => x.client = c && !x.waited).length
    (d.hput { d.hbx with compl := d.hbx.compl.map fun x => if x.client = c then { x with waited := true } else x }).addCnt
      R.HBX_CQ_FULL k
  else d

/-- A completion becomes due. -/
def addCompl (d : Dev) (x : HCompl) : Dev :=
  let d := if x.status = 7 then d.cnt R.HBX_TIMEOUTS else if x.status = 1 then d.cnt R.HBX_ABORTS else d
  (d.hput { d.hbx with compl := d.hbx.compl ++ [x] }).noteFull x.client

/-- The staged data of a WRITE that ends other than OK is not committed; what has no NVMe Write outstanding goes. -/
def dropStaged (d : Dev) (ser : Nat) : Dev :=
  let l := d.hbx.staged.filter fun w => !(w.ser = ser && w.phase != 1)
  d.hput { d.hbx with staged := l.map fun w => if w.ser = ser then { w with dead := true } else w }

/-- A command has not resolved. -/
def hopen (c : HCmd) : Bool := c.status.isNone

/-- A command resolves with a status, unless it has resolved before. -/
def endCmd (d : Dev) (ser status done : Nat) : Dev :=
  match d.hcmd ser with
  | none => d
  | some c =>
    if !hopen c then d else
    let d := d.putCmd { c with status := some status }
    let d := if c.op = 1 && status != 0 then d.dropStaged ser else d
    d.addCompl ⟨c.client, c.cid, status, c.tag, done, some ser, false⟩

/-- An abort, a reset or a power failure ends a command that has not completed, though it may have resolved (R388, R390, R391): a completion
of it that has not been posted gives way, in its place in the order of completions to the new one. One that has ended with ABORTED
already counts no second time. -/
def overrule (d : Dev) (ser status : Nat) : Dev :=
  match d.hcmd ser with
  | none => d
  | some c =>
    if c.posted then d else
    let d := d.putCmd { c with status := some status }
    let d := if c.op = 1 then d.dropStaged ser else d
    let d := d.hput { d.hbx with compl := d.hbx.compl.filter fun x => x.ser != some ser }
    let x : HCompl := ⟨c.client, c.cid, status, c.tag, 0, some ser, false⟩
    if c.status = some 1 && status = 1 then (d.hput { d.hbx with compl := d.hbx.compl ++ [x] }).noteFull c.client else d.addCompl x

/-- A WRITE is to end with a status other than OK, in its turn (R383); its data is not committed. -/
def oweCmd (d : Dev) (ser status : Nat) : Dev :=
  match d.hcmd ser with
  | none => d
  | some c => if hopen c then (d.putCmd { c with owed := some (c.owed.getD status) }).dropStaged ser else d

/-! What becomes possible. -/

/-- A WRITE whose data is staged resolves with OK, or one that cannot be with the status it is to end with, once every earlier WRITE of its
stream has resolved (R383). -/
def pumpWrite (d : Dev) (c : HCmd) : Dev :=
  if d.hbx.cmds.any fun x => x.op = 1 && x.take = c.take && decide (x.ser < c.ser) && hopen x then d else
  match c.owed with
  | some st => d.endCmd c.ser st 0
  | none => if c.staged then d.endCmd c.ser 0 c.len else d

/-- The offsets of a range of a take at which another record may hold the bytes (R374), in order. -/
def readCuts (d : Dev) (take off len : Nat) : List Nat :=
  let l := (d.hbx.recs.filter fun r => r.take = take && decide (0 < r.len)).flatMap fun r => [r.off, r.off + r.len]
  ((off :: l.filter fun a => decide (off < a) && decide (a < off + len)).dedup).mergeSort

/-- The extents that a range of a take needs: drive, first block and blocks (R374, R384). -/
def readExtents (d : Dev) (take off len : Nat) : List (Nat × Nat × Nat) :=
  let l := d.readCuts take off len
  (l.zip (l.drop 1 ++ [off + len])).filterMap fun q =>
    (recAt d.hbx.recs take q.1).map fun r =>
      let first := (q.1 - r.off) / 4096
      (r.drive, r.lba + first, (q.2 - 1 - r.off) / 4096 + 1 - first)

/-- The parts of a range of a take that are in staging, with their offsets (R384). -/
def stagedParts (d : Dev) (take off len : Nat) : List (Nat × List Byte) :=
  (d.hbx.staged.filter fun w => w.take = take && !w.dead && w.complete && decide (w.off < off + len) && decide (off < w.off + w.data.length)).map
    fun w => (w.off, w.data)

/-- A READ that no overlapping WRITE holds back is checked against the readable end and goes to the drives; what of its range is in staging
then is served from there (R376, R384, R395). -/
def pumpRead (d : Dev) (c : HCmd) : Dev :=
  if c.staged then d else
  if c.cover.any fun s => (d.hbx.cmds.any fun x => x.ser = s && uncompleted x) then d else
  match d.findTake c.take with
  | none => d.endCmd c.ser 4 0
  | some t =>
    if t.readable < c.off + c.len then d.endCmd c.ser 11 0 else
    let xs := d.readExtents c.take c.off c.len
    if xs.any fun x => d.driveState x.1 = 3 then d.endCmd c.ser 9 0 else
    let d := xs.foldl (fun d x => d.emit (.nvme x.1 .read c.ser x.2.1 x.2.2 [])) d
    d.putCmd { c with staged := true, outs := (xs.map Prod.fst).dedup, laid := d.stagedParts c.take c.off c.len }

/-- A FLUSH ends once no covered WRITE waits or is staged without being durable (R385). -/
def pumpFlush (d : Dev) (c : HCmd) : Dev :=
  let waits := c.cover.any fun s =>
    (d.hbx.cmds.any fun x => x.ser = s && uncompleted x) || (d.hbx.staged.any fun w => w.ser = s && !w.dead)
  if waits then d else d.endCmd c.ser 0 0

/-- The record of an OPEN, CLOSE or DELETE joins the staged writes. -/
def stageRecord (d : Dev) (ser client take off flags : Nat) : Dev :=
  let k := ((List.range 4).find? fun k => d.driveState k = 1).getD 0
  d.hput { d.hbx with staged := d.hbx.staged ++ [⟨ser, client, take, off, flags, [], [], k, 0, 1, 2, true, false⟩] }

/-- A take closes: at its readable end, or, in FAULT, at its last durable BLOCK_END (R394). -/
def closeTake (d : Dev) (t : Take) : Dev :=
  let e := if t.fault = 0 then t.readable else durableEnd d.hbx.recs t.id
  d.putTake { t with open_ := false, readable := e }

/-- CLOSE_TAKE ends its take once its WRITEs have completed. -/
def pumpClose (d : Dev) (c : HCmd) : Dev :=
  if d.hbx.cmds.any fun x => x.op = 1 && x.take = c.take && decide (x.ser < c.ser) && uncompleted x then d else
  match d.findTake c.take with
  | none => d.endCmd c.ser 4 0
  | some t =>
    if t.open_ then ((d.closeTake t).stageRecord c.ser c.client c.take t.readable 2).endCmd c.ser 0 0 else d.endCmd c.ser 4 0

/-- Commands that can go on, in the order of their consumption. -/
def pumpCmds (d : Dev) : Dev :=
  d.hbx.cmds.foldl (fun d c0 =>
    match d.hcmd c0.ser with
    | none => d
    | some c =>
      if !hopen c then d else
      match c.op with
      | 1 => d.pumpWrite c
      | 2 => d.pumpRead c
      | 3 => d.pumpFlush c
      | 5 => d.pumpClose c
      | _ => d) d

/-- A staged write goes out at the frontier of the next drive in rotation (R372). -/
def issueOne (d : Dev) (w : Staged) : Dev :=
  let n := units w.data.length
  match ((List.range 4).map fun i => (d.hbx.rot + i) % 4).find? fun k => d.driveState k = 1 && (d.place k n).isSome with
  | none => d
  | some k =>
    match d.place k n with
    | none => d
    | some (lba, f) =>
      let d := d.putDrive k { d.hdrive k with front := some f }
      let d := d.hput { d.hbx with rot := (k + 1) % 4 }
      let d := d.mapStaged fun x => if x.ser = w.ser then { x with phase := 1, drive := k, lba := lba, tries := x.tries + 1 } else x
      d.emit (.nvme k .write w.ser lba n w.data)

/-! The staging area (R381, R382). -/

/-- 4 KiB units of the staging area. -/
def stgUnits (d : Dev) : Nat := 256 * Nat.min 8192 (d.rd R.HBX_STG_MIB)

/-- Units in use: of staged writes, and of the READs whose data is to land there. -/
def stgUsed (d : Dev) : Nat :=
  (d.hbx.staged.map fun w => w.units.length).sum +
    ((d.hbx.cmds.filter fun c => c.op = 2 && c.staged && hopen c).map fun c => units c.len).sum

/-- The address of a unit. -/
def stgAddr (d : Dev) (u : Nat) : Nat := d.rdPair R.HBX_STG_BASE_LO R.HBX_STG_BASE_HI + 4096 * u

/-- The lowest n units that hold nothing (DESIGN CHOICE, log entry 76). -/
def stgFree (d : Dev) (n : Nat) : List Nat :=
  let busy := d.hbx.staged.flatMap Staged.units
  ((List.range (busy.length + n)).filter fun u => !busy.contains u).take n

/-- Data is copied into units of the staging area. -/
def stgCopy (d : Dev) (us : List Nat) (bs : List Byte) : Dev :=
  us.zipIdx.foldl (fun d p => d.memWrite (d.stgAddr p.1) (slice bs (4096 * p.2) 4096) .stream) d

/-- A unit that holds a staged write meets an uncorrectable DRAM error (R394). -/
def stgBad (d : Dev) (w : Staged) : Bool :=
  w.units.zipIdx.any fun p => d.unreadable (d.stgAddr p.1) (Nat.min 4096 (w.data.length - 4096 * p.2))

/-- Staged writes go out in order while the device writes at all. -/
def issueWrites (d : Dev) : Dev :=
  if d.hbxWrites then (d.hbx.staged.filter fun w => w.phase = 0 && !w.dead).foldl issueOne d else d

/-- Tags are free once the command is posted and no NVMe command of it is outstanding, or, on a device that writes, still to be issued (R379;
log entry 15). -/
def freeTags (d : Dev) : Dev :=
  d.hput { d.hbx with cmds := d.hbx.cmds.filter fun c =>
    !(c.posted && c.outs == [] && !(d.hbx.staged.any fun w => w.ser = c.ser && (w.phase = 1 || (w.phase = 0 && !w.dead && d.hbxWrites)))) }

/-- The internal recorders go on, as their rings have room. -/
def pumpRecorders (d : Dev) : Dev := d.hbx.recorders.foldl (fun d r => d.recordPump r.slot (r.wait.length + 1)) d

/-! Submission rings (R378, R379). -/

/-- The bytes of a place of a submission ring. -/
def sqEntry (m : List Host.Cell) (d : Dev) (c i : Nat) : List Byte :=
  Memory.bytes m (d.rdPair (R.HBX_CL_SQ_BASE_LO c) (R.HBX_CL_SQ_BASE_HI c) + 64 * i) 64

/-- The head of a ring moves past entries that were ended in place, but for a ring that no entry is consumed of for want of a tag. -/
def skipHead (d : Dev) (c : Nat) : Nat → Dev
  | 0 => d
  | k + 1 =>
    let h := d.rd (R.HBX_CL_SQ_HEAD c)
    if 0 < d.sqCount c && d.hbx.skip.contains (c, h) && decide (d.hbx.cmds.length < 1024) then
      (({ d with hbx := { d.hbx with skip := d.hbx.skip.filter fun x => x != (c, h) } }).wr (R.HBX_CL_SQ_HEAD c)
        ((h + 1) % d.sqSize c)).skipHead c k
    else d

/-- Everything that has become possible takes place. -/
def pump (d : Dev) : Dev :=
  let d := d.pumpCmds.issueWrites.freeTags.pumpRecorders
  if d.hbx.skip = [] then d else (List.range 16).foldl (fun d c => d.skipHead c 65536) d

/-- The client whose entry is taken next (R379). -/
def nextClient (d : Dev) : Option Nat :=
  ((List.range 16).map fun i => (d.hbx.turn + i) % 16).find? fun c => decide (0 < d.sqCount c)

/-- Entries are consumed (R371, R379, R388, R392). -/
def consumes (d : Dev) : Bool :=
  d.rdb R.HBX_STATUS_MOUNTED && d.cmb R.HBX_CTRL_EN && d.pins.pfailN && d.hbx.fw.isNone && decide (d.hbx.cmds.length < 1024)

/-- The entry at the head of the next client's ring as a command with a tag, and the device with the head moved on. -/
def takeEntry (m : List Host.Cell) (d : Dev) (c : Nat) : Dev × HCmd :=
  let h := d.rd (R.HBX_CL_SQ_HEAD c)
  let b := sqEntry m d c h
  let d := (d.wr (R.HBX_CL_SQ_HEAD c) ((h + 1) % d.sqSize c)).skipHead c 65536
  let free := (List.range 1024).filter fun t => !(d.hbx.cmds.any fun x => x.tag = t)
  let (d, tag) := d.pick 13 free 0
  let x : HCmd :=
    { ser := d.hbx.ser, tag := tag, client := c, op := leAt b 0 1, flags := leAt b 1 1, cid := leAt b 2 2, take := leAt b 4 4,
      off := leAt b 8 8, len := leAt b 16 4, buf := leAt b 24 8, arg := leAt b 32 8, since := d.now, limit := clampNat (d.cm R.HBX_CMD_TO) 10 60000, staged := false, waited := false,
      status := none, posted := false, outs := [], cover := [], owed := none, laid := [] }
  (d.hput { d.hbx with cmds := d.hbx.cmds ++ [x], ser := d.hbx.ser + 1, turn := (c + 1) % 16 }, x)

/-- The entry that is next to be consumed has one of some opcodes. -/
def nextOp (m : List Host.Cell) (d : Dev) (p : Nat → Bool) : Option Nat :=
  if d.consumes then
    match d.nextClient with
    | some c => if p (leAt (sqEntry m d c (d.rd (R.HBX_CL_SQ_HEAD c))) 0 1) then some c else none
    | none => none
  else none

/-- An entry keeps its reserved fields 0 and has no flag that its opcode lacks (Table 13-3). -/
def entryOk (m : List Host.Cell) (d : Dev) (c : Nat) : Bool :=
  let b := sqEntry m d c (d.rd (R.HBX_CL_SQ_HEAD c))
  let op := leAt b 0 1
  let allowed := if op = 1 then 1 else if op = 2 then 4 else if op = 3 then 2 else 0
  leAt b 20 4 = 0 && (slice b 40 24).all (· = 0) && Nat.land (leAt b 1 1) (255 - allowed) = 0

end Dev

/-! The entry rows. -/

/-- Consume the next entry if its opcode is one of some, check its form and act on it. -/
def actEntry (p : Nat → Bool) (act : Dev → HCmd → Dev) (m : List Host.Cell) (d : Dev) : Dev :=
  match d.nextOp m p with
  | none => d
  | some c =>
    let ok := d.entryOk m c
    let (d, x) := d.takeEntry m c
    (if ok then act d x else d.endCmd x.ser 3 0).pump

/-- WRITE (R375, R382, R394 to R396). An entry whose opcode Table 13-3 does not name ends here with BAD_ARG. -/
def actHbxWrite (m : List Host.Cell) (d : Dev) : Dev :=
  actEntry (fun op => op = 1 || op = 0 || decide (7 < op)) (fun d x =>
    if x.op ≠ 1 ∨ x.len = 0 ∨ 262144 < x.len then d.endCmd x.ser 3 0 else
    if !d.liveOrWarm then d.endCmd x.ser 2 0 else
    match d.findTake x.take with
    | none => d.endCmd x.ser 4 0
    | some t =>
      if !t.open_ then d.endCmd x.ser 4 0
      else if t.client ≠ x.client ∨ t.fault ≠ 0 then d.endCmd x.ser 2 0
      else
        let d0 := d.hput { d.hbx with cmds := d.hbx.cmds.filter fun y => y.ser != x.ser }
        if x.off ≠ d0.nextOff t then d.oweCmd x.ser 3
        else if d.anyReady && !d.spaceLeft then d.oweCmd x.ser 5
        else if d.stgUsed + units x.len ≤ d.stgUnits && (d.anyReady || d.state = .warm) then d
        else (d.putCmd { x with waited := true }).cnt R.HBX_STG_FULL) m d

/-- READ (R376, R381, R384). -/
def actHbxRead (m : List Host.Cell) (d : Dev) : Dev :=
  actEntry (fun op => op = 2) (fun d x =>
    if x.len = 0 ∨ 16777216 < x.len then d.endCmd x.ser 3 0 else
    match d.findTake x.take with
    | none => d.endCmd x.ser 4 0
    | some _ =>
      let over_ := (d.hbx.cmds.filter fun y => Dev.standing x.take y && decide (y.off / 4096 ≤ (x.off + x.len - 1) / 4096)
        && decide (x.off / 4096 ≤ (y.off + y.len - 1) / 4096)).map HCmd.ser
      d.putCmd { x with cover := over_ }) m d

/-- FLUSH (R385): the takes of its scope, and the WRITEs of them that are not durable yet. -/
def actHbxFlush (m : List Host.Cell) (d : Dev) : Dev :=
  actEntry (fun op => op = 3) (fun d x =>
    let scope := if bit x.flags 1 then d.hbx.takes.filter fun t => t.client = x.client
      else d.hbx.takes.filter fun t => t.id = x.take
    if scope = [] && !bit x.flags 1 then d.endCmd x.ser 4 0 else
    match scope.find? fun t => t.open_ && t.fault != 0 with
    | some t => d.endCmd x.ser t.fault 0
    | none =>
      let ids := scope.map Take.id
      let a := (d.hbx.cmds.filter fun y => y.op = 1 && ids.contains y.take && Dev.uncompleted y).map HCmd.ser
      let b := (d.hbx.staged.filter fun w => ids.contains w.take && w.data != [] && !w.dead).map Staged.ser
      d.putCmd { x with cover := a ++ b }) m d

/-- OPEN_TAKE (R375, R395). -/
def actOpenTake (m : List Host.Cell) (d : Dev) : Dev :=
  actEntry (fun op => op = 4) (fun d x =>
    if !d.liveOrWarm then d.endCmd x.ser 2 0
    else if (d.findTake x.take).isSome then d.endCmd x.ser 2 0
    else if d.anyReady && !d.spaceLeft then d.endCmd x.ser 5 0
    else ((d.putTake ⟨x.take, x.arg % 2 ^ 32, x.client, true, 0, 0, 0⟩).stageRecord x.ser x.client x.take 0 8).endCmd x.ser 0 0) m d

/-- CLOSE_TAKE (R394). -/
def actCloseTake (m : List Host.Cell) (d : Dev) : Dev :=
  actEntry (fun op => op = 5) (fun d x =>
    match d.findTake x.take with
    | none => d.endCmd x.ser 4 0
    | some t => if !t.open_ then d.endCmd x.ser 4 0 else if t.client ≠ x.client then d.endCmd x.ser 2 0 else d) m d

/-- DELETE_TAKE removes a closed take; its space is free once the record is durable. -/
def actDeleteTake (m : List Host.Cell) (d : Dev) : Dev :=
  actEntry (fun op => op = 6) (fun d x =>
    match d.findTake x.take with
    | none => d.endCmd x.ser 4 0
    | some t =>
      if t.open_ || !d.liveOrWarm then d.endCmd x.ser 2 0 else
      let d := d.hput { d.hbx with takes := d.hbx.takes.filter fun u => u.id != t.id }
      (d.stageRecord x.ser x.client x.take 0 4).endCmd x.ser 0 0) m d

/-- FW_ACTIVATE (R392): only in COLD. The drive is UNAVAIL from the Firmware Commit on. -/
def actFwActivate (m : List Host.Cell) (d : Dev) : Dev :=
  actEntry (fun op => op = 7) (fun d x =>
    if d.state ≠ .cold then d.endCmd x.ser 2 0 else
    let k := x.arg % 4
    if d.driveState k ≠ 1 then d.endCmd x.ser 9 0 else
    let d := d.emit (.nvme k .fwDownload x.ser 0 0 (Memory.bytes m x.buf x.len))
    let d := (d.emit (.nvme k .fwCommit x.ser (bits x.arg 10 8) 0 [])).setDrive k 2
    (d.putCmd { x with outs := [k] }).hput { (d.putCmd { x with outs := [k] }).hbx with fw := some (x.tag, k, d.now) }) m d

/-! Staging and reads. -/

/-- A WRITE's data is copied into the staging area, once there is space (R382, R395). -/
def actWriteStaged (tag : Nat) (m : List Host.Cell) (d : Dev) : Dev :=
  match d.hcmdTag tag with
  | none => d
  | some c =>
    if c.op ≠ 1 ∨ c.staged ∨ c.owed.isSome ∨ !Dev.hopen c then d else
    if d.stgUnits < d.stgUsed + units c.len || (d.state = .live && !d.anyReady) then
      if c.waited then d else (d.putCmd { c with waited := true }).cnt R.HBX_STG_FULL
    else if d.unreadable c.buf c.len then ((d.reportRead c.buf c.len Requester.recording.cls).oweCmd c.ser 10).pump
    else
      let bs := Memory.bytes m c.buf c.len
      let us := d.stgFree (units c.len)
      let d := (d.stgCopy us bs).putCmd { c with staged := true }
      (d.hput { d.hbx with staged := d.hbx.staged ++
        [⟨c.ser, c.client, c.take, c.off, bit c.flags 0 |> b2n, bs, us, 0, 0, 0, 0, false, false⟩] }).pump

/-- The parts of a range that a READ found in staging, laid over what the drives gave (R384). -/
def overlay (parts : List (Nat × List Byte)) (off : Nat) (bs : List Byte) : List Byte :=
  parts.foldl (fun bs w =>
    bs.zipIdx.map fun p =>
      let a := off + p.2
      if decide (w.1 ≤ a) && decide (a < w.1 + w.2.length) then w.2.getD (a - w.1) 0 else p.1) bs

/-- The NVMe Abort of a command resolves on its drives, with the command (R393). -/
def abortOver (d : Dev) (ser : Nat) : Dev :=
  (List.range 4).foldl (fun d k =>
    if (d.hdrive k).aborts.any fun a => a.1 = ser then
      d.putDrive k { d.hdrive k with aborts := (d.hdrive k).aborts.filter fun a => a.1 != ser } else d) d

/-! Durability (R386, R394). -/

/-- A FLUSH that covers staged writes which are lost cannot end with OK (R385): it ends with a status. -/
def failFlushes (d : Dev) (lost : List Nat) (status : Nat) : Dev :=
  (d.hbx.cmds.filter fun c => c.op = 3 && Dev.hopen c && c.cover.any fun s => lost.contains s).foldl
    (fun d c => d.endCmd c.ser status 0) d

/-- A stream enters FAULT (R394): FLUSHes that cover what is lost end with the fault's status, staged writes of the stream from the lost one
on are not committed (log entry 16), later WRITEs that have not resolved end with STATE, and the lost one, if it has not, with the
fault's status (log entry 76). -/
def faultStream (d : Dev) (w : Staged) (status : Nat) : Dev :=
  match d.findTake w.take with
  | none => d.dropStaged w.ser
  | some t =>
    let lost := (d.hbx.staged.filter fun x => x.take = w.take && decide (w.off ≤ x.off) && x.data != []).map Staged.ser
    let d := d.putTake { t with fault := if t.fault = 0 then status else t.fault }
    let d := failFlushes (lost.foldl Dev.dropStaged d) lost status
    (d.hbx.cmds.filter fun c => c.op = 1 && c.take = w.take && decide (w.ser ≤ c.ser)).foldl
      (fun d c => d.oweCmd c.ser (if c.ser = w.ser then status else 2)) d

/-- A READ's data reaches BUF (R381, R395): all of it with OK, or the leading part of it and a status. Staged data that meets an
uncorrectable DRAM error puts its stream in FAULT (R394). -/
def actReadComplete (tag : Nat) (data : List Byte) (result : NvmeEnd) (copied : Nat) (d : Dev) : Dev :=
  match d.hcmdTag tag with
  | none => d
  | some c =>
    if c.op ≠ 2 ∨ !c.staged ∨ (!bit c.flags 2 && d.lulling .hatbox) ∨ c.outs.any (fun k => d.driveState k = 2) then d else
    let d := abortOver (d.hput { d.hbx with cmds := d.hbx.cmds.map fun x => if x.ser = c.ser then { x with outs := [] } else x }) c.ser
    if !Dev.hopen c then d.pump else
    let lost := d.hbx.staged.filter fun w => w.take = c.take && !w.dead && (c.laid.any fun p => p.1 = w.off) && d.stgBad w
    let d := lost.foldl (fun d w => faultStream d w 10) d
    let result := if lost = [] then result else .dram
    let n := if result = .ok then c.len else Nat.min copied c.len
    let bs := overlay c.laid c.off ((List.range n).map fun i => data.getD i 0)
    let d := d.memWrite c.buf bs (Requester.replay (bit c.flags 2)).cls
    let st := match result with
      | .ok => 0
      | .media => 6
      | .dram => 10
    let d := if result = .media then d.cnt R.HBX_MEDIA_ERR else d
    let d := if bit c.flags 2 then d else d.lullAfter .hatbox 262144 n
    (d.endCmd c.ser st n).pump

/-- A staged write's NVMe Write has failed: it goes out again, or, after three attempts, its stream is in FAULT (R394). -/
def retryWrite (d : Dev) (w : Staged) : Dev :=
  let d := d.mapStaged fun x => if x.ser = w.ser then { x with phase := 0 } else x
  if w.dead then d.dropStaged w.ser
  else if w.tries < 3 then d.cnt R.HBX_REWRITES else faultStream d w 6

/-- An NVMe Write resolves (R394). -/
def actNvmeDone (ser : Nat) (result : NvmeEnd) (d : Dev) : Dev :=
  match d.hbx.staged.find? fun w => w.ser = ser && w.phase = 1 with
  | none => d
  | some w =>
    let d := abortOver d ser
    let result := if d.stgBad w then .dram else result
    let d := match result with
      | .ok =>
        let d := d.mapStaged fun x => if x.ser = ser then { x with phase := 2 } else x
        if w.dead then d.dropStaged ser else d
      | .media => retryWrite (d.cnt R.HBX_MEDIA_ERR) w
      | .dram => if w.dead then (d.mapStaged fun x => if x.ser = ser then { x with phase := 2 } else x).dropStaged ser else
          faultStream (d.mapStaged fun x => if x.ser = ser then { x with phase := 2 } else x) w 10
    d.pump

/-- A commit batch starts on a drive with a Flush (R386). -/
def actBatchStart (k : Nat) (d : Dev) : Dev :=
  let x := d.hdrive k
  if !d.hbxWrites || d.driveState k ≠ 1 || x.batch.isSome then d else
  let d := match x.batchAt with
    | some t => d.upTo (t + micros (clampNat (d.cm R.HBX_COMMIT_US) 100 10000))
    | none => d
  let cov := d.hbx.staged.filter fun w => w.phase = 2 && !w.dead && w.drive = k
  let recs := cov.zipIdx.map fun p =>
    (⟨d.hbx.lsn + p.2, d.rd R.VEER_EPOCH, p.1.take, p.1.off, p.1.data.length, k, p.1.flags, p.1.lba⟩ : CommitRec)
  let sers := cov.map Staged.ser
  let d := d.hput { d.hbx with lsn := d.hbx.lsn + recs.length }
  let d := d.mapStaged fun w => if w.phase = 2 && w.drive = k && sers.contains w.ser then { w with phase := 3 } else w
  (d.putDrive k { x with batch := some ⟨1, sers, recs⟩, batchAt := some d.now }).emit (.nvme k .flush 0 0 0 [])

/-- Records in pages of 63 (R373). -/
def pagesOf : Nat → List CommitRec → List (List CommitRec)
  | 0, _ => []
  | _, [] => []
  | f + 1, l => l.take 63 :: pagesOf f (l.drop 63)

/-- The journal pages of a batch are written (R386, Table 13-1). -/
def writeJournal (d : Dev) (k : Nat) (recs : List CommitRec) : Dev :=
  (pagesOf recs.length recs).foldl (fun d pg =>
    let x := d.hdrive k
    let d := d.putDrive k { x with jpos := x.jpos + 1 }
    d.emit (.journal k (2 + 256 * Config.idxMib + x.jpos % Nat.max 1 (256 * Config.jrnMib)) (journalPage x.jpos pg))) d

/-- A durable DELETE releases the space of its take: its extents leave the index, and are deallocated by the device that may
write to the drives (R23, R369). -/
def releaseTake (d : Dev) (take : Nat) : Dev :=
  let ext := d.hbx.recs.filter fun r => r.take = take && decide (0 < r.len)
  let d := d.hput { d.hbx with recs := d.hbx.recs.filter fun r => !(r.take = take && decide (0 < r.len)) }
  if d.state = .live then ext.foldl (fun d r => d.emit (.nvme r.drive .deallocate 0 r.lba (units r.len) [])) d else d

/-- A batch's writes are durable: their staging space is released and their records join the index tail (R386). -/
def batchDone (d : Dev) (b : HBatch) : Dev :=
  let d := d.hput { d.hbx with
    staged := d.hbx.staged.filter fun w => !(w.phase = 3 && b.cover.contains w.ser)
    recs := d.hbx.recs ++ b.recs }
  let d := (b.recs.filter fun r => bit r.flags 2).foldl (fun d r => releaseTake d r.take) d
  d.cnt R.HBX_BATCHES

/-- A step of a batch ends (R386). What was aborted before its journal page is written gets no record. A batch that has not reached step 2 goes no further while PFAIL_N is low, or once the
device no longer writes (R388, R397). -/
def actBatchStep (k : Nat) (d : Dev) : Dev :=
  let x := d.hdrive k
  match x.batch with
  | none => d
  | some b =>
    if d.driveState k ≠ 1 then d else
    if b.step = 1 then
      if d.hbxWrites then
        let left := (b.cover.zip b.recs).filter fun p => d.hbx.staged.any fun w => w.ser = p.1 && w.phase = 3 && !w.dead
        let d := writeJournal d k (left.map Prod.snd)
        d.putDrive k { d.hdrive k with batch := some ⟨2, left.map Prod.fst, left.map Prod.snd⟩ }
      else
        let d := d.mapStaged fun w => if w.phase = 3 && b.cover.contains w.ser then { w with phase := 2 } else w
        d.putDrive k { d.hdrive k with batch := none }
    else if b.step = 2 then
      (d.putDrive k { x with batch := some { b with step := 3 } }).emit (.nvme k .flush 0 0 0 [])
    else (batchDone (d.putDrive k { x with batch := none }) b).pump

/-! Completions, aborts and resets. -/

/-- A WRITE completes with OK: its end, and, with BLOCK_END, the readable end (R376). -/
def writeCompleted (d : Dev) (c : HCmd) : Dev :=
  let d := d.mapStaged fun w => if w.ser = c.ser && w.data != [] then { w with complete := true } else w
  match d.findTake c.take with
  | some t => d.putTake { t with comp := c.off + c.len, readable := if bit c.flags 0 then c.off + c.len else t.readable }
  | none => d

/-- The first completion of a client that waits is posted, if the ring has room (R390, R399, Table 13-4). An internal recorder reads it at
once (R378). -/
def actCompletionPost (c : Nat) (d : Dev) : Dev :=
  match d.hbx.compl.find? fun x => x.client = c with
  | none => d
  | some x =>
    if d.cqFull c then d else
    let (i, ph) := d.cqAt c
    let n := d.cqSize c
    let phase := (Config.freeValue 11 0 + b2n ph) % 2
    let d := d.memWrite (d.rdPair (R.HBX_CL_CQ_BASE_LO c) (R.HBX_CL_CQ_BASE_HI c) + 16 * i)
      (leBytes 2 x.cid ++ leBytes 2 x.status ++ leBytes 2 x.tag ++ leBytes 2 0 ++ leBytes 4 x.done ++ leBytes 4 phase)
    let d := d.hput { d.hbx with
      compl := d.hbx.compl.erase x
      posted := (c, x.cid) :: d.hbx.posted.filter fun p => p != (c, x.cid)
      cq := setV d.hbx.cq c (if i + 1 = n then (0, !ph) else (i + 1, ph)) }
    let d := if (d.recorder c).isSome then d.wr (R.HBX_CL_CQ_HEAD c) ((i + 1) % n) else d
    let d := match x.ser with
      | none => d
      | some s =>
        match d.hcmd s with
        | none => d
        | some y =>
          let d := d.putCmd { y with posted := true }
          let d := if y.op = 1 && x.status = 0 then writeCompleted d y else d
          if y.op = 1 then d.recordDone c (bit y.flags 0) else d
    (d.noteFull c).pump

/-- The places of a client's ring that hold entries not ended in place, in order. -/
def ringPlaces (d : Dev) (c : Nat) : List Nat :=
  let n := d.sqSize c
  ((List.range (d.sqCount c)).map fun i => (d.rd (R.HBX_CL_SQ_HEAD c) + i) % n).filter fun i => !(d.hbx.skip.contains (c, i))

/-- An entry still in the ring ends with ABORTED: it has no tag, and TAG shows a free value (log entry 3). -/
def abortPlace (m : List Host.Cell) (c : Nat) (d : Dev) (i : Nat) : Dev :=
  let b := d.sqEntry m c i
  let d0 := d
  let d := d.drawn.hput { d.hbx with skip := (c, i) :: d.hbx.skip }
  d.addCompl ⟨c, leAt b 2 2, 1, d0.freeVal 14 % 65536, 0, none, false⟩

/-- A WRITE aborts, and every later WRITE of its stream that has not completed with it (R389). -/
def abortStream (m : List Host.Cell) (c take : Nat) (after_ : Option Nat) (places : List Nat) (d : Dev) : Dev :=
  let d := match after_ with
    | some s => (d.hbx.cmds.filter fun y => y.op = 1 && y.client = c && y.take = take && decide (s < y.ser) && Dev.uncompleted y).foldl
        (fun d y => d.overrule y.ser 1) d
    | none => d
  (places.filter fun i => let b := d.sqEntry m c i; leAt b 0 1 = 1 && leAt b 4 4 = take).foldl (abortPlace m c) d

/-- Drive commands of a command that has ended are left to the drives: an NVMe Abort goes out for each, and the recovery
timer of its drive starts (R393). -/
def abortDrives (d : Dev) (c : HCmd) : Dev :=
  let ws := (d.hbx.staged.filter fun w => w.ser = c.ser && w.phase = 1).map Staged.drive
  (c.outs ++ ws).foldl (fun d k =>
    let d := d.emit (.nvme k .abort c.ser 0 0 [])
    if (d.hdrive k).resetAt.isNone then d.putDrive k { d.hdrive k with aborts := (d.hdrive k).aborts ++ [(c.ser, d.now)] } else d) d

/-- A write to CLIENT.ABORT (R389, R390). -/
def actHbxAbort (c cid : Nat) (m : List Host.Cell) (d : Dev) : Dev :=
  match d.hbx.cmds.find? fun x => x.client = c && x.cid = cid && Dev.uncompleted x with
  | some x =>
    let d := (d.wr (R.HBX_CL_ABORT_STATUS c) 0).overrule x.ser 1
    let d := if x.op = 1 then abortStream m c x.take (some x.ser) (ringPlaces d c) d else d
    (d.skipHead c 65536).pump
  | none =>
    let ps := ringPlaces d c
    match ps.find? fun i => leAt (d.sqEntry m c i) 2 2 = cid with
    | some i =>
      let b := d.sqEntry m c i
      let d := abortPlace m c (d.wr (R.HBX_CL_ABORT_STATUS c) 0) i
      let later := (ps.dropWhile fun j => j != i).drop 1
      let d := if leAt b 0 1 = 1 then abortStream m c (leAt b 4 4) none later d else d
      (d.skipHead c 65536).pump
    | none =>
      if d.hbx.compl.any fun x => x.client = c && x.cid = cid && x.ser.isNone then d.wr (R.HBX_CL_ABORT_STATUS c) 0
      else if d.hbx.posted.contains (c, cid) then (d.wr (R.HBX_CL_ABORT_STATUS c) 1).cnt R.HBX_TOO_LATE
      else d.wr (R.HBX_CL_ABORT_STATUS c) 2

/-- A write of 1 to CLIENT.RESET (R391). -/
def actHbxReset (c : Nat) (m : List Host.Cell) (d : Dev) : Dev :=
  let mine := d.hbx.cmds.filter fun x => x.client = c && Dev.uncompleted x
  let tags := (List.range 1024).filterMap fun t => mine.find? fun x => x.tag = t
  let ps := ringPlaces d c
  let old := d.hbx.compl.filter fun x => x.client = c && x.ser.isNone
  let d := d.hput { d.hbx with compl := d.hbx.compl.filter fun x => x.client != c || x.ser.isSome }
  let d := tags.foldl (fun d x => d.overrule x.ser 1) d
  let d := d.hput { d.hbx with compl := d.hbx.compl ++ old }
  let d := ps.foldl (abortPlace m c) d
  let d := d.hput { d.hbx with
    skip := d.hbx.skip.filter fun p => p.1 != c
    posted := d.hbx.posted.filter fun p => p.1 != c
    cq := setV d.hbx.cq c (0, false) }
  (((d.wr (R.HBX_CL_SQ_HEAD c) 0).wr (R.HBX_CL_SQ_TAIL c) 0).wr (R.HBX_CL_CQ_HEAD c) 0).pump

/-- CMD_TO passes (R393): the command ends with TIMEOUT and its drive commands are aborted. FW_ACTIVATE has a timeout of
its own (R392). -/
def actHbxTimeout (tag : Nat) (d : Dev) : Dev :=
  match d.hcmdTag tag with
  | none => d
  | some c =>
    if !Dev.hopen c ∨ c.op = 7 then d else
    let d := d.upTo (c.since + millis c.limit)
    (abortDrives (d.endCmd c.ser 7 0) c).pump

/-! Drives. -/

/-- A drive's NVMe Writes in flight fail as its controller is reset (R393, R394; log entry 17). -/
def failDriveWrites (d : Dev) (k : Nat) : Dev :=
  let d := match (d.hdrive k).batch with
    | none => d
    | some b =>
      let d := d.mapStaged fun w => if w.phase = 3 && b.cover.contains w.ser then { w with phase := 2 } else w
      d.putDrive k { d.hdrive k with batch := none }
  (d.hbx.staged.filter fun w => w.phase = 1 && w.drive = k).foldl retryWrite d

/-- The links of the root port and the code of their greatest width (R369, Table 13-8). -/
def pcieLinks (d : Dev) : Nat × Nat := match d.rd R.HBX_CFG_BIFURC with
  | 0 => (1, 4)
  | 1 => (2, 3)
  | _ => (4, 2)

/-- A link to a drive comes up or goes down (R369, Table 21-3), at most at the width that the image selects; one that is held down stays
so (R393). A drive that it leaves is UNAVAIL until it reports ready again, as one is that its partner activates (R392; log entry 123). -/
def linkDrive (d : Dev) (k width : Nat) : Dev :=
  if (d.hdrive k).down then d else
  let width := if k < (pcieLinks d).1 then Nat.min width (pcieLinks d).2 else 0
  let d := if width = 0 && d.driveState k = 1 then d.setDrive k 2 else d
  let old := d.rd (R.HBX_DRIVE_WIDTH k)
  let d := d.wr (R.HBX_DRIVE_WIDTH k) width
  if (old = 0) = (width = 0) then d else d.log 0x46 k 0 0x012 (b2n (width != 0))

/-- A drive becomes FAILED and its link is held down (R393, R395): READs that need it end with DRIVE_FAILED. -/
def failDrive (d : Dev) (k : Nat) : Dev :=
  let d := ((linkDrive d k 0).putDrive k { (linkDrive d k 0).hdrive k with aborts := [], resetAt := none, down := true }).setDrive k 3
  let hit := d.hbx.cmds.filter fun c => c.op = 2 && c.outs.contains k
  let d := hit.foldl (fun d c =>
    let d := d.hput { d.hbx with cmds := d.hbx.cmds.map fun x => if x.ser = c.ser then { x with outs := [] } else x }
    if Dev.hopen c then d.endCmd c.ser 9 0 else d) d
  let stuck := d.hbx.staged.filter fun w => w.phase = 2 && w.drive = k && w.data != []
  let d := stuck.foldl retryWrite d
  d.mapStaged fun w => if w.data == [] && w.drive = k then { w with drive := ((List.range 4).find? fun j => d.driveState j = 1).getD k } else w

/-- The SSD admin timeout of 10 s passes (R393): an Abort that has not resolved leads to a controller reset, a reset
after which the drive is not ready to FAILED. -/
def actAdminTimeout (k : Nat) (d : Dev) : Dev :=
  let x := d.hdrive k
  match x.resetAt, x.aborts.head? with
  | some t, _ => ((failDrive (d.upTo (t + seconds 10)) k)).pump
  | none, some a =>
    let d := d.upTo (a.2 + seconds 10)
    let d := (d.putDrive k { x with aborts := [], resetAt := some d.now }).emit (.nvme k .resetController 0 0 0 [])
    ((failDriveWrites ((d.cnt R.HBX_CTRL_RESETS).setDrive k 2) k)).pump
  | none, none => d

/-- The device makes itself the host of a drive: its admin queue, an Identify, and its I/O queue pair, of depth 1,024 (R369). -/
def openQueues (d : Dev) (k : Nat) : Dev :=
  ((d.emit (.nvme k .adminQueue 0 0 0 [])).emit (.nvme k .identify 0 0 0 [])).emit (.nvme k .createQueues 0 0 1024 [])

/-- A drive reports ready (R392, R393). -/
def actDriveReady (k : Nat) (d : Dev) : Dev :=
  if d.driveState k ≠ 2 then d else
  let d := (d.putDrive k { d.hdrive k with aborts := [], resetAt := none }).setDrive k 1
  let d := openQueues d k
  match d.hbx.fw with
  | some (tag, j, _) =>
    if j ≠ k then d.pump else
    let d := d.hput { d.hbx with fw := none }
    match d.hcmdTag tag with
    | some c =>
      let d := d.hput { d.hbx with cmds := d.hbx.cmds.map fun x => if x.ser = c.ser then { x with outs := [] } else x }
      (d.endCmd c.ser 0 c.len).pump
    | none => d.pump
  | none => d.pump

/-- A drive is not ready within 20 s of the Firmware Commit (R392). -/
def actActivationTimeout (d : Dev) : Dev :=
  match d.hbx.fw with
  | none => d
  | some (tag, _, t) =>
    let d := (d.upTo (t + seconds 20)).hput { d.hbx with fw := none }
    match d.hcmdTag tag with
    | some c =>
      let d := d.hput { d.hbx with cmds := d.hbx.cmds.map fun x => if x.ser = c.ser then { x with outs := [] } else x }
      (d.endCmd c.ser 7 0).pump
    | none => d

/-- PCIE_LINK_CHANGE (R369). -/
def actPcieLink (k width : Nat) (d : Dev) : Dev := linkDrive d k width

/-! Power failure (R388). -/

/-- Every client command that has not completed ends with POWER_FAIL, but for one that an abort has ended. -/
def actPfailFall (d : Dev) : Dev :=
  if !d.pins.pfailN then d else
  let d := { d with pins := { d.pins with pfailN := false } }.cnt R.HBX_POWER_FAILS
  ((d.hbx.cmds.filter fun c => Dev.uncompleted c && c.status != some 1).foldl (fun d c => d.overrule c.ser 8) d).pump

/-- PFAIL_N rises: batches resume (R388). -/
def actPfailRise (d : Dev) : Dev := ({ d with pins := { d.pins with pfailN := true } }).pump

/-! The mount and the roll-forward (R371, R374, R387, R398). -/

/-- A drive keeps R370 and R371: it presents the namespace that the image names, formatted as it must be, and its superblock names this store
set and this drive. -/
def driveFits (d : Dev) (k : Nat) (x : DriveInfo) : Bool :=
  x.namespace_ = d.hbx.namespace_ && x.block = 4096 && x.metadata = 0 && x.storeSet = d.hbx.storeSet && x.number = k

/-- The records that stand on the drives, without the extents of deleted takes. -/
def rolled (d : Dev) (ds : List DriveInfo) : List CommitRec :=
  let all := ds.zipIdx.flatMap fun p =>
    if p.1.present && driveFits d p.2 p.1 then (p.1.index.filterMap decodeRec) ++ p.1.journal.flatMap pageRecs else []
  let all := all.eraseDups
  all.filter fun r => decide (r.len = 0) || !(all.any fun q => q.take = r.take && bit q.flags 2 && q.later r)

/-- The takes that records give, of an opening or of data (R387), not deleted since. -/
def takesOf (recs : List CommitRec) : List Take :=
  let opens := recs.filter fun r => (bit r.flags 3 || decide (0 < r.len)) && !(recs.any fun q => q.take = r.take && bit q.flags 2 && q.later r)
  (opens.map CommitRec.take).eraseDups.map fun id =>
    let closed := recs.any fun q => q.take = id && bit q.flags 1
    ⟨id, 0, 0, !closed, durableEnd recs id, durableEnd recs id, 0⟩

/-- One drive as the mount finds it (R370, R371). -/
def mountDrive (d : Dev) (k : Nat) (x : DriveInfo) : Dev :=
  if !bit (d.rd R.HBX_CFG_DRIVES) k || !x.present || decide ((pcieLinks d).1 ≤ k) then d.wr (R.HBX_DRIVE_STATE k) 0 else
  let d := d.putDrive k { HDrive.reset with base := 2 + 256 * (Config.idxMib + Config.jrnMib), segs := x.segs, jpos := x.journal.length }
  let d := openQueues d k
  if driveFits d k x then d.setDrive k 1 else d.setDrive k 3

/-- An open take ends at its last durable BLOCK_END. -/
def closeDurable (recs : List CommitRec) (t : Take) : Take :=
  if t.open_ then { t with open_ := false, readable := durableEnd recs t.id } else t

/-- A new take linked to another continues its stream; its number is a free value (R397, R398, log entry 3). -/
def openLinked (d : Dev) (t : Take) : Dev :=
  let id := d.freeVal 12 % 2 ^ 32
  let d := d.drawn.putTake ⟨id, t.id, t.client, true, 0, 0, 0⟩
  let s := d.hbx.ser
  ((d.hput { d.hbx with ser := s + 1 }).stageRecord s t.client id 0 8).switchTake t.client id

/-- The mount after BOOT, or the roll-forward that follows a takeover's first claim: the takes are those of the last cut with what the
records after it opened, closed and deleted; a recorder whose take was open goes on in one linked to it. -/
def actMount (ds : List DriveInfo) (d : Dev) : Dev :=
  if !d.pins.pfailN || !d.inService then d else
  let recs := rolled d ds
  let lsn := recs.foldl (fun n r => Nat.max n (r.lsn + 1)) d.hbx.lsn
  if d.rdb R.HBX_STATUS_MOUNTED then
    if d.hbx.rollDue && !d.hbx.hold then
      let recs := (d.hbx.recs ++ recs).eraseDups
      let found := takesOf recs
      let gone (t : Take) : Bool := recs.any fun q => q.take = t.id && bit q.flags 2
      let kept := d.hbx.takes.filter fun t => !gone t || found.any fun u => u.id = t.id
      let more := found.filter fun u => !(kept.any fun t => t.id = u.id)
      let closed (t : Take) : Bool := recs.any fun q => q.take = t.id && bit q.flags 1
      let again := kept.filter fun t => t.open_ && !closed t && (d.recorder t.client).any fun r => r.kind ≤ 2
      let lost := d.hbx.staged.map Staged.ser
      let d := d.hput { d.hbx with recs := recs, lsn := lsn, rollDue := false, staged := []
                                   takes := (kept ++ more).map (closeDurable recs) }
      (again.foldl openLinked (failFlushes d lost 6)).pump
    else d
  else
    let d := ds.zipIdx.foldl (fun d p => if p.2 < 4 then mountDrive d p.2 p.1 else d) d
    let d := d.hput { d.hbx with recs := recs, lsn := lsn, takes := (takesOf recs).map (closeDurable recs) }
    (d.wr R.HBX_STATUS_MOUNTED 1).pump

/-- FORMAT writes the two superblocks of every drive of the store set (Table 13-1), on a device that may write to the drives: in COLD
and in WARM it writes nothing (R23, R396), nor while PFAIL_N is low (R388). -/
def actFormat (d : Dev) : Dev :=
  if d.state ≠ .live || !d.pins.pfailN then d else
  let n := ((List.range 4).filter fun k => bit (d.rd R.HBX_CFG_DRIVES) k).length
  ((List.range 4).filter fun k => bit (d.rd R.HBX_CFG_DRIVES) k).foldl
    (fun d k => [0, 1].foldl (fun d lba => d.emit (.superblock k lba d.hbx.storeSet k n Config.idxMib Config.jrnMib)) d) d

/-! Across a veer and a takeover (R396 to R398). -/

namespace Dev

/-- An applied cut shows a range committed: a WARM device discards what it has staged of it (R396). -/
def hbxCut (d : Dev) (recs : List CommitRec) (takes : List Take) : Dev :=
  let merge (t : Take) : Take := match d.findTake t.id with
    | some u => { t with comp := Nat.max t.comp u.comp, readable := Nat.max t.readable u.readable }
    | none => t
  d.hput { d.hbx with
    recs := recs
    lsn := recs.foldl (fun n r => Nat.max n (r.lsn + 1)) d.hbx.lsn
    takes := takes.map merge ++ d.hbx.takes.filter fun u => u.open_ && !(takes.any fun t => t.id = u.id)
    staged := d.hbx.staged.filter fun w => !(if w.data == [] then recs.any fun r => r.take = w.take && Nat.land r.flags w.flags != 0
      else holdRange recs w.take recs.length w.off (w.off + w.data.length)) }

/-- The outgoing device of a veer abandons what it has staged, but for batches that have reached step 2 (R397); a FLUSH that covers what is
lost so ends with MEDIA (R385; log entry 76). -/
def hbxOutgoing (d : Dev) : Dev :=
  let kept := d.hbx.drives.toList.flatMap fun x => match x.batch with
    | some b => if 2 ≤ b.step then b.cover else []
    | none => []
  let lost := (d.hbx.staged.filter fun w => w.data != [] && !(w.phase = 3 && kept.contains w.ser)).map Staged.ser
  let d := failFlushes d lost 6
  d.hput { d.hbx with
    staged := (d.hbx.staged.filter fun w => decide (w.phase = 1) || (w.phase = 3 && kept.contains w.ser)).map fun w =>
      if w.phase = 1 then { w with dead := true } else w
    drives := d.hbx.drives.map fun x => match x.batch with
      | some b => if 2 ≤ b.step then x else { x with batch := none }
      | none => x }

/-- The incoming device writes what it has staged beyond each take's durable end; a take at whose durable end it holds
nothing is closed and a linked one opened (R397). -/
def hbxIncoming (d : Dev) : Dev :=
  let gap := d.hbx.takes.filter fun t => t.open_ &&
    !(d.hbx.staged.any fun w => w.take = t.id && decide (w.off ≤ writtenEnd d.hbx.recs t.id)
      && decide (writtenEnd d.hbx.recs t.id < w.off + w.data.length))
  let d := gap.foldl (fun d t =>
    openLinked (d.putTake { t with open_ := false, readable := durableEnd d.hbx.recs t.id }) t) d
  d.pump

/-- A takeover: no NVMe Write until the first claim is accepted and the journals are rolled forward (R398). -/
def hbxTakeover (d : Dev) : Dev := d.hput { d.hbx with hold := true, rollDue := true }

/-- A tile has accepted the first claim (R398). -/
def hbxClaimed (d : Dev) : Dev := d.hput { d.hbx with hold := false }

end Dev

def execHbxWrite (s : State) : Host.Outcome State Fault Refusal := runEngine s fun m d => actHbxWrite m d
def execHbxRead (s : State) : Host.Outcome State Fault Refusal := runEngine s fun m d => actHbxRead m d
def execHbxFlush (s : State) : Host.Outcome State Fault Refusal := runEngine s fun m d => actHbxFlush m d
def execOpenTake (s : State) : Host.Outcome State Fault Refusal := runEngine s fun m d => actOpenTake m d
def execCloseTake (s : State) : Host.Outcome State Fault Refusal := runEngine s fun m d => actCloseTake m d
def execDeleteTake (s : State) : Host.Outcome State Fault Refusal := runEngine s fun m d => actDeleteTake m d
def execFwActivate (s : State) : Host.Outcome State Fault Refusal := runEngine s fun m d => actFwActivate m d
def execWriteStaged (tag : Fin 1024) (s : State) : Host.Outcome State Fault Refusal := runEngine s fun m d => actWriteStaged tag m d
def execReadComplete (tag : Fin 1024) (data : List Byte) (result : NvmeEnd) (copied : Nat) (s : State) :
    Host.Outcome State Fault Refusal := runEngine s fun _ d => actReadComplete tag data result copied d
def execNvmeWriteComplete (ser : Nat) (result : NvmeEnd) (s : State) : Host.Outcome State Fault Refusal :=
  runEngine s fun _ d => actNvmeDone ser result d
def execCommitBatchStart (drive : Fin 4) (s : State) : Host.Outcome State Fault Refusal := runEngine s fun _ d => actBatchStart drive d
def execBatchStepDone (drive : Fin 4) (s : State) : Host.Outcome State Fault Refusal := runEngine s fun _ d => actBatchStep drive d
def execHbxCmdTimeout (tag : Fin 1024) (s : State) : Host.Outcome State Fault Refusal := runEngine s fun _ d => actHbxTimeout tag d
def execSsdAdminTimeout (drive : Fin 4) (s : State) : Host.Outcome State Fault Refusal := runEngine s fun _ d => actAdminTimeout drive d
def execDriveReady (drive : Fin 4) (s : State) : Host.Outcome State Fault Refusal := runEngine s fun _ d => actDriveReady drive d
def execDriveActivationTimeout (s : State) : Host.Outcome State Fault Refusal := runEngine s fun _ d => actActivationTimeout d
def execCompletionPost (client : Fin 16) (s : State) : Host.Outcome State Fault Refusal := runEngine s fun _ d => actCompletionPost client d
def execHatboxMount (drives : List DriveInfo) (s : State) : Host.Outcome State Fault Refusal := runEngine s fun _ d => actMount drives d
def execFormat (s : State) : Host.Outcome State Fault Refusal := runEngine s fun _ d => actFormat d
def execPcieLinkChange (drive : Fin 4) (width : Fin 5) (s : State) : Host.Outcome State Fault Refusal :=
  run s fun _ d => actPcieLink drive width d
def execPfailNFall (s : State) : Host.Outcome State Fault Refusal := run s fun _ d => actPfailFall d
def execPfailNRise (s : State) : Host.Outcome State Fault Refusal := run s fun _ d => actPfailRise d

end Sys2Proof.Machine
end

