-- ==== Sys2Proof/Machine/Dram.lean ====
section
/-!
DEFINITION. The DRAM controllers (chapter 18): arbitration windows, promotion, timeouts, ECC, refresh and scrubbing.
-/

namespace Sys2Proof.Machine
namespace Dev

def dramChan (d : Dev) (c : Nat) : DramChan := d.dram.chans.getD c ⟨[], 0, [0, 0], 0, 0⟩
def putDramChan (d : Dev) (c : Nat) (x : DramChan) : Dev := { d with dram := { d.dram with chans := setV d.dram.chans c x } }

/-- The controllers run: they are trained, and the memory is not in self-refresh (Table 22-2, R545). -/
def dramRuns (d : Dev) : Bool := d.inService || (d.state = .boot && d.boot.trained)

/-- The ARB and SCRUB fields of a quadrant, whose committed values its controller takes between windows (R92). -/
def dramKey (q k : Nat) : Bool := decide (8 * (0x500004 + 0x10000 * q) ≤ k) && decide (k < 8 * (0x50000C + 0x10000 * q))

/-- AGE_US held to 1 to 8 (Table 18-3). -/
def dramAge (d : Dev) (q : Nat) : Span := micros (clampNat (d.lv (R.DRM_ARB_AGE_US q)) 1 8)

/-- LIVE_RES held to 160 (Table 18-3). -/
def dramRes (d : Dev) (q : Nat) : Nat := Nat.min (d.lv (R.DRM_ARB_LIVE_RES q)) 160

/-! Arbitration (R484 to R486). -/

/-- The place of a request in the order of R484 and R485, lowest first: LIVE, promoted STREAM, STREAM and promoted BULK,
BULK. -/
def dramRank (r : DramReq) : Nat :=
  match r.cls, r.up with
  | .live, _ => 0
  | .stream, true => 1
  | .stream, false => 2
  | .bulk, true => 2
  | .bulk, false => 3

/-- A request may be served: none to its unit reached the controller before it (R486). -/
def dramFree (queue : List DramReq) (r : DramReq) : Bool :=
  !(queue.any fun p => decide (p.id < r.id) && p.addr / 32 = r.addr / 32)

/-- The first request of a rank that may be served. -/
def dramFirst (queue : List DramReq) (rank : Nat) : Option DramReq :=
  queue.find? fun r => dramRank r = rank && dramFree queue r

/-- The request served next. -/
def dramNext (queue : List DramReq) : Option DramReq :=
  ((dramFirst queue 0).or (dramFirst queue 1)).or ((dramFirst queue 2).or (dramFirst queue 3))

/-- Bursts of a window are served in order: what is left, and the numbers served. With LIVE first in every choice, the
reservation is met before anything else. -/
def dramServe : Nat → List DramReq → List DramReq × List Nat
  | 0, queue => (queue, [])
  | n + 1, queue =>
    match dramNext queue with
    | none => (queue, [])
    | some r =>
      let (left, ids) := dramServe n (queue.filter fun p => p.id != r.id)
      (left, r.id :: ids)

/-- The data rate in MT/s (R480). -/
def dramRate (d : Dev) : Nat := match d.rd (R.DRM_CFG_RATE 0) with
  | 1 => 7500
  | 2 => 6400
  | _ => 8533

/-- A window: 1,024 cycles of the DRAM clock, an eighth of the data rate (R480, R484). -/
def dramSpan (d : Dev) : Span := 8192 * secUnits / (d.dramRate * 1000000)

/-- LIVE requests of a queue. -/
def dramLive (queue : List DramReq) : Nat := (queue.filter fun r => dramRank r = 0).length

/-- A channel's timeout episode ends at a request that completes normally (R487). -/
def dramOk (d : Dev) (c : Nat) : Dev :=
  let x := d.dramChan c
  if x.late = 0 then d else
  (d.putDramChan c { x with late := 0 }).log (0x50 + c / 8) c 3 0x00C x.late 2

/-- Requests that have waited AGE_US are promoted (R485). -/
def dramPromote (d : Dev) (c : Nat) : Dev :=
  let x := d.dramChan c
  let due (r : DramReq) : Bool := !r.up && dramRank r != 0 && decide (r.at_ + d.dramAge (c / 8) ≤ d.now)
  (d.putDramChan c { x with queue := x.queue.map fun r => if due r then { r with up := true } else r }).addCnt
    (R.DRM_PROMOTED (c / 8) (c % 8)) (x.queue.filter due).length

/-- A request ends with the 10 µs timeout (R487): it leaves its channel, a read is one with an uncorrectable error, and the first of an
episode is logged. -/
def dramExpire (d : Dev) (c : Nat) (addr : Nat) (write : Bool) (id : Option Nat) : Dev :=
  let x := d.dramChan c
  let d := d.putDramChan c { x with queue := x.queue.filter fun p => some p.id != id, late := x.late + 1 }
  let d := d.cnt (R.DRM_TIMEOUT (c / 8) (c % 8))
  let d := if write || d.late.contains (addr / 32) then d else { d with late := addr / 32 :: d.late }
  if x.late = 0 then d.log (0x50 + c / 8) c 3 0x00C 0 1 else d

/-- The requests of a channel that have waited 10 µs time out. -/
def dramExpireAll (d : Dev) (c : Nat) : Dev :=
  ((d.dramChan c).queue.filter fun r => decide (r.at_ + micros 10 < d.now)).foldl (fun d r => d.dramExpire c r.addr r.write (some r.id)) d

/-- Requests beyond the usable capacity end with an error response (R482). -/
def dramBeyond (d : Dev) (arrivals : List DramArrival) : Dev :=
  (arrivals.filter fun a => decide (d.dramC ≤ a.addr)).foldl (fun d a => d.log 0x50 0 4 0x005 (a.addr % 65536 + 65536 * b2n a.write)) d

/-- Requests reach a channel. -/
def dramArrive (d : Dev) (c : Nat) (arrivals : List DramArrival) : Dev :=
  arrivals.foldl (fun d a =>
    let x := d.dramChan c
    let d := d.putDramChan c { x with queue := x.queue ++ [⟨d.dram.next, a.from_.cls, a.addr, a.write, d.now, false⟩] }
    { d with dram := { d.dram with next := d.dram.next + 1 } }) d

/-- A window of a channel that a calibration overlaps: nothing is served, and the LIVE bursts of its reservation are kept
for the next windows (R489). -/
def dramBlocked (d : Dev) (c : Nat) : Dev :=
  let x := d.dramChan c
  d.putDramChan c { x with kept := x.kept + Nat.min (d.dramRes (c / 8)) (dramLive x.queue - x.kept) }

/-- A window of a channel: up to LIVE_RES and what is owed of LIVE, then the rest by class, `slots` bursts in all. -/
def dramWindow (d : Dev) (c slots : Nat) : Dev :=
  let x := d.dramChan c
  let half := (x.kept + 1) / 2
  let res := d.dramRes (c / 8) + x.owed.getD 0 0 + half
  let short := decide (res < dramLive x.queue)
  let (left, ids) := dramServe slots x.queue
  let d := d.putDramChan c { x with queue := left, kept := 0, owed := [x.owed.getD 1 0 + half, 0] }
  let d := if short then d.cnt (R.DRM_LIVE_SHORT (c / 8) (c % 8)) else d
  let d := d.emit (.dramServed c ids)
  if ids = [] then d else d.dramOk c

/-- A channel's calibration window is open: at most 3 µs from the start of its run (R330). -/
def dramCalib (d : Dev) (c : Nat) : Bool := d.calib.runs.any fun r => r.unit = ⟨2, c⟩ && decide (d.now < r.start + micros 3)

/-- A request to a channel waits for its calibration window to end (R330). -/
def dramWait (d : Dev) (c : Nat) : Dev :=
  match d.calib.runs.find? fun r => r.unit = ⟨2, c⟩ with
  | some r => d.upTo (r.start + micros 3)
  | none => d

end Dev

/-- DRAM_WINDOW (R484, R485, R487, R489): a window of a channel begins `dt` after the latest moment, and no sooner than the one before it ends; the requests that have reached
the controller since its last window arrive, and `slots` of its bursts are not lost to refresh, row changes and
turnarounds. -/
def actDramWindowOf (c dt : Nat) (arrivals : List DramArrival) (slots : Nat) (d : Dev) : Dev :=
  if !d.dramRuns then d else
  let d := ((d.pass dt).upTo (d.dramChan c).due).applyComm (Dev.dramKey (c / 8))
  let d := d.putDramChan c { d.dramChan c with due := d.now + d.dramSpan }
  let d := ((d.dramExpireAll c).dramPromote c).dramBeyond arrivals
  let d := d.dramArrive c (arrivals.filter fun a => (d.dramPlace a.addr).1 = c && decide (a.addr < d.dramC))
  if d.dramCalib c then d.dramBlocked c else d.dramWindow c slots

/-- REQUEST_PROMOTION (R485): the request of a channel that has waited longest, LIVE requests and promoted ones apart, has
waited AGE_US. -/
def actPromotion (c : Nat) (d : Dev) : Dev :=
  let x := d.dramChan c
  match x.queue.find? fun r => !r.up && Dev.dramRank r != 0 with
  | none => d
  | some r =>
    let d := d.upTo (r.at_ + d.dramAge (c / 8))
    let d := d.putDramChan c { x with queue := x.queue.map fun p => if p.id = r.id then { p with up := true } else p }
    d.cnt (R.DRM_PROMOTED (c / 8) (c % 8))

/-- DRAM_READ_COMPLETE (R482, R487, R490, R491): a read of a unit by a requester returns; a single-bit error is corrected and written
back, an uncorrectable one is reported and stays in the unit. -/
def actDramRead (addr : Nat) (from_ : Requester) (ecc : Ecc) (d : Dev) : Dev :=
  if !d.dramRuns then d else
  if d.dramC ≤ addr then d.log 0x50 0 4 0x005 (addr % 65536) else
  let u := addr / 32
  let c := (d.dramPlace addr).1
  let d := ({ d with late := d.late.filter fun x => x != u }).dramOk c
  if d.poison.contains u then d.dramUe u from_.cls else
  match ecc with
  | .clean => d
  | .single => d.cnt (R.DRM_CE (c / 8) (c % 8))
  | .double => ({ d with poison := u :: d.poison }).dramUe u from_.cls

/-- DRAM_REQUEST_TIMEOUT (R487): a request to an address has not completed within 10 µs; a read that ends so is treated as
one with an uncorrectable error. -/
def actDramTimeout (addr : Nat) (write : Bool) (d : Dev) : Dev :=
  if !d.dramRuns || decide (d.dramC ≤ addr) then d else
  let c := (d.dramPlace addr).1
  match (d.dramChan c).queue.find? fun r => r.addr = addr && r.write = write with
  | some r => (d.upTo (r.at_ + micros 10)).dramExpire c addr write (some r.id)
  | none => d.dramExpire c addr write none

/-- MR4_POLL (R493): a channel's refresh-rate field is read; `rate` is 0 at or below the 1× threshold, 1 within the operating
range, 2 above it. -/
def actMr4 (c dt rate : Nat) (d : Dev) : Dev :=
  if !d.dramRuns then d else
  let d := d.pass dt
  let q := c / 8
  let i := c % 8
  let old := bits (d.rd (R.DRM_STATUS_REF_MULT q)) (2 * i + 1) (2 * i)
  let d := d.wr (R.DRM_STATUS_REF_MULT q) (setBits (d.rd (R.DRM_STATUS_REF_MULT q)) (2 * i + 1) (2 * i) rate)
  let d := if old = rate then d else d.log (0x50 + q) c 0 0x00D rate
  let d := d.flagBit c (R.DRM_HOT q) i 0 false (rate = 2)
  if rate = 2 then d.cnt (R.DRM_HOT_POLLS q i) else d

namespace Dev

/-- The device address of a channel address of a global channel: the inverse of Table 18-1. -/
def dramAddr (d : Dev) (ch ca : Nat) : Nat :=
  let c := d.dramC
  let spread (g : Nat) : Nat :=
    let row := ca / g
    (row * 32 + Nat.xor (Nat.xor ch (row % 32)) (row / 32 % 32)) * g + ca % g
  match d.rd (R.DRM_CFG_ORDER 0) with
  | 0 => spread 256
  | 1 => spread 2048
  | 2 =>
    let row := ca / 256
    ch / 8 * (c / 4) + (row * 8 + Nat.xor (Nat.xor (ch % 8) (row % 8)) (row / 8 % 8)) * 256 + ca % 256
  | _ => ch * (c / 32) + ca

/-- ECC units of a channel. -/
def dramUnits (d : Dev) : Nat := d.dramC / 32 / 32

/-- The time between the reads of a quadrant's scrubber: every unit of its eight channels once in HOURS hours (R494; 0 acts as 1). -/
def scrubSpan (d : Dev) (q : Nat) : Span := Nat.max 1 (d.lv (R.DRM_SCRUB_HOURS q)) * 3600 * secUnits / Nat.max 1 (8 * d.dramUnits)

end Dev

/-- DRAM_SCRUB (R494, R503): the scrubber of a quadrant reads its next unit, in ascending channel address, the channels in
turn at each address, when it falls due. -/
def actDramScrub (q : Fin 4) (dt : Nat) (ecc : Ecc) (d : Dev) : Dev :=
  if !d.dramRuns || d.lulling (.dramScrub q) then d else
  let d := (d.pass dt).applyComm (Dev.dramKey q)
  if !d.lvb (R.DRM_SCRUB_EN q) then d.wrb (R.DRM_STATUS_SCRUBBING q) false else
  let d := d.wrb (R.DRM_STATUS_SCRUBBING q) true
  let (u, c) := d.dram.scrub.getD q (0, 0)
  let next := if c < 7 then (u, c + 1) else ((u + 1) % d.dramUnits, 0)
  let d := d.upTo (d.dram.scrubAt.getD q 0)
  let d := { d with dram := { d.dram with scrub := setAt d.dram.scrub q next, scrubAt := setAt d.dram.scrubAt q (d.now + d.scrubSpan q) } }
  (actDramRead (d.dramAddr (8 * q + c) (32 * u)) .scrub ecc (d.dramWait (8 * q + c))).lullAfter (.dramScrub q) 65536 32

def execDramWindow (chan : Fin 32) (dt : Nat) (arrivals : List DramArrival) (slots : Fin 257) (s : State) :
    Host.Outcome State Fault Refusal := run s fun _ d => actDramWindowOf chan dt arrivals slots d
def execRequestPromotion (chan : Fin 32) (s : State) : Host.Outcome State Fault Refusal := run s fun _ d => actPromotion chan d
def execDramReadComplete (addr : Nat) (ret : DramReturn) (s : State) : Host.Outcome State Fault Refusal :=
  run s fun _ d => actDramRead addr ret.from_ ret.ecc d
def execDramRequestTimeout (addr : Nat) (write : Bool) (s : State) : Host.Outcome State Fault Refusal :=
  run s fun _ d => actDramTimeout addr write d
def execMr4Poll (chan : Fin 32) (dt : Nat) (rate : Fin 3) (s : State) : Host.Outcome State Fault Refusal :=
  run s fun _ d => actMr4 chan dt rate d
def execDramScrub (quadrant : Fin 4) (dt : Nat) (ecc : Ecc) (s : State) : Host.Outcome State Fault Refusal :=
  run s fun _ d => actDramScrub quadrant dt ecc d

end Sys2Proof.Machine
end

