-- ==== Sys2Proof/Machine/Net.lean ====
section
/-!
DEFINITION. The Ethernet ports, PTP and the RTP streams (chapter 17).
-/

namespace Sys2Proof.Machine

/-! Ethernet ports (R457, R458). -/

/-- A port runs: enabled, and the device in a state in which the ports run (Table 22-2). -/
def Dev.ethRuns (d : Dev) (p : Nat) : Bool := d.rdb (R.ETH_PORT_CTRL_EN p) && d.inService

/-- ETH_LINK_CHANGE (R458): link and lock of a port, in STATUS; a change is logged. -/
def actEthLink (p : Nat) (fec block link : Bool) (d : Dev) : Dev :=
  if !d.rdb (R.ETH_PORT_CTRL_EN p) then d else
  let same := d.rdb (R.ETH_PORT_STATUS_FEC_LOCK p) = fec && d.rdb (R.ETH_PORT_STATUS_BLOCK_LOCK p) = block &&
    d.rdb (R.ETH_PORT_STATUS_LINK p) = link
  if same then d else
  (((d.wrb (R.ETH_PORT_STATUS_FEC_LOCK p) fec).wrb (R.ETH_PORT_STATUS_BLOCK_LOCK p) block).wrb
    (R.ETH_PORT_STATUS_LINK p) link).log 0x45 p 0 0x012 (b2n link)

namespace Dev

/-- A frame without the VLAN tag of its port; none for a frame with another tag (R457). -/
def vlanStrip (d : Dev) (p : Nat) (f : List Byte) : Option (List Byte) :=
  if beAt f 12 2 ≠ 0x8100 then some f
  else if d.rdb (R.ETH_PORT_CTRL_VLAN_EN p) ∧ beAt f 14 2 % 4096 = d.rd (R.ETH_PORT_CTRL_VID p) then some (f.take 12 ++ f.drop 16)
  else none

/-- A frame as a port sends it, with the tag where VLAN_EN is 1. -/
def vlanTag (d : Dev) (p : Nat) (f : List Byte) : List Byte :=
  if d.rdb (R.ETH_PORT_CTRL_VLAN_EN p) then f.take 12 ++ beBytes 2 0x8100 ++ beBytes 2 (d.rd (R.ETH_PORT_CTRL_VID p)) ++ f.drop 12 else f

/-- An untagged frame carries a fragment of an IP datagram (R458). -/
def ipFragment (f : List Byte) : Bool :=
  (beAt f 12 2 = 0x0800 && beAt f 20 2 % 2 ^ 14 != 0) || (beAt f 12 2 = 0x86DD && beAt f 20 1 = 44)

end Dev

/-- ETH_SERVICE_FRAME (R457, R458): a frame that asks for an answer; a frame over 1,522 bytes is discarded and counted, and one with
another VLAN tag or a fragment is discarded. -/
def actEthService (p : Nat) (frame : List Byte) (d : Dev) : Dev :=
  if !d.ethRuns p then d else
  if 1522 < frame.length then d.cnt R.ETH_OVERSIZE else
  match d.vlanStrip p frame with
  | none => d
  | some f =>
    if Dev.ipFragment f then d else
    match Config.ethAnswer p f with
    | some a => d.emit (.eth p (d.vlanTag p a))
    | none => d

/-! PTP (R460 to R464). -/

namespace Dev

def servoNone : Nat := 0
def servoAcquiring : Nat := 1
def servoLocked : Nat := 2
def servoHoldover : Nat := 3

/-- The transport that PTP uses (R460): 0 UDP/IPv4, 1 UDP/IPv6, 2 layer 2; the code 3 acts as 0. -/
def ptpTransport (d : Dev) : Nat := d.cm R.PTP_CTRL_TRANSPORT % 3

/-- PTP takes messages: enabled, in a state in which the ports run, of its transport and its domain. -/
def ptpRuns (d : Dev) (p transport domain : Nat) : Bool :=
  d.ethRuns p && d.cmb R.PTP_CTRL_EN && decide (transport = d.ptpTransport) && decide (domain = d.cm R.PTP_CTRL_DOMAIN)

/-- The frequency correction in force moves the STC for the time that has passed (R463). -/
def ptpDrift (d : Dev) : Dev :=
  let x := d.ptp.freq * ((d.now - d.ptp.freqAt : Nat) : Int) / 1000000000
  { d with stcOff := d.stcOff + x, ptp := { d.ptp with freqAt := d.now } }

/-- A hardware stamp of a received event message, corrected (R461). -/
def ptpRx (d : Dev) (p : Nat) : Int := (d.stc : Nat) - (nanos (d.cm (R.PTP_LAT_RX_LAT p)) : Nat)

/-- A hardware stamp of a transmitted Delay_Req, corrected (R461). -/
def ptpTx (d : Dev) (p : Nat) : Int := (d.stc : Nat) + (nanos (d.cm (R.PTP_LAT_TX_LAT p)) : Nat)

/-- The order of the best master clock algorithm over data sets: less is better (IEEE 1588; log entry 4). -/
def bmcaKey (a : Announce) : List Nat := [a.prio1, a.cls, a.accuracy, a.variance, a.prio2, a.gm, a.steps, a.source]

/-- Lexicographic order. -/
def lexLess : List Nat → List Nat → Bool
  | a :: r, b :: s => decide (a < b) || (a = b && lexLess r s)
  | _, _ => false

/-- announceReceiptTimeout of both profiles, in Announce intervals (log entry 4). -/
def announceLimit : Nat := 3

/-- A master is qualified: two Announces within four intervals, and fewer than 255 steps removed (IEEE 1588; log entry 4). -/
def qualified (d : Dev) (m : Master) : Bool :=
  decide (m.info.steps < 255) && (match m.prev with
    | some p => decide (d.now ≤ p + 4 * nanos m.info.interval)
    | none => false)

/-- The best qualified master of a port, in the domain. -/
def bestMaster (d : Dev) (p : Nat) : Option Master :=
  (d.ptp.masters.filter fun m => m.port = p && m.info.domain = d.cm R.PTP_CTRL_DOMAIN && d.qualified m).foldl (fun (b : Option Master) (m : Master) =>
    match b with
    | none => some m
    | some x => if lexLess (bmcaKey m.info) (bmcaKey x.info) then some m else b) none

/-- The master that Sync is taken from (R463). -/
def wantedMaster (d : Dev) : Option Master :=
  let p := d.cm R.PTP_CTRL_PORT_SEL
  (d.bestMaster p).or (if d.cmb R.PTP_CTRL_FALLBACK_EN then d.bestMaster (1 - p) else none)

/-- An acquisition begins (R463, R464). -/
def ptpAcquire (d : Dev) : Dev :=
  { (d.wr R.PTP_STATUS_SERVO servoAcquiring) with
    ptp := { d.ptp with acq := true, exch := [], twoStep := none, sync := none, req := none, good := 0 } }

/-- The servo loses its master: HOLDOVER, and WTM is told (R463, R68). -/
def ptpLose (d : Dev) : Dev :=
  let d := { d with ptp := { d.ptp with sel := none, acq := false, exch := [], twoStep := none, sync := none, req := none, good := 0 } }
  (d.wr R.PTP_STATUS_SERVO servoHoldover).setPtpValid false

/-- The servo takes the master that it wants: a change of grandmaster or port, and the return of a lost master, begin an
acquisition; a change of master or port is counted. -/
def ptpSelect (d : Dev) : Dev :=
  match d.wantedMaster with
  | none => if d.ptp.sel.isSome then d.ptpLose else d
  | some m =>
    let gm := d.rdPair (R.PTP_GM_ID 0) (R.PTP_GM_ID 1)
    let first := d.rd R.PTP_STATUS_SERVO = servoNone
    let samePort := d.rd R.PTP_STATUS_ACTIVE_PORT = m.port
    let same := samePort && gm = m.info.gm
    let d := ((d.wr R.PTP_STATUS_ACTIVE_PORT m.port).wr R.PTP_STATUS_STEPS_REMOVED (Nat.min m.info.steps 255)).wrPair
      (R.PTP_GM_ID 0) (R.PTP_GM_ID 1) m.info.gm
    let held := d.ptp.sel
    let changed := match held with
      | some q => q != (m.port, m.info.source)
      | none => !same
    let d := if !first && changed then d.cnt R.PTP_MASTER_CHANGES else d
    let d := { d with ptp := { d.ptp with sel := some (m.port, m.info.source) } }
    if held.isSome && same then
      (if changed then { d with ptp := { d.ptp with twoStep := none, sync := none, req := none } } else d)
    else d.ptpAcquire

/-- The master in use is no longer one that Sync may be taken from: the registers name another port or another domain (R460, R463). -/
def ptpStale (d : Dev) : Bool :=
  let p := d.cm R.PTP_CTRL_PORT_SEL
  match d.ptp.masters.find? fun m => d.ptp.sel = some (m.port, m.info.source) with
  | none => false
  | some m => m.info.domain != d.cm R.PTP_CTRL_DOMAIN || (m.port != p && (!d.cmb R.PTP_CTRL_FALLBACK_EN || (d.bestMaster p).isSome))

/-- The message comes from the master in use. -/
def fromMaster (d : Dev) (p source : Nat) : Bool := d.ptp.sel = some (p, source)

/-- The first offset after BOOT sets the STC directly; the line generator, which counts from REF until then, keeps its
boundaries (R464, Table 3-1). -/
def ptpFirst (d : Dev) (x : Int) : Dev :=
  let d := (d.stcMove x).originStep x
  { d with ptp := { d.ptp with first := false, acq := false, exch := [], sync := none } }.setPtpValid true

/-- The median of an acquisition's offsets: of the two middle ones, their mean. -/
def median (l : List Int) : Int :=
  let s := sortInt l
  (s.getD (s.length / 2 - 1) 0 + s.getD (s.length / 2) 0).fdiv 2

/-- The offset of a later acquisition is refused, or stepped out of the STC together with t₀ (R464, R74). PTP whose jump is refused is
not valid, since the servo has not applied the offset of the master that it holds (R68); that is no loss that LOSSES counts. -/
def ptpDecide (d : Dev) (x : Int) : Dev :=
  let d := { d with ptp := { d.ptp with acq := false, exch := [], sync := none } }
  if x < -d.jumpLimit ∨ d.jumpLimit < x then
    let d := ((d.wr R.PTP_PENDING_JUMP (satNs x)).cnt R.PTP_JUMPS_REFUSED).wr R.PTP_STATUS_SERVO servoHoldover
    { d with wtm := { d.wtm with jump := x, ptpValid := false } }.refuseJump x (d.refSource = 1)
  else
    let d := (d.wr R.PTP_PENDING_JUMP 0).flag 0 R.WTM_STATUS_JUMP_PENDING 0 false false
    let d := { d with wtm := { d.wtm with jump := 0 } }
    let d := (d.stcStep x).originStep x
    if d.wtm.ptpValid then
      (if d.refSource = 1 && (d.lock = lockLocked || d.lock = lockSlewing || d.lock = lockHoldover) then d.startSlew else d)
    else d.setPtpValid true

/-- A Sync of the master is complete: `t2` its receipt, `t1` its origin with corrections (R460, R463). -/
def ptpSync (d : Dev) (t2 t1 : Int) : Dev :=
  let d := d.cnt R.PTP_SYNC_RX
  let d := { d with ptp := { d.ptp with sync := some (t2, t1) } }
  if d.ptp.acq || d.ptp.first then d else
  let off := t1 + d.ptp.delay - t2
  let d := d.wr R.PTP_OFFSET (satNs off)
  if d.rd R.PTP_STATUS_SERVO = servoHoldover then d else
  let near := decide (-(nanos 100 : Nat) ≤ off) && decide (off ≤ (nanos 100 : Nat))
  let good := if near then Nat.min 16 (d.ptp.good + 1) else 0
  let f : Int := (d.freeVal 20 % 200001 : Nat) - 100000
  let d := d.drawn
  let d := { d with ptp := { d.ptp with good := good, freq := f } }
  d.wr R.PTP_STATUS_SERVO (if good = 16 then servoLocked else servoAcquiring)

/-- An exchange of Sync and Delay_Req is complete: `t3` the departure of the Delay_Req, `t4` its receipt with
corrections. -/
def ptpExchange (d : Dev) (t3 t4 : Int) : Dev :=
  match d.ptp.sync with
  | none => d
  | some (t2, t1) =>
    let off := ((t1 - t2) + (t4 - t3)).fdiv 2
    let d := { d with ptp := { d.ptp with delay := ((t2 - t1) + (t4 - t3)).fdiv 2 } }
    let d := d.wr R.PTP_OFFSET (satNs off)
    if d.ptp.first then d.ptpFirst off
    else if d.ptp.acq then
      let l := d.ptp.exch ++ [off]
      if l.length < 8 then { d with ptp := { d.ptp with exch := l } } else d.ptpDecide (median l)
    else d

/-- A pending jump has been accepted: the offset of the master in use is applied, so that PTP is valid (R68, R465). -/
def ptpAccepted (d : Dev) : Dev :=
  let d := d.wr R.PTP_PENDING_JUMP 0
  if d.ptp.sel.isSome then
    let d := (d.wr R.PTP_STATUS_SERVO servoAcquiring)
    { d with ptp := { d.ptp with good := 0, sync := none } }.setPtpValid true
  else d

end Dev

/-- ANNOUNCE_RECEIVE (R460, R463). -/
def actAnnounce (p dt : Nat) (a : Announce) (d : Dev) : Dev :=
  let d := d.pass dt
  if !d.ptpRuns p a.transport a.domain then d else
  let old : Option Master := d.ptp.masters.find? fun m => m.port = p && m.info.source = a.source
  let d := { d with ptp := { d.ptp with
    masters := ⟨p, a, d.now, old.map Master.at_⟩ :: d.ptp.masters.filter fun m => !(m.port = p && m.info.source = a.source) } }
  d.ptpSelect

/-- ANNOUNCE_TIMEOUT (R463): announceReceiptTimeout expires for the master of a port: the one in use, else the one heard
longest ago. -/
def actAnnounceTimeout (p : Nat) (d : Dev) : Dev :=
  let used : Option Master := d.ptp.masters.find? fun m => some (m.port, m.info.source) = d.ptp.sel && m.port = p
  let oldest : Option Master := (d.ptp.masters.filter fun m => m.port = p).foldl (fun (b : Option Master) (m : Master) =>
    match b with
    | none => some m
    | some x => if m.at_ < x.at_ then some m else b) none
  match used.or oldest with
  | none => d
  | some m =>
    let d := (d.upTo (m.at_ + Dev.announceLimit * nanos m.info.interval)).cnt R.PTP_ANNOUNCE_TO
    let d := { d with ptp := { d.ptp with masters := d.ptp.masters.filter fun x => x != m } }
    d.ptpSelect

/-- SYNC_RECEIVE (R460, R461). -/
def actSync (p dt : Nat) (x : PtpMsg) (d : Dev) : Dev :=
  let d := (d.pass dt).ptpDrift
  if !d.ptpRuns p x.transport x.domain then d else
  let d := if d.ptpStale then d.ptpSelect else d
  if !d.fromMaster p x.source then d else
  let t2 := d.ptpRx p
  if x.twoStep then { d with ptp := { d.ptp with twoStep := some (p, x.seq, t2, x.corr) } }
  else d.ptpSync t2 ((x.time : Int) + x.corr)

/-- FOLLOW_UP_RECEIVE (R460): completes the two-step Sync of its sequenceId. -/
def actFollowUp (p : Nat) (x : PtpMsg) (d : Dev) : Dev :=
  if !(d.ptpRuns p x.transport x.domain && d.fromMaster p x.source) then d else
  match d.ptp.twoStep with
  | none => d
  | some (q, seq, t2, corr) =>
    if q = p ∧ seq = x.seq then
      { d with ptp := { d.ptp with twoStep := none } }.ptpSync t2 ((x.time : Int) + corr + x.corr)
    else d

/-- DELAY_REQ_SEND (R460 to R462): its stamp enters the queue, or is lost to a full one. None leaves before the interval that the master
granted has passed since the one before. -/
def actDelayReq (dt : Nat) (d : Dev) : Dev :=
  let d := d.pass dt
  match d.ptp.sel with
  | none => d
  | some (p, _) =>
    if !d.ptpRuns p d.ptpTransport (d.cm R.PTP_CTRL_DOMAIN) || decide (d.now < d.ptp.reqAt + nanos d.ptp.granted) then d else
    let t3 := d.ptpTx p
    let seq := d.ptp.seq
    let full := decide (64 ≤ d.ptp.tsq.length)
    let d := if full then d.cnt R.PTP_TS_OVF
      else { d with ptp := { d.ptp with tsq := d.ptp.tsq ++ [⟨seq, 1, p, t3.toNat⟩] } }
    { d with ptp := { d.ptp with req := some (p, seq, if full then none else some t3), seq := (seq + 1) % 65536, reqAt := d.now } }.emit
      (.delayReq p seq)

/-- DELAY_RESP_RECEIVE (R460, R462): completes an exchange, unless the stamp of its Delay_Req was lost. -/
def actDelayResp (p dt : Nat) (x : PtpMsg) (d : Dev) : Dev :=
  let d := (d.pass dt).ptpDrift
  if !(d.ptpRuns p x.transport x.domain && d.fromMaster p x.source) then d else
  match d.ptp.req with
  | none => d
  | some (q, seq, t3) =>
    if q = p ∧ seq = x.seq then
      let d := { d with ptp := { d.ptp with req := none, granted := x.interval } }
      match t3 with
      | some t => d.ptpExchange t ((x.time : Int) - x.corr)
      | none => d
    else d

/-- A write of 1 to TSQ_POP (R462). -/
def actTsqPop (d : Dev) : Dev := { d with ptp := { d.ptp with tsq := d.ptp.tsq.tail } }

/-! RTP streams (R477 to R479). -/

namespace Rtp

/-- Split an Annex B byte stream at its start codes: the NAL units before the first code onward, given the bytes of the unit
in progress (reversed; none before the first start code). Trailing zero bytes belong to the next start code. -/
def split : List Byte → Option (List Byte) → List (List Byte)
  | 0 :: 0 :: 1 :: r, cur => (match cur with
      | some c => ((c.dropWhile (· = 0)).reverse) :: split r (some [])
      | none => split r (some []))
  | b :: r, cur => split r (cur.map (b :: ·))
  | [], cur => match cur with
      | some c => [(c.dropWhile (· = 0)).reverse]
      | none => []

/-- Cut bytes into pieces of n at most. -/
def pieces (n : Nat) : Nat → List Byte → List (List Byte)
  | 0, _ => []
  | fuel + 1, l => if l = [] then [] else l.take n :: pieces n fuel (l.drop n)

/-- The payloads of the packets of a NAL unit (R478; RFC 7798): one packet, or fragmentation units of type 49 with S on the
first and E on the last. -/
def payloads (most : Nat) (nal : List Byte) : List (List Byte) :=
  if nal.length ≤ most then [nal] else
  let h0 := (nal.getD 0 0).toNat
  let size := clampNat (Config.rtpFragment most) 1 (most - 3)
  let cut := pieces size nal.length (nal.drop 2)
  cut.mapIdx fun i x =>
    let s := if i = 0 then 128 else 0
    let e := if i + 1 = cut.length then 64 else 0
    BitVec.ofNat 8 (Nat.land h0 129 + 98) :: nal.getD 1 0 :: BitVec.ofNat 8 (s + e + h0 / 2 % 64) :: x

end Rtp

namespace Dev

/-- The session that a stream is the client of. -/
def rtpSession (d : Dev) (j : Nat) : Nat := d.cm (R.ETH_STREAM_CTRL_SESSION j)

/-- The access units that wait in a session's AU ring. -/
def auWaiting (d : Dev) (s : Nat) : Nat :=
  let n := Nat.max 1 (d.lv (R.HVC_S_AU_SIZE s))
  (d.rd (R.HVC_S_AU_PTRS_AU_DEV s) + n - d.rd (R.HVC_S_AU_PTRS_AU_CLI s) % n) % n

/-- The latch line of the oldest access unit that waits. -/
def auLatch (d : Dev) (s : Nat) : Option Nat :=
  let l := (d.hs s).latches
  if d.auWaiting s = 0 then none else l[l.length - d.auWaiting s]?

/-- The address of the oldest entry in the AU ring. -/
def auAddr (d : Dev) (s : Nat) : Nat :=
  d.lvPair (R.HVC_S_AU_BASE_LO s) (R.HVC_S_AU_BASE_HI s) + 32 * d.rd (R.HVC_S_AU_PTRS_AU_CLI s)

/-- A stream may send: enabled, in LIVE, its port running with a link (R479). -/
def rtpRuns (d : Dev) (j : Nat) : Bool :=
  let p := d.cm (R.ETH_STREAM_CTRL_PORT j)
  d.cmb (R.ETH_STREAM_CTRL_EN j) && d.state = .live && d.ethRuns p && d.rdb (R.ETH_PORT_STATUS_LINK p)

/-- One PERIOD has passed since the latch line (R478; PERIOD counts in 1/256 line). -/
def auLate (d : Dev) (s latch : Nat) : Bool := decide ((d.hvcPeriod s : Int) ≤ 256 * d.ahead48 latch * -1)

/-- The RTP timestamp of a source's DUE line (R478). -/
def rtpTime (d : Dev) (due : Nat) : Nat :=
  let n := d.wtm.n + d.ahead48 due
  let t := d.wtm.t0 + d.linePos n
  ((t * 90000 / (secUnits : Int)) % (2 ^ 32 : Nat)).toNat

/-- The destination address of a stream. -/
def rtpDest (d : Dev) (j : Nat) : List Byte :=
  if d.cmb (R.ETH_STREAM_CTRL_IPV6 j) then (List.range 4).flatMap fun i => beBytes 4 (d.cm (R.ETH_STREAM_DST_IP j i))
  else beBytes 4 (d.cm (R.ETH_STREAM_DST_IP j 3))

/-- A packet of a stream leaves (R478). -/
def rtpPacket (d : Dev) (j ts : Nat) (last : Bool) (payload : List Byte) : Dev :=
  let seq := d.rd (R.ETH_STREAM_NEXT_SEQ j)
  let head := [BitVec.ofNat 8 128, BitVec.ofNat 8 (128 * b2n last + d.cm (R.ETH_STREAM_CTRL_PT j))] ++ beBytes 2 seq ++
    beBytes 4 ts ++ beBytes 4 (d.cm (R.ETH_STREAM_SSRC j))
  let d := d.emit (.udp (d.cm (R.ETH_STREAM_CTRL_PORT j)) (d.rtpDest j) (d.cm (R.ETH_STREAM_UDP_SRC_UDP j))
    (d.cm (R.ETH_STREAM_UDP_DST_UDP j)) (d.cm (R.ETH_STREAM_CTRL_DSCP j)) (head ++ payload))
  (d.wr (R.ETH_STREAM_NEXT_SEQ j) ((seq + 1) % 65536)).cnt (R.ETH_STREAM_PKTS j)

end Dev

/-- The time that packets take at PACE_MBPS (R478), by the bytes of their IP packets. -/
def Dev.paceTime (d : Dev) (j : Nat) (packets : List (List Byte)) : Time :=
  let head := if d.cmb (R.ETH_STREAM_CTRL_IPV6 j) then 60 else 40
  nanos ((packets.map fun p => 8 * (p.length + head)).sum * 1000 / Nat.max 1 (d.cm (R.ETH_STREAM_PACE_MBPS j)))

/-- RTP_AU_SEND (R477 to R479): a stream packetises the oldest access unit of its session and advances past it; the next one leaves once
the stream has taken its pace. -/
def actRtpSend (j : Nat) (mem : List Host.Cell) (d : Dev) : Dev :=
  let s := d.rtpSession j
  match d.auLatch s with
  | none => d
  | some latch =>
    if !d.rtpRuns j || d.auLate s latch || decide (d.now < d.ptp.pace.getD j 0) then d else
    let a := d.auAddr s
    let len := Memory.leNum mem (a + 8) 4
    let size := 4096 * d.lv (R.HVC_S_BUF_BYTES s)
    let base := d.lvPair (R.HVC_S_BUF_BASE_LO s) (R.HVC_S_BUF_BASE_HI s)
    let off := d.rd (R.HVC_S_CLI_PTR s)
    if d.unreadable a 32 || d.unreadable (base + off) (Nat.min len (size - off)) || d.unreadable base (len - (size - off)) then
      d.auConsume s len
    else
      let bytes := Memory.bytes mem (base + off) (Nat.min len (size - off)) ++ Memory.bytes mem base (len - (size - off))
      let mtu := clampNat (d.cm (R.ETH_STREAM_MTU j)) 576 9000
      let most := mtu - (if d.cmb (R.ETH_STREAM_CTRL_IPV6 j) then 76 else 56)
      let packets := (Rtp.split bytes none).flatMap (Rtp.payloads most)
      let ts := d.rtpTime (Memory.leNum mem (a + 18) 6)
      let until_ := d.now + d.paceTime j packets
      let d := (packets.zipIdx).foldl (fun d p => d.rtpPacket j ts (p.2 + 1 = packets.length) p.1) d
      { d with ptp := { d.ptp with pace := setV d.ptp.pace j until_ } }.auConsume s len

/-- RTP_LATE_DROP (R478): an access unit that has not begun to leave within one PERIOD of its latch line is discarded. -/
def actRtpLate (j : Nat) (mem : List Host.Cell) (d : Dev) : Dev :=
  let s := d.rtpSession j
  match d.auLatch s with
  | none => d
  | some latch =>
    if !(d.cmb (R.ETH_STREAM_CTRL_EN j)) || !d.auLate s latch || d.state ≠ .live then d else
    (d.cnt (R.ETH_STREAM_LATE_DROP j)).auConsume s (Memory.leNum mem (d.auAddr s + 8) 4)

def execEthLinkChange (port : Fin 2) (fecLock blockLock link : Bool) (s : State) : Host.Outcome State Fault Refusal :=
  run s fun _ d => actEthLink port fecLock blockLock link d
def execEthServiceFrame (port : Fin 2) (frame : List Byte) (s : State) : Host.Outcome State Fault Refusal :=
  run s fun _ d => actEthService port frame d
def execAnnounceReceive (port : Fin 2) (dt : Nat) (msg : Announce) (s : State) : Host.Outcome State Fault Refusal :=
  run s fun _ d => actAnnounce port dt msg d
def execAnnounceTimeout (port : Fin 2) (s : State) : Host.Outcome State Fault Refusal :=
  run s fun _ d => actAnnounceTimeout port d
def execSyncReceive (port : Fin 2) (dt : Nat) (msg : PtpMsg) (s : State) : Host.Outcome State Fault Refusal :=
  run s fun _ d => actSync port dt msg d
def execFollowUpReceive (port : Fin 2) (msg : PtpMsg) (s : State) : Host.Outcome State Fault Refusal :=
  run s fun _ d => actFollowUp port msg d
def execDelayReqSend (dt : Nat) (s : State) : Host.Outcome State Fault Refusal := run s fun _ d => actDelayReq dt d
def execDelayRespReceive (port : Fin 2) (dt : Nat) (msg : PtpMsg) (s : State) : Host.Outcome State Fault Refusal :=
  run s fun _ d => actDelayResp port dt msg d
def execRtpAuSend (stream : Fin 8) (s : State) : Host.Outcome State Fault Refusal := run s fun m d => actRtpSend stream m d
def execRtpLateDrop (stream : Fin 8) (s : State) : Host.Outcome State Fault Refusal := run s fun m d => actRtpLate stream m d

end Sys2Proof.Machine
end

