-- ==== Sys2Proof/Machine/Felt.lean ====
section
/-!
DEFINITION. The Felt tile codec (chapter 9): the fields of a batt, reconstruction, the encoder's candidates and choice,
and the bit string.
-/

namespace Sys2Proof.Machine
namespace Felt

/-- The bits of a component, by format code (Table 9-1). -/
def depth (fmt : Nat) : Nat := if bit fmt 2 then 12 else 16

/-- The bits of a batt (Table 9-1); 0 for a reserved code. -/
def budget (fmt : Nat) : Nat := match fmt with
  | 1 => 384 | 2 => 256 | 3 => 192 | 5 => 288 | 6 => 192 | 7 => 144 | _ => 0

/-- The widths of the fields of a sample, R, G and B, by mode (0 FLAT, 1 PRED, 2 PAL2, 3 TRUNC) and format (Table 9-3). -/
def widths (mode fmt : Nat) : List Nat := match mode, fmt with
  | 0, 1 => [7, 7, 6] | 0, 2 => [4, 4, 4] | 0, 3 => [3, 3, 2] | 0, 5 => [5, 5, 4] | 0, 6 => [3, 3, 2] | 0, 7 => [2, 2, 1]
  | 1, 1 => [7, 7, 7] | 1, 2 => [4, 4, 4] | 1, 3 => [3, 3, 2] | 1, 5 => [5, 5, 5] | 1, 6 => [3, 3, 3] | 1, 7 => [2, 2, 2]
  | 2, 1 => [5, 6, 5] | 2, 2 => [3, 3, 2] | 2, 3 => [1, 2, 1] | 2, 5 => [4, 4, 3] | 2, 6 => [2, 2, 1] | 2, 7 => [1, 1, 0]
  | 3, 1 => [8, 8, 7] | 3, 2 => [5, 5, 5] | 3, 3 => [4, 4, 3] | 3, 5 => [6, 6, 5] | 3, 6 => [4, 4, 3] | 3, 7 => [3, 3, 2]
  | _, _ => [0, 0, 0]

/-- The fields of a batt (Tables 9-4 to 9-7), each list by channel: base colour (FLAT base, PRED pixel 0, PAL2 colour 0),
second colour, index bits by pixel, shifts, and residuals or codes by channel and pixel. It is no part of the state. -/
structure Fields where
  mode : Nat
  base : List Nat
  pal1 : List Nat
  idx  : List Bool
  sh   : List Nat
  q    : List (List Int)

/-- The median edge predictor (R254): left, above, upper left. -/
def med (a b u : Int) : Int := if max a b ≤ u then min a b else if u ≤ min a b then max a b else a + b - u

/-- The prediction of pixel p from the samples reconstructed so far (R254). -/
def predict (v : List Int) (p : Nat) : Int :=
  if p = 8 then v.getD 0 0 else if p < 8 then v.getD (p - 1) 0
  else med (v.getD (p - 1) 0) (v.getD (p - 8) 0) (v.getD (p - 9) 0)

/-- Reconstruction of one channel (R254), by pixel; `top` is 2^D − 1. -/
def reconChannel (top : Int) (f : Fields) (c : Nat) : List Int :=
  let q (p : Nat) : Int := (f.q.getD c []).getD p 0
  let s : Int := 2 ^ (f.sh.getD c 0)
  let base : Int := f.base.getD c 0
  match f.mode with
  | 0 => (List.range 16).map fun p => clampInt (base + q p * s) 0 top
  | 1 => (List.range 15).foldl (fun v k => v ++ [clampInt (predict v (k + 1) + q (k + 1) * s) 0 top]) [base]
  | 2 => (List.range 16).map fun p =>
      clampInt ((if f.idx.getD p false then ((f.pal1.getD c 0 : Nat) : Int) else base) + q p * s) 0 top
  | _ =>
    let half : Int := if f.sh.getD c 0 = 0 then 0 else 2 ^ (f.sh.getD c 0 - 1)
    (List.range 16).map fun p => min top (q p * s + half)

/-- Reconstruction of a batt (R254), channel by channel. -/
def recon (fmt : Nat) (f : Fields) : List (List Int) :=
  (List.range 3).map (reconChannel (2 ^ depth fmt - 1) f)

/-! The encoder (R260, R261). -/

/-- Quantising a difference by a shift, before the clamp. -/
def quant (e : Int) (s : Nat) : Int := (e + (if s = 0 then 0 else 2 ^ (s - 1))).fdiv (2 ^ s)

/-- The range of a residual of w bits (R253). -/
def inRange (w : Nat) (q : Int) : Bool := decide (-(2 ^ (w - 1)) ≤ q) && decide (q ≤ 2 ^ (w - 1) - 1)
def clampQ (w : Nat) (q : Int) : Int := clampInt q (-(2 ^ (w - 1))) (2 ^ (w - 1) - 1)

/-- Shift and residuals of a channel from its differences. -/
def fit (d w : Nat) (es : List Int) : Nat × List Int :=
  if w = 0 then (0, es.map fun _ => 0) else
  let s := ((List.range d).find? fun s => es.all fun e => inRange w (quant e s)).getD (d - 1)
  (s, es.map fun e => clampQ w (quant e s))

/-- A PRED pass of a channel at a shift (R261): residuals of pixels 1 to 15, and whether none needed the clamp. -/
def predPass (top : Int) (w s : Nat) (v : List Int) : List Int × Bool :=
  let r := (List.range 15).foldl (fun (a : List Int × List Int × Bool) k =>
    let pr := predict a.1 (k + 1)
    let q := quant (v.getD (k + 1) 0 - pr) s
    let qc := clampQ w q
    (a.1 ++ [clampInt (pr + qc * 2 ^ s) 0 top], a.2.1 ++ [qc], a.2.2 && inRange w q)) ([v.getD 0 0], [], true)
  (r.2.1, r.2.2)

/-- Shift and residuals (pixel 0 first, as 0) of a PRED channel. -/
def fitPred (d w : Nat) (v : List Int) : Nat × List Int :=
  let top : Int := 2 ^ d - 1
  let s := ((List.range d).find? fun s => (predPass top w s v).2).getD (d - 1)
  (s, 0 :: (predPass top w s v).1)

/-- The mean of n values, rounded. -/
def mean (l : List Int) : Nat := if l = [] then 0 else ((l.sum + (l.length / 2 : Nat)) / (l.length : Nat)).toNat

/-- The candidate of a mode (R261): `v` holds the drive codes by channel and pixel. -/
def candidate (mode fmt : Nat) (v : List (List Int)) : Fields :=
  let d := depth fmt
  let w (c : Nat) : Nat := (widths mode fmt).getD c 0
  let ch (c : Nat) : List Int := v.getD c []
  let cs := List.range 3
  match mode with
  | 0 =>
    let base := cs.map fun c => (((ch c).sum + 8) / 16).toNat
    let f := cs.map fun c => fit d (w c) ((ch c).map (· - ((base.getD c 0 : Nat) : Int)))
    ⟨0, base, [0, 0, 0], [], f.map Prod.fst, f.map Prod.snd⟩
  | 1 =>
    let f := cs.map fun c => fitPred d (w c) (ch c)
    ⟨1, cs.map fun c => ((ch c).getD 0 0).toNat, [0, 0, 0], [], f.map Prod.fst, f.map Prod.snd⟩
  | 2 =>
    let key (p : Nat) : Int := (ch 0).getD p 0 + 2 * (ch 1).getD p 0 + (ch 2).getD p 0
    let ks := (List.range 16).map key
    let t := (ks.foldl min (key 0) + ks.foldl max (key 0)) / 2
    let idx := ks.map fun k => decide (t < k)
    let part (b : Bool) (c : Nat) : List Int := ((ch c).zip idx).filterMap fun q => if q.2 = b then some q.1 else none
    let p0 := cs.map fun c => mean (part false c)
    let p1 := if idx.any id then cs.map fun c => mean (part true c) else p0
    let f := cs.map fun c => fit d (w c) (((ch c).zip idx).map fun q =>
      q.1 - (((if q.2 then p1 else p0).getD c 0 : Nat) : Int))
    ⟨2, p0, p1, idx, f.map Prod.fst, f.map Prod.snd⟩
  | _ =>
    let sh := cs.map fun c =>
      let top := (ch c).foldl max 0
      (if top = 0 then 0 else Nat.log2 top.toNat + 1) - w c
    ⟨3, [0, 0, 0], [0, 0, 0], [], sh, cs.map fun c => (ch c).map fun x => x.fdiv (2 ^ (sh.getD c 0))⟩

/-- The cost of a candidate (R260). -/
def cost (fmt : Nat) (v : List (List Int)) (f : Fields) : Nat :=
  let r := recon fmt f
  let sum (c : Nat) : Nat := (((r.getD c []).zip (v.getD c [])).map fun q => (q.1 - q.2).natAbs).sum
  sum 0 + 2 * sum 1 + sum 2

/-- The choice (R260, R263): `en` enables FLAT, PRED and PAL2, `force` is FLT.CTRL.FORCE. -/
def choose (fmt : Nat) (flat pred pal : Bool) (force : Nat) (v : List (List Int)) : Fields :=
  match force with
  | 1 => candidate 0 fmt v
  | 2 => candidate 1 fmt v
  | 3 => candidate 2 fmt v
  | 4 => candidate 3 fmt v
  | _ =>
    let modes := (if flat then [0] else []) ++ (if pal then [2] else []) ++ (if pred then [1] else []) ++ [3]
    let cands := modes.map fun k => candidate k fmt v
    cands.foldl (fun best f => if cost fmt v f < cost fmt v best then f else best) (cands.getD 0 (candidate 3 fmt v))

/-! The bit string (R249, Tables 9-4 to 9-7). -/

/-- w bits of a number, the highest first. -/
def msb : Nat → Nat → List Bool
  | 0, _ => []
  | w + 1, v => Nat.testBit v w :: msb w v

/-- Bits as bytes, the first bit the highest of the first byte. -/
def packBits (n : Nat) (l : List Bool) : List Byte :=
  (List.range n).map fun i => BitVec.ofNat 8 ((List.range 8).foldl (fun a j => 2 * a + b2n (l.getD (8 * i + j) false)) 0)

/-- The bits of the fields of a batt, without PAD. -/
def fieldBits (fmt : Nat) (f : Fields) : List Bool :=
  let d := depth fmt
  let w := widths f.mode fmt
  let cols (l : List Nat) : List Bool := l.flatMap (msb d)
  let sh := f.sh.flatMap (msb 4)
  let res (ps : List Nat) : List Bool := ps.flatMap fun p =>
    (List.range 3).flatMap fun c => msb (w.getD c 0) (ofInt (w.getD c 0) ((f.q.getD c []).getD p 0))
  msb 2 f.mode ++
    match f.mode with
    | 0 => cols f.base ++ sh ++ res (List.range 16)
    | 1 => cols f.base ++ sh ++ res ((List.range 15).map (· + 1))
    | 2 => cols f.base ++ cols f.pal1 ++ f.idx ++ sh ++ res (List.range 16)
    | _ => sh ++ res (List.range 16)

/-- The bytes of a batt: its fields, then PAD bits 0. -/
def batt (fmt : Nat) (f : Fields) : List Byte := packBits (budget fmt / 8) (fieldBits fmt f)

/-- The reconstructed samples as they enter the reconstruction check (R256): pixel by pixel, R, G, B, two bytes each. -/
def reconBytes (fmt : Nat) (f : Fields) : List Byte :=
  let r := recon fmt f
  (List.range 16).flatMap fun p => (List.range 3).flatMap fun c => beBytes 2 ((r.getD c []).getD p 0).toNat

/-! Decoding (R251 to R255). -/

/-- The number that bits give, the highest first. -/
def ofMsb (l : List Bool) : Nat := l.foldl (fun a b => 2 * a + b2n b) 0

/-- The bits of bytes, the highest bit of each byte first. -/
def bitsOf (bs : List Byte) : List Bool := bs.flatMap fun b => msb 8 b.toNat

/-- The fields that a batt's bytes give: PAD, and the shift of a channel of width 0, are ignored (R255). -/
def parse (fmt : Nat) (bs : List Byte) : Fields :=
  let l := bitsOf bs
  let d := depth fmt
  let at_ (off w : Nat) : Nat := ofMsb ((l.drop off).take w)
  let mode := at_ 0 2
  let ws := widths mode fmt
  let sum := ws.sum
  let cols (off : Nat) : List Nat := (List.range 3).map fun c => at_ (off + c * d) d
  let shAt := match mode with
    | 2 => 18 + 6 * d | 3 => 2 | _ => 2 + 3 * d
  let sh := (List.range 3).map fun c => if ws.getD c 0 = 0 then 0 else at_ (shAt + 4 * c) 4
  let first := if mode = 1 then 1 else 0
  let q := (List.range 3).map fun c =>
    (List.range 16).map fun p =>
      if p < first then 0 else
      let v := at_ (shAt + 12 + (p - first) * sum + (ws.take c).sum) (ws.getD c 0)
      if mode = 3 then ((v : Nat) : Int) else sext (ws.getD c 0) v
  ⟨mode, if mode = 3 then [0, 0, 0] else cols 2, if mode = 2 then cols (2 + 3 * d) else [0, 0, 0],
    if mode = 2 then (l.drop (2 + 6 * d)).take 16 else [], sh, q⟩

/-- The samples of a batt's bytes, by channel and pixel (R254). -/
def decode (fmt : Nat) (bs : List Byte) : List (List Int) := recon fmt (parse fmt bs)

end Felt
end Sys2Proof.Machine
end

