-- ==== Sys2Proof/Machine/Scan.lean ====
section
/-!
DEFINITION. Scan-out (chapter 8): the scan engines, due times, underruns, test patterns; and the Felt ratio and the Felt
encoder's counts (chapter 9).
-/

namespace Sys2Proof.Machine

/-- The half of a lane (R233): 0 East, 1 West. -/
def halfOf (k : Nat) : Nat := k / 32

/-- PACE in CORE cycles for a format (Table 8-2). -/
def pace (fmt : Nat) : Nat := (Felt.budget fmt * 3000 + 12749) / 12750

namespace Dev

/-- The first column of a half and the column after its last (R196, R233); SPLIT is held to the canvas and to halves of at
most 16,384 columns (R566). -/
def halfX (d : Dev) (n : Nat) : Nat × Nat :=
  let split := clampNat (16 * d.rd R.CMP_SPLIT_SPLIT16) (d.canvasW - 16384) (Nat.min d.canvasW 16384)
  if n = 0 then (0, split) else (split, d.canvasW)

/-- The half of a canvas column. -/
def halfAt (d : Dev) (x : Nat) : Nat := if x < (d.halfX 0).2 then 0 else 1

/-- The format code in use (Table 9-1). -/
def fmt (d : Dev) : Nat := d.scn.ratio + 4 * d.rd R.CLR_CFG_WALL_DEPTH

/-! The Felt ratio (R264, R265). -/

/-- A ratio is permitted by FLT.CFG.ALLOW. -/
def ratioAllowed (d : Dev) (r : Nat) : Bool :=
  (r = 1 && d.rdb R.FLT_CFG_ALLOW_2) || (r = 2 && d.rdb R.FLT_CFG_ALLOW_3) || (r = 3 && d.rdb R.FLT_CFG_ALLOW_4)

/-- A commit of G2 has set the live ratio. -/
def ratioCommit (d : Dev) : Dev :=
  let r := d.lv R.FLT_CTRL_RATIO
  if d.ratioAllowed r then
    ({ d with scn := { d.scn with ratio := r, refused := none } }).wr R.FLT_STATUS_RATIO_REFUSED 0
  else if d.scn.refused = some r ∨ (d.scn.refused = none ∧ r = d.scn.ratio) then d
  else
    let d := { d with scn := { d.scn with refused := some r } }
    ((d.wr R.FLT_STATUS_RATIO_REFUSED 1).cnt R.FLT_RATIO_REF).log 0x23 0 4 0x006 (8 + 16777216)

/-! Test patterns (R245, R246). -/

/-- Block (bx, by) names the tile. -/
def blockIs (d : Dev) (tile : Nat) (bx by_ : Int) : Bool :=
  decide (0 ≤ bx) && decide (0 ≤ by_) && decide (bx < (d.blocksW : Nat)) && decide (by_ < (d.blocksH : Nat))
    && decide (d.blockTile bx.toNat by_.toNat = some tile)

/-- A pixel lies on the outline of its tile (R245). -/
def onOutline (d : Dev) (tile x y : Nat) : Bool :=
  let bx : Int := (x / 16 : Nat)
  let by_ : Int := (y / 16 : Nat)
  (x % 16 = 0 && !d.blockIs tile (bx - 1) by_) || (x % 16 = 15 && !d.blockIs tile (bx + 1) by_)
    || (y % 16 = 0 && !d.blockIs tile bx (by_ - 1)) || (y % 16 = 15 && !d.blockIs tile bx (by_ + 1))

/-- The pattern of a half at a pixel (Table 8-5), with the unity flag of R246; none with no pattern on. -/
def patternAt (d : Dev) (n tile x y : Nat) : Option (Pix × Bool) :=
  let mode := d.lv (R.SCN_TP_CTRL_MODE n)
  if mode = 0 ∨ 6 ≤ mode then none else
  let w := (d.halfX n).2 - (d.halfX n).1
  let c (k : Nat) : Fp :=
    let t := d.lv (R.SCN_TP n k)
    let v := match mode with
      | 1 => t
      | 2 => t * (x - (d.halfX n).1) / Nat.max 1 (w - 1)
      | 3 => t * y / Nat.max 1 (d.canvasH - 1)
      | 4 => if d.onOutline tile x y then t else 0
      | _ => if (x / 16 + y / 16) % 2 = 0 then t else 0
    fpRound ⟨(v : Nat), 32768⟩
  some (⟨c 0, c 1, c 2⟩, d.lvb (R.SCN_TP_CTRL_RAW n))

/-! The wall stage of a band. -/

/-- The key of a canvas pixel. -/
def pixKey (x y : Nat) : Nat := 32768 * y + x

/-- The drive codes of a canvas pixel of a tile (R169, R223, R244 to R246). -/
def pixDrive (d : Dev) (n tile x y : Nat) (p : Pix) : Drive :=
  let e := d.blockEntry (x / 16) (y / 16)
  if d.lvb (R.SCN_CTRL_BLACK n) ∨ bit e 3 then ⟨0, 0, 0, p.sat, false⟩
  else d.wallStage p tile (blockUni e) (d.patternAt n tile x y) x y

/-- The finished rows of band b pass the wall stage; their drive codes are on their way to the scan-out buffer. -/
def scanBand (d : Dev) (b : Nat) (rows : List (List Pix)) : Dev :=
  let drives : List (Nat × Drive) := (List.range 4).flatMap fun r =>
    let y := 4 * b + r
    ((rows.getD r []).zipIdx).filterMap fun q =>
      match d.blockTile (q.2 / 16) (y / 16) with
      | some t => some (pixKey q.2 y, d.pixDrive (d.halfAt q.2) t q.2 y q.1)
      | none => none
  let d := (d.markSat (drives.any fun q => q.2.sat)).markClip (drives.any fun q => q.2.clip)
  let keys := drives.map Prod.fst
  let lo := pixKey 0 (4 * b)
  let hi := pixKey 0 (4 * b + 4)
  let mine (k : Nat) : Bool := decide (lo ≤ k) && decide (k < hi)
  { d with scn := { d.scn with
      codes := drives.foldl (fun m q => SMap.put m q.1 (q.2.r + 65536 * q.2.g + 2 ^ 32 * q.2.b + 1))
        (d.scn.codes.filter fun q => !mine q.1)
      absent := d.scn.absent.filter (fun k => !mine k) ++ keys
      missed := d.scn.missed.filter fun k => !mine k } }

/-! The batts of a band (R234, R235, R238). -/

/-- The block columns of a block row that a tile has within a half. -/
def tileCols (d : Dev) (n tile by_ : Nat) : List Nat :=
  (List.range d.blocksW).filter fun bx =>
    decide ((d.halfX n).1 ≤ 16 * bx) && decide (16 * bx < (d.halfX n).2) && decide (d.blockTile bx by_ = some tile)

/-- The first block column and block row of a tile. -/
def tileOrigin (d : Dev) (tile : Nat) : Nat × Nat :=
  let mine := (List.range d.blocksH).flatMap fun by_ =>
    ((List.range d.blocksW).filter fun bx => decide (d.blockTile bx by_ = some tile)).map fun bx => (bx, by_)
  match mine with
  | [] => (0, 0)
  | p :: r => r.foldl (fun a q => (Nat.min a.1 q.1, Nat.min a.2 q.2)) p

/-- FLT.CTRL's FORCE and enables as one number. -/
def fltCtl (d : Dev) : Nat :=
  d.lv R.FLT_CTRL_FORCE + 16 * d.lv R.FLT_CTRL_FLAT_EN + 32 * d.lv R.FLT_CTRL_PRED_EN + 64 * d.lv R.FLT_CTRL_PAL2_EN

/-- The batts of band b on a lane, in order. -/
def laneBatts (d : Dev) (k b : Nat) : List Batt :=
  let n := halfOf k
  let by_ := b / 4
  let dl := (d.wtm.wln + d.ofs) % 2 ^ 32
  let bare : List Batt := (d.chain k).flatMap fun tile =>
    let cols := d.tileCols n tile by_
    let o := d.tileOrigin tile
    (List.range 2).flatMap fun half =>
      let y := 4 * b + 2 * half
      let xs := cols.flatMap fun bx => [16 * bx, 16 * bx + 8]
      (xs.zipIdx).map fun q =>
        ⟨tile, q.1, y, (y - 16 * o.2) / 2, (q.1 - 16 * o.1) / 8, decide (q.2 + 1 = xs.length), d.wtm.wln, dl, d.deadOf dl, 0, d.fmt,
          d.lvb (R.SCN_CTRL_BLACK n), d.fltCtl, 0⟩
  (bare.zipIdx).map fun q =>
    { q.1 with i := q.2, due := d.wtm.lineAt + (nanos 100 : Nat) + ((q.2 * pace d.fmt * 65536 / 3 : Nat) : Int) }

/-- Band b starts on a lane: batts whose due times come too late are discarded. -/
def startLane (d : Dev) (k b : Nat) : Dev :=
  let limit := d.boundaryAt (d.wtm.n + 4) (d.line + 4) + (nanos 100 : Nat)
  let all := d.laneBatts k b
  let l := d.lane k
  d.putLane k { l with due := l.due ++ all.filter fun t => decide (t.due < limit), over_ := all.any fun t => decide (limit ≤ t.due) }

/-- Batts of a band of a half have yet to be taken. -/
def bandDue (d : Dev) (n band : Nat) : Bool :=
  (List.range 32).any fun i => (d.lane (32 * n + i)).due.any fun b => b.band = band

/-- A half is done with a band (R241): an underrun episode ends where the band has brought no fill. -/
def closeBand (d : Dev) (n band : Nat) : Dev :=
  let d := if d.rdb (R.SCN_STATUS_UNDER_EP n) && !d.scn.filled.contains (n, band) then
      d.flag 0 (R.SCN_STATUS_UNDER_EP n) 2 true false else d
  { d with scn := { d.scn with filled := d.scn.filled.erase (n, band), open_ := d.scn.open_.erase (n, band) } }

/-- The bands of the last four lines end (R238, R241): bands cut short are counted, and a half is done with its band once the batts that
fall due in the first 0.10 µs of the next have been taken. -/
def endBand (d : Dev) : Dev :=
  let d := (List.range 64).foldl (fun d k =>
    let l := d.lane k
    if l.over_ then (d.putLane k { l with over_ := false }).cnt (R.SCN_BAND_OVER (halfOf k)) else d) d
  let band := (d.wtm.wln + 2 ^ 48 - 4) % 2 ^ 48
  (List.range 2).foldl (fun d n =>
    if d.bandDue n band then { d with scn := { d.scn with open_ := d.scn.open_ ++ [(n, band)] } } else d.closeBand n band) d

/-! The engines (R232). -/

/-- Change every lane. -/
def mapLanes (d : Dev) (f : Lane → Lane) : Dev := { d with link := { d.link with lanes := d.link.lanes.map f } }

/-- The device enters WARM or LIVE: whole line periods are counted from here, and the boundary that ends a line entered in its course
counts as 0. -/
def armScan (d : Dev) : Dev := { d with scn := { d.scn with from_ := some (if (d.stc : Int) = d.wtm.lineAt then 0 else -1) } }

/-- What the engines hold of the frame they scan ends. -/
def dropScan (d : Dev) : Dev :=
  let d := { d with
    cmp := { d.cmp with whole := false }
    scn := { d.scn with from_ := none, run := false, codes := [], absent := [], missed := [], filled := [], open_ := [] } }
  d.mapLanes fun l => { l with due := [], over_ := false }

/-- The device leaves WARM and LIVE: both engines stop at once, and with them an underrun episode (log entry 56). -/
def stopScan (d : Dev) : Dev :=
  let d := (List.range 2).foldl (fun d n => d.flag 0 (R.SCN_STATUS_UNDER_EP n) 2 true false) d.dropScan
  (d.wr (R.SCN_STATUS_RUN 0) 0).wr (R.SCN_STATUS_RUN 1) 0

/-- At least k line periods have passed since the device entered WARM or LIVE. -/
def sinceEntry (d : Dev) (k : Nat) : Bool := match d.scn.from_ with
  | some n => decide ((k : Int) ≤ n)
  | none => false

/-- The engines start with band 0 of a frame. -/
def startScan (d : Dev) : Dev :=
  if d.scn.run || d.line ≠ 0 || !d.sinceEntry 8 then d else
  let d := { d with
    scn := { d.scn with run := true, modes := [0, 0, 0, 0], errMax := [0, 0] } }
  let d := d.mapLanes fun l => { l with last := [0, 0, 0], due := [], over_ := false }
  (d.wr (R.SCN_STATUS_RUN 0) 1).wr (R.SCN_STATUS_RUN 1) 1

/-- The counts of a frame whose last band has been coded (R266). -/
def publishFelt (d : Dev) : Dev :=
  let m := d.scn.modes
  let e := d.scn.errMax
  let d := { d with scn := { d.scn with modes := [0, 0, 0, 0], errMax := [0, 0] } }
  (((((d.wr R.FLT_ERR_MAX_EAST (e.getD 0 0)).wr R.FLT_ERR_MAX_WEST (e.getD 1 0)).wr R.FLT_FRM_FLAT (m.getD 0 0)).wr
    R.FLT_FRM_PRED (m.getD 1 0)).wr R.FLT_FRM_PAL2 (m.getD 2 0)).wr R.FLT_FRM_TRUNC (m.getD 3 0)

/-- Compositor and scan-out at a line boundary (R197, R231, R232): the band of the last four lines ends, the counts of a
finished frame appear, and the next band is composited, passes the wall stage and starts on every lane. -/
def scanLine (m : List Host.Cell) (d : Dev) : Dev :=
  if !d.liveOrWarm then d else
  let d := d.startScan
  let d := if d.scn.run && decide (d.line = d.canvasH + 1) then d.publishFelt else d
  if d.line % 4 ≠ 0 then d else
  let d := if d.scn.run && decide (0 < d.line) && decide (d.line ≤ d.canvasH) then d.endBand else d
  if d.canvasH ≤ d.line ∨ !d.sinceEntry 4 then d else
  let b := d.line / 4
  let p := bandComposite m d b
  if !p.1.scn.run then p.1 else
  let d := (p.1.scanBand b p.2).wr R.FLT_STATUS_FMT d.fmt
  (List.range 64).foldl (fun d k => d.startLane k b) d

/-- Batts still held when the lane's next band falls due are discarded (R242). A packet of which the FIFO has taken words and not all
is still held, and gives those words back (log entry 124). -/
def dropHeld (d : Dev) (k : Nat) : Dev :=
  let d := d.fifoFill k
  let l := d.lane k
  let px := l.wait.filter fun f => f.op = 0
  let within := if (l.wait.head?.map Draft.op) = some 0 then 0 else l.within
  ((d.putLane k { l with wait := l.wait.filter fun f => f.op != 0, within := within }).addCnt (R.SCN_LANE_SKIP (halfOf k))
    (px.map fun f => f.batts.length).sum).showFifo k

/-- The pixels of a batt (R250). -/
def battKeys (b : Batt) : List Nat :=
  (List.range 16).map fun p => pixKey (b.x + p % 8) (b.y + p / 8)

/-- A batt is taken from the scan-out buffer (R239): its drive codes, pixel by pixel, and whether any slot was filled. -/
def takePixels (d : Dev) (k : Nat) (b : Batt) : Dev × List (List Nat) × Nat :=
  let step (a : Dev × List (List Nat) × Nat) (key : Nat) : Dev × List (List Nat) × Nat :=
    let d := a.1
    let here := !d.scn.absent.contains key
    let v := SMap.get d.scn.codes key - 1
    let px := if b.black then [0, 0, 0] else if here then [v % 65536, v / 65536 % 65536, v / 2 ^ 32] else (d.lane k).last
    let scn := { d.scn with
      codes := SMap.del d.scn.codes key, absent := d.scn.absent.erase key
      missed := if here then d.scn.missed else key :: d.scn.missed }
    (({ d with scn := scn }).putLane k { d.lane k with last := px }, a.2.1 ++ [px], if here then a.2.2 else a.2.2 + 1)
  (battKeys b).foldl step (d, [], 0)

/-- Slots of a batt were filled (R239, R241). -/
def noteFill (d : Dev) (n : Nat) (b : Batt) (fills : Nat) : Dev :=
  if fills = 0 then d else
  let d := d.addCnt (R.SCN_UNDERRUN_PX n) fills
  let d := if d.scn.filled.contains (n, b.band) then d else { d with scn := { d.scn with filled := (n, b.band) :: d.scn.filled } }
  if d.rdb (R.SCN_STATUS_UNDER_EP n) then d else
  ((d.flag 0 (R.SCN_STATUS_UNDER_EP n) 2 true true).cnt (R.SCN_UNDER_EPISODES n)).wrPair (R.SCN_LAST_UNDER_WLN_LO n)
    (R.SCN_LAST_UNDER_WLN_HI n) b.band

/-- A batt is coded (R260, R266): its bytes, its reconstruction, and the frame's counts. -/
def codeBatt (d : Dev) (n : Nat) (b : Batt) (px : List (List Nat)) : Dev × List Byte × List Byte :=
  let v : List (List Int) := (List.range 3).map fun c => px.map fun p => ((p.getD c 0 : Nat) : Int)
  let f := Felt.choose b.fmt (bit b.ctl 4) (bit b.ctl 5) (bit b.ctl 6) (b.ctl % 8) v
  let r := Felt.recon b.fmt f
  let err := ((r.zip v).map fun q => ((q.1.zip q.2).map fun s => (s.1 - s.2).natAbs).foldl Nat.max 0).foldl Nat.max 0
  let scn := { d.scn with
    modes := setAt d.scn.modes f.mode (d.scn.modes.getD f.mode 0 + 1)
    errMax := setAt d.scn.errMax n (Nat.max (d.scn.errMax.getD n 0) err) }
  ({ d with scn := scn }, Felt.batt b.fmt f, Felt.reconBytes b.fmt f)

end Dev

/-- A batt of a lane falls due (R234, R235, R239, R242): it is taken, coded and handed to the link layer. -/
def actBattDue (k : Nat) (d : Dev) : Dev :=
  match (d.lane k).due with
  | [] => d
  | b :: r =>
    let n := halfOf k
    let d := d.upTo (b.due - d.stcOff).toNat
    let d := d.putLane k { d.lane k with due := r }
    let d := if b.i = 0 then d.dropHeld k else d
    let t := d.takePixels k b
    let d := t.1.noteFill n b t.2.2
    let c := d.codeBatt n b t.2.1
    let d := c.1.takeBatt k b c.2.1 c.2.2
    if d.scn.open_.contains (n, b.band) && !d.bandDue n b.band then d.closeBand n b.band else d

/-- A pixel reaches the scan-out buffer (R240). -/
def actPixel (x y : Nat) (d : Dev) : Dev :=
  let key := Dev.pixKey x y
  if d.scn.missed.contains key then
    ({ d with scn := { d.scn with missed := d.scn.missed.erase key } }).cnt (R.SCN_LATE_PX (d.halfAt x))
  else { d with scn := { d.scn with absent := d.scn.absent.erase key } }

def execBattDue (lane : Fin 64) (s : State) : Host.Outcome State Fault Refusal := run s fun _ d => actBattDue lane d
def execScanoutPixel (x y : Nat) (s : State) : Host.Outcome State Fault Refusal := run s fun _ d => actPixel x y d

end Sys2Proof.Machine
end

