-- ==== Sys2Proof/Machine/Roles.lean ====
section
/-!
DEFINITION. Roles (chapter 12): the changes of state, epochs and claims, becoming windward, takeover, yield.
-/

namespace Sys2Proof.Machine
namespace Dev

def pput (d : Dev) (p : PairPart) : Dev := { d with pair := p }

/-! Changes of state (R334, Table 12-1). -/

/-- What this end holds of the tiles ends: ownership and claims, and the VRs that are out. -/
def dropTiles (d : Dev) : Dev :=
  let d := d.mapLanes fun l => { l with vrs := [] }
  { d with tiles := d.tiles.map fun t => { t with own := Nat.land t.own 8 } }

/-- Segments and the end of a held line end with the wall. -/
def dropSegs (d : Dev) : Dev := { d with link := { d.link with until_ := none }, pair := { d.pair with segs := [] } }

/-- The device leaves WARM or LIVE for a state without pixels: the engines stop, the octets go to idle and no tile is
claimed (R232, R316). -/
def leaveWall (d : Dev) : Dev :=
  let d := (((d.stopScan.idleAll).dropTiles).dropSegs).loopLag false
  (d.setSplit false).wrb R.VEER_STATUS_MIRROR false

/-- The device enters COLD. -/
def enterCold (d : Dev) : Dev :=
  let d := if d.state = .live then d.hvcLeaveLive else d
  let d := d.leaveWall.hvcUnmirror
  (d.setState .cold).pput { d.pair with claiming := false, valid := false, newly := [], held := (0, []), alone := false, refusing := false, refSince := none, outLine := none, prep := none, decided := [] }

/-- The device starts its pipelines, on leaving COLD; the layers' live settings are checked (R200). -/
def startWall (d : Dev) : Dev := (d.startPipes.checkLayers).armScan

/-- The device enters WARM; its octets are asked for by what makes it enter. -/
def enterWarm (d : Dev) : Dev :=
  let d := if d.state = .live then d.hvcLeaveLive else d.startWall
  d.setState .warm

/-- The device enters LIVE (R353, R361): the pipelines that do not run start, the octets of the image are asked for forwarded
mode, and the closed loops go on here (R179). -/
def enterLive (d : Dev) : Dev :=
  let d := if d.state = .cold then d.startWall else d
  let d := { d with link := { d.link with until_ := none } }
  ((d.setState .live).startLoops).requestAll 2

/-! Epochs and claims (R296, R297, R353, R569). -/

def setEpoch (d : Dev) (e : Nat) : Dev := d.wr R.VEER_EPOCH e

/-- The largest epoch that a veer epoch can have (R368). -/
def epochMax : Nat := 2 ^ 32 - 1

/-- E′: one more than the larger of the stored epoch and every epoch that a tile has reported (R353, R569). -/
def nextEpoch (d : Dev) : Nat := 1 + d.tiles.foldl (fun m t => Nat.max m t.tileEpoch) d.epoch

/-- This end owns a tile, or owns it from a line on. -/
def holdsTile (d : Dev) (tile : Nat) : Bool := bit (d.tileLink tile).own 0 || bit (d.tileLink tile).own 1

/-- The partner feeds a tile as part of a segment (R363). -/
def givenTile (d : Dev) (k pos : Nat) : Bool := d.pair.given.any fun s => s.1 = k && (if d.link.tail then decide (pos ≤ s.2) else decide (s.2 ≤ pos))

/-- The member ids of a tile's bond (R276, Table 10-8), the tile itself among them: the tiles at its position on the lanes of its
group. -/
def bondGroup (d : Dev) (tile : Nat) : List Nat :=
  match d.tilePlace tile with
  | none => [tile]
  | some (k, p) =>
    let n := match d.ctxByte tile 66 % 4 with
      | 1 => 2 | 2 => 4 | _ => 1
    if n = 1 then [tile] else (List.range n).filterMap fun i => (d.chain (k / n * n + i))[p]?

/-- A tile is claimed under the present epoch, and with it every member of its bond that this end does not hold (R277). -/
def claimTile (d : Dev) (tile : Nat) : Dev :=
  (d.bondGroup tile).foldl (fun d t => if d.holdsTile t then d else d.askVr t 0 d.myEnd d.epoch 0 false) d

/-- The partner feeds a tile. -/
def givenId (d : Dev) (tile : Nat) : Bool := match d.tilePlace tile with
  | some (k, p) => d.givenTile k p
  | none => false

/-- The tiles among some that get a HANDOVER (R277, R360): those that are not stale, but for the partner's own; a bond goes as a whole or
not at all. One that this end does not hold refuses it, and the handover then fails. -/
def handable (d : Dev) (ts : List Nat) : List Nat :=
  ((ts.flatMap d.bondGroup).dedup).filter fun t => (d.bondGroup t).all fun q => !d.tileStale q && !d.givenId q

/-- The tiles of a lane that this device may claim and does not hold, are claimed. -/
def claimLane (d : Dev) (k : Nat) : Dev :=
  if !d.laneUp k then d else
  (d.enumTiles k).foldl (fun d q => if d.holdsTile q.1 || d.givenTile k q.2 then d else d.claimTile q.1) d

/-- Every tile of every lane that is up. -/
def claimAll (d : Dev) : Dev := (List.range 64).foldl claimLane d

/-- The epoch has risen while claims go on: what this end does not hold is claimed under it, and what it has claimed under the epoch
before (R353, R569). -/
def reclaimAll (d : Dev) (old : Nat) : Dev :=
  ((List.range 64).filter d.laneUp).foldl (fun d k => (d.enumTiles k).foldl (fun d q =>
    if d.givenTile k q.2 || (d.holdsTile q.1 && decide ((d.tileLink q.1).tileEpoch ≠ old)) then d
    else d.askVr q.1 0 d.myEnd d.epoch 0 false) d) d

/-- A claim of this device is out. -/
def claimsOut (d : Dev) : Bool := d.link.lanes.toList.any fun l => l.vrs.any fun v => v.kind = 0 && !v.probe

/-! Becoming windward (R335, R336, R353, R569). -/

/-- A device may not enter LIVE under R70: the refusal is logged (R335). `cause` is 0 for a takeover, 1 for a veer. -/
def liveRefused (d : Dev) (cause : Nat) : Dev := d.log 0x07 0 4 0x023 (cause + 16 * d.lock)

/-- Epochs have run out: nothing is claimed, and the refusal is logged (R368). -/
def epochsOut (d : Dev) : Dev := (d.wr R.VEER_STATUS_LAST_REFUSE 9).log 0x07 0 4 0x017 9

/-- The device chosen at role selection becomes windward, where R70 lets it (R336, R569); until then it stays COLD and the
choice stays open. To a partner that is paired by then it owes a base (R349). -/
def becomeWindward (d : Dev) (alone : Bool) : Dev :=
  if !d.mayGoLive then d else
  let e := d.nextEpoch
  if epochMax < e then d.epochsOut.pput { d.epochsOut.pair with selecting := false } else
  let d := (d.setEpoch e).pput { d.pair with
    selecting := false, alone := alone, liveAt := d.now, readyAt := d.now, refSince := none, claiming := true, refusing := false
    newly := [], held := (0, []), baseDue := d.rdb R.TOP_STATE_PAIRED, baseLeft := 0 }
  (d.enterLive.hvcNewCvs false).claimAll

/-- Calendar entries of the span between the applied cut and a takeover (R535): a COMMIT is marked PAST, the others are
dropped and logged. -/
def takeoverCalendar (d : Dev) : Dev :=
  let gone := d.cal.entries.filter fun e => e.action != 1 && (e.past || decide (d.ahead e.target ≤ 0))
  let keep := d.cal.entries.filter fun e => !gone.contains e
  let d := { d with cal := { d.cal with
    entries := keep.map fun e => if decide (d.ahead e.target ≤ 0) then { e with past := true } else e } }
  gone.foldl (fun d e => d.log 0x02 0 4 0x008 (e.tag + 65536 * 5)) d

/-- The tiles of a segment. -/
def segmentTiles (d : Dev) (k p : Nat) : List Nat :=
  (((d.chain k).zipIdx).filter fun q => if d.link.tail then decide (p ≤ q.2) else decide (q.2 ≤ p)).map Prod.fst

/-- Of what this end holds at a takeover, the tiles of its segments stay its own (R353); handovers that the tiles have yet to carry out
count for nothing. -/
def keepSegments (d : Dev) : Dev :=
  let mine := d.pair.segs.flatMap fun s => d.segmentTiles s.1 s.2
  { d with tiles := d.tiles.map fun t => { t with own := Nat.land t.own (if mine.contains t.id then 9 else 8) } }

/-- A leeward declares takeover (R353, R354, R368). The tiles of segments that it feeds stay its own, and every lane is its own whole. -/
def takeover (d : Dev) : Dev :=
  if !(d.state = .cold || d.state = .warm) then d else
  if !d.mayGoLive then d.liveRefused 0 else
  let e := d.nextEpoch
  if epochMax < e then d.epochsOut else
  let age := Nat.min (d.rd R.VEER_CUT_AGE) 65535
  let d := (d.cnt R.VEER_TAKEOVERS).log 0x07 0 2 0x015 (age + 2 ^ 31 * b2n d.pair.cut.isNone)
  let d := (d.takeoverCalendar.wrb R.VEER_STATUS_MIRROR false).setEpoch e
  let d := d.keepSegments
  let d := d.pput { d.pair with
    selecting := false, alone := true, liveAt := d.now, readyAt := d.now, refSince := none, claiming := true, refusing := true,
    prep := none, outLine := none, given := [], segs := [], heal := [], back := none
    valid := false, newly := [], held := (0, []), mirrorTo := none, decided := [] }
  let d := (d.mapLanes fun l => { l with part := none, vrs := [] }).setSplit false
  ((d.hbxTakeover.hvcUnmirror.enterLive).hvcNewCvs false).claimAll

/-- The partner is treated as failed (R340, R343): PAIRED clears, and path episodes end. -/
def partnerGone (d : Dev) : Dev :=
  let d := if d.rdb R.VEER_STATUS_PATH_A then (d.wrb R.VEER_STATUS_PATH_A false).log 0x07 0 2 0x013 0 2 else d
  let d := if d.rdb R.VEER_STATUS_PATH_B then (d.wrb R.VEER_STATUS_PATH_B false).log 0x07 0 2 0x013 1 2 else d
  let d := (d.wrb R.TOP_STATE_PAIRED false).wrb R.VEER_STATUS_SYNCED false
  let d := if d.state = .live then d.wrb R.VEER_STATUS_MIRROR false else d
  d.pput { d.pair with
    failed := true, kept := [], based := false, baseDue := false, baseLeft := 0, given := []
    partner := d.pair.partner.map fun b => { b with windward := false, synced := false } }

/-! Yield (R341 to R345). -/

/-- YIELD_OUT_N falls (R342). -/
def yieldPin (d : Dev) : Dev := { d with pins := { d.pins with yieldN := false } }

/-- The fields of this device's words of Table 12-2. -/
def myBeat (d : Dev) : Beat :=
  ⟨stateCode d.state, d.state = .live, d.rdb R.VEER_STATUS_SYNCED, d.rdb R.TOP_STATE_ROLE_STRAP, d.rdb R.VEER_STATUS_READY, d.epoch,
    d.rd R.VEER_DEV_TAG, d.frameOf d.wtm.wln % 65536, (d.pair.cut.map fun c => c.wln % 65536).getD 0⟩

/-- YIELD_OUT_N falls and the yield word goes out on both paths (R342). -/
def yieldWords (d : Dev) (reason : Nat) : Dev :=
  let w := beatPack 2 reason d.myBeat
  (d.yieldPin.sendFrame (.yield w)).emitWord w

/-- The fault is on record (R342). -/
def yieldLog (d : Dev) (reason : Nat) : Dev := (d.wr R.VEER_STATUS_LAST_YIELD reason).log 0x07 0 5 0x019 reason

/-- A yield up to CALM (R342). -/
def yieldSay (d : Dev) (reason : Nat) : Dev := ((d.yieldWords reason).yieldLog reason).calm 3

/-- YIELD_HOLD starts, and SPIT_IRQ_N is released (Table 22-2). -/
def yieldHold (d : Dev) : Dev := { d with boot := { d.boot with yieldAt := d.now }, pins := { d.pins with spitIrqN := true } }

/-- The device yields with a reason (R342). -/
def yield (d : Dev) (reason : Nat) : Dev :=
  if !d.inService then d else ((d.yieldSay reason).leaveWall.hvcStop.yieldHold).setState .yielded

/-- A yield of the partner has been detected (R343). -/
def partnerYield (d : Dev) : Dev :=
  if d.pair.failed || !d.inService then d else
  let d := (d.cnt R.VEER_PARTNER_YIELDS).partnerGone
  if d.state = .live then d.log 0x07 0 0 0x014 2 else d.takeover

/-! What becomes of claims (R296, R354, R356). -/

/-- Every tile of the lanes of the image is this device's, or is fed by its partner. -/
def allHeld (d : Dev) : Bool :=
  (List.range 64).all fun k => (d.enumTiles k).all fun q => d.holdsTile q.1 || d.givenTile k q.2

/-- A tile has accepted a CLAIM of this device: it owns the tile (R304). With the last of them the device's own claims are over. Until
output is valid, when a tile came counts (R355). -/
def claimAccepted (d : Dev) (tile : Nat) : Dev :=
  let t := d.tileLink tile
  let d := d.putTile { t with own := setBit (setBit (setBit t.own 0 true) 1 false) 2 false }
  let d := if d.pair.refusing then d.hbxClaimed else d
  let newly := if d.pair.claiming && !d.pair.valid then (tile, d.now) :: d.pair.newly.filter fun p => p.1 != tile else d.pair.newly
  let d := d.pput { d.pair with alone := false, refusing := false, refSince := none, readyAt := d.now, newly := newly }
  d.pput { d.pair with claiming := d.pair.claiming && !(d.allHeld && !d.claimsOut) }

/-- A tile has refused a CLAIM: it is claimed again (R297, the case). -/
def claimRefused (d : Dev) (k tile : Nat) : Dev :=
  let d := d.pput { d.pair with refSince := some (d.pair.refSince.getD d.now) }
  let l := d.lane k
  if l.vrs.any fun v => v.tile = tile then d else
  if d.epoch ≤ epochMax && (d.state = .live || d.state = .warm) then
    d.putLane k { l with vrs := l.vrs ++ [⟨tile, 0, d.myEnd, d.epoch, 0, false, some d.wtm.wln, d.now⟩] }
  else d

end Dev

/-- CLAIM_GIVEUP (R356): every claim has been refused for CLAIM_GIVEUP since LIVE was entered by takeover or alone. -/
def actGiveup (d : Dev) : Dev :=
  if !(d.state = .live && d.pair.alone && d.pair.refSince.isSome) then d else
  let d := d.upTo (d.pair.liveAt + millis (clampNat (d.rd R.VEER_TIMERS_CLAIM_GIVEUP) 100 1023))
  let d := (d.cnt R.VEER_CLAIM_GIVEUPS).log 0x07 0 0 0x014 6
  let entered := !d.pair.refusing
  let d := d.enterCold
  d.pput { d.pair with gaveUp := d.pair.gaveUp || entered }

/-- YIELD_TEST: a write of 1 to VEER.CTRL.YIELD_TEST (R341). -/
def actYieldTest (d : Dev) : Dev := d.yield 15

/-- YIELD_PIN (R343, R547): YIELD_IN_N low for 2 µs, which counts only while PAIRED. -/
def actYieldPin (d : Dev) : Dev := if d.rdb R.TOP_STATE_PAIRED then d.partnerYield else d

def execClaimGiveup (s : State) : Host.Outcome State Fault Refusal := run s fun _ d => actGiveup d
def execYieldPin (s : State) : Host.Outcome State Fault Refusal := run s fun _ d => actYieldPin d

end Sys2Proof.Machine
end

