-- ==== Sys2Proof/Machine/LinkEvents.lean ====
section
/-!
DEFINITION. The tile link's replies (R291, R294 to R300, R306) and the lanes' events that the redundancy control follows:
claims, handovers, lanes that come up, the pairing link.
-/

namespace Sys2Proof.Machine
namespace Dev

/-! Handovers (R360, R363, R365). -/

/-- A tile has accepted a HANDOVER of this device: the partner is told, with the line from which its end owns the tile. -/
def handoverAccepted (d : Dev) (tile : Nat) (v : Vr) : Dev :=
  let add (l : List Nat) : List Nat := if l.contains tile then l else l ++ [tile]
  let d := match d.pair.prep with
    | some p => if p.sent.contains tile then d.pput { d.pair with prep := some { p with accepted := add p.accepted } } else d
    | none => d
  let d := match d.pair.back with
    | some b => if b.sent.contains tile then d.pput { d.pair with back := some { b with accepted := add b.accepted } } else d
    | none => d
  d.sendFrame (.request (.accepted [tile] v.atLine))

/-- A tile of a segment of this device has accepted its claim: SPLIT is set, and the windward is told (R363). -/
def segmentClaimed (d : Dev) (k tile : Nat) : Dev :=
  if d.state = .warm && d.pair.segs.any (fun s => s.1 = k) then
    (d.setSplit true).sendFrame (.request (.claimed [tile]))
  else d

/-- A tile has decided on a VR (R297): the repetition ends, and the redundancy control learns what became of it. -/
def vrDecided (d : Dev) (k : Nat) (r : Ret) (accepted : Bool) : Dev :=
  let d := if accepted then d else d.cnt (R.MVL_VR_REFUSED k)
  match (d.lane k).vrs.find? fun v => v.tile = r.tile && v.sent.isSome with
  | none => d
  | some v =>
    let d := d.putLane k { d.lane k with vrs := (d.lane k).vrs.filter fun x => x.tile != r.tile }
    if v.probe then d
    else if accepted then
      if v.kind = 0 then (d.claimAccepted r.tile).segmentClaimed k r.tile else d.handoverAccepted r.tile v
    else if v.kind = 0 then d.claimRefused k r.tile
    else d

/-! Lanes that come up (R353, R358, R363). -/

/-- Every tile of a lane gets a probe: a CLAIM under the tile's reported epoch (R358). -/
def probeLane (d : Dev) (k : Nat) : Dev :=
  (d.enumTiles k).foldl (fun d q => if d.holdsTile q.1 then d else d.askVr q.1 0 d.myEnd (d.tileLink q.1).tileEpoch 0 true) d

/-- The tiles of a segment of this device are claimed. -/
def claimSegment (d : Dev) (k p : Nat) : Dev :=
  (d.enumTiles k).foldl (fun d q => if (if d.link.tail then decide (p ≤ q.2) else decide (q.2 ≤ p)) && !d.holdsTile q.1 then d.claimTile q.1 else d) d

/-- A report of a tile shows an epoch that this device itself has given it: under which it owns the tile, or under which it hands the
tile over. -/
def ownReport (d : Dev) (r : Ret) : Bool :=
  (r.epoch = d.epoch && r.owned = 1 && r.ownEnd = d.myEnd)
    || (d.pair.prep.any fun p => p.sent.contains r.tile && decide (r.epoch = d.epoch + 1))
    || (d.pair.back.any fun b => b.sent.contains r.tile && decide (r.epoch = b.epoch))

/-- A tile has reported its EPOCH: while this device's own claims go on, it takes a higher epoch than any that others have given a tile,
and claims under it (R353, R569). -/
def heardEpoch (d : Dev) (r : Ret) : Dev :=
  if d.state = .live && d.pair.claiming && !d.ownReport r && decide (d.epoch ≤ r.epoch) && decide (r.epoch < epochMax) then
    (d.setEpoch (r.epoch + 1)).reclaimAll d.epoch
  else d

/-- A lane has come up: in LIVE its tiles are claimed, on the incoming device of a veer they are probed, and a segment is
claimed. -/
def laneCameUp (d : Dev) (k : Nat) : Dev :=
  match d.state with
  | .live => d.claimLane k
  | .warm =>
    let d := match d.pair.segs.find? fun s => s.1 = k with
      | some s => d.claimSegment k s.2
      | none => d
    match d.pair.prep with
    | some p => if p.incoming then d.probeLane k else d
    | none => d
  | _ => d

/-- After packets of a lane were released: it comes up once every set position has been (R315). -/
def upAfter (d : Dev) (k : Nat) : Dev :=
  let r := d.laneUpCheck k
  if r.2 then (r.1.pput { r.1.pair with readyAt := r.1.now }).laneCameUp k else r.1

/-! The pairing link (R322, R349, R350). -/

/-- The versions go out (R350, R522). -/
def sendVersions (d : Dev) : Dev :=
  d.sendFrame (.request (.versions (d.rd R.BOOT_VERS_CKPT_VER) (d.rdPair R.BOOT_FIXED_ID_LO R.BOOT_FIXED_ID_HI)))

/-- The pairing link has come up or gone down. Down, SYNCED clears (R349); up, a pair exchanges versions and the windward
begins a base anew. -/
def pairLink (d : Dev) (was : Bool) : Dev :=
  if d.pathUp = was then d
  else if was then (d.wrb R.VEER_STATUS_SYNCED false).pput { d.pair with based := false }
  else if d.rdb R.TOP_STATE_PAIRED then d.sendVersions.pput { d.pair with baseDue := d.state = .live, baseLeft := 0 }
  else d

end Dev

/-- An AK with SEQ s covers a sequence number (R291). -/
def Dev.covers (s seq : Nat) : Bool := decide ((s + 65536 - seq) % 65536 ≤ 32767)

/-- The CT write or set position that an AK covers completes (R306). -/
def Dev.ctAck (d : Dev) (r : Ret) : Dev :=
  match d.link.ct with
  | some j =>
    if j.tile = r.tile && j.op != 2 && j.seq.any (Dev.covers r.seq) then d.ctEnd (if r.status = 2 then 4 else 0) none else d
  | none => d

/-- An AK (R291, R296, R297). -/
def actAk (k : Nat) (r : Ret) (d : Dev) : Dev :=
  let d := ((d.heardTile k r.tile).noteTile r).heardEpoch r
  if r.status ≤ 3 then
    ((d.releaseAll k (fun p => p.tile = r.tile && Dev.covers r.seq p.seq) (.ack r.status)).ctAck r).upAfter k
  else if r.status = 4 then d.vrDecided k r true
  else if r.status = 5 then d.vrDecided k r false
  else d

/-- A TL is ignored if its FSEQ is not after the last one accepted of its tile (R299). -/
def Dev.oldTl (d : Dev) (r : Ret) : Bool :=
  let x := (r.seq + 65536 - (d.tileLink r.tile).fseq) % 65536
  d.link.spoke.contains r.tile && (x = 0 || decide (32768 ≤ x))

/-- A TL is accepted: FSEQ and TL_WLN (R299, Table 10-8). -/
def Dev.noteTl (d : Dev) (r : Ret) : Dev :=
  let d := d.putTile { d.tileLink r.tile with fseq := r.seq, tlWln := d.wtm.wln % 2 ^ 32 }
  { d with link := { d.link with spoke := if d.link.spoke.contains r.tile then d.link.spoke else r.tile :: d.link.spoke } }

/-- Telemetry of a tile is stored (R299). -/
def Dev.telemetry (d : Dev) (r : Ret) : Dev :=
  let f (i : Nat) : Nat := r.f.getD i 0
  let t := { d.tileLink r.tile with temp := f 0, volt := f 1, curr := f 2, dead := f 3, crcErr := f 4, lost := f 5 }
  let d := d.putTile t
  let put (l : List Nat) : List Nat := if l.contains r.tile then l else r.tile :: l
  let d := { d with clr := { d.clr with fresh := put d.clr.fresh, reported := put d.clr.reported } }
  if d.state = .warm && !d.pair.segs.isEmpty then d.sendFrame (.telem t) else d

/-- A TL (R299, R300, R306): telemetry, the data of the CT read that waits for it, or a reply to enumeration. -/
def actTl (k : Nat) (r : Ret) (d : Dev) : Dev :=
  let d := ((d.heardTile k r.tile).noteTile r).heardEpoch r
  if d.oldTl r then d else
  let d := d.noteTl r
  let d := if r.status = 1 then d else d.telemetry r
  match r.status with
  | 1 =>
    match d.link.ct with
    | some j => if j.tile = r.tile && j.op = 2 && j.addr = r.f.getD 0 0 then d.ctEnd 0 (some (r.f.getD 1 0 * 65536 + r.f.getD 2 0)) else d
    | none => d
  | 2 =>
    match (d.lane k).enum with
    | some ⟨some t, replies, false⟩ =>
      d.putLane k { d.lane k with enum := some ⟨some t, replies ++ [(r.tile, r.hops)], false⟩ }
    | _ => d
  | _ => d

/-- A return packet that a receiver has put together (R273, R294): one that is damaged, of unknown TYPE or fails its check is bad; one
that names the other end is none of this device's. -/
def actReturn (k : Nat) (bytes : Option (List Byte)) (d : Dev) : Dev :=
  match bytes.bind parseRet with
  | some r =>
    if r.end_ ≠ d.myEnd then d
    else if r.type = 8 then actAk k r d
    else if r.type = 9 then (actNk k r d).upAfter k
    else actTl k r d
  | none => actRetBad k d

/-- A block reaches the return receiver of a lane (R272): its errors are counted, a loss of lock tells on a calibration run of the
lane (R331), and the packets that it ends are taken. In the offset trim of such a run the receiver only acquires lock again (R328). -/
def actBlock (k : Nat) (b : BitVec 130) (d : Dev) : Dev :=
  let was := (d.lane k).lock
  let r := takeBlock (d.lane k) b
  if (d.lane k).pause.isSome then d.putLane k { r.lane with rx := none } else
  let d := d.putLane k r.lane
  let d := if was && !r.lane.lock then d.runLost ⟨0, k⟩ else d
  let d := if r.err then d.cnt (R.MVL_BLOCK_ERR k) else d
  r.done.foldl (fun d p => actReturn k p d) d

/-- Blocks reach the return receiver of a lane, in order, idle blocks among them. MVL does not use a lane in test (R324): its checker
or its loopback takes their bits. -/
def actBlocks (k : Nat) (blocks : List (BitVec 130)) (d : Dev) : Dev :=
  if d.laneTested k then d.patTakeBits k (blocks.flatMap fun b => (List.range 130).map fun i => b.toNat.testBit (129 - i)) else blocks.foldl (fun d b => actBlock k b d) d

namespace Dev

/-- Every pairing lane is to lose n K28.0 symbols at its columns. -/
def slipLanes (d : Dev) (n : Int) : Dev :=
  { d with plane := ⟨d.plane.lanes.map fun l => { l with slip := l.slip + n }, d.plane.ahead - n⟩ }

/-- After a column of the first logical lane, rate compensation drops or adds one K28.0 column where a whole symbol has gathered
(R322). -/
def rateComp (d : Dev) (p : Nat) : Dev :=
  if d.pairMap p ≠ 0 ∨ !d.pairReady then d
  else if 1 ≤ d.plane.ahead then (d.slipLanes 1).cnt R.PAIR_COMP_DROP
  else if d.plane.ahead ≤ -1 then (d.slipLanes (-1)).cnt R.PAIR_COMP_ADD
  else d

/-- A column of an aligned lane has come: the number it carries, the skew, the state of the link (R322). -/
def pairColumn (d : Dev) (p skew : Nat) : Dev :=
  let d := d.putPlane p { d.plane1 p with late := skew }
  let d := d.wr R.PAIR_STATUS_MAP (setBits (d.rd R.PAIR_STATUS_MAP) (2 * p + 1) (2 * p) (d.plane1 p).num)
  let d := d.wr R.PAIR_STATUS_ALIGNED (setBit (d.rd R.PAIR_STATUS_ALIGNED) p true)
  let d := d.wr R.PAIR_SKEW (Nat.max (d.rd R.PAIR_SKEW) (Nat.min skew 31))
  d.pairShow.rateComp p

/-- The K28.0 that ends a column of a lane, after rate compensation: dropped, doubled or as it came. -/
def pairComp (d : Dev) (p : Nat) (s : PairSym) : Dev × List PairSym :=
  let l := d.plane1 p
  if 1 ≤ l.slip then (d.putPlane p { l with slip := l.slip - 1 }, [])
  else if l.slip ≤ -1 then (d.putPlane p { l with slip := l.slip + 1 }, [s, s])
  else (d, [s])

/-- A symbol reaches a physical pairing lane (R322). Answers also what rate compensation makes of it. -/
def pairSymbol (d : Dev) (p skew : Nat) (s : PairSym) : Dev × List PairSym :=
  let was := bit (d.rd R.PAIR_STATUS_ALIGNED) p
  let r := if was then keepColumn (d.plane1 p) s else seekColumn (d.plane1 p) s
  let d := d.putPlane p r.lane
  let d := if s = .code then d.cnt R.PAIR_CODE_ERR else if s = .disp then d.cnt R.PAIR_DISP_ERR else d
  if r.column then (d.pairColumn p skew).pairComp p s
  else if was && !r.aligned then
    (((d.wr R.PAIR_STATUS_ALIGNED (setBit (d.rd R.PAIR_STATUS_ALIGNED) p false)).cnt R.PAIR_REALIGN).pairShow, [s])
  else (d, [s])

/-- Symbols reach a physical pairing lane, in order. Answers also the symbols after rate compensation. -/
def pairSymbols (d : Dev) (p skew : Nat) (syms : List PairSym) : Dev × List PairSym :=
  syms.foldl (fun a s =>
    let r := a.1.pairSymbol p skew s
    (r.1, a.2 ++ r.2)) (d, [])

/-- Symbols have reached a pairing lane in test (R323): far-end loopback sends back what rate compensation made of them, and a checker
that takes the received lane takes the bits of their bytes; a symbol that is no data byte counts as one error (log entry 111). -/
def pairTest (d : Dev) (p : Nat) (syms comp : List PairSym) : Dev :=
  match d.rd R.PAIR_CTRL_TEST with
  | 3 => d.emit (.pairSyms p comp)
  | 4 => syms.foldl (fun d s =>
      match s with
      | .data b =>
        let q := patRun (d.rd R.PAIR_CTRL_PRBS) (d.plane1 p).pat (msbBits [b])
        (d.putPlane p { d.plane1 p with pat := q.1 }).addCnt R.PAIR_PAT_ERR q.2
      | _ => d.cnt R.PAIR_PAT_ERR) d
  | _ => d

end Dev

/-- Symbols reach a physical pairing lane, in order (R322): `skew` is how far its columns come behind those of the first lane, and
`ahead` by how many symbols the partner's reference has gained on this device's meanwhile. The receiver does the same in test, though
the pairing stream does not use a lane then (R324). -/
def actPairSymbols (p : Nat) (syms : List PairSym) (skew : Nat) (ahead : Int) (d : Dev) : Dev :=
  let was := d.pathUp
  let r := ({ d with plane := { d.plane with ahead := d.plane.ahead + ahead } }).pairSymbols p skew syms
  (r.1.pairTest p syms r.2).pairLink was

/-- A write of LCTRL or of PAIR.CTRL (R324). Answers also whether it ended with an error response. -/
def actLaneTest (lane : Option Nat) (v : Nat) (d : Dev) : Dev × Bool :=
  let was := d.pathUp
  let r := actTest lane v d
  let d := match lane with
    | some k => if !r.2 && bit v 0 then actLctrlGo k r.1 else r.1
    | none => r.1
  (d.pairLink was, r.2)

/-! What reaches a return receiver reaches it as blocks, and what they hold decides: the six commands below differ in what the
opcode table says of the blocks. So do the two commands of a pairing lane in what it says of the symbols. -/

def execAkReceive (lane : Fin 64) (blocks : List (BitVec 130)) (s : State) : Host.Outcome State Fault Refusal :=
  run s fun _ d => actBlocks lane blocks d
def execTlReceive (lane : Fin 64) (blocks : List (BitVec 130)) (s : State) : Host.Outcome State Fault Refusal :=
  run s fun _ d => actBlocks lane blocks d
def execNkReceive (lane : Fin 64) (blocks : List (BitVec 130)) (s : State) : Host.Outcome State Fault Refusal :=
  run s fun _ d => actBlocks lane blocks d
def execReturnPacketBad (rx : LaneBlocks) (s : State) : Host.Outcome State Fault Refusal :=
  run s fun _ d => actBlocks rx.lane rx.blocks d
def execBlockLockAcquired (rx : LaneBlocks) (s : State) : Host.Outcome State Fault Refusal :=
  run s fun _ d => actBlocks rx.lane rx.blocks d
def execBlockLockLost (lane : Fin 64) (blocks : List (BitVec 130)) (s : State) : Host.Outcome State Fault Refusal :=
  run s fun _ d => actBlocks lane blocks d
def execPacketTransmit (use : FifoUse) (s : State) : Host.Outcome State Fault Refusal :=
  run s fun _ d => (actTransmit use.lane use.ecc d).upAfter use.lane
def execAckTimeout (lane : Fin 64) (s : State) : Host.Outcome State Fault Refusal :=
  run s fun _ d => (actAckTimeout lane d).upAfter lane
def execPacketDeadline (lane : Fin 64) (s : State) : Host.Outcome State Fault Refusal :=
  run s fun _ d => (actDeadline lane d).upAfter lane
def execEnumWindowEnd (lane : Fin 64) (s : State) : Host.Outcome State Fault Refusal :=
  run s fun _ d => (d.enumEnd lane).upAfter lane
def execOctetTrainingEnd (octet : Fin 8) (s : State) : Host.Outcome State Fault Refusal := run s fun _ d => actTrained octet d
def execPairLaneAligned (lane : Fin 4) (syms : List PairSym) (pace : LanePace) (s : State) : Host.Outcome State Fault Refusal :=
  run s fun _ d => actPairSymbols lane syms pace.skew pace.ahead d
def execPairAlignmentLost (lane : Fin 4) (syms : List PairSym) (pace : LanePace) (s : State) : Host.Outcome State Fault Refusal :=
  run s fun _ d => actPairSymbols lane syms pace.skew pace.ahead d

end Sys2Proof.Machine
end

