-- ==== Sys2Proof/Machine/Thermal.lean ====
section
/-!
DEFINITION. The thermal block (chapter 19): readings of the sensing sites, bands, the lull length, the trip.
-/

namespace Sys2Proof.Machine
namespace Dev

/-- The median of a list of readings, doubled: of an even number, the sum of the two middle ones (R498, DEDUCED). -/
def median2 (l : List Int) : Option Int :=
  let s := sortInt l
  let n := s.length
  if n = 0 then none else some (s.getD ((n - 1) / 2) 0 + s.getD (n / 2) 0)

/-- A site takes a reading (R498): whether it is plausible, its temperature, the sites' temperatures and validity before this
reading. Of the first reading, no site has been invalid. -/
def siteReading (d : Dev) (i : Nat) (plausible : Bool) (t : Int) (temps : List Int) (valid : List Bool) : Dev :=
  let others := (List.range 32).filterMap fun j => if j ≠ i && valid.getD j false then temps[j]? else none
  let far := match median2 others with
    | some m => decide (200 < (2 * t - m).natAbs)
    | none => false
  let x := d.thm.sites.getD i ⟨0, 0⟩
  let nfar := if far then Nat.min 4 (x.far + 1) else 0
  let pass := plausible && !far && !d.rdb (R.THM_SITE_IGNORE i)
  let ngood := if pass then Nat.min 16 (x.good + 1) else 0
  let was := valid.getD i false
  let now := if was then plausible && decide (nfar < 4) && !d.rdb (R.THM_SITE_IGNORE i) else decide (ngood = 16)
  let d := { d with thm := { d.thm with sites := setV d.thm.sites i ⟨nfar, if now then 0 else ngood⟩ } }
  let d := (d.wr (R.THM_SITE_TEMP i) (ofInt 16 t)).wrb (R.THM_SITE_VALID i) now
  if was = now then d else
  let d := if now then d else d.cnt R.THM_SITE_FAULTS
  d.log 0x03 0 0 0x01B (i + 256 * b2n now)

/-- The lower limit of a band in quarter degrees (Table 19-2). -/
def bandLimit (b : Nat) : Int := match b with
  | 0 => -32768
  | 1 => -40
  | 2 => 380
  | 3 => 440
  | _ => 500

/-- The band that a junction temperature gives beside the present one, with a hysteresis of 3 °C (R500). -/
def bandOf (old : Nat) (tj : Int) : Nat :=
  let up := ([1, 2, 3].filter fun b => decide (bandLimit b ≤ tj)).length
  let down := ([1, 2, 3].filter fun b => decide (bandLimit b - 12 ≤ tj)).length
  if old < up then up else if down < old then down else old

/-- LULL_MAX as it acts (Table 19-5). -/
def lullMax (d : Dev) : Nat := clampNat (d.rd R.THM_CTRL_LULL_MAX) 1 4096

/-- The lull length (R502). For the trip band the spec gives none: a free value (log entry 3). -/
def setLull (d : Dev) (tj : Int) : Dev :=
  let l := d.lullMax
  match d.rd R.THM_STATUS_BAND with
  | 0 => d.wr R.THM_LULL_NOW_L 0
  | 1 => d.wr R.THM_LULL_NOW_L 0
  | 2 => d.wr R.THM_LULL_NOW_L (Nat.max 1 (1 + (((l : Int) - 1) * (tj - 380)).fdiv 60).toNat)
  | 3 => d.wr R.THM_LULL_NOW_L l
  | _ => d.drawn.wr R.THM_LULL_NOW_L (d.freeVal 22)

/-- The device enters a band (R501): it is logged and counted; the lane presets and their runs, and the camera offsets, follow.
In the trip band nothing moves. -/
def enterBand (d : Dev) (b : Nat) : Dev :=
  if d.rd R.THM_STATUS_BAND = b then d else
  let d := ((d.wr R.THM_STATUS_BAND b).cnt R.THM_BAND_CHANGES).log 0x03 0 0 0x01A b
  if 4 ≤ b then d else
  let d := (List.range 8).foldl (fun d j => (d.wr (R.LNE_OCT_STATUS_BAND j) b).presetChanged j) d
  d.queueRx.easeNow

/-- A thermal trip (R499, R504, R333): it is latched; in COLD, WARM and LIVE the device yields. -/
def trip (d : Dev) (lost : Bool) (valid : Nat) : Dev :=
  if d.rdb R.THM_STATUS_TRIP then d else
  let d := if lost then d.log 0x03 0 5 0x024 valid else d
  let d := (d.wrb R.THM_STATUS_TRIP true).enterBand 4
  (d.yield 1).idleAll.stopRuns

/-- The next reading falls due on a whole millisecond after PORST_N was released (R496). -/
def readingDue (d : Dev) : Time := d.boot.released + ((d.now - d.boot.released) / millis 1 + 1) * millis 1

end Dev

/-- THM_READING (R496 to R504): a complete set of readings, each with whether its count is plausible, in quarter degrees. A site
that the set does not name counts as implausible, at its last reading. -/
def actThmReading (sites : List (Bool × Int)) (d : Dev) : Dev :=
  let d := d.upTo d.readingDue
  let reading (i : Nat) : Bool × Int := sites.getD i (false, sext 16 (d.rd (R.THM_SITE_TEMP i)))
  let temps := (List.range 32).map fun i => sext 16 (ofInt 16 (reading i).2)
  let first := !d.thm.read
  let valid := (List.range 32).map fun i => first || d.rdb (R.THM_SITE_VALID i)
  let inB3 := decide (d.rd R.THM_STATUS_BAND = 3)
  let d := (List.range 32).foldl (fun d i => d.siteReading i (reading i).1 (temps.getD i 0) temps valid) d
  let d := { d with thm := { d.thm with read := true } }
  let d := if inB3 then d.cnt R.THM_B3_MS else d
  let good := (List.range 32).filter fun i => d.rdb (R.THM_SITE_VALID i)
  let n := good.length
  let d := d.wr R.THM_STATUS_VALID (n - 1)
  let d := match good with
    | [] => d
    | g :: r =>
      let hot := r.foldl (fun (h : Nat) (i : Nat) => if temps.getD h 0 < temps.getD i 0 then i else h) g
      (d.wr R.THM_STATUS_HOT_SITE hot).wr R.THM_STATUS_TJ (ofInt 16 (temps.getD hot 0))
  let tj := sext 16 (d.rd R.THM_STATUS_TJ)
  let d :=
    if d.rdb R.THM_STATUS_TRIP then d
    else if n < 8 then d.trip true n
    else if 500 ≤ tj then d.trip false n
    else d.enterBand (Dev.bandOf (d.rd R.THM_STATUS_BAND) tj)
  let d := d.setLull tj
  if d.rdb R.THM_STATUS_TRIP then d else d.driftCheck

def execThmReading (sites : List (Bool × Int)) (s : State) : Host.Outcome State Fault Refusal :=
  run s fun _ d => actThmReading sites d

end Sys2Proof.Machine
end

