-- ==== Sys2Proof/Machine/Boot.lean ====
section
/-!
DEFINITION. Reset, boot and the Caergon image (chapter 20, R550 to R556), SAFE, the firmware watchdog.
-/

namespace Sys2Proof.Machine

/-! The image header and the section table (R508 to R510). -/

/-- Section i of a header's table (Table 20-2). -/
def headerSection (h : List Byte) (i : Nat) : Section :=
  let o := 160 + 16 * i
  ⟨leAt h o 1, leAt h (o + 1) 1, leAt h (o + 2) 1, leAt h (o + 3) 1, leAt h (o + 4) 4, leAt h (o + 8) 4, leAt h (o + 12) 4⟩

/-- The sections of a header. -/
def headerSections (h : List Byte) : List Section := (List.range (leAt h 12 2)).map (headerSection h)

/-- IMAGE_LEN of a header. -/
def imageLen (h : List Byte) : Nat := leAt h 8 4

/-- A DRAM_CFG is valid: only the fields of Table 18-3, and a package size of that table (DEDUCED). -/
def dramCfgOk (v : Nat) : Bool := decide (v < 1024) && bits v 7 6 = 0 && bits v 3 2 = 0 && bits v 5 4 != 3

/-- Check 2 of Table 20-5. -/
def headerOk (h : List Byte) : Bool :=
  let n := leAt h 12 2
  leAt h 0 4 = 0x5A564347 && leAt h 4 2 = 1 && leAt h 24 4 = R.TOP_ID.reset && decide (8192 ≤ imageLen h)
    && decide (imageLen h ≤ 58720256) && decide (1 ≤ n) && decide (n ≤ 240) && dramCfgOk (leAt h 28 4)
    && leAt h 60 4 = crc32c (slice h 0 60 ++ slice h 64 (96 + 16 * n))

/-- The entries that a TABLE section may hold at most (Table 2-5); those of the Blocking Table follow the canvas, which the records set. -/
def tableMost (table : Nat) : Option Nat := match table with
  | 2 => some 4096
  | 3 => some 274625
  | 4 => some 16641
  | _ => none

/-- The arguments of a section are those of its kind, and a TABLE section holds whole entries, no more than its table has (Table 20-3;
log entry 117). -/
def sectionArgsOk (s : Section) : Bool := match s.kind with
  | 4 =>
    let e := Dev.tblEsize s.arg0 s.arg1
    e != 0 && decide (s.arg2 < 8) && s.length % Nat.max 1 e = 0 && (match tableMost s.arg0 with
      | some n => decide (s.length ≤ n * e)
      | none => true)
  | 5 => ((s.arg0 = 1 || s.arg0 = 2) && s.arg1 = 0 || s.arg0 = 3 && decide (s.arg1 < 8)) && s.arg2 = 0
  | k => decide (1 ≤ k) && decide (k ≤ 9) && s.arg0 = 0 && s.arg1 = 0 && s.arg2 = 0

/-- Two sections overlap. -/
def overlap (a b : Section) : Bool := decide (a.offset < b.offset + b.length) && decide (b.offset < a.offset + a.length)

/-- Two sections may not stand in one image: they overlap, or are one too many of a kind. -/
def sectionsClash (a b : Section) : Bool :=
  overlap a b || (a.kind = b.kind && (if a.kind = 4 then a.arg0 = b.arg0 && a.arg1 = b.arg1 else a.kind != 5 && a.kind != 6))

/-- Section i of a table breaks R510. -/
def sectionBad (h : List Byte) (ss : List Section) (i : Nat) : Bool :=
  match ss[i]? with
  | none => false
  | some s => !sectionArgsOk s || decide (s.offset % 64 ≠ 0) || decide (s.offset < 4096) || decide (s.length = 0)
      || decide (imageLen h < s.offset + s.length + 96) || (ss.take i).any (sectionsClash s)

/-- Check 4: none, or the index of the section that fails, 0xFF where one is missing. -/
def sectionsCheck (h : List Byte) : Option Nat :=
  let ss := headerSections h
  match (List.range ss.length).find? (sectionBad h ss) with
  | some i => some i
  | none =>
    if [1, 2, 3, 7, 8, 9].all (fun k => ss.any fun s => s.kind = k) && [1, 2].all (fun t => ss.any fun s => s.kind = 4 && s.arg0 = t)
    then none else some 0xFF

/-- The first failing of checks 1 to 4, as code and section index (Table 20-5). -/
def headerChecks (sfdp : Option Bool) (h : List Byte) : Option (Nat × Nat) :=
  if sfdp.isNone then some (2, 0xFF)
  else if !headerOk h then some (3, 0xFF)
  else if !Config.fusedKeyDigest (slice h 64 96) then some (4, 0xFF)
  else (sectionsCheck h).map fun i => (5, i)

/-! What the sections hold (R511, Table 20-3). -/

/-- The bytes of a section; the body begins at offset 4,096 of the bank. -/
def sectionBytes (body : List Byte) (s : Section) : List Byte := slice body (s.offset - 4096) s.length

/-- The bits of a register word that a field takes. -/
def fldMask (f : Fld) : Nat := (2 ^ f.width - 1) * 2 ^ f.lo

/-- A field that a record may set: RW or RWS. -/
def Fld.settable (f : Fld) : Bool := match f.acc with
  | .rw => true
  | .rws _ => true
  | _ => false

/-- A record is valid (R511). -/
def recordOk (r : List Byte) : Bool :=
  let addr := leAt r 0 4
  let mask := leAt r 8 4
  let group := leAt r 12 1
  match regAt addr with
  | none => false
  | some fs =>
    let own := fs.filter Fld.settable
    let groups := own.filterMap fun f => match f.acc with
      | .rws g => if Nat.land mask (fldMask f) != 0 then some g.val else none
      | _ => none
    addr % 4 = 0 && addr / 65536 != 0x100 && !(decide (0x50 ≤ addr / 65536) && decide (addr / 65536 < 0x54) && addr % 65536 = 0)
      && Nat.land mask ((own.map fldMask).foldl Nat.lor 0) = mask && leAt r 13 3 = 0 && r.length = 16
      && (if groups = [] then group = 0xFF else groups.all fun g => g = group)

/-- A byte string cut into pieces of n bytes. -/
def pieces (n : Nat) (bs : List Byte) : List (List Byte) := (List.range ((bs.length + n - 1) / n)).map fun i => slice bs (n * i) n

/-- The chain map of a section: per lane, the entries of its positions. -/
def chainEntries (bs : List Byte) (k : Nat) : List Nat := (List.range 64).map fun p => leAt bs (128 * k + 2 * p) 2

/-- A present entry after an absent one makes the chain map invalid (Table 20-3). -/
def chainMapOk (bs : List Byte) : Bool :=
  decide (bs.length = 8192) && (List.range 64).all fun k => ((chainEntries bs k).dropWhile fun e => bit e 15).all fun e => !bit e 15

/-- The chains of a chain map. -/
def chainMap (bs : List Byte) : List (List Nat) :=
  (List.range 64).map fun k => ((chainEntries bs k).takeWhile fun e => bit e 15).map fun e => e % 4096

/-- Sections with their indices, in order of offset. -/
def byOffset (ss : List Section) : List (Section × Nat) :=
  let offs := sortInt (ss.map fun s => (s.offset : Int))
  offs.flatMap fun o => ss.zipIdx.filter fun q => (q.1.offset : Int) = o

/-- The first section of a kind. -/
def findSection (ss : List Section) (k : Nat) : Option Section := ss.find? fun s => s.kind = k

/-- The bytes of the one section of a kind. -/
def kindBytes (body : List Byte) (ss : List Section) (k : Nat) : List Byte :=
  match findSection ss k with
  | some s => sectionBytes body s
  | none => []

/-- The first failing of checks 5 to 8, and of the chain map's content, as code and section index (Table 20-5). -/
def bodyChecks (h body : List Byte) (ss : List Section) : Option (Nat × Nat) :=
  match (ss.zipIdx).find? fun q => q.1.kind = 7 && !chainMapOk (sectionBytes body q.1) with
  | some q => some (5, q.2)
  | none =>
    match (byOffset ss).find? fun q => crc32c (sectionBytes body q.1) != q.1.scrc with
    | some q => some (6, q.2)
    | none =>
      let image := (h ++ body).take (imageLen h - 96)
      if !Config.ecdsaVerifies image (slice h 64 96) (slice body (imageLen h - 96 - 4096) 96) then some (7, 0xFF)
      else if (Config.gcmOpen (kindBytes body ss 8)).isNone then some (8, 0xFF)
      else if !(pieces 16 (kindBytes body ss 1)).all recordOk then some (9, 0xFF)
      else none

namespace Dev

/-! Applying an image (R512, Table 20-3). -/

/-- A register-initialisation record sets its register (R512). A field that starts an action when it is written does so. -/
def applyRecord (d : Dev) (r : List Byte) : Dev :=
  let addr := leAt r 0 4
  let value := leAt r 4 4
  let mask := leAt r 8 4
  let fs := ((regAt addr).getD []).filter Fld.settable
  let word := (fs.map fun f => d.rd f * 2 ^ f.lo).sum
  let new := Nat.lor (clearBits 32 word mask) (Nat.land value mask)
  if addr = 0x20000 then actSource new d
  else if addr = 0x20040 then actEpoch false new d
  else if addr = 0x20044 then actEpoch true new d
  else
    let mode := R.LNE_OCT_CTRL_MODE_REQ (addr / 65536 % 8)
    fs.foldl (fun d f =>
      let v := bits new (f.lo + f.width - 1) f.lo
      if f = mode then d.requestMode (addr / 65536 % 8) v else d.wr f v) d

/-- A TABLE section: the entries of a table from index 0, and its commit group. -/
def applyTable (d : Dev) (s : Section) (bs : List Byte) : Dev :=
  let n := d.tblEntries s.arg0 s.arg1 * tblEsize s.arg0 s.arg1
  let t := d.tblInst s.arg0 s.arg1
  let d := d.putInst { t with live := SMap.setBytes [] 0 ((bs.take n).map BitVec.toNat) }
  { d with tbl := { d.tbl with groups := (s.arg0, s.arg2) :: d.tbl.groups.filter fun g => g.1 != s.arg0 } }

/-- Data words of a BANKED run, from index i on (R136, R192, R203): of memory kind 1 to 3, with the selection word. -/
def bankWords (kind inst sel : Nat) : Nat → List (List Byte) → Dev → Dev
  | _, [], d => d
  | i, w :: r, d =>
    let v := leNat w
    let d := match kind with
      | 1 =>
        let k := bits sel 29 28
        { d with clr := { d.clr with
            luts := SMap.set d.clr.luts (lutKey k (bits sel 23 20) (bits sel 24 24) (bits sel 17 16) i) (v % 2 ^ lutWidth k) } }
      | 2 => { d with cmp := { d.cmp with coefs := SMap.set d.cmp.coefs (4096 * bits sel 12 12 + i % 4096) (v % 4096) } }
      | _ =>
        { d with defects := setV d.defects inst ⟨SMap.set (d.defects.getD inst ⟨[]⟩).vals (65536 * bits sel 16 16 + i % 65536) v⟩ }
    bankWords kind inst sel (i + 1) r d

/-- The runs of a BANKED section. -/
def bankRuns (kind inst : Nat) : Nat → List Byte → Dev → Dev
  | 0, _, d => d
  | fuel + 1, bs, d =>
    if bs.length < 8 then d else
    let sel := leAt bs 0 4
    let n := leAt bs 4 4
    let start := if kind = 1 then bits sel 10 0 else if kind = 2 then bits sel 11 0 else bits sel 15 0
    bankRuns kind inst fuel (bs.drop (8 + 4 * n)) (bankWords kind inst sel start (pieces 4 (slice bs 8 (4 * n))) d)

/-- The keys that a KEYS section opens to (R467; log entry 4): eight keys of 32 bytes, then the valid mask. -/
def applyKeys (d : Dev) (plain : List Byte) : Dev :=
  let valid := leAt plain 256 1
  let keys := ((List.range 8).filter fun k => bit valid k).map fun k => (⟨k, slice plain (32 * k) 32, none, [], 0⟩ : CueKey)
  ({ d with cue := { d.cue with keys := keys } }).wr R.ETH_KEYS_VALID valid

/-- A section is loaded (Table 20-3). -/
def applySection (d : Dev) (body : List Byte) (s : Section) : Dev :=
  let bs := sectionBytes body s
  match s.kind with
  | 4 => d.applyTable s bs
  | 5 => bankRuns s.arg0 s.arg1 bs.length bs d
  | 6 => d.memWrite (leAt bs 0 8) (bs.drop 8)
  | 7 => { d with link := { d.link with chains := chainMap bs } }
  | 8 => d.applyKeys ((Config.gcmOpen bs).getD [])
  | 9 =>
    let c := Config.fwCfg bs
    { d with
      tbl := { d.tbl with carved := Nat.min 112 c.carved }
      cue := { d.cue with buffer := c.buffer, bufSize := c.bufSize, stored := c.stored } }
  | _ => d

/-- The layers' paths, the Felt ratios permitted, the internal recorders and the drives, as the image declares them (R33, R265, R369,
R378). -/
def imageFixed (d : Dev) (image : List Byte) : Dev :=
  let c := Config.imageFixed image
  let d := (List.range 16).foldl (fun d i => d.wrb (R.CMP_LAYER_CTRL_PATH i) (bit c.framed i)) d
  let recs := (c.recorders.filter fun (r : Nat × Nat × Nat) => decide (r.1 < 15)).map fun (r : Nat × Nat × Nat) =>
    (⟨r.1, r.2.1, r.2.2, 0, 0, 0, [], []⟩ : Recorder)
  let d := { d with hbx := { d.hbx with recorders := recs, namespace_ := c.namespace_, storeSet := c.storeSet } }
  let d := (d.wr R.HBX_CFG_BIFURC c.bifurc).wr R.HBX_CFG_DRIVES c.drives
  ((d.wrb R.FLT_CFG_ALLOW_2 (bit c.ratios 1)).wrb R.FLT_CFG_ALLOW_3 (bit c.ratios 2)).wrb R.FLT_CFG_ALLOW_4 (bit c.ratios 3)

/-- Step 8 of Table 20-6: the records are applied, the sections are loaded, every group is committed; then the firmware starts,
and the watchdog with it (R520). -/
def applyImage (d : Dev) (body : List Byte) : Dev :=
  let d := (pieces 16 (kindBytes body d.boot.sections 1)).foldl applyRecord d
  let d := d.boot.sections.foldl (fun d s => d.applySection body s) d
  let d := (d.imageFixed (d.boot.header.getD [] ++ body)).commitAll.ratioCommit
  let d := d.checkLayers.easeNow
  let d := (List.range 8).foldl presetChanged d
  { d with boot := { d.boot with applied := true, wdogAt := d.now } }

/-! Leaving BOOT (R507, R513, R514, R516, R517). -/

/-- The pins as SAFE has them, the flash back in 1S-1S-1S mode (R507), and no line generator. -/
def safePins (d : Dev) : Dev :=
  { d with pins := { d.pins with yieldN := true, xspiOwnN := true, spitIrqN := false }, wtm := { d.wtm with running := false }, boot := { d.boot with octal := false } }

/-- The device enters SAFE (R519). -/
def enterSafe (d : Dev) : Dev := d.safePins.idleAll.setState .safe

/-- REASON_A or REASON_B, of bank 0 or 1. -/
def bankReason (b : Nat) : Fld := if b = 0 then R.BOOT_STATUS_REASON_A else R.BOOT_STATUS_REASON_B

/-- Boot as it stands before a bank's header is read; the memories stay trained. -/
def nextBank (d : Dev) (b : Nat) (second : Bool) : Dev :=
  { d with boot := { d.boot with bank := b, second := second, header := none, sections := [], applied := false, stage := [] } }

/-- A bank is rejected with a code (Table 20-5): the other bank is tried once, and then the device enters SAFE (R514). -/
def rejectBank (d : Dev) (code sect : Nat) : Dev :=
  let d := d.wr (bankReason d.boot.bank) code
  let d := if code = 5 ∨ code = 6 then d.wr R.BOOT_STATUS_SECT_FAIL sect else d
  if d.boot.second then d.enterSafe else d.nextBank (1 - d.boot.bank) true

/-- The fields of BOOT.STATUS, TOP.STATE and the log's counters, which stand when the blocks return to their reset values. -/
def keptFields (w : Nat) : Bool := decide (w = 0) || decide (w = 3) || decide (w = 4) || decide (w = 6)

/-- Every block returns to its reset values (R513), but for what boot itself, THM, the event log and the clock monitors hold. -/
def resetBlocks (d : Dev) : Dev :=
  { Dev.reset with
    regs := d.regs.filter fun p => keptFields (p.1 / 524288) && !decide (p.1 = R.BOOT_WDOG_WDOG_MS.key)
    now := d.now, stcOff := d.stcOff, wq := d.wq, out := d.out, free := d.free, elog := d.elog, boot := d.boot, clk := d.clk
    pins := d.pins, poison := d.poison, thm := d.thm, link := { LinkPart.reset with tail := d.link.tail } }

/-- BOOT ends (step 9 of Table 20-6): the bank is accepted, the flash is back in 1S-1S-1S mode and released, the SRAM takes the allocation of Table 2-4
(R515), the line generator starts, role selection
opens and the camera ports are to be calibrated. -/
def endBoot (d : Dev) : Dev :=
  let h := d.boot.header.getD []
  let d := (d.wr (bankReason d.boot.bank) 1).wr R.BOOT_STATUS_BANK (d.boot.bank + 1)
  let d := d.wrb R.BOOT_STATUS_FALLBACK d.boot.second
  let d := (d.wr R.BOOT_BUILD_ID_LO (leAt h 16 4)).wr R.BOOT_BUILD_ID_HI (leAt h 20 4)
  let d := (d.wr R.BOOT_VERS_CKPT_VER (leAt h 6 2)).wr R.BOOT_VERS_BOOT_MS (Nat.min 65535 ((d.now - d.boot.released) / millis 1))
  let d := (d.wr R.BOOT_FIXED_ID_LO (leAt h 32 4)).wr R.BOOT_FIXED_ID_HI (leAt h 36 4)
  let d := if d.boot.second then
      d.log 0x06 0 0 0x01E (((regAt 0x60000).getD []).map fun f => d.rd f * 2 ^ f.lo).sum else d
  let d := { d with
    pins := { d.pins with xspiOwnN := true }
    boot := { d.boot with stage := [], mapped := true, octal := false }
    wtm := { d.wtm with running := true, fresh := true, t0 := (d.stc : Nat), lineAt := (d.stc : Nat) }
    pair := { d.pair with selecting := true, coldAt := d.now } }
  (d.setState .cold).queueCams

/-- A step of boot may be performed: the device is in BOOT, no trip is latched, and it is not in test mode (R504, R555). -/
def bootStep (d : Dev) : Bool := d.state = .boot && !d.rdb R.THM_STATUS_TRIP && !d.boot.tmode

/-- The firmware watchdog's time (R520). -/
def wdogDue (d : Dev) : Time := d.boot.wdogAt + millis (clampNat (d.rd R.BOOT_WDOG_WDOG_MS) 10 1000)

/-! Reset (R551, R553, R554). -/

/-- The device as PORST_N leaves it: everything at reset, the log rings cleared, with them the ring in DRAM. The pins that come from
outside and the memories' content, but for the ring, stand. -/
def powerReset (d : Dev) : Dev :=
  let d1 := if d.rdb R.ERR_CTRL_DRAM_EN then d.memClear (d.rdPair R.ERR_DRAM_BASE_LO R.ERR_DRAM_BASE_HI) 1048576 else d
  { Dev.reset with
    off := true, wq := d1.wq, out := d.out, free := d.free, poison := d.poison, link := { LinkPart.reset with tail := d.link.tail }
    pins := { Pins.reset with pfailN := d.pins.pfailN, porstN := d.pins.porstN, xspiOwnN := true }
    boot := { BootPart.reset with supplyIn := d.boot.supplyIn } }

/-- The straps are sampled and BOOT begins (R553, R554, step 1 of Table 20-6). In test mode XSPI_OWN_N stays high (R545). -/
def startBoot (d : Dev) (role bank tmode : Bool) : Dev :=
  let d := { d with
    off := false
    pins := { d.pins with strapRole := role, strapBank := bank, tmode := tmode, xspiOwnN := tmode }
    boot := { d.boot with tmode := tmode, bank := b2n bank } }
  (d.wrb R.TOP_STATE_ROLE_STRAP role).wrb R.TOP_STATE_BANK_STRAP bank

/-- The device restarts from YIELDED (R344, R528): it keeps its event log, the reason of its yield, its straps and the code of
CORE_VID; the first entry of the log after it is a BOOT entry. -/
def restart (d : Dev) : Dev :=
  let kept := [R.TOP_STATE, R.TOP_STATE_CHANGES, R.TOP_STATE_ROLE_STRAP, R.TOP_STATE_BANK_STRAP, R.VEER_STATUS_LAST_YIELD,
    R.ERR_WR_SEQ, R.ERR_DRAM_SEQ]
  let old := d
  let d := { Dev.reset with
    now := d.now, stcOff := d.stcOff, wq := d.wq, out := d.out, free := d.free, elog := d.elog, poison := d.poison
    clk := ⟨d.clk.stopped, none⟩, link := { LinkPart.reset with tail := d.link.tail }
    pins := { d.pins with yieldN := true, xspiOwnN := false, spitIrqN := true, calmOut := true }
    boot := { BootPart.reset with
      tmode := d.boot.tmode, bank := b2n d.pins.strapBank, supplyIn := d.boot.supplyIn, released := d.now } }
  let d := kept.foldl (fun d f => d.wr f (old.rd f)) d
  let d := d.log 0x06 0 0 0x01E R.BOOT_STATUS_SECT_FAIL.reset
  (d.pass fabCycle).setState .boot

end Dev

/-- PORST_N_ASSERT (R553). -/
def actPorst (d : Dev) : Dev := ({ d with pins := { d.pins with porstN := false } }).powerReset

/-- PORST_N_RELEASE (R516, R554): a device that a supply monitor holds in reset stays in OFF (R551). -/
def actPorstRelease (role bank tmode : Bool) (d : Dev) : Dev :=
  if d.pins.porstN then d else
  let d := { d with pins := { d.pins with porstN := true } }
  if d.off && d.boot.supplyIn then d.startBoot role bank tmode else d

/-- SUPPLY_MONITOR_RESET (R551): as PORST_N. -/
def actSupplyReset (d : Dev) : Dev := ({ d with boot := { d.boot with supplyIn := false } }).powerReset

/-- SUPPLY_MONITOR_RELEASE (R551): the reset ends as with a release of PORST_N, unless PORST_N is low. -/
def actSupplyRelease (role bank tmode : Bool) (d : Dev) : Dev :=
  if d.boot.supplyIn then d else
  let d := { d with boot := { d.boot with supplyIn := true } }
  if d.off && d.pins.porstN then d.startBoot role bank tmode else d

/-- PLL_LOCK (R516, R550). -/
def actPllLock (d : Dev) : Dev :=
  if d.state = .boot && !d.rdb R.THM_STATUS_TRIP && !d.boot.pll then
    { d with boot := { d.boot with pll := true }, pins := { d.pins with coreVid := some Config.coreVid.val } }
  else d

/-- PLL_LOCK_TIMEOUT (R517): 10 ms after step 1. -/
def actPllTimeout (d : Dev) : Dev :=
  if d.state = .boot && !d.rdb R.THM_STATUS_TRIP && !d.boot.pll then
    ((d.upTo (d.boot.released + millis 10)).wrb R.BOOT_STATUS_PLL_FAIL true).enterSafe
  else d

/-- HEADER_CHECKED (R505, R513): checks 1 to 4 of the bank that is tried; `sfdp` says whether the flash declares the 8D-8D-8D read, none
where its tables do not read correctly; the controllers take its DRAM_CFG (R516, R517). -/
def actHeader (sfdp : Option Bool) (h : List Byte) (d : Dev) : Dev :=
  if !(d.bootStep && d.boot.pll && d.boot.header.isNone) then d else
  let d := { d with boot := { d.boot with octal := sfdp.getD false } }
  match headerChecks sfdp h with
  | some (code, sect) => d.rejectBank code sect
  | none =>
    let cfg := leAt h 28 4
    let d := { d with boot := { d.boot with
      header := some h, sections := headerSections h, dramCfg := some cfg, stage := h
      trained := d.boot.trained && decide (d.boot.dramCfg = some cfg) } }
    (List.range 4).foldl (fun d q =>
      ((d.wr (R.DRM_CFG_RATE q) (bits cfg 9 8)).wr (R.DRM_CFG_PKG q) (bits cfg 5 4)).wr (R.DRM_CFG_ORDER q) (bits cfg 1 0)) d

/-- The delay taps to which boot training has set the bits of a channel, reads and then writes: free values (R325, R326; log entry
112). -/
def Dev.trainedTaps (d : Dev) (c : Nat) : List Nat := (List.range 32).map fun i => Config.freeValue (1000 + 32 * c + i) d.free % 64

/-- DRM.STATUS.TRAINED of each quadrant: the channels that are not in `failed` are trained (R495). -/
def Dev.showTrained (d : Dev) (failed : Nat) : Dev :=
  (List.range 4).foldl (fun d q => d.wr (R.DRM_STATUS_TRAINED q) (255 - bits failed (8 * q + 7) (8 * q))) d

/-- DRAM_TRAINING_DONE (R495, R517): a channel that fails leaves the device in SAFE, with an entry that names it. -/
def actTraining (failed : Nat) (d : Dev) : Dev :=
  if !(d.bootStep && d.boot.header.isSome && !d.boot.trained) then d
  else if failed = 0 then { d.drawn.showTrained 0 with
    boot := { d.boot with trained := true }
    calib := { d.calib with dram := (List.range 32).map fun c => (d.trainedTaps c, d.trainedTaps c) } }
  else
    let d := ((List.range 32).filter (bit failed)).foldl (fun d c => d.log (0x50 + c / 8) c 2 0x00E 2) (d.showTrained failed)
    (d.wrb R.BOOT_STATUS_DRAM_FAIL true).enterSafe

/-- The regions of Table 2-4, counted from 0, in which the image is staged during BOOT, with their bytes (R515). -/
def stageRegions : List (Nat × Nat) := [(2, 16 * 2 ^ 20), (5, 16 * 2 ^ 20), (7, 20 * 2 ^ 20), (11, 8 * 2 ^ 20)]

/-- The region and the byte in it where byte i of the image is staged. DESIGN CHOICE (log entry 101): the regions fill in the
order in which R515 names them. -/
def stagePlace : List (Nat × Nat) → Nat → Option (Nat × Nat)
  | [], _ => none
  | (r, n) :: l, i => if i < n then some (r, i) else stagePlace l (i - n)

/-- IMAGE_READ_DONE (R513, R515, R516): the rest of the image is staged after its header; checks 5 to 8; an image that passes is
applied, and its firmware starts. -/
def actImage (body : List Byte) (d : Dev) : Dev :=
  match d.boot.header with
  | none => d
  | some h =>
    if !(d.bootStep && d.boot.trained && !d.boot.applied) then d else
    let d := { d with boot := { d.boot with stage := h ++ body } }
    match bodyChecks h body d.boot.sections with
    | some (code, sect) => d.rejectBank code sect
    | none => d.applyImage body

/-- WDOG_KICK (R520): in BOOT it is check 9 passed, and BOOT ends. -/
def actKick (d : Dev) : Dev :=
  if d.bootStep && d.boot.applied then ({ d with boot := { d.boot with wdogAt := d.now } }).endBoot
  else if d.inService then { d with boot := { d.boot with wdogAt := d.now } }
  else d

/-- WATCHDOG_EXPIRY (R520): check 9 fails in BOOT; else a fatal fault. -/
def actWatchdog (d : Dev) : Dev :=
  if d.bootStep && d.boot.applied then
    let d := d.upTo d.wdogDue
    d.resetBlocks.rejectBank 10 0xFF
  else if d.inService then (d.upTo d.wdogDue).yield 4
  else d

/-- YIELD_HOLD_EXPIRY (R344). -/
def actYieldHold (d : Dev) : Dev :=
  if d.state = .yielded && !d.rdb R.THM_STATUS_TRIP then
    (d.upTo (d.boot.yieldAt + millis (d.rd R.VEER_TIMERS_YIELD_HOLD))).restart
  else d

/-- READ_BOOT (R519): in SAFE, BOOT.STATUS, TOP.STATE and the codes of the first six entries of the log. The word of an entry that
does not exist is a free value (log entry 3). -/
def actReadBoot (d : Dev) : Dev :=
  if d.state ≠ .safe then d else
  let codes := (d.elog.ring.reverse.take 6).map fun p => p.2.code + 8192 * p.2.cls
  let more := (List.range (6 - codes.length)).map fun i => Config.freeValue 23 (d.free + i) % 2 ^ 32
  let d1 := { d with free := d.free + (6 - codes.length) }
  let word (a : Nat) : Nat := d.shownWord ((regAt a).getD [])
  d1.emit (.spi (([word 0x60000, word 0x4] ++ codes ++ more).flatMap (leBytes 4)))

/-- TEST_PORT_INSTRUCTION (R555): EXTEST, CLAMP and HIGHZ take effect in test mode only, and act as BYPASS outside it. REGACC is
`actRegacc`'s. -/
def actTestPort (i : TestInstr) (d : Dev) : Dev :=
  let code := match i with
    | .bypass => 0 | .idcode => 1 | .sample => 2 | .preload => 3
    | .extest => if d.boot.tmode then 4 else 0
    | .clamp => if d.boot.tmode then 5 else 0
    | .highz => if d.boot.tmode then 6 else 0
    | .regacc _ _ => 7
  { d with pins := { d.pins with testInstr := code } }

/-- The regions of configuration memory in Table 2-4 order (R40): the Blocking Table, the tile contexts, the colour LUTs and
matrices, the firmware. Of the camera pipelines' region a part is (their line stores are not), and where it lies is not given:
whether a word of it belongs to that part is a free value (log entry 3); so is it of the general pool whether a word lies in a
page that holds a table, where any does. The live copies of shadowed registers, which lie in no region of Table 2-4, are numbered after
them as region 14 and have no counter of corrected errors (DESIGN CHOICE, log entry 101). -/
def configWord (region : Nat) (d : Dev) : Dev × Bool :=
  if region = 3 || (region = 13 && decide (0 < d.pagesIn .pool)) then (d.drawn, d.freeVal 25 % 2 = 1)
  else (d, region = 0 || region = 1 || region = 4 || region = 9 || region = 14)

/-- The packet of a lane's FIFO that holds a word, counted from the oldest. DESIGN CHOICE (log entry 102): the spec does not say
where in a FIFO its packets lie; word 0 is the first word of the oldest packet held. -/
def wordPacket : List Pkt → Nat → Nat → Option Nat
  | [], _, _ => none
  | p :: r, w, i => if w < p.bytes.length / 16 then some i else wordPacket r (w - p.bytes.length / 16) (i + 1)

/-- SRAM_SCRUB (R39 to R41, R283, R503): the background scrubber reads a word. -/
def actSramScrub (region word : Nat) (ecc : Ecc) (d : Dev) : Dev :=
  if d.lulling .sramScrub then d else
  let lane := word / 16384 % 64
  let d := match ecc with
    | .clean => d
    | .single =>
      let n := Nat.min (2 ^ 32 - 1) (d.sram.getD region 0 + 1)
      let d := { d with sram := d.sram.set region n }
      if region = 2 then d.cnt (R.MVL_ECC_CORR lane) else d
    | .double =>
      let (d, cfg) := configWord region d
      if cfg then (d.log 0xF2 region 5 0x00A word).yield 2
      else
        let d := d.log 0xF2 region 3 0x00A word
        if region = 2 then
          match wordPacket (d.lane lane).fifo (word % 16384) 0 with
          | some i => (d.releaseAt lane i .exhausted).trim lane
          | none => d
        else d
  d.lullAfter .sramScrub 65536 (if region = 2 then 16 else 8)

def execPorstNAssert (s : State) : Host.Outcome State Fault Refusal := runAny s fun _ d => actPorst d
def execPorstNRelease (role bank tmode : Bool) (s : State) : Host.Outcome State Fault Refusal :=
  runAny s fun _ d => actPorstRelease role bank tmode d
def execSupplyMonitorReset (s : State) : Host.Outcome State Fault Refusal := runAny s fun _ d => actSupplyReset d
def execSupplyMonitorRelease (role bank tmode : Bool) (s : State) : Host.Outcome State Fault Refusal :=
  runAny s fun _ d => actSupplyRelease role bank tmode d
def execPllLock (s : State) : Host.Outcome State Fault Refusal := run s fun _ d => actPllLock d
def execPllLockTimeout (s : State) : Host.Outcome State Fault Refusal := run s fun _ d => actPllTimeout d
def execHeaderChecked (sfdp : Option Bool) (header : List Byte) (s : State) : Host.Outcome State Fault Refusal :=
  run s fun _ d => actHeader sfdp header d
def execDramTrainingDone (failed : BitVec 32) (s : State) : Host.Outcome State Fault Refusal :=
  run s fun _ d => actTraining failed.toNat d
def execImageReadDone (body : List Byte) (s : State) : Host.Outcome State Fault Refusal := run s fun _ d => actImage body d
def execWatchdogExpiry (s : State) : Host.Outcome State Fault Refusal := run s fun _ d => actWatchdog d
def execYieldHoldExpiry (s : State) : Host.Outcome State Fault Refusal := run s fun _ d => actYieldHold d
def execReadBoot (s : State) : Host.Outcome State Fault Refusal := run s fun _ d => actReadBoot d
def execSramScrub (region : Fin 15) (word : Nat) (ecc : Ecc) (s : State) : Host.Outcome State Fault Refusal :=
  run s fun _ d => actSramScrub region word ecc d

end Sys2Proof.Machine
end

