-- ==== Sys2Proof/Machine/Veer.lean ====
section
/-!
DEFINITION. Requests for a veer (R357): the conditions, the VEER entry, the refusals.
-/

namespace Sys2Proof.Machine
namespace Dev

/-- VEER.CFG.VEER_FRAMES (Table 12-13): below 4 it acts as 4. -/
def veerFrames (d : Dev) : Nat := Nat.max 4 (d.rd R.VEER_CFG_VEER_FRAMES)

/-- VEER_LEAD in lines (R359): LEAD4 below 8 acts as 8. -/
def veerLead (d : Dev) : Nat := 4 * Nat.max 8 (d.rd R.VEER_CFG_LEAD4)

/-- A veer is refused or aborted for a reason of Table 12-7: LAST_REFUSE holds it, and it is logged (Table 21-3). -/
def veerRefused (d : Dev) (code : Nat) : Dev := (d.wr R.VEER_STATUS_LAST_REFUSE code).log 0x07 0 4 0x017 code

/-- The STATE of the partner's last beat. -/
def partnerState (d : Dev) : Nat := d.rd R.VEER_STATUS_PARTNER_STATE

/-- The partner's last beat says SYNCED. -/
def partnerSynced (d : Dev) : Bool :=
  match d.pair.partner with
  | some b => b.synced
  | none => false

/-- The epochs are near their end (R357, R368). -/
def epochsLow (d : Dev) : Bool := decide (0xFFFFFFF0 ≤ d.epoch)

/-- The first condition of R357 that does not hold, as its code of Table 12-7; 0 where a veer may be scheduled. -/
def veerCheck (d : Dev) : Nat :=
  if !d.rdb R.TOP_STATE_PAIRED then 1
  else if !d.pathUp || d.rdb R.VEER_STATUS_PATH_A then 3
  else if !d.partnerSynced then 2
  else if d.partnerState ≠ stateCode .cold then 0xC
  else if d.rdb R.VEER_STATUS_WLN_MISMATCH then 4
  else if d.pendingVeer.isSome then 5
  else if d.epochsLow then 9
  else 0

/-- Line 0 of the frame that begins VEER_FRAMES frames after the next frame boundary (R357). -/
def veerLine (d : Dev) : Nat := (d.frameOf d.wtm.wln + 1 + d.veerFrames) * d.lt

/-- The windward accepts or refuses a veer request (R357). Answers also whether it was accepted. -/
def veerAsk (d : Dev) : Dev × Bool :=
  let c := d.veerCheck
  if c ≠ 0 then (d.veerRefused c, false) else
  let (e, d) := d.calInsert d.veerLine 3 0 0 (d.epoch + 1) 0
  if e = 0 then (d, true) else (d.veerRefused 5, false)

/-- A veer request from a cue or from firmware: the windward decides on it, and a leeward passes it to the windward (R21,
R357). A device that is not paired refuses it. -/
def veerRequest (d : Dev) : Dev × Bool :=
  if d.state = .live then d.veerAsk
  else if d.inService && d.rdb R.TOP_STATE_PAIRED then (d.sendFrame (.request .veer), true)
  else (d.veerRefused 1, false)

end Dev
end Sys2Proof.Machine
end

