-- ==== Sys2Proof/Machine/Bus.lean ====
section
/-!
DEFINITION. The register bus (R7 to R16, R56 to R60, R565, R568): accesses, what a write or a read of each register does, and the
commands that are a write or a read of one register.
-/

namespace Sys2Proof.Machine
namespace Dev

/-! Accesses into stopped domains (R56). -/

/-- The return lane on whose recovered clock the register at an address runs: those of a lane's receiver do (the case of R56;
DEDUCED). -/
def rxLaneOf (addr : Nat) : Option Nat :=
  let w := addr / 65536
  let o := addr % 65536
  if 0x30 ≤ w ∧ w < 0x38 ∧ 0x100 ≤ o ∧ o < 0x300 ∧ [4, 8, 12, 16, 32, 36, 44].contains ((o - 0x100) % 0x40) then
    some (8 * (w - 0x30) + (o - 0x100) / 0x40)
  else none

/-- The clock of the register at an address has been declared stopped. -/
def accessStopped (d : Dev) (addr : Nat) : Bool :=
  d.domainStopped (domainOf addr).1 (domainOf addr).2 ||
    (match rxLaneOf addr with
     | some k => d.domainStopped 7 k
     | none => false)

/-- An access of another width than a register's ends with an error response and changes no register (R8). -/
def sized (d : Dev) (size : AccessSize) (addr : Nat) (write : Bool) (f : Dev → Dev × Nat × Bool) : Dev × Nat × Bool :=
  if size = .word then f d else (d.accessLog addr write, 0, true)

/-- An access from the register bus, which has one master (R60): it waits where the clock has stopped (R56), and otherwise
ends with what `f` answers: data and whether it is an error response. While an access waits, the bus takes no other. -/
def access (addr : Nat) (write : Option Nat) (f : Dev → Dev × Nat × Bool) (d : Dev) (size : AccessSize := .word) : Dev :=
  if d.clk.wait.isSome then d
  else if d.accessStopped addr then
    { d with clk := { d.clk with wait := some ⟨addr, write.isSome, write.getD 0, size, d.now, false⟩ } }
  else
    let r := d.sized size addr write.isSome f
    r.1.emit (.bus r.2.1 r.2.2)

/-- A write that ends without an error response. -/
def writeTo (addr v : Nat) (f : Dev → Dev) (d : Dev) : Dev := d.access addr (some v) fun d => (f d, 0, false)

/-! Fields (R13, R14, R565). -/

/-- A register takes a written word, field by field; a field that is writable in BOOT only keeps its value elsewhere. -/
def setFields (fs : List Fld) (v : Nat) (d : Dev) : Dev :=
  fs.foldl (fun d f =>
    let x := bits v (f.lo + f.width - 1) f.lo
    if f.boot && d.state ≠ .boot then d else
    match f.acc with
    | .rw => d.wr f x
    | .rws g => (d.wr f x).dirty g
    | .w1s => d.wr f (Nat.lor (d.rd f) x)
    | .w1c => d.wr f (clearBits f.width (d.rd f) x)
    | _ => d) d

/-- The bits of a word that fields other than those of WO, RO and RC keep. -/
def keptBits (fs : List Fld) (v : Nat) : Nat :=
  Nat.land v ((fs.map fun f => if f.settable || f.acc = .w1s then fldMask f else 0).foldl Nat.lor 0)

/-- The commit group of a register's fields. -/
def groupOf (fs : List Fld) : Option Nat := fs.findSome? fun f => match f.acc with
  | .rws g => some g.val
  | _ => none

/-- Every writable field of a register is writable in BOOT only, and the device is not in BOOT (R565). -/
def bootOnly (fs : List Fld) (d : Dev) : Bool :=
  let own := fs.filter fun f => f.acc != .ro && f.acc != .rc
  decide (d.state ≠ .boot) && !own.isEmpty && own.all Fld.boot

/-- A plain write: near a decided commit occasion it is held (R351), and otherwise the fields take it, and it is mirrored. -/
def plainWrite (fs : List Fld) (addr v : Nat) (d : Dev) : Dev :=
  match (groupOf fs).bind d.decidedLine with
  | some l => d.holdWrite l (.reg addr (keptBits fs v))
  | none =>
    let d := d.setFields fs v
    if keptBits fs 0xFFFFFFFF = 0 then d else d.mirrorReg addr (keptBits fs v)

/-! Registers whose write does more. -/

/-- WTM.CTRL. -/
def writeSource (v : Nat) (d : Dev) : Dev := (actSource v d).mirrorReg 0x20000 v

/-- WTM.EPOCH_LO and EPOCH_HI. -/
def writeEpoch (hi : Bool) (v : Nat) (d : Dev) : Dev := (actEpoch hi v d).mirrorReg (if hi then 0x20044 else 0x20040) v

/-- WTM.COMMIT_ARM. -/
def writeArm (v : Nat) (d : Dev) : Dev := (actCommitArm v d).mirrorReg 0x20080 (v % 256)

/-- TBL.SEL. -/
def writeSel (v : Nat) (d : Dev) : Dev := (actTblSel d v).mirrorReg 0x1000000 v

/-- TBL.DATA: bytes at or beyond ESIZE are ignored on write (Table 2-16). -/
def writeTblData (i v : Nat) (d : Dev) : Dev :=
  let n := Nat.min 4 (tblEsize (d.rd R.TBL_SEL_TABLE) (d.rd R.TBL_SEL_INSTANCE) - 4 * i)
  d.plainWrite [R.TBL_DATA_D i] (0x1000100 + 4 * i) (v % 256 ^ n)

/-- CLK.CAL_REQ (R326). -/
def writeCalReq (v : Nat) (d : Dev) : Dev :=
  let d := if bit v 0 then d.queueRx else d
  let d := if bit v 1 then d.queueCams else d
  if bit v 2 then d.queueDram else d

/-- MVL.CT_CMD (R306). -/
def writeCt (v : Nat) (d : Dev) : Dev :=
  let d := if bit v 31 then d.ctStart (bits v 11 0) (bits v 25 24)
    else (d.wr R.MVL_CT_CMD_TILE (bits v 11 0)).wr R.MVL_CT_CMD_OP (bits v 25 24)
  d.mirrorReg 0x240040 (v % 2 ^ 31)

/-- SNAP.CTRL (R536). -/
def writeSnap (v : Nat) (d : Dev) : Dev :=
  let d := d.setFields ((regAt 0x50000).getD []) v
  if bit v 8 then d.calm 2 else d

/-- VEER.CTRL (R341, R365). -/
def writeVeerCtrl (v : Nat) (d : Dev) : Dev :=
  let d := d.setFields ((regAt 0x70000).getD []) v
  if bit v 0 then actYieldTest d else d

/-- CAM.CAL_CTRL (R123, R124). A run in progress as HOLD is written to 1 goes on to its end and takes its targets (DESIGN CHOICE, log entry
120: R124 does not say whether it stops). -/
def writeCamCal (n v : Nat) (d : Dev) : Dev :=
  let d := d.wr (R.CAM_CAL_CTRL_HOLD n) (bits v 1 1)
  if bit v 0 then actCamCalGo n d else d

/-- CAM.DLY: a line under override stands at its override at once (R124). -/
def writeDly (n i v : Nat) (d : Dev) : Dev :=
  let d := (d.wr (R.CAM_DLY_OVR_EN n i) (bits v 15 15)).wr (R.CAM_DLY_OVR_TAP n i) (bits v 13 8)
  if bit v 15 && decide (d.rd (R.CAM_DLY_TAP n i) ≠ bits v 13 8) then
    let m := (d.wr (R.CAM_DLY_TAP n i) (bits v 13 8)).tapMedian n
    m.1.wr (R.CAM_CTL_DLY_TAP n) m.2
  else d

/-- LNE.RX_OVR: a lane under override uses the taps of RX_OVR at once. -/
def writeRxOvr (k v : Nat) (d : Dev) : Dev :=
  let d := d.setFields ((regAt (0x300110 + 0x10000 * (k / 8) + 0x40 * (k % 8))).getD []) v
  if bit v 15 then d.easeRx false k else d

/-- LNE.OCT_CTRL (R316). -/
def writeOctCtrl (j v : Nat) (d : Dev) : Dev :=
  let d := (d.wr (R.LNE_OCT_CTRL_AUTO_REC j) (bits v 16 16)).wr (R.LNE_OCT_CTRL_SSC_EN j) (bits v 8 8)
  d.requestMode j (bits v 1 0)

/-- LNE.PRESET: the preset in use eases to the values written (R318). -/
def writePreset (j i v : Nat) (d : Dev) : Dev :=
  (d.setFields ((regAt (0x300010 + 0x10000 * j + 4 * i)).getD []) v).presetChanged j

/-- HVC.SESSION.CMD (R422, R438). -/
def writeSession (m : List Host.Cell) (s v : Nat) (d : Dev) : Dev :=
  let d := if bit v 0 then actSessionOpen s d else d
  let d := if bit v 1 then actSessionClose s d else d
  if bit v 2 then actSessionFlush s m d else d

/-- A write of RAWP.DEF_DATA, CLR.LUT_DATA or CMP.COEF_DATA. -/
def writeDef (n v : Nat) (d : Dev) : Dev × Bool := (actDefData n (some v) d, defRefused n d)
def writeLut (v : Nat) (d : Dev) : Dev × Bool := (actLutData (some v) d, lutRefused true d)
def writeCoef (v : Nat) (d : Dev) : Dev × Bool := (actCoefData (some v) d, coefRefused d)

/-! The writes of each window that are more than plain; none where the write is plain. -/

def wtmWrite (o v : Nat) (d : Dev) : Option Dev :=
  match o with
  | 0x0000 => some (d.writeSource v)
  | 0x0018 => some (if bit v 0 then actSampleGo d else d)
  | 0x0040 => some (d.writeEpoch false v)
  | 0x0044 => some (d.writeEpoch true v)
  | 0x0080 => some (d.writeArm v)
  | 0x0214 => some (actCalCmd v d)
  | _ => none

def tblWindow (o v : Nat) (d : Dev) : Option Dev :=
  if 0x100 ≤ o ∧ o < 0x200 then some (d.writeTblData ((o - 0x100) / 4) v) else
  match o with
  | 0x00 => some (d.writeSel v)
  | 0x08 => some (actTblCmd d v)
  | 0x2C => some (if bit v 0 then actTblLoadGo d else d)
  | _ => none

def camWrite (n o v : Nat) (d : Dev) : Option Dev :=
  if 0x100 ≤ o ∧ o < 0x180 then some (d.writeDly n ((o - 0x100) / 4) v)
  else if o = 0x200 then some (d.writeCamCal n v) else none

def lneWrite (j o v : Nat) (d : Dev) : Option (Dev × Bool) :=
  let i := (o - 0x100) / 0x40
  if o = 0 then some (d.writeOctCtrl j v, false)
  else if 0x10 ≤ o ∧ o < 0x20 then some (d.writePreset j ((o - 0x10) / 4) v, false)
  else if 0x100 ≤ o ∧ o < 0x300 ∧ (o - 0x100) % 0x40 = 0 then some (actLaneTest (some (8 * j + i)) v d)
  else if 0x100 ≤ o ∧ o < 0x300 ∧ (o - 0x100) % 0x40 = 0x10 then some (d.writeRxOvr (8 * j + i) v, false)
  else none

def ringCmd (m : List Host.Cell) (fuller : Bool) (o v : Nat) (d : Dev) : Option Dev :=
  if o < 0x100 then none else
  let r := (o - 0x100) / 0x40
  let x := (o - 0x100) % 0x40
  if fuller then (if x = 0x1C ∧ r < 8 then some (if bit v 0 then actFulReset r m d else d) else none)
  else if 16 ≤ r then none
  else if x = 0x1C then some (actHbxAbort r (v % 65536) m d)
  else if x = 0x24 then some (if bit v 0 then actHbxReset r m d else d) else none

def hvcWrite (m : List Host.Cell) (o v : Nat) (d : Dev) : Option Dev :=
  if o = 0x10 then some (actRestartArm v d)
  else if 0x1000 ≤ o ∧ o < 0x2000 ∧ (o - 0x1000) % 0x80 = 4 then some (d.writeSession m ((o - 0x1000) / 0x80) v) else none

/-- A write that is more than plain. -/
def otherWrite (m : List Host.Cell) (addr v : Nat) (d : Dev) : Option (Dev × Bool) :=
  let w := addr / 65536
  let o := addr % 65536
  let fine (x : Option Dev) : Option (Dev × Bool) := x.map fun d => (d, false)
  if w = 0x01 then (if o = 0x80C then some (d.writeCalReq v, false) else none)
  else if w = 0x02 then fine (d.wtmWrite o v)
  else if w = 0x04 then (if o = 0x20 then some (actErrSel d v, false) else none)
  else if w = 0x05 then
    (if o = 0 then some (d.writeSnap v, false) else if o = 0x40 then some (actBsel false v d, false)
     else if o = 0x44 then some (actBsel true v d, false) else none)
  else if w = 0x06 then (if o = 0x1C then some (if bit v 0 then actKick d else d, false) else none)
  else if w = 0x07 then
    (if o = 0 then some (d.writeVeerCtrl v, false)
     else if o = 0x30 then some (if bit v 0 then d.veerRequest.1 else d, false) else none)
  else if 0x10 ≤ w ∧ w < 0x18 then fine (d.camWrite (w - 0x10) o v)
  else if 0x18 ≤ w ∧ w < 0x20 then
    (if o = 0x40 then some (d.writeDef (w - 0x18) v)
     else if o = 0x88 then some (if bit v 0 then actHistArm (w - 0x18) d else d, false) else none)
  else if w = 0x20 then (if o = 0x2004 then some (d.writeLut v) else none)
  else if w = 0x21 then (if o = 0x24 then some (d.writeCoef v) else none)
  else if w = 0x24 then (if o = 0x40 then some (d.writeCt v, false) else none)
  else if 0x30 ≤ w ∧ w < 0x38 then d.lneWrite (w - 0x30) o v
  else if w = 0x38 then (if o = 0 then some (actLaneTest none v d) else none)
  else if w = 0x40 then fine (d.ringCmd m false o v)
  else if w = 0x41 then fine (d.ringCmd m true o v)
  else if w = 0x42 then fine (d.hvcWrite m o v)
  else if w = 0x44 then (if o = 0x44 then some (if bit v 0 then actTsqPop d else d, false) else none)
  else if w = 0x100 then fine (d.tblWindow o v)
  else none

/-- The register at an address is one of a Fuller ring whose reset is still resolving (R414). -/
def ringReleasing (addr : Nat) (d : Dev) : Bool :=
  let o := addr % 65536
  decide (addr / 65536 = 0x41) && decide (0x100 ≤ o) && decide (o < 0x300) && (d.fring ((o - 0x100) / 0x40)).releasing

/-- A write that reaches its register. Answers also whether it ends with an error response (R8, R58, R414, R565). -/
def busWrite (m : List Host.Cell) (addr v : Nat) (d : Dev) : Dev × Bool :=
  match regAt addr with
  | none => (d.accessLog addr true, true)
  | some fs =>
    if d.bootOnly fs || d.ringReleasing addr then (d.accessLog addr true, true) else
    match d.otherWrite m addr v with
    | some r => r
    | none => (d.plainWrite fs addr v, false)

/-- A write of the bits of a word under a mask (R470): other bits of RW and RWS fields keep their values, and other bits are
written 0. -/
def maskWord (addr v mask : Nat) (d : Dev) : Nat :=
  let fs := ((regAt addr).getD []).filter Fld.settable
  Nat.lor (clearBits 32 (fs.map fun f => d.rd f * 2 ^ f.lo).sum mask) (Nat.land v mask)

/-- What a read of a register does besides: it latches an upper half, fetches an entry of a banked memory, or brings
a count of checked bits up to date. -/
def beforeRead (addr : Nat) (d : Dev) : Dev :=
  let w := addr / 65536
  let o := addr % 65536
  if addr = 0x20010 then actWlnLoRead d
  else if addr = 0x45010C then d.wr R.ETH_ARRIVAL_HI (d.cue.arrival / 2 ^ 32)
  else if 0x18 ≤ w ∧ w < 0x20 ∧ o = 0x40 then actDefData (w - 0x18) none d
  else if addr = 0x202004 then actLutData none d
  else if addr = 0x210024 then actCoefData none d
  else if 0x30 ≤ w ∧ w < 0x38 ∧ 0x100 ≤ o ∧ o < 0x300 ∧ (o - 0x100) % 0x40 = 0x24 then d.patFlush (8 * (w - 0x30) + (o - 0x100) / 0x40)
  else if w = 0x43 ∧ 0x100 ≤ o ∧ o < 0x200 ∧ (o - 0x100) % 0x40 = 0x18 then actWrIndexLoRead ((o - 0x100) / 0x40) d
  else d

/-- A read that reaches its register: data, and whether it ends with an error response. An RC field is cleared after the read
(R13). -/
def busRead (addr : Nat) (d : Dev) : Dev × Nat × Bool :=
  match regAt addr with
  | none => (d.accessLog addr false, 0, true)
  | some fs =>
    if addr = 0x202004 && lutRefused false d then (actLutData none d, 0, true) else
    let d := d.beforeRead addr
    (fs.foldl (fun d f => if f.acc = .rc then d.wr f 0 else d) d, d.shownWord fs, false)

/-! Mirrored and held writes (R351). -/

/-- A device takes a write that its partner has mirrored, or that was held: the register's fields, a table's entry, an entry of
a banked memory. -/
def takeWrite (w : MirrorWrite) (d : Dev) : Dev :=
  match w with
  | .reg a v =>
    if a = 0x20000 then actSource v d
    else if a = 0x20040 then actEpoch false v d
    else if a = 0x20044 then actEpoch true v d
    else if a = 0x1000000 then actTblSel d v
    else d.setFields (((regAt a).getD []).filter fun f => !f.boot) v
  | .table t i x bs => (d.tblWriteBytes t i (x * tblEsize t i) bs).dirty (d.tblGroup t)
  | .bank i k v => d.putBank i k v
  | .offset s b seqs =>
    seqs.foldl (fun d (q : Nat × Nat) => d.wr (R.ETH_STREAM_NEXT_SEQ q.1) q.2) (d.hvcOffset s b)

/-- Held writes of a line land at the boundary after it, and are mirrored as they land. -/
def landWrites (d : Dev) : Dev :=
  let go := d.pair.late.filter fun p => decide (d.ahead p.1 < 0)
  let d := { d with pair := { d.pair with late := d.pair.late.filter fun p => decide (0 ≤ d.ahead p.1) } }
  go.foldl (fun d p => (d.takeWrite p.2).mirrorWrite p.2) d

end Dev

/-! The commands that are a write or a read of one register. -/

/-- The word that leaves the other fields of a register as they are. -/
def Dev.same (d : Dev) (addr : Nat) : Nat :=
  ((((regAt addr).getD []).filter Fld.settable).map fun f => d.rd f * 2 ^ f.lo).sum

def execRegisterWrite (addr value : Word) (size : AccessSize) (s : State) : Host.Outcome State Fault Refusal :=
  run s fun m d => d.access addr.toNat (some value.toNat) (fun d =>
    let r := d.busWrite m addr.toNat value.toNat
    (r.1, 0, r.2)) size

/-- RC_READ: any register may be read so (R13). -/
def execRcRead (read : RegRead) (s : State) : Host.Outcome State Fault Refusal :=
  run s fun _ d => d.access read.addr.toNat none (Dev.busRead read.addr.toNat) read.size

def execWlnLoRead (s : State) : Host.Outcome State Fault Refusal := run s fun _ d => d.access 0x20010 none (Dev.busRead 0x20010)
def execArrivalLoRead (s : State) : Host.Outcome State Fault Refusal := run s fun _ d => d.access 0x45010C none (Dev.busRead 0x45010C)
def execWrIndexLoRead (port : Fin 4) (s : State) : Host.Outcome State Fault Refusal :=
  run s fun _ d => d.access (0x430118 + 0x40 * port.val) none (Dev.busRead (0x430118 + 0x40 * port.val))

def execSourceWrite (value : Word) (s : State) : Host.Outcome State Fault Refusal :=
  run s fun _ d => d.writeTo 0x20000 value.toNat (Dev.writeSource value.toNat)
def execEpochWrite (hi : Bool) (value : Word) (s : State) : Host.Outcome State Fault Refusal :=
  run s fun _ d => d.writeTo (if hi then 0x20044 else 0x20040) value.toNat (Dev.writeEpoch hi value.toNat)
def execSampleGo (s : State) : Host.Outcome State Fault Refusal := run s fun _ d => d.writeTo 0x20018 1 actSampleGo
def execCommitArmWrite (value : Word) (s : State) : Host.Outcome State Fault Refusal :=
  run s fun _ d => d.writeTo 0x20080 value.toNat (Dev.writeArm value.toNat)
def execCalInsert (s : State) : Host.Outcome State Fault Refusal := run s fun _ d => d.writeTo 0x20214 1 actCalInsert
def execCalCancel (s : State) : Host.Outcome State Fault Refusal := run s fun _ d => d.writeTo 0x20214 2 actCalCancel
def execErrSelWrite (value : Word) (s : State) : Host.Outcome State Fault Refusal :=
  run s fun _ d => d.writeTo 0x40020 value.toNat fun d => actErrSel d value.toNat
def execSnapTriggerWrite (s : State) : Host.Outcome State Fault Refusal :=
  run s fun _ d => d.writeTo 0x50000 (d.same 0x50000 + 256) fun d => d.calm 2
def execBselWrite (baddr : Bool) (value : Word) (s : State) : Host.Outcome State Fault Refusal :=
  run s fun _ d => d.writeTo (if baddr then 0x50044 else 0x50040) value.toNat (actBsel baddr value.toNat)
def execWdogKick (s : State) : Host.Outcome State Fault Refusal := run s fun _ d => d.writeTo 0x6001C 1 actKick
def execYieldTest (s : State) : Host.Outcome State Fault Refusal :=
  run s fun _ d => d.writeTo 0x70000 (d.same 0x70000 + 1) actYieldTest
def execFirmwareVeerReq (s : State) : Host.Outcome State Fault Refusal :=
  run s fun _ d => d.writeTo 0x70030 1 fun d => d.veerRequest.1
def execCamCalGo (n : Fin 8) (s : State) : Host.Outcome State Fault Refusal :=
  run s fun _ d => d.writeTo (0x100200 + 0x10000 * n.val) (d.same (0x100200 + 0x10000 * n.val) + 1) (actCamCalGo n)
def execDefDataAccess (n : Fin 8) (write : Option Word) (s : State) : Host.Outcome State Fault Refusal :=
  run s fun _ d => match write with
    | some v => d.access (0x180040 + 0x10000 * n.val) (some v.toNat) fun d => ((d.writeDef n v.toNat).1, 0, (d.writeDef n v.toNat).2)
    | none => d.access (0x180040 + 0x10000 * n.val) none (Dev.busRead (0x180040 + 0x10000 * n.val))
def execHistArmWrite (n : Fin 8) (s : State) : Host.Outcome State Fault Refusal :=
  run s fun _ d => d.writeTo (0x180088 + 0x10000 * n.val) 1 (actHistArm n)
def execLutDataAccess (write : Option Word) (s : State) : Host.Outcome State Fault Refusal :=
  run s fun _ d => match write with
    | some v => d.access 0x202004 (some v.toNat) fun d => ((d.writeLut v.toNat).1, 0, (d.writeLut v.toNat).2)
    | none => d.access 0x202004 none (Dev.busRead 0x202004)
def execCoefDataAccess (write : Option Word) (s : State) : Host.Outcome State Fault Refusal :=
  run s fun _ d => match write with
    | some v => d.access 0x210024 (some v.toNat) fun d => ((d.writeCoef v.toNat).1, 0, (d.writeCoef v.toNat).2)
    | none => d.access 0x210024 none (Dev.busRead 0x210024)
def execCtWrite (tile : BitVec 12) (s : State) : Host.Outcome State Fault Refusal :=
  run s fun _ d => d.writeTo 0x240040 (0x81000000 + tile.toNat) (Dev.writeCt (0x81000000 + tile.toNat))
def execCtRead (tile : BitVec 12) (s : State) : Host.Outcome State Fault Refusal :=
  run s fun _ d => d.writeTo 0x240040 (0x82000000 + tile.toNat) (Dev.writeCt (0x82000000 + tile.toNat))
def execCtSetPosition (tile : BitVec 12) (s : State) : Host.Outcome State Fault Refusal :=
  run s fun _ d => d.writeTo 0x240040 (0x83000000 + tile.toNat) (Dev.writeCt (0x83000000 + tile.toNat))
def execModeReqWrite (octet : Fin 8) (mode : BitVec 2) (s : State) : Host.Outcome State Fault Refusal :=
  run s fun _ d =>
    d.writeTo (0x300000 + 0x10000 * octet.val) (d.same (0x300000 + 0x10000 * octet.val) / 4 * 4 + mode.toNat) (actModeReq octet mode.toNat)
def execLaneTestWrite (lane : Option (Fin 64)) (value : Word) (s : State) : Host.Outcome State Fault Refusal :=
  run s fun _ d =>
    let addr := match lane with
      | some k => 0x300100 + 0x10000 * (k.val / 8) + 0x40 * (k.val % 8)
      | none => 0x380000
    d.access addr (some value.toNat) fun d =>
      let r := actLaneTest (lane.map Fin.val) value.toNat d
      (r.1, 0, r.2)
def execLctrlGo (lane : Fin 64) (s : State) : Host.Outcome State Fault Refusal :=
  run s fun _ d =>
    let addr := 0x300100 + 0x10000 * (lane.val / 8) + 0x40 * (lane.val % 8)
    d.writeTo addr (d.same addr + 1) (actLctrlGo lane)
def execCalReqRx (s : State) : Host.Outcome State Fault Refusal := run s fun _ d => d.writeTo 0x1080C 1 Dev.queueRx
def execCalReqCam (s : State) : Host.Outcome State Fault Refusal := run s fun _ d => d.writeTo 0x1080C 2 Dev.queueCams
def execCalReqDram (s : State) : Host.Outcome State Fault Refusal := run s fun _ d => d.writeTo 0x1080C 4 Dev.queueDram
def execHbxAbort (client : Fin 16) (cid : BitVec 16) (s : State) : Host.Outcome State Fault Refusal :=
  run s fun m d => d.writeTo (0x40011C + 0x40 * client.val) cid.toNat (actHbxAbort client cid.toNat m)
def execHbxClientReset (client : Fin 16) (s : State) : Host.Outcome State Fault Refusal :=
  run s fun m d => d.writeTo (0x400124 + 0x40 * client.val) 1 (actHbxReset client m)
def execFulRingReset (ring : Fin 8) (s : State) : Host.Outcome State Fault Refusal :=
  run s fun m d => d.access (0x41011C + 0x40 * ring.val) (some 1) fun d =>
    if d.ringReleasing (0x41011C + 0x40 * ring.val) then (d.accessLog (0x41011C + 0x40 * ring.val) true, 0, true)
    else (actFulReset ring m d, 0, false)
def execSessionOpen (session : Fin 32) (s : State) : Host.Outcome State Fault Refusal :=
  run s fun _ d => d.writeTo (0x421004 + 0x80 * session.val) 1 (actSessionOpen session)
def execSessionClose (session : Fin 32) (s : State) : Host.Outcome State Fault Refusal :=
  run s fun _ d => d.writeTo (0x421004 + 0x80 * session.val) 2 (actSessionClose session)
def execSessionFlush (session : Fin 32) (s : State) : Host.Outcome State Fault Refusal :=
  run s fun m d => d.writeTo (0x421004 + 0x80 * session.val) 4 (actSessionFlush session m)
def execRestartArmWrite (value : Word) (s : State) : Host.Outcome State Fault Refusal :=
  run s fun _ d => d.writeTo 0x420010 value.toNat (actRestartArm value.toNat)
def execTsqPop (s : State) : Host.Outcome State Fault Refusal := run s fun _ d => d.writeTo 0x440044 1 actTsqPop
def execTblRead (s : State) : Host.Outcome State Fault Refusal := run s fun _ d => d.writeTo 0x1000008 2 actTblRead
def execTblWrite (s : State) : Host.Outcome State Fault Refusal := run s fun _ d => d.writeTo 0x1000008 1 actTblWrite
def execTblSelWrite (value : Word) (s : State) : Host.Outcome State Fault Refusal :=
  run s fun _ d => d.writeTo 0x1000000 value.toNat (Dev.writeSel value.toNat)
def execTblLoadGo (s : State) : Host.Outcome State Fault Refusal := run s fun _ d => d.writeTo 0x100002C 1 actTblLoadGo

/-- TEST_PORT_INSTRUCTION (R555): REGACC reaches the register bus in test mode only (R60); the other instructions act on the pins. -/
def execTestPortInstruction (instr : TestInstr) (s : State) : Host.Outcome State Fault Refusal :=
  run s fun m d =>
    let d := actTestPort instr d
    match instr with
    | .regacc a w =>
      if !d.boot.tmode then d else
      (match w with
       | some v => d.access a (some v) fun d =>
          let r := d.busWrite m a v
          (r.1, 0, r.2)
       | none => d.access a none (Dev.busRead a))
    | _ => d

end Sys2Proof.Machine
end

