-- ==== Sys2Proof/Machine/Cue.lean ====
section
/-!
DEFINITION. The cue protocol and the SPI target port (chapter 17: R466 to R476; R21, R86, R88, R96 to R98): messages, their check,
the operations that the management core executes, scheduled and stored cues, fired reports.
-/

namespace Sys2Proof.Machine

/-! Messages (R466). -/

/-- The length of a message agrees with its LEN. -/
def cueLenOk (bs : List Byte) : Bool := decide (64 ≤ bs.length) && decide (beAt bs 6 2 ≤ 1408) && decide (bs.length = 64 + beAt bs 6 2)

def cueKind (bs : List Byte) : Nat := beAt bs 3 1
def cueKeyId (bs : List Byte) : Nat := beAt bs 4 1
def cueSeq (bs : List Byte) : Nat := beAt bs 8 8
def cueAt (bs : List Byte) : Nat := beAt bs 16 8 % 2 ^ 48
def cueTag (bs : List Byte) : Nat := beAt bs 24 2

/-- SCHEDULED is set. -/
def cueScheduled (bs : List Byte) : Bool := bit (beAt bs 5 1) 0

/-- The body of a message. -/
def cueBody (bs : List Byte) : List Byte := slice bs 32 (beAt bs 6 2)

/-- A message with its HMAC (Table 17-2, R467). -/
def cueMessage (key : List Byte) (kind id flags seq at_ tag : Nat) (body : List Byte) : List Byte :=
  let m := beBytes 2 0x5A43 ++ beBytes 1 1 ++ beBytes 1 kind ++ beBytes 1 id ++ beBytes 1 flags ++ beBytes 2 body.length ++
    beBytes 8 seq ++ beBytes 8 at_ ++ beBytes 2 tag ++ beBytes 6 0 ++ body
  m ++ hmacSha256 key m

/-- The operations of a body, up to the first that is malformed (R470); answers also whether all are well formed. -/
def splitOps : Nat → List Byte → List (Nat × List Byte) × Bool
  | 0, _ => ([], true)
  | n + 1, bs =>
    if bs = [] then ([], true) else
    let len := beAt bs 2 2
    if bs.length < 4 + len ∨ bs.length < 4 ∨ beAt bs 1 1 ≠ 0 then ([], false) else
    let r := splitOps n (bs.drop (4 + len))
    ((beAt bs 0 1, slice bs 4 len) :: r.1, r.2)

def cueOps (body : List Byte) : List (Nat × List Byte) × Bool := splitOps body.length body

/-- An operation changes show state (Table 17-3). -/
def showOp (op : Nat) : Bool := [1, 3, 4, 5, 6, 7, 8].contains op

/-- A stored or scheduled cue may not contain the operation (R470). -/
def notStored (op : Nat) : Bool := [8, 9, 13].contains op

/-- The statuses of Table 17-4 for the ERROR codes of the calendar (Table 3-13). -/
def calStatus (e : Nat) : Nat := match e with
  | 0 => 0 | 1 => 4 | 2 => 3 | 3 => 6 | 4 => 5 | 5 => 7 | 6 => 8 | _ => 9

/-- The fields of a CAL_INSERT: target, action, groups, tag, ARG0, ARG1 (Table 3-9, in message order). -/
def calArgs (a : List Byte) : CalEntry :=
  ⟨beAt a 0 4 + 2 ^ 32 * beAt a 16 2, beAt a 4 1, beAt a 5 1, beAt a 6 2, beAt a 8 4, beAt a 12 4, false⟩

namespace Dev

def cput (d : Dev) (c : CuePart) : Dev := { d with cue := c }

/-! The check of operations (R471, Table 3-18). -/

/-- The device takes cues that change show state (R21, R354). -/
def showAllowed (d : Dev) : Bool := d.state = .live && !d.pair.refusing

/-- The DEV_TAG of the windward as known to this device (R354, Table 17-4). -/
def windwardTag (d : Dev) : Nat :=
  if d.state = .live then (if d.pair.refusing then 0xFFFF else d.rd R.VEER_DEV_TAG)
  else match d.pair.partner with
    | some b => if d.rdb R.TOP_STATE_PAIRED && b.windward then b.tag else 0xFFFF
    | none => 0xFFFF

/-- The form of an operation's arguments. -/
def opForm (d : Dev) (spi : Bool) (op : Nat) (a : List Byte) : Bool :=
  match op with
  | 0x01 => a.length = 12
  | 0x02 => a.length = 5 && decide (1 ≤ beAt a 4 1) && decide (beAt a 4 1 ≤ 64)
  | 0x03 => tblEsize (beAt a 0 1) (beAt a 1 1) != 0 && a.length = 6 + tblEsize (beAt a 0 1) (beAt a 1 1)
  | 0x04 => decide (5 ≤ a.length) && decide (a.length ≤ 1028) && decide (beAt a 0 4 + (a.length - 4) ≤ d.cue.bufSize)
  | 0x05 => a.length = 18
  | 0x06 => a.length = 2
  | 0x07 => a.length = 1
  | 0x08 =>
    let o := cueOps (a.drop 1)
    decide (1 ≤ a.length) && decide (a.length ≤ 1025) && o.2 && o.1.all fun x => decide (1 ≤ x.1) && decide (x.1 ≤ 13) && !notStored x.1
  | 0x09 => a.length = 1 && decide (beAt a 0 1 ≤ 1)
  | 0x0D => (a.length = 19 && (beAt a 0 1 = 4 || beAt a 0 1 = 6)) || (spi && a == [])
  | _ => a == []

/-- The addresses that an operation accesses on the register bus. -/
def opAddrs (op : Nat) (a : List Byte) : List Nat :=
  match op with
  | 0x01 => [beAt a 0 4]
  | 0x02 => (List.range (beAt a 4 1)).map fun i => beAt a 0 4 + 4 * i
  | _ => []

/-- A write to the register would end with an error response (R565). -/
def writeBarred (d : Dev) (addr : Nat) : Bool := match regAt addr with
  | some fs => d.bootOnly fs
  | none => true

/-- The words that an operation adds to the reply (R473). -/
def opWords (op : Nat) (a : List Byte) : Nat := match op with
  | 0x02 => beAt a 4 1
  | 0x0C => 5
  | _ => 0

/-- The check of one operation for form and for the access rules of R8: its status, 0 where it passes. `words` counts the data of
the operations before it (R473). -/
def opFault (d : Dev) (spi stored : Bool) (words : Nat) (op : Nat) (a : List Byte) : Nat :=
  if op = 0 ∨ 13 < op then 0x0B
  else if (stored && notStored op) || !d.opForm spi op a then 0x09
  else if (opAddrs op a).any fun x => (regAt x).isNone then 0x02
  else if 1408 < 24 + 4 * (words + opWords op a) then 0x09
  else 0

/-- The rows of Table 3-18 that refuse an operation, numbered from 1 in the order of the table, each with its status. `staged` holds
the calendar entries of the operations before it. -/
def opRows (d : Dev) (staged : List CalEntry) (op : Nat) (a : List Byte) : List (Nat × Nat) :=
  (if showOp op && !d.showAllowed then [(1, 0x01)] else []) ++
  match op with
  | 0x01 => if d.writeBarred (beAt a 0 4) then [(4, 0x02)] else []
  | 0x05 =>
    let e := calArgs a
    let s := calStatus (({ d with cal := { d.cal with entries := d.cal.entries ++ staged } }).calCheck e.target e.action e.groups e.arg0
      e.arg1)
    if s = 0 then [] else [(5, s)]
  | 0x09 =>
    (if beAt a 0 1 = 1 && d.liveOrWarm then [(2, 0x01)] else []) ++ (if d.rdb R.WTM_STATUS_JUMP_PENDING then [] else [(3, 0x0A)])
  | 0x0A => if d.rdb R.TOP_STATE_PAIRED then [] else [(6, 0x01)]
  | _ => []

/-- What refuses the operations of a cue, in their order, as (row, status, index): row 0 is a failed check of form or access, after
which no row is looked for. -/
def opsCheck (d : Dev) (spi stored : Bool) : List CalEntry → Nat → Nat → List (Nat × List Byte) → List (Nat × Nat × Nat)
  | _, _, _, [] => []
  | staged, words, i, (op, a) :: r =>
    let c := d.opFault spi stored words op a
    if c ≠ 0 then [(0, c, i)] else
    let e := calArgs a
    let next := if op = 5 then staged ++ [{ e with target := e.target % 2 ^ 48 }] else staged
    ((d.opRows staged op a).map fun x => (x.1, x.2, i)) ++ d.opsCheck spi stored next (words + opWords op a) (i + 1) r

/-- The rows of Table 3-18 that refuse a request as a scheduled cue (R472): its insertion. -/
def schedRows (d : Dev) (target : Nat) : List (Nat × Nat × Nat) :=
  let e := d.calCheck target 4 0 0 0
  (if d.showAllowed then [] else [(1, 0x01, 0xFF)]) ++ (if e = 0 then [] else [(5, calStatus e, 0xFF)])

/-- The refusal among those of a cue: its first operation's failed check of form; else the first row of the table that applies
(R98), with the first operation that it applies to (DEDUCED, log entry 105). -/
def firstRefusal : List (Nat × Nat × Nat) → Option (Nat × Nat × Nat)
  | [] => none
  | x :: r =>
    if x.1 = 0 then some x else
    some (r.foldl (fun b y => if y.1 ≠ 0 ∧ y.1 < b.1 then y else b) x)

/-- The check of a body, with the target of a scheduled request: the row, the status and the index of what refuses it, if anything
does. -/
def bodyCheck (d : Dev) (spi stored : Bool) (sched : Option Nat) (body : List Byte) : Option (Nat × Nat × Nat) :=
  let o := cueOps body
  firstRefusal (d.opsCheck spi stored [] 0 0 o.1 ++ (if o.2 then [] else [(0, 0x09, o.1.length)]) ++
    (match sched with
     | some t => d.schedRows t
     | none => []))

/-- The commit groups that operations touch (R96): those of the register fields and tables that they write. -/
def touched (d : Dev) (ops : List (Nat × List Byte)) : Nat :=
  let sel := d.rd R.TBL_SEL_TABLE :: (ops.filter fun o => o.1 = 1 && beAt o.2 0 4 = 0x1000000).map fun o => beAt o.2 4 4 % 256
  let one (o : Nat × List Byte) : List Nat :=
    match o.1 with
    | 0x01 =>
      let addr := beAt o.2 0 4
      if addr = 0x1000008 ∨ addr = 0x100002C then sel.map d.tblGroup else
      ((regAt addr).getD []).filterMap fun f => match f.acc with
        | .rws g => if Nat.land (fldMask f) (beAt o.2 8 4) ≠ 0 then some g.val else none
        | _ => none
    | 0x03 => [d.tblGroup (beAt o.2 0 1)]
    | _ => []
  let gs := ops.flatMap one
  maskOf 8 fun g => gs.contains g

/-! Replies and reports (R467, R468, R473, R474, R476). -/

/-- SPIT_IRQ_N follows the output queue in COLD, WARM and LIVE, and is released elsewhere (R476, Table 22-2). -/
def spiShow (d : Dev) : Dev := { d with pins := { d.pins with spitIrqN := d.cue.spi.isEmpty || !d.inService } }

/-- A reply or a report enters the SPI output queue (R476). -/
def spiPut (d : Dev) (report : Bool) (bs : List Byte) : Dev :=
  let q := d.cue.spi
  if q.length < 16 then (d.cput { d.cue with spi := q ++ [(report, bs)] }).spiShow
  else if report then d.cnt R.ETH_SPI_DROP
  else
    let i := q.findIdx fun x => x.1
    if i < q.length then ((d.cput { d.cue with spi := q.eraseIdx i ++ [(false, bs)] }).cnt R.ETH_SPI_DROP).spiShow
    else d.cnt R.ETH_SPI_DROP

/-- A reply or a report goes to an address. -/
def cueSend (d : Dev) (to_ : CueAddr) (report : Bool) (bs : List Byte) : Dev :=
  match to_ with
  | .spi => d.spiPut report bs
  | .udp p _ addr udp => if d.ethRuns p then d.emit (.udp p addr (d.cm R.ETH_CUE_PORT) udp 0 bs) else d

def cueKey (d : Dev) (id : Nat) : Option CueKey := d.cue.keys.find? fun k => k.id = id
def putKey (d : Dev) (k : CueKey) : Dev := d.cput { d.cue with keys := d.cue.keys.map fun x => if x.id = k.id then k else x }

/-- The body of a reply (Table 17-4). -/
def replyBody (d : Dev) (arrival status index removed : Nat) (data : List Byte) : List Byte :=
  beBytes 8 arrival ++ beBytes 1 status ++ beBytes 1 index ++ beBytes 1 (stateCode d.state) ++ beBytes 1 (Nat.min removed 255) ++
    beBytes 2 d.windwardTag ++ beBytes 2 0 ++ beBytes 8 d.wtm.wln ++ data

/-- A reply to a message, as it goes out: it carries the request's SEQ, AT_WLN, TAG and SCHEDULED. -/
def replyTo (key : CueKey) (req body : List Byte) (dup : Bool) : List Byte :=
  cueMessage key.key 2 key.id (b2n (cueScheduled req) + 2 * b2n dup) (cueSeq req) (beAt req 16 8) (cueTag req) body

/-- A request is answered, and the reply kept (R468). -/
def answer (d : Dev) (q : CueMsg) (status index removed : Nat) (data : List Byte) : Dev :=
  match d.cueKey (cueKeyId q.bytes) with
  | none => d
  | some k =>
    let r := replyTo k q.bytes (d.replyBody q.arrival status index removed data) false
    let seq := cueSeq q.bytes
    let d := d.putKey { k with replies := (seq, r) :: k.replies.filter fun x => decide (k.high.getD 0 < x.1 + 64) && x.1 != seq }
    let d := match q.source with
      | .spi => d.cput { d.cue with spiOpen := d.cue.spiOpen - 1 }
      | _ => d
    d.cueSend q.source false r

/-- A fired report goes to every destination (R474), under the SEQ counter of the key that registered it. The report of a MARK entry
holds ARG1 as well (Table 3-10), after ARG0, with which R474's body ends (DESIGN CHOICE, log entry 104). -/
def fireReport (d : Dev) (e : CalEntry) (at_ result : Nat) : Dev :=
  let body := beBytes 2 e.tag ++ beBytes 1 e.action ++ beBytes 1 result ++ beBytes 1 (b2n e.past) ++ beBytes 3 0 ++ beBytes 8 at_ ++
    beBytes 4 e.arg0 ++ (if e.action = 5 then beBytes 4 e.arg1 else [])
  d.cue.subs.foldl (fun d (s : Subscriber) =>
    match d.cueKey s.key with
    | none => d
    | some k => (d.putKey { k with out := (k.out + 1) % 2 ^ 64 }).cueSend s.addr true (cueMessage k.key 3 k.id 0 k.out 0 0 body)) d

/-- What the event log keeps of a fired entry: PAST, the present WLN, its arguments (R84, R86, Table 3-10). -/
def firedNote (d : Dev) (e : CalEntry) : LogNote := .fired ⟨e.past, d.wtm.wln, e.arg0, e.arg1⟩

/-- A fired entry is not carried out: FIRED_REFUSED with its reason, and the report (R88, R362). -/
def fireRefused (d : Dev) (e : CalEntry) (at_ reason : Nat) : Dev :=
  (d.log 0x02 0 4 0x008 (e.tag + 65536 * reason) 0 (some (d.firedNote e))).fireReport e at_ reason

/-! What the management core takes in hand (R86, R97, R471, R472). -/

/-- The store of scheduled operations (R472). -/
def schedLimit : Nat := 2 * 2 ^ 20

/-- A scheduled request that has passed its check becomes a CUE entry (R472): its status. An entry that holds operations names them
in ARG1. -/
def schedule (d : Dev) (q : CueMsg) : Dev × Nat :=
  let body := cueBody q.bytes
  if schedLimit < (d.cue.sched.map fun x => x.2.length).sum + body.length then (d, 4)
  else
    let n := d.cue.nextOps
    let d := d.cput { d.cue with sched := d.cue.sched ++ [(n, body)], nextOps := n % (2 ^ 32 - 1) + 1 }
    (d.calStore (cueAt q.bytes) 4 0 (cueTag q.bytes) 0 n, 0)

/-- The message at the head of the queue is taken in hand, once nothing else is and no fired CUE or MARK entry waits (R97): it is
checked, and answered at once where its check fails, it is scheduled or it holds no operation. -/
def cueTake (d : Dev) : Dev :=
  if d.cue.job.isSome || !d.cal.runq.isEmpty || !d.inService then d else
  match d.cue.queue with
  | [] => d
  | q :: r =>
    let d := d.cput { d.cue with queue := r }
    let sched := cueScheduled q.bytes
    let spi := decide (q.source = .spi)
    let body := cueBody q.bytes
    match d.bodyCheck spi sched (if sched then some (cueAt q.bytes) else none) body with
    | some (_, c, i) => d.answer q c i 0 []
    | none =>
      if sched then
        let s := d.schedule q
        s.1.answer q s.2 0xFF 0 []
      else
        let ops := (cueOps body).1
        if ops = [] then d.answer q 0 0xFF 0 [] else
        { d.cput { d.cue with job := some ⟨ops, 0, [], 0, 0, some q, none⟩ } with com := { d.com with msgHold := d.touched ops } }

/-- The next messages are taken in hand, until one waits for its operations or none is left. -/
def cuePump (d : Dev) : Dev := (List.range (d.cue.queue.length)).foldl (fun d _ => d.cueTake) d

/-- The job in hand ends with a status (R471): its commits fall due, and it is answered or reported. -/
def endJob (d : Dev) (j : CueJob) (status : Nat) : Dev :=
  let d := { d.cput { d.cue with job := none } with com := ⟨0, Nat.lor d.com.afterMsg j.commits⟩ }
  let d := match j.msg with
    | some q => d.answer q status (if status = 0 then 0xFF else j.index) j.removed j.data
    | none => d
  let d := match j.fired with
    | some f => if status = 0 then d.fireReport f.entry f.at_ 0 else d.fireRefused f.entry f.at_ 1
    | none => d
  d.cuePump

/-- What becomes of the operation at the head: it waits; it fails with a status; or it is done, the job with it. -/
def stepJob (d : Dev) (j : CueJob) (r : Option (CueJob × Nat)) : Dev :=
  match r with
  | none => d
  | some (k, 0) =>
    let k := { k with ops := k.ops.tail, index := k.index + 1 }
    if k.ops = [] then d.endJob k 0 else d.cput { d.cue with job := some k }
  | some (_, c) => d.endJob j c

/-- The operation at the head of the job in hand is executed by `f`, if it is of the kind given. An access that waits at a stopped
clock keeps it waiting. -/
def cueOp (code : Nat) (f : List Byte → CueJob → Dev → Dev × Option (CueJob × Nat)) (d : Dev) : Dev :=
  if !d.inService || d.clk.wait.isSome then d else
  match d.cue.job with
  | none => d
  | some j =>
    match j.ops with
    | [] => d
    | (op, a) :: _ =>
      if op ≠ code then d else
      let r := f a j d
      r.1.stepJob j r.2

/-- An access of the job in hand waits at a stopped clock (R56). -/
def cueWait (d : Dev) (addr : Nat) (write : Bool) (v : Nat) : Dev := { d with clk := { d.clk with wait := some ⟨addr, write, v, .word, d.now, true⟩ } }

end Dev

/-! The operations (R470 to R474). -/

/-- REG_WRITE: the bits of the mask are written. An error response, or a command of TBL that ends with an error, fails it. -/
def actRegWrite (m : List Host.Cell) (a : List Byte) (j : CueJob) (d : Dev) : Dev × Option (CueJob × Nat) :=
  let addr := beAt a 0 4
  let v := d.maskWord addr (beAt a 4 4) (beAt a 8 4)
  if d.accessStopped addr then (d.cueWait addr true v, none) else
  let r := d.busWrite m addr v
  let tblErr := (addr = 0x1000008 || addr = 0x100002C) && r.1.rd R.TBL_STATUS_ERROR != 0
  (r.1, some (j, if r.2 || tblErr then 0x0D else 0))

/-- REG_READ of the registers at some addresses, one after another: the data, or nothing after an error response. -/
def readRegs : List Nat → Dev → Dev × Option (List Byte)
  | [], d => (d, some [])
  | x :: r, d =>
    let q := d.busRead x
    if q.2.2 then (q.1, none) else
    let t := readRegs r q.1
    (t.1, t.2.map (leBytes 4 q.2.1 ++ ·))

def actRegRead (a : List Byte) (j : CueJob) (d : Dev) : Dev × Option (CueJob × Nat) :=
  let xs := Dev.opAddrs 2 a
  match xs.find? d.accessStopped with
  | some x => (d.cueWait x false 0, none)
  | none =>
    let r := readRegs xs d
    match r.2 with
    | some bs => (r.1, some ({ j with data := j.data ++ bs }, 0))
    | none => (r.1, some (j, 0x0D))

/-- TBL_WRITE waits while TBL is busy (R471), and ends with EXEC_ERR where a TBL command would end with an ERROR, no free page among
them (R49; log entry 93). -/
def actTblWriteOp (a : List Byte) (j : CueJob) (d : Dev) : Dev × Option (CueJob × Nat) :=
  let t := beAt a 0 1
  let i := beAt a 1 1
  if d.tbl.load.isSome then (d, none)
  else if d.noFreePage t i (beAt a 2 4) then (d, some (j, 0x0D))
  else if beAt a 2 4 < d.tblEntries t i then (d.tblWriteEntry t i (beAt a 2 4) ((a.drop 6).map BitVec.toNat), some (j, 0))
  else (d, some (j, 0x0D))

def actMemWrite (a : List Byte) (j : CueJob) (d : Dev) : Dev × Option (CueJob × Nat) :=
  (d.memWrite (d.cue.buffer + beAt a 0 4) (a.drop 4), some (j, 0))

def actCalInsertOp (a : List Byte) (j : CueJob) (d : Dev) : Dev × Option (CueJob × Nat) :=
  let e := calArgs a
  let r := d.calInsert e.target e.action e.groups e.tag e.arg0 e.arg1
  (r.2, some (j, if r.1 = 0 then 0 else 0x0D))

/-- CAL_CANCEL: a cancel that finds no entry stops the request with NO_SUCH_TAG or TOO_LATE (R89). -/
def actCalCancelOp (a : List Byte) (j : CueJob) (d : Dev) : Dev × Option (CueJob × Nat) :=
  let r := d.calCancel (beAt a 0 2)
  (r.2.2, some ({ j with removed := j.removed + r.2.1 }, calStatus r.1))

def actCommitOp (a : List Byte) (j : CueJob) (d : Dev) : Dev × Option (CueJob × Nat) :=
  (d, some ({ j with commits := Nat.lor j.commits (beAt a 0 1) }, 0))

def actStoreCue (a : List Byte) (j : CueJob) (d : Dev) : Dev × Option (CueJob × Nat) :=
  let slot := beAt a 0 1
  (d.cput { d.cue with stored := (slot, a.drop 1) :: d.cue.stored.filter fun x => x.1 != slot }, some (j, 0))

/-- TIME_ACCEPT (R76, R465), with STEP or with SLEW: refused again where its condition has gone by the time it is executed. -/
def actTimeAccept (step : Bool) (a : List Byte) (j : CueJob) (d : Dev) : Dev × Option (CueJob × Nat) :=
  if (beAt a 0 1 = 1) ≠ step then (d, none)
  else if (step && d.liveOrWarm) || !d.rdb R.WTM_STATUS_JUMP_PENDING then (d, some (j, 0x0D))
  else ((if step then d.acceptStep else d.acceptSlew).ptpAccepted, some (j, 0))

/-- VEER_REQ: a request that the conditions of R357 refuse fails. -/
def actVeerReq (_a : List Byte) (j : CueJob) (d : Dev) : Dev × Option (CueJob × Nat) :=
  let r := d.veerRequest
  (r.1, some (j, if r.2 then 0 else 0x0D))

def actSnapshot (_a : List Byte) (j : CueJob) (d : Dev) : Dev × Option (CueJob × Nat) := (d.calm 2, some (j, 0))

/-- STATUS: TOP.STATE, WTM.STATUS, VEER.STATUS, VEER.EPOCH and PTP.STATUS (R473). -/
def actStatus (_a : List Byte) (j : CueJob) (d : Dev) : Dev × Option (CueJob × Nat) :=
  let ws := [0x4, 0x20004, 0x70004, 0x70008, 0x440008].map fun x => d.shownWord ((regAt x).getD [])
  (d, some ({ j with data := j.data ++ ws.flatMap (leBytes 4) }, 0))

/-- SUBSCRIBE: the address takes its place among at most four, the oldest giving way (R474). -/
def actSubscribe (a : List Byte) (j : CueJob) (d : Dev) : Dev × Option (CueJob × Nat) :=
  match j.msg with
  | none => (d, some (j, 0x0D))
  | some q =>
    let v6 := decide (beAt a 0 1 = 6)
    let port := match q.source with
      | .udp p _ _ _ => p
      | .spi => 0
    let addr : CueAddr := if a == [] then .spi else .udp port v6 (if v6 then slice a 1 16 else slice a 13 4) (beAt a 17 2)
    let s := d.cue.subs ++ [(⟨cueKeyId q.bytes, addr⟩ : Subscriber)]
    (d.cput { d.cue with subs := s.drop (s.length - 4) }, some (j, 0))

/-! Arrival (R467 to R469, R475, R476). -/

/-- A message whose length is right arrives: it is authenticated, answered again, dropped as a replay, refused while the queue is
full, or queued with its arrival number. -/
def actCueArrive (src : CueAddr) (bs : List Byte) (d : Dev) : Dev :=
  match d.cueKey (cueKeyId bs) with
  | none => d.cnt R.ETH_AUTH_FAIL
  | some k =>
    if beAt bs 0 2 ≠ 0x5A43 ∨ beAt bs 2 1 ≠ 1 ∨ hmacSha256 k.key (bs.take (bs.length - 32)) ≠ bs.drop (bs.length - 32) then d.cnt R.ETH_AUTH_FAIL
    else if cueKind bs ≠ 1 then d
    else match k.replies.find? fun x => x.1 = cueSeq bs && decide (k.high.getD 0 < x.1 + 64) with
      | some x => (d.cnt R.ETH_DUP_REPLY).cueSend src false (Dev.replyTo k bs (cueBody x.2) true)
      | none =>
        let old := match k.high with
          | some h => decide (cueSeq bs ≤ h)
          | none => false
        if old then d.cnt R.ETH_REPLAY_DROP
        else if 64 ≤ d.cue.queue.length then
          (d.cnt R.ETH_BUSY).cueSend src false (Dev.replyTo k bs (d.replyBody 0 0x0C 0xFF 0 []) false)
        else
          let n := (d.cue.arrival + 1) % 2 ^ 64
          let d := (d.putKey { k with high := some (cueSeq bs) }).cnt R.ETH_RX_MSG
          let d := d.cput { d.cue with
            queue := d.cue.queue ++ [⟨n, src, bs⟩], arrival := n
            spiOpen := d.cue.spiOpen + (if src = .spi then 1 else 0) }
          d.cuePump

/-- CUE_MESSAGE_RECEIVE (R466, R469): a datagram to CUE_PORT, or a message by SPI; only in COLD, WARM and LIVE (R21). With its Ethernet,
IP and UDP headers a datagram is at most 1,522 bytes long, as ETH_SERVICE_FRAME counts a frame's (R457). -/
def actCueMessage (src : CueFrom) (bs : List Byte) (d : Dev) : Dev :=
  if !d.inService then d else
  match src with
  | .eth p v6 addr udp dst =>
    if !d.ethRuns p then d else if 1522 < bs.length + (if v6 then 62 else 42) then d.cnt R.ETH_OVERSIZE else
    if dst != d.cm R.ETH_CUE_PORT then d else if !cueLenOk bs then d.cnt R.ETH_BAD_FRAME else actCueArrive (.udp p v6 addr udp) bs d
  | .spi =>
    if !cueLenOk bs then d.cnt R.ETH_BAD_FRAME
    else if 16 ≤ (d.cue.spi.filter fun x => !x.1).length + d.cue.spiOpen then d.cnt R.ETH_SPI_DROP
    else actCueArrive .spi bs d

/-- READ_STATUS (R475). -/
def actReadStatus (d : Dev) : Dev :=
  if d.state = .safe then d else
  d.emit (.spi (beBytes 1 d.cue.spi.length ++ beBytes 2 ((d.cue.spi.head?.map fun x => x.2.length).getD 0)))

/-- READ_MSG (R475): no reply leaves in BOOT, YIELDED and SAFE (R21). -/
def actReadMsg (d : Dev) : Dev :=
  if !d.inService then d else
  match d.cue.spi with
  | [] => d
  | x :: r => ((d.cput { d.cue with spi := r }).emit (.spi x.2)).spiShow

/-! Fired CUE and MARK entries (R86, R88). -/

/-- STORED_CUE_RUN: the oldest fired CUE entry starts, and logs the WLN at which it started (R86), or is refused (R88): 2 where the
windward refuses cues that change show state, else 1. Table 21-3 has no event for the start of a cue: the entry's event is a free
value (log entry 104). -/
def actStoredCue (d : Dev) : Dev :=
  if !d.inService || d.cue.job.isSome then d else
  match d.cal.runq with
  | [] => d
  | f :: r =>
    if f.entry.action ≠ 4 then d else
    let d := { d with cal := { d.cal with runq := r } }
    let n := f.entry.arg1
    let body := if n = 0 then (d.cue.stored.find? fun x => x.1 = f.entry.arg0).map Prod.snd
      else (d.cue.sched.find? fun x => x.1 = n).map Prod.snd
    let d := if n = 0 then d else d.cput { d.cue with sched := d.cue.sched.filter fun x => x.1 != n }
    match body with
    | none => (d.fireRefused f.entry f.at_ 1).cuePump
    | some b =>
      match d.bodyCheck false true none b with
      | some (row, _, _) => (d.fireRefused f.entry f.at_ (if row = 1 then 2 else 1)).cuePump
      | none =>
        let d := d.drawn.log 0x02 0 0 (d.freeVal 41 % 2 ^ 13) d.wtm.wln 0 (some (d.firedNote f.entry))
        let ops := (cueOps b).1
        if ops = [] then (d.fireReport f.entry f.at_ 0).cuePump else
        { d.cput { d.cue with job := some ⟨ops, 0, [], 0, 0, none, some f⟩ } with com := { d.com with msgHold := d.touched ops } }

/-- MARK_RUN: the oldest fired MARK entry writes its entry and its report (R86). -/
def actMark (d : Dev) : Dev :=
  if !d.inService || d.cue.job.isSome then d else
  match d.cal.runq with
  | [] => d
  | f :: r =>
    if f.entry.action ≠ 5 then d else
    let d := { d with cal := { d.cal with runq := r } }
    ((d.log 0x02 0 0 0x009 f.entry.arg0 0 (some (d.firedNote f.entry))).fireReport f.entry f.at_ 0).cuePump

def execCueMessageReceive (src : CueFrom) (bytes : List Byte) (s : State) : Host.Outcome State Fault Refusal :=
  run s fun _ d => actCueMessage src bytes d
def execRegWrite (s : State) : Host.Outcome State Fault Refusal := run s fun m d => d.cueOp 0x01 (actRegWrite m)
def execRegRead (s : State) : Host.Outcome State Fault Refusal := run s fun _ d => d.cueOp 0x02 actRegRead
def execTblWriteOp (s : State) : Host.Outcome State Fault Refusal := run s fun _ d => d.cueOp 0x03 actTblWriteOp
def execMemWrite (s : State) : Host.Outcome State Fault Refusal := run s fun _ d => d.cueOp 0x04 actMemWrite
def execCalInsertOp (s : State) : Host.Outcome State Fault Refusal := run s fun _ d => d.cueOp 0x05 actCalInsertOp
def execCalCancelOp (s : State) : Host.Outcome State Fault Refusal := run s fun _ d => d.cueOp 0x06 actCalCancelOp
def execCommitOp (s : State) : Host.Outcome State Fault Refusal := run s fun _ d => d.cueOp 0x07 actCommitOp
def execStoreCue (s : State) : Host.Outcome State Fault Refusal := run s fun _ d => d.cueOp 0x08 actStoreCue
def execTimeAcceptSlew (s : State) : Host.Outcome State Fault Refusal := run s fun _ d => d.cueOp 0x09 (actTimeAccept false)
def execTimeAcceptStep (s : State) : Host.Outcome State Fault Refusal := run s fun _ d => d.cueOp 0x09 (actTimeAccept true)
def execVeerReq (s : State) : Host.Outcome State Fault Refusal := run s fun _ d => d.cueOp 0x0A actVeerReq
def execSnapshot (s : State) : Host.Outcome State Fault Refusal := run s fun _ d => d.cueOp 0x0B actSnapshot
def execStatus (s : State) : Host.Outcome State Fault Refusal := run s fun _ d => d.cueOp 0x0C actStatus
def execSubscribe (s : State) : Host.Outcome State Fault Refusal := run s fun _ d => d.cueOp 0x0D actSubscribe
def execWriteMsg (bytes : List Byte) (s : State) : Host.Outcome State Fault Refusal := run s fun _ d => actCueMessage .spi bytes d
def execReadStatus (s : State) : Host.Outcome State Fault Refusal := run s fun _ d => actReadStatus d
def execReadMsg (s : State) : Host.Outcome State Fault Refusal := run s fun _ d => actReadMsg d
def execStoredCueRun (s : State) : Host.Outcome State Fault Refusal := run s fun _ d => actStoredCue d
def execMarkRun (s : State) : Host.Outcome State Fault Refusal := run s fun _ d => actMark d

end Sys2Proof.Machine
end

