-- ==== Sys2Proof/Machine/Clock.lean ====
section
/-!
DEFINITION. The clock monitors (R50, R51) and register accesses into a stopped domain (R55 to R57).
-/

namespace Sys2Proof.Machine

/-- The instances of each family of Table 2-17. SENSE, the last, has no monitor of its own: the monitors run on it. -/
def clockInstances : List Nat := [1, 1, 1, 1, 1, 8, 8, 64, 2, 4, 1, 2, 1, 2, 1, 1, 1]

/-- The PLL-derived internal domains, whose stop is a fatal fault: CORE, FAB, MGT, RBUS, CODEC and STC (R341). -/
def fatalClock (family : Nat) : Bool := [1, 2, 3, 4, 10, 14].contains family

/-- CLOCK_STOPPED (R51, R55, R114, R230, R341, R456). -/
def actClockStopped (m : List Host.Cell) (family inst : Nat) (d : Dev) : Dev :=
  if clockInstances.getD family 0 ≤ inst || d.domainStopped family inst then d else
  let d := { d with clk := { d.clk with stopped := d.clk.stopped ++ [(family, inst)] } }
  let d := (d.clockLog family inst false).discardCalm family inst
  let d := if family = 5 then (d.camClockStop m inst).wr (R.CAM_CLK_KHZ inst) 0 else if family = 13 then d.audStop inst else d
  let d := if family = 7 then d.runLost ⟨0, inst⟩
    else if family = 9 then (List.range 8).foldl (fun d c => d.runLost ⟨2, 8 * inst + c⟩) d else d
  let d := if family = 1 || family = 14 then { d with wtm := { d.wtm with running := false } } else d
  if fatalClock family then d.yield 3 else d

namespace Dev

/-- The access that waits goes on once its clock runs (R57): firmware's is answered, and that of a cue's operation is made. -/
def resumeAccess (m : List Host.Cell) (d : Dev) : Dev :=
  match d.clk.wait with
  | none => d
  | some w =>
    if d.accessStopped w.addr then d else
    let d := { d with clk := { d.clk with wait := none } }
    if w.cue then (if w.write then d.cueOp 1 (actRegWrite m) else d.cueOp 2 actRegRead)
    else
      let r := d.sized w.size w.addr w.write fun d =>
        if w.write then
          let r := d.busWrite m w.addr w.value
          (r.1, 0, r.2)
        else d.busRead w.addr
      r.1.emit (.bus r.2.1 r.2.2)

/-- After a write that timed out, of a register's width, the register's fields hold values that the spec does not give: free values (R57; log entry 3). -/
def unknownFields (d : Dev) (addr : Nat) : Dev :=
  (((regAt addr).getD []).filter fun f => f.settable && !(f.boot && d.state != .boot)).foldl (fun d f => d.drawn.wr f (d.freeVal 24)) d

end Dev

/-- CLOCK_RUNNING (R51). The measured frequency of a camera port's clock comes with the port's next frame start or line (log entry 121). -/
def actClockRunning (m : List Host.Cell) (family inst : Nat) (d : Dev) : Dev :=
  let stopped := d.domainStopped family inst
  let off := (family = 5 && inst < 8 && !d.rdb (R.CAM_STATUS_CLK_RUN inst)) || (family = 13 && inst < 2 && !d.rdb (R.AUD_DOM_STATUS_RUN inst))
  if !stopped && !off then d else
  let d := { d with clk := { d.clk with stopped := d.clk.stopped.filter fun c => c != (family, inst) } }
  let d := d.clockLog family inst true
  let d := if family = 5 then d.wr (R.CAM_STATUS_CLK_RUN inst) 1
    else if family = 13 then d.wr (R.AUD_DOM_STATUS_RUN inst) 1 else d
  d.resumeAccess m

/-- BRIDGE_TIMEOUT (R56): 16,384 RBUS cycles after it began to wait, the access is withdrawn and ends with an error response. -/
def actBridgeTimeout (d : Dev) : Dev :=
  match d.clk.wait with
  | none => d
  | some w =>
    let d := d.upTo (w.since + 16384 * 65536 * 10 / 3)
    let d := { d with clk := { d.clk with wait := none } }
    let d := d.log (sourceOf w.addr) (instOf w.addr) 4 0x004 (w.addr % 65536)
    let d := if w.write && w.size = .word then d.unknownFields w.addr else d
    if !w.cue then d.emit (.bus 0 true) else
    match d.cue.job with
    | some j => if d.inService then d.endJob j 0x0D else d.cput { d.cue with job := none }
    | none => d

def execClockStopped (family : Fin 18) (inst : Fin 64) (s : State) : Host.Outcome State Fault Refusal :=
  run s fun m d => actClockStopped m family inst d
def execClockRunning (family : Fin 18) (inst : Fin 64) (s : State) : Host.Outcome State Fault Refusal :=
  run s fun m d => actClockRunning m family inst d
def execBridgeTimeout (s : State) : Host.Outcome State Fault Refusal := run s fun _ d => actBridgeTimeout d

end Sys2Proof.Machine
end

