-- ==== Sys2Proof/Machine/Pair.lean ====
section
/-!
DEFINITION. Redundancy (chapter 12): beats, pairing and role selection, the pairing stream and the checkpoint, mirror mode, the
veer, split feed and homing.
-/

namespace Sys2Proof.Machine

namespace Dev

/-! Beats (R338, R339). -/

/-- The beat goes out on both paths, at line 0 (R338). -/
def sendBeat (d : Dev) : Dev :=
  if !d.inService then d else
  let w := beatPack 1 0 d.myBeat
  (d.sendFrame (.beat w)).emitWord w

/-- Pairing begins: SEQ counts anew in both directions, versions are exchanged, and the windward owes a base (R346, R349, R350). -/
def pairBegin (d : Dev) : Dev :=
  let d := (d.wrb R.TOP_STATE_PAIRED true).pput { d.pair with
    failed := false, txSeq := 0, rxSeq := 0, txCrc := 0xFFFFFFFF, rxCrc := 0xFFFFFFFF, kept := [], based := false, baseDue := d.state = .live,
    baseLeft := 0, version := none, sigsHis := [], mism := 0, missA := 0, missB := 0 }
  d.sendVersions

/-- A beat counts as received for the frame on a path (R339), and three in a row end a path's episode (R340). A FRAME that differs sets
WLN_MISMATCH on either path; of equal ones, the first of each frame counts toward the eight that clear it (log entry 113). -/
def countBeat (d : Dev) (pathB : Bool) (b : Beat) : Dev :=
  if d.lt / 4 ≤ d.line then d else
  let first := !d.pair.gotA && !d.pair.gotB
  let d :=
    if b.frame ≠ d.frameOf d.wtm.wln % 65536 then (d.wrb R.VEER_STATUS_WLN_MISMATCH true).pput { d.pair with equal := 0 }
    else if !first then d
    else
      let n := d.pair.equal + 1
      let d := d.pput { d.pair with equal := n }
      if 8 ≤ n then d.wrb R.VEER_STATUS_WLN_MISMATCH false else d
  let d :=
    if pathB then (if d.pair.gotB then d else d.pput { d.pair with gotB := true, okB := d.pair.okB + 1 })
    else (if d.pair.gotA then d else d.pput { d.pair with gotA := true, okA := d.pair.okA + 1 })
  let d := if d.rdb R.TOP_STATE_PAIRED then d else d.pairBegin
  let f := if pathB then R.VEER_STATUS_PATH_B else R.VEER_STATUS_PATH_A
  if d.rdb f && decide (3 ≤ (if pathB then d.pair.okB else d.pair.okA)) then (d.wrb f false).log 0x07 0 2 0x013 (b2n pathB) 2 else d

/-- At line ⌊L_T / 4⌋ a frame without a received beat on a path is a miss on it (R339); a device in YIELDED, whose lines count (R230),
goes on counting for PAIRED. -/
def countMisses (d : Dev) : Dev :=
  if d.line ≠ d.lt / 4 ∨ (!d.inService && d.state ≠ .yielded) then d else
  let p := d.pair
  let none_ := !p.gotA && !p.gotB
  let d := d.wr R.VEER_STATUS_MISS_BOTH (if none_ then Nat.min 255 (d.rd R.VEER_STATUS_MISS_BOTH + 1) else 0)
  d.pput { p with
    missA := if p.gotA then 0 else p.missA + 1, missB := if p.gotB then 0 else p.missB + 1
    okA := if p.gotA then p.okA else 0, okB := if p.gotB then p.okB else 0, gotA := false, gotB := false
    equal := if none_ then 0 else p.equal }

/-! Role selection (R336, R337, R569). -/

/-- Rule 2 of R336 makes this device windward; none where straps and tags are equal. -/
def winsRole (d : Dev) (b : Beat) : Option Bool :=
  let s := d.rdb R.TOP_STATE_ROLE_STRAP
  let t := d.rd R.VEER_DEV_TAG
  if s != b.strap then some s else if t = b.tag then none else some (decide (t < b.tag))

/-- Role selection on a beat of the partner. -/
def roleBeat (d : Dev) (b : Beat) : Dev :=
  let d := if d.pair.gaveUp then d.pput { d.pair with gaveUp := false, selecting := true } else d
  if !d.pair.selecting || d.state ≠ .cold then d
  else if b.windward then d.pput { d.pair with selecting := false }
  else match d.winsRole b with
    | some true => d.becomeWindward false
    | some false => d
    | none => (d.log 0x07 0 0 0x014 3).pput { d.pair with selecting := false }

/-- A device chosen at role selection enters LIVE once R70 lets it. -/
def roleTry (d : Dev) : Dev :=
  if !d.pair.selecting || d.state ≠ .cold then d
  else match d.pair.partner with
    | none => if d.pair.alone then d.becomeWindward true else d
    | some b => if !b.windward && d.winsRole b = some true then d.becomeWindward false else d

/-- A dual windward (R337): the higher tag goes to COLD; the other device claims every tile it does not own. -/
def dualWindward (d : Dev) (b : Beat) : Dev :=
  let t := d.rd R.VEER_DEV_TAG
  if b.tag < t then d.enterCold
  else if t < b.tag then
    let e := d.nextEpoch
    if epochMax < e then d.epochsOut else
    let d := d.setEpoch e
    (d.pput { d.pair with claiming := true }).claimAll
  else d

end Dev

/-- A beat on path B reaches a device in YIELDED, whose pairing lanes are idle: PAIRED shows that beats arrive (Table 1-5). -/
def Dev.yieldedBeat (d : Dev) (w : BitVec 128) : Dev :=
  match beatParse w with
  | none => d.cnt R.VEER_BEAT_BAD
  | some (type, _) => if type ≠ 1 then d else (d.wrb R.TOP_STATE_PAIRED true).pput { d.pair with gotB := true }

/-- BEAT_RECEIVE (R336 to R340): a word on a path. What is no BEAT frame or no word of 128 bits is discarded. -/
def actBeat (r : WordRx) (d : Dev) : Dev :=
  let pathB := onPin r
  match rxWord 1 r with
  | none => d
  | some w =>
  if d.state = .yielded && pathB then d.yieldedBeat w else
  if !d.inService || (!pathB && !d.pathUp) then d else
  match beatParse w with
  | none => d.cnt R.VEER_BEAT_BAD
  | some (type, b) =>
    if type ≠ 1 then d else
    let was := d.pair.partner
    let dual := d.state = .live && b.windward && !((was.map Beat.windward).getD false)
    let fell := d.state = .live && !b.synced && (was.map Beat.synced).getD false
    let d := (d.wr R.VEER_STATUS_PARTNER_STATE b.state).wr R.VEER_PARTNER_EPOCH b.epoch
    let d := (d.pput { d.pair with partner := some b }).countBeat pathB b
    let d := if fell then d.pput { d.pair with baseDue := true } else d
    if dual then d.dualWindward b else d.roleBeat b

/-- PAIR_WAIT_EXPIRY (R336, rules 3 and 4). -/
def actPairWait (d : Dev) : Dev :=
  if !d.pair.selecting || d.state ≠ .cold || d.pair.gaveUp || d.pair.partner.isSome then d else
  let ms := clampNat (d.rd R.VEER_TIMERS_PAIR_WAIT) 50 4095
  let d := d.upTo (d.pair.coldAt + millis (if d.rdb R.TOP_STATE_ROLE_STRAP then ms else 4 * ms))
  (d.pput { d.pair with alone := true }).becomeWindward true

/-- PATH_FAULT (R340): three misses in a row on one path, the other path receiving. -/
def actPathFault (pathB : Bool) (d : Dev) : Dev :=
  let miss := if pathB then d.pair.missB else d.pair.missA
  let other := if pathB then d.pair.missA else d.pair.missB
  let f := if pathB then R.VEER_STATUS_PATH_B else R.VEER_STATUS_PATH_A
  if !d.inService || !d.rdb R.TOP_STATE_PAIRED || d.rdb f || miss < 3 || other ≠ 0 then d else
  ((d.wrb f true).cnt (if pathB then R.VEER_PATH_B_FAULTS else R.VEER_PATH_A_FAULTS)).log 0x07 0 2 0x013 (b2n pathB) 1

/-- PARTNER_FAILED (R340): three frames in a row missed on both paths. In YIELDED only PAIRED follows. -/
def actPartnerFailed (d : Dev) : Dev :=
  if d.state = .yielded then (if d.pair.missA < 3 || d.pair.missB < 3 then d else d.wrb R.TOP_STATE_PAIRED false) else
  if !d.inService || !d.rdb R.TOP_STATE_PAIRED || d.pair.missA < 3 || d.pair.missB < 3 then d else
  let lead := (d.pair.partner.map Beat.windward).getD false
  let d := d.partnerGone
  if d.state = .live || !lead then d.log 0x07 0 0 0x014 1 else d.takeover

/-- YIELD_WORD_RECEIVE (R343). -/
def actYieldWord (r : WordRx) (d : Dev) : Dev :=
  if !d.inService || (!onPin r && !d.pathUp) then d else
  match rxWord 2 r with
  | none => d
  | some w =>
  match beatParse w with
  | none => d.cnt R.VEER_BEAT_BAD
  | some (type, _) => if type = 2 then d.partnerYield else d

namespace Dev

/-! The checkpoint (R348, Table 12-6). -/

/-- The field at a key of the register file. -/
def fieldAt (k : Nat) : Option Fld := (regAt (k / 32 * 4)).bind fun fs => fs.find? fun f => f.key = k

/-- The checkpoint carries a field: of the registers that are not each device's own (R568), those that a run-time write can set,
with COMMIT_PEND and RATE (Table 12-6). -/
def carried (k : Nat) : Bool := match fieldAt k with
  | none => false
  | some f => !localReg f.addr &&
      ((!f.boot && (f.settable || f.acc == .w1s)) || f.addr = 0x20088 || f.addr = 0x20008)

/-- The cut at this boundary. -/
def makeCut (d : Dev) : Ckpt :=
  { wln := d.wtm.wln, regs := d.regs.filter fun p => carried p.1, comm := d.comm, live := d.live, ratio := d.scn.ratio, tables := d.tbl.tables, luts := d.clr.luts,
    coefs := d.cmp.coefs, defects := d.defects, loop := (d.frameOf d.wtm.wln + 1, d.clr.next), tiles := d.tiles, reported := d.clr.reported, cal := d.cal,
    stored := d.cue.stored, sched := d.cue.sched, epoch := d.wtm.epochUse, lock := d.lock, veer := d.epoch, arrival := d.cue.arrival,
    takes := d.hbx.takes.map fun t => { t with comp := d.streamEnd t }, recs := d.hbx.recs, rtp := (List.range 8).map fun j => d.rd (R.ETH_STREAM_NEXT_SEQ j) }

/-- A tile's own reported state is taken; what describes this end stands (Table 12-6). -/
def takeTile (d : Dev) (t : TileLink) : Dev :=
  d.putTile { d.tileLink t.id with
    tileOwn := t.tileOwn, tileEpoch := t.tileEpoch, fseq := t.fseq, temp := t.temp, volt := t.volt, curr := t.curr, dead := t.dead,
    crcErr := t.crcErr, lost := t.lost, tlWln := t.tlWln }

/-- What every device takes of a cut, a WARM device in mirror mode among them (R351): the loop value set, the tiles, the calendar, wall
time, the veer epoch, the arrival number, the index of the recording store. The EPOCH is a COLD device's cue to step (R73). -/
def takeItems (d : Dev) (c : Ckpt) : Dev :=
  let d := { d with
    clr := { d.clr with
      received := some c.loop, before := d.clr.received
      reported := d.clr.reported ++ c.reported.filter fun t => !d.clr.reported.contains t }
    link := { d.link with spoke := d.link.spoke ++ c.reported.filter fun t => !d.link.spoke.contains t }
    cal := { d.cal with entries := c.cal.entries, fired := c.cal.fired }
    cue := { d.cue with stored := c.stored, sched := c.sched, arrival := c.arrival } }
  let d := (c.tiles.foldl takeTile d).setEpoch c.veer
  let d := d.hbxCut c.recs c.takes
  let d := (c.rtp.zipIdx).foldl (fun d q => d.wr (R.ETH_STREAM_NEXT_SEQ q.2) q.1) d
  let step := d.state = .cold && decide (c.epoch ≠ d.wtm.epochUse)
  { d with wtm := { d.wtm with epochHeld := some c.epoch, stepDue := d.wtm.stepDue || step } }

/-- The word of WTM.CTRL in a cut. -/
def cutCtrl (c : Ckpt) : Nat :=
  [R.WTM_CTRL_SOURCE, R.WTM_CTRL_FREF_EDGE, R.WTM_CTRL_FREE_RUN_OK, R.WTM_CTRL_FREF_DIV].foldl (fun (n : Nat) (f : Fld) =>
    n + (SMap.find? c.regs f.key).getD f.reset * 2 ^ f.lo) 0

/-- The Felt ratio in use comes with a cut (R262, R264): a live ratio that the image does not permit is refused here as it was
there. -/
def takeRatio (d : Dev) (r : Nat) : Dev :=
  let live := d.lv R.FLT_CTRL_RATIO
  let bad := !d.ratioAllowed live && decide (live ≠ r)
  ({ d with scn := { d.scn with ratio := r, refused := if bad then some live else none } }).wr R.FLT_STATUS_RATIO_REFUSED (b2n bad)

/-- A whole cut is applied (R348, R349). EPOCH of a device that has stepped goes on showing the mapping in use (R80). -/
def takeAll (d : Dev) (c : Ckpt) : Dev :=
  let d := actSource (cutCtrl c) d
  let d := { d with
    regs := SMap.takeFrom d.regs c.regs carried, comm := c.comm, live := c.live, defects := c.defects
    tbl := { d.tbl with tables := c.tables }, clr := { d.clr with luts := c.luts }, cmp := { d.cmp with coefs := c.coefs } }
  let d := d.checkLayers.takeRatio c.ratio
  (if d.wtm.stepped then d.wrPair R.WTM_EPOCH_LO R.WTM_EPOCH_HI d.wtm.epochUse else d).takeItems c

/-- The BASE frames of the largest payload that half the stream's capacity of 2.490 GB/s takes in a wall frame (R321, R349): 16 bytes
of header and CRC and two delimiters go with each. -/
def baseQuota (d : Dev) : Nat := Nat.max 1 (d.framePeriod * 1275 / (1024 * 65536 * 4114))

/-- The base goes on (R349): as many frames as a wall frame takes. How many a base has is a free value (log entry 18). -/
def sendBase (d : Dev) : Dev :=
  let d := if d.pair.baseDue then d.drawn.pput { d.pair with baseDue := false, baseLeft := 1 + d.freeVal 44 } else d
  (List.range (Nat.min d.pair.baseLeft d.baseQuota)).foldl (fun d _ =>
    if d.pair.baseLeft = 0 then d else
    let n := d.pair.baseLeft - 1
    (d.pput { d.pair with baseLeft := n }).sendState (.base (n = 0))) d

/-- The windward cuts the stream at a frame boundary (R349): the changes, in frames of which the number is a free value (log entry 18),
the CUT with the CRC-32C over the cut's state frames, and the next part of a base. -/
def sendCut (d : Dev) : Dev :=
  if !(d.state = .live && d.rdb R.TOP_STATE_PAIRED && d.pathUp) then d else
  let c := d.makeCut
  let d := (List.range (d.freeVal 21)).foldl (fun d _ => d.sendState .delta) d.drawn
  let d := d.sendState (.cut c (Nat.xor d.pair.txCrc 0xFFFFFFFF))
  (((d.cnt R.VEER_CUTS).wr R.VEER_CUT_AGE 0).pput { d.pair with cut := some c, cutAt := d.now }).sendBase

/-- CUT_AGE counts the frames without a cut. -/
def ageCut (d : Dev) (cut : Bool) : Dev := if cut || !d.inService then d else d.wr R.VEER_CUT_AGE (Nat.min (d.rd R.VEER_CUT_AGE + 1) (2 ^ 32 - 1))

/-- The last SEQ received without a gap. -/
def lastSeq (d : Dev) : Nat := (d.pair.rxSeq + 2 ^ 32 - 1) % 2 ^ 32

/-- A frame of one of some TYPEs reaches a device that is paired and whose pairing link is up (R346); none where it is discarded. -/
def rxFrame (d : Dev) (types : List Nat) (bytes : List Byte) : Option PairFrame :=
  if d.inService && d.pathUp && d.rdb R.TOP_STATE_PAIRED then (openFrame bytes).filter fun f => types.contains f.type else none

/-- A state frame is accepted if it is the next one, and goes into the CRC of its cut; a gap is answered with an ACK of the last frame
before it (R347). Answers also the frame where it was accepted. -/
def takeSeq (d : Dev) (types : List Nat) (bytes : List Byte) : Dev × Option PairFrame :=
  match d.rxFrame types bytes with
  | none => (d, none)
  | some f =>
    if d.state = .live then (d, none)
    else if f.seq = d.pair.rxSeq then (d.pput { d.pair with rxSeq := (f.seq + 1) % 2 ^ 32, rxCrc := cutCrc d.pair.rxCrc f }, some f)
    else if diff32 f.seq d.pair.rxSeq < 0 then (d, none)
    else (d.sendFrame (.ack d.lastSeq true), none)

/-- Mirror mode runs on this WARM device. -/
def mirrored (d : Dev) : Bool := d.state = .warm && d.rdb R.VEER_STATUS_MIRROR

end Dev

/-- STATE_FRAME_RECEIVE (R347, R349, R351). -/
def actStateFrame (bytes : List Byte) (body : StateBody) (d : Dev) : Dev :=
  let type := match body with
    | .base _ => 0x10
    | .delta => 0x11
    | .mirror _ => 0x13
  let r := d.takeSeq [type] bytes
  if r.2.isNone then r.1 else
  match body with
  | .base last => if last then r.1.pput { r.1.pair with based := true } else r.1
  | .delta => r.1
  | .mirror w => if r.1.mirrored then r.1.takeWrite w else r.1

/-- CUT_RECEIVE (R349): a device that holds a base and speaks the partner's format applies the cut, and is SYNCED. A cut whose
CRC-32C is not that of the state frames received is not complete. A WARM device that had left mirror mode is in it again. -/
def actCut (bytes : List Byte) (crc : Nat) (c : Ckpt) (d : Dev) : Dev :=
  let whole := crc = Nat.xor d.pair.rxCrc 0xFFFFFFFF
  let r := d.takeSeq [0x12] bytes
  let d := r.1
  if r.2.isNone || !whole || !d.pair.based || d.pair.version.isNone then d else
  let d := if d.mirrored then d.takeItems c else d.takeAll c
  let d := ((d.cnt R.VEER_CUTS).wr R.VEER_CUT_AGE 0).wrb R.VEER_STATUS_SYNCED true
  let d := if d.state = .warm && d.link.until_.isNone then
      (if d.rdb R.VEER_STATUS_MIRROR then d else d.hvcMirror).wrb R.VEER_STATUS_MIRROR true else d
  d.pput { d.pair with cut := some c, cutAt := d.now }

/-- COMMIT_FRAME_RECEIVE (R351). A device that has yet to enter WARM keeps the decisions on lines to come. -/
def actCommitFrame (bytes : List Byte) (line groups : Nat) (d : Dev) : Dev :=
  let r := d.takeSeq [0x14] bytes
  if r.2.isNone then r.1 else
  r.1.pput { r.1.pair with decided := (line, groups) :: r.1.pair.decided.filter fun p => decide (0 < diff32 p.1 r.1.wtm.wln) }

/-- ACK_FRAME_RECEIVE (R347): the frames it covers are dropped; from one that answers a gap on, those kept are sent again. -/
def actAck (bytes : List Byte) (seq : Nat) (gap : Bool) (d : Dev) : Dev :=
  if (d.rxFrame [0x03] bytes).isNone then d else
  let left := d.pair.kept.filter fun k => decide (0 < diff32 k.frame.seq seq)
  let d := d.pput { d.pair with kept := left }
  if gap then (left.foldl (fun d (k : Kept) => d.emitFrame k.frame k.body) d).addCnt R.VEER_RESENDS left.length else d

/-- ACK_FRAME_SEND (R347). -/
def actAckSend (d : Dev) : Dev :=
  if !d.inService || d.state = .live || !d.rdb R.TOP_STATE_PAIRED then d
  else d.sendFrame (.ack d.lastSeq false)

/-- CHECKPOINT_TIMEOUT (R349): no complete cut for 2 WF. -/
def actCutTimeout (d : Dev) : Dev :=
  if !d.inService || d.state = .live || !d.rdb R.VEER_STATUS_SYNCED then d
  else (d.upTo (d.pair.cutAt + 2 * d.framePeriod)).wrb R.VEER_STATUS_SYNCED false

namespace Dev

/-! Mirror mode (R351, R352). -/

/-- A state frame carries a mirrored write of a group. -/
def mirrorsGroup (d : Dev) (g : Nat) (b : PairBody) : Bool :=
  match b with
  | .mirror (.reg a _) => groupOf ((regAt a).getD []) = some g
  | .mirror (.table t _ _ _) => d.tblGroup t = g
  | .mirror (.bank i k _) => bankGroup i k = g
  | _ => false

/-- The groups with an occasion at a line that lies ahead, as known now (R93, R94): by apply line, and by COMMIT entry. -/
def foreseen (d : Dev) (line : Nat) : Nat :=
  let called := (d.cal.entries.filter fun e => e.action = 1 && !e.past && decide (e.target = line % 2 ^ 48)).foldl (fun n e => Nat.lor n e.groups) 0
  maskOf 8 fun g =>
    bit called g ||
    ((bit (d.rd R.WTM_COMMIT_ARM_ARM) g || bit (d.rd R.WTM_COMMIT_PEND_DEFERRED) g) && d.rd (R.WTM_APPLY_LINE_LINE g) = d.lineOf line) ||
    d.strayOccasion g

/-- The windward decides on the occasions of a line and sends the decision (R351). -/
def decide_ (d : Dev) (line : Nat) : Dev :=
  let occ := d.foreseen line
  let go := maskOf 8 fun g => bit occ g && d.deferCause g = 0 && !(d.pair.kept.any fun k => d.mirrorsGroup g k.body)
  let d := d.sendState (.commit (line % 2 ^ 32) go)
  d.pput { d.pair with decided := d.pair.decided ++ [(line, go + 256 * occ)] }

/-- Mirror mode starts on the windward: the next eight lines are decided at once. -/
def startMirror (d : Dev) : Dev :=
  if d.rdb R.VEER_STATUS_MIRROR then d else
  let d := (d.wrb R.VEER_STATUS_MIRROR true).pput { d.pair with decided := [] }
  (List.range 8).foldl (fun d i => d.decide_ ((d.wtm.wln + 1 + i) % 2 ^ 48)) d

/-- Mirror mode ends on the windward, unless a veer, a segment or a partner that has yet to leave WARM still needs it. -/
def endMirror (d : Dev) : Dev :=
  if d.state = .live && d.pair.prep.isNone && d.pair.given.isEmpty && d.pair.mirrorTo.isNone then
    (d.wrb R.VEER_STATUS_MIRROR false).pput { d.pair with decided := [] }
  else d

/-- The windward's commits at a boundary in mirror mode: what was decided for the line commits, and every other occasion is
deferred. -/
def mirrorCommits (d : Dev) (mask : Nat) : Dev × Nat :=
  let now := (d.pair.decided.find? fun p => p.1 = d.wtm.wln).map Prod.snd
  let go := (now.getD 0) % 256
  let r := (List.range 8).foldl (fun (p : Dev × Nat) g =>
    let apply := p.1.applyOccasion g
    if bit go g then
      let d := p.1.commitGroup g
      (if apply then d.wr R.WTM_COMMIT_ARM_ARM (setBit (d.rd R.WTM_COMMIT_ARM_ARM) g false) else d, p.2 + 2 ^ g)
    else if apply || bit mask g || p.1.strayOccasion g then
      let c := p.1.deferCause g
      (p.1.deferGroup g (if c = 0 then 4 else c), p.2)
    else p) (d, 0)
  (r.1.pput { r.1.pair with decided := r.1.pair.decided.filter fun p => decide (0 < sext 48 (p.1 + 2 ^ 48 - d.wtm.wln)) }, r.2)

/-- A WARM device leaves mirror mode (R352): cause 0 no COMMIT frame, 1 signatures. -/
def mirrorLost (d : Dev) (cause : Nat) : Dev :=
  let d := ((d.wrb R.VEER_STATUS_MIRROR false).wrb R.VEER_STATUS_SYNCED false).cnt R.VEER_MIRROR_LOST
  (d.hvcUnmirror.log 0x07 0 2 0x018 cause).pput { d.pair with based := false, mism := 0 }

/-- A WARM device's commits at a boundary (R351): those that the COMMIT frame for the line names; an occasion it does not name is
deferred. Without a frame for the line the device leaves mirror mode. -/
def warmCommits (d : Dev) (mask : Nat) : Dev × Nat :=
  if !d.rdb R.VEER_STATUS_MIRROR then (d, 0) else
  match d.pair.decided.find? fun p => p.1 = d.wtm.wln % 2 ^ 32 with
  | none => (d.mirrorLost 0, 0)
  | some q =>
    let r := (List.range 8).foldl (fun (p : Dev × Nat) g =>
      let apply := p.1.applyOccasion g
      if bit q.2 g then
        let d := p.1.commitGroup g
        (if apply then d.wr R.WTM_COMMIT_ARM_ARM (setBit (d.rd R.WTM_COMMIT_ARM_ARM) g false) else d, p.2 + 2 ^ g)
      else if apply || bit mask g then (p.1.deferGroup g 4, p.2)
      else p) (d, 0)
    (r.1.pput { r.1.pair with decided := r.1.pair.decided.filter fun p => decide (0 < diff32 p.1 d.wtm.wln) }, r.2)

/-- The last paired restart of the pipelines has taken effect: on both devices, since they see the same camera frames (R153, R352). -/
def restarted (d : Dev) : Bool :=
  (match d.pair.restart with
    | some r => decide (0 ≤ sext 48 (d.wtm.wln + 2 ^ 48 - r))
    | none => true) &&
  !((List.range 8).any fun n => d.lvb (R.CAM_CTRL_EN n) && d.rdb (R.RAWP_HIST_ARM_ARM n))

/-- A LIVE decode session withholds its output (R441). -/
def withholds (d : Dev) : Bool := d.hvc.sessions.any fun s => s.open_ && s.live && s.dec && s.wait

/-- Whether the present frame counts (R352): it began after the restart, and no LIVE decode session has withheld output in it. -/
def sigFrame (d : Dev) : Dev :=
  d.pput { d.pair with sigOk := (if d.line = 0 then d.restarted else d.pair.sigOk) && !d.withholds }

/-- The signatures of a frame are both known: two counted frames in a row that differ end mirror mode on a WARM device. -/
def sigCompare (d : Dev) (wln : Nat) : Dev :=
  match d.pair.sigsOwn.find? fun p => p.1 = wln, d.pair.sigsHis.find? fun p => p.1 = wln with
  | some a, some b =>
    if !d.mirrored || !a.2.2 then d
    else if a.2.1 = b.2 then d.pput { d.pair with mism := 0 }
    else if 1 ≤ d.pair.mism then d.mirrorLost 1 else d.pput { d.pair with mism := 1 }
  | _, _ => d

/-- SIG frames in mirror mode (R352, R358): the signature of the last frame, once. -/
def sendSig (d : Dev) : Dev :=
  if !(d.liveOrWarm && d.rdb R.TOP_STATE_PAIRED && d.rdb R.VEER_STATUS_MIRROR) then d else
  let w := d.rd R.CMP_SIG_WLN_LO
  let s := d.rd R.CMP_SIG
  if d.pair.sigsOwn.any fun p => p.1 = w then d else
  let d := (d.sendFrame (.sig s w)).pput { d.pair with sigsOwn := ((w, s, d.pair.sigOk) :: d.pair.sigsOwn).take 256 }
  d.sigCompare w

/-- The signatures have been equal for SIG_MATCH consecutive frames (R359), up to the last frame of which this device knows the
signature, or to the one before it while the partner's SIG of the last is still on its way. -/
def sigsEqual (d : Dev) : Bool :=
  let n := Nat.max 1 (d.rd R.VEER_CFG_SIG_MATCH)
  let own := match d.pair.sigsOwn with
    | p :: r => if d.pair.sigsHis.any fun q => q.1 = p.1 then p :: r else r
    | [] => []
  let last := own.take n
  decide (last.length = n) && (last.all fun p => d.pair.sigsHis.contains (p.1, p.2.1)) &&
    (last.zip (last.drop 1)).all fun q => decide (diff32 q.1.1 q.2.1 = d.lt)

end Dev

/-- SIG_FRAME_RECEIVE (R352). -/
def actSig (bytes : List Byte) (sig wln : Nat) (d : Dev) : Dev :=
  if !(d.liveOrWarm && d.rdb R.VEER_STATUS_MIRROR && (d.rxFrame [0x04] bytes).isSome) then d else
  if d.pair.sigsHis.any fun p => p.1 = wln then d else
  (d.pput { d.pair with sigsHis := ((wln, sig) :: d.pair.sigsHis).take 256 }).sigCompare wln

namespace Dev

/-! The veer (R358 to R362). -/

/-- The next frame boundary at least eight lines away. -/
def nextBoundary (d : Dev) : Nat :=
  let b := (d.frameOf d.wtm.wln + 1) * d.lt
  if d.wtm.wln + 8 ≤ b then b else b + d.lt

/-- Paired restarts of every pipeline are armed for a line (R153, R436). -/
def armRestart (d : Dev) (line : Nat) : Dev :=
  let d := (List.range 8).foldl (fun d n =>
    (d.wrPair (R.RAWP_HIST_AT_LO n) (R.RAWP_HIST_AT_HI n) line).wr (R.RAWP_HIST_ARM_ARM n) 1) d
  let d := (d.wrPair R.HVC_RESTART_AT_LO R.HVC_RESTART_AT_HI line).wr R.HVC_RESTART_ARM_ARM 1
  d.pput { d.pair with restart := some line }

/-- The device enters WARM in mirror mode, as the incoming device of a veer or for a segment. -/
def joinMirror (d : Dev) : Dev :=
  let d := if d.state = .cold then d.enterWarm else d
  ((d.wrb R.VEER_STATUS_MIRROR true).hvcMirror).pput { d.pair with mism := 0, sigsOwn := [], sigsHis := [] }

/-- Every lane of the image is up in forwarded mode (R359). -/
def allForwarded (d : Dev) : Bool :=
  (List.range 64).all fun k => !d.laneUsed k || (d.laneUp k && d.laneMode k = 2 && !d.laneChanging k)

/-- Preparation begins (R358): on the windward, and on a synchronised leeward that may enter WARM. An entry found late begins at once,
its restart at the next frame boundary that is far enough. Near the end of the epochs the windward refuses the entry (R368). -/
def startPrep (d : Dev) : Dev :=
  match d.pendingVeer with
  | none => d
  | some e =>
    let x := d.ahead48 e.target
    let span := d.veerFrames * d.lt
    if d.pair.prep.isSome || !d.rdb R.TOP_STATE_PAIRED || e.past || e.arg0 ≠ d.epoch + 1 || x ≤ 0 || (span : Int) < x then d else
    let r0 := (e.target + 2 ^ 48 - span + d.lt) % 2 ^ 48
    let r := if 8 ≤ d.ahead48 r0 then r0 else d.nextBoundary
    let prep (incoming : Bool) : Prep := ⟨e.target, r, incoming, 0, false, false, [], [], false⟩
    if d.epochsLow then
      (if d.state ≠ .live ∨ d.pair.barred = some e.target then d else (d.veerRefused 9).pput { (d.veerRefused 9).pair with barred := some e.target })
    else if d.state = .live then
      let d := d.armRestart r
      (d.pput { d.pair with prep := some (prep false), sigsOwn := [], sigsHis := [] }).startMirror
    else if (d.state = .cold || d.state = .warm) && d.rdb R.VEER_STATUS_SYNCED && (d.pair.partner.map Beat.windward).getD false then
      if !d.mayGoLive then
        (if d.pair.barred = some e.target then d else (d.liveRefused 1).pput { (d.liveRefused 1).pair with barred := some e.target })
      else
      let d := d.joinMirror.armRestart r
      let d := d.pput { d.pair with prep := some (prep true) }
      let up := (List.range 64).filter d.laneUp
      up.foldl probeLane (d.requestAll 2)
    else d

/-- The VEER entry of a preparation leaves the calendar. -/
def dropVeer (d : Dev) (v : Nat) : Dev :=
  { d with cal := { d.cal with entries := d.cal.entries.filter fun e => !(e.action = 3 && e.target = v) } }

/-- The windward ends a preparation (R359, R361, R362): the partner learns the epoch that the pair has, and mirror mode ends. -/
def endPrep (d : Dev) (v : Nat) : Dev :=
  let d := (d.dropVeer v).sendFrame (.request (.abort d.epoch))
  (d.pput { d.pair with prep := none }).endMirror

/-- A veer is aborted: counted, recorded in LAST_REFUSE and logged. -/
def abortVeer (d : Dev) (v code : Nat) : Dev := ((d.cnt R.VEER_VEER_ABORTS).veerRefused code).endPrep v

/-- HANDOVERs are taken back (R361): tiles that accepted one are claimed under an epoch, and so are those that were still to be claimed;
the VRs of the others are withdrawn. Nothing is sent beyond the last epoch (R368). -/
def takeBack (d : Dev) (sent accepted : List Nat) (epoch : Nat) : Dev :=
  let again (t : Nat) : Bool := accepted.contains t || !d.holdsTile t
  let d := (sent.filter fun t => !again t).foldl dropVr d
  (sent.filter again).foldl (fun d t => if epoch ≤ epochMax then d.askVr t 0 d.myEnd epoch 0 false else d) d

/-- At V − VEER_LEAD (R359, R360): the HANDOVERs go out, or the entry moves by a frame, or the veer is aborted. -/
def leadPrep (d : Dev) (p : Prep) : Dev :=
  if d.sigsEqual && p.lanes && d.rdb R.TOP_STATE_PAIRED then
    let ts := d.handable d.mapTiles
    let d := d.pput { d.pair with prep := some { p with ready := true, sent := ts } }
    ts.foldl (fun d t => d.askVr t 1 (1 - d.myEnd) (d.epoch + 1) ((p.v + d.ofs) % 2 ^ 32) false) d
  else if p.moves < d.rd R.VEER_CFG_SIG_WAIT then
    let v := (p.v + d.lt) % 2 ^ 48
    let d := { d with cal := { d.cal with
      entries := d.cal.entries.map fun (e : CalEntry) => if e.action = 3 && e.target = p.v then { e with target := v } else e } }
    d.pput { d.pair with prep := some { p with v := v, moves := p.moves + 1 } }
  else d.abortVeer p.v (if p.lanes then 6 else 7)

/-- At V − 8 (R361): the veer stands, or is aborted. -/
def standPrep (d : Dev) (p : Prep) : Dev :=
  if !p.ready then d
  else if d.rdb R.TOP_STATE_PAIRED && p.sent.all p.accepted.contains then
    (d.pput { d.pair with prep := some { p with stands := true } }).sendFrame (.request (.stands p.v))
  else
    let e := d.epoch + 2
    ((d.takeBack p.sent p.accepted e).setEpoch (Nat.min e epochMax)).abortVeer p.v 8

/-- The preparation at a line boundary. The incoming device follows the entry as the windward moves it, and tells at each frame
boundary whether its lanes are up. -/
def prepLine (d : Dev) : Dev :=
  match d.pair.prep with
  | none => d.startPrep
  | some p =>
    if p.incoming then
      let v := (d.pendingVeer.map CalEntry.target).getD p.v
      let d := d.pput { d.pair with prep := some { p with v := v } }
      if d.line = 0 then d.sendFrame (.request (.lanes d.allForwarded)) else d
    else
      let x := d.ahead48 p.v
      if x = d.veerLead then d.leadPrep p else if x = 8 then d.standPrep p else d

/-- The veer takes place at V (R361): the outgoing device. -/
def goOut (d : Dev) (e : CalEntry) : Dev :=
  let v := d.wtm.wln
  let d := (d.hbxOutgoing.enterWarm).setEpoch e.arg0
  let d := { d with link := { d.link with until_ := some ((v + d.ofs) % 2 ^ 32) } }
  let d := (d.wrb R.VEER_STATUS_MIRROR false).pput { d.pair with
    prep := none, outLine := some ((v + d.ofs + 4) % 2 ^ 48), based := true, decided := [], given := [], mirrorTo := none
    partner := d.pair.partner.map fun b => { b with windward := true } }
  ((d.cnt R.VEER_VEERS).log 0x07 0 0 0x016 e.arg0).fireReport e v 0

/-- The veer takes place at V (R361): the incoming device, where R70 lets it enter LIVE (R335). -/
def goIn (d : Dev) (e : CalEntry) : Dev :=
  if !d.mayGoLive then d.liveRefused 1 else
  let d := (d.hvcUnmirror.wrb R.VEER_STATUS_MIRROR false).setSplit false
  let d := d.pput { d.pair with
    prep := none, selecting := false, alone := false, refusing := false, refSince := none, liveAt := d.now, readyAt := d.now, decided := [], segs := []
    kept := [], baseDue := false, baseLeft := 0, partner := d.pair.partner.map fun b => { b with windward := false } }
  let d := ((d.setEpoch e.arg0).enterLive.hbxIncoming).claimAll
  ((d.cnt R.VEER_VEERS).log 0x07 0 0 0x016 e.arg0).fireReport e d.wtm.wln 0

/-- A VEER entry fires (R361, R362): it is carried out where the veer stands; else the device refuses it with its reason. -/
def fireVeer (d : Dev) (e : CalEntry) : Dev :=
  let stands := match d.pair.prep with
    | some p => p.stands && decide (p.v = e.target) && !e.past && decide (e.arg0 = d.epoch + 1)
    | none => false
  if stands then (if d.state = .live then d.goOut e else if d.state = .warm then d.goIn e else d)
  else
    let bad := e.arg0 ≠ d.epoch + 1
    let d := match d.pair.prep with
      | some p =>
        if d.state = DevState.live ∧ p.v = e.target then
          let n := d.epoch + 2
          let d := d.takeBack p.sent p.accepted n
          (if p.sent = [] then d else d.setEpoch (Nat.min n epochMax)).endPrep e.target
        else d
      | none => d
    (d.wr R.VEER_STATUS_LAST_REFUSE (if d.epochsLow then 9 else if bad then 0xB else 0xA)).fireRefused e d.wtm.wln (if bad then 4 else 3)

/-! Split feed (R363 to R365, R368). -/

/-- This device takes part of a chain to be its own from a break on: the positions beyond it at this end. -/
def segmentPart (d : Dev) (k p : Nat) : Nat × Nat := if d.link.tail then (p, (d.chain k).length - 1) else (0, p)

/-- The windward asks for a split on the lanes whose break has come (R363, R364), with the line of the paired restart that both devices
arm (R436). Near the end of the epochs it refuses (R368), and at the line of a veer that stands it asks nothing more (log entry 125). -/
def askSplit (d : Dev) (k : Nat) : Dev :=
  if !(d.state = .live && d.rdb R.TOP_STATE_PAIRED && d.pathUp && d.rdb R.VEER_CTRL_AUTO_SPLIT && d.rdb (R.MVL_LSTAT_BREAK_VALID k))
      || d.pair.prep.any Prep.stands || d.pair.given.any (fun s => s.1 = k) then d
  else if d.epochsLow then (if d.rd R.VEER_STATUS_LAST_REFUSE = 9 then d else d.veerRefused 9)
  else
    let p := d.rd (R.MVL_LSTAT_BREAK_POS k)
    let e := d.epoch + 1
    let d := (d.setEpoch e).pput { d.pair with given := d.pair.given ++ [(k, p)] }
    let line := d.nextBoundary
    ((d.sendFrame (.request (.split k p e line))).armRestart line).startMirror

/-- The lane of a segment is brought up or enumerated (R363): an octet that is idle, or on its way there, is asked for forwarded mode; in
another mode, or on its way to one, the lane alone is enumerated, as soon as it may send. -/
def bringSegment (d : Dev) (k : Nat) : Dev :=
  let o := d.octet (k / 8)
  if d.laneMode k = 0 || (o.step != 0 && o.dest = 0) then d.requestMode (k / 8) 2 else d.enumLane k

/-- The leeward takes a segment (R363). It enters WARM only where R70 lets it. -/
def takeSegment (d : Dev) (k p e line : Nat) : Dev :=
  if !(d.state = .cold || d.state = .warm) || d.pair.segs.any (fun s => s.1 = k) || !d.laneUsed k || !d.mayGoLive then d else
  let d := if d.mirrored then d else d.joinMirror
  let d := (d.setEpoch e).cnt R.VEER_SPLIT_SEGMENTS
  let d := d.pput { d.pair with segs := d.pair.segs ++ [(k, p)], heal := d.pair.heal.filter fun h => h.1 != k }
  let d := d.putLane k { d.lane k with part := some (d.segmentPart k p) }
  (d.armRestart line).bringSegment k

/-- When each segment's lane last began to show no stale tile (R365). -/
def healLine (d : Dev) : Dev :=
  if d.pair.segs = [] then d else
  let heal := d.pair.segs.filterMap fun s =>
    if (d.chain s.1).any d.tileStale then none
    else some (s.1, ((d.pair.heal.find? fun h => h.1 = s.1).map Prod.snd).getD d.now)
  d.pput { d.pair with heal := heal }

/-- A handback at a line boundary (R365): its check at V − 8, the pair's epoch at V, its end four lines after the tiles change end. -/
def backLine (d : Dev) : Dev :=
  match d.pair.back with
  | none => d
  | some b =>
    let x := d.ahead48 b.v
    if x = 8 then
      if d.rdb R.TOP_STATE_PAIRED && b.sent.all b.accepted.contains then d else
      let e := b.epoch + 1
      let d := (d.takeBack b.sent b.accepted e).setEpoch (Nat.min e epochMax)
      let d := d.pput { d.pair with back := none, heal := [] }
      ((d.cnt R.VEER_VEER_ABORTS).veerRefused 8).sendFrame (.request (.abort d.epoch))
    else if x = 0 then (d.setEpoch b.epoch).sendFrame (.request (.release b.lane b.epoch b.v))
    else if x = -((d.ofs : Int) + 4) then
      let d := (b.sent.foldl (fun d t => (d.setOwnBit t 0 false).setOwnBit t 1 false) d).pput { d.pair with
        back := none, segs := d.pair.segs.filter fun s => s.1 != b.lane, heal := d.pair.heal.filter fun h => h.1 != b.lane }
      let d := (d.putLane b.lane { d.lane b.lane with part := none }).setSplit (!d.pair.segs.isEmpty)
      if d.pair.segs = [] && d.pair.prep.isNone then d.enterCold else d
    else d

/-! Valid output (R355). -/

/-- Eight line periods have passed since an instant. -/
def eightLines (d : Dev) (t : Time) : Bool := decide (8 * d.framePeriod ≤ (d.now - t) * d.lt)

/-- At a frame boundary at least 8 lines after the last claim was accepted and the lanes came up, a LIVE device begins a frame of which
it sends every band to every tile it owns. Of a frame that begins earlier a tile whose claim has come within 8 lines of it gets
nothing (log entry 125). -/
def validLine (d : Dev) : Dev :=
  if d.line ≠ 0 || d.state ≠ .live then d else
  let d := d.pput { d.pair with newly := [], held := (d.wtm.wln, (d.pair.newly.filter fun p => !d.eightLines p.2).map Prod.fst) }
  if d.pair.valid || !d.allForwarded || !d.allHeld then d else d.pput { d.pair with valid := d.eightLines d.pair.readyAt }

/-- The partner's last segment has been handed back, and it leaves WARM at this line: mirror mode ends (R351, R365). -/
def mirrorLine (d : Dev) : Dev :=
  if d.pair.mirrorTo = some d.wtm.wln then (d.pput { d.pair with mirrorTo := none }).endMirror else d

/-! Homing (R366, R367). -/

/-- The conditions of homing health. -/
def homingHealth (d : Dev) : Bool :=
  (d.state = .cold || d.state = .warm) && d.rdb R.TOP_STATE_PAIRED && d.rdb R.VEER_STATUS_SYNCED && d.pathUp &&
    !d.rdb R.VEER_STATUS_PATH_A && !d.rdb R.VEER_STATUS_PATH_B && d.pair.missA = 0 && d.pair.missB = 0 &&
    decide (d.rd R.THM_STATUS_BAND ≤ 1) && !d.calib.anyBad

/-- Homing health at a line boundary: READY shows it, and a break starts its period anew. -/
def homeLine (d : Dev) : Dev :=
  let h := d.homingHealth
  let d := (d.wrb R.VEER_STATUS_READY h).pput { d.pair with homeAt := if h then some (d.pair.homeAt.getD d.now) else none }
  if d.calib.anyBad then { d with calib := { d.calib with anyBad := false } } else d

/-- A device owns the tiles whose OWN_LINE has come (R304, R360). -/
def ownLines (d : Dev) : Dev :=
  { d with tiles := d.tiles.map fun (t : TileLink) =>
      if bit t.own 1 && decide (0 ≤ diff32 d.wtm.wln t.ownLine) then { t with own := setBit (setBit t.own 0 true) 1 false } else t }

/-- HEVC stream offsets of a paired restart go out in mirror mode, with the RTP sequence numbers (R436, R479). -/
def sendOffsets (d : Dev) : Dev :=
  let os := d.hvc.offsets
  let d := { d with hvc := { d.hvc with offsets := [] } }
  os.foldl (fun d (o : Nat × Nat) =>
    d.mirrorWrite (.offset o.1 o.2 (((List.range 8).filter fun j => d.rtpSession j = o.1).map fun j => (j, d.rd (R.ETH_STREAM_NEXT_SEQ j))))) d

end Dev

/-- REQUEST_FRAME_RECEIVE (R350, R357 to R366; log entry 18). -/
def actRequest (bytes : List Byte) (q : PairReq) (d : Dev) : Dev :=
  if (d.rxFrame [0x05] bytes).isNone then d else
  match q with
  | .versions v f =>
    let mine := d.rd R.BOOT_VERS_CKPT_VER
    if mine + 1 < v ∨ v + 1 < mine then (d.pput { d.pair with version := none }).log 0x07 0 0 0x014 4
    else if f ≠ d.rdPair R.BOOT_FIXED_ID_LO R.BOOT_FIXED_ID_HI then (d.pput { d.pair with version := none }).log 0x07 0 0 0x014 5
    else d.pput { d.pair with version := some (Nat.min mine v) }
  | .veer => if d.state = .live then d.veerAsk.1 else d
  | .homing => if d.state = .live then d.veerAsk.1 else d
  | .split k p e line => if k < 64 then d.takeSegment k p e line else d
  | .release k e v =>
    if d.state ≠ .live then d else
    let d := (d.setEpoch e).pput { d.pair with
      given := d.pair.given.filter (fun s => s.1 != k), mirrorTo := some ((v + d.ofs + 4) % 2 ^ 48) }
    d.claimLane k
  | .lanes up => match d.pair.prep with
    | some p => if p.incoming then d else d.pput { d.pair with prep := some { p with lanes := up } }
    | none => d
  | .accepted ts l =>
    let takes := d.state = .live || (match d.pair.prep with
      | some p => p.incoming
      | none => false)
    if !takes then d else ts.foldl (fun d t => (d.putTile { d.tileLink t with ownLine := l % 2 ^ 32 }).setOwnBit t 1 true) d
  | .claimed ts =>
    if d.state ≠ .live then d else
    ts.foldl (fun d t => ((d.setOwnBit t 0 false).setOwnBit t 1 false).setOwnBit t 2 false) d
  | .stands v => match d.pair.prep with
    | some p => if p.incoming && p.v = v then d.pput { d.pair with prep := some { p with stands := true } } else d
    | none => d
  | .abort e =>
    let d := d.setEpoch e
    let d := { d with tiles := d.tiles.map fun (t : TileLink) => { t with own := setBit t.own 1 false } }
    match d.pair.prep with
    | some p =>
      if !p.incoming then d else
      let d := d.pput { d.pair with prep := none }
      let d := (d.dropVeer p.v).mapLanes fun l => { l with vrs := l.vrs.filter fun v => !v.probe }
      if d.state = .warm && d.pair.segs = [] then d.enterCold else d
    | none => d

/-- TELEM_FRAME_RECEIVE (R25): the windward takes the telemetry of a tile that its partner feeds. -/
def actTelem (bytes : List Byte) (t : TileLink) (d : Dev) : Dev :=
  if !(d.state = .live && (d.rxFrame [0x20] bytes).isSome) then d else
  let put (l : List Nat) : List Nat := if l.contains t.id then l else t.id :: l
  let d := d.takeTile t
  { d with clr := { d.clr with fresh := put d.clr.fresh, reported := put d.clr.reported } }

/-- SPLIT_HEAL (R365): the segment of a lane is handed back, HEAL_S after its lane last showed a stale tile. The handback is refused near
the end of the epochs (R368). -/
def actSplitHeal (k : Nat) (d : Dev) : Dev :=
  match d.pair.segs.find? fun s => s.1 = k, d.pair.heal.find? fun h => h.1 = k with
  | some s, some h =>
    if d.state ≠ .warm || !d.rdb R.TOP_STATE_PAIRED || d.pair.back.isSome then d
    else
      let d := d.upTo (h.2 + seconds (Nat.max 1 (d.rd R.VEER_HOME_HEAL_S)))
      if d.epochsLow then d.veerRefused 9
      else
        let v := (d.wtm.wln + d.veerLead) % 2 ^ 48
        let e := d.epoch + 1
        let ts := d.handable (d.segmentTiles k s.2)
        let d := d.pput { d.pair with back := some ⟨k, v, e, ts, []⟩ }
        ts.foldl (fun d t => d.askVr t 1 (1 - d.myEnd) e ((v + d.ofs) % 2 ^ 32) false) d
  | _, _ => d

/-- HOMING (R366): health has held for HOME_S, and a leeward that homes asks for a veer. -/
def actHoming (d : Dev) : Dev :=
  match d.pair.homeAt with
  | none => d
  | some t =>
    if !(d.homingHealth && d.rdb R.VEER_CTRL_HOME_EN && d.rdb R.TOP_STATE_ROLE_STRAP) then d else
    let d := d.upTo (t + seconds (Nat.max 10 (d.rd R.VEER_HOME_HOME_S)))
    (d.sendFrame (.request .homing)).pput { d.pair with homeAt := some d.now }

def execBeatReceive (pathB : Bool) (bytes : List Byte) (s : State) : Host.Outcome State Fault Refusal :=
  run s fun _ d => actBeat (wordRx pathB bytes) d
def execPairWaitExpiry (s : State) : Host.Outcome State Fault Refusal := run s fun _ d => actPairWait d
def execPathFault (pathB : Bool) (s : State) : Host.Outcome State Fault Refusal := run s fun _ d => actPathFault pathB d
def execPartnerFailed (s : State) : Host.Outcome State Fault Refusal := run s fun _ d => actPartnerFailed d
def execYieldWordReceive (pathB : Bool) (bytes : List Byte) (s : State) : Host.Outcome State Fault Refusal :=
  run s fun _ d => actYieldWord (wordRx pathB bytes) d
def execStateFrameReceive (bytes : List Byte) (crc : Word) (body : StateBody) (s : State) : Host.Outcome State Fault Refusal :=
  run s fun _ d => actStateFrame (withCrc bytes crc) body d
def execCutReceive (bytes : List Byte) (crc : Word) (cut : Ckpt) (s : State) : Host.Outcome State Fault Refusal :=
  run s fun _ d => actCut bytes crc.toNat cut d
def execCommitFrameReceive (bytes : List Byte) (crc line : Word) (groups : Byte) (s : State) : Host.Outcome State Fault Refusal :=
  run s fun _ d => actCommitFrame (withCrc bytes crc) line.toNat groups.toNat d
def execAckFrameReceive (ack : AckRx) (s : State) : Host.Outcome State Fault Refusal :=
  run s fun _ d => actAck ack.bytes ack.seq.toNat ack.gap d
def execAckFrameSend (s : State) : Host.Outcome State Fault Refusal := run s fun _ d => actAckSend d
def execSigFrameReceive (bytes : List Byte) (body : SigRx) (s : State) : Host.Outcome State Fault Refusal :=
  run s fun _ d => actSig bytes body.sig.toNat body.wln.toNat d
def execRequestFrameReceive (rx : RequestRx) (s : State) : Host.Outcome State Fault Refusal :=
  run s fun _ d => actRequest rx.bytes rx.req d
def execTelemFrameReceive (rx : TelemRx) (s : State) : Host.Outcome State Fault Refusal :=
  run s fun _ d => actTelem rx.bytes rx.tile d
def execCheckpointTimeout (s : State) : Host.Outcome State Fault Refusal := run s fun _ d => actCutTimeout d
def execSplitHeal (lane : Fin 64) (s : State) : Host.Outcome State Fault Refusal := run s fun _ d => actSplitHeal lane d
def execHoming (s : State) : Host.Outcome State Fault Refusal := run s fun _ d => actHoming d

end Sys2Proof.Machine
end

