-- ==== Sys2Proof/Machine/WallLine.lean ====
section
/-!
DEFINITION. The wall line boundary (R61): every action placed at a wall line, in order.
-/

namespace Sys2Proof.Machine
namespace Dev

/-- What a new wall frame brings before its actions of the calendar: latches, loops, the chain-break detector, split requests,
automatic recovery (R177, R217, R303, R317, R363). -/
def frameLine (d : Dev) : Dev :=
  if d.line ≠ 0 ∨ !d.inService then d else
  let d := (d.turnLatches.countSat).loopBoundary
  if !d.liveOrWarm then d else
  let d := (List.range 64).foldl (fun d k => (d.breakDetect k).askSplit k) d
  (List.range 8).foldl autoRecover d

/-- The commits of this boundary (R93, R351); `mask` holds the groups that COMMIT entries and operations name. -/
def lineCommits (m : List Host.Cell) (mask : Nat) (d : Dev) : Dev :=
  let was := d
  let r :=
    if d.state = .warm then d.warmCommits mask
    else if d.mirrorOn then d.mirrorCommits mask
    else d.commitOccasions mask
  let d := if bit r.2 2 then r.1.ratioCommit else r.1
  if r.2 = 0 then d else d.checkLayers.relatch m was

/-- The groups of the COMMIT entries among entries that fire (R86). -/
def commitMask (l : List CalEntry) : Nat := (l.filter fun e => e.action = 1).foldl (fun n e => Nat.lor n e.groups) 0

/-- CUE and MARK entries wait for the management core of the device that is windward now; another device's copies are gone (R87). -/
def queueFired (l : List CalEntry) (d : Dev) : Dev :=
  if d.state ≠ .live then d else
  let mine := l.filter fun e => e.action = 4 || e.action = 5
  let d := mine.foldl fireCount d
  { d with cal := { d.cal with runq := d.cal.runq ++ mine.map fun e => (⟨e, d.wtm.wln⟩ : FiredEntry) } }

/-- The calendar and the commits at a boundary (R84, R86, R87): COMMIT and CALM, then VEER, then CUE and MARK. A COLD device fires
nothing. -/
def fireLine (m : List Host.Cell) (stepped : Bool) (d : Dev) : Dev :=
  let l := if d.liveOrWarm then d.firing stepped else []
  let d := d.dropFired l
  let d := (l.filter fun e => decide (e.action ≤ 3)).foldl fireCount d
  let mask := Nat.lor (commitMask l) d.com.afterMsg
  let d := { d with com := { d.com with afterMsg := 0 } }
  let d := d.lineCommits m mask
  let d := if l.any fun e => e.action = 2 then (l.filter fun e => e.action = 2).foldl (fun d _ => d.calm 1) d else d
  let d := (l.filter fun e => e.action = 3).foldl fireVeer d
  queueFired l d

/-- Redundancy at a line boundary (chapter 12). `was` says whether the device was windward as the boundary began: the stream reverses
at the first frame boundary after a veer. -/
def pairLine (was : Bool) (d : Dev) : Dev :=
  let d := if d.pair.outLine = some d.wtm.wln then d.enterCold else d
  let d := d.roleTry.ownLines.countMisses.prepLine.backLine.healLine.homeLine.mirrorLine.validLine.sendOffsets
  let next := (d.wtm.wln + 8) % 2 ^ 48
  let d := if d.mirrorOn && !(d.pair.decided.any fun p => p.1 = next) then d.decide_ next else d
  if d.line ≠ 0 then d.sigFrame else
  let d := d.sendBeat.sendSig.sigFrame
  let cut := was && d.state = .live && d.rdb R.TOP_STATE_PAIRED && d.pathUp
  (if cut then d.sendCut else d).ageCut cut

/-- The picture at a line boundary: latches, raster locks, tile link, bands. -/
def wallLine (m : List Host.Cell) (d : Dev) : Dev :=
  if !d.inService then d else
  let d := (List.range 16).foldl (fun d i => lockLine m d i) d
  let d := if d.line + 8 = d.lt then (List.range 16).foldl (fun d i => latchLayer m d i) d else d
  (((d.easeLine).sendKps).hvcLine m).scanLine m

end Dev

/-- WALL_LINE_BOUNDARY (R61), while the line generator runs (R230). In YIELDED the lines count, the taps and presets go on stepping (R318,
R332), and beats of the partner are missed. -/
def actWallLine (m : List Host.Cell) (d : Dev) : Dev :=
  if !d.wtm.running then d else
  let was := d.state = .live
  let d := d.countLine.ptpDrift
  let r := if d.line = 0 then d.alignFrame else (d, false)
  let d := (if r.2 then r.1.markPast else r.1).sampleLine
  if d.state = .yielded then d.countMisses.easeLine else
  if !d.inService then d else
  let d := (d.landWrites).frameLine
  ((d.fireLine m r.2).pairLine was).wallLine m

def execWallLineBoundary (s : State) : Host.Outcome State Fault Refusal := run s fun m d => actWallLine m d

end Sys2Proof.Machine
end

