-- ==== Sys2Proof/Machine/Dispatch.lean ====
section
/-!
DEFINITION. The dispatch of the commands: one arm per constructor of Instr, each a direct call of its meaning.
-/

namespace Sys2Proof.Machine

def exec (i : Instr) (s : State) : Host.Outcome State Fault Refusal :=
  match i with
  | .porstNAssert => Sys2Proof.Machine.execPorstNAssert s
  | .porstNRelease role bank tmode => Sys2Proof.Machine.execPorstNRelease role bank tmode s
  | .supplyMonitorReset => Sys2Proof.Machine.execSupplyMonitorReset s
  | .pfailNFall => Sys2Proof.Machine.execPfailNFall s
  | .pfailNRise => Sys2Proof.Machine.execPfailNRise s
  | .pllLockTimeout => Sys2Proof.Machine.execPllLockTimeout s
  | .pllLock => Sys2Proof.Machine.execPllLock s
  | .dramTrainingDone failed => Sys2Proof.Machine.execDramTrainingDone failed s
  | .imageReadDone body => Sys2Proof.Machine.execImageReadDone body s
  | .wdogKick => Sys2Proof.Machine.execWdogKick s
  | .watchdogExpiry => Sys2Proof.Machine.execWatchdogExpiry s
  | .yieldTest => Sys2Proof.Machine.execYieldTest s
  | .yieldHoldExpiry => Sys2Proof.Machine.execYieldHoldExpiry s
  | .readBoot => Sys2Proof.Machine.execReadBoot s
  | .clockStopped family inst => Sys2Proof.Machine.execClockStopped family inst s
  | .clockRunning family inst => Sys2Proof.Machine.execClockRunning family inst s
  | .bridgeTimeout => Sys2Proof.Machine.execBridgeTimeout s
  | .registerWrite addr value size => Sys2Proof.Machine.execRegisterWrite addr value size s
  | .rcRead read => Sys2Proof.Machine.execRcRead read s
  | .wlnLoRead => Sys2Proof.Machine.execWlnLoRead s
  | .wrIndexLoRead p => Sys2Proof.Machine.execWrIndexLoRead p s
  | .arrivalLoRead => Sys2Proof.Machine.execArrivalLoRead s
  | .wallLineBoundary => Sys2Proof.Machine.execWallLineBoundary s
  | .referenceValid ref => Sys2Proof.Machine.execReferenceValid ref s
  | .referenceLost ref => Sys2Proof.Machine.execReferenceLost ref s
  | .frameRefEdge rising dt => Sys2Proof.Machine.execFrameRefEdge rising dt s
  | .frameRefMissing => Sys2Proof.Machine.execFrameRefMissing s
  | .sourceWrite value => Sys2Proof.Machine.execSourceWrite value s
  | .epochWrite hi value => Sys2Proof.Machine.execEpochWrite hi value s
  | .sampleGo => Sys2Proof.Machine.execSampleGo s
  | .timeAcceptSlew => Sys2Proof.Machine.execTimeAcceptSlew s
  | .timeAcceptStep => Sys2Proof.Machine.execTimeAcceptStep s
  | .calInsert => Sys2Proof.Machine.execCalInsert s
  | .calCancel => Sys2Proof.Machine.execCalCancel s
  | .storedCueRun => Sys2Proof.Machine.execStoredCueRun s
  | .markRun => Sys2Proof.Machine.execMarkRun s
  | .commitArmWrite value => Sys2Proof.Machine.execCommitArmWrite value s
  | .tblRead => Sys2Proof.Machine.execTblRead s
  | .tblWrite => Sys2Proof.Machine.execTblWrite s
  | .tblSelWrite value => Sys2Proof.Machine.execTblSelWrite value s
  | .tblLoadGo => Sys2Proof.Machine.execTblLoadGo s
  | .tblLoadDone bad => Sys2Proof.Machine.execTblLoadDone bad s
  | .pageMoveOnchip => Sys2Proof.Machine.execPageMoveOnchip s
  | .sramScrub region word ecc => Sys2Proof.Machine.execSramScrub region word ecc s
  | .camFrameStart n dt => Sys2Proof.Machine.execCamFrameStart n dt s
  | .camFrameEnd n dt => Sys2Proof.Machine.execCamFrameEnd n dt s
  | .camLine n dt transfers ovf => Sys2Proof.Machine.execCamLine n dt transfers ovf s
  | .camCheckWord n check => Sys2Proof.Machine.execCamCheckWord n check s
  | .camGlitch n => Sys2Proof.Machine.execCamGlitch n s
  | .missedSlot n => Sys2Proof.Machine.execMissedSlot n s
  | .frameTimeout n => Sys2Proof.Machine.execFrameTimeout n s
  | .substituteFrame n => Sys2Proof.Machine.execSubstituteFrame n s
  | .camCalGo n => Sys2Proof.Machine.execCamCalGo n s
  | .camCalStart n => Sys2Proof.Machine.execCamCalStart n s
  | .defDataAccess n write => Sys2Proof.Machine.execDefDataAccess n write s
  | .histArmWrite n => Sys2Proof.Machine.execHistArmWrite n s
  | .statsWriteDone n => Sys2Proof.Machine.execStatsWriteDone n s
  | .lutDataAccess write => Sys2Proof.Machine.execLutDataAccess write s
  | .ambientReading readings => Sys2Proof.Machine.execAmbientReading readings s
  | .windowRowEntry n dt => Sys2Proof.Machine.execWindowRowEntry n dt s
  | .frameStoreWrite j => Sys2Proof.Machine.execFrameStoreWrite j s
  | .coefDataAccess write => Sys2Proof.Machine.execCoefDataAccess write s
  | .battDue lane => Sys2Proof.Machine.execBattDue lane s
  | .scanoutPixel x y => Sys2Proof.Machine.execScanoutPixel x y s
  | .fifoWrite use => Sys2Proof.Machine.execFifoWrite use s
  | .packetTransmit use => Sys2Proof.Machine.execPacketTransmit use s
  | .alignmentMarker octet => Sys2Proof.Machine.execAlignmentMarker octet s
  | .akReceive lane blocks => Sys2Proof.Machine.execAkReceive lane blocks s
  | .nkReceive lane blocks => Sys2Proof.Machine.execNkReceive lane blocks s
  | .tlReceive lane blocks => Sys2Proof.Machine.execTlReceive lane blocks s
  | .returnPacketBad rx => Sys2Proof.Machine.execReturnPacketBad rx s
  | .blockLockAcquired rx => Sys2Proof.Machine.execBlockLockAcquired rx s
  | .blockLockLost lane blocks => Sys2Proof.Machine.execBlockLockLost lane blocks s
  | .ackTimeout lane => Sys2Proof.Machine.execAckTimeout lane s
  | .packetDeadline lane => Sys2Proof.Machine.execPacketDeadline lane s
  | .tileStale tile => Sys2Proof.Machine.execTileStale tile s
  | .vrRepeat lane => Sys2Proof.Machine.execVrRepeat lane s
  | .ctWrite tile => Sys2Proof.Machine.execCtWrite tile s
  | .ctRead tile => Sys2Proof.Machine.execCtRead tile s
  | .ctSetPosition tile => Sys2Proof.Machine.execCtSetPosition tile s
  | .enumWindowEnd lane => Sys2Proof.Machine.execEnumWindowEnd lane s
  | .modeReqWrite octet mode => Sys2Proof.Machine.execModeReqWrite octet mode s
  | .octetIdleDrained octet => Sys2Proof.Machine.execOctetIdleDrained octet s
  | .octetFckStart octet => Sys2Proof.Machine.execOctetFckStart octet s
  | .octetTrainingEnd octet => Sys2Proof.Machine.execOctetTrainingEnd octet s
  | .laneTestWrite lane value => Sys2Proof.Machine.execLaneTestWrite lane value s
  | .lctrlGo lane => Sys2Proof.Machine.execLctrlGo lane s
  | .calReqRx => Sys2Proof.Machine.execCalReqRx s
  | .calReqCam => Sys2Proof.Machine.execCalReqCam s
  | .calReqDram => Sys2Proof.Machine.execCalReqDram s
  | .rxCalStart lane => Sys2Proof.Machine.execRxCalStart lane s
  | .rxCalPhaseDone lane dt phase thr errs => Sys2Proof.Machine.execRxCalPhaseDone lane dt phase thr errs s
  | .dramCalWindow chan => Sys2Proof.Machine.execDramCalWindow chan s
  | .calRunDone kind n clean errs kept => Sys2Proof.Machine.execCalRunDone kind n clean errs kept s
  | .calRunTimeout kind n => Sys2Proof.Machine.execCalRunTimeout kind n s
  | .calRetry kind n => Sys2Proof.Machine.execCalRetry kind n s
  | .alignmentColumnSend => Sys2Proof.Machine.execAlignmentColumnSend s
  | .pairLaneAligned lane syms pace => Sys2Proof.Machine.execPairLaneAligned lane syms pace s
  | .pairAlignmentLost lane syms pace => Sys2Proof.Machine.execPairAlignmentLost lane syms pace s
  | .beatReceive pathB bytes => Sys2Proof.Machine.execBeatReceive pathB bytes s
  | .pairWaitExpiry => Sys2Proof.Machine.execPairWaitExpiry s
  | .pathFault pathB => Sys2Proof.Machine.execPathFault pathB s
  | .partnerFailed => Sys2Proof.Machine.execPartnerFailed s
  | .yieldPin => Sys2Proof.Machine.execYieldPin s
  | .yieldWordReceive pathB bytes => Sys2Proof.Machine.execYieldWordReceive pathB bytes s
  | .claimGiveup => Sys2Proof.Machine.execClaimGiveup s
  | .stateFrameReceive bytes crc body => Sys2Proof.Machine.execStateFrameReceive bytes crc body s
  | .cutReceive bytes crc cut => Sys2Proof.Machine.execCutReceive bytes crc cut s
  | .commitFrameReceive bytes crc line groups => Sys2Proof.Machine.execCommitFrameReceive bytes crc line groups s
  | .ackFrameReceive ack => Sys2Proof.Machine.execAckFrameReceive ack s
  | .ackFrameSend => Sys2Proof.Machine.execAckFrameSend s
  | .sigFrameReceive bytes body => Sys2Proof.Machine.execSigFrameReceive bytes body s
  | .requestFrameReceive rx => Sys2Proof.Machine.execRequestFrameReceive rx s
  | .telemFrameReceive rx => Sys2Proof.Machine.execTelemFrameReceive rx s
  | .checkpointTimeout => Sys2Proof.Machine.execCheckpointTimeout s
  | .veerReq => Sys2Proof.Machine.execVeerReq s
  | .firmwareVeerReq => Sys2Proof.Machine.execFirmwareVeerReq s
  | .splitHeal lane => Sys2Proof.Machine.execSplitHeal lane s
  | .homing => Sys2Proof.Machine.execHoming s
  | .hatboxMount drives => Sys2Proof.Machine.execHatboxMount drives s
  | .hbxWrite => Sys2Proof.Machine.execHbxWrite s
  | .writeStaged tag => Sys2Proof.Machine.execWriteStaged tag s
  | .hbxRead => Sys2Proof.Machine.execHbxRead s
  | .readComplete tag data result copied => Sys2Proof.Machine.execReadComplete tag data result copied s
  | .hbxFlush => Sys2Proof.Machine.execHbxFlush s
  | .openTake => Sys2Proof.Machine.execOpenTake s
  | .closeTake => Sys2Proof.Machine.execCloseTake s
  | .deleteTake => Sys2Proof.Machine.execDeleteTake s
  | .fwActivate => Sys2Proof.Machine.execFwActivate s
  | .nvmeWriteComplete ser result => Sys2Proof.Machine.execNvmeWriteComplete ser result s
  | .commitBatchStart drive => Sys2Proof.Machine.execCommitBatchStart drive s
  | .batchStepDone drive => Sys2Proof.Machine.execBatchStepDone drive s
  | .hbxAbort client cid => Sys2Proof.Machine.execHbxAbort client cid s
  | .hbxClientReset client => Sys2Proof.Machine.execHbxClientReset client s
  | .hbxCmdTimeout tag => Sys2Proof.Machine.execHbxCmdTimeout tag s
  | .ssdAdminTimeout drive => Sys2Proof.Machine.execSsdAdminTimeout drive s
  | .driveReady drive => Sys2Proof.Machine.execDriveReady drive s
  | .completionPost client => Sys2Proof.Machine.execCompletionPost client s
  | .compress ring engine => Sys2Proof.Machine.execCompress ring engine s
  | .decompress ring engine => Sys2Proof.Machine.execDecompress ring engine s
  | .descriptorComplete ring => Sys2Proof.Machine.execDescriptorComplete ring s
  | .fulRingReset ring => Sys2Proof.Machine.execFulRingReset ring s
  | .fulRingRelease ring => Sys2Proof.Machine.execFulRingRelease ring s
  | .lullEnd unit => Sys2Proof.Machine.execLullEnd unit s
  | .sessionOpen session => Sys2Proof.Machine.execSessionOpen session s
  | .sessionClose session => Sys2Proof.Machine.execSessionClose session s
  | .sessionFlush session => Sys2Proof.Machine.execSessionFlush session s
  | .ctuRowDone dec => Sys2Proof.Machine.execCtuRowDone dec s
  | .pictureComplete session => Sys2Proof.Machine.execPictureComplete session s
  | .pictureWatchdog session => Sys2Proof.Machine.execPictureWatchdog session s
  | .restartArmWrite value => Sys2Proof.Machine.execRestartArmWrite value s
  | .accessUnitTake session => Sys2Proof.Machine.execAccessUnitTake session s
  | .audioFrame dom edge bclks lines => Sys2Proof.Machine.execAudioFrame dom edge bclks lines s
  | .ethLinkChange port fecLock blockLock link => Sys2Proof.Machine.execEthLinkChange port fecLock blockLock link s
  | .ethServiceFrame port frame => Sys2Proof.Machine.execEthServiceFrame port frame s
  | .announceReceive port dt msg => Sys2Proof.Machine.execAnnounceReceive port dt msg s
  | .syncReceive port dt msg => Sys2Proof.Machine.execSyncReceive port dt msg s
  | .followUpReceive port msg => Sys2Proof.Machine.execFollowUpReceive port msg s
  | .delayReqSend dt => Sys2Proof.Machine.execDelayReqSend dt s
  | .delayRespReceive port dt msg => Sys2Proof.Machine.execDelayRespReceive port dt msg s
  | .announceTimeout port => Sys2Proof.Machine.execAnnounceTimeout port s
  | .tsqPop => Sys2Proof.Machine.execTsqPop s
  | .cueMessageReceive src bytes => Sys2Proof.Machine.execCueMessageReceive src bytes s
  | .regWrite => Sys2Proof.Machine.execRegWrite s
  | .regRead => Sys2Proof.Machine.execRegRead s
  | .tblWriteOp => Sys2Proof.Machine.execTblWriteOp s
  | .memWrite => Sys2Proof.Machine.execMemWrite s
  | .calInsertOp => Sys2Proof.Machine.execCalInsertOp s
  | .calCancelOp => Sys2Proof.Machine.execCalCancelOp s
  | .commitOp => Sys2Proof.Machine.execCommitOp s
  | .storeCue => Sys2Proof.Machine.execStoreCue s
  | .snapshot => Sys2Proof.Machine.execSnapshot s
  | .status => Sys2Proof.Machine.execStatus s
  | .subscribe => Sys2Proof.Machine.execSubscribe s
  | .writeMsg bytes => Sys2Proof.Machine.execWriteMsg bytes s
  | .readStatus => Sys2Proof.Machine.execReadStatus s
  | .readMsg => Sys2Proof.Machine.execReadMsg s
  | .rtpAuSend stream => Sys2Proof.Machine.execRtpAuSend stream s
  | .rtpLateDrop stream => Sys2Proof.Machine.execRtpLateDrop stream s
  | .dramWindow chan dt arrivals slots => Sys2Proof.Machine.execDramWindow chan dt arrivals slots s
  | .requestPromotion chan => Sys2Proof.Machine.execRequestPromotion chan s
  | .dramReadComplete addr ret => Sys2Proof.Machine.execDramReadComplete addr ret s
  | .dramRequestTimeout addr write => Sys2Proof.Machine.execDramRequestTimeout addr write s
  | .mr4Poll chan dt rate => Sys2Proof.Machine.execMr4Poll chan dt rate s
  | .dramScrub quadrant dt ecc => Sys2Proof.Machine.execDramScrub quadrant dt ecc s
  | .thmReading sites => Sys2Proof.Machine.execThmReading sites s
  | .logEntryArise source inst cls event detail episode => Sys2Proof.Machine.execLogEntryArise source inst cls event detail episode s
  | .logCommit => Sys2Proof.Machine.execLogCommit s
  | .logDramCopy => Sys2Proof.Machine.execLogDramCopy s
  | .errSelWrite value => Sys2Proof.Machine.execErrSelWrite value s
  | .calmNFall highNs => Sys2Proof.Machine.execCalmNFall highNs s
  | .snapTriggerWrite => Sys2Proof.Machine.execSnapTriggerWrite s
  | .calmOutPulseEnd => Sys2Proof.Machine.execCalmOutPulseEnd s
  | .snapshotDump => Sys2Proof.Machine.execSnapshotDump s
  | .bselWrite baddr value => Sys2Proof.Machine.execBselWrite baddr value s
  | .headerChecked sfdp header => Sys2Proof.Machine.execHeaderChecked sfdp header s
  | .driveActivationTimeout => Sys2Proof.Machine.execDriveActivationTimeout s
  | .format => Sys2Proof.Machine.execFormat s
  | .pcieLinkChange drive width => Sys2Proof.Machine.execPcieLinkChange drive width s
  | .supplyMonitorRelease role bank tmode => Sys2Proof.Machine.execSupplyMonitorRelease role bank tmode s
  | .testPortInstruction instr => Sys2Proof.Machine.execTestPortInstruction instr s

end Sys2Proof.Machine
end

