-- ==== Sys2Proof/Safety.lean ====
section
/-!
DEFINITION. What a safe run is, in the terms that claims use: the DRAM array keeps its canonical form. And the terms in
which claims speak of a command: the device as it finds it, the state it leaves where it writes no DRAM, and the situations that claims
name.
-/

namespace Sys2Proof.Machine

/-- A state is sound when its DRAM array has the canonical form (strictly rising addresses, no listed zero byte). -/
def State.Sound (s : State) : Prop := Memory.wf s.mem = true

/-- The device as a command finds it: no DRAM write has been made yet. -/
def State.start (s : State) : Dev := { s.dev with wq := [] }

/-- The state with another device: the queue and every byte of the DRAM array are as before. -/
def State.withDev (s : State) (d : Dev) : State := { s with dev := { d with wq := [] } }

/-- The fields of e read as in d, but for those whose keys (bit addresses) are listed. -/
def Dev.SameBut (keys : List Nat) (d e : Dev) : Prop := ∀ f : Fld, f.key ∉ keys → e.rd f = d.rd f

/-- The fields of every block but those whose windows (of 64 KiB, Table 2-1) are listed read in e as in d. -/
def Dev.SameOutside (windows : List Nat) (d e : Dev) : Prop := ∀ f : Fld, f.key / 524288 ∉ windows → e.rd f = d.rd f

/-- t differs from s in the device only, and of the register file only in the windows listed: the queue, every byte of the DRAM
array and the fields of every other block are as before. -/
def State.Only (windows : List Nat) (s t : State) : Prop :=
  t.mem = s.mem ∧ t.pending = s.pending ∧ s.dev.SameOutside windows t.dev

/-- The saturating counter f has gained k from d to e (R16). -/
def Dev.Counted (d e : Dev) (f : Fld) (k : Nat := 1) : Prop := e.rd f = Nat.min (d.rd f + k) (2 ^ f.width - 1)

/-- An access to an address goes through at once: the device is on, no access waits, and the address's clock runs (R56, R60). -/
def State.BusFree (s : State) (addr : Nat) : Prop :=
  s.dev.off = false ∧ s.dev.clk.wait = none ∧ s.dev.accessStopped addr = false

/-- The state that an access leaves whose effect on the device is d and whose answer is data, or an error response. -/
def State.answered (s : State) (d : Dev) (data : Nat) (err : Bool) : State := s.withDev (d.emit (.bus data err))

/-- A lane's enumeration does not wait for set positions: no release can bring the lane up (R300, R315). -/
def Dev.NotComingUp (d : Dev) (k : Nat) : Prop := ∀ e : Enum, (d.lane k).enum = some e → e.setPos = false

/-- The return receiver of a lane takes the packets that come: the lane is neither in test nor in an offset trim, it is in block lock, no packet is open, and the
errors of late do not cost the lock. -/
def Dev.Listens (d : Dev) (k : Nat) : Prop :=
  d.laneTested k = false ∧ (d.lane k).pause = none ∧ (d.lane k).lock = true ∧ (d.lane k).rx = none ∧ ones (2 * (d.lane k).errs % 2 ^ 64) < 16

/-- The blocks in which the tiles of a lane send a packet now (R270, R271). -/
def Dev.asBlocks (d : Dev) (k : Nat) (bs : List Byte) : List (BitVec 130) := (linkBlocks (d.lane k).dscr bs).1

/-- Two lanes differ in nothing but the registers of their receivers. -/
def Lane.AsBut (l m : Lane) : Prop := { l with dscr := 0, errs := 0, rx := none } = { m with dscr := 0, errs := 0, rx := none }

/-- While a tile's reply comes, no claim of this device's own makes it take a higher epoch (R353): the reply tells of this device's own
VR, or of an epoch below the device's. -/
def Dev.EpochStands (d : Dev) (r : Ret) : Prop :=
  d.state = .live → d.pair.claiming = true → d.ownReport r = true ∨ r.epoch < d.epoch

/-- A unit of calibration waits for a run, or is in one. -/
def Dev.CalDue (d : Dev) (u : CalUnit) : Prop := u ∈ d.calib.queue ∨ ∃ r ∈ d.calib.runs, r.unit = u

/-- RESULT of a unit of calibration. -/
def Dev.calResult (d : Dev) (u : CalUnit) : Nat := match u.kind with
  | 0 => d.rd (R.LNE_CAL_STATUS_RESULT (u.n / 8) (u.n % 8))
  | 1 => d.rd (R.CAM_CAL_STATUS_RESULT u.n)
  | _ => d.rd (R.DRM_CALR_RESULT (u.n / 8) (u.n % 8))

/-- The device enters LIVE under a new epoch, one above every epoch that it knows (R353, R569), and R70 lets it. -/
def Dev.MayBecomeWindward (d : Dev) : Prop := d.mayGoLive = true ∧ d.nextEpoch ≤ Dev.epochMax

/-- A paired device in service whose pairing link is up receives a frame of one of some TYPEs (R346). -/
def State.Hears (s : State) (types : List Nat) (bytes : List Byte) (f : PairFrame) : Prop :=
  s.dev.inService = true ∧ s.dev.pathUp = true ∧ s.dev.rdb R.TOP_STATE_PAIRED = true ∧ openFrame bytes = some f ∧ f.type ∈ types

/-- A frame with a payload as it leaves this device now, its SEQ being 0 (R346, Table 12-4). -/
def State.sends (s : State) (body : PairBody) : Out := .pairFrame (s.dev.pairFrame 0 body) body (frameLanes (s.dev.pairFrame 0 body))

/-- TYPE of a state frame (Table 12-5). -/
def stateType : StateBody → Nat
  | .base _ => 0x10
  | .delta => 0x11
  | .mirror _ => 0x13

/-- No internal recorder has a WRITE that waits for room in its ring (R378). -/
def Dev.RecordersIdle (d : Dev) : Prop := ∀ r ∈ d.hbx.recorders, r.wait = []

/-- The engines run: the device is on, and has not yielded (R342). -/
def State.EnginesRun (s : State) : Prop := s.dev.off = false ∧ s.dev.state ≠ .yielded

/-- The next entry to be consumed is at the head of client c's submission ring, and no other command, staged write, waiting
completion, entry ended in place or waiting WRITE of an internal recorder stands beside it. -/
def State.HbxNext (s : State) (c : Fin 16) : Prop :=
  s.EnginesRun ∧ s.dev.consumes = true ∧ s.dev.nextClient = some c.val ∧ s.dev.hbx.cmds = [] ∧ s.dev.hbx.staged = [] ∧
    s.dev.hbx.compl = [] ∧ s.dev.hbx.skip = [] ∧ s.dev.RecordersIdle

/-- The bytes of that entry (Table 13-3). -/
def State.hbxEntry (s : State) (c : Fin 16) : List Byte := Dev.sqEntry s.mem s.dev c (s.dev.rd (R.HBX_CL_SQ_HEAD c))

/-- The command that consumes an entry with an opcode; an opcode that Table 13-3 does not name is HBX_WRITE's. -/
def hbxInstr (op : Nat) : Instr := match op with
  | 2 => .hbxRead
  | 3 => .hbxFlush
  | 4 => .openTake
  | 5 => .closeTake
  | 6 => .deleteTake
  | 7 => .fwActivate
  | _ => .hbxWrite

/-- Engine e takes the next descriptor of ring r, at place i, with no stream open, no completion waiting, no uncorrectable
or late unit in DRAM, and no internal recorder of a ring. -/
def State.FulNext (s : State) (r : Fin 8) (e : Fin 4) (i : Nat) (rest : List Nat) : Prop :=
  s.EnginesRun ∧ s.Sound ∧ s.dev.poison = [] ∧ s.dev.late = [] ∧ s.dev.cmb R.FUL_CTRL_EN = true ∧
    (s.dev.fring r).releasing = false ∧ (s.dev.fring r).stream = none ∧ (s.dev.fring r).compl = [] ∧
    s.dev.engineBusy e r = false ∧ s.dev.lulling (.fuller e) = false ∧ s.dev.fulPlaces r = i :: rest ∧
    ∀ q ∈ s.dev.hbx.recorders, q.kind ≠ 0

/-- The job in hand has an operation with a code and arguments at its head and more after it; the device is in service and no access
waits. -/
def State.CueAt (s : State) (j : CueJob) (code : Nat) (a : List Byte) (more : List (Nat × List Byte)) : Prop :=
  s.dev.off = false ∧ s.dev.inService = true ∧ s.dev.clk.wait = none ∧ s.dev.cue.job = some j ∧ j.ops = (code, a) :: more ∧ more ≠ []

/-- The job after the operation at its head. -/
def CueJob.after (j : CueJob) : CueJob := { j with ops := j.ops.tail, index := j.index + 1 }

end Sys2Proof.Machine
end

