-- ==== Sys2Proof/Certificates/Slice0/Obligations.lean ====
section
/-!
DEFINITION. What is claimed of the ZV4096, for the provers: the queue and the whole machine, and then the commands family by
family, each with the state it completes in and with what it leaves unchanged.
-/

open Sys2Proof Sys2Proof.Machine

/-- Commands act first in, first out: a step takes the front command and runs it on the state whose queue is the rest. -/
def Obligations.StepRunsFrontCommand : Prop :=
  ∀ (c : Instr) (rest : List Instr) (s : State), s.pending = c :: rest → step s = exec c { s with pending := rest }

/-- The state after reset has the canonical form, waits for nothing and is in BOOT (R10, Table 1-4). On an empty queue the block idles
(the model's choice, log entry 9). -/
def Obligations.ResetIsSoundAndInBoot : Prop :=
  (State.reset.Sound ∧ State.reset.pending = [] ∧ State.reset.dev.state = .boot ∧
   ∀ f : Fld, State.reset.dev.rd f = f.reset ∧ State.reset.dev.lv f = f.reset ∧ State.reset.dev.cm f = f.reset) ∧
  (∀ s : State, s.pending = [] → step s = .next s)

/-- Every command completes in the state that its effect leaves: the queue as it was, and the DRAM array with what the command writes.
In OFF the reset commands alone have one (Table 1-4), in YIELDED the storage and compression engines have none (R342); a frame start of
a bound port needs a geometry in R104's ranges. What each effect does is what the other statements say. -/
def Obligations.EveryCommandAnswersItsEffect : Prop :=
  ∀ s : State,
    exec .porstNAssert s = .next (settle s (actPorst s.start)) ∧
    (∀ (role bank tmode : Bool), exec (.porstNRelease role bank tmode) s = .next (settle s (actPorstRelease role bank tmode s.start))) ∧
    exec .supplyMonitorReset s = .next (settle s (actSupplyReset s.start)) ∧
    (∀ (role bank tmode : Bool), exec (.supplyMonitorRelease role bank tmode) s = .next (settle s (actSupplyRelease role bank tmode
      s.start))) ∧
    (s.dev.state = .yielded →
      (∀ (drives : List DriveInfo), exec (.hatboxMount drives) s = .next s) ∧
      exec .hbxWrite s = .next s ∧
      (∀ (tag : Fin 1024), exec (.writeStaged tag) s = .next s) ∧
      exec .hbxRead s = .next s ∧
      (∀ (tag : Fin 1024) (data : List Byte) (result : NvmeEnd) (copied : Nat), exec (.readComplete tag data result copied) s = .next s) ∧
      exec .hbxFlush s = .next s ∧
      exec .openTake s = .next s ∧
      exec .closeTake s = .next s ∧
      exec .deleteTake s = .next s ∧
      exec .fwActivate s = .next s ∧
      (∀ (ser : Nat) (result : NvmeEnd), exec (.nvmeWriteComplete ser result) s = .next s) ∧
      (∀ (drive : Fin 4), exec (.commitBatchStart drive) s = .next s) ∧
      (∀ (drive : Fin 4), exec (.batchStepDone drive) s = .next s) ∧
      (∀ (tag : Fin 1024), exec (.hbxCmdTimeout tag) s = .next s) ∧
      (∀ (drive : Fin 4), exec (.ssdAdminTimeout drive) s = .next s) ∧
      (∀ (drive : Fin 4), exec (.driveReady drive) s = .next s) ∧
      (∀ (client : Fin 16), exec (.completionPost client) s = .next s) ∧
      (∀ (ring : Fin 8) (engine : Fin 4), exec (.compress ring engine) s = .next s) ∧
      (∀ (ring : Fin 8) (engine : Fin 4), exec (.decompress ring engine) s = .next s) ∧
      (∀ (ring : Fin 8), exec (.descriptorComplete ring) s = .next s) ∧
      (∀ (ring : Fin 8), exec (.fulRingRelease ring) s = .next s) ∧
      exec .driveActivationTimeout s = .next s ∧
      exec .format s = .next s) ∧
    (s.dev.off = false →
      exec .pfailNFall s = .next (settle s (actPfailFall s.start)) ∧
      exec .pfailNRise s = .next (settle s (actPfailRise s.start)) ∧
      exec .pllLockTimeout s = .next (settle s (actPllTimeout s.start)) ∧
      exec .pllLock s = .next (settle s (actPllLock s.start)) ∧
      (∀ (failed : BitVec 32), exec (.dramTrainingDone failed) s = .next (settle s (actTraining failed.toNat s.start))) ∧
      (∀ (body : List Byte), exec (.imageReadDone body) s = .next (settle s (actImage body s.start))) ∧
      exec .wdogKick s = .next (settle s (s.start.writeTo 0x6001C 1 actKick)) ∧
      exec .watchdogExpiry s = .next (settle s (actWatchdog s.start)) ∧
      exec .yieldTest s = .next (settle s (s.start.writeTo 0x70000 (s.start.same 0x70000 + 1) actYieldTest)) ∧
      exec .yieldHoldExpiry s = .next (settle s (actYieldHold s.start)) ∧
      exec .readBoot s = .next (settle s (actReadBoot s.start)) ∧
      (∀ (family : Fin 18) (inst : Fin 64), exec (.clockStopped family inst) s = .next (settle s (actClockStopped s.mem family inst
        s.start))) ∧
      (∀ (family : Fin 18) (inst : Fin 64), exec (.clockRunning family inst) s = .next (settle s (actClockRunning s.mem family inst
        s.start))) ∧
      exec .bridgeTimeout s = .next (settle s (actBridgeTimeout s.start)) ∧
      (∀ (addr value : Word) (size : AccessSize), exec (.registerWrite addr value size) s = .next (settle s ((fun (m : List Host.Cell) (d
        : Dev) => d.access addr.toNat (some value.toNat) (fun d =>
              let r := d.busWrite m addr.toNat value.toNat
              (r.1, 0, r.2)) size) s.mem s.start))) ∧
      (∀ (addr : Word) (size : AccessSize), exec (.rcRead ⟨addr, size⟩) s = .next (settle s (s.start.access addr.toNat none (Dev.busRead
        addr.toNat) size))) ∧
      exec .wlnLoRead s = .next (settle s (s.start.access 0x20010 none (Dev.busRead 0x20010))) ∧
      (∀ (port : Fin 4), exec (.wrIndexLoRead port) s = .next (settle s (s.start.access (0x430118 + 0x40 * port.val) none (Dev.busRead
        (0x430118 + 0x40 * port.val))))) ∧
      exec .arrivalLoRead s = .next (settle s (s.start.access 0x45010C none (Dev.busRead 0x45010C))) ∧
      exec .wallLineBoundary s = .next (settle s (actWallLine s.mem s.start)) ∧
      (∀ (ref : RefKind), exec (.referenceValid ref) s = .next (settle s (actRefValid ref s.start))) ∧
      (∀ (ref : RefKind), exec (.referenceLost ref) s = .next (settle s (actRefLost ref s.start))) ∧
      (∀ (rising : Bool) (dt : Nat), exec (.frameRefEdge rising dt) s = .next (settle s (actFrefEdge rising dt s.start))) ∧
      exec .frameRefMissing s = .next (settle s (actFrefMissing s.start)) ∧
      (∀ (value : Word), exec (.sourceWrite value) s = .next (settle s (s.start.writeTo 0x20000 value.toNat (Dev.writeSource
        value.toNat)))) ∧
      (∀ (hi : Bool) (value : Word), exec (.epochWrite hi value) s = .next (settle s (s.start.writeTo (if hi then 0x20044 else 0x20040)
        value.toNat (Dev.writeEpoch hi value.toNat)))) ∧
      exec .sampleGo s = .next (settle s (s.start.writeTo 0x20018 1 actSampleGo)) ∧
      exec .timeAcceptSlew s = .next (settle s (s.start.cueOp 0x09 (actTimeAccept false))) ∧
      exec .timeAcceptStep s = .next (settle s (s.start.cueOp 0x09 (actTimeAccept true))) ∧
      exec .calInsert s = .next (settle s (s.start.writeTo 0x20214 1 actCalInsert)) ∧
      exec .calCancel s = .next (settle s (s.start.writeTo 0x20214 2 actCalCancel)) ∧
      exec .storedCueRun s = .next (settle s (actStoredCue s.start)) ∧
      exec .markRun s = .next (settle s (actMark s.start)) ∧
      (∀ (value : Word), exec (.commitArmWrite value) s = .next (settle s (s.start.writeTo 0x20080 value.toNat (Dev.writeArm
        value.toNat)))) ∧
      exec .tblRead s = .next (settle s (s.start.writeTo 0x1000008 2 actTblRead)) ∧
      exec .tblWrite s = .next (settle s (s.start.writeTo 0x1000008 1 actTblWrite)) ∧
      (∀ (value : Word), exec (.tblSelWrite value) s = .next (settle s (s.start.writeTo 0x1000000 value.toNat (Dev.writeSel
        value.toNat)))) ∧
      exec .tblLoadGo s = .next (settle s (s.start.writeTo 0x100002C 1 actTblLoadGo)) ∧
      (∀ (bad : Option Nat), exec (.tblLoadDone bad) s = .next (settle s (actTblLoadDone bad s.mem s.start))) ∧
      exec .pageMoveOnchip s = .next (settle s (actPageMove s.start)) ∧
      (∀ (region : Fin 15) (word : Nat) (ecc : Ecc), exec (.sramScrub region word ecc) s = .next (settle s (actSramScrub region word ecc
        s.start))) ∧
      (∀ (n : Fin 8) (dt : CamTick), s.dev.nextSizeOk n = true → exec (.camFrameStart n dt) s = .next (settle s (actCamStart n dt s.start))) ∧
      (∀ (n : Fin 8) (dt : Nat), exec (.camFrameEnd n dt) s = .next (settle s (actCamEnd n dt s.mem s.start))) ∧
      (∀ (n : Fin 8) (dt : CamTick) (transfers : List Word) (ovf : Option Nat), exec (.camLine n dt transfers ovf) s = .next (settle s
        (actCamLine n dt transfers ovf s.mem s.start))) ∧
      (∀ (n : Fin 8) (hs : Bool) (word : Word), exec (.camCheckWord n ⟨hs, word⟩) s = .next (settle s (actCheckWord n hs word s.start))) ∧
      (∀ (n : Fin 8), exec (.camGlitch n) s = .next (settle s (actGlitch n s.start))) ∧
      (∀ (n : Fin 8), exec (.missedSlot n) s = .next (settle s (actMissedSlot n s.mem s.start))) ∧
      (∀ (n : Fin 8), exec (.frameTimeout n) s = .next (settle s (actFrameTimeout n s.start))) ∧
      (∀ (n : Fin 8), exec (.substituteFrame n) s = .next (settle s (actSubstitute n s.mem s.start))) ∧
      (∀ (n : Fin 8), exec (.camCalGo n) s = .next (settle s (s.start.writeTo (0x100200 + 0x10000 * n.val) (s.start.same (0x100200 +
        0x10000 * n.val) + 1) (actCamCalGo n)))) ∧
      (∀ (n : Fin 8), exec (.camCalStart n) s = .next (settle s (actCamCalStart n s.start))) ∧
      (∀ (n : Fin 8) (write : Option Word), exec (.defDataAccess n write) s = .next (settle s ((fun (_ : List Host.Cell) (d : Dev) =>
        match write with
              | some v => d.access (0x180040 + 0x10000 * n.val) (some v.toNat) fun d => ((d.writeDef n v.toNat).1, 0, (d.writeDef n
                v.toNat).2)
              | none => d.access (0x180040 + 0x10000 * n.val) none (Dev.busRead (0x180040 + 0x10000 * n.val))) s.mem s.start))) ∧
      (∀ (n : Fin 8), exec (.histArmWrite n) s = .next (settle s (s.start.writeTo (0x180088 + 0x10000 * n.val) 1 (actHistArm n)))) ∧
      (∀ (n : Fin 8), exec (.statsWriteDone n) s = .next (settle s (actStatsDone n s.start))) ∧
      (∀ (write : Option Word), exec (.lutDataAccess write) s = .next (settle s ((fun (_ : List Host.Cell) (d : Dev) => match write with
              | some v => d.access 0x202004 (some v.toNat) fun d => ((d.writeLut v.toNat).1, 0, (d.writeLut v.toNat).2)
              | none => d.access 0x202004 none (Dev.busRead 0x202004)) s.mem s.start))) ∧
      (∀ (readings : List (Option Nat)), exec (.ambientReading readings) s = .next (settle s (actAmbient readings s.start))) ∧
      (∀ (n : Fin 8) (dt : Nat), exec (.windowRowEntry n dt) s = .next (settle s (actWindowRow n dt s.mem s.start))) ∧
      (∀ (j : Fin 32), exec (.frameStoreWrite j) s = .next (settle s (actFsWrite j s.mem s.start))) ∧
      (∀ (write : Option Word), exec (.coefDataAccess write) s = .next (settle s ((fun (_ : List Host.Cell) (d : Dev) => match write with
              | some v => d.access 0x210024 (some v.toNat) fun d => ((d.writeCoef v.toNat).1, 0, (d.writeCoef v.toNat).2)
              | none => d.access 0x210024 none (Dev.busRead 0x210024)) s.mem s.start))) ∧
      (∀ (lane : Fin 64), exec (.battDue lane) s = .next (settle s (actBattDue lane s.start))) ∧
      (∀ (x y : Nat), exec (.scanoutPixel x y) s = .next (settle s (actPixel x y s.start))) ∧
      (∀ (lane : Fin 64) (ecc : List Ecc), exec (.fifoWrite ⟨lane, ecc⟩) s = .next (settle s (actFifoWrite lane ecc s.start))) ∧
      (∀ (lane : Fin 64) (ecc : List Ecc), exec (.packetTransmit ⟨lane, ecc⟩) s = .next (settle s ((actTransmit lane ecc s.start).upAfter
        lane))) ∧
      (∀ (octet : Fin 8), exec (.alignmentMarker octet) s = .next (settle s (actMarker octet s.start))) ∧
      (∀ (lane : Fin 64) (blocks : List (BitVec 130)), exec (.akReceive lane blocks) s = .next (settle s (actBlocks lane blocks
        s.start))) ∧
      (∀ (lane : Fin 64) (blocks : List (BitVec 130)), exec (.nkReceive lane blocks) s = .next (settle s (actBlocks lane blocks
        s.start))) ∧
      (∀ (lane : Fin 64) (blocks : List (BitVec 130)), exec (.tlReceive lane blocks) s = .next (settle s (actBlocks lane blocks
        s.start))) ∧
      (∀ (lane : Fin 64) (blocks : List (BitVec 130)), exec (.returnPacketBad ⟨lane, blocks⟩) s = .next (settle s (actBlocks lane blocks
        s.start))) ∧
      (∀ (lane : Fin 64) (blocks : List (BitVec 130)), exec (.blockLockAcquired ⟨lane, blocks⟩) s = .next (settle s (actBlocks lane blocks
        s.start))) ∧
      (∀ (lane : Fin 64) (blocks : List (BitVec 130)), exec (.blockLockLost lane blocks) s = .next (settle s (actBlocks lane blocks
        s.start))) ∧
      (∀ (lane : Fin 64), exec (.ackTimeout lane) s = .next (settle s ((actAckTimeout lane s.start).upAfter lane))) ∧
      (∀ (lane : Fin 64), exec (.packetDeadline lane) s = .next (settle s ((actDeadline lane s.start).upAfter lane))) ∧
      (∀ (tile : BitVec 12), exec (.tileStale tile) s = .next (settle s (s.start.tileGoesStale tile.toNat))) ∧
      (∀ (lane : Fin 64), exec (.vrRepeat lane) s = .next (settle s (s.start.sendVrs lane))) ∧
      (∀ (tile : BitVec 12), exec (.ctWrite tile) s = .next (settle s (s.start.writeTo 0x240040 (0x81000000 + tile.toNat) (Dev.writeCt
        (0x81000000 + tile.toNat))))) ∧
      (∀ (tile : BitVec 12), exec (.ctRead tile) s = .next (settle s (s.start.writeTo 0x240040 (0x82000000 + tile.toNat) (Dev.writeCt
        (0x82000000 + tile.toNat))))) ∧
      (∀ (tile : BitVec 12), exec (.ctSetPosition tile) s = .next (settle s (s.start.writeTo 0x240040 (0x83000000 + tile.toNat)
        (Dev.writeCt (0x83000000 + tile.toNat))))) ∧
      (∀ (lane : Fin 64), exec (.enumWindowEnd lane) s = .next (settle s ((s.start.enumEnd lane).upAfter lane))) ∧
      (∀ (octet : Fin 8) (mode : BitVec 2), exec (.modeReqWrite octet mode) s = .next (settle s (s.start.writeTo (0x300000 + 0x10000 *
        octet.val) (s.start.same (0x300000 + 0x10000 * octet.val) / 4 * 4 + mode.toNat) (actModeReq octet mode.toNat)))) ∧
      (∀ (octet : Fin 8), exec (.octetIdleDrained octet) s = .next (settle s (actDrained octet s.start))) ∧
      (∀ (octet : Fin 8), exec (.octetFckStart octet) s = .next (settle s (actFck octet s.start))) ∧
      (∀ (octet : Fin 8), exec (.octetTrainingEnd octet) s = .next (settle s (actTrained octet s.start))) ∧
      (∀ (lane : Option (Fin 64)) (value : Word), exec (.laneTestWrite lane value) s = .next (settle s ((fun (_ : List Host.Cell) (d :
        Dev) =>
              let addr := match lane with
                | some k => 0x300100 + 0x10000 * (k.val / 8) + 0x40 * (k.val % 8)
                | none => 0x380000
              d.access addr (some value.toNat) fun d =>
                let r := actLaneTest (lane.map Fin.val) value.toNat d
                (r.1, 0, r.2)) s.mem s.start))) ∧
      (∀ (lane : Fin 64), exec (.lctrlGo lane) s = .next (settle s ((fun (_ : List Host.Cell) (d : Dev) =>
              let addr := 0x300100 + 0x10000 * (lane.val / 8) + 0x40 * (lane.val % 8)
              d.writeTo addr (d.same addr + 1) (actLctrlGo lane)) s.mem s.start))) ∧
      exec .calReqRx s = .next (settle s (s.start.writeTo 0x1080C 1 Dev.queueRx)) ∧
      exec .calReqCam s = .next (settle s (s.start.writeTo 0x1080C 2 Dev.queueCams)) ∧
      exec .calReqDram s = .next (settle s (s.start.writeTo 0x1080C 4 Dev.queueDram)) ∧
      (∀ (lane : Fin 64), exec (.rxCalStart lane) s = .next (settle s (actRxStart lane s.start))) ∧
      (∀ (lane : Fin 64) (dt : Nat) (phase thr : BitVec 64) (errs : Word), exec (.rxCalPhaseDone lane dt phase thr errs) s = .next
        (settle s (actRxPhase lane dt phase.toNat thr.toNat errs.toNat s.start))) ∧
      (∀ (chan : Fin 32), exec (.dramCalWindow chan) s = .next (settle s (actDramWindow chan s.start))) ∧
      (∀ (kind : CalKind) (n : Fin 64) (clean : List (BitVec 64)) (errs : Word) (kept : Bool), exec (.calRunDone kind n clean errs kept)
        s = .next (settle s (actRunDone kind n (clean.map BitVec.toNat) errs.toNat kept s.start))) ∧
      (∀ (kind : CalKind) (n : Fin 64), exec (.calRunTimeout kind n) s = .next (settle s (actRunTimeout kind n s.start))) ∧
      (∀ (kind : CalKind) (n : Fin 64), exec (.calRetry kind n) s = .next (settle s (actRetry kind n s.start))) ∧
      exec .alignmentColumnSend s = .next (settle s (if Dev.testOn (s.start.rd R.PAIR_CTRL_TEST) then s.start else s.start.emit (.column
        alignColumn))) ∧
      (∀ (lane : Fin 4) (syms : List PairSym) (skew : Nat) (ahead : Int), exec (.pairLaneAligned lane syms ⟨skew, ahead⟩) s = .next (settle
        s (actPairSymbols lane syms skew ahead s.start))) ∧
      (∀ (lane : Fin 4) (syms : List PairSym) (skew : Nat) (ahead : Int), exec (.pairAlignmentLost lane syms ⟨skew, ahead⟩) s = .next
        (settle s (actPairSymbols lane syms skew ahead s.start))) ∧
      (∀ (pathB : Bool) (bytes : List Byte), exec (.beatReceive pathB bytes) s = .next (settle s (actBeat (wordRx pathB bytes) s.start))) ∧
      exec .pairWaitExpiry s = .next (settle s (actPairWait s.start)) ∧
      (∀ (pathB : Bool), exec (.pathFault pathB) s = .next (settle s (actPathFault pathB s.start))) ∧
      exec .partnerFailed s = .next (settle s (actPartnerFailed s.start)) ∧
      exec .yieldPin s = .next (settle s (actYieldPin s.start)) ∧
      (∀ (pathB : Bool) (bytes : List Byte), exec (.yieldWordReceive pathB bytes) s = .next (settle s (actYieldWord (wordRx pathB bytes)
        s.start))) ∧
      exec .claimGiveup s = .next (settle s (actGiveup s.start)) ∧
      (∀ (bytes : List Byte) (crc : Word) (body : StateBody), exec (.stateFrameReceive bytes crc body) s = .next (settle s (actStateFrame
        (withCrc bytes crc) body
        s.start))) ∧
      (∀ (bytes : List Byte) (crc : Word) (cut : Ckpt), exec (.cutReceive bytes crc cut) s = .next (settle s (actCut bytes crc.toNat cut
        s.start))) ∧
      (∀ (bytes : List Byte) (crc line : Word) (groups : Byte), exec (.commitFrameReceive bytes crc line groups) s = .next (settle s
        (actCommitFrame (withCrc bytes crc) line.toNat groups.toNat s.start))) ∧
      (∀ (bytes : List Byte) (seq : Word) (gap : Bool), exec (.ackFrameReceive ⟨bytes, seq, gap⟩) s = .next (settle s (actAck bytes seq.toNat
        gap s.start))) ∧
      exec .ackFrameSend s = .next (settle s (actAckSend s.start)) ∧
      (∀ (bytes : List Byte) (sig wln : Word), exec (.sigFrameReceive bytes ⟨sig, wln⟩) s = .next (settle s (actSig bytes sig.toNat
        wln.toNat s.start))) ∧
      (∀ (bytes : List Byte) (req : PairReq), exec (.requestFrameReceive ⟨bytes, req⟩) s = .next (settle s (actRequest bytes req s.start))) ∧
      (∀ (bytes : List Byte) (tile : TileLink), exec (.telemFrameReceive ⟨bytes, tile⟩) s = .next (settle s (actTelem bytes tile s.start))) ∧
      exec .checkpointTimeout s = .next (settle s (actCutTimeout s.start)) ∧
      exec .veerReq s = .next (settle s (s.start.cueOp 0x0A actVeerReq)) ∧
      exec .firmwareVeerReq s = .next (settle s ((fun (d : Dev) => d.writeTo 0x70030 1 fun d => d.veerRequest.1) s.start)) ∧
      (∀ (lane : Fin 64), exec (.splitHeal lane) s = .next (settle s (actSplitHeal lane s.start))) ∧
      exec .homing s = .next (settle s (actHoming s.start)) ∧
      (∀ (drives : List DriveInfo), s.dev.state ≠ .yielded → exec (.hatboxMount drives) s = .next (settle s (actMount drives s.start))) ∧
      (s.dev.state ≠ .yielded → exec .hbxWrite s = .next (settle s (actHbxWrite s.mem s.start))) ∧
      (∀ (tag : Fin 1024), s.dev.state ≠ .yielded → exec (.writeStaged tag) s = .next (settle s (actWriteStaged tag s.mem s.start))) ∧
      (s.dev.state ≠ .yielded → exec .hbxRead s = .next (settle s (actHbxRead s.mem s.start))) ∧
      (∀ (tag : Fin 1024) (data : List Byte) (result : NvmeEnd) (copied : Nat), s.dev.state ≠ .yielded → exec (.readComplete tag data result copied) s = .next
        (settle s (actReadComplete tag data result copied s.start))) ∧
      (s.dev.state ≠ .yielded → exec .hbxFlush s = .next (settle s (actHbxFlush s.mem s.start))) ∧
      (s.dev.state ≠ .yielded → exec .openTake s = .next (settle s (actOpenTake s.mem s.start))) ∧
      (s.dev.state ≠ .yielded → exec .closeTake s = .next (settle s (actCloseTake s.mem s.start))) ∧
      (s.dev.state ≠ .yielded → exec .deleteTake s = .next (settle s (actDeleteTake s.mem s.start))) ∧
      (s.dev.state ≠ .yielded → exec .fwActivate s = .next (settle s (actFwActivate s.mem s.start))) ∧
      (∀ (ser : Nat) (result : NvmeEnd), s.dev.state ≠ .yielded → exec (.nvmeWriteComplete ser result) s = .next (settle s (actNvmeDone ser result s.start))) ∧
      (∀ (drive : Fin 4), s.dev.state ≠ .yielded → exec (.commitBatchStart drive) s = .next (settle s (actBatchStart drive s.start))) ∧
      (∀ (drive : Fin 4), s.dev.state ≠ .yielded → exec (.batchStepDone drive) s = .next (settle s (actBatchStep drive s.start))) ∧
      (∀ (client : Fin 16) (cid : BitVec 16), exec (.hbxAbort client cid) s = .next (settle s (s.start.writeTo (0x40011C + 0x40 *
        client.val) cid.toNat (actHbxAbort client cid.toNat s.mem)))) ∧
      (∀ (client : Fin 16), exec (.hbxClientReset client) s = .next (settle s (s.start.writeTo (0x400124 + 0x40 * client.val) 1
        (actHbxReset client s.mem)))) ∧
      (∀ (tag : Fin 1024), s.dev.state ≠ .yielded → exec (.hbxCmdTimeout tag) s = .next (settle s (actHbxTimeout tag s.start))) ∧
      (∀ (drive : Fin 4), s.dev.state ≠ .yielded → exec (.ssdAdminTimeout drive) s = .next (settle s (actAdminTimeout drive s.start))) ∧
      (∀ (drive : Fin 4), s.dev.state ≠ .yielded → exec (.driveReady drive) s = .next (settle s (actDriveReady drive s.start))) ∧
      (∀ (client : Fin 16), s.dev.state ≠ .yielded → exec (.completionPost client) s = .next (settle s (actCompletionPost client s.start))) ∧
      (∀ (ring : Fin 8) (engine : Fin 4), s.dev.state ≠ .yielded → exec (.compress ring engine) s = .next (settle s (actCompress ring engine s.mem s.start))) ∧
      (∀ (ring : Fin 8) (engine : Fin 4), s.dev.state ≠ .yielded → exec (.decompress ring engine) s = .next (settle s (actDecompress ring engine s.mem s.start))) ∧
      (∀ (ring : Fin 8), s.dev.state ≠ .yielded → exec (.descriptorComplete ring) s = .next (settle s (actDescComplete ring s.start))) ∧
      (∀ (ring : Fin 8), exec (.fulRingReset ring) s = .next (settle s (s.start.access (0x41011C + 0x40 * ring.val) (some 1) fun d =>
        if d.ringReleasing (0x41011C + 0x40 * ring.val) then (d.accessLog (0x41011C + 0x40 * ring.val) true, 0, true)
        else (actFulReset ring s.mem d, 0, false)))) ∧
      (∀ (ring : Fin 8), s.dev.state ≠ .yielded → exec (.fulRingRelease ring) s = .next (settle s (actFulRelease ring s.start))) ∧
      (∀ (unit : LullUnit), exec (.lullEnd unit) s = .next (settle s (actLullEnd unit s.start))) ∧
      (∀ (session : Fin 32), exec (.sessionOpen session) s = .next (settle s (s.start.writeTo (0x421004 + 0x80 * session.val) 1
        (actSessionOpen session)))) ∧
      (∀ (session : Fin 32), exec (.sessionClose session) s = .next (settle s (s.start.writeTo (0x421004 + 0x80 * session.val) 2
        (actSessionClose session)))) ∧
      (∀ (session : Fin 32), exec (.sessionFlush session) s = .next (settle s (s.start.writeTo (0x421004 + 0x80 * session.val) 4
        (actSessionFlush session s.mem)))) ∧
      (∀ (dec : Bool), exec (.ctuRowDone dec) s = .next (settle s (actCtuRow dec s.mem s.start))) ∧
      (∀ (session : Fin 32), exec (.pictureComplete session) s = .next (settle s (actPictureDone session s.start))) ∧
      (∀ (session : Fin 32), exec (.pictureWatchdog session) s = .next (settle s (actPictureWatchdog session s.mem s.start))) ∧
      (∀ (value : Word), exec (.restartArmWrite value) s = .next (settle s (s.start.writeTo 0x420010 value.toNat (actRestartArm
        value.toNat)))) ∧
      (∀ (session : Fin 32), exec (.accessUnitTake session) s = .next (settle s (actAuTake session s.mem s.start))) ∧
      (∀ (dom : Fin 2) (dt : Nat) (falling : Bool) (bclks : Nat) (lines : List (List Bool)), exec (.audioFrame dom ⟨dt, falling⟩ bclks
        lines) s = .next (settle s (actAudioFrame dom.val dt falling bclks lines s.mem s.start))) ∧
      (∀ (port : Fin 2) (fecLock blockLock link : Bool), exec (.ethLinkChange port fecLock blockLock link) s = .next (settle s
        (actEthLink port fecLock blockLock link s.start))) ∧
      (∀ (port : Fin 2) (frame : List Byte), exec (.ethServiceFrame port frame) s = .next (settle s (actEthService port frame s.start))) ∧
      (∀ (port : Fin 2) (dt : Nat) (msg : Announce), exec (.announceReceive port dt msg) s = .next (settle s (actAnnounce port dt msg
        s.start))) ∧
      (∀ (port : Fin 2) (dt : Nat) (msg : PtpMsg), exec (.syncReceive port dt msg) s = .next (settle s (actSync port dt msg s.start))) ∧
      (∀ (port : Fin 2) (msg : PtpMsg), exec (.followUpReceive port msg) s = .next (settle s (actFollowUp port msg s.start))) ∧
      (∀ (dt : Nat), exec (.delayReqSend dt) s = .next (settle s (actDelayReq dt s.start))) ∧
      (∀ (port : Fin 2) (dt : Nat) (msg : PtpMsg), exec (.delayRespReceive port dt msg) s = .next (settle s (actDelayResp port dt msg
        s.start))) ∧
      (∀ (port : Fin 2), exec (.announceTimeout port) s = .next (settle s (actAnnounceTimeout port s.start))) ∧
      exec .tsqPop s = .next (settle s (s.start.writeTo 0x440044 1 actTsqPop)) ∧
      (∀ (src : CueFrom) (bytes : List Byte), exec (.cueMessageReceive src bytes) s = .next (settle s (actCueMessage src bytes s.start)))
        ∧
      exec .regWrite s = .next (settle s (s.start.cueOp 0x01 (actRegWrite s.mem))) ∧
      exec .regRead s = .next (settle s (s.start.cueOp 0x02 actRegRead)) ∧
      exec .tblWriteOp s = .next (settle s (s.start.cueOp 0x03 actTblWriteOp)) ∧
      exec .memWrite s = .next (settle s (s.start.cueOp 0x04 actMemWrite)) ∧
      exec .calInsertOp s = .next (settle s (s.start.cueOp 0x05 actCalInsertOp)) ∧
      exec .calCancelOp s = .next (settle s (s.start.cueOp 0x06 actCalCancelOp)) ∧
      exec .commitOp s = .next (settle s (s.start.cueOp 0x07 actCommitOp)) ∧
      exec .storeCue s = .next (settle s (s.start.cueOp 0x08 actStoreCue)) ∧
      exec .snapshot s = .next (settle s (s.start.cueOp 0x0B actSnapshot)) ∧
      exec .status s = .next (settle s (s.start.cueOp 0x0C actStatus)) ∧
      exec .subscribe s = .next (settle s (s.start.cueOp 0x0D actSubscribe)) ∧
      (∀ (bytes : List Byte), exec (.writeMsg bytes) s = .next (settle s (actCueMessage .spi bytes s.start))) ∧
      exec .readStatus s = .next (settle s (actReadStatus s.start)) ∧
      exec .readMsg s = .next (settle s (actReadMsg s.start)) ∧
      (∀ (stream : Fin 8), exec (.rtpAuSend stream) s = .next (settle s (actRtpSend stream s.mem s.start))) ∧
      (∀ (stream : Fin 8), exec (.rtpLateDrop stream) s = .next (settle s (actRtpLate stream s.mem s.start))) ∧
      (∀ (chan : Fin 32) (dt : Nat) (arrivals : List DramArrival) (slots : Fin 257), exec (.dramWindow chan dt arrivals slots) s = .next
        (settle s (actDramWindowOf chan dt arrivals slots s.start))) ∧
      (∀ (chan : Fin 32), exec (.requestPromotion chan) s = .next (settle s (actPromotion chan s.start))) ∧
      (∀ (addr : Nat) (from_ : Requester) (ecc : Ecc), exec (.dramReadComplete addr ⟨from_, ecc⟩) s = .next (settle s (actDramRead addr
        from_ ecc s.start))) ∧
      (∀ (addr : Nat) (write : Bool), exec (.dramRequestTimeout addr write) s = .next (settle s (actDramTimeout addr write s.start))) ∧
      (∀ (chan : Fin 32) (dt : Nat) (rate : Fin 3), exec (.mr4Poll chan dt rate) s = .next (settle s (actMr4 chan dt rate s.start))) ∧
      (∀ (quadrant : Fin 4) (dt : Nat) (ecc : Ecc), exec (.dramScrub quadrant dt ecc) s = .next (settle s (actDramScrub quadrant dt ecc
        s.start))) ∧
      (∀ (sites : List (Bool × Int)), exec (.thmReading sites) s = .next (settle s (actThmReading sites s.start))) ∧
      (∀ (source inst : Byte) (cls : Fin 8) (event : BitVec 13) (detail : Word) (episode : Fin 4), exec (.logEntryArise source inst cls
        event detail episode) s = .next (settle s (s.start.log source.toNat inst.toNat cls event.toNat detail.toNat episode))) ∧
      exec .logCommit s = .next (settle s (actLogCommit s.start)) ∧
      exec .logDramCopy s = .next (settle s (actLogCopy s.start)) ∧
      (∀ (value : Word), exec (.errSelWrite value) s = .next (settle s ((fun (d : Dev) => d.writeTo 0x40020 value.toNat fun d =>
        actErrSel d value.toNat) s.start))) ∧
      (∀ (highNs : Nat), exec (.calmNFall highNs) s = .next (settle s (actCalmFall highNs s.start))) ∧
      exec .snapTriggerWrite s = .next (settle s ((fun (d : Dev) => d.writeTo 0x50000 (d.same 0x50000 + 256) fun d => d.calm 2) s.start))
        ∧
      exec .calmOutPulseEnd s = .next (settle s (actCalmOutEnd s.start)) ∧
      exec .snapshotDump s = .next (settle s (actDump s.start)) ∧
      (∀ (baddr : Bool) (value : Word), exec (.bselWrite baddr value) s = .next (settle s (s.start.writeTo (if baddr then 0x50044 else
        0x50040) value.toNat (actBsel baddr value.toNat)))) ∧
      (∀ (sfdp : Option Bool) (header : List Byte), exec (.headerChecked sfdp header) s = .next (settle s (actHeader sfdp header
        s.start))) ∧
      (s.dev.state ≠ .yielded → exec .driveActivationTimeout s = .next (settle s (actActivationTimeout s.start))) ∧
      (s.dev.state ≠ .yielded → exec .format s = .next (settle s (actFormat s.start))) ∧
      (∀ (drive : Fin 4) (width : Fin 5), exec (.pcieLinkChange drive width) s = .next (settle s (actPcieLink drive width s.start))) ∧
      (∀ (instr : TestInstr), exec (.testPortInstruction instr) s = .next (settle s ((fun (m : List Host.Cell) (d : Dev) =>
              let d := actTestPort instr d
              match instr with
              | .regacc a w =>
                if !d.boot.tmode then d else
                (match w with
                 | some v => d.access a (some v) fun d =>
                    let r := d.busWrite m a v
                    (r.1, 0, r.2)
                 | none => d.access a none (Dev.busRead a))
              | _ => d) s.mem s.start))))

/-- No command is refused. Each answers a next state with the queue left alone, but for a camera frame whose WIDTH or HEIGHT lies
outside R104's ranges on a bound port, which faults. In OFF only the releases and assertions of reset act (Table 1-4). -/
def Obligations.EveryCommandCompletesOrBadGeometry : Prop :=
  (∀ (c : Instr) (s : State),
     (∃ t, exec c s = .next t ∧ t.pending = s.pending) ∨
     (exec c s = .fault .geometryUndefined ∧ s.dev.off = false ∧
       ∃ (n : Fin 8) (dt : CamTick), c = .camFrameStart n dt ∧ s.dev.nextSizeOk n = false)) ∧
  (∀ (c : Instr) (s : State), s.dev.off = true →
     c ≠ .porstNAssert → c ≠ .supplyMonitorReset →
     (∀ r b t, c ≠ .porstNRelease r b t) → (∀ r b t, c ≠ .supplyMonitorRelease r b t) →
     exec c s = .next s)

/-- The DRAM array keeps its canonical form at every step, from every state that has it. -/
def Obligations.StepKeepsMemoryCanonical : Prop :=
  ∀ s t : State, s.Sound → step s = .next t → t.Sound

/-- PORST_N held low, or a supply monitor, resets the device to OFF: every register and table at its reset value and both log rings
cleared (R528, R551, R553). Outside the ring in DRAM every byte stays. The release of the reset that holds the device in OFF
samples the straps and enters BOOT (R553, R554). Nothing else changes. -/
def Obligations.ResetEntersOffAndReleaseBoots : Prop :=
  (∀ (s : State) (c : Instr), s.Sound → (c = .porstNAssert ∨ c = .supplyMonitorReset) →
     ∃ t, exec c s = .next t ∧ t.pending = s.pending ∧ t.dev.off = true ∧
       t.dev.regs = [] ∧ t.dev.comm = [] ∧ t.dev.live = [] ∧ t.dev.tbl = TblPart.reset ∧ t.dev.elog.ring = [] ∧
       t.dev.rd R.ERR_WR_SEQ = 0 ∧
       (c = .porstNAssert → t.dev.pins.porstN = false) ∧ (c = .supplyMonitorReset → t.dev.boot.supplyIn = false) ∧
       ∀ a, Memory.read t.mem a =
         if s.dev.rdb R.ERR_CTRL_DRAM_EN ∧ s.dev.rdPair R.ERR_DRAM_BASE_LO R.ERR_DRAM_BASE_HI ≤ a ∧
           a < s.dev.rdPair R.ERR_DRAM_BASE_LO R.ERR_DRAM_BASE_HI + 1048576 then 0 else Memory.read s.mem a) ∧
  (∀ (s : State) (role bank tmode : Bool) (c : Instr), s.dev.off = true → s.dev.rd R.TOP_STATE = 1 →
     (c = .porstNRelease role bank tmode ∧ s.dev.pins.porstN = false ∧ s.dev.boot.supplyIn = true ∨
      c = .supplyMonitorRelease role bank tmode ∧ s.dev.pins.porstN = true ∧ s.dev.boot.supplyIn = false) →
     ∃ t, exec c s = .next t ∧ t.dev.state = .boot ∧
       t.dev.rdb R.TOP_STATE_ROLE_STRAP = role ∧ t.dev.rdb R.TOP_STATE_BANK_STRAP = bank ∧
       t.dev.boot.tmode = tmode ∧ t.dev.boot.bank = b2n bank ∧ t.dev.pins.porstN = true ∧ t.dev.boot.supplyIn = true ∧
       t.dev.SameBut [R.TOP_STATE_ROLE_STRAP.key, R.TOP_STATE_BANK_STRAP.key] s.dev ∧
       t = { s with dev := { s.dev with regs := t.dev.regs, off := false, pins := t.dev.pins, boot := t.dev.boot, wq := [] } })

/-- Boot step 1: the PLLs lock and the fused CORE_VID code is driven (R550); a PLL that has not locked 10 ms after step 1 leaves the
device in SAFE with PLL_FAIL set (R517). Boot training ends (R495, R517): with every channel trained TRAINED shows them, each has
its 32 delay taps (their values are free, log entry 112), and boot goes on; a channel that fails leaves the device in SAFE with
DRAM_FAIL set. -/
def Obligations.PllsLockAndDramTrains : Prop :=
  (∀ s : State, s.dev.state = .boot → s.dev.rdb R.THM_STATUS_TRIP = false → s.dev.boot.pll = false →
     exec .pllLock s = .next (s.withDev { s.start with
       boot := { s.dev.boot with pll := true }, pins := { s.dev.pins with coreVid := some Config.coreVid.val } }) ∧
     ∃ t, exec .pllLockTimeout s = .next t ∧ t.dev.state = .safe ∧ t.dev.rd R.BOOT_STATUS_PLL_FAIL = 1 ∧
       s.dev.boot.released + millis 10 ≤ t.dev.now ∧ t.dev.wtm.running = false ∧
       t.dev.pins.yieldN = true ∧ t.dev.pins.spitIrqN = false ∧ t.mem = s.mem ∧ t.pending = s.pending ∧
       t.dev.SameOutside [0, 4, 6, 0x30, 0x31, 0x32, 0x33, 0x34, 0x35, 0x36, 0x37] s.dev) ∧
  (∀ (s : State) (failed : BitVec 32), s.dev.bootStep = true → s.dev.boot.header.isSome = true → s.dev.boot.trained = false →
     (failed = 0 → ∃ t, exec (.dramTrainingDone failed) s = .next t ∧ s.Only [0x50, 0x51, 0x52, 0x53] t ∧
       t.dev.boot = { s.dev.boot with trained := true } ∧ (∀ q, q < 4 → t.dev.rd (R.DRM_STATUS_TRAINED q) = 0xFF) ∧
       t.dev.calib.dram.length = 32 ∧ ∀ x ∈ t.dev.calib.dram, x.1.length = 32 ∧ x.2 = x.1) ∧
     (failed ≠ 0 → ∃ t, exec (.dramTrainingDone failed) s = .next t ∧ t.dev.state = .safe ∧
       t.dev.rd R.BOOT_STATUS_DRAM_FAIL = 1 ∧ t.mem = s.mem ∧ t.pending = s.pending))

/-- The header of the bank that is tried has been checked: the first failing check of checks 1 to 4 rejects the bank with its code in
REASON (R513, R514); a header that passes gives the controllers its DRAM_CFG (R516). Checks 5 to 8 of the image that has been read
(R513): a check that fails rejects the bank with its code; an image that passes is applied as it was read and staged (R515), and
its firmware starts. -/
def Obligations.ImagesAreRejectedOrApplied : Prop :=
  (∀ (s : State) (sfdp : Option Bool) (h : List Byte), s.dev.bootStep = true → s.dev.boot.pll = true → s.dev.boot.header = none →
     ∃ t, exec (.headerChecked sfdp h) s = .next t ∧ t.mem = s.mem ∧ t.pending = s.pending ∧
       match headerChecks sfdp h with
       | some (code, _) =>
         t.dev.rd (Dev.bankReason s.dev.boot.bank) = code ∧
         (s.dev.boot.second = true → t.dev.state = .safe) ∧
         (s.dev.boot.second = false → t.dev.state = .boot ∧ t.dev.boot.second = true ∧ t.dev.boot.bank = 1 - s.dev.boot.bank)
       | none =>
         t.dev.boot.header = some h ∧ t.dev.boot.stage = h ∧ t.dev.boot.octal = sfdp.getD false ∧ t.dev.boot.sections = headerSections h ∧ t.dev.state = .boot ∧
         (∀ q, q < 4 → t.dev.rd (R.DRM_CFG_RATE q) = bits (leAt h 28 4) 9 8 ∧
           t.dev.rd (R.DRM_CFG_PKG q) = bits (leAt h 28 4) 5 4 ∧ t.dev.rd (R.DRM_CFG_ORDER q) = bits (leAt h 28 4) 1 0) ∧
         t.dev.SameOutside [0x50, 0x51, 0x52, 0x53] s.dev) ∧
  (∀ (s : State) (h body : List Byte), s.dev.bootStep = true → s.dev.boot.header = some h → s.dev.boot.trained = true →
     s.dev.boot.applied = false →
     ∃ t, exec (.imageReadDone body) s = .next t ∧ t.pending = s.pending ∧
       match bodyChecks h body s.dev.boot.sections with
       | some (code, sect) =>
         t.mem = s.mem ∧ t.dev.rd (Dev.bankReason s.dev.boot.bank) = code ∧
         (code = 5 ∨ code = 6 → t.dev.rd R.BOOT_STATUS_SECT_FAIL = sect % 256) ∧
         (s.dev.boot.second = true → t.dev.state = .safe) ∧
         (s.dev.boot.second = false → t.dev.boot.second = true ∧ t.dev.boot.bank = 1 - s.dev.boot.bank)
       | none => t.dev.boot.applied = true ∧
         t = settle s (({ s.start with boot := { s.dev.boot with stage := h ++ body } }).applyImage body))

/-- A device in COLD, WARM or LIVE that is commanded to yield, or whose firmware watchdog expires, is YIELDED, with the reason in
LAST_YIELD and YIELD_OUT_N low (R341, R342, R520). A kick restarts the watchdog's time (R520); in BOOT, with the image applied, it
is check 9 passed: the bank is accepted and the device enters COLD with the line generator running (R516). The watchdog expires in
BOOT: check 9 fails and the bank is rejected with code 10 (R513, R520). -/
def Obligations.WatchdogAcceptsYieldsOrRejects : Prop :=
  (∀ (s : State) (c : Instr) (reason : Nat), s.dev.inService = true →
     (c = .yieldTest ∧ reason = 0xF ∧ s.BusFree 0x70000 ∨
       c = .watchdogExpiry ∧ reason = 4) →
     ∃ t, exec c s = .next t ∧ t.dev.state = .yielded ∧ t.dev.rd R.VEER_STATUS_LAST_YIELD = reason ∧
       t.dev.pins.yieldN = false ∧ t.mem = s.mem ∧ t.pending = s.pending ∧
       s.dev.SameOutside [0, 4, 5, 7, 0x20, 0x22, 0x42, 0x30, 0x31, 0x32, 0x33, 0x34, 0x35, 0x36, 0x37] t.dev) ∧
  (∀ s : State, s.BusFree 0x6001C →
     (s.dev.inService = true →
       exec .wdogKick s = .next (s.answered { s.start with boot := { s.start.boot with wdogAt := s.start.now } } 0 false)) ∧
     (s.dev.bootStep = true → s.dev.boot.applied = true → s.dev.boot.bank < 2 →
       ∃ t, exec .wdogKick s = .next t ∧ t.dev.state = .cold ∧ t.dev.wtm.running = true ∧ t.dev.pair.selecting = true ∧
         t.dev.rd (Dev.bankReason s.dev.boot.bank) = 1 ∧ t.dev.rd R.BOOT_STATUS_BANK = s.dev.boot.bank + 1 ∧
         t.dev.rdb R.BOOT_STATUS_FALLBACK = s.dev.boot.second ∧ t.mem = s.mem ∧ t.pending = s.pending)) ∧
  (∀ s : State, s.dev.bootStep = true → s.dev.boot.applied = true →
     ∃ t, exec .watchdogExpiry s = .next t ∧ t.dev.rd (Dev.bankReason s.dev.boot.bank) = 10 ∧
       (s.dev.boot.second = true → t.dev.state = .safe) ∧
       (s.dev.boot.second = false → t.dev.state = .boot ∧ t.dev.boot.second = true ∧ t.dev.boot.bank = 1 - s.dev.boot.bank) ∧
       t.mem = s.mem ∧ t.pending = s.pending)

/-- After YIELD_HOLD a device that did not yield for a thermal trip restarts from BOOT, keeping its log and the reason of its yield
(R344, R528). READ_BOOT in SAFE answers 32 bytes on the SPI port, BOOT.STATUS and TOP.STATE first, and changes nothing else but
the count of free values (R519; the codes of entries that do not exist are free values, log entry 3). -/
def Obligations.YieldHoldRestartsAndSafeAnswers : Prop :=
  (∀ s : State, s.dev.state = .yielded → s.dev.rdb R.THM_STATUS_TRIP = false →
     ∃ t, exec .yieldHoldExpiry s = .next t ∧ t.dev.state = .boot ∧
       t.dev.rd R.VEER_STATUS_LAST_YIELD = s.dev.rd R.VEER_STATUS_LAST_YIELD % 16 ∧
       t.dev.elog.ring = s.dev.elog.ring ∧ t.dev.rd R.ERR_WR_SEQ = s.dev.rd R.ERR_WR_SEQ % 2 ^ 32 ∧
       t.dev.boot.applied = false ∧ t.dev.boot.bank = b2n s.dev.pins.strapBank ∧ t.dev.pins.yieldN = true ∧
       s.dev.boot.yieldAt + millis (s.dev.rd R.VEER_TIMERS_YIELD_HOLD) ≤ t.dev.now ∧
       t.mem = s.mem ∧ t.pending = s.pending) ∧
  (∀ s : State, s.dev.state = .safe →
     ∃ t bs, exec .readBoot s = .next t ∧ t.dev.out = .spi bs :: s.dev.out ∧
       bs.take 8 = leBytes 4 (s.start.shownWord ((regAt 0x60000).getD [])) ++ leBytes 4 (s.start.shownWord ((regAt 0x4).getD [])) ∧
       bs.length = 32 ∧
       t = { s with dev := { s.dev with out := t.dev.out, free := t.dev.free, wq := [] } })

/-- A complete set of readings stands in TEMP of every site (R496, R498); a set in which every count is implausible leaves no site
valid, which trips (R499, R504), and a device in COLD, WARM or LIVE yields. The SRAM scrubber counts a corrected error in its
region, saturating, and yields with reason 2 where a double error lies in configuration memory (R39 to R41, R341). -/
def Obligations.ReadingsTripAndScrubbingYields : Prop :=
  (∀ (s : State) (sites : List (Bool × Int)), s.dev.off = false → sites.length = 32 →
     ∃ t, exec (.thmReading sites) s = .next t ∧ t.dev.thm.read = true ∧ s.dev.now ≤ t.dev.now ∧ t.pending = s.pending ∧
       (∀ i, i < 32 → t.dev.rd (R.THM_SITE_TEMP i) = ofInt 16 (sites.getD i (false, 0)).2) ∧
       ((∀ p ∈ sites, p.1 = false) → s.dev.rdb R.THM_STATUS_TRIP = false →
         t.dev.rdb R.THM_STATUS_TRIP = true ∧ t.dev.rd R.THM_STATUS_BAND = 4 ∧
         (s.dev.inService = true → t.dev.state = .yielded))) ∧
  (∀ (s : State) (region : Fin 15) (word : Nat), s.dev.off = false → s.dev.lulling .sramScrub = false →
     (∃ t, exec (.sramScrub region word .single) s = .next t ∧
       t.dev.sram = s.dev.sram.set region (Nat.min (2 ^ 32 - 1) (s.dev.sram.getD region 0 + 1)) ∧
       t.mem = s.mem ∧ t.pending = s.pending ∧ s.dev.SameOutside [3, 0x24] t.dev) ∧
     (s.dev.inService = true → (region = 0 ∨ region = 1 ∨ region = 4 ∨ region = 9) →
       ∃ t, exec (.sramScrub region word .double) s = .next t ∧ t.dev.state = .yielded ∧
         t.dev.rd R.VEER_STATUS_LAST_YIELD = 2 ∧ t.dev.sram = s.dev.sram))

/-- A read of WLN_LO answers WLN bits [31:0] and latches bits [47:32] into WLN_HI, so that the two give one 48-bit value (R78).
Nothing else changes. -/
def Obligations.WlnLoReadLatchesWlnHi : Prop :=
  ∀ s : State, s.BusFree 0x20010 →
    (let d := s.start.wr R.WTM_WLN_HI (s.dev.wtm.wln / 2 ^ 32)
     exec .wlnLoRead s = .next (s.answered d (s.dev.wtm.wln % 2 ^ 32) false) ∧
     d.rd R.WTM_WLN_HI = bits s.dev.wtm.wln 47 32 ∧
     s.dev.wtm.wln % 2 ^ 32 + 2 ^ 32 * d.rd R.WTM_WLN_HI = s.dev.wtm.wln % 2 ^ 48)

/-- A read of a register answers what the register shows and clears its RC fields (R13, R15), after what the register does besides
with a read (it latches an upper half, fetches an entry); where it does nothing besides, every other field stays. A read of
ARRIVAL_LO or WR_INDEX_LO answers the low half and latches the upper one (R97, R448). Nothing else changes. -/
def Obligations.RegisterReads : Prop :=
  (∀ (s : State) (addr : Word) (fs : List Fld), s.BusFree addr.toNat → regAt addr.toNat = some fs →
     (addr.toNat ≠ 0x202004 ∨ lutRefused false s.start = false) →
     (let d := s.start.beforeRead addr.toNat
      ∃ t, exec (.rcRead ⟨addr, .word⟩) s = .next t ∧ t.dev.out = .bus (d.shownWord fs) false :: s.dev.out ∧
        (∀ f ∈ fs, f.acc = .rc → t.dev.rd f = 0) ∧
        d.SameBut ((fs.filter fun f => f.acc = .rc).map Fld.key) t.dev ∧
        t = { s with dev := { d with regs := t.dev.regs, out := t.dev.out, wq := [] } })) ∧
  ((∀ s : State, s.BusFree 0x45010C →
     exec .arrivalLoRead s =
       .next (s.answered (s.start.wr R.ETH_ARRIVAL_HI (s.dev.cue.arrival / 2 ^ 32)) (s.dev.cue.arrival % 2 ^ 32) false)) ∧
   (∀ (s : State) (p : Fin 4), s.BusFree (0x430118 + 0x40 * p.val) →
     exec (.wrIndexLoRead p) s =
       .next (s.answered (s.start.wr (R.AUD_IN_WR_INDEX_HI p) ((s.dev.audIn p).wr / 2 ^ 32)) (s.dev.rd (R.AUD_IN_WR_INDEX_LO p)) false)))

/-- A word written to a register without an action of its own, outside mirror mode: each RW and RWS field takes its bits, no live copy
changes, and the groups of RWS fields become dirty (R13, R14). No other field changes. An access of another size than a word or to
no register, and a write to a register that is writable in BOOT only outside BOOT, end with an error response, are logged, and
change no register but the log's (R8, R58, R565). -/
def Obligations.RegisterWrites : Prop :=
  (∀ (s : State) (addr value : Word) (fs : List Fld), s.BusFree addr.toNat → regAt addr.toNat = some fs →
     s.start.bootOnly fs = false → s.start.otherWrite s.mem addr.toNat value.toNat = none → s.dev.mirrorOn = false →
     (fs.map Fld.key).Nodup → R.WTM_COMMIT_PEND_DIRTY.key ∉ fs.map Fld.key → R.TOP_STATE.key ∉ fs.map Fld.key →
     R.VEER_STATUS_MIRROR.key ∉ fs.map Fld.key →
     ∃ t, exec (.registerWrite addr value .word) s = .next t ∧ t.dev.out = .bus 0 false :: s.dev.out ∧
       (∀ f ∈ fs, f.settable = true → f.boot = false →
         t.dev.rd f = bits value.toNat (f.lo + f.width - 1) f.lo % 2 ^ f.width) ∧
       (∀ f ∈ fs, ∀ g : Fin 8, f.acc = .rws g → f.boot = false → bit (t.dev.rd R.WTM_COMMIT_PEND_DIRTY) g = true) ∧
       s.dev.SameBut (R.WTM_COMMIT_PEND_DIRTY.key :: fs.map Fld.key) t.dev ∧
       t = { s with dev := { s.dev with regs := t.dev.regs, out := t.dev.out, wq := [] } }) ∧
  (∀ (s : State) (addr value : Word) (size : AccessSize), s.BusFree addr.toNat →
     (size ≠ .word ∨ regAt addr.toNat = none ∨ ∃ fs, regAt addr.toNat = some fs ∧ s.start.bootOnly fs = true) →
     exec (.registerWrite addr value size) s = .next (s.answered (s.start.accessLog addr.toNat true) 0 true) ∧
     s.dev.SameBut [R.ERR_DROPPED.key] (s.start.accessLog addr.toNat true) ∧
     (size ≠ .word ∨ regAt addr.toNat = none →
       exec (.rcRead ⟨addr, size⟩) s = .next (s.answered (s.start.accessLog addr.toNat false) 0 true) ∧
       s.dev.SameBut [R.ERR_DROPPED.key] (s.start.accessLog addr.toNat false)))

/-- An access into a domain that has been declared stopped waits, and the bus takes no other access meanwhile (R56, R60). After 16,384
RBUS cycles it is withdrawn with an error response; a read, or a write of another size than a word, then changes no register but
the log's (R56, R57). A cue's operation ends so as well, and outside COLD, WARM and LIVE nothing is left of its message (R21).
With no access waiting nothing happens. A clock monitor's declarations (R51): the domain joins the stopped ones, the stop of CORE
or STC stops the line generator (R230), and a stop of a clock derived from the PLLs is a fatal fault that yields with reason 3
(R341). The domain leaves them again as it runs, a camera port's or an audio domain's shows it, and an access that waits for it is
made (R57). -/
def Obligations.StoppedClocksHoldAccesses : Prop :=
  ((∀ (s : State) (addr value : Word) (size : AccessSize), s.dev.off = false → s.dev.clk.wait = none → s.dev.accessStopped addr.toNat = true →
     exec (.registerWrite addr value size) s =
       .next (s.withDev { s.start with clk := { s.start.clk with wait := some ⟨addr.toNat, true, value.toNat, size, s.dev.now, false⟩ } }) ∧
     exec (.rcRead ⟨addr, size⟩) s =
       .next (s.withDev { s.start with clk := { s.start.clk with wait := some ⟨addr.toNat, false, 0, size, s.dev.now, false⟩ } })) ∧
   (∀ s : State, s.dev.off = false → s.dev.clk.wait = none → exec .bridgeTimeout s = .next (s.withDev s.start)) ∧
   (∀ (s : State) (w : BusWait), s.dev.off = false → s.dev.clk.wait = some w →
     ∃ t, exec .bridgeTimeout s = .next t ∧ w.since + 16384 * 65536 * 10 / 3 ≤ t.dev.now ∧ t.pending = s.pending ∧
       (w.cue = false → t.dev.clk = ⟨s.dev.clk.stopped, none⟩ ∧ t.dev.out = .bus 0 true :: s.dev.out ∧ t.mem = s.mem ∧
         (w.write = false ∨ w.size ≠ .word → s.dev.SameBut [R.ERR_DROPPED.key] t.dev)) ∧
       (w.cue = true → w.write = false → s.dev.inService = false → t.dev.clk = ⟨s.dev.clk.stopped, none⟩ ∧ t.dev.out = s.dev.out ∧ t.mem = s.mem ∧
         t.dev.cue.job = none))) ∧
  ((∀ (s : State) (family : Fin 18) (inst : Fin 64), s.dev.off = false → inst.val < clockInstances.getD family 0 →
     s.dev.domainStopped family inst = false →
     ∃ t, exec (.clockStopped family inst) s = .next t ∧ t.pending = s.pending ∧
       t.dev.clk.stopped = s.dev.clk.stopped ++ [(family.val, inst.val)] ∧
       (family.val = 1 ∨ family.val = 14 → t.dev.wtm.running = false) ∧ (family.val = 5 → t.dev.rd (R.CAM_CLK_KHZ inst) = 0) ∧
       (fatalClock family = true → s.dev.inService = true →
         t.dev.state = .yielded ∧ t.dev.rd R.VEER_STATUS_LAST_YIELD = 3)) ∧
   (∀ (s : State) (family : Fin 18) (inst : Fin 64), s.dev.off = false → s.dev.domainStopped family inst = true →
     (let d := ({ s.start with
        clk := { s.start.clk with stopped := s.start.clk.stopped.filter fun c => c != (family.val, inst.val) } }).clockLog family inst true
      (s.dev.clk.wait = none →
        (family.val ≠ 5 → family.val ≠ 13 → exec (.clockRunning family inst) s = .next (s.withDev d)) ∧
        (family.val = 13 → exec (.clockRunning family inst) s = .next (s.withDev (d.wr (R.AUD_DOM_STATUS_RUN inst) 1))) ∧
        (family.val = 5 → exec (.clockRunning family inst) s = .next (s.withDev (d.wr (R.CAM_STATUS_CLK_RUN inst) 1)))) ∧
      (∀ w : BusWait, s.dev.clk.wait = some w → w.cue = false → w.write = false → w.size = .word → family.val ≠ 5 → family.val ≠ 13 →
        d.accessStopped w.addr = false →
        (let r := Dev.busRead w.addr { d with clk := { d.clk with wait := none } }
         exec (.clockRunning family inst) s = .next (s.withDev (r.1.emit (.bus r.2.1 r.2.2))))))))

/-- WLN counts the line boundaries: while the generator runs it gains 1 at each, modulo 2^48, from 0 at the first (R61, R63, R230), in
BOOT, SAFE and YIELDED without a change of state and without a write to DRAM, where no step is due. While the generator is stopped
a boundary does nothing. A write of EPOCH is held for the next step, and until the first step since BOOT reads return it (R80). A
write of SAMPLE.GO asks for a latch at the next boundary (R79). Outside mirror mode nothing else changes. -/
def Obligations.WallLineNumberAndLatches : Prop :=
  (∀ s : State, s.dev.off = false →
     (s.dev.wtm.running = false → exec .wallLineBoundary s = .next (s.withDev s.start)) ∧
     (s.dev.wtm.running = true → s.dev.inService = false → s.dev.lock ≠ Dev.lockAcquire → s.dev.wtm.stepDue = false →
       ∃ t, exec .wallLineBoundary s = .next t ∧
         t.dev.wtm.wln = (if s.dev.wtm.fresh then 0 else (s.dev.wtm.wln + 1) % 2 ^ 48) ∧ t.dev.wtm.fresh = false ∧
         t.dev.state = s.dev.state ∧ t.mem = s.mem ∧ t.pending = s.pending)) ∧
  ((∀ (s : State) (v : Word), s.BusFree 0x20040 → s.dev.mirrorOn = false →
     ∃ t, exec (.epochWrite false v) s = .next t ∧
       t.dev.wtm.epochHeld = some ((s.dev.wtm.epochHeld.getD s.dev.wtm.epochUse) / 2 ^ 32 * 2 ^ 32 + v.toNat) ∧
       (s.dev.wtm.stepped = false → t.dev.rd R.WTM_EPOCH_LO = v.toNat) ∧
       s.dev.SameBut [R.WTM_EPOCH_LO.key, R.WTM_EPOCH_HI.key] t.dev ∧
       t = { s with dev := { s.dev with
         regs := t.dev.regs, wtm := { s.dev.wtm with epochHeld := t.dev.wtm.epochHeld }, out := .bus 0 false :: s.dev.out, wq := [] } }) ∧
   (∀ (s : State) (v : Word), s.BusFree 0x20044 → s.dev.mirrorOn = false →
     ∃ t, exec (.epochWrite true v) s = .next t ∧
       t.dev.wtm.epochHeld = some ((s.dev.wtm.epochHeld.getD s.dev.wtm.epochUse) % 2 ^ 32 + 2 ^ 32 * (v.toNat % 2 ^ 16)) ∧
       s.dev.SameBut [R.WTM_EPOCH_LO.key, R.WTM_EPOCH_HI.key] t.dev) ∧
   (∀ s : State, s.BusFree 0x20018 →
     exec .sampleGo s = .next (s.answered { s.start with wtm := { s.start.wtm with sampleDue := true } } 0 false)))

/-- A selected reference that becomes valid in FREE moves the lock state to ACQUIRE; one that is lost in LOCKED or SLEWING moves it to
HOLDOVER and is counted in LOSSES (R67, R68). The first edge of FRAME_REF of the selected polarity is kept with its STC time; an
edge of the other polarity changes nothing but the time (R65, R68). A write to WTM.CTRL sets its fields; while LOCKED or SLEWING,
a change of SOURCE to the other reference counts as the loss of the old one and, where the new one is valid, moves the lock state
to ACQUIRE (R68, R69). -/
def Obligations.ReferencesMoveLockState : Prop :=
  ((∀ s : State, s.dev.off = false → s.dev.refSource = 1 → s.dev.wtm.ptpValid = false → s.dev.lock = Dev.lockFree →
     exec (.referenceValid .ptp) s =
       .next (s.withDev (({ s.start with wtm := { s.start.wtm with ptpValid := true } }).setLock Dev.lockAcquire))) ∧
   (∀ s : State, s.dev.off = false → s.dev.refSource = 1 → s.dev.wtm.ptpValid = true →
     (s.dev.lock = Dev.lockLocked ∨ s.dev.lock = Dev.lockSlewing) →
     ∃ t, exec (.referenceLost .ptp) s = .next t ∧ t.dev.lock = Dev.lockHoldover ∧ t.dev.wtm.ptpValid = false ∧
       t.dev.rd R.WTM_STATUS_LOSSES = (s.dev.rd R.WTM_STATUS_LOSSES + 1) % 2 ^ R.WTM_STATUS_LOSSES.width ∧
       s.dev.SameBut [R.WTM_STATUS_LOSSES.key, R.WTM_STATUS_LOCK.key, R.ERR_DROPPED.key] t.dev ∧
       t.mem = s.mem ∧ t.pending = s.pending) ∧
   (∀ s : State, s.dev.off = false → s.dev.refSource = 2 → s.dev.wtm.frefValid = true →
     (s.dev.lock = Dev.lockLocked ∨ s.dev.lock = Dev.lockSlewing) →
     ∃ t, exec .frameRefMissing s = .next t ∧ t.dev.lock = Dev.lockHoldover ∧ t.dev.wtm.frefValid = false ∧
       t.dev.wtm.frefEdge = none ∧ t.dev.rdb R.WTM_STATUS_FREF_MISSING = true ∧ t.mem = s.mem ∧ t.pending = s.pending)) ∧
  (∀ (s : State) (rising : Bool) (dt : Nat), s.dev.off = false → s.dev.wtm.frefEdge = none →
     exec (.frameRefEdge rising dt) s = .next (s.withDev
       (if rising = s.dev.rdb R.WTM_CTRL_FREF_EDGE then s.start.pass dt
        else { s.start.pass dt with wtm := { s.start.wtm with frefEdge := some ((s.start.pass dt).stc : Nat) } }))) ∧
  (∀ (s : State) (v : Word), s.BusFree 0x20000 → s.dev.mirrorOn = false →
     ∃ t, exec (.sourceWrite v) s = .next t ∧ t.dev.out = .bus 0 false :: s.dev.out ∧
       t.dev.rd R.WTM_CTRL_SOURCE = bits v.toNat 1 0 ∧ t.dev.rd R.WTM_CTRL_FREF_EDGE = bits v.toNat 3 3 ∧
       t.dev.rd R.WTM_CTRL_FREE_RUN_OK = bits v.toNat 4 4 ∧ t.dev.rd R.WTM_CTRL_FREF_DIV = bits v.toNat 31 24 ∧
       (s.dev.refSource = 2 → s.dev.lock = Dev.lockLocked → bits v.toNat 1 0 = 1 → s.dev.wtm.ptpValid = true →
         t.dev.lock = Dev.lockAcquire ∧
         t.dev.rd R.WTM_STATUS_LOSSES = (s.dev.rd R.WTM_STATUS_LOSSES + 1) % 2 ^ R.WTM_STATUS_LOSSES.width) ∧
       t.mem = s.mem ∧ t.pending = s.pending)

/-- CAL_CMD.INSERT: the staged entry that passes the checks of R567 joins the calendar, marked PAST where its target has passed (R83),
and ERROR is 0; one that fails leaves its code in ERROR and the calendar as it was. CAL_CMD.CANCEL removes every pending entry
with the staged TAG and counts them (R89). A write to COMMIT_ARM sets the bits written 1 and clears none (R93), outside mirror
mode; a commit of a group copies its shadows and tables to the committed copies and leaves it clean (R91). -/
def Obligations.CalendarAndCommits : Prop :=
  (∀ s : State, s.BusFree 0x20214 →
     (let target := s.dev.rd (R.WTM_CAL_W_W 0) + 2 ^ 32 * s.dev.rd R.WTM_CAL_TGT_HI_TGT_HI
      let w := s.dev.rd (R.WTM_CAL_W_W 1)
      let e := s.start.calCheck target (bits w 31 24) (bits w 23 16) (s.dev.rd (R.WTM_CAL_W_W 2)) (s.dev.rd (R.WTM_CAL_W_W 3))
      ∃ t, exec .calInsert s = .next t ∧ t.dev.rd R.WTM_CAL_STATUS_ERROR = e ∧
        t.dev.cal = (if e = 0 then { s.dev.cal with entries := s.dev.cal.entries ++
          [⟨target % 2 ^ 48, bits w 31 24, bits w 23 16, bits w 15 0, s.dev.rd (R.WTM_CAL_W_W 2), s.dev.rd (R.WTM_CAL_W_W 3),
            decide (s.start.ahead48 target ≤ 0)⟩] } else s.dev.cal) ∧
        s.dev.SameBut [R.WTM_CAL_STATUS_ERROR.key, R.WTM_CAL_STATUS_PAST_AT_INSERT.key] t.dev ∧
        t = { s with dev := { s.dev with regs := t.dev.regs, cal := t.dev.cal, out := .bus 0 false :: s.dev.out, wq := [] } }) ∧
     (let tag := bits (s.dev.rd (R.WTM_CAL_W_W 1)) 15 0
      ∃ t, exec .calCancel s = .next t ∧
        t.dev.cal = { s.dev.cal with entries := s.dev.cal.entries.filter fun e => e.tag != tag } ∧
        t.dev.rd R.WTM_CAL_STATUS_REMOVED = Nat.min (s.dev.cal.entries.filter fun e => e.tag = tag).length 255 ∧
        (t.dev.rd R.WTM_CAL_STATUS_ERROR = 0 ↔ ∃ e ∈ s.dev.cal.entries, e.tag = tag) ∧
        s.dev.SameBut [R.WTM_CAL_STATUS_ERROR.key, R.WTM_CAL_STATUS_REMOVED.key] t.dev ∧
        t = { s with dev := { s.dev with regs := t.dev.regs, cal := t.dev.cal, out := .bus 0 false :: s.dev.out, wq := [] } })) ∧
  ((∀ (s : State) (v : Word), s.BusFree 0x20080 → s.dev.mirrorOn = false →
     exec (.commitArmWrite v) s = .next (s.answered
       (s.start.wr R.WTM_COMMIT_ARM_ARM (Nat.lor (s.dev.rd R.WTM_COMMIT_ARM_ARM) (v.toNat % 256))) 0 false)) ∧
   (∀ (d : Dev) (g : Fin 8) (f : Fld), groupOfKey f.key = some g.val → (d.commitGroup g).cm f = d.rd f) ∧
   ∀ (d : Dev) (g : Fin 8), bit ((d.commitGroup g).rd R.WTM_COMMIT_PEND_DIRTY) g = false ∧
     bit ((d.commitGroup g).rd R.WTM_COMMIT_PEND_DEFERRED) g = false)

/-- TBL.CMD.READ puts the selected entry, shadow content first, into TBL.DATA; a WRITE puts TBL.DATA into the entry's shadow pages
alone: what consumers use does not change (R42, R49). Both end with ERROR 0, but for a write that finds no free page, which ends
with ERROR 3 and changes nothing else (R49). TBL.SEL takes TABLE, INSTANCE and AUTOINC, and a change of TABLE or INSTANCE zeroes
TBL.DATA (R49), outside mirror mode. -/
def Obligations.TableAccessActsOnShadows : Prop :=
  (∀ s : State, s.BusFree 0x1000008 → s.start.tblCheck = 0 → s.dev.mirrorOn = false →
     s.dev.tblGroup (s.dev.rd R.TBL_SEL_TABLE) < 8 →
     (∃ t, exec .tblRead s = .next t ∧ t.dev.rd R.TBL_STATUS_ERROR = 0 ∧
       (∀ i, i < 64 → t.dev.rd (R.TBL_DATA_D i) =
         (let bs := s.start.tblEntry (s.dev.rd R.TBL_SEL_TABLE) (s.dev.rd R.TBL_SEL_INSTANCE) (s.dev.rd R.TBL_INDEX)
          bs.getD (4 * i) 0 + 256 * bs.getD (4 * i + 1) 0 + 65536 * bs.getD (4 * i + 2) 0 + 16777216 * bs.getD (4 * i + 3) 0) % 2 ^ 32) ∧
       t.dev.tbl = s.dev.tbl ∧ s.dev.SameOutside [0x100] t.dev ∧ t.mem = s.mem ∧ t.pending = s.pending) ∧
     (s.start.noFreePage (s.dev.rd R.TBL_SEL_TABLE) (s.dev.rd R.TBL_SEL_INSTANCE) (s.dev.rd R.TBL_INDEX) = true →
       exec .tblWrite s = .next (s.answered (s.start.wr R.TBL_STATUS_ERROR 3) 0 false)) ∧
     (s.start.noFreePage (s.dev.rd R.TBL_SEL_TABLE) (s.dev.rd R.TBL_SEL_INSTANCE) (s.dev.rd R.TBL_INDEX) = false →
      ∃ t, exec .tblWrite s = .next t ∧ t.dev.rd R.TBL_STATUS_ERROR = 0 ∧
       (∀ table inst off, t.dev.tblLive table inst off = s.dev.tblLive table inst off) ∧
       bit (t.dev.rd R.WTM_COMMIT_PEND_DIRTY) (s.dev.tblGroup (s.dev.rd R.TBL_SEL_TABLE)) = true ∧
       s.dev.SameBut [R.TBL_STATUS_ERROR.key, R.TBL_INDEX.key, R.WTM_COMMIT_PEND_DIRTY.key] t.dev ∧
       t.mem = s.mem ∧ t.pending = s.pending)) ∧
  (∀ (s : State) (v : Word), s.BusFree 0x1000000 → s.dev.mirrorOn = false →
     ∃ t, exec (.tblSelWrite v) s = .next t ∧
       t.dev.rd R.TBL_SEL_TABLE = bits v.toNat 7 0 ∧ t.dev.rd R.TBL_SEL_INSTANCE = bits v.toNat 15 8 ∧
       t.dev.rd R.TBL_SEL_AUTOINC = bits v.toNat 16 16 ∧
       (bits v.toNat 7 0 ≠ s.dev.rd R.TBL_SEL_TABLE ∨ bits v.toNat 15 8 ≠ s.dev.rd R.TBL_SEL_INSTANCE →
         ∀ i, i < 64 → t.dev.rd (R.TBL_DATA_D i) = 0) ∧
       t.dev.tbl = s.dev.tbl ∧ s.dev.SameOutside [0x100] t.dev ∧ t.mem = s.mem ∧ t.pending = s.pending)

/-- LOAD_GO of a range that lies in the table begins a load, and one of no entries ends at once (R48); the load ends with INDEX after
the last entry written, with ERROR 0 where that is its last one, and else with ERROR 4 at an entry that DRAM answers with an
uncorrectable error or does not hold (R48, R482, R487), or 3 at one for which no page is free (R49). Outside mirror mode the entries
written read as their bytes in DRAM without the table's reserved bits (R9). A live page moves from DRAM to a free on-chip page, where there is one, without a change of any entry (R45). -/
def Obligations.TableLoadsAndPageMoves : Prop :=
  ((∀ s : State, s.BusFree 0x100002C → s.dev.tbl.load = none →
     Dev.tblEsize (s.dev.rd R.TBL_SEL_TABLE) (s.dev.rd R.TBL_SEL_INSTANCE) ≠ 0 →
     s.dev.rd R.TBL_INDEX + s.dev.rd R.TBL_LOAD_COUNT_COUNT ≤
       s.dev.tblEntries (s.dev.rd R.TBL_SEL_TABLE) (s.dev.rd R.TBL_SEL_INSTANCE) →
     ∃ t, exec .tblLoadGo s = .next t ∧ t.dev.rd R.TBL_STATUS_ERROR = 0 ∧
       t.dev.tbl.load = (if s.dev.rd R.TBL_LOAD_COUNT_COUNT = 0 then none else
         some ⟨s.dev.rd R.TBL_SEL_TABLE, s.dev.rd R.TBL_SEL_INSTANCE, s.dev.rd R.TBL_INDEX, s.dev.rd R.TBL_LOAD_COUNT_COUNT,
           s.dev.rdPair R.TBL_LOAD_ADDR_LO R.TBL_LOAD_ADDR_HI⟩) ∧
       s.dev.SameBut [R.TBL_STATUS_ERROR.key] t.dev ∧ t.mem = s.mem ∧ t.pending = s.pending) ∧
   (∀ (s : State) (l : TblLoad) (bad : Option Nat), s.dev.off = false → s.dev.tbl.load = some l →
     ∃ t k, exec (.tblLoadDone bad) s = .next t ∧ t.dev.tbl.load = none ∧ k ≤ l.left ∧
       t.dev.rd R.TBL_INDEX = (l.index + k) % 2 ^ R.TBL_INDEX.width ∧ (t.dev.rd R.TBL_STATUS_ERROR = 0 ↔ k = l.left) ∧
       (t.dev.rd R.TBL_STATUS_ERROR = 0 ∨ t.dev.rd R.TBL_STATUS_ERROR = 3 ∨ t.dev.rd R.TBL_STATUS_ERROR = 4) ∧
       (∀ b, bad = some b → k ≤ b) ∧
       (s.dev.poison = [] → s.dev.late = [] → l.addr + Dev.tblEsize l.table l.inst * l.left ≤ s.dev.dramC → bad = none →
         t.dev.rd R.TBL_STATUS_ERROR ≠ 4) ∧
       (l.table ≠ 2 → s.dev.mirrorOn = false → ∀ i, i < k →
         t.dev.tblEntry l.table l.inst (l.index + i) =
           ((Memory.bytes s.mem (l.addr + Dev.tblEsize l.table l.inst * i) (Dev.tblEsize l.table l.inst)).zipIdx.map fun q =>
             Dev.tblKeep l.table ((l.index + i) * Dev.tblEsize l.table l.inst + q.2) q.1.toNat)) ∧
       t.mem = s.mem ∧ t.pending = s.pending)) ∧
  (∀ s : State, s.dev.off = false →
     ∃ t, exec .pageMoveOnchip s = .next t ∧
       (∀ table inst off, t.dev.tblLive table inst off = s.dev.tblLive table inst off) ∧
       (∀ x p, s.dev.tbl.tables.find? (fun y => (decide (0 < s.dev.ownFree y.table y.inst) || decide (0 < s.dev.poolFree)) &&
           y.moved.any fun q => q.2 = .dram) = some x →
         (s.dev.tblInst x.table x.inst).moved.find? (fun q => q.2 = .dram) = some p →
         (p.1, PageLoc.dram) ∉ (t.dev.tblInst x.table x.inst).moved) ∧
       t = { s with dev := { s.dev with tbl := t.dev.tbl, wq := [] } })

/-- The falling edge of VS starts a frame (R100, R125): the port is in a frame, the frame is counted and stamped with its WLN, and
CLK_KHZ shows the clock's frequency (that it is updated then is the model's choice, log entry 121). A frame
whose next WIDTH or HEIGHT lies outside R104's ranges on a bound port is undefined, and faults. The rising edge of VS ends a frame
(R100): the port is in no frame, and the edge's time is kept. A line of a frame in progress joins the frame's rows as WIDTH
pixels, unpacked from its transfers where it has as many as R102 gives a line, and its check word is awaited (R102, R106). -/
def Obligations.CameraFramesAndLines : Prop :=
  (∀ (s : State) (n : Fin 8) (dt : CamTick), s.dev.off = false →
     (s.dev.nextSizeOk n = false → exec (.camFrameStart n dt) s = .fault .geometryUndefined) ∧
     (s.dev.nextSizeOk n = true → (s.dev.cam n).vs = true →
       ∃ t, exec (.camFrameStart n dt) s = .next t ∧ (t.dev.cam n).vs = false ∧
         (t.dev.cam n).lastStart = some (s.dev.now + dt.dt) ∧ t.dev.rd (R.CAM_STATUS_IN_FRAME n) = 1 ∧
         (s.dev.rdb (R.CAM_STATUS_CLK_RUN n) = true → t.dev.rd (R.CAM_CLK_KHZ n) = dt.khz % 2 ^ (R.CAM_CLK_KHZ n).width) ∧
         t.dev.rd (R.CAM_FRAMES n) = Nat.min (s.dev.rd (R.CAM_FRAMES n) + 1) (2 ^ (R.CAM_FRAMES n).width - 1) ∧
         t.dev.rd (R.CAM_FS_SEQ n) = (s.dev.rd (R.CAM_FS_SEQ n) + 1) % 2 ^ (R.CAM_FS_SEQ n).width ∧
         t.dev.rd (R.CAM_FS_WLN_LO n) = s.dev.wtm.wln % 2 ^ 32 ∧ t.pending = s.pending)) ∧
  (∀ (s : State) (n : Fin 8) (dt : Nat), s.dev.off = false → (s.dev.cam n).vs = false →
     ∃ t, exec (.camFrameEnd n dt) s = .next t ∧ (t.dev.cam n).vs = true ∧ (t.dev.cam n).lastRise = some (s.dev.now + dt) ∧
       t.dev.rd (R.CAM_STATUS_IN_FRAME n) = 0 ∧ t.pending = s.pending) ∧
  (∀ (s : State) (n : Fin 8) (dt : CamTick) (ts : List Word) (ovf : Option Nat), s.dev.off = false →
     (s.dev.cam n).vs = false → s.dev.rdb (R.CAM_STATUS_IN_FRAME n) = true →
     (s.dev.cam n).rows.length < s.dev.lv (R.CAM_GEOM_HEIGHT n) →
     ∃ t px, exec (.camLine n dt ts ovf) s = .next t ∧ (t.dev.cam n).rows = (s.dev.cam n).rows ++ [px] ∧
       px.length = s.dev.lv (R.CAM_GEOM_WIDTH n) ∧ (t.dev.cam n).check = some (crc32c (ts.flatMap fun t => leBytes 4 t.toNat)) ∧
       (ovf = none → ts.length = Dev.lineTransfers (s.dev.lv (R.CAM_GEOM_WIDTH n)) (s.dev.camDepth n) →
         px = Dev.unpack (s.dev.camDepth n) (s.dev.lv (R.CAM_GEOM_WIDTH n)) (Dev.streamNum ts)) ∧
       t.pending = s.pending)

/-- A check word that agrees with its line changes nothing but that the line no longer waits; one that differs, or that has not come
by the next HS, is counted and marks the frame, while CHECK_EN is 1 (R106). A clock glitch is counted, and marks the frame, or the
next one where VS is high (R113). A missed slot of a bound Draught-path port is counted and shown as replacement (R118); the frame
timeout loses every member of the gang (R119, R110); in substitution a frame leaves the pipeline as it falls due, and is counted
(R119). None of them writes DRAM. -/
def Obligations.MarkedAndMissingFrames : Prop :=
  ((∀ (s : State) (n : Fin 8) (w : Word) (crc : Nat), s.dev.off = false → (s.dev.cam n).check = some crc →
     (crc = w.toNat →
       exec (.camCheckWord n ⟨false, w⟩) s = .next (s.withDev (s.start.putCam n { s.start.cam n with check := none }))) ∧
     (crc ≠ w.toNat → s.dev.lvb (R.CAM_CTRL_CHECK_EN n) = true →
       ∃ t, exec (.camCheckWord n ⟨false, w⟩) s = .next t ∧ bit (t.dev.cam n).marks 0 = true ∧ (t.dev.cam n).check = none ∧
         t.dev.rd (R.CAM_CHECK_ERR n) = Nat.min (s.dev.rd (R.CAM_CHECK_ERR n) + 1) (2 ^ (R.CAM_CHECK_ERR n).width - 1) ∧
         t.mem = s.mem ∧ t.pending = s.pending) ∧
     (s.dev.lvb (R.CAM_CTRL_CHECK_EN n) = true →
       ∃ t, exec (.camCheckWord n ⟨true, w⟩) s = .next t ∧ bit (t.dev.cam n).marks 0 = true ∧ (t.dev.cam n).check = none ∧
         s.dev.Counted t.dev (R.CAM_CHECK_MISS n) ∧ t.mem = s.mem ∧ t.pending = s.pending)) ∧
   (∀ (s : State) (n : Fin 8), s.dev.off = false →
     ((s.dev.cam n).vs = true →
       exec (.camGlitch n) s =
         .next (s.withDev ((s.start.cnt (R.CAM_GLITCH n)).putCam n { s.start.cam n with clkNext := true }))) ∧
     ((s.dev.cam n).vs = false →
       ∃ t, exec (.camGlitch n) s = .next t ∧ bit (t.dev.cam n).marks 4 = true ∧ t.mem = s.mem ∧ t.pending = s.pending))) ∧
  ((∀ (s : State) (n : Fin 8) (at_ : Time), s.dev.off = false → (s.dev.cam n).lastStart = some at_ →
     s.dev.portDraught n = true → s.dev.pipesRun = true → s.dev.lvb (R.CAM_CTRL_EN n) = true → (s.dev.cam n).slotDone = false →
     s.dev.rdb (R.CAM_STATUS_LOST n) = false → 0 < s.dev.lv (R.CAM_EXP_PERIOD n) →
     ∃ t, exec (.missedSlot n) s = .next t ∧ (t.dev.cam n).slotDone = true ∧ t.dev.rd (R.CAM_STATUS_REPLACING n) = 1 ∧
       t.dev.rd (R.CAM_MISSED n) = Nat.min (s.dev.rd (R.CAM_MISSED n) + 1) (2 ^ (R.CAM_MISSED n).width - 1) ∧
       t.mem = s.mem ∧ t.pending = s.pending) ∧
   (∀ (s : State) (n : Fin 8) (at_ : Time), s.dev.off = false → (s.dev.cam n).lastStart = some at_ →
     s.dev.rdb (R.CAM_STATUS_LOST n) = false →
     ∃ t, exec (.frameTimeout n) s = .next t ∧ (∀ q ∈ s.dev.gangMembers n, t.dev.rdb (R.CAM_STATUS_LOST q) = true) ∧
       at_ + nanos (2 * s.dev.lv (R.CAM_EXP_PERIOD n)) ≤ t.dev.now ∧ t.mem = s.mem ∧ t.pending = s.pending) ∧
   (∀ (s : State) (n : Fin 8), s.dev.off = false → s.dev.rdb (R.CAM_STATUS_LOST n) = true →
     s.dev.pipesRun = true → s.dev.lvb (R.CAM_CTRL_EN n) = true →
     ∃ t, exec (.substituteFrame n) s = .next t ∧ t.dev.rd (R.CAM_STATUS_REPLACING n) = 1 ∧
       (t.dev.cam n).outRows.length = s.dev.cropH n ∧ (s.dev.cam n).substDue ≤ t.dev.now ∧
       t.dev.rd (R.CAM_SUBST n) = Nat.min (s.dev.rd (R.CAM_SUBST n) + 1) (2 ^ (R.CAM_SUBST n).width - 1) ∧
       t.mem = s.mem ∧ t.pending = s.pending))

/-- A frame's statistics are written to the buffer that STAT_SEQ's parity names, and STAT_SEQ and STAT_BUF change together (R155): the
bytes stand there, and every other byte of DRAM stays; a buffer beyond the capacity takes none (R482). HIST_ARM arms a paired
restart (R153). DEF_DATA takes and shows entries of the bank that DEF_ADDR selects, advancing INDEX while AUTOINC is 1; a write
into the live bank is refused with an error response and changes no list (R136), outside mirror mode. -/
def Obligations.StatisticsHistoryAndDefects : Prop :=
  (∀ (s : State) (n : Fin 8) (bs : List Byte), s.dev.off = false → s.Sound → s.dev.poison = [] → (s.dev.cam n).stat = some bs →
     (let buf := s.dev.rd (R.RAWP_STAT_SEQ n) % 2
      let a := s.dev.lvPair (R.RAWP_STAT_BASE_LO n) (R.RAWP_STAT_BASE_HI n) + 0x20000 * buf
      (s.dev.dramC ≤ a → bs ≠ [] → ∃ t, exec (.statsWriteDone n) s = .next t ∧ t.mem = s.mem ∧
        t.dev.rd (R.RAWP_STATUS_STAT_BUF n) = buf ∧ t.pending = s.pending) ∧
      (a + bs.length ≤ s.dev.dramC → ∃ t, exec (.statsWriteDone n) s = .next t ∧
        (∀ i (h : i < bs.length), Memory.read t.mem (a + i) = bs[i]) ∧
        (∀ x, x < a ∨ a + bs.length ≤ x → Memory.read t.mem x = Memory.read s.mem x) ∧
        t.dev.rd (R.RAWP_STAT_SEQ n) = (s.dev.rd (R.RAWP_STAT_SEQ n) + 1) % 2 ^ (R.RAWP_STAT_SEQ n).width ∧
        t.dev.rd (R.RAWP_STATUS_STAT_BUF n) = buf ∧
        s.dev.SameBut [(R.RAWP_STAT_SEQ n).key, (R.RAWP_STATUS_STAT_BUF n).key] t.dev ∧ t.pending = s.pending))) ∧
  ((∀ (s : State) (n : Fin 8), s.BusFree (0x180088 + 0x10000 * n.val) →
     exec (.histArmWrite n) s = .next (s.answered (s.start.wr (R.RAWP_HIST_ARM_ARM n) 1) 0 false)) ∧
   (∀ (s : State) (n : Fin 8), s.BusFree (0x180040 + 0x10000 * n.val) → s.dev.mirrorOn = false →
     (let b := s.dev.rd (R.RAWP_DEF_ADDR_BANK n)
      let i := s.dev.rd (R.RAWP_DEF_ADDR_INDEX n)
      let next := if s.dev.rdb (R.RAWP_DEF_ADDR_AUTOINC n) then (i + 1) % 2 ^ (R.RAWP_DEF_ADDR_INDEX n).width else i
      (∃ t, exec (.defDataAccess n none) s = .next t ∧
        t.dev.rd (R.RAWP_DEF_DATA_DATA n) = SMap.get (s.dev.defects.getD n ⟨[]⟩).vals (65536 * b + i) % 2 ^ 32 ∧
        t.dev.rd (R.RAWP_DEF_ADDR_INDEX n) = next ∧ t.dev.defects = s.dev.defects ∧ t.mem = s.mem ∧ t.pending = s.pending) ∧
      ∀ w : Word,
        (b ≠ s.dev.lv (R.RAWP_CTRL_DEF_BANK n) →
          ∃ t, exec (.defDataAccess n (some w)) s = .next t ∧ t.dev.out = .bus 0 false :: s.dev.out ∧
            SMap.get (t.dev.defects.getD n ⟨[]⟩).vals (65536 * b + i) = w.toNat ∧
            (∀ k, k ≠ 65536 * b + i →
              SMap.get (t.dev.defects.getD n ⟨[]⟩).vals k = SMap.get (s.dev.defects.getD n ⟨[]⟩).vals k) ∧
            t.dev.rd (R.RAWP_DEF_ADDR_INDEX n) = next ∧ t.mem = s.mem ∧ t.pending = s.pending) ∧
        (b = s.dev.lv (R.RAWP_CTRL_DEF_BANK n) →
          ∃ t, exec (.defDataAccess n (some w)) s = .next t ∧ t.dev.out = .bus 0 true :: s.dev.out ∧
            t.dev.defects = s.dev.defects ∧ s.dev.SameBut [R.ERR_DROPPED.key] t.dev ∧ t.mem = s.mem ∧ t.pending = s.pending))))

/-- CLR.LUT_DATA and CMP.COEF_DATA show and take entries of the bank that the selection names, advancing INDEX while AUTOINC is 1; a
write of a live bank ends with an error response and changes no entry (R192, R203), outside mirror mode. A reading of the ambient
sensors leaves AMB_NONE saying whether no sensor is valid (R181, R182); in BOOT and SAFE nothing is read. -/
def Obligations.LookupDataAndAmbientReadings : Prop :=
  ((∀ s : State, s.BusFree 0x202004 →
     (let key := lutKey (s.dev.rd R.CLR_LUT_SEL_KIND) (s.dev.rd R.CLR_LUT_SEL_INSTANCE) (s.dev.rd R.CLR_LUT_SEL_BANK)
        (s.dev.rd R.CLR_LUT_SEL_CHANNEL) (s.dev.rd R.CLR_LUT_SEL_INDEX)
      let next := if s.dev.rdb R.CLR_LUT_SEL_AUTOINC then (s.dev.rd R.CLR_LUT_SEL_INDEX + 1) % 2048 else s.dev.rd R.CLR_LUT_SEL_INDEX
      (lutRefused false s.start = false →
        ∃ t, exec (.lutDataAccess none) s = .next t ∧ t.dev.rd R.CLR_LUT_DATA_DATA = SMap.get s.dev.clr.luts key % 2 ^ 32 ∧
          t.dev.rd R.CLR_LUT_SEL_INDEX = next ∧ t.dev.clr = s.dev.clr ∧ t.mem = s.mem ∧ t.pending = s.pending) ∧
      ∀ w : Word,
        (lutRefused true s.start = false → s.dev.mirrorOn = false →
          ∃ t, exec (.lutDataAccess (some w)) s = .next t ∧ t.dev.out = .bus 0 false :: s.dev.out ∧
            SMap.get t.dev.clr.luts key = w.toNat % 2 ^ lutWidth (s.dev.rd R.CLR_LUT_SEL_KIND) ∧
            (∀ k, k ≠ key → SMap.get t.dev.clr.luts k = SMap.get s.dev.clr.luts k) ∧
            t.dev.rd R.CLR_LUT_SEL_INDEX = next ∧ t.mem = s.mem ∧ t.pending = s.pending) ∧
        (lutRefused true s.start = true →
          ∃ t, exec (.lutDataAccess (some w)) s = .next t ∧ t.dev.out = .bus 0 true :: s.dev.out ∧ t.dev.clr = s.dev.clr ∧
            s.dev.SameBut [R.ERR_DROPPED.key] t.dev ∧ t.mem = s.mem ∧ t.pending = s.pending))) ∧
   (∀ s : State, s.BusFree 0x210024 →
     (let key := 4096 * s.dev.rd R.CMP_COEF_SEL_BANK + s.dev.rd R.CMP_COEF_SEL_INDEX
      let next := if s.dev.rdb R.CMP_COEF_SEL_AUTOINC then (s.dev.rd R.CMP_COEF_SEL_INDEX + 1) % 4096 else s.dev.rd R.CMP_COEF_SEL_INDEX
      (∃ t, exec (.coefDataAccess none) s = .next t ∧ t.dev.rd R.CMP_COEF_DATA_COEF = SMap.get s.dev.cmp.coefs key % 4096 ∧
         t.dev.rd R.CMP_COEF_SEL_INDEX = next ∧ t.dev.cmp = s.dev.cmp ∧ t.mem = s.mem ∧ t.pending = s.pending) ∧
      ∀ w : Word,
        (s.dev.rd R.CMP_COEF_SEL_BANK ≠ s.dev.lv R.CMP_CFG_COEF_BANK → s.dev.mirrorOn = false →
          ∃ t, exec (.coefDataAccess (some w)) s = .next t ∧ t.dev.out = .bus 0 false :: s.dev.out ∧
            SMap.get t.dev.cmp.coefs key = w.toNat % 4096 ∧
            (∀ k, k ≠ key → SMap.get t.dev.cmp.coefs k = SMap.get s.dev.cmp.coefs k) ∧
            t.dev.rd R.CMP_COEF_SEL_INDEX = next ∧ t.mem = s.mem ∧ t.pending = s.pending) ∧
        (s.dev.rd R.CMP_COEF_SEL_BANK = s.dev.lv R.CMP_CFG_COEF_BANK →
          ∃ t, exec (.coefDataAccess (some w)) s = .next t ∧ t.dev.out = .bus 0 true :: s.dev.out ∧ t.dev.cmp = s.dev.cmp ∧
            s.dev.SameBut [R.ERR_DROPPED.key] t.dev ∧ t.mem = s.mem ∧ t.pending = s.pending)))) ∧
  (∀ (s : State) (readings : List (Option Nat)), s.dev.off = false →
     ((s.dev.state = .boot ∨ s.dev.state = .safe) → exec (.ambientReading readings) s = .next (s.withDev s.start)) ∧
     (s.dev.state ≠ .boot → s.dev.state ≠ .safe →
       ∃ t, exec (.ambientReading readings) s = .next t ∧
         t.dev.rdb R.CLR_LOOP_STATUS_AMB_NONE = (t.dev.clr.sensors.filter fun x => x.valid).isEmpty ∧
         s.dev.SameOutside [4, 0x20] t.dev ∧ t.mem = s.mem ∧ t.pending = s.pending))

/-- A row of pipeline n that is ready leaves its camera colour stage once (R165, R209), and writes no DRAM; with none ready, only time
passes. The oldest frame that waits for store j and may be written (a camera frame once its port has ended it, R116) goes to the
buffer that is picked for it: its header's state becomes 2 and NEWEST names the buffer, and DRAM outside the frame's bytes and its
header stays, where both lie below the usable capacity and no internal recorder writes the store on; a frame of a writer other
than a tap that finds no buffer is counted in WDROP (R215, R216). -/
def Obligations.RowsAndFrameStores : Prop :=
  (∀ (s : State) (n : Fin 8) (dt : Nat), s.dev.off = false →
     (s.dev.pipesRun = true → (s.dev.cam n).taken < (s.dev.cam n).outRows.length →
       ∃ t, exec (.windowRowEntry n dt) s = .next t ∧ (t.dev.cam n).taken = (s.dev.cam n).taken + 1 ∧
         (t.dev.cam n).outRows = (s.dev.cam n).outRows ∧ t.mem = s.mem ∧ t.pending = s.pending) ∧
     (s.dev.pipesRun = false ∨ (s.dev.cam n).outRows.length ≤ (s.dev.cam n).taken →
       exec (.windowRowEntry n dt) s = .next (s.withDev (s.start.pass dt)))) ∧
  (∀ (s : State) (j : Fin 32) (f : FsFrame), s.dev.off = false → s.Sound → s.dev.poison = [] →
     (s.dev.cmp.waiting.find? fun f => f.fs = j.val && s.dev.fsReady f) = some f → s.dev.hbx.recorders = [] →
     (let d : Dev := { s.start with cmp := { s.start.cmp with waiting := s.start.cmp.waiting.erase f } }
      (∀ b, (Dev.pickBuf s.mem d f).1 = some b → s.dev.bufAddr b + f.bytes.length ≤ s.dev.dramC → s.dev.hdrAddr b + 64 ≤ s.dev.dramC →
        ∃ t, exec (.frameStoreWrite j) s = .next t ∧ t.dev.cmp.waiting = s.dev.cmp.waiting.erase f ∧
          t.dev.rd (R.CMP_FS_NEWEST_NEWEST f.fs) = b.buf % 2 ^ (R.CMP_FS_NEWEST_NEWEST f.fs).width ∧
          Memory.bytes t.mem (s.dev.hdrAddr b) 4 = leBytes 4 2 ∧
          (∀ x, (x < s.dev.bufAddr b ∨ s.dev.bufAddr b + f.bytes.length ≤ x) →
            (x < s.dev.hdrAddr b ∨ s.dev.hdrAddr b + 64 ≤ x) → Memory.read t.mem x = Memory.read s.mem x) ∧
          t.pending = s.pending) ∧
      ((Dev.pickBuf s.mem d f).1 = none → (Dev.pickBuf s.mem d f).2 = false → f.tap = none →
        exec (.frameStoreWrite j) s = .next (s.withDev (d.cnt (R.CMP_FS_WDROP f.fs))))))

/-- A lane's batt that falls due is taken from the front of its queue (R234, R235); a pixel that reaches the scan-out buffer after its
slot was filled is late and counted, and is present otherwise (R240). -/
def Obligations.BattsTakenAndLatePixelsCounted : Prop :=
  (∀ (s : State) (k : Fin 64) (b : Batt) (r : List Batt), s.dev.off = false →
    (s.dev.lane k).due = b :: r →
    ∃ t, exec (.battDue k) s = .next t ∧ (t.dev.lane k).due = r ∧ (b.due - s.dev.stcOff).toNat ≤ t.dev.now ∧
      t.mem = s.mem ∧ t.pending = s.pending) ∧
  (∀ (s : State) (x y : Nat), s.dev.off = false →
    exec (.scanoutPixel x y) s = .next (s.withDev
      (if s.dev.scn.missed.contains (Dev.pixKey x y) then
         ({ s.start with scn := { s.start.scn with missed := s.start.scn.missed.erase (Dev.pixKey x y) } }).cnt
           (R.SCN_LATE_PX (s.start.halfAt x))
       else { s.start with scn := { s.start.scn with absent := s.start.scn.absent.erase (Dev.pixKey x y) } })))

/-- Packets held for a lane's FIFO enter it in order, behind those that it holds, word by word until it is full (R242, R284), and corrected
errors of the last are counted; an uncorrectable one exhausts it at once (R283). The packet at the transmit pointer of a lane that sends leaves as R285 builds it, scrambled on after idle
blocks (R270, R271), is counted as sent or as resent and stays in the FIFO with one more transmission; a lone packet with an
uncorrectable word does not go out and is exhausted (R283), and a lone PX or CT write whose tile's context shows neither ownership nor
a claim stays (R282). A marker leaves on the lanes of an octet that is in a mode and not
changing, but for those in test, and MCOUNT advances (R275, R324). A VR that is due, and no CLAIM that waits for unreleased
packets, leaves (R297). -/
def Obligations.LanesSendFromTheirQueues : Prop :=
  (∀ (s : State) (k : Fin 64) (ecc : List Ecc), s.dev.off = false → Ecc.double ∉ ecc →
    ∃ t, exec (.fifoWrite ⟨k, ecc⟩) s = .next t ∧ s.Only [0x24] t ∧ (s.dev.lane k).fifo <+: (t.dev.lane k).fifo ∧
      (t.dev.lane k).wait <:+ (s.dev.lane k).wait ∧
      ((t.dev.lane k).wait ≠ [] → 16384 ≤ Dev.fifoUsed (t.dev.lane k)) ∧
      t.dev.rd (R.MVL_FIFO_USED k) = Dev.fifoUsed (t.dev.lane k) % 2 ^ (R.MVL_FIFO_USED k).width) ∧
  (∀ (s : State) (k : Fin 64) (p : Pkt) (ecc : List Ecc), s.dev.off = false → (s.dev.lane k).wait = [] → (s.dev.lane k).fifo = [p] →
    p.released = false → Ecc.double ∈ ecc.take (Dev.pktWords p) →
    ∃ t, exec (.fifoWrite ⟨k, ecc⟩) s = .next t ∧ t.mem = s.mem ∧ t.pending = s.pending ∧ (t.dev.lane k).fifo = [] ∧
      s.dev.Counted t.dev (R.MVL_EXHAUSTED k)) ∧
  (∀ (s : State) (k : Fin 64), s.dev.off = false → s.dev.NotComingUp k →
    (∀ (p : Pkt) (ecc : List Ecc), s.dev.laneSends k = true → s.dev.silenced = false → (s.dev.lane k).fifo[(s.dev.lane k).tx]? = some p →
      p.released = false → p.sends < 3 → s.dev.pastDeadline p.dead = false → (p.op ≤ 1 → s.dev.maySend p.tile p.dline = true) →
      (p.op = 0 → s.dev.laneMode k = 2 ∧ s.dev.rdb (R.MVL_LSTAT_MISWIRED k) = false) → s.dev.tileStale p.tile = false →
      Ecc.double ∉ ecc.take (Dev.pktWords p) →
      ∃ t, exec (.packetTransmit ⟨k, ecc⟩) s = .next t ∧ s.Only [0x24] t ∧
        t.dev.out = .forward k (linkBlocks (Config.idleScr k (s.dev.lane k).scr s.dev.now % 2 ^ 58)
          (padBlocks (s.start.wireBytes k p))).1 :: s.dev.out ∧
        { p with sends := p.sends + 1, lastSent := s.dev.now } ∈ (t.dev.lane k).fifo ∧
        s.dev.Counted t.dev (R.MVL_ECC_CORR k) ((ecc.take (Dev.pktWords p)).filter (· = .single)).length ∧
        (p.sends = 0 → s.dev.Counted t.dev (R.MVL_TX_PKT k)) ∧
        (p.sends ≠ 0 → s.dev.Counted t.dev (R.MVL_RESENT k))) ∧
    (∀ (p : Pkt) (ecc : List Ecc), s.dev.laneSends k = true → s.dev.silenced = false → (s.dev.lane k).fifo = [p] → (s.dev.lane k).tx = 0 →
      p.released = false → (p.op ≤ 1 → s.dev.maySend p.tile p.dline = true) → Ecc.double ∈ ecc.take (Dev.pktWords p) →
      ∃ t, exec (.packetTransmit ⟨k, ecc⟩) s = .next t ∧ t.mem = s.mem ∧ t.pending = s.pending ∧ (t.dev.lane k).fifo = [] ∧
        s.dev.Counted t.dev (R.MVL_EXHAUSTED k)) ∧
    (∀ (p : Pkt) (ecc : List Ecc), s.dev.laneSends k = true → s.dev.silenced = false → (s.dev.lane k).fifo = [p] → (s.dev.lane k).tx = 0 →
      p.released = false → p.sends < 3 → s.dev.pastDeadline p.dead = false → p.op ≤ 1 → s.dev.maySend p.tile p.dline = false →
      ∃ t, exec (.packetTransmit ⟨k, ecc⟩) s = .next t ∧ s.Only [0x24] t ∧ t.dev.out = s.dev.out ∧ (t.dev.lane k).fifo = [p]) ∧
    (s.dev.laneSends k = false ∨ s.dev.silenced = true → ∀ ecc, exec (.packetTransmit ⟨k, ecc⟩) s = .next (s.withDev s.start))) ∧
  (∀ (s : State) (j : Fin 8), s.dev.off = false →
    (s.dev.rd (R.LNE_OCT_STATUS_MODE j) ≠ 0 → s.dev.rdb (R.LNE_OCT_STATUS_CHANGING j) = false →
      ∃ t, exec (.alignmentMarker j) s = .next t ∧ s.Only [] t ∧
        t.dev.out = (((Dev.octetLanes j).filter fun k => !s.dev.laneTested k).reverse.map fun k =>
          Out.forward k (linkBlocks (Config.idleScr k (s.dev.lane k).scr s.dev.now % 2 ^ 58)
            (padBlocks (Dev.markerBytes k (s.dev.octet j).mcount))).1) ++ s.dev.out ∧
        t.dev.octet j = { s.dev.octet j with mcount := ((s.dev.octet j).mcount + 1) % 2 ^ 32 }) ∧
    (s.dev.rd (R.LNE_OCT_STATUS_MODE j) = 0 ∨ s.dev.rdb (R.LNE_OCT_STATUS_CHANGING j) = true →
      exec (.alignmentMarker j) s = .next (s.withDev s.start))) ∧
  (∀ (s : State) (k : Fin 64), s.dev.off = false →
    (s.dev.laneSends k = true →
      ∃ t, exec (.vrRepeat k) s = .next t ∧ s.Only [] t ∧ (t.dev.lane k).fifo = (s.dev.lane k).fifo ∧
        (t.dev.lane k).vrs.length = (s.dev.lane k).vrs.length ∧
        ∀ v ∈ (s.dev.lane k).vrs, (∀ w, v.sent = some w → 4 ≤ diff32 s.dev.wtm.wln w) →
          (v.kind = 1 ∨ ∀ p ∈ (s.dev.lane k).fifo, p.tile = v.tile → p.released = true) →
          { v with sent := some s.dev.wtm.wln } ∈ (t.dev.lane k).vrs ∧
          ∃ r, Out.forward k (linkBlocks r (padBlocks (s.start.vrBytes v))).1 ∈ t.dev.out) ∧
    (s.dev.laneSends k = false → exec (.vrRepeat k) s = .next (s.withDev s.start)))

/-- Return packets (Table 10-6), in the blocks that carry them: an AK of a FIFO status releases every packet of its tile up to its
sequence number and ends the CT write that it covers (R291, R306); an NK of a packet that was sent makes it the next to go out, or is counted as ignored (R286, R287); a TL
stores telemetry unless it brings CT data, ends the CT read of its ADDR or is a reply to enumeration (R300, R306), and one whose FSEQ is not after the last
does neither (R299). A packet that fails its check is counted (R273, R294); one for the other end does nothing. -/
def Obligations.ReturnPacketsAct : Prop :=
  ∀ (s : State) (k : Fin 64) (bs : List Byte), s.dev.off = false → s.dev.NotComingUp k → s.dev.Listens k →
    (∀ c : Instr, (c = .akReceive k (s.dev.asBlocks k bs) ∨ c = .nkReceive k (s.dev.asBlocks k bs) ∨
        c = .tlReceive k (s.dev.asBlocks k bs) ∨ c = .returnPacketBad ⟨k, (s.dev.asBlocks k bs)⟩) →
      (bs.length = 16 → beAt bs 0 1 / 16 ≠ 0 → beAt bs 0 1 / 16 ≠ 10 → parseRet bs = none →
        ∃ t, exec c s = .next t ∧ s.Only [0x24] t ∧ s.dev.Counted t.dev (R.MVL_RX_BAD k)) ∧
      ∀ r : Ret, parseRet bs = some r → r.end_ ≠ s.dev.myEnd →
        ∃ t, exec c s = .next t ∧ s.Only [] t ∧ Lane.AsBut (t.dev.lane k) (s.dev.lane k)) ∧
    ∀ r : Ret, parseRet bs = some r → r.end_ = s.dev.myEnd → s.dev.EpochStands r →
      (r.type = 8 → r.status ≤ 3 →
        ∃ t, exec (.akReceive k (s.dev.asBlocks k bs)) s = .next t ∧ s.Only [4, 0x24] t ∧ (t.dev.tileLink r.tile).tileEpoch = r.epoch ∧
          (∀ (j : CtJob) (q : Nat), s.dev.link.ct = some j → j.tile = r.tile → j.op ≠ 2 → j.seq = some q → (r.seq + 65536 - q) % 65536 ≤ 32767 →
            t.dev.link.ct = none ∧ t.dev.rd R.MVL_CT_STATUS_BUSY = 0 ∧ t.dev.rd R.MVL_CT_STATUS_DONE = 1 ∧
            t.dev.rd R.MVL_CT_STATUS_ERROR = if r.status = 2 then 4 else 0) ∧
          ∀ p ∈ (t.dev.lane k).fifo, p.tile = r.tile → (r.seq + 65536 - p.seq) % 65536 ≤ 32767 → p.released = true) ∧
      (r.type = 8 → (r.status = 4 ∨ r.status = 5) →
        (∀ v ∈ (s.dev.lane k).vrs, v.tile = r.tile → v.sent = none) →
        ∃ t, exec (.akReceive k (s.dev.asBlocks k bs)) s = .next t ∧ s.Only [4, 0x24] t ∧ (t.dev.tileLink r.tile).tileEpoch = r.epoch ∧
          Lane.AsBut (t.dev.lane k) (s.dev.lane k) ∧
          t.dev.rd (R.MVL_VR_REFUSED k) = (if r.status = 5 then
            Nat.min (s.dev.rd (R.MVL_VR_REFUSED k) + 1) (2 ^ (R.MVL_VR_REFUSED k).width - 1) else s.dev.rd (R.MVL_VR_REFUSED k))) ∧
      (∀ v : Vr, r.type = 8 → r.status = 4 → (s.dev.lane k).vrs.find? (fun v => v.tile = r.tile && v.sent.isSome) = some v →
        v.kind = 0 → v.probe = false → s.dev.state = .live → s.dev.pair.refusing = false →
        ∃ t, exec (.akReceive k (s.dev.asBlocks k bs)) s = .next t ∧ s.Only [4, 0x24] t ∧ bit (t.dev.tileLink r.tile).own 0 = true ∧
          bit (t.dev.tileLink r.tile).own 2 = false ∧ ∀ x ∈ (t.dev.lane k).vrs, x.tile ≠ r.tile) ∧
      (r.type = 9 →
        ∃ t, exec (.nkReceive k (s.dev.asBlocks k bs)) s = .next t ∧ s.Only [4, 0x24] t ∧
          s.dev.Counted t.dev (R.MVL_NK_RX k) ∧
          (∀ (i : Nat) (p : Pkt), s.dev.findPkt k r.tile r.seq = some (i, p) → 0 < p.sends → p.sends < 3 →
            ((s.dev.lane k).tx ≤ i → (s.dev.lane k).upTo ≤ i) →
            (t.dev.lane k).fifo[(t.dev.lane k).tx]? = some p) ∧
          (s.dev.findPkt k r.tile r.seq = none → Lane.AsBut (t.dev.lane k) (s.dev.lane k) ∧
            s.dev.Counted t.dev (R.MVL_NK_IGNORED k))) ∧
      (r.type = 10 →
        ∃ t, exec (.tlReceive k (s.dev.asBlocks k bs)) s = .next t ∧ s.Only [4, 0x24] t ∧
          (s.dev.oldTl r = true → Lane.AsBut (t.dev.lane k) (s.dev.lane k) ∧ t.dev.link.ct = s.dev.link.ct ∧
            (t.dev.tileLink r.tile).temp = (s.dev.tileLink r.tile).temp ∧ (t.dev.tileLink r.tile).fseq = (s.dev.tileLink r.tile).fseq) ∧
          (s.dev.oldTl r = false → (t.dev.tileLink r.tile).fseq = r.seq) ∧
          (s.dev.oldTl r = false → r.status ≠ 1 →
            (t.dev.tileLink r.tile).temp = r.f.getD 0 0 ∧ (t.dev.tileLink r.tile).volt = r.f.getD 1 0 ∧
            (t.dev.tileLink r.tile).lost = r.f.getD 5 0) ∧
          (s.dev.oldTl r = false → r.status = 1 → ∀ j : CtJob, s.dev.link.ct = some j → j.tile = r.tile → j.op = 2 →
            j.addr = r.f.getD 0 0 →
            t.dev.rd R.MVL_CT_RDATA = (r.f.getD 1 0 * 65536 + r.f.getD 2 0) % 2 ^ 32 ∧ t.dev.link.ct = none ∧
            t.dev.rd R.MVL_CT_STATUS_DONE = 1 ∧ t.dev.rd R.MVL_CT_STATUS_BUSY = 0 ∧ t.dev.rd R.MVL_CT_STATUS_ERROR = 0) ∧
          (s.dev.oldTl r = false → r.status = 2 → ∀ (at_ : Time) (l : List (Nat × Nat)), (s.dev.lane k).enum = some ⟨some at_, l, false⟩ →
            (t.dev.lane k).enum = some ⟨some at_, l ++ [(r.tile, r.hops)], false⟩))

/-- What a return receiver takes, it takes as blocks, whatever its command is named after (R272). Out of lock, blocks with valid
headers complete 64 in a row and give lock, and one with another header begins the count anew. In lock, a block with an invalid
header, or one that continues no packet, is an error: it is counted, and lock is lost with the sixteenth among the last 64. In the
offset trim of a calibration run nothing is delivered (R328). The
return bits of a lane in far-end loopback go back on its forward lane (R323). ACK_TO, counted from the last transmission of the
oldest unacknowledged packet, makes that packet the next to go out (R286). Packets past their deadlines are released (R284), and a CT
past its own ends with ERROR 3 (R306). A
tile from which nothing came in STALE_WF wall frames is stale and its packets are released (R302). At the end of an enumeration, 1
ms and the return time of the chain after its KP, the lane is miswired unless every tile and no more answered from its place
(R300). -/
def Obligations.ReceiversAndLinkTimers : Prop :=
  (∀ (s : State) (k : Fin 64) (l : List (BitVec 130)), s.dev.off = false →
     (∀ c ∈ [Instr.tlReceive k l, .nkReceive k l, .returnPacketBad ⟨k, l⟩, .blockLockAcquired ⟨k, l⟩, .blockLockLost k l],
       exec c s = exec (.akReceive k l) s) ∧
     (s.dev.laneTested k = false → (s.dev.lane k).lock = false → (s.dev.lane k).good < 64 → (s.dev.lane k).good + l.length = 64 →
       (∀ b ∈ l, b.toNat / 2 ^ 128 = 1 ∨ b.toNat / 2 ^ 128 = 2) →
       ∃ t, exec (.blockLockAcquired ⟨k, l⟩) s = .next t ∧ s.Only [] t ∧ (t.dev.lane k).lock = true ∧ (t.dev.lane k).rx = none ∧
         (t.dev.lane k).errs = 0) ∧
     (∀ b : BitVec 130, s.dev.laneTested k = false → (s.dev.lane k).lock = false → b.toNat / 2 ^ 128 = 0 ∨ b.toNat / 2 ^ 128 = 3 →
       ∃ t, exec (.blockLockAcquired ⟨k, [b]⟩) s = .next t ∧ s.Only [] t ∧ (t.dev.lane k).lock = false ∧ (t.dev.lane k).good = 0) ∧
     (s.dev.laneTested k = false → (s.dev.lane k).pause.isSome = true →
       ∃ t, exec (.akReceive k l) s = .next t ∧ s.Only [] t ∧ (t.dev.lane k).fifo = (s.dev.lane k).fifo ∧ t.dev.tiles = s.dev.tiles ∧
         t.dev.link.ct = s.dev.link.ct) ∧
     (∀ b : BitVec 130, s.dev.laneTested k = false → (s.dev.lane k).lock = true → (s.dev.lane k).pause = none →
       (b.toNat / 2 ^ 128 = 0 ∨ b.toNat / 2 ^ 128 = 3 ∨ b.toNat / 2 ^ 128 = 1 ∧ (s.dev.lane k).rx = none) →
       ∃ t, exec (.blockLockLost k [b]) s = .next t ∧ s.Only [0x24] t ∧
         (t.dev.lane k).lock = decide (ones ((2 * (s.dev.lane k).errs + 1) % 2 ^ 64) < 16) ∧
         s.dev.SameBut [(R.MVL_BLOCK_ERR k).key] t.dev ∧ s.dev.Counted t.dev (R.MVL_BLOCK_ERR k)) ∧
     (s.dev.rd (R.LNE_LCTRL_TEST (k / 8) (k % 8)) = 3 → s.dev.laneMode k ≠ 0 →
       exec (.akReceive k l) s = .next (s.withDev (s.start.emit (.forwardBits k
         ((l.flatMap fun b => (List.range 130).map fun i => b.toNat.testBit (129 - i)).flatMap fun x =>
           List.replicate (if s.dev.laneMode k = 2 then 8 else 2) x)))))) ∧
  ((∀ (s : State) (k : Fin 64) (i : Nat) (p : Pkt), s.dev.off = false → s.dev.NotComingUp k → (s.dev.lane k).pause = none →
     ((s.dev.lane k).fifo.zipIdx.find? fun q => !q.1.released && decide (0 < q.1.sends)) = some (p, i) →
     ((s.dev.lane k).tx ≤ i → (s.dev.lane k).upTo ≤ i) →
     ∃ t, exec (.ackTimeout k) s = .next t ∧ s.Only [4, 0x24] t ∧
       p.lastSent + nanos (100 * Nat.max 10 (s.dev.lv R.MVL_ACK_TO)) ≤ t.dev.now ∧
       s.dev.Counted t.dev (R.MVL_ACK_TIMEOUT k) ∧
       (p.sends < 3 → (t.dev.lane k).fifo[(t.dev.lane k).tx]? = some p)) ∧
   (∀ (s : State) (k : Fin 64), s.dev.off = false → s.dev.NotComingUp k →
     ∃ t, exec (.packetDeadline k) s = .next t ∧ s.Only [4, 0x24] t ∧
       (∀ p ∈ (t.dev.lane k).fifo, s.dev.pastDeadline p.dead = true → p.released = true) ∧
       ∀ (j : CtJob) (pos : Nat), s.dev.link.ct = some j → s.dev.pastDeadline j.dead = true → s.dev.tilePlace j.tile = some (k.val, pos) →
         t.dev.link.ct = none ∧ t.dev.rd R.MVL_CT_STATUS_DONE = 1 ∧ t.dev.rd R.MVL_CT_STATUS_ERROR = 3) ∧
   (∀ (s : State) (tile : BitVec 12) (k pos : Nat) (heard : Nat × Time), s.dev.off = false →
     s.dev.tilePlace tile.toNat = some (k, pos) → k < 64 → (s.dev.link.heard.find? fun h => h.1 = tile.toNat) = some heard →
     s.dev.tileStale tile.toNat = false → s.dev.laneUp k = true →
     ∃ t, exec (.tileStale tile) s = .next t ∧ s.Only [4, 0x24] t ∧ t.dev.tileStale tile.toNat = true ∧
       heard.2 + Nat.max 1 (s.dev.lv R.MVL_STALE_WF) * s.dev.framePeriod ≤ t.dev.now ∧
       ∀ p ∈ (t.dev.lane k).fifo, p.tile = tile.toNat → p.released = true) ∧
   (∀ (s : State) (k : Fin 64) (at_ : Time) (l : List (Nat × Nat)), s.dev.off = false →
     (s.dev.lane k).enum = some ⟨some at_, l, false⟩ → s.dev.enumTiles k ≠ [] →
     (let found := l.map fun r => (r.1, s.dev.hopsPos k r.2)
      ∃ t, exec (.enumWindowEnd k) s = .next t ∧ s.Only [4, 0x24, 0x30, 0x31, 0x32, 0x33, 0x34, 0x35, 0x36, 0x37] t ∧
        at_ + millis 1 + s.dev.returnTime k ≤ t.dev.now ∧ t.dev.rd (R.MVL_LSTAT_FOUND k) = l.length % 2 ^ (R.MVL_LSTAT_FOUND k).width ∧
        t.dev.rdb (R.MVL_LSTAT_MISWIRED k)
          = !(decide (found.length = (s.dev.enumTiles k).length) && found.all (fun f => (s.dev.enumTiles k).any fun w => f = (w.1, (w.2 : Int)))
            && (s.dev.enumTiles k).all fun w => found.contains (w.1, (w.2 : Int))))))

/-- CT_CMD.GO (R306): while a CT is in progress it is refused with ERROR 1, and a tile that no lane that is up and rightly wired
reaches with ERROR 2, both with DONE set and BUSY 0; a CT that may be sent is in progress, with BUSY set and DONE and ERROR clear,
and waits for its lane's FIFO. Outside mirror mode. -/
def Obligations.ControlTransferStarts : Prop :=
  ∀ (s : State) (tile : BitVec 12) (c : Instr) (op : Nat), s.BusFree 0x240040 → s.dev.mirrorOn = false →
    (c = .ctWrite tile ∧ op = 1 ∨ c = .ctRead tile ∧ op = 2 ∨ c = .ctSetPosition tile ∧ op = 3) →
    (s.dev.link.ct.isSome = true →
      ∃ t, exec c s = .next t ∧ s.Only [0x24] t ∧ t.dev.rd R.MVL_CT_STATUS_ERROR = 1 ∧ t.dev.rd R.MVL_CT_STATUS_DONE = 1 ∧
        t.dev.rd R.MVL_CT_STATUS_BUSY = 0 ∧ t.dev.link = s.dev.link) ∧
    (s.dev.link.ct = none → s.dev.tilePlace tile.toNat = none →
      ∃ t, exec c s = .next t ∧ s.Only [0x24] t ∧ t.dev.rd R.MVL_CT_STATUS_ERROR = 2 ∧ t.dev.rd R.MVL_CT_STATUS_DONE = 1 ∧
        t.dev.rd R.MVL_CT_STATUS_BUSY = 0 ∧ t.dev.link = s.dev.link) ∧
    ∀ k pos : Nat, s.dev.link.ct = none → s.dev.tilePlace tile.toNat = some (k, pos) → k < 64 →
      s.dev.laneUp k = true → s.dev.rdb (R.MVL_LSTAT_MISWIRED k) = false → (op = 1 → s.dev.maySend tile.toNat s.dev.ctDline = true) →
      ∃ t, exec c s = .next t ∧ s.Only [0x24] t ∧ t.dev.out = .bus 0 false :: s.dev.out ∧
        t.dev.link.ct = some ⟨tile.toNat, op, s.dev.rd R.MVL_CT_ADDR_ADDR, s.dev.deadOf s.dev.ctDline, none⟩ ∧
        t.dev.rd R.MVL_CT_STATUS_BUSY = 1 ∧ t.dev.rd R.MVL_CT_STATUS_DONE = 0 ∧ t.dev.rd R.MVL_CT_STATUS_ERROR = 0 ∧
        ∃ f : Draft, (t.dev.lane k).wait = (s.dev.lane k).wait ++ [f] ∧ f.tile = tile.toNat ∧ f.op = op ∧
          f.dline = s.dev.ctDline ∧ f.dead = s.dev.deadOf s.dev.ctDline ∧ f.addr = s.dev.rd R.MVL_CT_ADDR_ADDR ∧
          f.data = (if op = 3 then pos else s.dev.rd R.MVL_CT_DATA_DATA)

/-- MODE_REQ asks an octet for a mode, 3 acting as 0 (R316): a mode other than the one in use starts a change, from idle by way of
training for reference mode. The steps of a change follow in their order and times; at its end MODE shows the mode and
MODE_CHANGES counts; in idle no lane is up; a change from idle begins enumeration, unless idle has been asked for meanwhile (R313,
R315, R316). -/
def Obligations.OctetsChangeModeInSteps : Prop :=
  ∀ (s : State) (j : Fin 8),
    (∀ m : BitVec 2, s.BusFree (0x300000 + 0x10000 * j.val) →
      (s.dev.rd (R.LNE_OCT_CTRL_MODE_REQ j) = m.toNat → exec (.modeReqWrite j m) s = .next (s.answered s.start 0 false)) ∧
      (s.dev.rd (R.LNE_OCT_CTRL_MODE_REQ j) ≠ m.toNat → (s.dev.octet j).step = 0 → (s.dev.octet j).enum = false →
        ∃ t, exec (.modeReqWrite j m) s = .next t ∧ s.Only [0x30 + j.val] t ∧ t.dev.out = .bus 0 false :: s.dev.out ∧
          t.dev.rd (R.LNE_OCT_CTRL_MODE_REQ j) = m.toNat ∧ (t.dev.octet j).goal = m.toNat % 3 ∧
          (m.toNat % 3 = s.dev.rd (R.LNE_OCT_STATUS_MODE j) → (t.dev.octet j).step = 0) ∧
          (m.toNat % 3 ≠ s.dev.rd (R.LNE_OCT_STATUS_MODE j) → t.dev.rd (R.LNE_OCT_STATUS_CHANGING j) = 1 ∧
            (t.dev.octet j).since = s.dev.now ∧
            if s.dev.rd (R.LNE_OCT_STATUS_MODE j) = 0 then (t.dev.octet j).step = 3 ∧ (t.dev.octet j).dest = 1
            else (t.dev.octet j).step = 1 ∧ (t.dev.octet j).dest = m.toNat % 3))) ∧
    (s.dev.off = false →
      ((s.dev.octet j).step = 1 → (s.dev.octet j).dest = 0 →
        ∃ t, exec (.octetIdleDrained j) s = .next t ∧ s.Only [4, 0x24, 0x30 + j.val] t ∧ t.dev.rd (R.LNE_OCT_STATUS_MODE j) = 0 ∧
          s.dev.Counted t.dev (R.LNE_MODE_CHANGES j) ∧
          (s.dev.octet j).since + 32 * Dev.blockTime (s.dev.rd (R.LNE_OCT_STATUS_MODE j)) ≤ t.dev.now ∧
          ∀ i : Fin 8, t.dev.laneUp (8 * j.val + i.val) = false) ∧
      ((s.dev.octet j).step = 1 → (s.dev.octet j).dest ≠ 0 →
        ∃ t, exec (.octetIdleDrained j) s = .next t ∧ s.Only [] t ∧ (t.dev.octet j).step = 2 ∧ (t.dev.octet j).since = t.dev.now ∧
          (s.dev.octet j).since + 32 * Dev.blockTime (s.dev.rd (R.LNE_OCT_STATUS_MODE j)) ≤ t.dev.now) ∧
      ((s.dev.octet j).step = 2 →
        ∃ t, exec (.octetFckStart j) s = .next t ∧ s.Only [] t ∧ (t.dev.octet j).step = 3 ∧ (t.dev.octet j).since = t.dev.now ∧
          (s.dev.octet j).since + micros 2 ≤ t.dev.now) ∧
      ((s.dev.octet j).step = 3 →
        ∃ t, exec (.octetTrainingEnd j) s = .next t ∧ s.Only [4, 0x30 + j.val] t ∧
          t.dev.rd (R.LNE_OCT_STATUS_MODE j) = (s.dev.octet j).dest % 4 ∧
          s.dev.Counted t.dev (R.LNE_MODE_CHANGES j) ∧
          (t.dev.octet j).mcount = 1 ∧ (s.dev.octet j).since + micros 50 ≤ t.dev.now ∧
          (s.dev.rd (R.LNE_OCT_STATUS_MODE j) = 0 → (s.dev.octet j).goal ≠ 0 → ∀ i : Fin 8, s.dev.laneUsed (8 * j.val + i.val) = true →
            (t.dev.lane (8 * j.val + i.val)).enum = some ⟨none, [], false⟩)) ∧
      ((s.dev.octet j).step = 0 → exec (.octetIdleDrained j) s = .next (s.withDev s.start) ∧
        exec (.octetFckStart j) s = .next (s.withDev s.start) ∧ exec (.octetTrainingEnd j) s = .next (s.withDev s.start)))

/-- A loopback test is refused with an error response on a lane that is up or changing mode, and on a paired device's pairing lanes
outside SAFE; else TEST and PRBS take the written values, and a generator's pattern leaves a lane that has a rate (R323, R324). A
column leaves each lane not under test (R321). A pairing lane aligns with the fourth column in a row at the spacing and loses
alignment with four symbols in error among 256; it shows both, with the logical number it carries, and the link is up only with
all four aligned and deskewed (R322). In far-end loopback the symbols go back after rate compensation, which drops or doubles a K28.0
at a column where a whole symbol has gathered (R322, R323). -/
def Obligations.LaneTestsAndPairingLanes : Prop :=
  (∀ (s : State) (k : Fin 64) (v : Word), s.BusFree (0x300100 + 0x10000 * (k.val / 8) + 0x40 * (k.val % 8)) →
    (let used := s.dev.laneUp k || s.dev.laneChanging k
     let test := v.toNat / 256 % 8
     (1 ≤ test → test ≤ 4 → used = true →
       ∃ t, exec (.laneTestWrite (some k) v) s = .next t ∧ s.Only [4] t ∧ t.dev.out = .bus 0 true :: s.dev.out) ∧
     ((test = 0 ∨ 5 ≤ test ∨ used = false) →
       ∃ t, exec (.laneTestWrite (some k) v) s = .next t ∧ s.Only [0x30 + k.val / 8] t ∧
         t.dev.out = .bus 0 false :: ((if s.dev.laneMode k ≠ 0 ∧ (test = 1 ∨ test = 2 ∨ test = 4) then
           [Out.pattern false k (v.toNat / 16 % 4)] else []) ++ s.dev.out) ∧
         t.dev.rd (R.LNE_LCTRL_TEST (k.val / 8) (k.val % 8)) = test ∧
         t.dev.rd (R.LNE_LCTRL_PRBS (k.val / 8) (k.val % 8)) = v.toNat / 16 % 4))) ∧
  (∀ (s : State) (v : Word), s.BusFree 0x380000 →
    (let test := v.toNat / 256 % 8
     let used := s.dev.rdb R.TOP_STATE_PAIRED && s.dev.state ≠ .safe
     (1 ≤ test → test ≤ 4 → used = true →
       ∃ t, exec (.laneTestWrite none v) s = .next t ∧ s.Only [4] t ∧ t.dev.out = .bus 0 true :: s.dev.out) ∧
     ((test = 0 ∨ 5 ≤ test ∨ used = false) →
       ∃ t, exec (.laneTestWrite none v) s = .next t ∧ s.Only [4, 7, 0x38] t ∧
         t.dev.rd R.PAIR_CTRL_TEST = test ∧ t.dev.rd R.PAIR_CTRL_PRBS = v.toNat / 16 % 4 ∧
         (1 ≤ test → test ≤ 4 → t.dev.pathUp = false)))) ∧
  (∀ s : State, s.dev.off = false →
    exec .alignmentColumnSend s
      = .next (s.withDev (if Dev.testOn (s.dev.rd R.PAIR_CTRL_TEST) then s.start else s.start.emit (.column alignColumn)))) ∧
  ∀ (s : State) (p : Fin 4) (skew : Nat) (ahead : Int), s.dev.off = false →
    (∀ syms, exec (.pairAlignmentLost p syms ⟨skew, ahead⟩) s = exec (.pairLaneAligned p syms ⟨skew, ahead⟩) s) ∧
    (s.dev.rd R.PAIR_CTRL_TEST = 3 →
      (∀ b : Byte, (s.dev.plane1 p).slot.getD 0 % 1024 ≠ 2 →
        ∃ t, exec (.pairLaneAligned p [.data b] ⟨skew, ahead⟩) s = .next t ∧ s.Only [4, 7, 0x38] t ∧
          Out.pairSyms p [.data b] ∈ t.dev.out) ∧
      (let l := s.dev.plane1 p
       let gained := s.dev.plane.ahead + ahead
       let turn : Int := if l.num ≠ 0 then 0 else if 1 ≤ gained then 1 else if gained ≤ -1 then -1 else 0
       s.dev.pairReady = true → s.dev.pairMap p = l.num → skew ≤ 16 → l.slot = some 2 → l.miss = 0 → ones256 (2 * l.errs % 2 ^ 256) < 4 →
        ∃ t, exec (.pairLaneAligned p [.k280] ⟨skew, ahead⟩) s = .next t ∧ s.Only [4, 7, 0x38] t ∧
          Out.pairSyms p (if 1 ≤ l.slip + turn then [] else if l.slip + turn ≤ -1 then [.k280, .k280] else [.k280]) ∈ t.dev.out ∧
          (turn = 1 → s.dev.Counted t.dev R.PAIR_COMP_DROP) ∧ (turn = -1 → s.dev.Counted t.dev R.PAIR_COMP_ADD))) ∧
    (∀ logical : Fin 4, bit (s.dev.rd R.PAIR_STATUS_ALIGNED) p = false →
      (s.dev.plane1 p).slot = some 1023 → (s.dev.plane1 p).cols = 3 →
      ∃ t, exec (.pairLaneAligned p [.k285, .data (BitVec.ofNat 8 logical), .k280, .k280] ⟨skew, ahead⟩) s = .next t ∧
        s.Only [4, 7, 0x38] t ∧ bit (t.dev.rd R.PAIR_STATUS_ALIGNED) p = true ∧ t.dev.pairMap p = logical.val ∧
        (t.dev.rd R.PAIR_STATUS_ALIGNED ≠ 15 ∨ 16 < skew → t.dev.pathUp = false)) ∧
    (bit (s.dev.rd R.PAIR_STATUS_ALIGNED) p = true → (s.dev.plane1 p).errs = 0 → (s.dev.plane1 p).miss = 0 →
      ∃ t, exec (.pairAlignmentLost p [.code, .code, .code, .code] ⟨skew, ahead⟩) s = .next t ∧ s.Only [4, 7, 0x38] t ∧
        bit (t.dev.rd R.PAIR_STATUS_ALIGNED) p = false ∧ t.dev.pathUp = false ∧
        s.dev.Counted t.dev R.PAIR_REALIGN ∧ s.dev.Counted t.dev R.PAIR_CODE_ERR 4)

/-- A request for calibration queues the unit or units that it names, each once (R326, R327): the lanes that are up, the camera ports,
the DRAM channels; a retry that falls due queues its unit (R331). A queued unit runs when its turn and its time come: RESULT is 4,
a return lane's receiver delivers nothing and its ACK_TO stands still (R328), a camera port's run comes 10 µs after VS rises
(R329), a DRAM channel's 100 µs after the last channel's (R330). -/
def Obligations.CalibrationQueuesAndStarts : Prop :=
  (∀ (s : State) (k : Fin 64), s.BusFree (0x300100 + 0x10000 * (k.val / 8) + 0x40 * (k.val % 8)) → ¬ s.dev.CalDue ⟨0, k⟩ →
    ∃ t, exec (.lctrlGo k) s = .next t ∧ s.Only [0x30 + k.val / 8] t ∧ t.dev.calib.queue = s.dev.calib.queue ++ [⟨0, k⟩] ∧
      t.dev.rd (R.LNE_CAL_STATUS_RESULT (k.val / 8) (k.val % 8)) = 5) ∧
  (∀ (s : State) (n : Fin 8), s.BusFree (0x100200 + 0x10000 * n.val) → ¬ s.dev.CalDue ⟨1, n⟩ →
    ∃ t, exec (.camCalGo n) s = .next t ∧ s.Only [] t ∧ t.dev.calib.queue = s.dev.calib.queue ++ [⟨1, n⟩]) ∧
  (∀ s : State, s.BusFree 0x1080C →
    (∃ t, exec .calReqRx s = .next t ∧ s.Only [0x30, 0x31, 0x32, 0x33, 0x34, 0x35, 0x36, 0x37] t ∧
      s.dev.calib.queue <+: t.dev.calib.queue ∧ ∀ k : Fin 64, s.dev.laneUp k = true → t.dev.CalDue ⟨0, k⟩) ∧
    (∃ t, exec .calReqCam s = .next t ∧ s.Only [] t ∧ s.dev.calib.queue <+: t.dev.calib.queue ∧
      ∀ n : Fin 8, t.dev.CalDue ⟨1, n⟩) ∧
    ∃ t, exec .calReqDram s = .next t ∧ s.Only [0x50, 0x51, 0x52, 0x53] t ∧ s.dev.calib.queue <+: t.dev.calib.queue ∧
      ∀ c : Fin 32, t.dev.CalDue ⟨2, c⟩) ∧
  (∀ (s : State) (k : Fin 64), s.dev.off = false → (⟨0, k⟩ : CalUnit) ∈ s.dev.calib.queue →
    (∀ u ∈ s.dev.calib.queue, u.kind = 0 → u.n / 8 = k.val / 8 → k.val ≤ u.n) →
    (∀ r ∈ s.dev.calib.runs, r.unit.kind = 0 → r.unit.n / 8 ≠ k.val / 8) → s.dev.laneChanging k = false →
    ∃ t, exec (.rxCalStart k) s = .next t ∧ s.Only [0x30 + k.val / 8] t ∧
      t.dev.calRun ⟨0, k⟩ = some ⟨⟨0, k⟩, 0, t.dev.now, t.dev.now, 0, 0, 0, false⟩ ∧
      t.dev.calib.queue = s.dev.calib.queue.erase ⟨0, k⟩ ∧
      t.dev.rd (R.LNE_CAL_STATUS_RESULT (k.val / 8) (k.val % 8)) = 4 ∧
      t.dev.lane k = { s.dev.lane k with lock := false, pause := some t.dev.now }) ∧
  (∀ (s : State) (n : Fin 8) (rise : Time), s.dev.off = false → (⟨1, n⟩ : CalUnit) ∈ s.dev.calib.queue →
    (s.dev.cam n).lastRise = some rise → (s.dev.cam n).vs = true → s.dev.camCalOk n = true →
    ∃ t, exec (.camCalStart n) s = .next t ∧ s.Only [4, 0x10 + n.val] t ∧
      t.dev.calRun ⟨1, n⟩ = some ⟨⟨1, n⟩, 0, t.dev.now, t.dev.now, 0, 0, 0, false⟩ ∧ rise + micros 10 ≤ t.dev.now ∧
      t.dev.rd (R.CAM_CAL_STATUS_RESULT n) = 4 ∧ t.dev.rdb (R.CAM_CAL_STATUS_STARVED n) = false) ∧
  (∀ (s : State) (c : Fin 32), s.dev.off = false → (⟨2, c⟩ : CalUnit) ∈ s.dev.calib.queue →
    (∀ u ∈ s.dev.calib.queue, u.kind = 2 → c.val ≤ u.n) → (∀ r ∈ s.dev.calib.runs, r.unit.kind ≠ 2) →
    ∃ t, exec (.dramCalWindow c) s = .next t ∧ s.Only [0x50 + c.val / 8] t ∧
      t.dev.calRun ⟨2, c⟩ = some ⟨⟨2, c⟩, 0, t.dev.now, t.dev.now, 0, 0, 0, false⟩ ∧ s.dev.calib.dramAt + micros 100 ≤ t.dev.now ∧
      t.dev.rd (R.DRM_CALR_RESULT (c.val / 8) (c.val % 8)) = 4) ∧
  ∀ (s : State) (kind : CalKind) (n : Fin 64) (r : CalUnit × Time), s.dev.off = false →
    (s.dev.calib.retry.find? fun r => r.1 = calUnit kind n) = some r →
    ∃ t, exec (.calRetry kind n) s = .next t ∧ t.mem = s.mem ∧ t.pending = s.pending ∧ r.2 ≤ t.dev.now ∧
      t.dev.CalDue (calUnit kind n) ∧ ∀ x ∈ t.dev.calib.retry, x.1 ≠ calUnit kind n

/-- A return run goes from its offset trim, which ends by releasing the receiver, to its eye scan and its residual check (R328). A run
that comes to its end within 2 ms is good only without errors, without a loss of lock or clock, and with every eye as wide as
CAL_MIN_EYE asks; a run that passes 2 ms is bad and counted in TIMEOUTS. Either way the run is over, RESULT is 1 or 2, and
RUNS_GOOD or RUNS_BAD counts it; a first bad run is tried again after CAL_RETRY_MS where RETRIES allows it (R331). -/
def Obligations.CalibrationRunsAdvanceAndEnd : Prop :=
  (∀ (s : State) (k : Fin 64) (dt : Nat) (ph thr : BitVec 64) (errs : Word) (r : CalRun), s.dev.off = false →
    s.dev.calRun ⟨0, k⟩ = some r →
    ∃ t, exec (.rxCalPhaseDone k dt ph thr errs) s = .next t ∧ s.Only [0x30 + k.val / 8] t ∧
      (r.phase = 0 → t.dev.calRun ⟨0, k⟩ = some { r with phase := 1, at_ := t.dev.now } ∧ (t.dev.lane k).pause = none ∧
        t.dev.now ≤ Nat.max s.dev.now (r.at_ + micros 40)) ∧
      (r.phase = 1 → t.dev.calRun ⟨0, k⟩ = some { r with phase := 2, at_ := t.dev.now, ph := ph.toNat, thr := thr.toNat } ∧
        r.at_ + scanTime ≤ t.dev.now ∧ ((Dev.eye ph.toNat).1 < 64 →
          t.dev.rd (R.LNE_CAL_STATUS_EYE_W (k.val / 8) (k.val % 8)) = (Dev.eye ph.toNat).1)) ∧
      (r.phase = 2 → t.dev.calRun ⟨0, k⟩ = some { r with phase := 3, at_ := t.dev.now, errs := errs.toNat } ∧
        r.at_ + scanTime ≤ t.dev.now ∧ t.dev.rd (R.LNE_RESIDUAL (k.val / 8) (k.val % 8)) = errs.toNat)) ∧
  (∀ (s : State) (kind : CalKind) (n : Fin 64) (clean : List (BitVec 64)) (errs : Word) (kept : Bool) (r : CalRun),
    s.dev.off = false → s.dev.calRun (calUnit kind n) = some r → s.dev.now ≤ r.start + millis 2 →
    (let good := match kind with
       | .rx => r.lost = false ∧ r.phase = 3 ∧ r.errs = 0 ∧ s.dev.rd R.CLK_CAL_MIN_EYE_RX_PHASE ≤ (Dev.eye r.ph).1 ∧
           s.dev.rd R.CLK_CAL_MIN_EYE_RX_THR ≤ (Dev.eye r.thr).1
       | .cam => r.lost = false ∧ errs.toNat = 0 ∧ s.dev.rd R.CLK_CAL_MIN_EYE_CAM ≤ 64 ∧
           ∀ i : Fin 32, s.dev.rd R.CLK_CAL_MIN_EYE_CAM ≤ (Dev.eye ((clean.map BitVec.toNat).getD i 0)).1
       | .dram => r.lost = false ∧ errs.toNat = 0 ∧ s.dev.rd R.CLK_CAL_MIN_EYE_DRAM ≤ 64 ∧
           ∀ i : Fin 32, s.dev.rd R.CLK_CAL_MIN_EYE_DRAM ≤ (Dev.eye ((clean.map BitVec.toNat).getD i 0)).1
     ∃ t, exec (.calRunDone kind n clean errs kept) s = .next t ∧ t.mem = s.mem ∧ t.pending = s.pending ∧
       t.dev.calRun (calUnit kind n) = none ∧
       (kept = true ∧ good → t.dev.calResult (calUnit kind n) = 1 ∧
         s.dev.Counted t.dev R.CLK_RUNS_GOOD) ∧
       (¬ (kept = true ∧ good) → t.dev.calResult (calUnit kind n) = 2 ∧
         s.dev.Counted t.dev R.CLK_RUNS_BAD))) ∧
  ∀ (s : State) (kind : CalKind) (n : Fin 64) (r : CalRun), s.dev.off = false → s.dev.calRun (calUnit kind n) = some r →
    ∃ t, exec (.calRunTimeout kind n) s = .next t ∧ t.mem = s.mem ∧ t.pending = s.pending ∧ t.dev.calRun (calUnit kind n) = none ∧
      r.start + millis 2 ≤ t.dev.now ∧ t.dev.calResult (calUnit kind n) = 2 ∧
      s.dev.Counted t.dev R.CLK_TIMEOUTS ∧
      s.dev.Counted t.dev R.CLK_RUNS_BAD ∧
      (s.dev.calib.bad.find? (fun b => b.1 = calUnit kind n) = none → 1 ≤ s.dev.rd R.CLK_CAL_CFG_RETRIES →
        (calUnit kind n, t.dev.now + millis (s.dev.rd R.CLK_CAL_RETRY_MS)) ∈ t.dev.calib.retry)

/-- Beats, in a frame or in Manchester code (R336, R338, R339): what is no word of the right kind does nothing; one that fails its
CHECK is counted; another stands in PARTNER_STATE and PARTNER_EPOCH, and before line ⌊L_T / 4⌋ it is a received beat of its path,
which pairs the devices. In COLD with role selection open it lets the device that rule 2 chooses enter LIVE; PAIR_WAIT lets a
device enter LIVE that has heard no beat. -/
def Obligations.BeatsPairAndSelectRoles : Prop :=
  (∀ (s : State) (pathB : Bool) (bytes : List Byte) (rx : WordRx) (w : BitVec 128), wordRx pathB bytes = rx →
    s.dev.inService = true → (onPin rx = true ∨ s.dev.pathUp = true) →
    (rxWord 1 rx = none → exec (.beatReceive pathB bytes) s = .next (s.withDev s.start)) ∧
    (rxWord 2 rx = none → exec (.yieldWordReceive pathB bytes) s = .next (s.withDev s.start)) ∧
    (rxWord 1 rx = some w → beatParse w = none → exec (.beatReceive pathB bytes) s = .next (s.withDev (s.start.cnt R.VEER_BEAT_BAD))) ∧
    (rxWord 2 rx = some w → beatParse w = none → exec (.yieldWordReceive pathB bytes) s = .next (s.withDev (s.start.cnt R.VEER_BEAT_BAD))) ∧
    (∀ b : Beat, rxWord 1 rx = some w → beatParse w = some (1, b) → ¬ (s.dev.state = .live ∧ b.windward = true) →
      (s.dev.state ≠ .cold ∨ s.dev.pair.selecting = false ∧ s.dev.pair.gaveUp = false) →
      ∃ t, exec (.beatReceive pathB bytes) s = .next t ∧ s.Only [0, 4, 7] t ∧
        t.dev.rd R.VEER_STATUS_PARTNER_STATE = b.state % 16 ∧ t.dev.rd R.VEER_PARTNER_EPOCH = b.epoch % 2 ^ 32 ∧
        t.dev.pair.partner = some b ∧
        (s.dev.line < s.dev.lt / 4 → t.dev.rdb R.TOP_STATE_PAIRED = true ∧
          (if onPin rx then t.dev.pair.gotB else t.dev.pair.gotA) = true)) ∧
    ∀ b : Beat, rxWord 1 rx = some w → beatParse w = some (1, b) → s.dev.state = .cold → s.dev.pair.selecting = true → b.windward = false →
      s.dev.winsRole b = some true → s.dev.MayBecomeWindward →
      ∃ t, exec (.beatReceive pathB bytes) s = .next t ∧ t.mem = s.mem ∧ t.pending = s.pending ∧ t.dev.state = .live ∧
        t.dev.epoch = s.dev.nextEpoch ∧ t.dev.pair.selecting = false) ∧
  ∀ s : State, s.dev.state = .cold → s.dev.pair.selecting = true → s.dev.pair.gaveUp = false → s.dev.pair.partner = none →
    ∃ t, exec .pairWaitExpiry s = .next t ∧ t.mem = s.mem ∧ t.pending = s.pending ∧
      s.dev.pair.coldAt + millis 50 ≤ t.dev.now ∧
      (s.dev.MayBecomeWindward → t.dev.state = .live ∧ t.dev.epoch = s.dev.nextEpoch ∧ t.dev.pair.alone = true) ∧
      (s.dev.mayGoLive = false → t.dev.state = .cold ∧ t.dev.pair.alone = true)

/-- A path on which three beats were missed while the other receives has an episode (R340). Three frames missed on both paths, and a
yield that the partner shows on its pin or by a word, end the pairing: a device in LIVE stays in LIVE, and another one takes over
where it may enter LIVE (R340, R343, R353). A device alone whose claims stay refused for CLAIM_GIVEUP gives up and enters COLD
(R356). -/
def Obligations.PartnerLossAndTakeover : Prop :=
  (∀ (s : State) (pathB : Bool), s.dev.inService = true → s.dev.rdb R.TOP_STATE_PAIRED = true →
    s.dev.rdb (if pathB then R.VEER_STATUS_PATH_B else R.VEER_STATUS_PATH_A) = false →
    3 ≤ (if pathB then s.dev.pair.missB else s.dev.pair.missA) → (if pathB then s.dev.pair.missA else s.dev.pair.missB) = 0 →
    ∃ t, exec (.pathFault pathB) s = .next t ∧ s.Only [4, 7] t ∧
      t.dev.rdb (if pathB then R.VEER_STATUS_PATH_B else R.VEER_STATUS_PATH_A) = true ∧
      s.dev.Counted t.dev (if pathB then R.VEER_PATH_B_FAULTS else R.VEER_PATH_A_FAULTS)) ∧
  (∀ (s : State) (c : Instr), s.dev.inService = true →
    (c = .partnerFailed ∧ s.dev.rdb R.TOP_STATE_PAIRED = true ∧ 3 ≤ s.dev.pair.missA ∧ 3 ≤ s.dev.pair.missB ∧
        (s.dev.pair.partner.map Beat.windward).getD false = true ∨
      c = .yieldPin ∧ s.dev.rdb R.TOP_STATE_PAIRED = true ∧ s.dev.pair.failed = false ∨
      (∃ (pathB : Bool) (bytes : List Byte) (rx : WordRx) (w : BitVec 128) (b : Beat), wordRx pathB bytes = rx ∧
        c = .yieldWordReceive pathB bytes ∧ (onPin rx = true ∨ s.dev.pathUp = true) ∧
        rxWord 2 rx = some w ∧ beatParse w = some (2, b) ∧ s.dev.pair.failed = false)) →
    ∃ t, exec c s = .next t ∧ t.mem = s.mem ∧ t.pending = s.pending ∧ t.dev.rdb R.TOP_STATE_PAIRED = false ∧
      t.dev.pair.failed = true ∧ t.dev.rdb R.VEER_STATUS_SYNCED = false ∧
      (c ≠ .partnerFailed → s.dev.Counted t.dev R.VEER_PARTNER_YIELDS) ∧
      (s.dev.state = .live → t.dev.state = .live ∧ t.dev.epoch = s.dev.epoch) ∧
      (s.dev.state ≠ .live → s.dev.MayBecomeWindward → t.dev.state = .live ∧ t.dev.epoch = s.dev.nextEpoch ∧
        s.dev.Counted t.dev R.VEER_TAKEOVERS) ∧
      (s.dev.mayGoLive = false → t.dev.state = s.dev.state)) ∧
  (∀ s : State, s.dev.off = false → s.dev.rdb R.TOP_STATE_PAIRED = false → exec .yieldPin s = .next (s.withDev s.start)) ∧
  ∀ s : State, s.dev.state = .live → s.dev.pair.alone = true → s.dev.pair.refSince.isSome = true →
    ∃ t, exec .claimGiveup s = .next t ∧ t.mem = s.mem ∧ t.pending = s.pending ∧ t.dev.state = .cold ∧
      s.dev.Counted t.dev R.VEER_CLAIM_GIVEUPS ∧ s.dev.pair.liveAt + millis 100 ≤ t.dev.now ∧
      (s.dev.pair.refusing = false → t.dev.pair.gaveUp = true)

/-- A state frame of the partner is taken when it is the next one (R347): SEQ goes on by one, and the frame goes into its cut's CRC
(R349); the last frame of a base completes it; a gap is answered with an ACK of the last frame before it, and a frame whose CRC or
LEN is wrong is discarded (R346). A cut that finds a base, a version and its CRC right is applied and makes the device SYNCED
(R348, R349); without a cut for two frames it is not (R349). A device that is not windward keeps the decisions of COMMIT frames on lines
to come (R351). An ACK
drops the frames it covers, and one that answers a gap has those kept sent again (R347). In mirror mode two counted frames in a
row whose signatures differ end the mode (R352). A windward takes the telemetry of its partner's tiles (R25). -/
def Obligations.PairingStreamIsTaken : Prop :=
  (∀ (s : State) (bytes : List Byte), s.dev.off = false → openFrame bytes = none →
    (∀ h e body, bytes = withCrc h e → exec (.stateFrameReceive h e body) s = .next (s.withDev s.start)) ∧
    (∀ crc c, exec (.cutReceive bytes crc c) s = .next (s.withDev s.start)) ∧
    (∀ h e line groups, bytes = withCrc h e → exec (.commitFrameReceive h e line groups) s = .next (s.withDev s.start)) ∧
    (∀ seq gap, exec (.ackFrameReceive ⟨bytes, seq, gap⟩) s = .next (s.withDev s.start)) ∧
    (∀ sig wln, exec (.sigFrameReceive bytes ⟨sig, wln⟩) s = .next (s.withDev s.start)) ∧
    (∀ q, exec (.requestFrameReceive ⟨bytes, q⟩) s = .next (s.withDev s.start)) ∧
    ∀ x, exec (.telemFrameReceive ⟨bytes, x⟩) s = .next (s.withDev s.start)) ∧
  (∀ (s : State) (bytes : List Byte) (f : PairFrame), s.dev.state ≠ .live →
    (let went : PairPart := { s.dev.pair with rxSeq := (f.seq + 1) % 2 ^ 32, rxCrc := Dev.cutCrc s.dev.pair.rxCrc f }
     (∀ h e body, bytes = withCrc h e → s.Hears [stateType body] bytes f →
       (∀ last, f.seq = s.dev.pair.rxSeq → body = .base last → ∃ t, exec (.stateFrameReceive h e body) s = .next t ∧ s.Only [] t ∧
         t.dev.pair = { went with based := if last then true else s.dev.pair.based }) ∧
       (f.seq = s.dev.pair.rxSeq → (body = .delta ∨ s.dev.mirrored = false ∧ ∃ w, body = .mirror w) →
         ∃ t, exec (.stateFrameReceive h e body) s = .next t ∧ s.Only [] t ∧ t.dev.pair = went) ∧
       (f.seq ≠ s.dev.pair.rxSeq → 0 ≤ diff32 f.seq s.dev.pair.rxSeq →
         exec (.stateFrameReceive h e body) s = .next (s.withDev (s.start.emit (s.sends (.ack s.dev.lastSeq true)))))) ∧
     (∀ (crc : Word) (c : Ckpt), s.Hears [0x12] bytes f → f.seq = s.dev.pair.rxSeq →
       (let whole := crc.toNat = Nat.xor s.dev.pair.rxCrc 0xFFFFFFFF
        ((s.dev.pair.based = false ∨ s.dev.pair.version = none ∨ ¬ whole) → ∃ t, exec (.cutReceive bytes crc c) s = .next t ∧ s.Only [] t ∧
          t.dev.pair = went) ∧
        (s.dev.pair.based = true → s.dev.pair.version.isSome = true → whole →
          ∃ t, exec (.cutReceive bytes crc c) s = .next t ∧ t.mem = s.mem ∧ t.pending = s.pending ∧
            t.dev.rdb R.VEER_STATUS_SYNCED = true ∧ t.dev.rd R.VEER_CUT_AGE = 0 ∧ s.dev.Counted t.dev R.VEER_CUTS ∧
            t.dev.epoch = c.veer % 2 ^ 32 ∧ t.dev.cue.stored = c.stored ∧ t.dev.cal.entries = c.cal.entries ∧ t.dev.pair.cut = some c ∧
            (s.dev.mirrored = true → t.dev.live = s.dev.live ∧ t.dev.tbl = s.dev.tbl) ∧
            (s.dev.mirrored = false → t.dev.live = c.live ∧ t.dev.comm = c.comm ∧ t.dev.tbl.tables = c.tables ∧
              t.dev.clr.luts = c.luts ∧ t.dev.cmp.coefs = c.coefs ∧ t.dev.scn.ratio = c.ratio)))) ∧
     ∀ (h : List Byte) (e line : Word) (groups : Byte), bytes = withCrc h e → s.Hears [0x14] bytes f →
       f.seq = s.dev.pair.rxSeq →
       ∃ t, exec (.commitFrameReceive h e line groups) s = .next t ∧ s.Only [] t ∧
         t.dev.pair = { went with decided := (line.toNat, groups.toNat) ::
           s.dev.pair.decided.filter fun p => decide (0 < diff32 p.1 s.dev.wtm.wln) })) ∧
  (∀ s : State, s.dev.inService = true → s.dev.state ≠ .live → s.dev.pathUp = true → s.dev.rdb R.TOP_STATE_PAIRED = true →
    exec .ackFrameSend s = .next (s.withDev (s.start.emit (s.sends (.ack s.dev.lastSeq false))))) ∧
  (∀ s : State, s.dev.inService = true → s.dev.state ≠ .live → s.dev.rdb R.VEER_STATUS_SYNCED = true →
    ∃ t, exec .checkpointTimeout s = .next t ∧ s.Only [7] t ∧ t.dev.rdb R.VEER_STATUS_SYNCED = false ∧
      s.dev.pair.cutAt + 2 * s.dev.framePeriod ≤ t.dev.now) ∧
  (∀ (s : State) (bytes : List Byte) (f : PairFrame) (seq : Word) (gap : Bool), s.Hears [3] bytes f →
    (let left := s.dev.pair.kept.filter fun k => decide (0 < diff32 k.frame.seq seq.toNat)
     ∃ t, exec (.ackFrameReceive ⟨bytes, seq, gap⟩) s = .next t ∧ s.Only [7] t ∧ t.dev.pair = { s.dev.pair with kept := left } ∧
       (gap = false → t.dev.out = s.dev.out) ∧
       (gap = true → s.dev.Counted t.dev R.VEER_RESENDS left.length ∧
         t.dev.out = (left.map fun k => Out.pairFrame k.frame k.body (frameLanes k.frame)).reverse ++ s.dev.out))) ∧
  (∀ (s : State) (bytes : List Byte) (f : PairFrame) (sig wln : Word) (mine : Nat × Nat × Bool), s.dev.state = .warm →
    s.Hears [4] bytes f → s.dev.rdb R.VEER_STATUS_MIRROR = true → (∀ p ∈ s.dev.pair.sigsHis, p.1 ≠ wln.toNat) →
    s.dev.pair.sigsOwn.find? (fun p => p.1 = wln.toNat) = some mine → mine.2.2 = true →
    ∃ t, exec (.sigFrameReceive bytes ⟨sig, wln⟩) s = .next t ∧ s.Only [4, 7, 0x42] t ∧
      (wln.toNat, sig.toNat) ∈ t.dev.pair.sigsHis ∧
      (mine.2.1 = sig.toNat → t.dev.pair.mism = 0 ∧ t.dev.rdb R.VEER_STATUS_MIRROR = true) ∧
      (mine.2.1 ≠ sig.toNat → s.dev.pair.mism = 0 → t.dev.pair.mism = 1 ∧ t.dev.rdb R.VEER_STATUS_MIRROR = true) ∧
      (mine.2.1 ≠ sig.toNat → 1 ≤ s.dev.pair.mism → t.dev.rdb R.VEER_STATUS_MIRROR = false ∧
        t.dev.rdb R.VEER_STATUS_SYNCED = false ∧ s.dev.Counted t.dev R.VEER_MIRROR_LOST)) ∧
  ∀ (s : State) (bytes : List Byte) (f : PairFrame) (x : TileLink), s.dev.state = .live → s.Hears [0x20] bytes f →
    ∃ t, exec (.telemFrameReceive ⟨bytes, x⟩) s = .next t ∧ s.Only [] t ∧
      t.dev.tileLink x.id = { s.dev.tileLink x.id with
        tileOwn := x.tileOwn, tileEpoch := x.tileEpoch, fseq := x.fseq, temp := x.temp, volt := x.volt, curr := x.curr, dead := x.dead,
        crcErr := x.crcErr, lost := x.lost, tlWln := x.tlWln } ∧
      ∀ i, i ≠ x.id → t.dev.tileLink i = s.dev.tileLink i

/-- Veer requests (R357): the windward refuses one with the code of the first condition that does not hold, or enters the VEER entry
for line 0 of the frame that begins VEER_FRAMES frames after the next boundary; a leeward passes it on. Requests of the partner
act as R350 and R357 to R366 say. A segment whose lane has shown no stale tile for HEAL_S is handed back (R365); a healthy leeward
with HOME_EN asks for a veer after HOME_S (R366). -/
def Obligations.VeerAndSplitRequests : Prop :=
  (∀ (s : State) (c : Instr), s.dev.state = .live →
    (c = .firmwareVeerReq ∧ s.BusFree 0x70030 ∨
      ∃ bytes f, (c = .requestFrameReceive ⟨bytes, .veer⟩ ∨ c = .requestFrameReceive ⟨bytes, .homing⟩) ∧ s.Hears [5] bytes f) →
    (s.dev.veerCheck ≠ 0 → ∃ t, exec c s = .next t ∧ s.Only [4, 7] t ∧
      t.dev.rd R.VEER_STATUS_LAST_REFUSE = s.dev.veerCheck % 256 ∧ t.dev.cal = s.dev.cal) ∧
    (s.dev.veerCheck = 0 → s.dev.calCheck s.dev.veerLine 3 0 (s.dev.epoch + 1) 0 = 0 → ∃ t, exec c s = .next t ∧ s.Only [2] t ∧
      t.dev.cal = { s.dev.cal with entries := s.dev.cal.entries ++
        [⟨s.dev.veerLine % 2 ^ 48, 3, 0, 0, s.dev.epoch + 1, 0, decide (s.start.ahead48 s.dev.veerLine ≤ 0)⟩] })) ∧
  (∀ s : State, s.dev.inService = true → s.dev.state ≠ .live → s.BusFree 0x70030 →
    (s.dev.rdb R.TOP_STATE_PAIRED = true → s.dev.pathUp = true →
      exec .firmwareVeerReq s = .next (s.answered (s.start.emit (s.sends (.request .veer))) 0 false)) ∧
    (s.dev.rdb R.TOP_STATE_PAIRED = false → ∃ t, exec .firmwareVeerReq s = .next t ∧ s.Only [4, 7] t ∧
      t.dev.rd R.VEER_STATUS_LAST_REFUSE = 1)) ∧
  (∀ (s : State) (bytes : List Byte) (q : PairReq), s.dev.inService = true →
    (s.dev.pathUp = false ∨ s.dev.rdb R.TOP_STATE_PAIRED = false →
      exec (.requestFrameReceive ⟨bytes, q⟩) s = .next (s.withDev s.start)) ∧
    (∀ f, s.Hears [5] bytes f →
      (∀ v f : Nat, q = .versions v f →
        (let mine := s.dev.rd R.BOOT_VERS_CKPT_VER
         let bad := mine + 1 < v ∨ v + 1 < mine ∨ f ≠ s.dev.rdPair R.BOOT_FIXED_ID_LO R.BOOT_FIXED_ID_HI
         ∃ t, exec (.requestFrameReceive ⟨bytes, q⟩) s = .next t ∧ s.Only [4] t ∧
           (bad → t.dev.pair = { s.dev.pair with version := none }) ∧
           (¬ bad → t.dev.pair = { s.dev.pair with version := some (Nat.min mine v) }))) ∧
      (∀ (ts : List Nat) (l : Nat), q = .accepted ts l → s.dev.state = .live →
        ∃ t, exec (.requestFrameReceive ⟨bytes, q⟩) s = .next t ∧ s.Only [] t ∧
          (∀ x ∈ ts, bit (t.dev.tileLink x).own 1 = true ∧ (t.dev.tileLink x).ownLine = l % 2 ^ 32) ∧
          ∀ x, x ∉ ts → t.dev.tileLink x = s.dev.tileLink x) ∧
      (∀ ts : List Nat, q = .claimed ts → s.dev.state = .live →
        ∃ t, exec (.requestFrameReceive ⟨bytes, q⟩) s = .next t ∧ s.Only [] t ∧
          ∀ x ∈ ts, bit (t.dev.tileLink x).own 0 = false ∧ bit (t.dev.tileLink x).own 1 = false ∧
            bit (t.dev.tileLink x).own 2 = false) ∧
      (∀ (up : Bool) (p : Prep), q = .lanes up → s.dev.pair.prep = some p → p.incoming = false →
        ∃ t, exec (.requestFrameReceive ⟨bytes, q⟩) s = .next t ∧ s.Only [] t ∧
          t.dev.pair = { s.dev.pair with prep := some { p with lanes := up } }) ∧
      (∀ (v : Nat) (p : Prep), q = .stands v → s.dev.pair.prep = some p → p.incoming = true → p.v = v →
        ∃ t, exec (.requestFrameReceive ⟨bytes, q⟩) s = .next t ∧ s.Only [] t ∧
          t.dev.pair = { s.dev.pair with prep := some { p with stands := true } }) ∧
      (∀ e : Nat, q = .abort e →
        ∃ t, exec (.requestFrameReceive ⟨bytes, q⟩) s = .next t ∧ t.mem = s.mem ∧ t.pending = s.pending ∧ t.dev.epoch = e % 2 ^ 32 ∧
          (∀ p, s.dev.pair.prep = some p → p.incoming = true → t.dev.pair.prep = none) ∧
          ∀ x ∈ t.dev.tiles, bit x.own 1 = false) ∧
      (∀ k e v : Nat, q = .release k e v → s.dev.state = .live →
        ∃ t, exec (.requestFrameReceive ⟨bytes, q⟩) s = .next t ∧ s.Only [4, 7, 0x24] t ∧ t.dev.epoch = e % 2 ^ 32 ∧
          t.dev.pair.given = (s.dev.pair.given.filter fun x => x.1 != k) ∧
          t.dev.pair.mirrorTo = some ((v + s.dev.ofs + 4) % 2 ^ 48)) ∧
      ∀ k p e line : Nat, q = .split k p e line → k < 64 → (s.dev.state = .cold ∨ s.dev.state = .warm) → s.dev.mayGoLive = true →
        (∀ x ∈ s.dev.pair.segs, x.1 ≠ k) → s.dev.laneUsed k = true →
        ∃ t, exec (.requestFrameReceive ⟨bytes, q⟩) s = .next t ∧ t.mem = s.mem ∧ t.pending = s.pending ∧ t.dev.state = .warm ∧
          t.dev.pair.segs = s.dev.pair.segs ++ [(k, p)] ∧ t.dev.epoch = e % 2 ^ 32 ∧
          t.dev.rdb R.VEER_STATUS_MIRROR = true ∧ s.dev.Counted t.dev R.VEER_SPLIT_SEGMENTS)) ∧
  (∀ (s : State) (k : Fin 64) (seg : Nat × Nat) (h : Nat × Time), s.dev.state = .warm → s.dev.rdb R.TOP_STATE_PAIRED = true →
    s.dev.pair.back = none → s.dev.pair.segs.find? (fun x => x.1 = k.val) = some seg →
    s.dev.pair.heal.find? (fun x => x.1 = k.val) = some h →
    ∃ t, exec (.splitHeal k) s = .next t ∧ s.Only [4, 7] t ∧
      h.2 + seconds (Nat.max 1 (s.dev.rd R.VEER_HOME_HEAL_S)) ≤ t.dev.now ∧
      (0xFFFFFFF0 ≤ s.dev.epoch → t.dev.rd R.VEER_STATUS_LAST_REFUSE = 9 ∧ t.dev.pair = s.dev.pair) ∧
      (s.dev.epoch < 0xFFFFFFF0 → ∃ ts, t.dev.pair.back = some ⟨k, (s.dev.wtm.wln + s.dev.veerLead) % 2 ^ 48, s.dev.epoch + 1, ts, []⟩ ∧
        ∀ x ∈ ts, s.dev.givenId x = false ∧ s.dev.tileStale x = false)) ∧
  ∀ (s : State) (since : Time), s.dev.off = false → s.dev.pair.homeAt = some since → s.dev.homingHealth = true →
    s.dev.rdb R.VEER_CTRL_HOME_EN = true → s.dev.rdb R.TOP_STATE_ROLE_STRAP = true →
    ∃ t, exec .homing s = .next t ∧ s.Only [] t ∧ since + seconds (Nat.max 10 (s.dev.rd R.VEER_HOME_HOME_S)) ≤ t.dev.now ∧
      t.dev.out = s.sends (.request .homing) :: s.dev.out ∧
      t.dev.pair = { s.dev.pair with homeAt := some t.dev.now }

/-- An entry is consumed, by the command of its opcode: the head moves on, the command takes a tag, and it ends with BAD_ARG where its
form is not right, with the status of the first condition that fails, or stands or ends as its opcode says (R375, R376, R378,
R379, R384, R385, R392, R394). -/
def Obligations.HatboxEntriesAreConsumed : Prop :=
  (hbxInstr 1 = .hbxWrite ∧ hbxInstr 2 = .hbxRead ∧ hbxInstr 3 = .hbxFlush ∧ hbxInstr 4 = .openTake ∧ hbxInstr 5 = .closeTake ∧
    hbxInstr 6 = .deleteTake ∧ hbxInstr 7 = .fwActivate) ∧
  ∀ (s : State) (c : Fin 16), s.HbxNext c →
    (let b := s.hbxEntry c
     let op := leAt b 0 1
     let take := leAt b 4 4
     ∃ t x, exec (hbxInstr op) s = .next t ∧ s.Only [4, 0x40] t ∧ t.dev.hbx.cmds = [x] ∧ x.client = c.val ∧ x.op = op ∧
       x.cid = leAt b 2 2 ∧ x.take = take ∧ x.off = leAt b 8 8 ∧ x.len = leAt b 16 4 ∧ x.buf = leAt b 24 8 ∧ x.posted = false ∧
       x.since = s.dev.now ∧ x.limit = clampNat (s.dev.cm R.HBX_CMD_TO) 10 60000 ∧
       t.dev.rd (R.HBX_CL_SQ_HEAD c) = (s.dev.rd (R.HBX_CL_SQ_HEAD c) + 1) % s.dev.sqSize c %
         2 ^ (R.HBX_CL_SQ_HEAD c).width ∧
       (Dev.entryOk s.mem s.dev c = false ∨ op = 0 ∨ 7 < op → x.status = some 3) ∧
       (Dev.entryOk s.mem s.dev c = true →
         (1 ≤ op → op ≤ 2 → x.len = 0 → x.status = some 3) ∧
         (op = 1 → 1 ≤ x.len → x.len ≤ 262144 →
           (s.dev.liveOrWarm = false → x.status = some 2) ∧
           (s.dev.liveOrWarm = true → s.dev.findTake take = none → x.status = some 4) ∧
           ∀ k, s.dev.liveOrWarm = true → s.dev.findTake take = some k → k.open_ = true → k.client = c.val → k.fault = 0 →
             (x.off ≠ k.comp → x.status = some 3) ∧
             (x.off = k.comp → (s.dev.anyReady = true → s.dev.spaceLeft = true) → x.status = none ∧ x.staged = false)) ∧
         (op = 2 → 1 ≤ x.len → x.len ≤ 16777216 →
           (s.dev.findTake take = none → x.status = some 4) ∧
           ∀ k, s.dev.findTake take = some k →
             (k.readable < x.off + x.len → x.status = some 11) ∧
             (x.off + x.len ≤ k.readable → (∀ j : Fin 4, s.dev.driveState j ≠ 3) → x.status = none ∧ x.staged = true ∧
               x.outs = ((s.dev.readExtents take x.off x.len).map Prod.fst).dedup)) ∧
         (op = 3 → (∃ k, s.dev.findTake take = some k) → (∀ k ∈ s.dev.hbx.takes, k.fault = 0) → x.status = some 0) ∧
         (op = 4 → s.dev.liveOrWarm = true → s.dev.findTake take = none → (s.dev.anyReady = true → s.dev.spaceLeft = true) →
           x.status = some 0 ∧ ∃ k, t.dev.findTake take = some k ∧ k.open_ = true ∧ k.client = c.val ∧ k.readable = 0) ∧
         (op = 5 → ∀ k, s.dev.findTake take = some k → k.open_ = true → k.client = c.val →
           x.status = some 0 ∧ ∃ u, t.dev.findTake take = some u ∧ u.open_ = false) ∧
         (op = 6 → ∀ k, s.dev.findTake take = some k → k.open_ = false → s.dev.liveOrWarm = true →
           x.status = some 0 ∧ t.dev.findTake take = none) ∧
         (op = 7 → (s.dev.state ≠ .cold → x.status = some 2) ∧
           (s.dev.state = .cold → s.dev.driveState (leAt b 32 8 % 4) = 1 → x.status = none ∧
             t.dev.driveState (leAt b 32 8 % 4) = 2 ∧ t.dev.hbx.fw = some (x.tag, leAt b 32 8 % 4, s.dev.now)))))

/-- A WRITE's data is staged as it stands in BUF, in the staging area, and the WRITE resolves with OK (R382, R383); a READ's data reaches
BUF, with what was in staging laid over what the drives gave, and no other byte of DRAM changes (R384). The areas lie below the usable
capacity, and no internal recorder waits for room in its ring. An NVMe Write that ends puts its data on the drive, is tried again, or
after three attempts, as with an uncorrectable error in its staged data, puts its stream in FAULT (R394). -/
def Obligations.HatboxDataMoves : Prop :=
  (∀ (s : State) (tag : Fin 1024) (c : HCmd), s.EnginesRun → s.Sound → s.dev.poison = [] → s.dev.hbx.cmds = [c] → c.tag = tag.val →
    c.op = 1 → c.staged = false → c.owed = none → c.status = none → c.posted = false → s.dev.hbx.staged = [] →
    units c.len ≤ 256 * Nat.min 8192 (s.dev.rd R.HBX_STG_MIB) → (s.dev.state = .live → s.dev.anyReady = true) →
    s.dev.unreadable c.buf c.len = false → s.dev.stgAddr (units c.len) ≤ s.dev.dramC → s.dev.RecordersIdle →
    ∃ t w x, exec (.writeStaged tag) s = .next t ∧ t.pending = s.pending ∧ s.dev.SameOutside [0x40] t.dev ∧
      Memory.bytes t.mem (s.dev.stgAddr 0) c.len = Memory.bytes s.mem c.buf c.len ∧
      (∀ a, a < s.dev.stgAddr 0 ∨ s.dev.stgAddr (units c.len) ≤ a → Memory.read t.mem a = Memory.read s.mem a) ∧
      t.dev.hbx.staged = [w] ∧ w.take = c.take ∧ w.off = c.off ∧
      w.data = Memory.bytes s.mem c.buf c.len ∧ t.dev.hbx.cmds = [x] ∧ x.status = some 0) ∧
  (∀ (s : State) (tag : Fin 1024) (data : List Byte) (copied : Nat) (c : HCmd), s.EnginesRun → s.Sound → s.dev.poison = [] →
    s.dev.hbx.cmds = [c] → c.tag = tag.val → c.op = 2 → c.staged = true → c.status = none → c.posted = false →
    s.dev.hbx.staged = [] → (bit c.flags 2 = true ∨ s.dev.lulling .hatbox = false) → (∀ k ∈ c.outs, s.dev.driveState k ≠ 2) →
    c.buf + c.len ≤ s.dev.dramC → s.dev.RecordersIdle →
    ∃ t x, exec (.readComplete tag data .ok copied) s = .next t ∧ t.pending = s.pending ∧
      Memory.bytes t.mem c.buf c.len = overlay c.laid c.off ((List.range c.len).map fun i => data.getD i 0) ∧
      (∀ a, a < c.buf ∨ c.buf + c.len ≤ a → Memory.read t.mem a = Memory.read s.mem a) ∧
      t.dev.hbx.cmds = [x] ∧ x.status = some 0 ∧ x.outs = []) ∧
  ∀ (s : State) (w : Staged), s.EnginesRun → s.dev.hbx.cmds = [] → s.dev.hbx.staged = [w] → w.phase = 1 → w.dead = false →
    s.dev.RecordersIdle →
    (s.dev.stgBad w = true → w.data ≠ [] → ∀ k, s.dev.findTake w.take = some k → k.fault = 0 →
      ∀ r : NvmeEnd, ∃ t u, exec (.nvmeWriteComplete w.ser r) s = .next t ∧ s.Only [0x40] t ∧ t.dev.hbx.staged = [] ∧
        t.dev.findTake w.take = some u ∧ u.fault = 10) ∧
    (s.dev.stgBad w = false →
      ∃ t, exec (.nvmeWriteComplete w.ser .ok) s = .next t ∧ s.Only [0x40] t ∧ t.dev.hbx.staged = [{ w with phase := 2 }]) ∧
    (s.dev.stgBad w = false → w.tries < 3 → ∃ t x, exec (.nvmeWriteComplete w.ser .media) s = .next t ∧ s.Only [0x40] t ∧ t.dev.hbx.staged = [x] ∧
      x.data = w.data ∧ s.dev.Counted t.dev R.HBX_MEDIA_ERR ∧ s.dev.Counted t.dev R.HBX_REWRITES) ∧
    (s.dev.stgBad w = false → 3 ≤ w.tries → w.data ≠ [] → ∀ k, s.dev.findTake w.take = some k → k.fault = 0 →
      ∃ t u, exec (.nvmeWriteComplete w.ser .media) s = .next t ∧ s.Only [0x40] t ∧ t.dev.hbx.staged = [] ∧
        t.dev.findTake w.take = some u ∧ u.fault = 6)

/-- A commit batch covers the written staged writes of its drive, gives them records in sequence under the veer epoch,
and goes from its Flush to its journal pages, without what was aborted meanwhile, and to its second Flush; then the records are in the index and the staging space is
released (R386); outside LIVE no command goes to a drive with it (R23). A completion is posted at the next place of its ring and
nowhere else, where the ring lies below the usable capacity (R390, Table 13-4). -/
def Obligations.HatboxBatchesAndCompletions : Prop :=
  (∀ (s : State) (k : Fin 4), s.EnginesRun → s.dev.hbxWrites = true → s.dev.driveState k = 1 → (s.dev.hdrive k).batch = none →
    (let cov := s.dev.hbx.staged.filter fun w => w.phase = 2 && !w.dead && w.drive = k.val
     ∃ t b, exec (.commitBatchStart k) s = .next t ∧ s.Only [] t ∧ (t.dev.hdrive k).batch = some b ∧ b.step = 1 ∧
       b.cover = cov.map Staged.ser ∧ b.recs.map CommitRec.off = cov.map Staged.off ∧
       b.recs.map CommitRec.lsn = (List.range cov.length).map (s.dev.hbx.lsn + ·) ∧ (∀ r ∈ b.recs, r.epoch = s.dev.epoch) ∧
       t.dev.hbx.lsn = s.dev.hbx.lsn + cov.length ∧ t.dev.out = .nvme k .flush 0 0 0 [] :: s.dev.out ∧
       ∀ at_, (s.dev.hdrive k).batchAt = some at_ → at_ + micros 100 ≤ t.dev.now)) ∧
  (∀ (s : State) (k : Fin 4) (b : HBatch), s.EnginesRun → s.dev.driveState k = 1 → (s.dev.hdrive k).batch = some b →
    (b.step = 1 → s.dev.hbxWrites = true → ∃ t, exec (.batchStepDone k) s = .next t ∧ s.Only [] t ∧
      (let left := (b.cover.zip b.recs).filter fun p => s.dev.hbx.staged.any fun w => w.ser = p.1 && w.phase = 3 && !w.dead
       (t.dev.hdrive k).batch = some ⟨2, left.map Prod.fst, left.map Prod.snd⟩) ∧ t.dev.hbx.recs = s.dev.hbx.recs) ∧
    (b.step = 1 → s.dev.hbxWrites = false → ∃ t, exec (.batchStepDone k) s = .next t ∧ s.Only [] t ∧
      (t.dev.hdrive k).batch = none ∧ t.dev.hbx.recs = s.dev.hbx.recs ∧ t.dev.out = s.dev.out) ∧
    (b.step = 2 → ∃ t, exec (.batchStepDone k) s = .next t ∧ s.Only [] t ∧ (t.dev.hdrive k).batch = some { b with step := 3 } ∧
      t.dev.out = .nvme k .flush 0 0 0 [] :: s.dev.out) ∧
    (b.step = 3 → s.dev.hbx.cmds = [] → s.dev.state ≠ .live → s.dev.RecordersIdle →
      ∃ t, exec (.batchStepDone k) s = .next t ∧ t.mem = s.mem ∧ t.pending = s.pending ∧ (t.dev.hdrive k).batch = none ∧
        t.dev.out = s.dev.out) ∧
    (b.step = 3 → s.dev.hbx.cmds = [] → s.dev.RecordersIdle → (∀ r ∈ b.recs, bit r.flags 2 = false) →
      (∀ w ∈ s.dev.hbx.staged, w.phase = 3 ∧ w.ser ∈ b.cover) →
      ∃ t, exec (.batchStepDone k) s = .next t ∧ s.Only [0x40] t ∧ (t.dev.hdrive k).batch = none ∧
        t.dev.hbx.recs = s.dev.hbx.recs ++ b.recs ∧ t.dev.hbx.staged = [] ∧ s.dev.Counted t.dev R.HBX_BATCHES)) ∧
  ∀ (s : State) (c : Fin 16) (x : HCompl), s.EnginesRun → s.Sound → s.dev.poison = [] → s.dev.hbx.cmds = [] →
    s.dev.hbx.staged = [] → (s.dev.hbx.compl.find? fun x => x.client = c.val) = some x → s.dev.cqFull c = false →
    s.dev.RecordersIdle →
    (let a := s.dev.rdPair (R.HBX_CL_CQ_BASE_LO c) (R.HBX_CL_CQ_BASE_HI c) + 16 * (s.dev.cqAt c).1
     a + 16 ≤ s.dev.dramC → ∃ t, exec (.completionPost c) s = .next t ∧ t.pending = s.pending ∧ s.dev.SameOutside [0x40] t.dev ∧
       Memory.bytes t.mem a 12 = leBytes 2 x.cid ++ leBytes 2 x.status ++ leBytes 2 x.tag ++ leBytes 2 0 ++ leBytes 4 x.done ∧
       (∀ y, y < a ∨ a + 16 ≤ y → Memory.read t.mem y = Memory.read s.mem y) ∧
       t.dev.hbx.compl.length + 1 = s.dev.hbx.compl.length ∧
       (t.dev.cqAt c).1 = (if (s.dev.cqAt c).1 + 1 = s.dev.cqSize c then 0 else (s.dev.cqAt c).1 + 1) ∧
       t.dev.hbx.posted.contains (c.val, x.cid) = true)

/-- ABORT_STATUS says what an ABORT found (R389); a client's RESET empties its rings (R391); a command outstanding for CMD_TO ends
with TIMEOUT, an SSD admin timeout leads to a controller reset and then to FAILED (R393), a drive that becomes ready is READY
again, and one that is not within 20 s of its Firmware Commit stays as it is (R392). The mount takes takes and records from the
drives (R371, R374, R387). FORMAT writes the superblocks (Table 13-1), and nothing in COLD and WARM (R23, R396). A link's width
shows, at most what BIFURC gives it (R369, Table 13-8), and one held down stays so (R393). PFAIL_N ends a command with POWER_FAIL
(R388). -/
def Obligations.HatboxControlAndFailures : Prop :=
  (∀ (s : State) (c : Fin 16) (cid : BitVec 16), s.BusFree (0x40011C + 0x40 * c.val) →
    (∀ x, s.dev.hbx.cmds = [x] → x.client = c.val → x.cid = cid.toNat → x.posted = false → x.op ≠ 1 → s.dev.hbx.staged = [] →
      s.dev.RecordersIdle →
      ∃ t y, exec (.hbxAbort c cid) s = .next t ∧ s.Only [0x40] t ∧ t.dev.rd (R.HBX_CL_ABORT_STATUS c) = 0 ∧
        t.dev.hbx.cmds = [y] ∧ y.status = some 1 ∧ (x.status ≠ some 1 → s.dev.Counted t.dev R.HBX_ABORTS)) ∧
    ((∀ x ∈ s.dev.hbx.cmds, x.client = c.val → x.cid = cid.toNat → x.posted = true) → ringPlaces s.dev c = [] →
      ∃ t, exec (.hbxAbort c cid) s = .next t ∧ s.Only [0x40] t ∧ t.dev.hbx = s.dev.hbx ∧
        (let waits := s.dev.hbx.compl.any fun x => x.client = c.val && x.cid = cid.toNat && x.ser.isNone
         (waits = true → t.dev.rd (R.HBX_CL_ABORT_STATUS c) = 0) ∧
         (waits = false → s.dev.hbx.posted.contains (c.val, cid.toNat) = true → t.dev.rd (R.HBX_CL_ABORT_STATUS c) = 1 ∧
           s.dev.Counted t.dev R.HBX_TOO_LATE) ∧
         (waits = false → s.dev.hbx.posted.contains (c.val, cid.toNat) = false → t.dev.rd (R.HBX_CL_ABORT_STATUS c) = 2)))) ∧
  (∀ (s : State) (c : Fin 16), s.BusFree (0x400124 + 0x40 * c.val) → s.dev.hbx.cmds = [] → s.dev.hbx.staged = [] →
    s.dev.RecordersIdle →
    ∃ t, exec (.hbxClientReset c) s = .next t ∧ s.Only [0x40] t ∧ t.dev.rd (R.HBX_CL_SQ_HEAD c) = 0 ∧
      t.dev.rd (R.HBX_CL_SQ_TAIL c) = 0 ∧ t.dev.rd (R.HBX_CL_CQ_HEAD c) = 0 ∧ t.dev.cqAt c = (0, false) ∧
      (∀ x ∈ t.dev.hbx.compl, x.client = c.val → x.status = 1 ∨ ∃ y ∈ s.dev.hbx.compl, y.client = c.val ∧ y.cid = x.cid)) ∧
  (∀ (s : State) (tag : Fin 1024) (c : HCmd), s.EnginesRun → s.dev.hbx.cmds = [c] → c.tag = tag.val → c.status = none →
    c.posted = false → c.op ≠ 7 → s.dev.hbx.staged = [] → s.dev.RecordersIdle →
    ∃ t x, exec (.hbxCmdTimeout tag) s = .next t ∧ s.Only [0x40] t ∧ t.dev.hbx.cmds = [x] ∧ x.status = some 7 ∧
      s.dev.Counted t.dev R.HBX_TIMEOUTS ∧ c.since + millis c.limit ≤ t.dev.now) ∧
  (∀ (s : State) (k : Fin 4), s.EnginesRun → s.dev.hbx.cmds = [] → s.dev.hbx.staged = [] → s.dev.RecordersIdle →
    (∀ at_, (s.dev.hdrive k).resetAt = some at_ → ∃ t, exec (.ssdAdminTimeout k) s = .next t ∧ s.Only [4, 0x40] t ∧
      t.dev.driveState k = 3 ∧ at_ + seconds 10 ≤ t.dev.now) ∧
    (∀ (x : Nat × Time) (rest : List (Nat × Time)), (s.dev.hdrive k).resetAt = none → (s.dev.hdrive k).aborts = x :: rest →
      ∃ t, exec (.ssdAdminTimeout k) s = .next t ∧ s.Only [4, 0x40] t ∧ (t.dev.hdrive k).resetAt = some t.dev.now ∧
        (t.dev.hdrive k).aborts = [] ∧ x.2 + seconds 10 ≤ t.dev.now ∧ t.dev.driveState k = 2 ∧
        s.dev.Counted t.dev R.HBX_CTRL_RESETS) ∧
    ((s.dev.hdrive k).resetAt = none → (s.dev.hdrive k).aborts = [] → exec (.ssdAdminTimeout k) s = .next (s.withDev s.start)) ∧
    (s.dev.driveState k = 2 → s.dev.hbx.fw = none → ∃ t, exec (.driveReady k) s = .next t ∧ s.Only [4, 0x40] t ∧
      t.dev.driveState k = 1)) ∧
  (∀ (s : State) (tag : Nat) (k : Nat) (at_ : Time), s.EnginesRun → s.dev.hbx.fw = some (tag, k, at_) →
    s.dev.hbx.cmds = [] →
    ∃ t, exec .driveActivationTimeout s = .next t ∧ s.Only [] t ∧ t.dev.hbx.fw = none ∧ at_ + seconds 20 ≤ t.dev.now) ∧
  (∀ (s : State) (ds : List DriveInfo), s.dev.inService = true → s.dev.pins.pfailN = true →
    s.dev.rdb R.HBX_STATUS_MOUNTED = false → s.dev.hbx.cmds = [] → s.dev.hbx.staged = [] → s.dev.RecordersIdle →
    ∃ t, exec (.hatboxMount ds) s = .next t ∧ s.Only [4, 0x40] t ∧ t.dev.rdb R.HBX_STATUS_MOUNTED = true ∧
      t.dev.hbx.recs = rolled s.dev ds ∧ t.dev.hbx.takes = (takesOf (rolled s.dev ds)).map (closeDurable (rolled s.dev ds)) ∧
      ∀ r ∈ rolled s.dev ds, r.lsn < t.dev.hbx.lsn) ∧
  (∀ s : State, s.dev.state = .cold ∨ s.dev.state = .warm → ∃ t, exec .format s = .next t ∧ s.Only [] t ∧ t.dev.out = s.dev.out) ∧
  (∀ s : State, s.dev.state = .live → s.dev.pins.pfailN = true →
    ∃ t, exec .format s = .next t ∧ s.Only [] t ∧ ∀ k : Fin 4, bit (s.dev.rd R.HBX_CFG_DRIVES) k = true →
      ∃ n, ∀ lba : Fin 2, Out.superblock k lba s.dev.hbx.storeSet k n Config.idxMib Config.jrnMib ∈ t.dev.out) ∧
  (∀ (s : State) (k : Fin 4) (w : Fin 5), s.dev.off = false →
    ((s.dev.hdrive k).down = true → exec (.pcieLinkChange k w) s = .next (s.withDev s.start)) ∧
    ((s.dev.hdrive k).down = false → ∃ t, exec (.pcieLinkChange k w) s = .next t ∧ s.Only [4, 0x40] t ∧
      (let width := if k.val < (pcieLinks s.dev).1 then Nat.min w (pcieLinks s.dev).2 else 0
       t.dev.rd (R.HBX_DRIVE_WIDTH k) = width % 2 ^ (R.HBX_DRIVE_WIDTH k).width ∧
         (width = 0 → s.dev.driveState k = 1 → t.dev.driveState k = 2) ∧
         (width ≠ 0 → t.dev.driveState k = s.dev.driveState k)))) ∧
  ∀ s : State, s.dev.off = false → s.dev.RecordersIdle →
    (s.dev.pins.pfailN = true → s.dev.hbx.staged = [] →
      ∃ t, exec .pfailNFall s = .next t ∧ s.Only [0x40] t ∧ t.dev.pins.pfailN = false ∧ s.dev.Counted t.dev R.HBX_POWER_FAILS ∧
        ∀ c, s.dev.hbx.cmds = [c] → c.posted = false → c.status ≠ some 1 → ∃ x, t.dev.hbx.cmds = [x] ∧ x.status = some 8) ∧
    (s.dev.hbx.cmds = [] → s.dev.hbx.staged = [] →
      ∃ t, exec .pfailNRise s = .next t ∧ s.Only [0x40] t ∧ t.dev.pins.pfailN = true)

/-- What a sender puts on a line a receiver takes off it. Scrambled bits descramble to what they were (R271); a return packet of one
or two blocks comes out of a receiver in lock as it went in, without a block error, and one of another VER than 1 is discarded whole
(R270, R272, R273). A pairing frame opens to
what was sealed (R346), its symbols stand on the lanes in turn (R320), and a word of Table 12-2 reaches its receiver by the stream
and by the pin, with its fields (R338). -/
def Obligations.LinesCarryWhatIsSent : Prop :=
  (∀ n r v, v < 2 ^ n → descramble n r (scramble n r v).1 = (v, (scramble n r v).2)) ∧
  (∀ (l : Lane) (bytes : List Byte), l.lock = true → (∀ bs n, l.rx ≠ some (bs, n + 1)) →
    (bytes.length = 16 → (beAt bytes 0 1 / 16 = 8 ∨ beAt bytes 0 1 / 16 = 9) → beAt bytes 0 1 % 16 = 1 →
      ∃ b, (linkBlocks l.dscr bytes).1 = [b] ∧ (takeBlock l b).err = false ∧ (takeBlock l b).done = [some bytes]) ∧
    (bytes.length = 32 → beAt bytes 0 1 / 16 = 8 ∨ beAt bytes 0 1 / 16 = 9 ∨ beAt bytes 0 1 / 16 = 10 → beAt bytes 0 1 % 16 ≠ 1 →
      ones (2 * l.errs % 2 ^ 64) < 16 →
      ∃ b c, (linkBlocks l.dscr bytes).1 = [b, c] ∧ (takeBlock l b).err = false ∧ (takeBlock l b).done = [none] ∧
        (takeBlock (takeBlock l b).lane c).err = false ∧ (takeBlock (takeBlock l b).lane c).done = []) ∧
    (bytes.length = 32 → beAt bytes 0 1 / 16 = 10 → beAt bytes 0 1 % 16 = 1 → ones (2 * l.errs % 2 ^ 64) < 16 →
      ∃ b c, (linkBlocks l.dscr bytes).1 = [b, c] ∧ (takeBlock l b).err = false ∧ (takeBlock l b).done = [] ∧
        (takeBlock (takeBlock l b).lane c).err = false ∧ (takeBlock (takeBlock l b).lane c).done = [some bytes])) ∧
  (∀ f : PairFrame, f.type < 256 → f.flags < 256 → f.seq < 2 ^ 32 → f.wln < 2 ^ 32 → f.payload.length ≤ 4096 →
    openFrame (sealFrame f) = some f) ∧
  (∀ (l : List PairSym) (i : Nat), i < l.length → ((stripe l).getD (i % 4) []).getD (i / 4) .k280 = l.getD i .k280) ∧
  (∀ (type flags seq wln : Nat) (w : BitVec 128), type < 256 → flags < 256 → seq < 2 ^ 32 → wln < 2 ^ 32 →
    rxWord type (.pin (wordLevels w)) = some w ∧
    rxWord type (.stream (sealFrame ⟨type, flags, seq, wln, beBytes 16 w.toNat⟩)) = some w) ∧
  ∀ (type reason : Nat) (b : Beat), type < 16 → reason < 16 → b.state < 16 → b.epoch < 2 ^ 32 → b.tag < 2 ^ 16 → b.frame < 2 ^ 16 →
    b.cut < 2 ^ 16 → beatParse (beatPack type reason b) = some (type, b)

/-- A block decodes to the bytes that it was made of, with and without the Bayer pre-pass (R400 to R404, R408, R411, R412). -/
def Obligations.FullerBlocksAreLossless : Prop :=
  ∀ (bayer : Bool) (row x0 : Nat) (orig : List Byte), 1 ≤ orig.length → orig.length ≤ 1048576 →
    (bayer = true → orig.length % 2 = 0 ∧ 2 ≤ row ∧ row ≤ 16384 ∧ x0 < row) →
    (let bs := (Fuller.block bayer row x0 orig).1
     Fuller.headerCheck bs = 0 ∧ Fuller.openBlock bs = .ok orig ∧ bs.length ≤ orig.length + 20)

/-- A COMPRESS descriptor with a form that Table 14-2 forbids ends with BAD_ARG; one with MORE alone adds its bytes to the open block;
one that ends a stream of at most BLOCK_SIZE bytes writes their block to the first entry of its chain and nothing else, or, where
the chain's one entry is too small, ends with OUT_OF_SPACE (R406, R407, R409, R410). An input or an output that does not lie below
the usable capacity ends the job with DRAM_ERROR (R482, R491, Table 14-5). -/
def Obligations.CompressTakesDescriptors : Prop :=
  ∀ (s : State) (r : Fin 8) (e : Fin 4) (i : Nat) (rest : List Nat), s.FulNext r e i rest →
    (let b := s.dev.fulDesc s.mem r i
     let cid := leAt b 2 2
     let len := leAt b 4 4
     let orig := Memory.bytes s.mem (leAt b 8 8) len
     let chain := leAt b 16 8
     let out := Memory.leNum s.mem chain 8
     let size := Memory.leNum s.mem (chain + 8) 4
     let good := leAt b 0 1 = 1 ∧ Dev.descOk b true = true ∧ (bit (leAt b 1 1) 2 = true → len % 2 = 0)
     let read := leAt b 8 8 + len ≤ s.dev.dramC
     let head := (s.dev.rd (R.FUL_RING_SQ_HEAD r) + 1) % s.dev.fulSqSize r %
       2 ^ (R.FUL_RING_SQ_HEAD r).width
     leAt b 0 1 ≠ 2 →
     ∃ t, exec (.compress r e) s = .next t ∧ t.pending = s.pending ∧ s.dev.SameOutside [3, 4, 0x41] t.dev ∧
       (rest = [] ∨ bit (leAt b 1 1) 0 = false ∨ ¬good → t.dev.rd (R.FUL_RING_SQ_HEAD r) = head) ∧
       (¬good → t.mem = s.mem ∧ (t.dev.fring r).compl = [⟨cid, 2, e, 0, 0, 0, 0⟩] ∧ (t.dev.fring r).stream = none) ∧
       (good → 1 ≤ len → ¬read → t.mem = s.mem ∧ s.dev.Counted t.dev R.FUL_DRAM_ERR ∧ (t.dev.fring r).stream = none ∧
         ∃ more, (t.dev.fring r).compl = ⟨cid, 8, e, 0, 0, 0, 0⟩ :: more) ∧
       (good → read → bit (leAt b 1 1) 0 = true → bit (leAt b 1 1) 1 = false → len < leAt b 24 4 →
         t.mem = s.mem ∧ (t.dev.fring r).compl = [⟨cid, 0, e, 0, 0, 0, 0⟩] ∧ t.dev.rd (R.FUL_RING_SQ_HEAD r) = head ∧
         ∃ x, (t.dev.fring r).stream = some x ∧ x.engine = e ∧ x.chain = chain ∧ x.block = leAt b 24 4 ∧ x.pending = orig ∧
           x.parked = rest.isEmpty) ∧
       (good → read → bit (leAt b 1 1) 0 = false → 1 ≤ len → len ≤ leAt b 24 4 →
         (let blk := Fuller.block (bit (leAt b 1 1) 2) (leAt b 28 2) 0 orig
          (t.dev.fring r).stream = none ∧ s.dev.Counted t.dev R.FUL_BLK_COMP ∧
          (blk.1.length ≤ size → s.dev.dramC < out + blk.1.length → (t.dev.fring r).compl = [⟨cid, 8, e, 0, 0, 0, 0⟩] ∧
            s.dev.Counted t.dev R.FUL_DRAM_ERR) ∧
          (blk.1.length ≤ size → out + blk.1.length ≤ s.dev.dramC → (t.dev.fring r).compl = [⟨cid, 0, e, 1, blk.1.length, len, 0⟩] ∧
            Memory.bytes t.mem out blk.1.length = blk.1 ∧
            (∀ a, a < out ∨ out + blk.1.length ≤ a → Memory.read t.mem a = Memory.read s.mem a) ∧
            (if blk.2 then s.dev.Counted t.dev R.FUL_BLK_STORED
             else t.dev.rd R.FUL_BLK_STORED = s.dev.rd R.FUL_BLK_STORED)) ∧
          (size < blk.1.length → bit (Memory.leNum s.mem (chain + 12) 4) 0 = true →
            (t.dev.fring r).compl = [⟨cid, 3, e, 0, 0, 0, 0⟩] ∧ s.dev.Counted t.dev R.FUL_OUT_OF_SPACE))))

/-- A DECOMPRESS descriptor of one whole block writes the block's original bytes to its chain and nothing else; a bad header or a bad
block, or output beyond the usable capacity, ends the job with its status; with SKIP_BAD a bad block is RAW_LEN zero bytes (R411,
R412, R413, R482, Tables 14-4 and 14-5). A completion goes to the next place of its ring (R405, Table 14-3). A reset ring is empty and
releases later, and answers a write to its registers before that with an error response (R414). A lull ends after its
length (R502, R503). -/
def Obligations.DecompressAndRings : Prop :=
  (∀ (s : State) (r : Fin 8) (e : Fin 4) (i : Nat) (rest : List Nat), s.FulNext r e i rest →
    (let b := s.dev.fulDesc s.mem r i
     let cid := leAt b 2 2
     let len := leAt b 4 4
     let bs := Memory.bytes s.mem (leAt b 8 8) len
     let chain := leAt b 16 8
     let out := Memory.leNum s.mem chain 8
     let size := Memory.leNum s.mem (chain + 8) 4
     leAt b 0 1 = 2 →
     ∃ t, exec (.decompress r e) s = .next t ∧ t.pending = s.pending ∧ s.dev.SameOutside [3, 4, 0x41] t.dev ∧
       (t.dev.fring r).stream = none ∧
       (Dev.descOk b true = false → t.mem = s.mem ∧ (t.dev.fring r).compl = [⟨cid, 2, e, 0, 0, 0, 0⟩]) ∧
       (Dev.descOk b true = true → leAt b 8 8 + len ≤ s.dev.dramC →
         (len = 0 → t.mem = s.mem ∧ (t.dev.fring r).compl = [⟨cid, 0, e, 0, 0, 0, 0⟩]) ∧
         (1 ≤ len → Fuller.headerCheck bs ≠ 0 →
           (t.dev.fring r).compl = [⟨cid, Fuller.headerCheck bs, e, 0, 0, 0, 0⟩] ∧ s.dev.Counted t.dev R.FUL_BLK_BAD) ∧
         (len = 20 + leAt bs 8 4 → Fuller.headerCheck bs = 0 →
           (∀ o, Fuller.openBlock bs = .ok o → o.length ≤ size →
             (out + o.length ≤ s.dev.dramC → (t.dev.fring r).compl = [⟨cid, 0, e, 1, o.length, len, 0⟩] ∧
               Memory.bytes t.mem out o.length = o ∧
               (∀ a, a < out ∨ out + o.length ≤ a → Memory.read t.mem a = Memory.read s.mem a) ∧
               s.dev.Counted t.dev R.FUL_BLK_DECOMP) ∧
             (s.dev.dramC < out + o.length → s.dev.Counted t.dev R.FUL_DRAM_ERR ∧ s.dev.Counted t.dev R.FUL_BLK_BAD ∧
               (bit (leAt b 1 1) 3 = false → (t.dev.fring r).compl = [⟨cid, 8, e, 0, 0, 0, 0⟩]))) ∧
           (∀ st, Fuller.openBlock bs = .error st → s.dev.Counted t.dev R.FUL_BLK_BAD ∧
             (bit (leAt b 1 1) 3 = false → (t.dev.fring r).compl = [⟨cid, st, e, 0, 0, 0, 0⟩]) ∧
             (bit (leAt b 1 1) 3 = true → leAt bs 4 4 ≤ size →
               (t.dev.fring r).compl = [⟨cid, 0, e, 0, leAt bs 4 4, len, 1⟩] ∧
               (∀ a, out ≤ a → a < out + leAt bs 4 4 → a < s.dev.dramC → Memory.read t.mem a = 0) ∧
               (∀ a, a < out ∨ out + leAt bs 4 4 ≤ a → Memory.read t.mem a = Memory.read s.mem a))))))) ∧
  (∀ (s : State) (r : Fin 8) (c : FCompl) (rest : List FCompl), s.EnginesRun → s.Sound → s.dev.poison = [] →
    (s.dev.fring r).compl = c :: rest →
    (let n := s.dev.fulCqSize r
     let at_ := (s.dev.fring r).cqAt
     let a := s.dev.rdPair (R.FUL_RING_CQ_BASE_LO r) (R.FUL_RING_CQ_BASE_HI r) + 32 * at_
     a + 32 ≤ s.dev.dramC → (at_ + 1) % n ≠ s.dev.rd (R.FUL_RING_CQ_HEAD r) % n → s.dev.lulling (.fuller (Fin.ofNat 4 c.engine)) = false →
     ∃ t, exec (.descriptorComplete r) s = .next t ∧ t.pending = s.pending ∧ s.dev.SameOutside [] t.dev ∧
       Memory.bytes t.mem a 28 = leBytes 2 c.cid ++ leBytes 1 c.status ++ leBytes 1 c.engine ++ leBytes 4 c.blocks ++
         leBytes 8 c.out ++ leBytes 8 c.safe ++ leBytes 4 c.bad ∧
       (∀ y, y < a ∨ a + 32 ≤ y → Memory.read t.mem y = Memory.read s.mem y) ∧ (t.dev.fring r).compl = rest ∧
       (t.dev.fring r).cqAt = (if at_ + 1 = n then 0 else at_ + 1))) ∧
  (∀ (s : State) (r : Fin 8), s.BusFree (0x41011C + 0x40 * r.val) → (s.dev.fring r).releasing = true →
    ∃ t, exec (.fulRingReset r) s = .next t ∧ s.Only [4] t ∧ t.dev.out = .bus 0 true :: s.dev.out ∧ t.dev.ful = s.dev.ful) ∧
  (∀ (s : State) (r : Fin 8), s.BusFree (0x41011C + 0x40 * r.val) → (s.dev.fring r).releasing = false → (s.dev.fring r).compl = [] →
    ∃ t, exec (.fulRingReset r) s = .next t ∧ s.Only [0x41] t ∧ t.dev.out = .bus 0 false :: s.dev.out ∧
      t.dev.rd (R.FUL_RING_SQ_HEAD r) = 0 ∧ t.dev.rd (R.FUL_RING_SQ_TAIL r) = 0 ∧ t.dev.rd (R.FUL_RING_CQ_HEAD r) = 0 ∧
      (t.dev.fring r).stream = none ∧ (t.dev.fring r).releasing = true ∧ (t.dev.fring r).cqAt = 0 ∧
      (t.dev.fring r).compl.map FCompl.cid = (s.dev.fulPlaces r).map (fun i => leAt (s.dev.fulDesc s.mem r i) 2 2) ∧
      ∀ c ∈ (t.dev.fring r).compl, c.status = 1) ∧
  (∀ (s : State) (r : Fin 8), s.EnginesRun →
    exec (.fulRingRelease r) s = .next (s.withDev (s.start.putRing r { s.dev.fring r with releasing := false }))) ∧
  ∀ (s : State) (u : LullUnit), s.dev.off = false →
    ∃ t, exec (.lullEnd u) s = .next t ∧ s.Only [] t ∧ t.dev.lulling u = false ∧
      ∀ l, (s.dev.thm.lulls.find? fun l => l.unit = u) = some l → l.start + l.len * 131072 / 3 ≤ t.dev.now

/-- An OPEN of an open session is refused with code 5, one in a state that does not admit its class with 4, one with values that fail
the check with the check's code; else the session opens (R419, R422, R425, R430, R437). CLOSE closes a session at once where no
encoded picture is in progress, and else after it; FLUSH waits for the picture in progress. RESTART_ARM arms (R436). -/
def Obligations.SessionsOpenAndClose : Prop :=
  ∀ (s : State) (k : Fin 32),
    (s.BusFree (0x421004 + 0x80 * k.val) →
      (let class_ := s.dev.cm (R.HVC_S_CTRL_CLASS k)
       let fits := s.dev.cm R.HVC_CTRL_EN ≠ 0 ∧ if class_ = 1 then s.dev.liveOrWarm = true else s.dev.state = .live
       let d := s.start.applyComm fun x => (Dev.hvcPicKeys k ++ Dev.hvcOpenKeys k).contains x
       ((s.dev.hs k).open_ = true →
         exec (.sessionOpen k) s = .next (s.answered (s.start.wr (R.HVC_S_STATUS_ERROR k) 5) 0 false)) ∧
       ((s.dev.hs k).open_ = false → ¬fits →
         exec (.sessionOpen k) s = .next (s.answered (s.start.wr (R.HVC_S_STATUS_ERROR k) 4) 0 false)) ∧
       ((s.dev.hs k).open_ = false → fits → d.openCheck k ≠ 0 →
         exec (.sessionOpen k) s = .next (s.answered (d.wr (R.HVC_S_STATUS_ERROR k) (d.openCheck k)) 0 false)) ∧
       ((s.dev.hs k).open_ = false → fits → d.openCheck k = 0 →
         ∃ t, exec (.sessionOpen k) s = .next t ∧ s.Only [0x42] t ∧ t.dev.rd (R.HVC_S_STATUS_ERROR k) = 0 ∧
           t.dev.rd (R.HVC_S_CTRL_OPEN k) = 1 ∧ t.dev.rd (R.HVC_S_DEV_PTR k) = 0 ∧ t.dev.rd (R.HVC_S_AU_PTRS_AU_DEV k) = 0 ∧
           (t.dev.hs k).open_ = true ∧ (t.dev.hs k).pic = none ∧ (t.dev.hs k).n = 0 ∧
           (t.dev.hs k).live = d.lvb (R.HVC_S_CTRL_CLASS k) ∧ (t.dev.hs k).dec = d.lvb (R.HVC_S_CTRL_DIR k) ∧
           (t.dev.hs k).w = d.fsW (d.lv (R.HVC_S_CTRL_FS k)) ∧ (t.dev.hs k).h = d.fsH (d.lv (R.HVC_S_CTRL_FS k)))) ∧
      ((s.dev.hs k).open_ = true → ((s.dev.hs k).pic = none ∨ (s.dev.hs k).dec = true) →
        ∃ t, exec (.sessionClose k) s = .next t ∧ s.Only [0x42] t ∧ t.dev.hs k = HSession.reset ∧
          t.dev.rd (R.HVC_S_CTRL_OPEN k) = 0 ∧ (∀ h ∈ t.dev.cmp.holds, h.2 ≠ 256 + k.val) ∧
          (∀ c ∈ t.dev.hvc.core.toList, c ≠ some k.val)) ∧
      (∀ p, (s.dev.hs k).open_ = true → (s.dev.hs k).pic = some p → (s.dev.hs k).dec = false →
        exec (.sessionClose k) s = .next (s.answered (s.start.putHs k { s.dev.hs k with closing := true }) 0 false)) ∧
      (∀ p, (s.dev.hs k).open_ = true → (s.dev.hs k).dec = true → (s.dev.hs k).pic = some p →
        exec (.sessionFlush k) s = .next (s.answered (s.start.putHs k { s.dev.hs k with flush := true }) 0 false))) ∧
    ∀ v : Word, s.BusFree 0x420010 →
      exec (.restartArmWrite v) s = .next (s.answered
        (if v.getLsbD 0 then s.start.wr R.HVC_RESTART_ARM_ARM 1 else s.start) 0 false)

/-- A core's row is done and it takes the LIVE row of earliest deadline (R420); a complete encoded picture goes to the byte ring with
its entry and advances both pointers, unless mirror mode withholds it (R434, R436), and a picture latched meanwhile is coded next; a
decoded one joins the decoded picture buffer, and no byte of DRAM outside that changes (R438, R439); a picture overdue by three periods
is finished in fallback (R435); the decoder takes an access unit past DEV_PTR, or nothing where none is whole, and refuses an SPS that
does not fit (R417, R438 to R440). The AU entry lies below the usable capacity, and no internal recorder records the session. -/
def Obligations.PicturesAreCodedAndPosted : Prop :=
  (∀ (s : State) (dec : Bool) (k : Fin 32) (p : HPic), s.dev.off = false →
    (∀ j : Fin 32, (s.dev.hs j).open_ = true → (s.dev.hs j).live = true) → s.dev.hvc.core[b2n dec]? = some (some k.val) →
    (s.dev.hs k).live = true → (s.dev.hs k).pic = some p → p.row < p.rows →
    ∃ t q, exec (.ctuRowDone dec) s = .next t ∧ s.Only [] t ∧ (t.dev.hs k).pic = some q ∧ q.row = p.row + 1 ∧
      ((s.dev.hs k).dec = false → q.rowBits = p.rowBits ++ [q.bits - p.bits] ∧ (p.fallback = true → q.fallback = true)) ∧
      t.dev.hvc.core[b2n dec]? = some (t.dev.nextRow dec)) ∧
  (∀ (s : State) (k : Fin 32) (p : HPic), s.dev.off = false → s.Sound → s.dev.poison = [] → (s.dev.hs k).pic = some p →
    (∀ q ∈ s.dev.hbx.recorders, q.kind ≠ 1) →
    (p.row < p.rows → exec (.pictureComplete k) s = .next (s.withDev s.start)) ∧
    (p.rows ≤ p.row → (s.dev.hs k).closing = false → (s.dev.hs k).dec = false →
      ∃ t, exec (.pictureComplete k) s = .next t ∧ t.pending = s.pending ∧ s.dev.SameOutside [4, 0x42] t.dev ∧
        ((s.dev.hs k).queue = [] → (t.dev.hs k).pic = none) ∧
        (∀ q more, (s.dev.hs k).queue = q :: more → (t.dev.hs k).queue = more ∧ ∃ u, (t.dev.hs k).pic = some u ∧ u.n = q.n ∧ u.row = q.row) ∧
        (t.dev.hs k).coded = (s.dev.hs k).coded ∧ s.dev.Counted t.dev (R.HVC_S_PICTURES k) ∧
        (if p.fallback then s.dev.Counted t.dev (R.HVC_S_FALLBACK_PIC k)
         else t.dev.rd (R.HVC_S_FALLBACK_PIC k) = s.dev.rd (R.HVC_S_FALLBACK_PIC k)) ∧
        (p.hold = true → t.mem = s.mem ∧ t.dev.rd (R.HVC_S_DEV_PTR k) = s.dev.rd (R.HVC_S_DEV_PTR k)) ∧
        (p.hold = false →
          t.dev.rd (R.HVC_S_AU_PTRS_AU_DEV k) = (s.dev.rd (R.HVC_S_AU_PTRS_AU_DEV k) + 1) %
            Nat.max 1 (s.dev.lv (R.HVC_S_AU_SIZE k)) % 2 ^ (R.HVC_S_AU_PTRS_AU_DEV k).width ∧
          (let a := s.dev.lvPair (R.HVC_S_AU_BASE_LO k) (R.HVC_S_AU_BASE_HI k) + 32 * s.dev.rd (R.HVC_S_AU_PTRS_AU_DEV k)
           a + 32 ≤ s.dev.dramC → Memory.bytes t.mem a 8 = leBytes 8 (s.dev.hs k).bytes ∧
           ∃ len, Memory.bytes t.mem (a + 8) 4 = leBytes 4 len ∧ 8 * len ≤ s.dev.lv (R.HVC_S_CAP k) ∧
             (t.dev.hs k).bytes = (s.dev.hs k).bytes + len ∧
             t.dev.rd (R.HVC_S_DEV_PTR k) = (s.dev.rd (R.HVC_S_DEV_PTR k) + len) %
               Nat.max 1 (4096 * s.dev.lv (R.HVC_S_BUF_BYTES k)) % 2 ^ (R.HVC_S_DEV_PTR k).width ∧
             Memory.bytes t.mem (a + 12) 6 = leBytes 4 p.poc ++ leBytes 1 p.type ++
               leBytes 1 (b2n p.fallback + 2 * b2n p.wd + 4 * b2n p.repeat_)))) ∧
    (p.rows ≤ p.row → (s.dev.hs k).closing = false → (s.dev.hs k).dec = true → p.bump = 0 →
      (let base := s.dev.lvPair (R.HVC_S_DPB_BASE_LO k) (R.HVC_S_DPB_BASE_HI k)
       ∃ t f, exec (.pictureComplete k) s = .next t ∧ t.pending = s.pending ∧ s.dev.SameOutside [4] t.dev ∧ (t.dev.hs k).pic = none ∧
         (t.dev.hs k).dpb = (s.dev.hs k).dpb ++ [f] ∧ f.poc = p.poc ∧ f.bad = p.bad ∧ f.ghost = false ∧
         f.write = ((s.dev.hs k).joined && !(s.dev.hs k).wait) ∧
         ∀ a, a < base ∨ base + 4096 * s.dev.lv (R.HVC_S_DPB_BYTES k) ≤ a → Memory.read t.mem a = Memory.read s.mem a))) ∧
  (∀ (s : State) (k : Fin 32) (p : HPic), s.dev.off = false → (s.dev.hs k).pic = some p → p.row < p.rows →
    (let since := if (s.dev.hs k).dec then p.due else p.latch
     let period := if (s.dev.hs k).dec then s.dev.hvcPeriod k else p.set.period
     ((3 * period / 256 : Nat) : Int) ≤ sext 48 (s.dev.wtm.wln + 2 ^ 48 - since) →
     ∃ t q, exec (.pictureWatchdog k) s = .next t ∧ s.Only [0x42] t ∧ s.dev.Counted t.dev (R.HVC_S_WATCHDOG k) ∧
       (t.dev.hs k).pic = some q ∧ q.row = p.rows ∧
       ((s.dev.hs k).dec = true → q.bad = true) ∧ ((s.dev.hs k).dec = false → q.fallback = true ∧ q.wd = true))) ∧
  ∀ (s : State) (k : Fin 32), s.dev.off = false →
    (((s.dev.hs k).open_ = false ∨ (s.dev.hs k).dec = false) → exec (.accessUnitTake k) s = .next (s.withDev s.start)) ∧
    ((s.dev.hs k).open_ = true → (s.dev.hs k).dec = true → (s.dev.hs k).closing = false → (s.dev.hs k).pic = none →
      s.dev.cm R.HVC_CTRL_EN ≠ 0 →
      (let size := Nat.max 1 (4096 * s.dev.lv (R.HVC_S_BUF_BYTES k))
       let off := s.dev.rd (R.HVC_S_DEV_PTR k)
       let n := (s.dev.rd (R.HVC_S_CLI_PTR k) % size + size - off) % size
       let bs := Dev.ringRead s.mem (s.dev.lvPair (R.HVC_S_BUF_BASE_LO k) (R.HVC_S_BUF_BASE_HI k)) size off n
       let len := Nat.min (Hevc.auLength bs (s.dev.hs k).flush) n
       let au := Config.hevcParse (Hevc.layer0 (bs.take len)).flatten
       let takes := match au.sps with
         | none => (s.dev.hs k).spsOk
         | some p => Hevc.spsFits p && decide (p.width - p.cropCols = (s.dev.hs k).w) && decide (p.height - p.cropRows = (s.dev.hs k).h)
             && decide (Config.hevcDpbBytes p ≤ 4096 * s.dev.lv (R.HVC_S_DPB_BYTES k))
       (len = 0 → exec (.accessUnitTake k) s = .next (s.withDev s.start)) ∧
       (len ≠ 0 → ∃ t, exec (.accessUnitTake k) s = .next t ∧ s.Only [0x42] t ∧
         t.dev.rd (R.HVC_S_DEV_PTR k) = (off + len) % size % 2 ^ (R.HVC_S_DEV_PTR k).width ∧ (t.dev.hs k).flush = false ∧
         (t.dev.hs k).spsOk = takes ∧
         (takes = true → au.decodable = true →
           ∃ q, (t.dev.hs k).pic = some q ∧ q.poc = au.poc ∧ q.row = 0 ∧ q.rows = Dev.ctuCols (s.dev.hs k).h) ∧
         (takes = true → au.decodable = false → (t.dev.hs k).pic = none ∧ (t.dev.hs k).dpb.length = (s.dev.hs k).dpb.length + 1) ∧
         (takes = false → (t.dev.hs k).pic = none ∧ (t.dev.hs k).dpb = (s.dev.hs k).dpb ∧
           (au.sps.isSome = true → s.dev.Counted t.dev (R.HVC_S_SPS_REFUSED k))))))

/-- A frame of a slave domain with index n, one after the last and inside a block, runs the domain; the input port of the domain
stores its samples, or zeros where the frame's bit clocks are not FRAME_BITS, in ring frame n and nowhere else (R443, R444, R446,
R447, R454); the output port drives the bits of its slots from OFFSET bit clocks on, or nothing where it is not driven (R24, R450,
R452). A stopped domain, a device out of service and the edge that FS_EDGE does not select do nothing (R443, R456). -/
def Obligations.AudioFramesAreStoredAndDriven : Prop :=
  ∀ (s : State) (k : Fin 2) (dt : Nat) (falling : Bool) (bclks : Nat) (lines : List (List Bool)), s.dev.off = false →
    ((s.dev.domainStopped Dev.audFamily k = true ∨ s.dev.inService = false) →
      exec (.audioFrame k ⟨dt, falling⟩ bclks lines) s = .next (s.withDev s.start)) ∧
    (s.dev.rdb (R.AUD_DOM_CTRL_MODE k) = false → falling ≠ s.dev.rdb (R.AUD_DOM_CTRL_FS_EDGE k) →
      exec (.audioFrame k ⟨dt, falling⟩ bclks lines) s = .next (s.withDev s.start)) ∧
    ∀ l t0, s.dev.domainStopped Dev.audFamily k = false → s.dev.inService = true → s.Sound → s.dev.poison = [] → s.dev.late = [] →
      s.dev.rdb (R.AUD_DOM_CTRL_MODE k) = false → falling = s.dev.rdb (R.AUD_DOM_CTRL_FS_EDGE k) →
      s.dev.rdb (R.AUD_DOM_STATUS_RATE_ERR k) = false →
      s.dev.audDom k = ⟨some l, some t0, (s.dev.audDom k).seen, false, (s.dev.audDom k).moved⟩ → (s.dev.audDom k).seen < 63 →
      (let n := (s.start.pass dt).audIndex k (s.start.pass dt).stc
       l + 1 = n → l / 64 = n / 64 → n % 64 ≠ 63 →
       (∀ (p : Fin 4) (b : AudBlock), s.dev.lv (R.AUD_IN_CTRL_DOM p) = k → (∀ q : Fin 4, q ≠ p → s.dev.lv (R.AUD_IN_CTRL_DOM q) ≠ k) →
         (∀ q : Fin 4, s.dev.lv (R.AUD_OUT_CTRL_DOM q) ≠ k) → s.dev.audInRuns p = true → (s.dev.audIn p).block = some b →
         s.dev.lvb (R.AUD_IN_CTRL_DETECT_EN p) = false → (∀ i, (s.dev.audIn p).pairs.getD i none = none) →
         s.dev.rd (R.AUD_IN_NONAUDIO p) = 0 →
         (let a := s.dev.audAddr p n 0
          let good := bclks = s.dev.frameBits k
          let samples := if good then s.dev.audSamples p (lines.getD p []) else List.replicate (s.dev.audSlots p) 0
          let bs := samples.flatMap (Dev.audPack (s.dev.lv (R.AUD_IN_CTRL_PACK p)))
          a + bs.length ≤ s.dev.dramC →
          ∃ t, exec (.audioFrame k ⟨dt, falling⟩ bclks lines) s = .next t ∧ t.pending = s.pending ∧ s.dev.SameOutside [0x43] t.dev ∧
            t.dev.now = s.dev.now + dt ∧ t.dev.rdb (R.AUD_DOM_STATUS_RUN k) = true ∧ (t.dev.audDom k).last = some n ∧
            Memory.bytes t.mem a bs.length = bs ∧
            (∀ y, y < a ∨ a + bs.length ≤ y → Memory.read t.mem y = Memory.read s.mem y) ∧ t.dev.audHolds p n = true ∧
            (¬good → s.dev.Counted t.dev (R.AUD_GAP_FRAMES p) ∧
              ∃ x, (t.dev.audIn p).block = some x ∧ x.m = b.m ∧ x.gap = true))) ∧
       (∀ p : Fin 4, (∀ q : Fin 4, s.dev.lv (R.AUD_IN_CTRL_DOM q) ≠ k) → s.dev.lv (R.AUD_OUT_CTRL_DOM p) = k →
         (∀ q : Fin 4, q ≠ p → s.dev.lv (R.AUD_OUT_CTRL_DOM q) ≠ k) → s.dev.audOutRuns p = true →
         s.dev.aud.blk[p]? = some (some (n / 64)) →
         (let outs := (List.range (s.dev.audOutSlots p)).map fun i => s.dev.audSlotOut s.mem p i n
          ∃ t, exec (.audioFrame k ⟨dt, falling⟩ bclks lines) s = .next t ∧ s.Only [0x43] t ∧
            (if s.dev.audDriven then t.dev.out = s.dev.audOut p (outs.map fun o => o.1) :: s.dev.out ∧
               s.dev.Counted t.dev (R.AUD_UNDER p) (outs.map fun o => o.2.1).sum
             else t.dev.out = s.dev.audOut p (outs.map fun _ => none) :: s.dev.out))))

/-- A port's link and locks stand in STATUS and a change is logged; a frame over 1,522 bytes is counted and dropped, one with another
VLAN tag or a fragment is dropped, and an answered one is answered, with the tag of its port (R457, R458; the answer itself is
free, log entry 4's). A stream of a LIVE device sends the oldest access unit of its session as RTP packets and advances past it,
once the pace of the one before has passed; one that DRAM cannot give is passed over, and one that is a PERIOD late is dropped and
counted (R477, R478, R479). -/
def Obligations.EthernetAndStreams : Prop :=
  (∀ (s : State) (p : Fin 2) (fec block link : Bool), s.dev.off = false →
    (s.dev.rdb (R.ETH_PORT_CTRL_EN p) = false → exec (.ethLinkChange p fec block link) s = .next (s.withDev s.start)) ∧
    (s.dev.rdb (R.ETH_PORT_CTRL_EN p) = true →
      ∃ t, exec (.ethLinkChange p fec block link) s = .next t ∧ s.Only [4, 0x45] t ∧
        t.dev.rdb (R.ETH_PORT_STATUS_FEC_LOCK p) = fec ∧ t.dev.rdb (R.ETH_PORT_STATUS_BLOCK_LOCK p) = block ∧
        t.dev.rdb (R.ETH_PORT_STATUS_LINK p) = link)) ∧
  (∀ (s : State) (p : Fin 2) (frame : List Byte), s.dev.off = false →
    (s.dev.ethRuns p = false → exec (.ethServiceFrame p frame) s = .next (s.withDev s.start)) ∧
    (s.dev.ethRuns p = true → 1522 < frame.length →
      exec (.ethServiceFrame p frame) s = .next (s.withDev (s.start.cnt R.ETH_OVERSIZE))) ∧
    (s.dev.ethRuns p = true → frame.length ≤ 1522 →
      (s.dev.vlanStrip p frame = none → exec (.ethServiceFrame p frame) s = .next (s.withDev s.start)) ∧
      ∀ f, s.dev.vlanStrip p frame = some f →
        (Dev.ipFragment f = true → exec (.ethServiceFrame p frame) s = .next (s.withDev s.start)) ∧
        (Dev.ipFragment f = false → ∃ t, exec (.ethServiceFrame p frame) s = .next t ∧ s.Only [] t ∧
          t.dev.out = ((Config.ethAnswer p f).map (fun a => Out.eth p (s.dev.vlanTag p a))).toList ++ s.dev.out))) ∧
  ∀ (s : State) (j : Fin 8), s.dev.off = false →
    (let k := s.dev.rtpSession j
     let a := s.dev.auAddr k
     let len := Memory.leNum s.mem (a + 8) 4
     let cli := s.dev.rd (R.HVC_S_CLI_PTR k)
     let size := 4096 * s.dev.lv (R.HVC_S_BUF_BYTES k)
     let base := s.dev.lvPair (R.HVC_S_BUF_BASE_LO k) (R.HVC_S_BUF_BASE_HI k)
     (s.dev.auLatch k = none → exec (.rtpAuSend j) s = .next (s.withDev s.start) ∧
       exec (.rtpLateDrop j) s = .next (s.withDev s.start)) ∧
     (s.dev.rtpRuns j = false → exec (.rtpAuSend j) s = .next (s.withDev s.start)) ∧
     (s.dev.now < s.dev.ptp.pace.getD j 0 → exec (.rtpAuSend j) s = .next (s.withDev s.start)) ∧
     ∀ latch, s.dev.auLatch k = some latch →
       (s.dev.rtpRuns j = true → s.dev.auLate k latch = false → s.dev.ptp.pace.getD j 0 ≤ s.dev.now →
         (s.dev.unreadable a 32 = true ∨ s.dev.unreadable (base + cli) (Nat.min len (size - cli)) = true ∨
           s.dev.unreadable base (len - (size - cli)) = true) →
         exec (.rtpAuSend j) s = .next (s.withDev (s.start.auConsume k len))) ∧
       (s.dev.rtpRuns j = true → s.dev.auLate k latch = false → s.dev.ptp.pace.getD j 0 ≤ s.dev.now →
         s.dev.unreadable a 32 = false → s.dev.unreadable (base + cli) (Nat.min len (size - cli)) = false →
         s.dev.unreadable base (len - (size - cli)) = false →
         (let bytes := Memory.bytes s.mem (base + cli) (Nat.min len (size - cli)) ++ Memory.bytes s.mem base (len - (size - cli))
          let packets := (Rtp.split bytes none).flatMap (Rtp.payloads
            (clampNat (s.dev.cm (R.ETH_STREAM_MTU j)) 576 9000 - (if s.dev.cmb (R.ETH_STREAM_CTRL_IPV6 j) then 76 else 56)))
          ∃ t, exec (.rtpAuSend j) s = .next t ∧ s.Only [0x42, 0x45] t ∧
            t.dev.out.length = s.dev.out.length + packets.length ∧
            t.dev.rd (R.HVC_S_CLI_PTR k) = (cli + len) % Nat.max 1 size % 2 ^ (R.HVC_S_CLI_PTR k).width ∧
            t.dev.rd (R.HVC_S_AU_PTRS_AU_CLI k) = (s.dev.rd (R.HVC_S_AU_PTRS_AU_CLI k) + 1) %
              Nat.max 1 (s.dev.lv (R.HVC_S_AU_SIZE k)) % 2 ^ (R.HVC_S_AU_PTRS_AU_CLI k).width ∧
            ∀ x, packets = [x] → s.dev.Counted t.dev (R.ETH_STREAM_PKTS j) ∧
              t.dev.rd (R.ETH_STREAM_NEXT_SEQ j) = (s.dev.rd (R.ETH_STREAM_NEXT_SEQ j) + 1) % 65536 ∧
              t.dev.out = .udp (s.dev.cm (R.ETH_STREAM_CTRL_PORT j)) (s.dev.rtpDest j) (s.dev.cm (R.ETH_STREAM_UDP_SRC_UDP j))
                (s.dev.cm (R.ETH_STREAM_UDP_DST_UDP j)) (s.dev.cm (R.ETH_STREAM_CTRL_DSCP j))
                ([128, BitVec.ofNat 8 (128 + s.dev.cm (R.ETH_STREAM_CTRL_PT j))] ++
                  beBytes 2 (s.dev.rd (R.ETH_STREAM_NEXT_SEQ j)) ++ beBytes 4 (s.dev.rtpTime (Memory.leNum s.mem (a + 18) 6)) ++
                  beBytes 4 (s.dev.cm (R.ETH_STREAM_SSRC j)) ++ x) :: s.dev.out)) ∧
       (s.dev.auLate k latch = true → s.dev.cmb (R.ETH_STREAM_CTRL_EN j) = true → s.dev.state = .live →
         exec (.rtpLateDrop j) s = .next (s.withDev ((s.start.cnt (R.ETH_STREAM_LATE_DROP j)).auConsume k len))))

/-- The first Announce of a master is remembered; the second within four intervals makes it the master in use and begins an
acquisition (R460, R463; the qualification is log entry 4's); its timeout leaves the servo in HOLDOVER. A Sync of the master in
use is kept with its correction, with that of its Follow_Up where it has two steps; messages of others only let time pass. A Sync
that finds no master of the domain and ports that the registers now name leaves the servo in HOLDOVER. -/
def Obligations.MastersAndSyncs : Prop :=
  (∀ (s : State) (p : Fin 2) (dt : Nat) (a : Announce), s.dev.off = false →
    (s.dev.ptpRuns p a.transport a.domain = false → exec (.announceReceive p dt a) s = .next (s.withDev (s.start.pass dt))) ∧
    (s.dev.ptpRuns p a.transport a.domain = true → s.dev.ptp.sel = none →
      (s.dev.ptp.masters = [] →
        exec (.announceReceive p dt a) s = .next (s.withDev { s.start.pass dt with
          ptp := { s.dev.ptp with masters := [⟨p, a, s.dev.now + dt, none⟩] } })) ∧
      (∀ m, s.dev.ptp.masters = [m] → m.port = p → m.info.source = a.source → a.steps < 255 →
        s.dev.now + dt ≤ m.at_ + 4 * nanos a.interval → s.dev.cm R.PTP_CTRL_PORT_SEL = p →
        ∃ t, exec (.announceReceive p dt a) s = .next t ∧ s.Only [0x44] t ∧ t.dev.now = s.dev.now + dt ∧
          t.dev.ptp.masters = [⟨p, a, s.dev.now + dt, some m.at_⟩] ∧ t.dev.ptp.sel = some (p.val, a.source) ∧
          t.dev.ptp.acq = true ∧ t.dev.ptp.exch = [] ∧ t.dev.rd R.PTP_STATUS_SERVO = 1 ∧
          t.dev.rd R.PTP_STATUS_ACTIVE_PORT = p ∧ t.dev.rdPair (R.PTP_GM_ID 0) (R.PTP_GM_ID 1) = a.gm % 2 ^ 64))) ∧
  (∀ (s : State) (p : Fin 2), s.dev.off = false →
    (s.dev.ptp.masters = [] → exec (.announceTimeout p) s = .next (s.withDev s.start)) ∧
    (∀ m, s.dev.ptp.masters = [m] → m.port = p → s.dev.ptp.sel = some (m.port, m.info.source) →
      ∃ t, exec (.announceTimeout p) s = .next t ∧ s.Only [2, 4, 0x44] t ∧ t.dev.ptp.masters = [] ∧ t.dev.ptp.sel = none ∧
        t.dev.wtm.ptpValid = false ∧ t.dev.rd R.PTP_STATUS_SERVO = 3 ∧ s.dev.Counted t.dev R.PTP_ANNOUNCE_TO ∧
        m.at_ + 3 * nanos m.info.interval ≤ t.dev.now)) ∧
  ∀ (s : State) (p : Fin 2) (dt : Nat) (x : PtpMsg), s.dev.off = false →
    (let d := (s.start.pass dt).ptpDrift
     let mine := s.dev.ptpRuns p x.transport x.domain = true ∧ s.dev.fromMaster p x.source = true
     (¬mine → (d.ptpStale = false → exec (.syncReceive p dt x) s = .next (s.withDev d)) ∧
       exec (.followUpReceive p x) s = .next (s.withDev s.start) ∧
       exec (.delayRespReceive p dt x) s = .next (s.withDev d)) ∧
     (s.dev.ptpRuns p x.transport x.domain = true → d.ptpStale = true → d.wantedMaster = none →
       exec (.syncReceive p dt x) s = .next (s.withDev d.ptpLose)) ∧
     (mine → d.ptpStale = false → x.twoStep = true →
       exec (.syncReceive p dt x) s = .next (s.withDev
         { d with ptp := { d.ptp with twoStep := some (p, x.seq, d.ptpRx p, x.corr) } })) ∧
     (mine → d.ptpStale = false → x.twoStep = false → (s.dev.ptp.acq = true ∨ s.dev.ptp.first = true) →
       exec (.syncReceive p dt x) s = .next (s.withDev { d.cnt R.PTP_SYNC_RX with
         ptp := { d.ptp with sync := some (d.ptpRx p, (x.time : Int) + x.corr) } })) ∧
     (mine → d.ptpStale = false → x.twoStep = false → s.dev.ptp.acq = false → s.dev.ptp.first = false →
       (let off : Int := x.time + x.corr + s.dev.ptp.delay - d.ptpRx p
        ∃ t, exec (.syncReceive p dt x) s = .next t ∧ s.Only [0x44] t ∧
          t.dev.rd R.PTP_OFFSET = Dev.satNs off ∧ s.dev.Counted t.dev R.PTP_SYNC_RX ∧
          (s.dev.rd R.PTP_STATUS_SERVO = 3 → t.dev.rd R.PTP_STATUS_SERVO = 3) ∧
          (s.dev.rd R.PTP_STATUS_SERVO ≠ 3 → -6553600 ≤ off → off ≤ 6553600 → 15 ≤ s.dev.ptp.good →
            t.dev.rd R.PTP_STATUS_SERVO = 2) ∧
          (s.dev.rd R.PTP_STATUS_SERVO ≠ 3 → (off < -6553600 ∨ 6553600 < off) → t.dev.rd R.PTP_STATUS_SERVO = 1))) ∧
     (∀ t2 corr, mine → s.dev.ptp.twoStep = some (p.val, x.seq, t2, corr) → (s.dev.ptp.acq = true ∨ s.dev.ptp.first = true) →
       exec (.followUpReceive p x) s = .next (s.withDev { s.start.cnt R.PTP_SYNC_RX with
         ptp := { s.dev.ptp with twoStep := none, sync := some (t2, (x.time : Int) + corr + x.corr) } })))

/-- A Delay_Req leaves once the interval that the master granted has passed; its stamp enters the queue of 64 or is lost and counted,
and TSQ_POP removes the oldest (R462). Its Delay_Resp completes an exchange, whose offset the first after BOOT moves the STC by;
an acquisition gathers eight and then steps the STC by their median, or refuses a jump beyond JUMP_NS (R460, R463, R464; the sign
of OFFSET is this model's reading). -/
def Obligations.ExchangesMoveTheStc : Prop :=
  (∀ (s : State) (dt : Nat), s.dev.off = false →
    (s.dev.ptp.sel = none → exec (.delayReqSend dt) s = .next (s.withDev (s.start.pass dt))) ∧
    ∀ p src, s.dev.ptp.sel = some (p, src) → s.dev.ptpRuns p s.dev.ptpTransport (s.dev.cm R.PTP_CTRL_DOMAIN) = true →
      ((s.start.pass dt).now < s.dev.ptp.reqAt + nanos s.dev.ptp.granted →
        exec (.delayReqSend dt) s = .next (s.withDev (s.start.pass dt))) ∧
      (s.dev.ptp.reqAt + nanos s.dev.ptp.granted ≤ (s.start.pass dt).now →
      (let t3 := (s.start.pass dt).ptpTx p
       let q := s.dev.ptp
       (q.tsq.length < 64 → exec (.delayReqSend dt) s = .next (s.withDev (({ s.start.pass dt with
          ptp := { q with
            tsq := q.tsq ++ [(⟨q.seq, 1, p, t3.toNat⟩ : TsqEntry)]
            req := some (p, q.seq, some t3)
            seq := (q.seq + 1) % 65536
            reqAt := (s.start.pass dt).now } }).emit (.delayReq p q.seq)))) ∧
       (64 ≤ q.tsq.length → exec (.delayReqSend dt) s = .next (s.withDev (({ (s.start.pass dt).cnt R.PTP_TS_OVF with
          ptp := { q with req := some (p, q.seq, none), seq := (q.seq + 1) % 65536, reqAt := (s.start.pass dt).now } }).emit
            (.delayReq p q.seq))))))) ∧
  (∀ s : State, s.BusFree 0x440044 → exec .tsqPop s = .next (s.answered
    { s.start with ptp := { s.dev.ptp with tsq := s.dev.ptp.tsq.tail } } 0 false)) ∧
  ∀ (s : State) (p : Fin 2) (dt : Nat) (x : PtpMsg) (t3 t2 t1 : Int), s.dev.off = false → s.dev.ptpRuns p x.transport x.domain = true →
    s.dev.fromMaster p x.source = true → s.dev.ptp.req = some (p.val, x.seq, some t3) → s.dev.ptp.sync = some (t2, t1) →
    (let d := (s.start.pass dt).ptpDrift
     let t4 : Int := x.time - x.corr
     let off := ((t1 - t2) + (t4 - t3)).fdiv 2
     let m := Dev.median (s.dev.ptp.exch ++ [off])
     ∃ t, exec (.delayRespReceive p dt x) s = .next t ∧ s.Only [2, 4, 0x43, 0x44] t ∧ t.dev.ptp.req = none ∧ t.dev.ptp.granted = x.interval ∧
       t.dev.ptp.delay = ((t2 - t1) + (t4 - t3)).fdiv 2 ∧ t.dev.rd R.PTP_OFFSET = Dev.satNs off ∧
       (s.dev.ptp.first = true → t.dev.stcOff = d.stcOff + off ∧ t.dev.ptp.first = false ∧ t.dev.wtm.ptpValid = true) ∧
       (s.dev.ptp.first = false → s.dev.ptp.acq = true → s.dev.ptp.exch.length < 7 →
         t.dev.stcOff = d.stcOff ∧ t.dev.ptp.exch = s.dev.ptp.exch ++ [off] ∧ t.dev.ptp.acq = true) ∧
       (s.dev.ptp.first = false → s.dev.ptp.acq = true → 7 ≤ s.dev.ptp.exch.length →
         t.dev.ptp.acq = false ∧
         ((m < -s.dev.jumpLimit ∨ s.dev.jumpLimit < m) → t.dev.stcOff = d.stcOff ∧ t.dev.rd R.PTP_PENDING_JUMP = Dev.satNs m ∧
           s.dev.Counted t.dev R.PTP_JUMPS_REFUSED ∧ t.dev.rd R.PTP_STATUS_SERVO = 3 ∧
           t.dev.rdb R.WTM_STATUS_JUMP_PENDING = true ∧ t.dev.wtm.jump = m) ∧
         (-s.dev.jumpLimit ≤ m → m ≤ s.dev.jumpLimit → t.dev.stcOff = d.stcOff + m ∧ t.dev.rd R.PTP_PENDING_JUMP = 0 ∧
           t.dev.rdb R.WTM_STATUS_JUMP_PENDING = false ∧ t.dev.wtm.ptpValid = true)) ∧
       (s.dev.ptp.first = false → s.dev.ptp.acq = false → t.dev.stcOff = d.stcOff))

/-- A message that does not authenticate is dropped and counted, one of another kind dropped, a repeat answered with its kept reply
under DUP, an older one (and one that has left the window of 64) counted as a replay, one that meets a full queue answered BUSY,
and every other takes its arrival number and its place in the queue (R467, R468, R469). Without operations and nothing in hand it
is answered at once with OK (R471, Table 17-4). A message whose length disagrees with LEN is counted (R466); one to another port
than CUE_PORT is nothing to this device, and a frame over 1,522 bytes is counted (R457); outside COLD, WARM and LIVE nothing is taken and no reply leaves (R21). -/
def Obligations.CueMessagesAreTaken : Prop :=
  (∀ (s : State) (p : Fin 2) (v6 : Bool) (addr : List Byte) (udp dst : Nat) (bs : List Byte), s.dev.off = false →
    ((s.dev.inService = false ∨ s.dev.ethRuns p = false ∨ bs.length ≤ 1480 - (if v6 then 20 else 0) ∧ dst ≠ s.dev.cm R.ETH_CUE_PORT) →
      exec (.cueMessageReceive (.eth p v6 addr udp dst) bs) s = .next (s.withDev s.start)) ∧
    (s.dev.inService = true → s.dev.ethRuns p = true → 1480 - (if v6 then 20 else 0) < bs.length →
      exec (.cueMessageReceive (.eth p v6 addr udp dst) bs) s = .next (s.withDev (s.start.cnt R.ETH_OVERSIZE))) ∧
    (s.dev.inService = true → s.dev.ethRuns p = true → bs.length ≤ 1480 - (if v6 then 20 else 0) → dst = s.dev.cm R.ETH_CUE_PORT →
      (cueLenOk bs = false → exec (.cueMessageReceive (.eth p v6 addr udp dst) bs) s = .next (s.withDev (s.start.cnt R.ETH_BAD_FRAME))) ∧
      (cueLenOk bs = true → s.dev.cueKey (cueKeyId bs) = none →
        exec (.cueMessageReceive (.eth p v6 addr udp dst) bs) s = .next (s.withDev (s.start.cnt R.ETH_AUTH_FAIL))) ∧
      ∀ k, cueLenOk bs = true → s.dev.cueKey (cueKeyId bs) = some k →
        (let right := beAt bs 0 2 = 0x5A43 ∧ beAt bs 2 1 = 1 ∧ hmacSha256 k.key (bs.take (bs.length - 32)) = bs.drop (bs.length - 32)
         let kept := k.replies.find? fun x => x.1 = cueSeq bs && decide (k.high.getD 0 < x.1 + 64)
         let old := ∃ h, k.high = some h ∧ cueSeq bs ≤ h
         (¬right → exec (.cueMessageReceive (.eth p v6 addr udp dst) bs) s = .next (s.withDev (s.start.cnt R.ETH_AUTH_FAIL))) ∧
         (right → cueKind bs ≠ 1 → exec (.cueMessageReceive (.eth p v6 addr udp dst) bs) s = .next (s.withDev s.start)) ∧
         (right → cueKind bs = 1 →
           (∀ x, kept = some x → exec (.cueMessageReceive (.eth p v6 addr udp dst) bs) s = .next (s.withDev
             ((s.start.cnt R.ETH_DUP_REPLY).emit (.udp p addr (s.dev.cm R.ETH_CUE_PORT) udp 0 (Dev.replyTo k bs (cueBody x.2) true))))) ∧
           (kept = none → old →
             exec (.cueMessageReceive (.eth p v6 addr udp dst) bs) s = .next (s.withDev (s.start.cnt R.ETH_REPLAY_DROP))) ∧
           (kept = none → ¬old → 64 ≤ s.dev.cue.queue.length →
             ∃ t r, exec (.cueMessageReceive (.eth p v6 addr udp dst) bs) s = .next t ∧ s.Only [0x45] t ∧ t.dev.cue = s.dev.cue ∧
               s.dev.Counted t.dev R.ETH_BUSY ∧ t.dev.out = .udp p addr (s.dev.cm R.ETH_CUE_PORT) udp 0 r :: s.dev.out ∧
               beAt r 40 1 = 0x0C ∧ cueSeq r = cueSeq bs) ∧
           (kept = none → ¬old → s.dev.cue.queue.length < 64 → s.dev.cue.job.isSome = true →
             ∃ t, exec (.cueMessageReceive (.eth p v6 addr udp dst) bs) s = .next t ∧ s.Only [0x45] t ∧
               t.dev.cue.queue = s.dev.cue.queue ++ [⟨(s.dev.cue.arrival + 1) % 2 ^ 64, .udp p v6 addr udp, bs⟩] ∧
               t.dev.cue.arrival = (s.dev.cue.arrival + 1) % 2 ^ 64 ∧ t.dev.cue.job = s.dev.cue.job ∧
               s.dev.Counted t.dev R.ETH_RX_MSG ∧ t.dev.cueKey (cueKeyId bs) = some { k with high := some (cueSeq bs) } ∧
               t.dev.out = s.dev.out) ∧
           (kept = none → ¬old → s.dev.cue.queue = [] → s.dev.cue.job = none → s.dev.cal.runq = [] → cueScheduled bs = false →
             cueBody bs = [] →
             ∃ t r, exec (.cueMessageReceive (.eth p v6 addr udp dst) bs) s = .next t ∧ s.Only [0x45] t ∧ t.dev.cue.queue = [] ∧
               t.dev.cue.job = none ∧ t.dev.out = .udp p addr (s.dev.cm R.ETH_CUE_PORT) udp 0 r :: s.dev.out ∧
               beAt r 40 1 = 0 ∧ cueSeq r = cueSeq bs ∧
               ∃ q, t.dev.cueKey (cueKeyId bs) = some q ∧ q.high = some (cueSeq bs) ∧
                 (q.replies.find? fun x => x.1 = cueSeq bs) = some (cueSeq bs, r)))))) ∧
  (∀ (s : State) (bs : List Byte), s.dev.off = false →
    exec (.writeMsg bs) s = exec (.cueMessageReceive .spi bs) s ∧
    (s.dev.inService = false → exec (.writeMsg bs) s = .next (s.withDev s.start)) ∧
    (s.dev.inService = true → cueLenOk bs = false → exec (.writeMsg bs) s = .next (s.withDev (s.start.cnt R.ETH_BAD_FRAME))) ∧
    (s.dev.inService = true → cueLenOk bs = true → 16 ≤ (s.dev.cue.spi.filter fun x => !x.1).length + s.dev.cue.spiOpen →
      exec (.writeMsg bs) s = .next (s.withDev (s.start.cnt R.ETH_SPI_DROP)))) ∧
  ∀ s : State, s.dev.off = false → s.dev.state ≠ .safe →
    exec .readStatus s = .next (s.withDev (s.start.emit (.spi (beBytes 1 s.dev.cue.spi.length ++
      beBytes 2 ((s.dev.cue.spi.head?.map fun x => x.2.length).getD 0))))) ∧
    (s.dev.inService = false → exec .readMsg s = .next (s.withDev s.start)) ∧
    (s.dev.cue.spi = [] → exec .readMsg s = .next (s.withDev s.start)) ∧
    ∀ x r, s.dev.inService = true → s.dev.cue.spi = x :: r →
      ∃ t, exec .readMsg s = .next t ∧ s.Only [] t ∧ t.dev.cue.spi = r ∧ t.dev.out = .spi x.2 :: s.dev.out ∧
        t.dev.pins.spitIrqN = r.isEmpty

/-- The operations of Table 17-3 that reach registers, tables, memory and the calendar (R470, R471, R473): each has its effect and the
job goes on with the next. An access to a stopped domain waits (R56), and a TBL_WRITE waits while TBL is busy; one for which no page is
free stops the request (R49). -/
def Obligations.CueOperationsReachTheirTargets : Prop :=
  ∀ (s : State) (j : CueJob) (a : List Byte) (more : List (Nat × List Byte)),
    (s.CueAt j 1 a more →
      (s.dev.accessStopped (beAt a 0 4) = true → ∃ t w, exec .regWrite s = .next t ∧ s.Only [] t ∧ t.dev.cue.job = some j ∧
        t.dev.clk.wait = some w ∧ w.addr = beAt a 0 4 ∧ w.write = true ∧ w.cue = true) ∧
      ∀ fs, s.dev.accessStopped (beAt a 0 4) = false → regAt (beAt a 0 4) = some fs → s.start.bootOnly fs = false →
        (∀ v, s.start.otherWrite s.mem (beAt a 0 4) v = none) → s.dev.mirrorOn = false → beAt a 8 4 = 0xFFFFFFFF →
        beAt a 0 4 ≠ 0x1000008 → beAt a 0 4 ≠ 0x100002C →
        (fs.map Fld.key).Nodup → R.WTM_COMMIT_PEND_DIRTY.key ∉ fs.map Fld.key → R.TOP_STATE.key ∉ fs.map Fld.key →
        R.VEER_STATUS_MIRROR.key ∉ fs.map Fld.key →
        ∃ t, exec .regWrite s = .next t ∧ t.mem = s.mem ∧ t.pending = s.pending ∧ t.dev.cue.job = some j.after ∧
          (∀ f ∈ fs, f.settable = true → f.boot = false →
            t.dev.rd f = bits (beAt a 4 4) (f.lo + f.width - 1) f.lo % 2 ^ f.width) ∧
          s.dev.SameBut (R.WTM_COMMIT_PEND_DIRTY.key :: fs.map Fld.key) t.dev) ∧
    (s.CueAt j 2 a more →
      (s.dev.accessStopped (beAt a 0 4) = true → 1 ≤ beAt a 4 1 → ∃ t w, exec .regRead s = .next t ∧ s.Only [] t ∧
        t.dev.cue.job = some j ∧ t.dev.clk.wait = some w ∧ w.addr = beAt a 0 4 ∧ w.write = false ∧ w.cue = true) ∧
      ∀ fs, s.dev.accessStopped (beAt a 0 4) = false → beAt a 4 1 = 1 → regAt (beAt a 0 4) = some fs →
        s.start.beforeRead (beAt a 0 4) = s.start → beAt a 0 4 ≠ 0x202004 →
        ∃ t, exec .regRead s = .next t ∧ t.mem = s.mem ∧ t.pending = s.pending ∧
          t.dev.cue.job = some { j.after with data := j.data ++ leBytes 4 (s.start.shownWord fs) } ∧
          (∀ f ∈ fs, f.acc = .rc → t.dev.rd f = 0) ∧ s.dev.SameBut ((fs.filter fun f => f.acc = .rc).map Fld.key) t.dev) ∧
    (s.CueAt j 3 a more →
      (s.dev.tbl.load.isSome = true → exec .tblWriteOp s = .next (s.withDev s.start)) ∧
      (s.dev.tbl.load = none → s.dev.noFreePage (beAt a 0 1) (beAt a 1 1) (beAt a 2 4) = true → j.msg = none → j.fired = none →
        s.dev.cue.queue = [] →
        ∃ t, exec .tblWriteOp s = .next t ∧ s.Only [] t ∧ t.dev.cue.job = none ∧ t.dev.tbl = s.dev.tbl) ∧
      (s.dev.tbl.load = none → s.dev.noFreePage (beAt a 0 1) (beAt a 1 1) (beAt a 2 4) = false →
        beAt a 2 4 < s.dev.tblEntries (beAt a 0 1) (beAt a 1 1) → s.dev.mirrorOn = false →
        s.dev.tblGroup (beAt a 0 1) < 8 →
        ∃ t, exec .tblWriteOp s = .next t ∧ s.Only [2] t ∧ t.dev.cue.job = some j.after ∧
          (∀ table inst off, t.dev.tblLive table inst off = s.dev.tblLive table inst off) ∧
          bit (t.dev.rd R.WTM_COMMIT_PEND_DIRTY) (s.dev.tblGroup (beAt a 0 1)) = true)) ∧
    (s.CueAt j 4 a more → s.Sound → s.dev.poison = [] →
      (let x := s.dev.cue.buffer + beAt a 0 4
       x + (a.drop 4).length ≤ s.dev.dramC →
       ∃ t, exec .memWrite s = .next t ∧ t.pending = s.pending ∧ s.dev.SameOutside [] t.dev ∧ t.dev.cue.job = some j.after ∧
         Memory.bytes t.mem x (a.drop 4).length = a.drop 4 ∧
         ∀ y, y < x ∨ x + (a.drop 4).length ≤ y → Memory.read t.mem y = Memory.read s.mem y)) ∧
    (s.CueAt j 5 a more →
      (let e := calArgs a
       s.dev.calCheck e.target e.action e.groups e.arg0 e.arg1 = 0 →
       ∃ t, exec .calInsertOp s = .next t ∧ s.Only [] t ∧ t.dev.cue.job = some j.after ∧
         t.dev.cal.entries = s.dev.cal.entries ++ [{ e with target := e.target % 2 ^ 48, past := decide (s.dev.ahead48 e.target ≤ 0) }])) ∧
    (s.CueAt j 6 a more →
      (let hit := s.dev.cal.entries.filter fun e => e.tag = beAt a 0 2
       (hit ≠ [] → ∃ t, exec .calCancelOp s = .next t ∧ s.Only [] t ∧
         t.dev.cue.job = some { j.after with removed := j.removed + hit.length } ∧
         t.dev.cal.entries = s.dev.cal.entries.filter fun e => e.tag ≠ beAt a 0 2) ∧
       (hit = [] → j.msg = none → j.fired = none → s.dev.cue.queue = [] →
         ∃ t, exec .calCancelOp s = .next t ∧ s.Only [] t ∧ t.dev.cue.job = none ∧ t.dev.cal.entries = s.dev.cal.entries))) ∧
    (s.CueAt j 8 a more →
      exec .storeCue s = .next (s.withDev (s.start.cput { s.dev.cue with
        stored := (beAt a 0 1, a.drop 1) :: s.dev.cue.stored.filter (fun x => x.1 != beAt a 0 1), job := some j.after }))) ∧
    (s.CueAt j 0xC a more →
      exec .status s = .next (s.withDev (s.start.cput { s.dev.cue with job := some { j.after with
        data := j.data ++ [0x4, 0x20004, 0x70004, 0x70008, 0x440008].flatMap
          (fun x => leBytes 4 (s.start.shownWord ((regAt x).getD []))) } }))) ∧
    (s.CueAt j 0xD a more → ∀ q, j.msg = some q → s.dev.cue.subs.length ≤ 4 →
      ∃ t x, exec .subscribe s = .next t ∧ s.Only [] t ∧ t.dev.cue.job = some j.after ∧
        t.dev.cue.subs = (s.dev.cue.subs ++ [x]).drop (s.dev.cue.subs.length - 3) ∧ x.key = cueKeyId q.bytes ∧
        (a = [] → x.addr = .spi) ∧
        (∀ p v6 addr udp, q.source = .udp p v6 addr udp → a ≠ [] →
          (beAt a 0 1 = 4 → x.addr = .udp p false (slice a 13 4) (beAt a 17 2)) ∧
          (beAt a 0 1 = 6 → x.addr = .udp p true (slice a 1 16) (beAt a 17 2))))

/-- COMMIT gathers its groups, which fall due as the message ends (R96, R471). TIME_ACCEPT applies the pending jump to the STC, a slew
in any state in service and a step in COLD only (R76, R465). VEER_REQ makes the calendar entry of a veer on the windward, goes to
the windward from a leeward, and fails unpaired (R357). SNAPSHOT raises CALM (R536). A fired CUE entry, of a stored cue or of a
scheduled request, logs the WLN at which it starts and starts its operations, or is refused where there are none or their check
fails, with reason 2 where the windward refuses show changes; a fired MARK entry is logged with its arguments (R82, R84, R86, R88;
the event number of a CUE's start is free, log entry 104). -/
def Obligations.CueCommandsAndFiredEntries : Prop :=
  (∀ (s : State) (j : CueJob) (a : List Byte) (more : List (Nat × List Byte)),
    (s.CueAt j 7 a more → exec .commitOp s = .next (s.withDev (s.start.cput { s.dev.cue with
      job := some { j.after with commits := Nat.lor j.commits (beAt a 0 1) } }))) ∧
    (s.CueAt j 9 a more →
      (beAt a 0 1 = 1 → exec .timeAcceptSlew s = .next (s.withDev s.start)) ∧
      (beAt a 0 1 ≠ 1 → exec .timeAcceptStep s = .next (s.withDev s.start)) ∧
      (s.dev.rdb R.WTM_STATUS_JUMP_PENDING = true →
        (∀ c, (c = .timeAcceptSlew ∧ beAt a 0 1 ≠ 1 ∨ c = .timeAcceptStep ∧ beAt a 0 1 = 1 ∧ s.dev.state = .cold) →
          ∃ t, exec c s = .next t ∧ s.Only [2, 4, 0x43, 0x44] t ∧ t.dev.cue.job = some j.after ∧
            t.dev.stcOff = s.dev.stcOff + s.dev.wtm.jump ∧ t.dev.wtm.jump = 0 ∧
            t.dev.rdb R.WTM_STATUS_JUMP_PENDING = false ∧ t.dev.rd R.PTP_PENDING_JUMP = 0))) ∧
    (s.CueAt j 0xA a more →
      (s.dev.state = .live → s.dev.veerCheck = 0 → s.dev.calCheck s.dev.veerLine 3 0 (s.dev.epoch + 1) 0 = 0 →
        ∃ t e, exec .veerReq s = .next t ∧ s.Only [] t ∧ t.dev.cue.job = some j.after ∧
          t.dev.cal.entries = s.dev.cal.entries ++ [e] ∧ e.action = 3 ∧ e.target = s.dev.veerLine % 2 ^ 48 ∧
          e.arg0 = s.dev.epoch + 1) ∧
      (s.dev.state ≠ .live → s.dev.rdb R.TOP_STATE_PAIRED = true →
        exec .veerReq s = .next (s.withDev ((s.start.sendFrame (.request .veer)).cput { s.dev.cue with job := some j.after }))) ∧
      (s.dev.state ≠ .live → s.dev.rdb R.TOP_STATE_PAIRED = false → j.msg = none → j.fired = none → s.dev.cue.queue = [] →
        ∃ t, exec .veerReq s = .next t ∧ s.Only [4, 7] t ∧ t.dev.cue.job = none ∧ t.dev.rd R.VEER_STATUS_LAST_REFUSE = 1)) ∧
    (s.CueAt j 0xB a more →
      exec .snapshot s = .next (s.withDev ((s.start.calm 2).cput { s.dev.cue with job := some j.after })))) ∧
  (∀ (s : State) (j : CueJob) (a : List Byte), s.dev.off = false → s.dev.inService = true → s.dev.clk.wait = none →
    s.dev.cue.job = some j → j.ops = [(7, a)] → j.msg = none → j.fired = none → s.dev.cue.queue = [] →
    ∃ t, exec .commitOp s = .next t ∧ s.Only [] t ∧ t.dev.cue = { s.dev.cue with job := none } ∧ t.dev.com.msgHold = 0 ∧
      t.dev.com.afterMsg = Nat.lor s.dev.com.afterMsg (Nat.lor j.commits (beAt a 0 1))) ∧
  ∀ (s : State) (f : FiredEntry) (r : List FiredEntry), s.dev.off = false → s.dev.inService = true → s.dev.cue.job = none →
    s.dev.cal.runq = f :: r →
    (let n := f.entry.arg1
     let sched := if n = 0 then s.dev.cue.sched else s.dev.cue.sched.filter fun x => x.1 != n
     let d : Dev := { s.start with cal := { s.start.cal with runq := r }, cue := { s.start.cue with sched := sched } }
     let refused (reason : Nat) := d.log 0x02 0 4 0x008 (f.entry.tag + 65536 * reason) 0 (some (.fired ⟨f.entry.past, s.dev.wtm.wln, f.entry.arg0, n⟩))
     (f.entry.action = 4 →
       (∀ b, ((n = 0 ∧ (s.dev.cue.stored.find? fun x => x.1 = f.entry.arg0) = some (f.entry.arg0, b)) ∨
            (n ≠ 0 ∧ (s.dev.cue.sched.find? fun x => x.1 = n) = some (n, b))) →
         (d.bodyCheck false true none b = none → (cueOps b).1 ≠ [] →
           ∃ t, exec .storedCueRun s = .next t ∧ s.Only [4] t ∧ t.dev.cal.runq = r ∧ t.dev.cue.sched = sched ∧
             t.dev.cue.job = some ⟨(cueOps b).1, 0, [], 0, 0, none, some f⟩ ∧ t.dev.com.msgHold = d.touched (cueOps b).1 ∧
             t.dev.elog = (d.log 0x02 0 0 (d.freeVal 41 % 2 ^ 13) s.dev.wtm.wln 0
               (some (.fired ⟨f.entry.past, s.dev.wtm.wln, f.entry.arg0, n⟩))).elog) ∧
         (∀ row c i, d.bodyCheck false true none b = some (row, c, i) → s.dev.cue.subs = [] → s.dev.cue.queue = [] →
           exec .storedCueRun s = .next (s.withDev (refused (if row = 1 then 2 else 1))))) ∧
       (((n = 0 ∧ (s.dev.cue.stored.find? fun x => x.1 = f.entry.arg0) = none) ∨
           (n ≠ 0 ∧ (s.dev.cue.sched.find? fun x => x.1 = n) = none)) → s.dev.cue.subs = [] → s.dev.cue.queue = [] →
         exec .storedCueRun s = .next (s.withDev (refused 1)))) ∧
     (f.entry.action = 5 → s.dev.cue.subs = [] → s.dev.cue.queue = [] →
       exec .markRun s = .next (s.withDev ({ s.start with cal := { s.start.cal with runq := r } }.log 0x02 0 0 0x009 f.entry.arg0 0
         (some (.fired ⟨f.entry.past, s.dev.wtm.wln, f.entry.arg0, n⟩))))))

/-- A window of a channel begins no sooner than the one before it has ended. Requests that have waited 10 µs leave it, and others that
have waited AGE_US are promoted (R485, R487); the first served is the first by R484's order that may be served, a LIVE one where
there is one, and a window serves no more than its slots, keeps the rest, and serves each request once; in a calibration it serves
none (R489). A request arrives with its requester's class of Table 2-3. The request that has waited longest is promoted and
counted (R485). -/
def Obligations.DramWindowsServeInOrder : Prop :=
  (∀ (s : State) (c : Fin 32) (dt : Nat) (slots : Fin 257), s.dev.off = false →
    (s.dev.dramRuns = false → exec (.dramWindow c dt [] slots) s = .next (s.withDev s.start)) ∧
    (s.dev.dramRuns = true →
      (let d := ((s.start.pass dt).upTo (s.dev.dramChan c).due).applyComm (Dev.dramKey (c.val / 8))
       let old := (s.dev.dramChan c).queue
       let gone (r : DramReq) := decide (r.at_ + micros 10 < d.now)
       let due (r : DramReq) := !r.up && Dev.dramRank r != 0 && decide (r.at_ + d.dramAge (c.val / 8) ≤ d.now)
       let queue := (old.filter fun r => !(old.any fun x => x.id = r.id && gone x)).map fun r => if due r then { r with up := true } else r
       (d.dramCalib c = true →
        ∃ t, exec (.dramWindow c dt [] slots) s = .next t ∧ s.Only [4, 0x50 + c.val / 8] t ∧ (t.dev.dramChan c).queue = queue ∧
          t.dev.now = Nat.max (s.dev.now + dt) (s.dev.dramChan c).due ∧ (t.dev.dramChan c).due = t.dev.now + s.dev.dramSpan ∧
          t.dev.out = s.dev.out ∧ (s.dev.dramChan c).kept ≤ (t.dev.dramChan c).kept) ∧
       (d.dramCalib c = false →
        ∃ t ids, exec (.dramWindow c dt [] slots) s = .next t ∧ s.Only [4, 0x50 + c.val / 8] t ∧
          t.dev.now = Nat.max (s.dev.now + dt) (s.dev.dramChan c).due ∧ (t.dev.dramChan c).due = t.dev.now + s.dev.dramSpan ∧
          t.dev.out = .dramServed c ids :: s.dev.out ∧ ids.length ≤ slots.val ∧
          (t.dev.dramChan c).queue = queue.filter (fun r => !ids.contains r.id) ∧
          (∀ i ∈ ids, ∃ r ∈ queue, r.id = i) ∧
          (slots.val ≠ 0 → ids.head? = (Dev.dramNext queue).map DramReq.id) ∧
          (∀ i r, ids.head? = some i → r ∈ queue → r.cls = .live → Dev.dramFree queue r = true →
            ∃ q ∈ queue, q.id = i ∧ q.cls = .live) ∧
          (ids.length < slots.val → ∀ r ∈ (t.dev.dramChan c).queue, Dev.dramFree (t.dev.dramChan c).queue r = false))))) ∧
  (∀ (s : State) (c : Fin 32) (dt : Nat) (a : DramArrival) (slots : Fin 257), s.dev.off = false → s.dev.dramRuns = true →
    (let d := ((s.start.pass dt).upTo (s.dev.dramChan c).due).applyComm (Dev.dramKey (c.val / 8))
     d.dramCalib c = true → (s.dev.dramPlace a.addr).1 = c → a.addr < s.dev.dramC →
     (∀ r ∈ (s.dev.dramChan c).queue, d.now ≤ r.at_ + micros 10 ∧ (r.up = true ∨ Dev.dramRank r = 0 ∨ d.now < r.at_ + d.dramAge (c.val / 8))) →
     ∃ t, exec (.dramWindow c dt [a] slots) s = .next t ∧ s.Only [] t ∧
       (t.dev.dramChan c).queue = (s.dev.dramChan c).queue ++ [⟨s.dev.dram.next, a.from_.cls, a.addr, a.write, d.now, false⟩] ∧
       t.dev.dram.next = s.dev.dram.next + 1)) ∧
  ∀ (s : State) (c : Fin 32), s.dev.off = false →
    (let f := (s.dev.dramChan c).queue.find? fun r => !r.up && Dev.dramRank r != 0
     (f = none → exec (.requestPromotion c) s = .next (s.withDev s.start)) ∧
     ∀ r, f = some r →
       ∃ t, exec (.requestPromotion c) s = .next t ∧ s.Only [0x50 + c.val / 8] t ∧
         r.at_ + s.dev.dramAge (c.val / 8) ≤ t.dev.now ∧ s.dev.Counted t.dev (R.DRM_PROMOTED (c.val / 8) (c.val % 8)) ∧
         (t.dev.dramChan c).queue =
           (s.dev.dramChan c).queue.map (fun p => if p.id = r.id then { p with up := true } else p))

/-- A read that finds one wrong bit counts CE; one that finds two counts UE, stands in UE_ADDR and leaves the unit uncorrectable
(R490, R491); an address at or beyond C is logged (R482). A request that times out counts TIMEOUT, and a read leaves its unit as
one with an uncorrectable error (R487). An MR4 reading stands in REF_MULT and HOT (R493). The scrubber of a quadrant reads its
next unit, once it falls due, while EN is 1; the one after falls due a share of HOURS later (R494). -/
def Obligations.DramErrorsAndUpkeep : Prop :=
  (∀ (s : State) (addr : Nat) (from_ : Requester) (ecc : Ecc), s.dev.off = false → s.dev.dramRuns = true →
    (s.dev.dramC ≤ addr → exec (.dramReadComplete addr ⟨from_, ecc⟩) s = .next (s.withDev (s.start.log 0x50 0 4 0x005 (addr % 65536)))) ∧
    (addr < s.dev.dramC → s.dev.poison.contains (addr / 32) = false →
      (let c := (s.dev.dramPlace addr).1
       ∃ t, exec (.dramReadComplete addr ⟨from_, ecc⟩) s = .next t ∧ s.Only [4, 0x50 + c / 8, 0x50 + (s.dev.dramPlace (32 * (addr / 32))).1 / 8] t ∧ t.dev.late.contains (addr / 32) = false ∧
         (ecc = .clean → s.Only [4] t ∧ t.dev.poison = s.dev.poison) ∧
         (ecc = .single → s.dev.Counted t.dev (R.DRM_CE (c / 8) (c % 8)) ∧ t.dev.poison = s.dev.poison) ∧
         (ecc = .double → t.dev.poison = addr / 32 :: s.dev.poison ∧
           (let u := (s.dev.dramPlace (32 * (addr / 32))).1
            s.dev.Counted t.dev (R.DRM_UE (u / 8) (u % 8)) ∧
            t.dev.rdPair (R.DRM_UE_ADDR_LO (u / 8)) (R.DRM_UE_ADDR_HI (u / 8)) =
              32 * (addr / 32) % 2 ^ ((R.DRM_UE_ADDR_LO (u / 8)).width + (R.DRM_UE_ADDR_HI (u / 8)).width)))))) ∧
  (∀ (s : State) (addr : Nat) (write : Bool), s.dev.off = false → s.dev.dramRuns = true → addr < s.dev.dramC →
    (let c := (s.dev.dramPlace addr).1
     ∃ t, exec (.dramRequestTimeout addr write) s = .next t ∧ s.Only [4, 0x50 + c / 8] t ∧
       s.dev.Counted t.dev (R.DRM_TIMEOUT (c / 8) (c % 8)) ∧
       (write = true → t.dev.late = s.dev.late) ∧ (write = false → t.dev.late.contains (addr / 32) = true) ∧
       ∀ r, (s.dev.dramChan c).queue.find? (fun r => r.addr = addr && r.write = write) = some r →
         r.at_ + micros 10 ≤ t.dev.now)) ∧
  (∀ (s : State) (c : Fin 32) (dt : Nat) (rate : Fin 3), s.dev.off = false → s.dev.dramRuns = true →
    ∃ t, exec (.mr4Poll c dt rate) s = .next t ∧ s.Only [4, 0x50 + c.val / 8] t ∧ t.dev.now = s.dev.now + dt ∧
      bits (t.dev.rd (R.DRM_STATUS_REF_MULT (c.val / 8))) (2 * (c.val % 8) + 1) (2 * (c.val % 8)) = rate ∧
      bit (t.dev.rd (R.DRM_HOT (c.val / 8))) (c.val % 8) = decide (rate.val = 2) ∧
      (rate.val = 2 → s.dev.Counted t.dev (R.DRM_HOT_POLLS (c.val / 8) (c.val % 8)))) ∧
  ∀ (s : State) (q : Fin 4) (dt : Nat), s.dev.off = false → s.dev.dramRuns = true → s.dev.lulling (.dramScrub q) = false →
    s.dev.dramUnits ≠ 0 →
    (let d := (s.start.pass dt).applyComm (Dev.dramKey q)
     let at_ := s.dev.dram.scrub.getD q (0, 0)
     (d.lvb (R.DRM_SCRUB_EN q) = false → exec (.dramScrub q dt .clean) s = .next (s.withDev (d.wrb (R.DRM_STATUS_SCRUBBING q) false))) ∧
     (d.lvb (R.DRM_SCRUB_EN q) = true → q.val < s.dev.dram.scrub.length → at_.1 < s.dev.dramUnits → at_.2 < 8 →
       ∃ t, exec (.dramScrub q dt .clean) s = .next t ∧ t.pending = s.pending ∧ t.mem = s.mem ∧
         t.dev.rdb (R.DRM_STATUS_SCRUBBING q) = true ∧ s.dev.dram.scrubAt.getD q 0 ≤ t.dev.now ∧
         (q.val < s.dev.dram.scrubAt.length → t.dev.dram.scrubAt.getD q 0 =
           Nat.max (s.dev.now + dt) (s.dev.dram.scrubAt.getD q 0) + d.scrubSpan q) ∧
         t.dev.dram.scrub.getD q (0, 0) = if at_.2 < 7 then (at_.1, at_.2 + 1) else ((at_.1 + 1) % s.dev.dramUnits, 0)))

/-- An entry that arises is held with its stamp (R525), the first held one is committed 2 µs after its stamp under the next sequence
number, the oldest of 256 giving way (R524), and is copied to the DRAM ring while DRAM_EN is 1 and nowhere else (R524, R527). A
register access of the test port reaches the bus in test mode only (R60, R555). -/
def Obligations.LogEntriesAreCommittedAndCopied : Prop :=
  (∀ (s : State) (source inst : Byte) (cls : Fin 8) (event : BitVec 13) (detail : Word) (episode : Fin 4), s.dev.off = false →
    (∀ x ∈ s.dev.elog.sources, x.source = source.toNat → x.gap = 0 ∧ x.free < s.dev.now + 4 * Dev.fabCycle) →
    ∃ t, exec (.logEntryArise source inst cls event detail episode) s = .next t ∧ s.Only [] t ∧
      t.dev.elog.held = s.dev.elog.held ++
        [⟨s.dev.stc, s.dev.now, source.toNat, inst.toNat, cls, event.toNat, detail.toNat, episode, none⟩] ∧
      t.dev.elog.ring = s.dev.elog.ring) ∧
  (∀ (s : State) (e : LogEntry), s.dev.off = false → s.dev.elog.held = [e] →
    ∃ t, exec .logCommit s = .next t ∧ s.Only [4] t ∧ t.dev.elog.held = [] ∧ e.born + micros 2 ≤ t.dev.now ∧
      t.dev.elog.ring = (s.dev.rd R.ERR_WR_SEQ, e) :: s.dev.elog.ring.take 255 ∧
      t.dev.rd R.ERR_WR_SEQ = (s.dev.rd R.ERR_WR_SEQ + 1) % 2 ^ 32 ∧
      (if e.cls = 5 then s.dev.Counted t.dev R.ERR_FATAL else t.dev.rd R.ERR_FATAL = s.dev.rd R.ERR_FATAL) ∧
      (∀ q x, s.dev.elog.ring[255]? = some (q, x) → s.dev.rdb R.ERR_CTRL_DRAM_EN = true → s.dev.rd R.ERR_DRAM_SEQ = q →
        s.dev.Counted t.dev R.ERR_NOT_COPIED ∧ t.dev.rd R.ERR_DRAM_SEQ = (q + 1) % 2 ^ 32)) ∧
  (∀ s : State, s.dev.off = false →
    ((s.dev.rdb R.ERR_CTRL_DRAM_EN = false ∨ s.dev.ringEntry (s.dev.rd R.ERR_DRAM_SEQ) = none) →
      exec .logDramCopy s = .next (s.withDev s.start)) ∧
    ∀ e, s.Sound → s.dev.poison = [] → s.dev.rdb R.ERR_CTRL_DRAM_EN = true → s.dev.ringEntry (s.dev.rd R.ERR_DRAM_SEQ) = some e →
      (let a := s.dev.rdPair R.ERR_DRAM_BASE_LO R.ERR_DRAM_BASE_HI + 16 * (s.dev.rd R.ERR_DRAM_SEQ % 65536)
       a + 16 ≤ s.dev.dramC →
       ∃ t, exec .logDramCopy s = .next t ∧ t.pending = s.pending ∧ s.dev.SameBut [R.ERR_DRAM_SEQ.key] t.dev ∧
         t.dev.rd R.ERR_DRAM_SEQ = (s.dev.rd R.ERR_DRAM_SEQ + 1) % 2 ^ 32 ∧ Memory.bytes t.mem a 16 = e.encode ∧
         ∀ y, y < a ∨ a + 16 ≤ y → Memory.read t.mem y = Memory.read s.mem y)) ∧
  ∀ s : State, s.dev.off = false →
    (∀ a w, s.dev.boot.tmode = false → exec (.testPortInstruction (.regacc a w)) s =
      .next (s.withDev { s.start with pins := { s.start.pins with testInstr := 7 } })) ∧
    (∀ a v, s.dev.boot.tmode = true → s.dev.clk.wait = none → s.dev.accessStopped a = true →
      exec (.testPortInstruction (.regacc a (some v))) s = .next (s.withDev { s.start with
        pins := { s.start.pins with testInstr := 7 }, clk := { s.start.clk with wait := some ⟨a, true, v, .word, s.dev.now, false⟩ } })) ∧
    exec (.testPortInstruction .extest) s = .next (s.withDev
      { s.start with pins := { s.start.pins with testInstr := if s.dev.boot.tmode then 4 else 0 } })

/-- A write to ERR.SEL latches entry SEL into E0 to E3 and sets RD_STATUS in one update: 0 for an entry that the ring holds, 1 for one
that has left it and 2 for one that is not yet written (R529). Nothing outside ERR changes. -/
def Obligations.ErrSelLatchesTheEntry : Prop :=
  ∀ (s : State) (v : Word), s.BusFree 0x40020 →
    ∃ t, exec (.errSelWrite v) s = .next t ∧ s.Only [4] t ∧ t.dev.out = .bus 0 false :: s.dev.out ∧ t.dev.rd R.ERR_SEL = v.toNat ∧
      (∀ e, s.dev.ringEntry v.toNat = some e → t.dev.rd R.ERR_RD_STATUS = 0 ∧
        ∀ i, i < 4 → t.dev.rd (R.ERR_E i) = leAt e.encode (4 * i) 4) ∧
      (s.dev.ringEntry v.toNat = none → (∀ i, i < 4 → t.dev.rd (R.ERR_E i) = 0) ∧
        (let back := (s.dev.rd R.ERR_WR_SEQ + 2 ^ 32 - v.toNat) % 2 ^ 32
         t.dev.rd R.ERR_RD_STATUS = if 0 < back ∧ back < 2 ^ 31 then 1 else 2))

/-- CALM by the pin, after 100 ns high, and by TRIGGER: each is counted; within 1 µs of the last it merges, under HOLD it is counted
in HELD, and else every running block latches, SEQ counts and SRC says why; the pin's trigger is never forwarded to CALM_OUT (R536
to R540). CALM_OUT ends after 200 ns (R538). BSEL and BADDR show a bank (R542), and the dump owed after a fatal fault goes to
DUMP_BASE (R541). -/
def Obligations.SnapshotsLatchTheBlocks : Prop :=
  (∀ (s : State) (c : Instr) (src : Nat),
    (c = .snapTriggerWrite ∧ src = 2 ∧ s.BusFree 0x50000 ∨
      (∃ ns, c = .calmNFall ns ∧ (s.dev.snap.pinFired = true → 100 ≤ ns)) ∧ src = 0 ∧ s.dev.off = false) →
    (let merged := ∃ x, s.dev.snap.last = some x ∧ s.dev.now ≤ x + micros 1
     ∃ t, exec c s = .next t ∧ t.mem = s.mem ∧ t.pending = s.pending ∧ s.dev.Counted t.dev R.SNAP_TRIGGERS ∧
       (src = 0 → t.dev.snap.pinFired = true ∧ t.dev.pins.calmOut = s.dev.pins.calmOut) ∧
       (merged → s.Only [5] t ∧ s.dev.Counted t.dev R.SNAP_MERGED ∧ t.dev.rd R.SNAP_SEQ = s.dev.rd R.SNAP_SEQ ∧
         t.dev.snap.banks = s.dev.snap.banks) ∧
       (¬merged → t.dev.snap.last = some s.dev.now ∧
         (src = 2 → s.dev.rdb R.SNAP_CTRL_OUT_EN = true → t.dev.pins.calmOut = false ∧
           t.dev.snap.outUntil = s.dev.now + nanos 200) ∧
         (s.dev.rdb R.SNAP_CTRL_HOLD = true → s.dev.Counted t.dev R.SNAP_HELD ∧ t.dev.snap.banks = s.dev.snap.banks) ∧
         (s.dev.rdb R.SNAP_CTRL_HOLD = false → s.Only [4, 5] t ∧
           t.dev.rd R.SNAP_SEQ = (s.dev.rd R.SNAP_SEQ + 1) % 2 ^ 32 ∧ t.dev.rd R.SNAP_SRC = src ∧
           t.dev.rdPair R.SNAP_T_WLN_LO R.SNAP_T_WLN_HI = s.dev.wtm.wln % 2 ^ 48 ∧
           ∀ w ∈ windows, (t.dev.bank w).latched = !(s.dev.domainStopped (Dev.domainOf (w * 65536)).1 (Dev.domainOf (w * 65536)).2))))) ∧
  (∀ (s : State) (ns : Nat), s.dev.off = false → s.dev.snap.pinFired = true → ns < 100 →
    exec (.calmNFall ns) s = .next (s.withDev s.start)) ∧
  (∀ s : State, s.dev.off = false →
    ∃ t, exec .calmOutPulseEnd s = .next t ∧ s.Only [] t ∧ t.dev.pins.calmOut = true ∧
      (s.dev.pins.calmOut = false → s.dev.snap.outUntil ≤ t.dev.now)) ∧
  (∀ (s : State) (baddr : Bool) (v : Word), s.BusFree (if baddr then 0x50044 else 0x50040) →
    ∃ t, exec (.bselWrite baddr v) s = .next t ∧ s.Only [5] t ∧ t.dev.out = .bus 0 false :: s.dev.out ∧
      (baddr = true → t.dev.rd R.SNAP_BADDR_OFFSET = v.toNat % 2 ^ 16) ∧
      (baddr = false → t.dev.rd R.SNAP_BSEL_SOURCE = v.toNat / 256 % 256 ∧ t.dev.rd R.SNAP_BSEL_INST = v.toNat % 256) ∧
      (let w := windowOf (t.dev.rd R.SNAP_BSEL_SOURCE) (t.dev.rd R.SNAP_BSEL_INST)
       (w = none → t.dev.rd R.SNAP_DATA = 0 ∧ t.dev.rd R.SNAP_BSTAT_LATCHED = 0) ∧
       ∀ x, w = some x → t.dev.rd R.SNAP_DATA = bankWord (s.dev.bank x) x (t.dev.rd R.SNAP_BADDR_OFFSET) % 2 ^ 32 ∧
         t.dev.rdb R.SNAP_BSTAT_LATCHED = (s.dev.bank x).latched ∧ t.dev.rdb R.SNAP_BSTAT_MISSED = (s.dev.bank x).missed)) ∧
  ∀ s : State, s.dev.off = false →
    (s.dev.snap.dumpOwed = false → exec .snapshotDump s = .next (s.withDev s.start)) ∧
    (s.dev.snap.dumpOwed = true → s.Sound → s.dev.poison = [] →
      (let a := s.dev.rdPair R.SNAP_DUMP_BASE_LO R.SNAP_DUMP_BASE_HI
       let bs := windows.flatMap (dumpBlock s.dev) ++ dumpRecord 0 0 0xFF 0
       a + bs.length ≤ s.dev.dramC →
       ∃ t, exec .snapshotDump s = .next t ∧ t.pending = s.pending ∧ s.dev.SameOutside [] t.dev ∧ t.dev.snap.dumpOwed = false ∧
         Memory.bytes t.mem a bs.length = bs ∧ ∀ y, y < a ∨ a + bs.length ≤ y → Memory.read t.mem y = Memory.read s.mem y))
end

