-- ==== Sys2Proof/Laws/Memory.lean ====
section
/-!
SUPPORT. The laws of the DRAM array: every change keeps its canonical form; in that form a read gives the byte last
written, and a write leaves every other byte alone.
-/

namespace Sys2Proof.Machine.Memory

theorem wfFrom_mono {lo lo' : Nat} (h : lo' ≤ lo) : ∀ {m : List Host.Cell}, wfFrom lo m = true → wfFrom lo' m = true
  | [], _ => rfl
  | (k, v) :: r, w => by
    simp only [wfFrom, Bool.and_eq_true, decide_eq_true_eq] at w ⊢
    exact ⟨⟨by omega, w.1.2⟩, w.2⟩

theorem wfFrom_write (a : Nat) (b : Byte) : ∀ {lo : Nat} {m : List Host.Cell}, lo ≤ a → wfFrom lo m = true →
    wfFrom lo (write m a b) = true
  | lo, [], h, _ => by
    unfold write; split <;> simp_all [wfFrom]
  | lo, (k, v) :: r, h, w => by
    simp only [wfFrom, Bool.and_eq_true, decide_eq_true_eq] at w
    obtain ⟨⟨h1, h2⟩, h3⟩ := w
    unfold write
    split
    · split
      · simp [wfFrom, h1, h2, h3]
      · have : a + 1 ≤ k := by omega
        simp [wfFrom, *]
    · split
      · subst_vars
        split
        · exact wfFrom_mono (by omega) h3
        · simp [wfFrom, *]
      · have : k + 1 ≤ a := by omega
        simp [wfFrom, h1, h2, wfFrom_write a b this h3]

theorem wfFrom_filter (p : Host.Cell → Bool) : ∀ {lo : Nat} {m : List Host.Cell}, wfFrom lo m = true →
    wfFrom lo (m.filter p) = true
  | _, [], _ => rfl
  | lo, (k, v) :: r, w => by
    simp only [wfFrom, Bool.and_eq_true, decide_eq_true_eq] at w
    obtain ⟨⟨h1, h2⟩, h3⟩ := w
    have ih := wfFrom_filter p h3
    rw [List.filter_cons]
    split
    · simp [wfFrom, h1, h2, ih]
    · exact wfFrom_mono (by omega) ih

/-- A write of one byte keeps the canonical form. -/
theorem wf_write {m : List Host.Cell} (w : wf m = true) (a : Nat) (b : Byte) : wf (write m a b) = true :=
  wfFrom_write a b (Nat.zero_le a) w

/-- A write of bytes keeps the canonical form. -/
theorem wf_writes : ∀ (bs : List Byte) {m : List Host.Cell} (a : Nat), wf m = true → wf (writes m a bs) = true
  | [], _, _, w => w
  | b :: r, _, a, w => wf_writes r (a + 1) (wf_write w a b)

/-- Clearing a range keeps the canonical form. -/
theorem wf_clear {m : List Host.Cell} (w : wf m = true) (a len : Nat) : wf (clear m a len) = true :=
  wfFrom_filter _ w

/-- Any change keeps the canonical form. -/
theorem wf_apply {m : List Host.Cell} (w : wf m = true) (op : MemOp) : wf (apply m op) = true := by
  cases op with
  | write a bs => exact wf_writes bs a w
  | clear a len => exact wf_clear w a len

/-- Any sequence of changes keeps the canonical form. -/
theorem wf_applyAll : ∀ (ops : List MemOp) {m : List Host.Cell}, wf m = true → wf (applyAll m ops) = true
  | [], _, w => w
  | op :: r, _, w => wf_applyAll r (wf_apply w op)

theorem read_below : ∀ {m : List Host.Cell} {lo a : Nat}, wfFrom lo m = true → a < lo → read m a = unlisted
  | [], _, _, _, _ => rfl
  | (k, v) :: r, lo, a, w, h => by
    simp only [wfFrom, Bool.and_eq_true, decide_eq_true_eq] at w
    have : a < k := by omega
    simp [read, this]

theorem read_write_from (a : Nat) (b : Byte) (c : Nat) : ∀ {m : List Host.Cell} {lo : Nat}, wfFrom lo m = true →
    read (write m a b) c = if c = a then b else read m c
  | [], _, _ => by
    unfold write; split
    · split <;> simp_all [read]
    · simp only [read]
      split
      · rw [if_neg (by omega)]
      · rfl
  | (k, v) :: r, lo, w => by
    simp only [wfFrom, Bool.and_eq_true, decide_eq_true_eq] at w
    obtain ⟨⟨h1, h2⟩, h3⟩ := w
    unfold write
    split
    next hak =>
      split
      · by_cases hc : c = a
        · subst hc; simp [read, hak, *]
        · rw [if_neg hc]
      · by_cases hc : c = a
        · subst hc; simp [read]
        · rw [if_neg hc]
          by_cases h : c < a
          · have h' : c < k := by omega
            simp [read, h, h']
          · simp [read, h, hc]
    next hak =>
      split
      next hk =>
        subst hk
        split
        next hb =>
          by_cases hc : c = a
          · subst hc; rw [if_pos rfl, read_below h3 (by omega), hb]
          · rw [if_neg hc]
            by_cases h : c < a
            · simp [read, h, read_below h3 (show c < a + 1 by omega)]
            · simp [read, h, hc]
        next hb =>
          by_cases hc : c = a
          · subst hc; simp [read]
          · simp [read, hc]
      next hk =>
        by_cases h : c < k
        · have : c ≠ a := by omega
          simp [read, h, this]
        · by_cases hck : c = k
          · have : c ≠ a := by omega
            subst hck; simp [read, this]
          · simp only [read, h, hck, if_false]
            exact read_write_from a b c h3

/-- A read after a write: the byte written at its address, every other byte as before. -/
theorem read_write {m : List Host.Cell} (w : wf m = true) (a : Nat) (b : Byte) (c : Nat) :
    read (write m a b) c = if c = a then b else read m c := read_write_from a b c w

/-- Bytes outside a range written are as before. -/
theorem read_writes_outside : ∀ (bs : List Byte) {m : List Host.Cell} (a c : Nat), wf m = true →
    (c < a ∨ a + bs.length ≤ c) → read (writes m a bs) c = read m c
  | [], _, _, _, _, _ => rfl
  | b :: r, m, a, c, w, h => by
    simp only [List.length_cons] at h
    rw [writes, read_writes_outside r (a + 1) c (wf_write w a b) (by omega), read_write w, if_neg (by omega)]

/-- The bytes of a range written read as written. -/
theorem read_writes_inside : ∀ (bs : List Byte) {m : List Host.Cell} (a i : Nat), wf m = true → (h : i < bs.length) →
    read (writes m a bs) (a + i) = bs[i]
  | b :: r, m, a, 0, w, _ => by
    rw [writes, read_writes_outside r (a + 1) (a + 0) (wf_write w a b) (by omega), read_write w]; simp
  | b :: r, m, a, i + 1, w, h => by
    rw [writes, show a + (i + 1) = (a + 1) + i by omega,
      read_writes_inside r (a + 1) i (wf_write w a b) (by simpa using h)]; simp

end Sys2Proof.Machine.Memory
end

