-- ==== Sys2Proof/Laws/State.lean ====
section
/-!
SUPPORT. What each shared operation leaves alone: one lemma per field of the device and per operation. The operations
that only write registers leave every part beyond the register file as it was; a log entry changes the event log and the
count of entries dropped.
-/

namespace Sys2Proof.Machine.Dev

/-! `wr`. -/

@[simp] theorem wr_comm (d : Dev) (f : Fld) (v : Nat) : (d.wr f v).comm = d.comm := rfl
@[simp] theorem wr_live (d : Dev) (f : Fld) (v : Nat) : (d.wr f v).live = d.live := rfl
@[simp] theorem wr_off (d : Dev) (f : Fld) (v : Nat) : (d.wr f v).off = d.off := rfl
@[simp] theorem wr_now (d : Dev) (f : Fld) (v : Nat) : (d.wr f v).now = d.now := rfl
@[simp] theorem wr_stcOff (d : Dev) (f : Fld) (v : Nat) : (d.wr f v).stcOff = d.stcOff := rfl
@[simp] theorem wr_wq (d : Dev) (f : Fld) (v : Nat) : (d.wr f v).wq = d.wq := rfl
@[simp] theorem wr_out (d : Dev) (f : Fld) (v : Nat) : (d.wr f v).out = d.out := rfl
@[simp] theorem wr_free (d : Dev) (f : Fld) (v : Nat) : (d.wr f v).free = d.free := rfl
@[simp] theorem wr_elog (d : Dev) (f : Fld) (v : Nat) : (d.wr f v).elog = d.elog := rfl
@[simp] theorem wr_snap (d : Dev) (f : Fld) (v : Nat) : (d.wr f v).snap = d.snap := rfl
@[simp] theorem wr_wtm (d : Dev) (f : Fld) (v : Nat) : (d.wr f v).wtm = d.wtm := rfl
@[simp] theorem wr_cal (d : Dev) (f : Fld) (v : Nat) : (d.wr f v).cal = d.cal := rfl
@[simp] theorem wr_com (d : Dev) (f : Fld) (v : Nat) : (d.wr f v).com = d.com := rfl
@[simp] theorem wr_tbl (d : Dev) (f : Fld) (v : Nat) : (d.wr f v).tbl = d.tbl := rfl
@[simp] theorem wr_boot (d : Dev) (f : Fld) (v : Nat) : (d.wr f v).boot = d.boot := rfl
@[simp] theorem wr_clk (d : Dev) (f : Fld) (v : Nat) : (d.wr f v).clk = d.clk := rfl
@[simp] theorem wr_sram (d : Dev) (f : Fld) (v : Nat) : (d.wr f v).sram = d.sram := rfl
@[simp] theorem wr_pins (d : Dev) (f : Fld) (v : Nat) : (d.wr f v).pins = d.pins := rfl
@[simp] theorem wr_tiles (d : Dev) (f : Fld) (v : Nat) : (d.wr f v).tiles = d.tiles := rfl
@[simp] theorem wr_cams (d : Dev) (f : Fld) (v : Nat) : (d.wr f v).cams = d.cams := rfl
@[simp] theorem wr_defects (d : Dev) (f : Fld) (v : Nat) : (d.wr f v).defects = d.defects := rfl
@[simp] theorem wr_poison (d : Dev) (f : Fld) (v : Nat) : (d.wr f v).poison = d.poison := rfl
@[simp] theorem wr_clr (d : Dev) (f : Fld) (v : Nat) : (d.wr f v).clr = d.clr := rfl
@[simp] theorem wr_cmp (d : Dev) (f : Fld) (v : Nat) : (d.wr f v).cmp = d.cmp := rfl
@[simp] theorem wr_scn (d : Dev) (f : Fld) (v : Nat) : (d.wr f v).scn = d.scn := rfl
@[simp] theorem wr_link (d : Dev) (f : Fld) (v : Nat) : (d.wr f v).link = d.link := rfl
@[simp] theorem wr_calib (d : Dev) (f : Fld) (v : Nat) : (d.wr f v).calib = d.calib := rfl
@[simp] theorem wr_plane (d : Dev) (f : Fld) (v : Nat) : (d.wr f v).plane = d.plane := rfl
@[simp] theorem wr_late (d : Dev) (f : Fld) (v : Nat) : (d.wr f v).late = d.late := rfl
@[simp] theorem wr_hbx (d : Dev) (f : Fld) (v : Nat) : (d.wr f v).hbx = d.hbx := rfl
@[simp] theorem wr_ful (d : Dev) (f : Fld) (v : Nat) : (d.wr f v).ful = d.ful := rfl
@[simp] theorem wr_thm (d : Dev) (f : Fld) (v : Nat) : (d.wr f v).thm = d.thm := rfl
@[simp] theorem wr_hvc (d : Dev) (f : Fld) (v : Nat) : (d.wr f v).hvc = d.hvc := rfl
@[simp] theorem wr_aud (d : Dev) (f : Fld) (v : Nat) : (d.wr f v).aud = d.aud := rfl
@[simp] theorem wr_ptp (d : Dev) (f : Fld) (v : Nat) : (d.wr f v).ptp = d.ptp := rfl
@[simp] theorem wr_cue (d : Dev) (f : Fld) (v : Nat) : (d.wr f v).cue = d.cue := rfl
@[simp] theorem wr_dram (d : Dev) (f : Fld) (v : Nat) : (d.wr f v).dram = d.dram := rfl
@[simp] theorem wr_pair (d : Dev) (f : Fld) (v : Nat) : (d.wr f v).pair = d.pair := rfl

/-! `wrb`. -/

@[simp] theorem wrb_comm (d : Dev) (f : Fld) (v : Bool) : (d.wrb f v).comm = d.comm := rfl
@[simp] theorem wrb_live (d : Dev) (f : Fld) (v : Bool) : (d.wrb f v).live = d.live := rfl
@[simp] theorem wrb_off (d : Dev) (f : Fld) (v : Bool) : (d.wrb f v).off = d.off := rfl
@[simp] theorem wrb_now (d : Dev) (f : Fld) (v : Bool) : (d.wrb f v).now = d.now := rfl
@[simp] theorem wrb_stcOff (d : Dev) (f : Fld) (v : Bool) : (d.wrb f v).stcOff = d.stcOff := rfl
@[simp] theorem wrb_wq (d : Dev) (f : Fld) (v : Bool) : (d.wrb f v).wq = d.wq := rfl
@[simp] theorem wrb_out (d : Dev) (f : Fld) (v : Bool) : (d.wrb f v).out = d.out := rfl
@[simp] theorem wrb_free (d : Dev) (f : Fld) (v : Bool) : (d.wrb f v).free = d.free := rfl
@[simp] theorem wrb_elog (d : Dev) (f : Fld) (v : Bool) : (d.wrb f v).elog = d.elog := rfl
@[simp] theorem wrb_snap (d : Dev) (f : Fld) (v : Bool) : (d.wrb f v).snap = d.snap := rfl
@[simp] theorem wrb_wtm (d : Dev) (f : Fld) (v : Bool) : (d.wrb f v).wtm = d.wtm := rfl
@[simp] theorem wrb_cal (d : Dev) (f : Fld) (v : Bool) : (d.wrb f v).cal = d.cal := rfl
@[simp] theorem wrb_com (d : Dev) (f : Fld) (v : Bool) : (d.wrb f v).com = d.com := rfl
@[simp] theorem wrb_tbl (d : Dev) (f : Fld) (v : Bool) : (d.wrb f v).tbl = d.tbl := rfl
@[simp] theorem wrb_boot (d : Dev) (f : Fld) (v : Bool) : (d.wrb f v).boot = d.boot := rfl
@[simp] theorem wrb_clk (d : Dev) (f : Fld) (v : Bool) : (d.wrb f v).clk = d.clk := rfl
@[simp] theorem wrb_sram (d : Dev) (f : Fld) (v : Bool) : (d.wrb f v).sram = d.sram := rfl
@[simp] theorem wrb_pins (d : Dev) (f : Fld) (v : Bool) : (d.wrb f v).pins = d.pins := rfl
@[simp] theorem wrb_tiles (d : Dev) (f : Fld) (v : Bool) : (d.wrb f v).tiles = d.tiles := rfl
@[simp] theorem wrb_cams (d : Dev) (f : Fld) (v : Bool) : (d.wrb f v).cams = d.cams := rfl
@[simp] theorem wrb_defects (d : Dev) (f : Fld) (v : Bool) : (d.wrb f v).defects = d.defects := rfl
@[simp] theorem wrb_poison (d : Dev) (f : Fld) (v : Bool) : (d.wrb f v).poison = d.poison := rfl
@[simp] theorem wrb_clr (d : Dev) (f : Fld) (v : Bool) : (d.wrb f v).clr = d.clr := rfl
@[simp] theorem wrb_cmp (d : Dev) (f : Fld) (v : Bool) : (d.wrb f v).cmp = d.cmp := rfl
@[simp] theorem wrb_scn (d : Dev) (f : Fld) (v : Bool) : (d.wrb f v).scn = d.scn := rfl
@[simp] theorem wrb_link (d : Dev) (f : Fld) (v : Bool) : (d.wrb f v).link = d.link := rfl
@[simp] theorem wrb_calib (d : Dev) (f : Fld) (v : Bool) : (d.wrb f v).calib = d.calib := rfl
@[simp] theorem wrb_plane (d : Dev) (f : Fld) (v : Bool) : (d.wrb f v).plane = d.plane := rfl
@[simp] theorem wrb_late (d : Dev) (f : Fld) (v : Bool) : (d.wrb f v).late = d.late := rfl
@[simp] theorem wrb_hbx (d : Dev) (f : Fld) (v : Bool) : (d.wrb f v).hbx = d.hbx := rfl
@[simp] theorem wrb_ful (d : Dev) (f : Fld) (v : Bool) : (d.wrb f v).ful = d.ful := rfl
@[simp] theorem wrb_thm (d : Dev) (f : Fld) (v : Bool) : (d.wrb f v).thm = d.thm := rfl
@[simp] theorem wrb_hvc (d : Dev) (f : Fld) (v : Bool) : (d.wrb f v).hvc = d.hvc := rfl
@[simp] theorem wrb_aud (d : Dev) (f : Fld) (v : Bool) : (d.wrb f v).aud = d.aud := rfl
@[simp] theorem wrb_ptp (d : Dev) (f : Fld) (v : Bool) : (d.wrb f v).ptp = d.ptp := rfl
@[simp] theorem wrb_cue (d : Dev) (f : Fld) (v : Bool) : (d.wrb f v).cue = d.cue := rfl
@[simp] theorem wrb_dram (d : Dev) (f : Fld) (v : Bool) : (d.wrb f v).dram = d.dram := rfl
@[simp] theorem wrb_pair (d : Dev) (f : Fld) (v : Bool) : (d.wrb f v).pair = d.pair := rfl

/-! `addCnt`. -/

@[simp] theorem addCnt_comm (d : Dev) (f : Fld) (k : Nat) : (d.addCnt f k).comm = d.comm := rfl
@[simp] theorem addCnt_live (d : Dev) (f : Fld) (k : Nat) : (d.addCnt f k).live = d.live := rfl
@[simp] theorem addCnt_off (d : Dev) (f : Fld) (k : Nat) : (d.addCnt f k).off = d.off := rfl
@[simp] theorem addCnt_now (d : Dev) (f : Fld) (k : Nat) : (d.addCnt f k).now = d.now := rfl
@[simp] theorem addCnt_stcOff (d : Dev) (f : Fld) (k : Nat) : (d.addCnt f k).stcOff = d.stcOff := rfl
@[simp] theorem addCnt_wq (d : Dev) (f : Fld) (k : Nat) : (d.addCnt f k).wq = d.wq := rfl
@[simp] theorem addCnt_out (d : Dev) (f : Fld) (k : Nat) : (d.addCnt f k).out = d.out := rfl
@[simp] theorem addCnt_free (d : Dev) (f : Fld) (k : Nat) : (d.addCnt f k).free = d.free := rfl
@[simp] theorem addCnt_elog (d : Dev) (f : Fld) (k : Nat) : (d.addCnt f k).elog = d.elog := rfl
@[simp] theorem addCnt_snap (d : Dev) (f : Fld) (k : Nat) : (d.addCnt f k).snap = d.snap := rfl
@[simp] theorem addCnt_wtm (d : Dev) (f : Fld) (k : Nat) : (d.addCnt f k).wtm = d.wtm := rfl
@[simp] theorem addCnt_cal (d : Dev) (f : Fld) (k : Nat) : (d.addCnt f k).cal = d.cal := rfl
@[simp] theorem addCnt_com (d : Dev) (f : Fld) (k : Nat) : (d.addCnt f k).com = d.com := rfl
@[simp] theorem addCnt_tbl (d : Dev) (f : Fld) (k : Nat) : (d.addCnt f k).tbl = d.tbl := rfl
@[simp] theorem addCnt_boot (d : Dev) (f : Fld) (k : Nat) : (d.addCnt f k).boot = d.boot := rfl
@[simp] theorem addCnt_clk (d : Dev) (f : Fld) (k : Nat) : (d.addCnt f k).clk = d.clk := rfl
@[simp] theorem addCnt_sram (d : Dev) (f : Fld) (k : Nat) : (d.addCnt f k).sram = d.sram := rfl
@[simp] theorem addCnt_pins (d : Dev) (f : Fld) (k : Nat) : (d.addCnt f k).pins = d.pins := rfl
@[simp] theorem addCnt_tiles (d : Dev) (f : Fld) (k : Nat) : (d.addCnt f k).tiles = d.tiles := rfl
@[simp] theorem addCnt_cams (d : Dev) (f : Fld) (k : Nat) : (d.addCnt f k).cams = d.cams := rfl
@[simp] theorem addCnt_defects (d : Dev) (f : Fld) (k : Nat) : (d.addCnt f k).defects = d.defects := rfl
@[simp] theorem addCnt_poison (d : Dev) (f : Fld) (k : Nat) : (d.addCnt f k).poison = d.poison := rfl
@[simp] theorem addCnt_clr (d : Dev) (f : Fld) (k : Nat) : (d.addCnt f k).clr = d.clr := rfl
@[simp] theorem addCnt_cmp (d : Dev) (f : Fld) (k : Nat) : (d.addCnt f k).cmp = d.cmp := rfl
@[simp] theorem addCnt_scn (d : Dev) (f : Fld) (k : Nat) : (d.addCnt f k).scn = d.scn := rfl
@[simp] theorem addCnt_link (d : Dev) (f : Fld) (k : Nat) : (d.addCnt f k).link = d.link := rfl
@[simp] theorem addCnt_calib (d : Dev) (f : Fld) (k : Nat) : (d.addCnt f k).calib = d.calib := rfl
@[simp] theorem addCnt_plane (d : Dev) (f : Fld) (k : Nat) : (d.addCnt f k).plane = d.plane := rfl
@[simp] theorem addCnt_late (d : Dev) (f : Fld) (k : Nat) : (d.addCnt f k).late = d.late := rfl
@[simp] theorem addCnt_hbx (d : Dev) (f : Fld) (k : Nat) : (d.addCnt f k).hbx = d.hbx := rfl
@[simp] theorem addCnt_ful (d : Dev) (f : Fld) (k : Nat) : (d.addCnt f k).ful = d.ful := rfl
@[simp] theorem addCnt_thm (d : Dev) (f : Fld) (k : Nat) : (d.addCnt f k).thm = d.thm := rfl
@[simp] theorem addCnt_hvc (d : Dev) (f : Fld) (k : Nat) : (d.addCnt f k).hvc = d.hvc := rfl
@[simp] theorem addCnt_aud (d : Dev) (f : Fld) (k : Nat) : (d.addCnt f k).aud = d.aud := rfl
@[simp] theorem addCnt_ptp (d : Dev) (f : Fld) (k : Nat) : (d.addCnt f k).ptp = d.ptp := rfl
@[simp] theorem addCnt_cue (d : Dev) (f : Fld) (k : Nat) : (d.addCnt f k).cue = d.cue := rfl
@[simp] theorem addCnt_dram (d : Dev) (f : Fld) (k : Nat) : (d.addCnt f k).dram = d.dram := rfl
@[simp] theorem addCnt_pair (d : Dev) (f : Fld) (k : Nat) : (d.addCnt f k).pair = d.pair := rfl

/-! `cnt`. -/

@[simp] theorem cnt_comm (d : Dev) (f : Fld) : (d.cnt f).comm = d.comm := rfl
@[simp] theorem cnt_live (d : Dev) (f : Fld) : (d.cnt f).live = d.live := rfl
@[simp] theorem cnt_off (d : Dev) (f : Fld) : (d.cnt f).off = d.off := rfl
@[simp] theorem cnt_now (d : Dev) (f : Fld) : (d.cnt f).now = d.now := rfl
@[simp] theorem cnt_stcOff (d : Dev) (f : Fld) : (d.cnt f).stcOff = d.stcOff := rfl
@[simp] theorem cnt_wq (d : Dev) (f : Fld) : (d.cnt f).wq = d.wq := rfl
@[simp] theorem cnt_out (d : Dev) (f : Fld) : (d.cnt f).out = d.out := rfl
@[simp] theorem cnt_free (d : Dev) (f : Fld) : (d.cnt f).free = d.free := rfl
@[simp] theorem cnt_elog (d : Dev) (f : Fld) : (d.cnt f).elog = d.elog := rfl
@[simp] theorem cnt_snap (d : Dev) (f : Fld) : (d.cnt f).snap = d.snap := rfl
@[simp] theorem cnt_wtm (d : Dev) (f : Fld) : (d.cnt f).wtm = d.wtm := rfl
@[simp] theorem cnt_cal (d : Dev) (f : Fld) : (d.cnt f).cal = d.cal := rfl
@[simp] theorem cnt_com (d : Dev) (f : Fld) : (d.cnt f).com = d.com := rfl
@[simp] theorem cnt_tbl (d : Dev) (f : Fld) : (d.cnt f).tbl = d.tbl := rfl
@[simp] theorem cnt_boot (d : Dev) (f : Fld) : (d.cnt f).boot = d.boot := rfl
@[simp] theorem cnt_clk (d : Dev) (f : Fld) : (d.cnt f).clk = d.clk := rfl
@[simp] theorem cnt_sram (d : Dev) (f : Fld) : (d.cnt f).sram = d.sram := rfl
@[simp] theorem cnt_pins (d : Dev) (f : Fld) : (d.cnt f).pins = d.pins := rfl
@[simp] theorem cnt_tiles (d : Dev) (f : Fld) : (d.cnt f).tiles = d.tiles := rfl
@[simp] theorem cnt_cams (d : Dev) (f : Fld) : (d.cnt f).cams = d.cams := rfl
@[simp] theorem cnt_defects (d : Dev) (f : Fld) : (d.cnt f).defects = d.defects := rfl
@[simp] theorem cnt_poison (d : Dev) (f : Fld) : (d.cnt f).poison = d.poison := rfl
@[simp] theorem cnt_clr (d : Dev) (f : Fld) : (d.cnt f).clr = d.clr := rfl
@[simp] theorem cnt_cmp (d : Dev) (f : Fld) : (d.cnt f).cmp = d.cmp := rfl
@[simp] theorem cnt_scn (d : Dev) (f : Fld) : (d.cnt f).scn = d.scn := rfl
@[simp] theorem cnt_link (d : Dev) (f : Fld) : (d.cnt f).link = d.link := rfl
@[simp] theorem cnt_calib (d : Dev) (f : Fld) : (d.cnt f).calib = d.calib := rfl
@[simp] theorem cnt_plane (d : Dev) (f : Fld) : (d.cnt f).plane = d.plane := rfl
@[simp] theorem cnt_late (d : Dev) (f : Fld) : (d.cnt f).late = d.late := rfl
@[simp] theorem cnt_hbx (d : Dev) (f : Fld) : (d.cnt f).hbx = d.hbx := rfl
@[simp] theorem cnt_ful (d : Dev) (f : Fld) : (d.cnt f).ful = d.ful := rfl
@[simp] theorem cnt_thm (d : Dev) (f : Fld) : (d.cnt f).thm = d.thm := rfl
@[simp] theorem cnt_hvc (d : Dev) (f : Fld) : (d.cnt f).hvc = d.hvc := rfl
@[simp] theorem cnt_aud (d : Dev) (f : Fld) : (d.cnt f).aud = d.aud := rfl
@[simp] theorem cnt_ptp (d : Dev) (f : Fld) : (d.cnt f).ptp = d.ptp := rfl
@[simp] theorem cnt_cue (d : Dev) (f : Fld) : (d.cnt f).cue = d.cue := rfl
@[simp] theorem cnt_dram (d : Dev) (f : Fld) : (d.cnt f).dram = d.dram := rfl
@[simp] theorem cnt_pair (d : Dev) (f : Fld) : (d.cnt f).pair = d.pair := rfl

/-! `cntWrap`. -/

@[simp] theorem cntWrap_comm (d : Dev) (f : Fld) : (d.cntWrap f).comm = d.comm := rfl
@[simp] theorem cntWrap_live (d : Dev) (f : Fld) : (d.cntWrap f).live = d.live := rfl
@[simp] theorem cntWrap_off (d : Dev) (f : Fld) : (d.cntWrap f).off = d.off := rfl
@[simp] theorem cntWrap_now (d : Dev) (f : Fld) : (d.cntWrap f).now = d.now := rfl
@[simp] theorem cntWrap_stcOff (d : Dev) (f : Fld) : (d.cntWrap f).stcOff = d.stcOff := rfl
@[simp] theorem cntWrap_wq (d : Dev) (f : Fld) : (d.cntWrap f).wq = d.wq := rfl
@[simp] theorem cntWrap_out (d : Dev) (f : Fld) : (d.cntWrap f).out = d.out := rfl
@[simp] theorem cntWrap_free (d : Dev) (f : Fld) : (d.cntWrap f).free = d.free := rfl
@[simp] theorem cntWrap_elog (d : Dev) (f : Fld) : (d.cntWrap f).elog = d.elog := rfl
@[simp] theorem cntWrap_snap (d : Dev) (f : Fld) : (d.cntWrap f).snap = d.snap := rfl
@[simp] theorem cntWrap_wtm (d : Dev) (f : Fld) : (d.cntWrap f).wtm = d.wtm := rfl
@[simp] theorem cntWrap_cal (d : Dev) (f : Fld) : (d.cntWrap f).cal = d.cal := rfl
@[simp] theorem cntWrap_com (d : Dev) (f : Fld) : (d.cntWrap f).com = d.com := rfl
@[simp] theorem cntWrap_tbl (d : Dev) (f : Fld) : (d.cntWrap f).tbl = d.tbl := rfl
@[simp] theorem cntWrap_boot (d : Dev) (f : Fld) : (d.cntWrap f).boot = d.boot := rfl
@[simp] theorem cntWrap_clk (d : Dev) (f : Fld) : (d.cntWrap f).clk = d.clk := rfl
@[simp] theorem cntWrap_sram (d : Dev) (f : Fld) : (d.cntWrap f).sram = d.sram := rfl
@[simp] theorem cntWrap_pins (d : Dev) (f : Fld) : (d.cntWrap f).pins = d.pins := rfl
@[simp] theorem cntWrap_tiles (d : Dev) (f : Fld) : (d.cntWrap f).tiles = d.tiles := rfl
@[simp] theorem cntWrap_cams (d : Dev) (f : Fld) : (d.cntWrap f).cams = d.cams := rfl
@[simp] theorem cntWrap_defects (d : Dev) (f : Fld) : (d.cntWrap f).defects = d.defects := rfl
@[simp] theorem cntWrap_poison (d : Dev) (f : Fld) : (d.cntWrap f).poison = d.poison := rfl
@[simp] theorem cntWrap_clr (d : Dev) (f : Fld) : (d.cntWrap f).clr = d.clr := rfl
@[simp] theorem cntWrap_cmp (d : Dev) (f : Fld) : (d.cntWrap f).cmp = d.cmp := rfl
@[simp] theorem cntWrap_scn (d : Dev) (f : Fld) : (d.cntWrap f).scn = d.scn := rfl
@[simp] theorem cntWrap_link (d : Dev) (f : Fld) : (d.cntWrap f).link = d.link := rfl
@[simp] theorem cntWrap_calib (d : Dev) (f : Fld) : (d.cntWrap f).calib = d.calib := rfl
@[simp] theorem cntWrap_plane (d : Dev) (f : Fld) : (d.cntWrap f).plane = d.plane := rfl
@[simp] theorem cntWrap_late (d : Dev) (f : Fld) : (d.cntWrap f).late = d.late := rfl
@[simp] theorem cntWrap_hbx (d : Dev) (f : Fld) : (d.cntWrap f).hbx = d.hbx := rfl
@[simp] theorem cntWrap_ful (d : Dev) (f : Fld) : (d.cntWrap f).ful = d.ful := rfl
@[simp] theorem cntWrap_thm (d : Dev) (f : Fld) : (d.cntWrap f).thm = d.thm := rfl
@[simp] theorem cntWrap_hvc (d : Dev) (f : Fld) : (d.cntWrap f).hvc = d.hvc := rfl
@[simp] theorem cntWrap_aud (d : Dev) (f : Fld) : (d.cntWrap f).aud = d.aud := rfl
@[simp] theorem cntWrap_ptp (d : Dev) (f : Fld) : (d.cntWrap f).ptp = d.ptp := rfl
@[simp] theorem cntWrap_cue (d : Dev) (f : Fld) : (d.cntWrap f).cue = d.cue := rfl
@[simp] theorem cntWrap_dram (d : Dev) (f : Fld) : (d.cntWrap f).dram = d.dram := rfl
@[simp] theorem cntWrap_pair (d : Dev) (f : Fld) : (d.cntWrap f).pair = d.pair := rfl

/-! `wrPair`. -/

@[simp] theorem wrPair_comm (d : Dev) (lo hi : Fld) (v : Nat) : (d.wrPair lo hi v).comm = d.comm := rfl
@[simp] theorem wrPair_live (d : Dev) (lo hi : Fld) (v : Nat) : (d.wrPair lo hi v).live = d.live := rfl
@[simp] theorem wrPair_off (d : Dev) (lo hi : Fld) (v : Nat) : (d.wrPair lo hi v).off = d.off := rfl
@[simp] theorem wrPair_now (d : Dev) (lo hi : Fld) (v : Nat) : (d.wrPair lo hi v).now = d.now := rfl
@[simp] theorem wrPair_stcOff (d : Dev) (lo hi : Fld) (v : Nat) : (d.wrPair lo hi v).stcOff = d.stcOff := rfl
@[simp] theorem wrPair_wq (d : Dev) (lo hi : Fld) (v : Nat) : (d.wrPair lo hi v).wq = d.wq := rfl
@[simp] theorem wrPair_out (d : Dev) (lo hi : Fld) (v : Nat) : (d.wrPair lo hi v).out = d.out := rfl
@[simp] theorem wrPair_free (d : Dev) (lo hi : Fld) (v : Nat) : (d.wrPair lo hi v).free = d.free := rfl
@[simp] theorem wrPair_elog (d : Dev) (lo hi : Fld) (v : Nat) : (d.wrPair lo hi v).elog = d.elog := rfl
@[simp] theorem wrPair_snap (d : Dev) (lo hi : Fld) (v : Nat) : (d.wrPair lo hi v).snap = d.snap := rfl
@[simp] theorem wrPair_wtm (d : Dev) (lo hi : Fld) (v : Nat) : (d.wrPair lo hi v).wtm = d.wtm := rfl
@[simp] theorem wrPair_cal (d : Dev) (lo hi : Fld) (v : Nat) : (d.wrPair lo hi v).cal = d.cal := rfl
@[simp] theorem wrPair_com (d : Dev) (lo hi : Fld) (v : Nat) : (d.wrPair lo hi v).com = d.com := rfl
@[simp] theorem wrPair_tbl (d : Dev) (lo hi : Fld) (v : Nat) : (d.wrPair lo hi v).tbl = d.tbl := rfl
@[simp] theorem wrPair_boot (d : Dev) (lo hi : Fld) (v : Nat) : (d.wrPair lo hi v).boot = d.boot := rfl
@[simp] theorem wrPair_clk (d : Dev) (lo hi : Fld) (v : Nat) : (d.wrPair lo hi v).clk = d.clk := rfl
@[simp] theorem wrPair_sram (d : Dev) (lo hi : Fld) (v : Nat) : (d.wrPair lo hi v).sram = d.sram := rfl
@[simp] theorem wrPair_pins (d : Dev) (lo hi : Fld) (v : Nat) : (d.wrPair lo hi v).pins = d.pins := rfl
@[simp] theorem wrPair_tiles (d : Dev) (lo hi : Fld) (v : Nat) : (d.wrPair lo hi v).tiles = d.tiles := rfl
@[simp] theorem wrPair_cams (d : Dev) (lo hi : Fld) (v : Nat) : (d.wrPair lo hi v).cams = d.cams := rfl
@[simp] theorem wrPair_defects (d : Dev) (lo hi : Fld) (v : Nat) : (d.wrPair lo hi v).defects = d.defects := rfl
@[simp] theorem wrPair_poison (d : Dev) (lo hi : Fld) (v : Nat) : (d.wrPair lo hi v).poison = d.poison := rfl
@[simp] theorem wrPair_clr (d : Dev) (lo hi : Fld) (v : Nat) : (d.wrPair lo hi v).clr = d.clr := rfl
@[simp] theorem wrPair_cmp (d : Dev) (lo hi : Fld) (v : Nat) : (d.wrPair lo hi v).cmp = d.cmp := rfl
@[simp] theorem wrPair_scn (d : Dev) (lo hi : Fld) (v : Nat) : (d.wrPair lo hi v).scn = d.scn := rfl
@[simp] theorem wrPair_link (d : Dev) (lo hi : Fld) (v : Nat) : (d.wrPair lo hi v).link = d.link := rfl
@[simp] theorem wrPair_calib (d : Dev) (lo hi : Fld) (v : Nat) : (d.wrPair lo hi v).calib = d.calib := rfl
@[simp] theorem wrPair_plane (d : Dev) (lo hi : Fld) (v : Nat) : (d.wrPair lo hi v).plane = d.plane := rfl
@[simp] theorem wrPair_late (d : Dev) (lo hi : Fld) (v : Nat) : (d.wrPair lo hi v).late = d.late := rfl
@[simp] theorem wrPair_hbx (d : Dev) (lo hi : Fld) (v : Nat) : (d.wrPair lo hi v).hbx = d.hbx := rfl
@[simp] theorem wrPair_ful (d : Dev) (lo hi : Fld) (v : Nat) : (d.wrPair lo hi v).ful = d.ful := rfl
@[simp] theorem wrPair_thm (d : Dev) (lo hi : Fld) (v : Nat) : (d.wrPair lo hi v).thm = d.thm := rfl
@[simp] theorem wrPair_hvc (d : Dev) (lo hi : Fld) (v : Nat) : (d.wrPair lo hi v).hvc = d.hvc := rfl
@[simp] theorem wrPair_aud (d : Dev) (lo hi : Fld) (v : Nat) : (d.wrPair lo hi v).aud = d.aud := rfl
@[simp] theorem wrPair_ptp (d : Dev) (lo hi : Fld) (v : Nat) : (d.wrPair lo hi v).ptp = d.ptp := rfl
@[simp] theorem wrPair_cue (d : Dev) (lo hi : Fld) (v : Nat) : (d.wrPair lo hi v).cue = d.cue := rfl
@[simp] theorem wrPair_dram (d : Dev) (lo hi : Fld) (v : Nat) : (d.wrPair lo hi v).dram = d.dram := rfl
@[simp] theorem wrPair_pair (d : Dev) (lo hi : Fld) (v : Nat) : (d.wrPair lo hi v).pair = d.pair := rfl

/-! `emit`. -/

@[simp] theorem emit_regs (d : Dev) (o : Out) : (d.emit o).regs = d.regs := rfl
@[simp] theorem emit_comm (d : Dev) (o : Out) : (d.emit o).comm = d.comm := rfl
@[simp] theorem emit_live (d : Dev) (o : Out) : (d.emit o).live = d.live := rfl
@[simp] theorem emit_off (d : Dev) (o : Out) : (d.emit o).off = d.off := rfl
@[simp] theorem emit_now (d : Dev) (o : Out) : (d.emit o).now = d.now := rfl
@[simp] theorem emit_stcOff (d : Dev) (o : Out) : (d.emit o).stcOff = d.stcOff := rfl
@[simp] theorem emit_wq (d : Dev) (o : Out) : (d.emit o).wq = d.wq := rfl
@[simp] theorem emit_free (d : Dev) (o : Out) : (d.emit o).free = d.free := rfl
@[simp] theorem emit_elog (d : Dev) (o : Out) : (d.emit o).elog = d.elog := rfl
@[simp] theorem emit_snap (d : Dev) (o : Out) : (d.emit o).snap = d.snap := rfl
@[simp] theorem emit_wtm (d : Dev) (o : Out) : (d.emit o).wtm = d.wtm := rfl
@[simp] theorem emit_cal (d : Dev) (o : Out) : (d.emit o).cal = d.cal := rfl
@[simp] theorem emit_com (d : Dev) (o : Out) : (d.emit o).com = d.com := rfl
@[simp] theorem emit_tbl (d : Dev) (o : Out) : (d.emit o).tbl = d.tbl := rfl
@[simp] theorem emit_boot (d : Dev) (o : Out) : (d.emit o).boot = d.boot := rfl
@[simp] theorem emit_clk (d : Dev) (o : Out) : (d.emit o).clk = d.clk := rfl
@[simp] theorem emit_sram (d : Dev) (o : Out) : (d.emit o).sram = d.sram := rfl
@[simp] theorem emit_pins (d : Dev) (o : Out) : (d.emit o).pins = d.pins := rfl
@[simp] theorem emit_tiles (d : Dev) (o : Out) : (d.emit o).tiles = d.tiles := rfl
@[simp] theorem emit_cams (d : Dev) (o : Out) : (d.emit o).cams = d.cams := rfl
@[simp] theorem emit_defects (d : Dev) (o : Out) : (d.emit o).defects = d.defects := rfl
@[simp] theorem emit_poison (d : Dev) (o : Out) : (d.emit o).poison = d.poison := rfl
@[simp] theorem emit_clr (d : Dev) (o : Out) : (d.emit o).clr = d.clr := rfl
@[simp] theorem emit_cmp (d : Dev) (o : Out) : (d.emit o).cmp = d.cmp := rfl
@[simp] theorem emit_scn (d : Dev) (o : Out) : (d.emit o).scn = d.scn := rfl
@[simp] theorem emit_link (d : Dev) (o : Out) : (d.emit o).link = d.link := rfl
@[simp] theorem emit_calib (d : Dev) (o : Out) : (d.emit o).calib = d.calib := rfl
@[simp] theorem emit_plane (d : Dev) (o : Out) : (d.emit o).plane = d.plane := rfl
@[simp] theorem emit_late (d : Dev) (o : Out) : (d.emit o).late = d.late := rfl
@[simp] theorem emit_hbx (d : Dev) (o : Out) : (d.emit o).hbx = d.hbx := rfl
@[simp] theorem emit_ful (d : Dev) (o : Out) : (d.emit o).ful = d.ful := rfl
@[simp] theorem emit_thm (d : Dev) (o : Out) : (d.emit o).thm = d.thm := rfl
@[simp] theorem emit_hvc (d : Dev) (o : Out) : (d.emit o).hvc = d.hvc := rfl
@[simp] theorem emit_aud (d : Dev) (o : Out) : (d.emit o).aud = d.aud := rfl
@[simp] theorem emit_ptp (d : Dev) (o : Out) : (d.emit o).ptp = d.ptp := rfl
@[simp] theorem emit_cue (d : Dev) (o : Out) : (d.emit o).cue = d.cue := rfl
@[simp] theorem emit_dram (d : Dev) (o : Out) : (d.emit o).dram = d.dram := rfl
@[simp] theorem emit_pair (d : Dev) (o : Out) : (d.emit o).pair = d.pair := rfl

/-! `memClear`. -/

@[simp] theorem memClear_regs (d : Dev) (a len : Nat) : (d.memClear a len).regs = d.regs := rfl
@[simp] theorem memClear_comm (d : Dev) (a len : Nat) : (d.memClear a len).comm = d.comm := rfl
@[simp] theorem memClear_live (d : Dev) (a len : Nat) : (d.memClear a len).live = d.live := rfl
@[simp] theorem memClear_off (d : Dev) (a len : Nat) : (d.memClear a len).off = d.off := rfl
@[simp] theorem memClear_now (d : Dev) (a len : Nat) : (d.memClear a len).now = d.now := rfl
@[simp] theorem memClear_stcOff (d : Dev) (a len : Nat) : (d.memClear a len).stcOff = d.stcOff := rfl
@[simp] theorem memClear_out (d : Dev) (a len : Nat) : (d.memClear a len).out = d.out := rfl
@[simp] theorem memClear_free (d : Dev) (a len : Nat) : (d.memClear a len).free = d.free := rfl
@[simp] theorem memClear_elog (d : Dev) (a len : Nat) : (d.memClear a len).elog = d.elog := rfl
@[simp] theorem memClear_snap (d : Dev) (a len : Nat) : (d.memClear a len).snap = d.snap := rfl
@[simp] theorem memClear_wtm (d : Dev) (a len : Nat) : (d.memClear a len).wtm = d.wtm := rfl
@[simp] theorem memClear_cal (d : Dev) (a len : Nat) : (d.memClear a len).cal = d.cal := rfl
@[simp] theorem memClear_com (d : Dev) (a len : Nat) : (d.memClear a len).com = d.com := rfl
@[simp] theorem memClear_tbl (d : Dev) (a len : Nat) : (d.memClear a len).tbl = d.tbl := rfl
@[simp] theorem memClear_boot (d : Dev) (a len : Nat) : (d.memClear a len).boot = d.boot := rfl
@[simp] theorem memClear_clk (d : Dev) (a len : Nat) : (d.memClear a len).clk = d.clk := rfl
@[simp] theorem memClear_sram (d : Dev) (a len : Nat) : (d.memClear a len).sram = d.sram := rfl
@[simp] theorem memClear_pins (d : Dev) (a len : Nat) : (d.memClear a len).pins = d.pins := rfl
@[simp] theorem memClear_tiles (d : Dev) (a len : Nat) : (d.memClear a len).tiles = d.tiles := rfl
@[simp] theorem memClear_cams (d : Dev) (a len : Nat) : (d.memClear a len).cams = d.cams := rfl
@[simp] theorem memClear_defects (d : Dev) (a len : Nat) : (d.memClear a len).defects = d.defects := rfl
@[simp] theorem memClear_poison (d : Dev) (a len : Nat) : (d.memClear a len).poison = d.poison := rfl
@[simp] theorem memClear_clr (d : Dev) (a len : Nat) : (d.memClear a len).clr = d.clr := rfl
@[simp] theorem memClear_cmp (d : Dev) (a len : Nat) : (d.memClear a len).cmp = d.cmp := rfl
@[simp] theorem memClear_scn (d : Dev) (a len : Nat) : (d.memClear a len).scn = d.scn := rfl
@[simp] theorem memClear_link (d : Dev) (a len : Nat) : (d.memClear a len).link = d.link := rfl
@[simp] theorem memClear_calib (d : Dev) (a len : Nat) : (d.memClear a len).calib = d.calib := rfl
@[simp] theorem memClear_plane (d : Dev) (a len : Nat) : (d.memClear a len).plane = d.plane := rfl
@[simp] theorem memClear_late (d : Dev) (a len : Nat) : (d.memClear a len).late = d.late := rfl
@[simp] theorem memClear_hbx (d : Dev) (a len : Nat) : (d.memClear a len).hbx = d.hbx := rfl
@[simp] theorem memClear_ful (d : Dev) (a len : Nat) : (d.memClear a len).ful = d.ful := rfl
@[simp] theorem memClear_thm (d : Dev) (a len : Nat) : (d.memClear a len).thm = d.thm := rfl
@[simp] theorem memClear_hvc (d : Dev) (a len : Nat) : (d.memClear a len).hvc = d.hvc := rfl
@[simp] theorem memClear_aud (d : Dev) (a len : Nat) : (d.memClear a len).aud = d.aud := rfl
@[simp] theorem memClear_ptp (d : Dev) (a len : Nat) : (d.memClear a len).ptp = d.ptp := rfl
@[simp] theorem memClear_cue (d : Dev) (a len : Nat) : (d.memClear a len).cue = d.cue := rfl
@[simp] theorem memClear_dram (d : Dev) (a len : Nat) : (d.memClear a len).dram = d.dram := rfl
@[simp] theorem memClear_pair (d : Dev) (a len : Nat) : (d.memClear a len).pair = d.pair := rfl

/-! `drawn`. -/

@[simp] theorem drawn_regs (d : Dev)  : (d.drawn).regs = d.regs := rfl
@[simp] theorem drawn_comm (d : Dev)  : (d.drawn).comm = d.comm := rfl
@[simp] theorem drawn_live (d : Dev)  : (d.drawn).live = d.live := rfl
@[simp] theorem drawn_off (d : Dev)  : (d.drawn).off = d.off := rfl
@[simp] theorem drawn_now (d : Dev)  : (d.drawn).now = d.now := rfl
@[simp] theorem drawn_stcOff (d : Dev)  : (d.drawn).stcOff = d.stcOff := rfl
@[simp] theorem drawn_wq (d : Dev)  : (d.drawn).wq = d.wq := rfl
@[simp] theorem drawn_out (d : Dev)  : (d.drawn).out = d.out := rfl
@[simp] theorem drawn_elog (d : Dev)  : (d.drawn).elog = d.elog := rfl
@[simp] theorem drawn_snap (d : Dev)  : (d.drawn).snap = d.snap := rfl
@[simp] theorem drawn_wtm (d : Dev)  : (d.drawn).wtm = d.wtm := rfl
@[simp] theorem drawn_cal (d : Dev)  : (d.drawn).cal = d.cal := rfl
@[simp] theorem drawn_com (d : Dev)  : (d.drawn).com = d.com := rfl
@[simp] theorem drawn_tbl (d : Dev)  : (d.drawn).tbl = d.tbl := rfl
@[simp] theorem drawn_boot (d : Dev)  : (d.drawn).boot = d.boot := rfl
@[simp] theorem drawn_clk (d : Dev)  : (d.drawn).clk = d.clk := rfl
@[simp] theorem drawn_sram (d : Dev)  : (d.drawn).sram = d.sram := rfl
@[simp] theorem drawn_pins (d : Dev)  : (d.drawn).pins = d.pins := rfl
@[simp] theorem drawn_tiles (d : Dev)  : (d.drawn).tiles = d.tiles := rfl
@[simp] theorem drawn_cams (d : Dev)  : (d.drawn).cams = d.cams := rfl
@[simp] theorem drawn_defects (d : Dev)  : (d.drawn).defects = d.defects := rfl
@[simp] theorem drawn_poison (d : Dev)  : (d.drawn).poison = d.poison := rfl
@[simp] theorem drawn_clr (d : Dev)  : (d.drawn).clr = d.clr := rfl
@[simp] theorem drawn_cmp (d : Dev)  : (d.drawn).cmp = d.cmp := rfl
@[simp] theorem drawn_scn (d : Dev)  : (d.drawn).scn = d.scn := rfl
@[simp] theorem drawn_link (d : Dev)  : (d.drawn).link = d.link := rfl
@[simp] theorem drawn_calib (d : Dev)  : (d.drawn).calib = d.calib := rfl
@[simp] theorem drawn_plane (d : Dev)  : (d.drawn).plane = d.plane := rfl
@[simp] theorem drawn_late (d : Dev)  : (d.drawn).late = d.late := rfl
@[simp] theorem drawn_hbx (d : Dev)  : (d.drawn).hbx = d.hbx := rfl
@[simp] theorem drawn_ful (d : Dev)  : (d.drawn).ful = d.ful := rfl
@[simp] theorem drawn_thm (d : Dev)  : (d.drawn).thm = d.thm := rfl
@[simp] theorem drawn_hvc (d : Dev)  : (d.drawn).hvc = d.hvc := rfl
@[simp] theorem drawn_aud (d : Dev)  : (d.drawn).aud = d.aud := rfl
@[simp] theorem drawn_ptp (d : Dev)  : (d.drawn).ptp = d.ptp := rfl
@[simp] theorem drawn_cue (d : Dev)  : (d.drawn).cue = d.cue := rfl
@[simp] theorem drawn_dram (d : Dev)  : (d.drawn).dram = d.dram := rfl
@[simp] theorem drawn_pair (d : Dev)  : (d.drawn).pair = d.pair := rfl

/-! `upTo`. -/

@[simp] theorem upTo_regs (d : Dev) (t : Time) : (d.upTo t).regs = d.regs := rfl
@[simp] theorem upTo_comm (d : Dev) (t : Time) : (d.upTo t).comm = d.comm := rfl
@[simp] theorem upTo_live (d : Dev) (t : Time) : (d.upTo t).live = d.live := rfl
@[simp] theorem upTo_off (d : Dev) (t : Time) : (d.upTo t).off = d.off := rfl
@[simp] theorem upTo_stcOff (d : Dev) (t : Time) : (d.upTo t).stcOff = d.stcOff := rfl
@[simp] theorem upTo_wq (d : Dev) (t : Time) : (d.upTo t).wq = d.wq := rfl
@[simp] theorem upTo_out (d : Dev) (t : Time) : (d.upTo t).out = d.out := rfl
@[simp] theorem upTo_free (d : Dev) (t : Time) : (d.upTo t).free = d.free := rfl
@[simp] theorem upTo_elog (d : Dev) (t : Time) : (d.upTo t).elog = d.elog := rfl
@[simp] theorem upTo_snap (d : Dev) (t : Time) : (d.upTo t).snap = d.snap := rfl
@[simp] theorem upTo_wtm (d : Dev) (t : Time) : (d.upTo t).wtm = d.wtm := rfl
@[simp] theorem upTo_cal (d : Dev) (t : Time) : (d.upTo t).cal = d.cal := rfl
@[simp] theorem upTo_com (d : Dev) (t : Time) : (d.upTo t).com = d.com := rfl
@[simp] theorem upTo_tbl (d : Dev) (t : Time) : (d.upTo t).tbl = d.tbl := rfl
@[simp] theorem upTo_boot (d : Dev) (t : Time) : (d.upTo t).boot = d.boot := rfl
@[simp] theorem upTo_clk (d : Dev) (t : Time) : (d.upTo t).clk = d.clk := rfl
@[simp] theorem upTo_sram (d : Dev) (t : Time) : (d.upTo t).sram = d.sram := rfl
@[simp] theorem upTo_pins (d : Dev) (t : Time) : (d.upTo t).pins = d.pins := rfl
@[simp] theorem upTo_tiles (d : Dev) (t : Time) : (d.upTo t).tiles = d.tiles := rfl
@[simp] theorem upTo_cams (d : Dev) (t : Time) : (d.upTo t).cams = d.cams := rfl
@[simp] theorem upTo_defects (d : Dev) (t : Time) : (d.upTo t).defects = d.defects := rfl
@[simp] theorem upTo_poison (d : Dev) (t : Time) : (d.upTo t).poison = d.poison := rfl
@[simp] theorem upTo_clr (d : Dev) (t : Time) : (d.upTo t).clr = d.clr := rfl
@[simp] theorem upTo_cmp (d : Dev) (t : Time) : (d.upTo t).cmp = d.cmp := rfl
@[simp] theorem upTo_scn (d : Dev) (t : Time) : (d.upTo t).scn = d.scn := rfl
@[simp] theorem upTo_link (d : Dev) (t : Time) : (d.upTo t).link = d.link := rfl
@[simp] theorem upTo_calib (d : Dev) (t : Time) : (d.upTo t).calib = d.calib := rfl
@[simp] theorem upTo_plane (d : Dev) (t : Time) : (d.upTo t).plane = d.plane := rfl
@[simp] theorem upTo_late (d : Dev) (t : Time) : (d.upTo t).late = d.late := rfl
@[simp] theorem upTo_hbx (d : Dev) (t : Time) : (d.upTo t).hbx = d.hbx := rfl
@[simp] theorem upTo_ful (d : Dev) (t : Time) : (d.upTo t).ful = d.ful := rfl
@[simp] theorem upTo_thm (d : Dev) (t : Time) : (d.upTo t).thm = d.thm := rfl
@[simp] theorem upTo_hvc (d : Dev) (t : Time) : (d.upTo t).hvc = d.hvc := rfl
@[simp] theorem upTo_aud (d : Dev) (t : Time) : (d.upTo t).aud = d.aud := rfl
@[simp] theorem upTo_ptp (d : Dev) (t : Time) : (d.upTo t).ptp = d.ptp := rfl
@[simp] theorem upTo_cue (d : Dev) (t : Time) : (d.upTo t).cue = d.cue := rfl
@[simp] theorem upTo_dram (d : Dev) (t : Time) : (d.upTo t).dram = d.dram := rfl
@[simp] theorem upTo_pair (d : Dev) (t : Time) : (d.upTo t).pair = d.pair := rfl

/-! `pass`. -/

@[simp] theorem pass_regs (d : Dev) (dt : Span) : (d.pass dt).regs = d.regs := rfl
@[simp] theorem pass_comm (d : Dev) (dt : Span) : (d.pass dt).comm = d.comm := rfl
@[simp] theorem pass_live (d : Dev) (dt : Span) : (d.pass dt).live = d.live := rfl
@[simp] theorem pass_off (d : Dev) (dt : Span) : (d.pass dt).off = d.off := rfl
@[simp] theorem pass_stcOff (d : Dev) (dt : Span) : (d.pass dt).stcOff = d.stcOff := rfl
@[simp] theorem pass_wq (d : Dev) (dt : Span) : (d.pass dt).wq = d.wq := rfl
@[simp] theorem pass_out (d : Dev) (dt : Span) : (d.pass dt).out = d.out := rfl
@[simp] theorem pass_free (d : Dev) (dt : Span) : (d.pass dt).free = d.free := rfl
@[simp] theorem pass_elog (d : Dev) (dt : Span) : (d.pass dt).elog = d.elog := rfl
@[simp] theorem pass_snap (d : Dev) (dt : Span) : (d.pass dt).snap = d.snap := rfl
@[simp] theorem pass_wtm (d : Dev) (dt : Span) : (d.pass dt).wtm = d.wtm := rfl
@[simp] theorem pass_cal (d : Dev) (dt : Span) : (d.pass dt).cal = d.cal := rfl
@[simp] theorem pass_com (d : Dev) (dt : Span) : (d.pass dt).com = d.com := rfl
@[simp] theorem pass_tbl (d : Dev) (dt : Span) : (d.pass dt).tbl = d.tbl := rfl
@[simp] theorem pass_boot (d : Dev) (dt : Span) : (d.pass dt).boot = d.boot := rfl
@[simp] theorem pass_clk (d : Dev) (dt : Span) : (d.pass dt).clk = d.clk := rfl
@[simp] theorem pass_sram (d : Dev) (dt : Span) : (d.pass dt).sram = d.sram := rfl
@[simp] theorem pass_pins (d : Dev) (dt : Span) : (d.pass dt).pins = d.pins := rfl
@[simp] theorem pass_tiles (d : Dev) (dt : Span) : (d.pass dt).tiles = d.tiles := rfl
@[simp] theorem pass_cams (d : Dev) (dt : Span) : (d.pass dt).cams = d.cams := rfl
@[simp] theorem pass_defects (d : Dev) (dt : Span) : (d.pass dt).defects = d.defects := rfl
@[simp] theorem pass_poison (d : Dev) (dt : Span) : (d.pass dt).poison = d.poison := rfl
@[simp] theorem pass_clr (d : Dev) (dt : Span) : (d.pass dt).clr = d.clr := rfl
@[simp] theorem pass_cmp (d : Dev) (dt : Span) : (d.pass dt).cmp = d.cmp := rfl
@[simp] theorem pass_scn (d : Dev) (dt : Span) : (d.pass dt).scn = d.scn := rfl
@[simp] theorem pass_link (d : Dev) (dt : Span) : (d.pass dt).link = d.link := rfl
@[simp] theorem pass_calib (d : Dev) (dt : Span) : (d.pass dt).calib = d.calib := rfl
@[simp] theorem pass_plane (d : Dev) (dt : Span) : (d.pass dt).plane = d.plane := rfl
@[simp] theorem pass_late (d : Dev) (dt : Span) : (d.pass dt).late = d.late := rfl
@[simp] theorem pass_hbx (d : Dev) (dt : Span) : (d.pass dt).hbx = d.hbx := rfl
@[simp] theorem pass_ful (d : Dev) (dt : Span) : (d.pass dt).ful = d.ful := rfl
@[simp] theorem pass_thm (d : Dev) (dt : Span) : (d.pass dt).thm = d.thm := rfl
@[simp] theorem pass_hvc (d : Dev) (dt : Span) : (d.pass dt).hvc = d.hvc := rfl
@[simp] theorem pass_aud (d : Dev) (dt : Span) : (d.pass dt).aud = d.aud := rfl
@[simp] theorem pass_ptp (d : Dev) (dt : Span) : (d.pass dt).ptp = d.ptp := rfl
@[simp] theorem pass_cue (d : Dev) (dt : Span) : (d.pass dt).cue = d.cue := rfl
@[simp] theorem pass_dram (d : Dev) (dt : Span) : (d.pass dt).dram = d.dram := rfl
@[simp] theorem pass_pair (d : Dev) (dt : Span) : (d.pass dt).pair = d.pair := rfl

/-! `logEntry`. -/

@[simp] theorem logEntry_comm (d : Dev) (e : LogEntry) : (d.logEntry e).comm = d.comm := by
  simp only [Dev.logEntry, apply_ite Dev.comm, cnt_comm, ite_self]
@[simp] theorem logEntry_live (d : Dev) (e : LogEntry) : (d.logEntry e).live = d.live := by
  simp only [Dev.logEntry, apply_ite Dev.live, cnt_live, ite_self]
@[simp] theorem logEntry_off (d : Dev) (e : LogEntry) : (d.logEntry e).off = d.off := by
  simp only [Dev.logEntry, apply_ite Dev.off, cnt_off, ite_self]
@[simp] theorem logEntry_now (d : Dev) (e : LogEntry) : (d.logEntry e).now = d.now := by
  simp only [Dev.logEntry, apply_ite Dev.now, cnt_now, ite_self]
@[simp] theorem logEntry_stcOff (d : Dev) (e : LogEntry) : (d.logEntry e).stcOff = d.stcOff := by
  simp only [Dev.logEntry, apply_ite Dev.stcOff, cnt_stcOff, ite_self]
@[simp] theorem logEntry_wq (d : Dev) (e : LogEntry) : (d.logEntry e).wq = d.wq := by
  simp only [Dev.logEntry, apply_ite Dev.wq, cnt_wq, ite_self]
@[simp] theorem logEntry_out (d : Dev) (e : LogEntry) : (d.logEntry e).out = d.out := by
  simp only [Dev.logEntry, apply_ite Dev.out, cnt_out, ite_self]
@[simp] theorem logEntry_free (d : Dev) (e : LogEntry) : (d.logEntry e).free = d.free := by
  simp only [Dev.logEntry, apply_ite Dev.free, cnt_free, ite_self]
@[simp] theorem logEntry_snap (d : Dev) (e : LogEntry) : (d.logEntry e).snap = d.snap := by
  simp only [Dev.logEntry, apply_ite Dev.snap, cnt_snap, ite_self]
@[simp] theorem logEntry_wtm (d : Dev) (e : LogEntry) : (d.logEntry e).wtm = d.wtm := by
  simp only [Dev.logEntry, apply_ite Dev.wtm, cnt_wtm, ite_self]
@[simp] theorem logEntry_cal (d : Dev) (e : LogEntry) : (d.logEntry e).cal = d.cal := by
  simp only [Dev.logEntry, apply_ite Dev.cal, cnt_cal, ite_self]
@[simp] theorem logEntry_com (d : Dev) (e : LogEntry) : (d.logEntry e).com = d.com := by
  simp only [Dev.logEntry, apply_ite Dev.com, cnt_com, ite_self]
@[simp] theorem logEntry_tbl (d : Dev) (e : LogEntry) : (d.logEntry e).tbl = d.tbl := by
  simp only [Dev.logEntry, apply_ite Dev.tbl, cnt_tbl, ite_self]
@[simp] theorem logEntry_boot (d : Dev) (e : LogEntry) : (d.logEntry e).boot = d.boot := by
  simp only [Dev.logEntry, apply_ite Dev.boot, cnt_boot, ite_self]
@[simp] theorem logEntry_clk (d : Dev) (e : LogEntry) : (d.logEntry e).clk = d.clk := by
  simp only [Dev.logEntry, apply_ite Dev.clk, cnt_clk, ite_self]
@[simp] theorem logEntry_sram (d : Dev) (e : LogEntry) : (d.logEntry e).sram = d.sram := by
  simp only [Dev.logEntry, apply_ite Dev.sram, cnt_sram, ite_self]
@[simp] theorem logEntry_pins (d : Dev) (e : LogEntry) : (d.logEntry e).pins = d.pins := by
  simp only [Dev.logEntry, apply_ite Dev.pins, cnt_pins, ite_self]
@[simp] theorem logEntry_tiles (d : Dev) (e : LogEntry) : (d.logEntry e).tiles = d.tiles := by
  simp only [Dev.logEntry, apply_ite Dev.tiles, cnt_tiles, ite_self]
@[simp] theorem logEntry_cams (d : Dev) (e : LogEntry) : (d.logEntry e).cams = d.cams := by
  simp only [Dev.logEntry, apply_ite Dev.cams, cnt_cams, ite_self]
@[simp] theorem logEntry_defects (d : Dev) (e : LogEntry) : (d.logEntry e).defects = d.defects := by
  simp only [Dev.logEntry, apply_ite Dev.defects, cnt_defects, ite_self]
@[simp] theorem logEntry_poison (d : Dev) (e : LogEntry) : (d.logEntry e).poison = d.poison := by
  simp only [Dev.logEntry, apply_ite Dev.poison, cnt_poison, ite_self]
@[simp] theorem logEntry_clr (d : Dev) (e : LogEntry) : (d.logEntry e).clr = d.clr := by
  simp only [Dev.logEntry, apply_ite Dev.clr, cnt_clr, ite_self]
@[simp] theorem logEntry_cmp (d : Dev) (e : LogEntry) : (d.logEntry e).cmp = d.cmp := by
  simp only [Dev.logEntry, apply_ite Dev.cmp, cnt_cmp, ite_self]
@[simp] theorem logEntry_scn (d : Dev) (e : LogEntry) : (d.logEntry e).scn = d.scn := by
  simp only [Dev.logEntry, apply_ite Dev.scn, cnt_scn, ite_self]
@[simp] theorem logEntry_link (d : Dev) (e : LogEntry) : (d.logEntry e).link = d.link := by
  simp only [Dev.logEntry, apply_ite Dev.link, cnt_link, ite_self]
@[simp] theorem logEntry_calib (d : Dev) (e : LogEntry) : (d.logEntry e).calib = d.calib := by
  simp only [Dev.logEntry, apply_ite Dev.calib, cnt_calib, ite_self]
@[simp] theorem logEntry_plane (d : Dev) (e : LogEntry) : (d.logEntry e).plane = d.plane := by
  simp only [Dev.logEntry, apply_ite Dev.plane, cnt_plane, ite_self]
@[simp] theorem logEntry_late (d : Dev) (e : LogEntry) : (d.logEntry e).late = d.late := by
  simp only [Dev.logEntry, apply_ite Dev.late, cnt_late, ite_self]
@[simp] theorem logEntry_hbx (d : Dev) (e : LogEntry) : (d.logEntry e).hbx = d.hbx := by
  simp only [Dev.logEntry, apply_ite Dev.hbx, cnt_hbx, ite_self]
@[simp] theorem logEntry_ful (d : Dev) (e : LogEntry) : (d.logEntry e).ful = d.ful := by
  simp only [Dev.logEntry, apply_ite Dev.ful, cnt_ful, ite_self]
@[simp] theorem logEntry_thm (d : Dev) (e : LogEntry) : (d.logEntry e).thm = d.thm := by
  simp only [Dev.logEntry, apply_ite Dev.thm, cnt_thm, ite_self]
@[simp] theorem logEntry_hvc (d : Dev) (e : LogEntry) : (d.logEntry e).hvc = d.hvc := by
  simp only [Dev.logEntry, apply_ite Dev.hvc, cnt_hvc, ite_self]
@[simp] theorem logEntry_aud (d : Dev) (e : LogEntry) : (d.logEntry e).aud = d.aud := by
  simp only [Dev.logEntry, apply_ite Dev.aud, cnt_aud, ite_self]
@[simp] theorem logEntry_ptp (d : Dev) (e : LogEntry) : (d.logEntry e).ptp = d.ptp := by
  simp only [Dev.logEntry, apply_ite Dev.ptp, cnt_ptp, ite_self]
@[simp] theorem logEntry_cue (d : Dev) (e : LogEntry) : (d.logEntry e).cue = d.cue := by
  simp only [Dev.logEntry, apply_ite Dev.cue, cnt_cue, ite_self]
@[simp] theorem logEntry_dram (d : Dev) (e : LogEntry) : (d.logEntry e).dram = d.dram := by
  simp only [Dev.logEntry, apply_ite Dev.dram, cnt_dram, ite_self]
@[simp] theorem logEntry_pair (d : Dev) (e : LogEntry) : (d.logEntry e).pair = d.pair := by
  simp only [Dev.logEntry, apply_ite Dev.pair, cnt_pair, ite_self]

/-! `log`. -/

@[simp] theorem log_comm (d : Dev) (s i c k x : Nat) (e : Nat) : (d.log s i c k x e).comm = d.comm := logEntry_comm _ _
@[simp] theorem log_live (d : Dev) (s i c k x : Nat) (e : Nat) : (d.log s i c k x e).live = d.live := logEntry_live _ _
@[simp] theorem log_off (d : Dev) (s i c k x : Nat) (e : Nat) : (d.log s i c k x e).off = d.off := logEntry_off _ _
@[simp] theorem log_now (d : Dev) (s i c k x : Nat) (e : Nat) : (d.log s i c k x e).now = d.now := logEntry_now _ _
@[simp] theorem log_stcOff (d : Dev) (s i c k x : Nat) (e : Nat) : (d.log s i c k x e).stcOff = d.stcOff := logEntry_stcOff _ _
@[simp] theorem log_wq (d : Dev) (s i c k x : Nat) (e : Nat) : (d.log s i c k x e).wq = d.wq := logEntry_wq _ _
@[simp] theorem log_out (d : Dev) (s i c k x : Nat) (e : Nat) : (d.log s i c k x e).out = d.out := logEntry_out _ _
@[simp] theorem log_free (d : Dev) (s i c k x : Nat) (e : Nat) : (d.log s i c k x e).free = d.free := logEntry_free _ _
@[simp] theorem log_snap (d : Dev) (s i c k x : Nat) (e : Nat) : (d.log s i c k x e).snap = d.snap := logEntry_snap _ _
@[simp] theorem log_wtm (d : Dev) (s i c k x : Nat) (e : Nat) : (d.log s i c k x e).wtm = d.wtm := logEntry_wtm _ _
@[simp] theorem log_cal (d : Dev) (s i c k x : Nat) (e : Nat) : (d.log s i c k x e).cal = d.cal := logEntry_cal _ _
@[simp] theorem log_com (d : Dev) (s i c k x : Nat) (e : Nat) : (d.log s i c k x e).com = d.com := logEntry_com _ _
@[simp] theorem log_tbl (d : Dev) (s i c k x : Nat) (e : Nat) : (d.log s i c k x e).tbl = d.tbl := logEntry_tbl _ _
@[simp] theorem log_boot (d : Dev) (s i c k x : Nat) (e : Nat) : (d.log s i c k x e).boot = d.boot := logEntry_boot _ _
@[simp] theorem log_clk (d : Dev) (s i c k x : Nat) (e : Nat) : (d.log s i c k x e).clk = d.clk := logEntry_clk _ _
@[simp] theorem log_sram (d : Dev) (s i c k x : Nat) (e : Nat) : (d.log s i c k x e).sram = d.sram := logEntry_sram _ _
@[simp] theorem log_pins (d : Dev) (s i c k x : Nat) (e : Nat) : (d.log s i c k x e).pins = d.pins := logEntry_pins _ _
@[simp] theorem log_tiles (d : Dev) (s i c k x : Nat) (e : Nat) : (d.log s i c k x e).tiles = d.tiles := logEntry_tiles _ _
@[simp] theorem log_cams (d : Dev) (s i c k x : Nat) (e : Nat) : (d.log s i c k x e).cams = d.cams := logEntry_cams _ _
@[simp] theorem log_defects (d : Dev) (s i c k x : Nat) (e : Nat) : (d.log s i c k x e).defects = d.defects := logEntry_defects _ _
@[simp] theorem log_poison (d : Dev) (s i c k x : Nat) (e : Nat) : (d.log s i c k x e).poison = d.poison := logEntry_poison _ _
@[simp] theorem log_clr (d : Dev) (s i c k x : Nat) (e : Nat) : (d.log s i c k x e).clr = d.clr := logEntry_clr _ _
@[simp] theorem log_cmp (d : Dev) (s i c k x : Nat) (e : Nat) : (d.log s i c k x e).cmp = d.cmp := logEntry_cmp _ _
@[simp] theorem log_scn (d : Dev) (s i c k x : Nat) (e : Nat) : (d.log s i c k x e).scn = d.scn := logEntry_scn _ _
@[simp] theorem log_link (d : Dev) (s i c k x : Nat) (e : Nat) : (d.log s i c k x e).link = d.link := logEntry_link _ _
@[simp] theorem log_calib (d : Dev) (s i c k x : Nat) (e : Nat) : (d.log s i c k x e).calib = d.calib := logEntry_calib _ _
@[simp] theorem log_plane (d : Dev) (s i c k x : Nat) (e : Nat) : (d.log s i c k x e).plane = d.plane := logEntry_plane _ _
@[simp] theorem log_late (d : Dev) (s i c k x : Nat) (e : Nat) : (d.log s i c k x e).late = d.late := logEntry_late _ _
@[simp] theorem log_hbx (d : Dev) (s i c k x : Nat) (e : Nat) : (d.log s i c k x e).hbx = d.hbx := logEntry_hbx _ _
@[simp] theorem log_ful (d : Dev) (s i c k x : Nat) (e : Nat) : (d.log s i c k x e).ful = d.ful := logEntry_ful _ _
@[simp] theorem log_thm (d : Dev) (s i c k x : Nat) (e : Nat) : (d.log s i c k x e).thm = d.thm := logEntry_thm _ _
@[simp] theorem log_hvc (d : Dev) (s i c k x : Nat) (e : Nat) : (d.log s i c k x e).hvc = d.hvc := logEntry_hvc _ _
@[simp] theorem log_aud (d : Dev) (s i c k x : Nat) (e : Nat) : (d.log s i c k x e).aud = d.aud := logEntry_aud _ _
@[simp] theorem log_ptp (d : Dev) (s i c k x : Nat) (e : Nat) : (d.log s i c k x e).ptp = d.ptp := logEntry_ptp _ _
@[simp] theorem log_cue (d : Dev) (s i c k x : Nat) (e : Nat) : (d.log s i c k x e).cue = d.cue := logEntry_cue _ _
@[simp] theorem log_dram (d : Dev) (s i c k x : Nat) (e : Nat) : (d.log s i c k x e).dram = d.dram := logEntry_dram _ _
@[simp] theorem log_pair (d : Dev) (s i c k x : Nat) (e : Nat) : (d.log s i c k x e).pair = d.pair := logEntry_pair _ _

/-! `setState`. -/

@[simp] theorem setState_comm (d : Dev) (st : DevState) : (d.setState st).comm = d.comm := by
  simp only [Dev.setState, apply_ite Dev.comm, log_comm, cntWrap_comm, wr_comm, ite_self]
@[simp] theorem setState_live (d : Dev) (st : DevState) : (d.setState st).live = d.live := by
  simp only [Dev.setState, apply_ite Dev.live, log_live, cntWrap_live, wr_live, ite_self]
@[simp] theorem setState_off (d : Dev) (st : DevState) : (d.setState st).off = d.off := by
  simp only [Dev.setState, apply_ite Dev.off, log_off, cntWrap_off, wr_off, ite_self]
@[simp] theorem setState_now (d : Dev) (st : DevState) : (d.setState st).now = d.now := by
  simp only [Dev.setState, apply_ite Dev.now, log_now, cntWrap_now, wr_now, ite_self]
@[simp] theorem setState_stcOff (d : Dev) (st : DevState) : (d.setState st).stcOff = d.stcOff := by
  simp only [Dev.setState, apply_ite Dev.stcOff, log_stcOff, cntWrap_stcOff, wr_stcOff, ite_self]
@[simp] theorem setState_wq (d : Dev) (st : DevState) : (d.setState st).wq = d.wq := by
  simp only [Dev.setState, apply_ite Dev.wq, log_wq, cntWrap_wq, wr_wq, ite_self]
@[simp] theorem setState_out (d : Dev) (st : DevState) : (d.setState st).out = d.out := by
  simp only [Dev.setState, apply_ite Dev.out, log_out, cntWrap_out, wr_out, ite_self]
@[simp] theorem setState_free (d : Dev) (st : DevState) : (d.setState st).free = d.free := by
  simp only [Dev.setState, apply_ite Dev.free, log_free, cntWrap_free, wr_free, ite_self]
@[simp] theorem setState_snap (d : Dev) (st : DevState) : (d.setState st).snap = d.snap := by
  simp only [Dev.setState, apply_ite Dev.snap, log_snap, cntWrap_snap, wr_snap, ite_self]
@[simp] theorem setState_wtm (d : Dev) (st : DevState) : (d.setState st).wtm = d.wtm := by
  simp only [Dev.setState, apply_ite Dev.wtm, log_wtm, cntWrap_wtm, wr_wtm, ite_self]
@[simp] theorem setState_cal (d : Dev) (st : DevState) : (d.setState st).cal = d.cal := by
  simp only [Dev.setState, apply_ite Dev.cal, log_cal, cntWrap_cal, wr_cal, ite_self]
@[simp] theorem setState_com (d : Dev) (st : DevState) : (d.setState st).com = d.com := by
  simp only [Dev.setState, apply_ite Dev.com, log_com, cntWrap_com, wr_com, ite_self]
@[simp] theorem setState_tbl (d : Dev) (st : DevState) : (d.setState st).tbl = d.tbl := by
  simp only [Dev.setState, apply_ite Dev.tbl, log_tbl, cntWrap_tbl, wr_tbl, ite_self]
@[simp] theorem setState_boot (d : Dev) (st : DevState) : (d.setState st).boot = d.boot := by
  simp only [Dev.setState, apply_ite Dev.boot, log_boot, cntWrap_boot, wr_boot, ite_self]
@[simp] theorem setState_clk (d : Dev) (st : DevState) : (d.setState st).clk = d.clk := by
  simp only [Dev.setState, apply_ite Dev.clk, log_clk, cntWrap_clk, wr_clk, ite_self]
@[simp] theorem setState_sram (d : Dev) (st : DevState) : (d.setState st).sram = d.sram := by
  simp only [Dev.setState, apply_ite Dev.sram, log_sram, cntWrap_sram, wr_sram, ite_self]
@[simp] theorem setState_pins (d : Dev) (st : DevState) : (d.setState st).pins = d.pins := by
  simp only [Dev.setState, apply_ite Dev.pins, log_pins, cntWrap_pins, wr_pins, ite_self]
@[simp] theorem setState_tiles (d : Dev) (st : DevState) : (d.setState st).tiles = d.tiles := by
  simp only [Dev.setState, apply_ite Dev.tiles, log_tiles, cntWrap_tiles, wr_tiles, ite_self]
@[simp] theorem setState_cams (d : Dev) (st : DevState) : (d.setState st).cams = d.cams := by
  simp only [Dev.setState, apply_ite Dev.cams, log_cams, cntWrap_cams, wr_cams, ite_self]
@[simp] theorem setState_defects (d : Dev) (st : DevState) : (d.setState st).defects = d.defects := by
  simp only [Dev.setState, apply_ite Dev.defects, log_defects, cntWrap_defects, wr_defects, ite_self]
@[simp] theorem setState_poison (d : Dev) (st : DevState) : (d.setState st).poison = d.poison := by
  simp only [Dev.setState, apply_ite Dev.poison, log_poison, cntWrap_poison, wr_poison, ite_self]
@[simp] theorem setState_clr (d : Dev) (st : DevState) : (d.setState st).clr = d.clr := by
  simp only [Dev.setState, apply_ite Dev.clr, log_clr, cntWrap_clr, wr_clr, ite_self]
@[simp] theorem setState_cmp (d : Dev) (st : DevState) : (d.setState st).cmp = d.cmp := by
  simp only [Dev.setState, apply_ite Dev.cmp, log_cmp, cntWrap_cmp, wr_cmp, ite_self]
@[simp] theorem setState_scn (d : Dev) (st : DevState) : (d.setState st).scn = d.scn := by
  simp only [Dev.setState, apply_ite Dev.scn, log_scn, cntWrap_scn, wr_scn, ite_self]
@[simp] theorem setState_link (d : Dev) (st : DevState) : (d.setState st).link = d.link := by
  simp only [Dev.setState, apply_ite Dev.link, log_link, cntWrap_link, wr_link, ite_self]
@[simp] theorem setState_calib (d : Dev) (st : DevState) : (d.setState st).calib = d.calib := by
  simp only [Dev.setState, apply_ite Dev.calib, log_calib, cntWrap_calib, wr_calib, ite_self]
@[simp] theorem setState_plane (d : Dev) (st : DevState) : (d.setState st).plane = d.plane := by
  simp only [Dev.setState, apply_ite Dev.plane, log_plane, cntWrap_plane, wr_plane, ite_self]
@[simp] theorem setState_late (d : Dev) (st : DevState) : (d.setState st).late = d.late := by
  simp only [Dev.setState, apply_ite Dev.late, log_late, cntWrap_late, wr_late, ite_self]
@[simp] theorem setState_hbx (d : Dev) (st : DevState) : (d.setState st).hbx = d.hbx := by
  simp only [Dev.setState, apply_ite Dev.hbx, log_hbx, cntWrap_hbx, wr_hbx, ite_self]
@[simp] theorem setState_ful (d : Dev) (st : DevState) : (d.setState st).ful = d.ful := by
  simp only [Dev.setState, apply_ite Dev.ful, log_ful, cntWrap_ful, wr_ful, ite_self]
@[simp] theorem setState_thm (d : Dev) (st : DevState) : (d.setState st).thm = d.thm := by
  simp only [Dev.setState, apply_ite Dev.thm, log_thm, cntWrap_thm, wr_thm, ite_self]
@[simp] theorem setState_hvc (d : Dev) (st : DevState) : (d.setState st).hvc = d.hvc := by
  simp only [Dev.setState, apply_ite Dev.hvc, log_hvc, cntWrap_hvc, wr_hvc, ite_self]
@[simp] theorem setState_aud (d : Dev) (st : DevState) : (d.setState st).aud = d.aud := by
  simp only [Dev.setState, apply_ite Dev.aud, log_aud, cntWrap_aud, wr_aud, ite_self]
@[simp] theorem setState_ptp (d : Dev) (st : DevState) : (d.setState st).ptp = d.ptp := by
  simp only [Dev.setState, apply_ite Dev.ptp, log_ptp, cntWrap_ptp, wr_ptp, ite_self]
@[simp] theorem setState_cue (d : Dev) (st : DevState) : (d.setState st).cue = d.cue := by
  simp only [Dev.setState, apply_ite Dev.cue, log_cue, cntWrap_cue, wr_cue, ite_self]
@[simp] theorem setState_dram (d : Dev) (st : DevState) : (d.setState st).dram = d.dram := by
  simp only [Dev.setState, apply_ite Dev.dram, log_dram, cntWrap_dram, wr_dram, ite_self]
@[simp] theorem setState_pair (d : Dev) (st : DevState) : (d.setState st).pair = d.pair := by
  simp only [Dev.setState, apply_ite Dev.pair, log_pair, cntWrap_pair, wr_pair, ite_self]

/-! `flag`. -/

@[simp] theorem flag_comm (d : Dev) (i : Nat) (f : Fld) (c : Nat) (l v : Bool) : (d.flag i f c l v).comm = d.comm := by
  simp only [Dev.flag, apply_ite Dev.comm, log_comm, wrb_comm, ite_self]
@[simp] theorem flag_live (d : Dev) (i : Nat) (f : Fld) (c : Nat) (l v : Bool) : (d.flag i f c l v).live = d.live := by
  simp only [Dev.flag, apply_ite Dev.live, log_live, wrb_live, ite_self]
@[simp] theorem flag_off (d : Dev) (i : Nat) (f : Fld) (c : Nat) (l v : Bool) : (d.flag i f c l v).off = d.off := by
  simp only [Dev.flag, apply_ite Dev.off, log_off, wrb_off, ite_self]
@[simp] theorem flag_now (d : Dev) (i : Nat) (f : Fld) (c : Nat) (l v : Bool) : (d.flag i f c l v).now = d.now := by
  simp only [Dev.flag, apply_ite Dev.now, log_now, wrb_now, ite_self]
@[simp] theorem flag_stcOff (d : Dev) (i : Nat) (f : Fld) (c : Nat) (l v : Bool) : (d.flag i f c l v).stcOff = d.stcOff := by
  simp only [Dev.flag, apply_ite Dev.stcOff, log_stcOff, wrb_stcOff, ite_self]
@[simp] theorem flag_wq (d : Dev) (i : Nat) (f : Fld) (c : Nat) (l v : Bool) : (d.flag i f c l v).wq = d.wq := by
  simp only [Dev.flag, apply_ite Dev.wq, log_wq, wrb_wq, ite_self]
@[simp] theorem flag_out (d : Dev) (i : Nat) (f : Fld) (c : Nat) (l v : Bool) : (d.flag i f c l v).out = d.out := by
  simp only [Dev.flag, apply_ite Dev.out, log_out, wrb_out, ite_self]
@[simp] theorem flag_free (d : Dev) (i : Nat) (f : Fld) (c : Nat) (l v : Bool) : (d.flag i f c l v).free = d.free := by
  simp only [Dev.flag, apply_ite Dev.free, log_free, wrb_free, ite_self]
@[simp] theorem flag_snap (d : Dev) (i : Nat) (f : Fld) (c : Nat) (l v : Bool) : (d.flag i f c l v).snap = d.snap := by
  simp only [Dev.flag, apply_ite Dev.snap, log_snap, wrb_snap, ite_self]
@[simp] theorem flag_wtm (d : Dev) (i : Nat) (f : Fld) (c : Nat) (l v : Bool) : (d.flag i f c l v).wtm = d.wtm := by
  simp only [Dev.flag, apply_ite Dev.wtm, log_wtm, wrb_wtm, ite_self]
@[simp] theorem flag_cal (d : Dev) (i : Nat) (f : Fld) (c : Nat) (l v : Bool) : (d.flag i f c l v).cal = d.cal := by
  simp only [Dev.flag, apply_ite Dev.cal, log_cal, wrb_cal, ite_self]
@[simp] theorem flag_com (d : Dev) (i : Nat) (f : Fld) (c : Nat) (l v : Bool) : (d.flag i f c l v).com = d.com := by
  simp only [Dev.flag, apply_ite Dev.com, log_com, wrb_com, ite_self]
@[simp] theorem flag_tbl (d : Dev) (i : Nat) (f : Fld) (c : Nat) (l v : Bool) : (d.flag i f c l v).tbl = d.tbl := by
  simp only [Dev.flag, apply_ite Dev.tbl, log_tbl, wrb_tbl, ite_self]
@[simp] theorem flag_boot (d : Dev) (i : Nat) (f : Fld) (c : Nat) (l v : Bool) : (d.flag i f c l v).boot = d.boot := by
  simp only [Dev.flag, apply_ite Dev.boot, log_boot, wrb_boot, ite_self]
@[simp] theorem flag_clk (d : Dev) (i : Nat) (f : Fld) (c : Nat) (l v : Bool) : (d.flag i f c l v).clk = d.clk := by
  simp only [Dev.flag, apply_ite Dev.clk, log_clk, wrb_clk, ite_self]
@[simp] theorem flag_sram (d : Dev) (i : Nat) (f : Fld) (c : Nat) (l v : Bool) : (d.flag i f c l v).sram = d.sram := by
  simp only [Dev.flag, apply_ite Dev.sram, log_sram, wrb_sram, ite_self]
@[simp] theorem flag_pins (d : Dev) (i : Nat) (f : Fld) (c : Nat) (l v : Bool) : (d.flag i f c l v).pins = d.pins := by
  simp only [Dev.flag, apply_ite Dev.pins, log_pins, wrb_pins, ite_self]
@[simp] theorem flag_tiles (d : Dev) (i : Nat) (f : Fld) (c : Nat) (l v : Bool) : (d.flag i f c l v).tiles = d.tiles := by
  simp only [Dev.flag, apply_ite Dev.tiles, log_tiles, wrb_tiles, ite_self]
@[simp] theorem flag_cams (d : Dev) (i : Nat) (f : Fld) (c : Nat) (l v : Bool) : (d.flag i f c l v).cams = d.cams := by
  simp only [Dev.flag, apply_ite Dev.cams, log_cams, wrb_cams, ite_self]
@[simp] theorem flag_defects (d : Dev) (i : Nat) (f : Fld) (c : Nat) (l v : Bool) : (d.flag i f c l v).defects = d.defects := by
  simp only [Dev.flag, apply_ite Dev.defects, log_defects, wrb_defects, ite_self]
@[simp] theorem flag_poison (d : Dev) (i : Nat) (f : Fld) (c : Nat) (l v : Bool) : (d.flag i f c l v).poison = d.poison := by
  simp only [Dev.flag, apply_ite Dev.poison, log_poison, wrb_poison, ite_self]
@[simp] theorem flag_clr (d : Dev) (i : Nat) (f : Fld) (c : Nat) (l v : Bool) : (d.flag i f c l v).clr = d.clr := by
  simp only [Dev.flag, apply_ite Dev.clr, log_clr, wrb_clr, ite_self]
@[simp] theorem flag_cmp (d : Dev) (i : Nat) (f : Fld) (c : Nat) (l v : Bool) : (d.flag i f c l v).cmp = d.cmp := by
  simp only [Dev.flag, apply_ite Dev.cmp, log_cmp, wrb_cmp, ite_self]
@[simp] theorem flag_scn (d : Dev) (i : Nat) (f : Fld) (c : Nat) (l v : Bool) : (d.flag i f c l v).scn = d.scn := by
  simp only [Dev.flag, apply_ite Dev.scn, log_scn, wrb_scn, ite_self]
@[simp] theorem flag_link (d : Dev) (i : Nat) (f : Fld) (c : Nat) (l v : Bool) : (d.flag i f c l v).link = d.link := by
  simp only [Dev.flag, apply_ite Dev.link, log_link, wrb_link, ite_self]
@[simp] theorem flag_calib (d : Dev) (i : Nat) (f : Fld) (c : Nat) (l v : Bool) : (d.flag i f c l v).calib = d.calib := by
  simp only [Dev.flag, apply_ite Dev.calib, log_calib, wrb_calib, ite_self]
@[simp] theorem flag_plane (d : Dev) (i : Nat) (f : Fld) (c : Nat) (l v : Bool) : (d.flag i f c l v).plane = d.plane := by
  simp only [Dev.flag, apply_ite Dev.plane, log_plane, wrb_plane, ite_self]
@[simp] theorem flag_late (d : Dev) (i : Nat) (f : Fld) (c : Nat) (l v : Bool) : (d.flag i f c l v).late = d.late := by
  simp only [Dev.flag, apply_ite Dev.late, log_late, wrb_late, ite_self]
@[simp] theorem flag_hbx (d : Dev) (i : Nat) (f : Fld) (c : Nat) (l v : Bool) : (d.flag i f c l v).hbx = d.hbx := by
  simp only [Dev.flag, apply_ite Dev.hbx, log_hbx, wrb_hbx, ite_self]
@[simp] theorem flag_ful (d : Dev) (i : Nat) (f : Fld) (c : Nat) (l v : Bool) : (d.flag i f c l v).ful = d.ful := by
  simp only [Dev.flag, apply_ite Dev.ful, log_ful, wrb_ful, ite_self]
@[simp] theorem flag_thm (d : Dev) (i : Nat) (f : Fld) (c : Nat) (l v : Bool) : (d.flag i f c l v).thm = d.thm := by
  simp only [Dev.flag, apply_ite Dev.thm, log_thm, wrb_thm, ite_self]
@[simp] theorem flag_hvc (d : Dev) (i : Nat) (f : Fld) (c : Nat) (l v : Bool) : (d.flag i f c l v).hvc = d.hvc := by
  simp only [Dev.flag, apply_ite Dev.hvc, log_hvc, wrb_hvc, ite_self]
@[simp] theorem flag_aud (d : Dev) (i : Nat) (f : Fld) (c : Nat) (l v : Bool) : (d.flag i f c l v).aud = d.aud := by
  simp only [Dev.flag, apply_ite Dev.aud, log_aud, wrb_aud, ite_self]
@[simp] theorem flag_ptp (d : Dev) (i : Nat) (f : Fld) (c : Nat) (l v : Bool) : (d.flag i f c l v).ptp = d.ptp := by
  simp only [Dev.flag, apply_ite Dev.ptp, log_ptp, wrb_ptp, ite_self]
@[simp] theorem flag_cue (d : Dev) (i : Nat) (f : Fld) (c : Nat) (l v : Bool) : (d.flag i f c l v).cue = d.cue := by
  simp only [Dev.flag, apply_ite Dev.cue, log_cue, wrb_cue, ite_self]
@[simp] theorem flag_dram (d : Dev) (i : Nat) (f : Fld) (c : Nat) (l v : Bool) : (d.flag i f c l v).dram = d.dram := by
  simp only [Dev.flag, apply_ite Dev.dram, log_dram, wrb_dram, ite_self]
@[simp] theorem flag_pair (d : Dev) (i : Nat) (f : Fld) (c : Nat) (l v : Bool) : (d.flag i f c l v).pair = d.pair := by
  simp only [Dev.flag, apply_ite Dev.pair, log_pair, wrb_pair, ite_self]

/-! `flagBit`. -/

@[simp] theorem flagBit_comm (d : Dev) (i : Nat) (f : Fld) (j c : Nat) (l v : Bool) : (d.flagBit i f j c l v).comm = d.comm := by
  simp only [Dev.flagBit, apply_ite Dev.comm, log_comm, wr_comm, ite_self]
@[simp] theorem flagBit_live (d : Dev) (i : Nat) (f : Fld) (j c : Nat) (l v : Bool) : (d.flagBit i f j c l v).live = d.live := by
  simp only [Dev.flagBit, apply_ite Dev.live, log_live, wr_live, ite_self]
@[simp] theorem flagBit_off (d : Dev) (i : Nat) (f : Fld) (j c : Nat) (l v : Bool) : (d.flagBit i f j c l v).off = d.off := by
  simp only [Dev.flagBit, apply_ite Dev.off, log_off, wr_off, ite_self]
@[simp] theorem flagBit_now (d : Dev) (i : Nat) (f : Fld) (j c : Nat) (l v : Bool) : (d.flagBit i f j c l v).now = d.now := by
  simp only [Dev.flagBit, apply_ite Dev.now, log_now, wr_now, ite_self]
@[simp] theorem flagBit_stcOff (d : Dev) (i : Nat) (f : Fld) (j c : Nat) (l v : Bool) : (d.flagBit i f j c l v).stcOff = d.stcOff := by
  simp only [Dev.flagBit, apply_ite Dev.stcOff, log_stcOff, wr_stcOff, ite_self]
@[simp] theorem flagBit_wq (d : Dev) (i : Nat) (f : Fld) (j c : Nat) (l v : Bool) : (d.flagBit i f j c l v).wq = d.wq := by
  simp only [Dev.flagBit, apply_ite Dev.wq, log_wq, wr_wq, ite_self]
@[simp] theorem flagBit_out (d : Dev) (i : Nat) (f : Fld) (j c : Nat) (l v : Bool) : (d.flagBit i f j c l v).out = d.out := by
  simp only [Dev.flagBit, apply_ite Dev.out, log_out, wr_out, ite_self]
@[simp] theorem flagBit_free (d : Dev) (i : Nat) (f : Fld) (j c : Nat) (l v : Bool) : (d.flagBit i f j c l v).free = d.free := by
  simp only [Dev.flagBit, apply_ite Dev.free, log_free, wr_free, ite_self]
@[simp] theorem flagBit_snap (d : Dev) (i : Nat) (f : Fld) (j c : Nat) (l v : Bool) : (d.flagBit i f j c l v).snap = d.snap := by
  simp only [Dev.flagBit, apply_ite Dev.snap, log_snap, wr_snap, ite_self]
@[simp] theorem flagBit_wtm (d : Dev) (i : Nat) (f : Fld) (j c : Nat) (l v : Bool) : (d.flagBit i f j c l v).wtm = d.wtm := by
  simp only [Dev.flagBit, apply_ite Dev.wtm, log_wtm, wr_wtm, ite_self]
@[simp] theorem flagBit_cal (d : Dev) (i : Nat) (f : Fld) (j c : Nat) (l v : Bool) : (d.flagBit i f j c l v).cal = d.cal := by
  simp only [Dev.flagBit, apply_ite Dev.cal, log_cal, wr_cal, ite_self]
@[simp] theorem flagBit_com (d : Dev) (i : Nat) (f : Fld) (j c : Nat) (l v : Bool) : (d.flagBit i f j c l v).com = d.com := by
  simp only [Dev.flagBit, apply_ite Dev.com, log_com, wr_com, ite_self]
@[simp] theorem flagBit_tbl (d : Dev) (i : Nat) (f : Fld) (j c : Nat) (l v : Bool) : (d.flagBit i f j c l v).tbl = d.tbl := by
  simp only [Dev.flagBit, apply_ite Dev.tbl, log_tbl, wr_tbl, ite_self]
@[simp] theorem flagBit_boot (d : Dev) (i : Nat) (f : Fld) (j c : Nat) (l v : Bool) : (d.flagBit i f j c l v).boot = d.boot := by
  simp only [Dev.flagBit, apply_ite Dev.boot, log_boot, wr_boot, ite_self]
@[simp] theorem flagBit_clk (d : Dev) (i : Nat) (f : Fld) (j c : Nat) (l v : Bool) : (d.flagBit i f j c l v).clk = d.clk := by
  simp only [Dev.flagBit, apply_ite Dev.clk, log_clk, wr_clk, ite_self]
@[simp] theorem flagBit_sram (d : Dev) (i : Nat) (f : Fld) (j c : Nat) (l v : Bool) : (d.flagBit i f j c l v).sram = d.sram := by
  simp only [Dev.flagBit, apply_ite Dev.sram, log_sram, wr_sram, ite_self]
@[simp] theorem flagBit_pins (d : Dev) (i : Nat) (f : Fld) (j c : Nat) (l v : Bool) : (d.flagBit i f j c l v).pins = d.pins := by
  simp only [Dev.flagBit, apply_ite Dev.pins, log_pins, wr_pins, ite_self]
@[simp] theorem flagBit_tiles (d : Dev) (i : Nat) (f : Fld) (j c : Nat) (l v : Bool) : (d.flagBit i f j c l v).tiles = d.tiles := by
  simp only [Dev.flagBit, apply_ite Dev.tiles, log_tiles, wr_tiles, ite_self]
@[simp] theorem flagBit_cams (d : Dev) (i : Nat) (f : Fld) (j c : Nat) (l v : Bool) : (d.flagBit i f j c l v).cams = d.cams := by
  simp only [Dev.flagBit, apply_ite Dev.cams, log_cams, wr_cams, ite_self]
@[simp] theorem flagBit_defects (d : Dev) (i : Nat) (f : Fld) (j c : Nat) (l v : Bool) : (d.flagBit i f j c l v).defects = d.defects := by
  simp only [Dev.flagBit, apply_ite Dev.defects, log_defects, wr_defects, ite_self]
@[simp] theorem flagBit_poison (d : Dev) (i : Nat) (f : Fld) (j c : Nat) (l v : Bool) : (d.flagBit i f j c l v).poison = d.poison := by
  simp only [Dev.flagBit, apply_ite Dev.poison, log_poison, wr_poison, ite_self]
@[simp] theorem flagBit_clr (d : Dev) (i : Nat) (f : Fld) (j c : Nat) (l v : Bool) : (d.flagBit i f j c l v).clr = d.clr := by
  simp only [Dev.flagBit, apply_ite Dev.clr, log_clr, wr_clr, ite_self]
@[simp] theorem flagBit_cmp (d : Dev) (i : Nat) (f : Fld) (j c : Nat) (l v : Bool) : (d.flagBit i f j c l v).cmp = d.cmp := by
  simp only [Dev.flagBit, apply_ite Dev.cmp, log_cmp, wr_cmp, ite_self]
@[simp] theorem flagBit_scn (d : Dev) (i : Nat) (f : Fld) (j c : Nat) (l v : Bool) : (d.flagBit i f j c l v).scn = d.scn := by
  simp only [Dev.flagBit, apply_ite Dev.scn, log_scn, wr_scn, ite_self]
@[simp] theorem flagBit_link (d : Dev) (i : Nat) (f : Fld) (j c : Nat) (l v : Bool) : (d.flagBit i f j c l v).link = d.link := by
  simp only [Dev.flagBit, apply_ite Dev.link, log_link, wr_link, ite_self]
@[simp] theorem flagBit_calib (d : Dev) (i : Nat) (f : Fld) (j c : Nat) (l v : Bool) : (d.flagBit i f j c l v).calib = d.calib := by
  simp only [Dev.flagBit, apply_ite Dev.calib, log_calib, wr_calib, ite_self]
@[simp] theorem flagBit_plane (d : Dev) (i : Nat) (f : Fld) (j c : Nat) (l v : Bool) : (d.flagBit i f j c l v).plane = d.plane := by
  simp only [Dev.flagBit, apply_ite Dev.plane, log_plane, wr_plane, ite_self]
@[simp] theorem flagBit_late (d : Dev) (i : Nat) (f : Fld) (j c : Nat) (l v : Bool) : (d.flagBit i f j c l v).late = d.late := by
  simp only [Dev.flagBit, apply_ite Dev.late, log_late, wr_late, ite_self]
@[simp] theorem flagBit_hbx (d : Dev) (i : Nat) (f : Fld) (j c : Nat) (l v : Bool) : (d.flagBit i f j c l v).hbx = d.hbx := by
  simp only [Dev.flagBit, apply_ite Dev.hbx, log_hbx, wr_hbx, ite_self]
@[simp] theorem flagBit_ful (d : Dev) (i : Nat) (f : Fld) (j c : Nat) (l v : Bool) : (d.flagBit i f j c l v).ful = d.ful := by
  simp only [Dev.flagBit, apply_ite Dev.ful, log_ful, wr_ful, ite_self]
@[simp] theorem flagBit_thm (d : Dev) (i : Nat) (f : Fld) (j c : Nat) (l v : Bool) : (d.flagBit i f j c l v).thm = d.thm := by
  simp only [Dev.flagBit, apply_ite Dev.thm, log_thm, wr_thm, ite_self]
@[simp] theorem flagBit_hvc (d : Dev) (i : Nat) (f : Fld) (j c : Nat) (l v : Bool) : (d.flagBit i f j c l v).hvc = d.hvc := by
  simp only [Dev.flagBit, apply_ite Dev.hvc, log_hvc, wr_hvc, ite_self]
@[simp] theorem flagBit_aud (d : Dev) (i : Nat) (f : Fld) (j c : Nat) (l v : Bool) : (d.flagBit i f j c l v).aud = d.aud := by
  simp only [Dev.flagBit, apply_ite Dev.aud, log_aud, wr_aud, ite_self]
@[simp] theorem flagBit_ptp (d : Dev) (i : Nat) (f : Fld) (j c : Nat) (l v : Bool) : (d.flagBit i f j c l v).ptp = d.ptp := by
  simp only [Dev.flagBit, apply_ite Dev.ptp, log_ptp, wr_ptp, ite_self]
@[simp] theorem flagBit_cue (d : Dev) (i : Nat) (f : Fld) (j c : Nat) (l v : Bool) : (d.flagBit i f j c l v).cue = d.cue := by
  simp only [Dev.flagBit, apply_ite Dev.cue, log_cue, wr_cue, ite_self]
@[simp] theorem flagBit_dram (d : Dev) (i : Nat) (f : Fld) (j c : Nat) (l v : Bool) : (d.flagBit i f j c l v).dram = d.dram := by
  simp only [Dev.flagBit, apply_ite Dev.dram, log_dram, wr_dram, ite_self]
@[simp] theorem flagBit_pair (d : Dev) (i : Nat) (f : Fld) (j c : Nat) (l v : Bool) : (d.flagBit i f j c l v).pair = d.pair := by
  simp only [Dev.flagBit, apply_ite Dev.pair, log_pair, wr_pair, ite_self]

end Sys2Proof.Machine.Dev
end

