-- ==== Sys2Proof/Laws/Store.lean ====
section
/-!
SUPPORT. The laws of the sparse stores: a read gives what was last written under the key, and a write leaves every other
key alone.
-/

namespace Sys2Proof.Machine

theorem SMap.find?_put (m : SMap) (a v b : Nat) :
    SMap.find? (SMap.put m a v) b = if b = a then some v else SMap.find? m b := by
  induction m with
  | nil => simp [SMap.put, SMap.find?]
  | cons p r ih =>
    obtain ⟨k, w⟩ := p
    simp only [SMap.put]
    split
    · simp [SMap.find?]
    · split
      · subst_vars; simp only [SMap.find?]; split <;> rfl
      · simp only [SMap.find?, ih]
        split
        · subst_vars; rw [if_neg]; omega
        · rfl

theorem SMap.find?_del (m : SMap) (a b : Nat) :
    SMap.find? (SMap.del m a) b = if b = a then none else SMap.find? m b := by
  induction m with
  | nil => simp [SMap.del, SMap.find?]
  | cons p r ih =>
    obtain ⟨k, w⟩ := p
    simp only [SMap.del] at ih
    simp only [SMap.del, List.filter_cons]
    by_cases hk : k = a
    · subst hk; simp only [bne_self_eq_false, Bool.false_eq_true, if_false, ih, SMap.find?]
      split <;> simp_all
    · simp only [bne_iff_ne, ne_eq, hk, not_false_iff, if_true, SMap.find?, ih]
      split
      · subst_vars; simp_all
      · rfl

theorem SMap.get_set (m : SMap) (a v b : Nat) :
    SMap.get (SMap.set m a v) b = if b = a then v else SMap.get m b := by
  unfold SMap.get SMap.set
  split
  · rw [SMap.find?_del]; split <;> simp_all
  · rw [SMap.find?_put]; split <;> simp_all

end Sys2Proof.Machine
end

