-- ==== Sys2Proof/Laws/Dev.lean ====
section
/-!
SUPPORT. The laws of the register file: a read after a write, every other field as before, the live and committed copies
left alone; the same for counters, pairs, the event log, state changes and flags; and how a command is run.
-/

namespace Sys2Proof.Machine

namespace Dev

/-! Registers. -/

theorem rd_wr (d : Dev) (f g : Fld) (v : Nat) (h : g.key = f.key → g.reset = f.reset) :
    (d.wr f v).rd g = if g.key = f.key then v % 2 ^ f.width else d.rd g := by
  unfold Dev.rd Dev.wr
  by_cases hr : v % 2 ^ f.width = f.reset
  · simp only [hr, if_true, SMap.find?_del]
    split
    · simp_all
    · rfl
  · simp only [hr, if_false, SMap.find?_put]
    split <;> rfl

@[simp] theorem rd_wr_self (d : Dev) (f : Fld) (v : Nat) : (d.wr f v).rd f = v % 2 ^ f.width := by
  rw [rd_wr _ _ _ _ (fun _ => rfl), if_pos rfl]

theorem rd_wr_ne (d : Dev) (f g : Fld) (v : Nat) (h : g.key ≠ f.key) : (d.wr f v).rd g = d.rd g := by
  rw [rd_wr _ _ _ _ (fun e => absurd e h), if_neg h]

@[simp] theorem lv_wr (d : Dev) (f g : Fld) (v : Nat) : (d.wr f v).lv g = d.lv g := rfl
@[simp] theorem cm_wr (d : Dev) (f g : Fld) (v : Nat) : (d.wr f v).cm g = d.cm g := rfl

theorem rd_wrb_self (d : Dev) (f : Fld) (v : Bool) (h : f.width = 1) : (d.wrb f v).rd f = b2n v := by
  unfold Dev.wrb; rw [rd_wr_self, h]; cases v <;> rfl

theorem rdb_wrb_self (d : Dev) (f : Fld) (v : Bool) (h : f.width = 1) : (d.wrb f v).rdb f = v := by
  unfold Dev.rdb; rw [rd_wrb_self _ _ _ h]; cases v <;> rfl

theorem rd_wrb_ne (d : Dev) (f g : Fld) (v : Bool) (h : g.key ≠ f.key) : (d.wrb f v).rd g = d.rd g :=
  rd_wr_ne _ _ _ _ h

@[simp] theorem rd_addCnt_self (d : Dev) (f : Fld) (k : Nat) : (d.addCnt f k).rd f = Nat.min (d.rd f + k) (2 ^ f.width - 1) := by
  unfold Dev.addCnt
  rw [rd_wr_self]
  apply Nat.mod_eq_of_lt
  have h1 : 0 < 2 ^ f.width := Nat.two_pow_pos _
  have h2 : Nat.min (d.rd f + k) (2 ^ f.width - 1) ≤ 2 ^ f.width - 1 := Nat.min_le_right _ _
  omega

theorem rd_addCnt_ne (d : Dev) (f g : Fld) (k : Nat) (h : g.key ≠ f.key) : (d.addCnt f k).rd g = d.rd g :=
  rd_wr_ne _ _ _ _ h

@[simp] theorem rd_cnt_self (d : Dev) (f : Fld) : (d.cnt f).rd f = Nat.min (d.rd f + 1) (2 ^ f.width - 1) :=
  rd_addCnt_self _ _ _

theorem rd_cnt_ne (d : Dev) (f g : Fld) (h : g.key ≠ f.key) : (d.cnt f).rd g = d.rd g := rd_wr_ne _ _ _ _ h

@[simp] theorem rd_cntWrap_self (d : Dev) (f : Fld) : (d.cntWrap f).rd f = (d.rd f + 1) % 2 ^ f.width := rd_wr_self _ _ _

theorem rd_cntWrap_ne (d : Dev) (f g : Fld) (h : g.key ≠ f.key) : (d.cntWrap f).rd g = d.rd g := rd_wr_ne _ _ _ _ h

theorem rd_wrPair_ne (d : Dev) (lo hi g : Fld) (v : Nat) (h : g.key ≠ lo.key) (h' : g.key ≠ hi.key) :
    (d.wrPair lo hi v).rd g = d.rd g := by
  unfold Dev.wrPair; rw [rd_wr_ne _ _ _ _ h', rd_wr_ne _ _ _ _ h]

@[simp] theorem rd_emit (d : Dev) (o : Out) (g : Fld) : (d.emit o).rd g = d.rd g := rfl
@[simp] theorem rd_upTo (d : Dev) (t : Time) (g : Fld) : (d.upTo t).rd g = d.rd g := rfl
@[simp] theorem rd_pass (d : Dev) (t : Span) (g : Fld) : (d.pass t).rd g = d.rd g := rfl
@[simp] theorem rd_drawn (d : Dev) (g : Fld) : d.drawn.rd g = d.rd g := rfl
@[simp] theorem rd_memClear (d : Dev) (a n : Nat) (g : Fld) : (d.memClear a n).rd g = d.rd g := rfl

/-! The event log. -/

theorem rd_logEntry (d : Dev) (e : LogEntry) (g : Fld) (h : g.key ≠ R.ERR_DROPPED.key) : (d.logEntry e).rd g = d.rd g := by
  simp only [Dev.logEntry, apply_ite (fun x : Dev => x.rd g), rd_cnt_ne _ _ _ h]
  simp only [Dev.rd, ite_self]

theorem rd_log (d : Dev) (s i c k x e : Nat) (g : Fld) (h : g.key ≠ R.ERR_DROPPED.key) : (d.log s i c k x e).rd g = d.rd g :=
  rd_logEntry _ _ _ h

/-! The device state. -/

theorem rd_setState (d : Dev) (st : DevState) (g : Fld) (h : g.key ≠ R.ERR_DROPPED.key) (h1 : g.key ≠ R.TOP_STATE.key)
    (h2 : g.key ≠ R.TOP_STATE_CHANGES.key) : (d.setState st).rd g = d.rd g := by
  simp only [Dev.setState, apply_ite (fun x : Dev => x.rd g), rd_log _ _ _ _ _ _ _ _ h, rd_cntWrap_ne _ _ _ h2,
    rd_wr_ne _ _ _ _ h1, ite_self]

theorem rd_flag (d : Dev) (i : Nat) (f : Fld) (c : Nat) (l v : Bool) (g : Fld) (h : g.key ≠ R.ERR_DROPPED.key)
    (h' : g.key ≠ f.key) : (d.flag i f c l v).rd g = d.rd g := by
  simp only [Dev.flag, apply_ite (fun x : Dev => x.rd g), rd_log _ _ _ _ _ _ _ _ h, rd_wrb_ne _ _ _ _ h', ite_self]

theorem rd_flagBit (d : Dev) (i : Nat) (f : Fld) (j c : Nat) (l v : Bool) (g : Fld) (h : g.key ≠ R.ERR_DROPPED.key)
    (h' : g.key ≠ f.key) : (d.flagBit i f j c l v).rd g = d.rd g := by
  simp only [Dev.flagBit, apply_ite (fun x : Dev => x.rd g), rd_log _ _ _ _ _ _ _ _ h, rd_wr_ne _ _ _ _ h', ite_self]

/-- After a flag is set to a value it has that value. -/
theorem rdb_flag_self (d : Dev) (i : Nat) (f : Fld) (c : Nat) (l v : Bool) (h : f.key ≠ R.ERR_DROPPED.key) (w : f.width = 1) :
    (d.flag i f c l v).rdb f = v := by
  unfold Dev.flag
  split
  · assumption
  · cases v <;> cases l <;> simp only [Bool.false_eq_true, if_true, if_false, Dev.rdb, rd_log _ _ _ _ _ _ _ _ h,
      rd_wrb_self _ _ _ w] <;> rfl

/-- TOP.STATE reads as the state's code. -/
theorem rd_state_setState (d : Dev) (st : DevState) (h : d.state ≠ st) : (d.setState st).rd R.TOP_STATE = stateCode st := by
  have e : R.TOP_STATE.key ≠ R.ERR_DROPPED.key := by decide
  have e2 : R.TOP_STATE.key ≠ R.TOP_STATE_CHANGES.key := by decide
  simp only [Dev.setState, h, if_false, rd_log _ _ _ _ _ _ _ _ e, rd_cntWrap_ne _ _ _ e2, rd_wr_self]
  cases st <;> rfl

/-- The state is that which was set, on a device that is not in OFF. -/
theorem state_setState (d : Dev) (st : DevState) (on : d.off = false) (h : st ≠ .off) : (d.setState st).state = st := by
  by_cases e : d.state = st
  · simp only [Dev.setState, e, if_true]
  · unfold Dev.state
    rw [setState_off, on, rd_state_setState d st e]
    cases st <;> first | contradiction | rfl

theorem state_wr (d : Dev) (f : Fld) (v : Nat) (h : R.TOP_STATE.key ≠ f.key) : (d.wr f v).state = d.state := by
  simp only [Dev.state, wr_off, rd_wr_ne _ _ _ _ h]

theorem state_log (d : Dev) (s i c k x e : Nat) : (d.log s i c k x e).state = d.state := by
  have h : R.TOP_STATE.key ≠ R.ERR_DROPPED.key := by decide
  simp only [Dev.state, log_off, rd_log _ _ _ _ _ _ _ _ h]

/-- A device in a state other than OFF is not in OFF. -/
theorem on_of_state {d : Dev} {st : DevState} (h : d.state = st) (n : st ≠ .off) : d.off = false := by
  cases e : d.off with
  | false => rfl
  | true => simp [Dev.state, e] at h; exact absurd h.symm n

@[simp] theorem stc_wr (d : Dev) (f : Fld) (v : Nat) : (d.wr f v).stc = d.stc := rfl

end Dev

/-! How a command is run. -/

theorem run_on {s : State} (h : s.dev.off = false) (f : List Host.Cell → Dev → Dev) :
    run s f = .next (settle s (f s.mem s.start)) := by
  simp [run, h, State.start]

theorem settle_quiet {s : State} {d : Dev} (h : d.wq = []) : settle s d = s.withDev d := by
  simp [settle, State.withDev, h, Memory.applyAll]

/-- A command that writes no DRAM leaves the queue and every byte as they were. -/
theorem run_quiet {s : State} (h : s.dev.off = false) {f : List Host.Cell → Dev → Dev} (w : (f s.mem s.start).wq = []) :
    run s f = .next (s.withDev (f s.mem s.start)) := by
  rw [run_on h, settle_quiet w]

@[simp] theorem start_wq (s : State) : s.start.wq = [] := rfl
@[simp] theorem start_rd (s : State) (f : Fld) : s.start.rd f = s.dev.rd f := rfl
@[simp] theorem start_rdb (s : State) (f : Fld) : s.start.rdb f = s.dev.rdb f := rfl
@[simp] theorem start_off (s : State) : s.start.off = s.dev.off := rfl
@[simp] theorem start_lv (s : State) (f : Fld) : s.start.lv f = s.dev.lv f := rfl
@[simp] theorem start_state (s : State) : s.start.state = s.dev.state := rfl
@[simp] theorem withDev_mem (s : State) (d : Dev) : (s.withDev d).mem = s.mem := rfl
@[simp] theorem withDev_pending (s : State) (d : Dev) : (s.withDev d).pending = s.pending := rfl
@[simp] theorem settle_pending (s : State) (d : Dev) : (settle s d).pending = s.pending := rfl

/-! What the state that a command leaves shows of the device that its effect leaves. -/

@[simp] theorem withDev_wq (s : State) (d : Dev) : (s.withDev d).dev.wq = [] := rfl
@[simp] theorem withDev_regs (s : State) (d : Dev) : (s.withDev d).dev.regs = d.regs := rfl
@[simp] theorem withDev_comm (s : State) (d : Dev) : (s.withDev d).dev.comm = d.comm := rfl
@[simp] theorem withDev_live (s : State) (d : Dev) : (s.withDev d).dev.live = d.live := rfl
@[simp] theorem withDev_off (s : State) (d : Dev) : (s.withDev d).dev.off = d.off := rfl
@[simp] theorem withDev_now (s : State) (d : Dev) : (s.withDev d).dev.now = d.now := rfl
@[simp] theorem withDev_stcOff (s : State) (d : Dev) : (s.withDev d).dev.stcOff = d.stcOff := rfl
@[simp] theorem withDev_out (s : State) (d : Dev) : (s.withDev d).dev.out = d.out := rfl
@[simp] theorem withDev_free (s : State) (d : Dev) : (s.withDev d).dev.free = d.free := rfl
@[simp] theorem withDev_elog (s : State) (d : Dev) : (s.withDev d).dev.elog = d.elog := rfl
@[simp] theorem withDev_snap (s : State) (d : Dev) : (s.withDev d).dev.snap = d.snap := rfl
@[simp] theorem withDev_wtm (s : State) (d : Dev) : (s.withDev d).dev.wtm = d.wtm := rfl
@[simp] theorem withDev_cal (s : State) (d : Dev) : (s.withDev d).dev.cal = d.cal := rfl
@[simp] theorem withDev_com (s : State) (d : Dev) : (s.withDev d).dev.com = d.com := rfl
@[simp] theorem withDev_tbl (s : State) (d : Dev) : (s.withDev d).dev.tbl = d.tbl := rfl
@[simp] theorem withDev_boot (s : State) (d : Dev) : (s.withDev d).dev.boot = d.boot := rfl
@[simp] theorem withDev_clk (s : State) (d : Dev) : (s.withDev d).dev.clk = d.clk := rfl
@[simp] theorem withDev_sram (s : State) (d : Dev) : (s.withDev d).dev.sram = d.sram := rfl
@[simp] theorem withDev_pins (s : State) (d : Dev) : (s.withDev d).dev.pins = d.pins := rfl
@[simp] theorem withDev_tiles (s : State) (d : Dev) : (s.withDev d).dev.tiles = d.tiles := rfl
@[simp] theorem withDev_cams (s : State) (d : Dev) : (s.withDev d).dev.cams = d.cams := rfl
@[simp] theorem withDev_defects (s : State) (d : Dev) : (s.withDev d).dev.defects = d.defects := rfl
@[simp] theorem withDev_poison (s : State) (d : Dev) : (s.withDev d).dev.poison = d.poison := rfl
@[simp] theorem withDev_clr (s : State) (d : Dev) : (s.withDev d).dev.clr = d.clr := rfl
@[simp] theorem withDev_cmp (s : State) (d : Dev) : (s.withDev d).dev.cmp = d.cmp := rfl
@[simp] theorem withDev_scn (s : State) (d : Dev) : (s.withDev d).dev.scn = d.scn := rfl
@[simp] theorem withDev_link (s : State) (d : Dev) : (s.withDev d).dev.link = d.link := rfl
@[simp] theorem withDev_calib (s : State) (d : Dev) : (s.withDev d).dev.calib = d.calib := rfl
@[simp] theorem withDev_plane (s : State) (d : Dev) : (s.withDev d).dev.plane = d.plane := rfl
@[simp] theorem withDev_late (s : State) (d : Dev) : (s.withDev d).dev.late = d.late := rfl
@[simp] theorem withDev_hbx (s : State) (d : Dev) : (s.withDev d).dev.hbx = d.hbx := rfl
@[simp] theorem withDev_ful (s : State) (d : Dev) : (s.withDev d).dev.ful = d.ful := rfl
@[simp] theorem withDev_thm (s : State) (d : Dev) : (s.withDev d).dev.thm = d.thm := rfl
@[simp] theorem withDev_hvc (s : State) (d : Dev) : (s.withDev d).dev.hvc = d.hvc := rfl
@[simp] theorem withDev_aud (s : State) (d : Dev) : (s.withDev d).dev.aud = d.aud := rfl
@[simp] theorem withDev_ptp (s : State) (d : Dev) : (s.withDev d).dev.ptp = d.ptp := rfl
@[simp] theorem withDev_cue (s : State) (d : Dev) : (s.withDev d).dev.cue = d.cue := rfl
@[simp] theorem withDev_dram (s : State) (d : Dev) : (s.withDev d).dev.dram = d.dram := rfl
@[simp] theorem withDev_pair (s : State) (d : Dev) : (s.withDev d).dev.pair = d.pair := rfl
@[simp] theorem withDev_rd (s : State) (d : Dev) (f : Fld) : (s.withDev d).dev.rd f = d.rd f := rfl
@[simp] theorem withDev_rdb (s : State) (d : Dev) (f : Fld) : (s.withDev d).dev.rdb f = d.rdb f := rfl
@[simp] theorem withDev_lv (s : State) (d : Dev) (f : Fld) : (s.withDev d).dev.lv f = d.lv f := rfl
@[simp] theorem withDev_lvb (s : State) (d : Dev) (f : Fld) : (s.withDev d).dev.lvb f = d.lvb f := rfl
@[simp] theorem withDev_cm (s : State) (d : Dev) (f : Fld) : (s.withDev d).dev.cm f = d.cm f := rfl
@[simp] theorem withDev_state (s : State) (d : Dev) : (s.withDev d).dev.state = d.state := rfl

@[simp] theorem settle_wq (s : State) (d : Dev) : (settle s d).dev.wq = [] := rfl
@[simp] theorem settle_regs (s : State) (d : Dev) : (settle s d).dev.regs = d.regs := rfl
@[simp] theorem settle_comm (s : State) (d : Dev) : (settle s d).dev.comm = d.comm := rfl
@[simp] theorem settle_live (s : State) (d : Dev) : (settle s d).dev.live = d.live := rfl
@[simp] theorem settle_off (s : State) (d : Dev) : (settle s d).dev.off = d.off := rfl
@[simp] theorem settle_now (s : State) (d : Dev) : (settle s d).dev.now = d.now := rfl
@[simp] theorem settle_stcOff (s : State) (d : Dev) : (settle s d).dev.stcOff = d.stcOff := rfl
@[simp] theorem settle_out (s : State) (d : Dev) : (settle s d).dev.out = d.out := rfl
@[simp] theorem settle_free (s : State) (d : Dev) : (settle s d).dev.free = d.free := rfl
@[simp] theorem settle_elog (s : State) (d : Dev) : (settle s d).dev.elog = d.elog := rfl
@[simp] theorem settle_snap (s : State) (d : Dev) : (settle s d).dev.snap = d.snap := rfl
@[simp] theorem settle_wtm (s : State) (d : Dev) : (settle s d).dev.wtm = d.wtm := rfl
@[simp] theorem settle_cal (s : State) (d : Dev) : (settle s d).dev.cal = d.cal := rfl
@[simp] theorem settle_com (s : State) (d : Dev) : (settle s d).dev.com = d.com := rfl
@[simp] theorem settle_tbl (s : State) (d : Dev) : (settle s d).dev.tbl = d.tbl := rfl
@[simp] theorem settle_boot (s : State) (d : Dev) : (settle s d).dev.boot = d.boot := rfl
@[simp] theorem settle_clk (s : State) (d : Dev) : (settle s d).dev.clk = d.clk := rfl
@[simp] theorem settle_sram (s : State) (d : Dev) : (settle s d).dev.sram = d.sram := rfl
@[simp] theorem settle_pins (s : State) (d : Dev) : (settle s d).dev.pins = d.pins := rfl
@[simp] theorem settle_tiles (s : State) (d : Dev) : (settle s d).dev.tiles = d.tiles := rfl
@[simp] theorem settle_cams (s : State) (d : Dev) : (settle s d).dev.cams = d.cams := rfl
@[simp] theorem settle_defects (s : State) (d : Dev) : (settle s d).dev.defects = d.defects := rfl
@[simp] theorem settle_poison (s : State) (d : Dev) : (settle s d).dev.poison = d.poison := rfl
@[simp] theorem settle_clr (s : State) (d : Dev) : (settle s d).dev.clr = d.clr := rfl
@[simp] theorem settle_cmp (s : State) (d : Dev) : (settle s d).dev.cmp = d.cmp := rfl
@[simp] theorem settle_scn (s : State) (d : Dev) : (settle s d).dev.scn = d.scn := rfl
@[simp] theorem settle_link (s : State) (d : Dev) : (settle s d).dev.link = d.link := rfl
@[simp] theorem settle_calib (s : State) (d : Dev) : (settle s d).dev.calib = d.calib := rfl
@[simp] theorem settle_plane (s : State) (d : Dev) : (settle s d).dev.plane = d.plane := rfl
@[simp] theorem settle_late (s : State) (d : Dev) : (settle s d).dev.late = d.late := rfl
@[simp] theorem settle_hbx (s : State) (d : Dev) : (settle s d).dev.hbx = d.hbx := rfl
@[simp] theorem settle_ful (s : State) (d : Dev) : (settle s d).dev.ful = d.ful := rfl
@[simp] theorem settle_thm (s : State) (d : Dev) : (settle s d).dev.thm = d.thm := rfl
@[simp] theorem settle_hvc (s : State) (d : Dev) : (settle s d).dev.hvc = d.hvc := rfl
@[simp] theorem settle_aud (s : State) (d : Dev) : (settle s d).dev.aud = d.aud := rfl
@[simp] theorem settle_ptp (s : State) (d : Dev) : (settle s d).dev.ptp = d.ptp := rfl
@[simp] theorem settle_cue (s : State) (d : Dev) : (settle s d).dev.cue = d.cue := rfl
@[simp] theorem settle_dram (s : State) (d : Dev) : (settle s d).dev.dram = d.dram := rfl
@[simp] theorem settle_pair (s : State) (d : Dev) : (settle s d).dev.pair = d.pair := rfl
@[simp] theorem settle_rd (s : State) (d : Dev) (f : Fld) : (settle s d).dev.rd f = d.rd f := rfl
@[simp] theorem settle_rdb (s : State) (d : Dev) (f : Fld) : (settle s d).dev.rdb f = d.rdb f := rfl
@[simp] theorem settle_lv (s : State) (d : Dev) (f : Fld) : (settle s d).dev.lv f = d.lv f := rfl
@[simp] theorem settle_lvb (s : State) (d : Dev) (f : Fld) : (settle s d).dev.lvb f = d.lvb f := rfl
@[simp] theorem settle_cm (s : State) (d : Dev) (f : Fld) : (settle s d).dev.cm f = d.cm f := rfl
@[simp] theorem settle_state (s : State) (d : Dev) : (settle s d).dev.state = d.state := rfl

/-- A command keeps the DRAM array's canonical form. -/
theorem settle_sound {s : State} (w : s.Sound) (d : Dev) : (settle s d).Sound := Memory.wf_applyAll d.wq w

end Sys2Proof.Machine
end

