-- ==== Sys2Proof/Laws/Exec.lean ====
section
/-!
SUPPORT. Every command as the effect that it runs: one equation per command, true by definition.
-/

namespace Sys2Proof.Machine

theorem exec_porstNAssert (s : State) :
    exec .porstNAssert s =
    runAny s fun _ d => actPorst d := rfl
theorem exec_porstNRelease (role bank tmode : Bool) (s : State) :
    exec (.porstNRelease role bank tmode) s =
  runAny s fun _ d => actPorstRelease role bank tmode d := rfl
theorem exec_supplyMonitorReset (s : State) :
    exec .supplyMonitorReset s =
    runAny s fun _ d => actSupplyReset d := rfl
theorem exec_pfailNFall (s : State) :
    exec .pfailNFall s =
    run s fun _ d => actPfailFall d := rfl
theorem exec_pfailNRise (s : State) :
    exec .pfailNRise s =
    run s fun _ d => actPfailRise d := rfl
theorem exec_pllLockTimeout (s : State) :
    exec .pllLockTimeout s =
    run s fun _ d => actPllTimeout d := rfl
theorem exec_pllLock (s : State) :
    exec .pllLock s =
    run s fun _ d => actPllLock d := rfl
theorem exec_dramTrainingDone (failed : BitVec 32) (s : State) :
    exec (.dramTrainingDone failed) s =
  run s fun _ d => actTraining failed.toNat d := rfl
theorem exec_imageReadDone (body : List Byte) (s : State) :
    exec (.imageReadDone body) s =
    run s fun _ d => actImage body d := rfl
theorem exec_wdogKick (s : State) :
    exec .wdogKick s =
    run s fun _ d => d.writeTo 0x6001C 1 actKick := rfl
theorem exec_watchdogExpiry (s : State) :
    exec .watchdogExpiry s =
    run s fun _ d => actWatchdog d := rfl
theorem exec_yieldTest (s : State) :
    exec .yieldTest s =
  run s fun _ d => d.writeTo 0x70000 (d.same 0x70000 + 1) actYieldTest := rfl
theorem exec_yieldHoldExpiry (s : State) :
    exec .yieldHoldExpiry s =
    run s fun _ d => actYieldHold d := rfl
theorem exec_readBoot (s : State) :
    exec .readBoot s =
    run s fun _ d => actReadBoot d := rfl
theorem exec_clockStopped (family : Fin 18) (inst : Fin 64) (s : State) :
    exec (.clockStopped family inst) s =
  run s fun m d => actClockStopped m family inst d := rfl
theorem exec_clockRunning (family : Fin 18) (inst : Fin 64) (s : State) :
    exec (.clockRunning family inst) s =
  run s fun m d => actClockRunning m family inst d := rfl
theorem exec_bridgeTimeout (s : State) :
    exec .bridgeTimeout s =
    run s fun _ d => actBridgeTimeout d := rfl
theorem exec_registerWrite (addr value : Word) (size : AccessSize) (s : State) :
    exec (.registerWrite addr value size) s =
  run s fun m d => d.access addr.toNat (some value.toNat) (fun d =>
    let r := d.busWrite m addr.toNat value.toNat
    (r.1, 0, r.2)) size := rfl
theorem exec_rcRead (read : RegRead) (s : State) :
    exec (.rcRead read) s =
  run s fun _ d => d.access read.addr.toNat none (Dev.busRead read.addr.toNat) read.size := rfl
theorem exec_wlnLoRead (s : State) :
    exec .wlnLoRead s =
    run s fun _ d => d.access 0x20010 none (Dev.busRead 0x20010) := rfl
theorem exec_wrIndexLoRead (port : Fin 4) (s : State) :
    exec (.wrIndexLoRead port) s =
  run s fun _ d => d.access (0x430118 + 0x40 * port.val) none (Dev.busRead (0x430118 + 0x40 * port.val)) := rfl
theorem exec_arrivalLoRead (s : State) :
    exec .arrivalLoRead s =
    run s fun _ d => d.access 0x45010C none (Dev.busRead 0x45010C) := rfl
theorem exec_wallLineBoundary (s : State) :
    exec .wallLineBoundary s =
    run s fun m d => actWallLine m d := rfl
theorem exec_referenceValid (ref : RefKind) (s : State) :
    exec (.referenceValid ref) s =
    run s fun _ d => actRefValid ref d := rfl
theorem exec_referenceLost (ref : RefKind) (s : State) :
    exec (.referenceLost ref) s =
    run s fun _ d => actRefLost ref d := rfl
theorem exec_frameRefEdge (rising : Bool) (dt : Nat) (s : State) :
    exec (.frameRefEdge rising dt) s =
  run s fun _ d => actFrefEdge rising dt d := rfl
theorem exec_frameRefMissing (s : State) :
    exec .frameRefMissing s =
    run s fun _ d => actFrefMissing d := rfl
theorem exec_sourceWrite (value : Word) (s : State) :
    exec (.sourceWrite value) s =
  run s fun _ d => d.writeTo 0x20000 value.toNat (Dev.writeSource value.toNat) := rfl
theorem exec_epochWrite (hi : Bool) (value : Word) (s : State) :
    exec (.epochWrite hi value) s =
  run s fun _ d => d.writeTo (if hi then 0x20044 else 0x20040) value.toNat (Dev.writeEpoch hi value.toNat) := rfl
theorem exec_sampleGo (s : State) :
    exec .sampleGo s =
    run s fun _ d => d.writeTo 0x20018 1 actSampleGo := rfl
theorem exec_timeAcceptSlew (s : State) :
    exec .timeAcceptSlew s =
    run s fun _ d => d.cueOp 0x09 (actTimeAccept false) := rfl
theorem exec_timeAcceptStep (s : State) :
    exec .timeAcceptStep s =
    run s fun _ d => d.cueOp 0x09 (actTimeAccept true) := rfl
theorem exec_calInsert (s : State) :
    exec .calInsert s =
    run s fun _ d => d.writeTo 0x20214 1 actCalInsert := rfl
theorem exec_calCancel (s : State) :
    exec .calCancel s =
    run s fun _ d => d.writeTo 0x20214 2 actCalCancel := rfl
theorem exec_storedCueRun (s : State) :
    exec .storedCueRun s =
    run s fun _ d => actStoredCue d := rfl
theorem exec_markRun (s : State) :
    exec .markRun s =
    run s fun _ d => actMark d := rfl
theorem exec_commitArmWrite (value : Word) (s : State) :
    exec (.commitArmWrite value) s =
  run s fun _ d => d.writeTo 0x20080 value.toNat (Dev.writeArm value.toNat) := rfl
theorem exec_tblRead (s : State) :
    exec .tblRead s =
    run s fun _ d => d.writeTo 0x1000008 2 actTblRead := rfl
theorem exec_tblWrite (s : State) :
    exec .tblWrite s =
    run s fun _ d => d.writeTo 0x1000008 1 actTblWrite := rfl
theorem exec_tblSelWrite (value : Word) (s : State) :
    exec (.tblSelWrite value) s =
  run s fun _ d => d.writeTo 0x1000000 value.toNat (Dev.writeSel value.toNat) := rfl
theorem exec_tblLoadGo (s : State) :
    exec .tblLoadGo s =
    run s fun _ d => d.writeTo 0x100002C 1 actTblLoadGo := rfl
theorem exec_tblLoadDone (bad : Option Nat) (s : State) :
    exec (.tblLoadDone bad) s =
  run s fun m d => actTblLoadDone bad m d := rfl
theorem exec_pageMoveOnchip (s : State) :
    exec .pageMoveOnchip s =
    run s fun _ d => actPageMove d := rfl
theorem exec_sramScrub (region : Fin 15) (word : Nat) (ecc : Ecc) (s : State) :
    exec (.sramScrub region word ecc) s =
  run s fun _ d => actSramScrub region word ecc d := rfl
theorem exec_camFrameStart (n : Fin 8) (dt : CamTick) (s : State) :
    exec (.camFrameStart n dt) s =
  if s.dev.off || s.dev.nextSizeOk n then run s fun _ d => actCamStart n dt d else .fault .geometryUndefined := rfl
theorem exec_camFrameEnd (n : Fin 8) (dt : Nat) (s : State) :
    exec (.camFrameEnd n dt) s =
  run s fun m d => actCamEnd n dt m d := rfl
theorem exec_camLine (n : Fin 8) (dt : CamTick) (transfers : List Word) (ovf : Option Nat) (s : State) :
    exec (.camLine n dt transfers ovf) s =
    run s fun m d => actCamLine n dt transfers ovf m d := rfl
theorem exec_camCheckWord (n : Fin 8) (check : CheckWord) (s : State) :
    exec (.camCheckWord n check) s =
  run s fun _ d => actCheckWord n check.hs check.word d := rfl
theorem exec_camGlitch (n : Fin 8) (s : State) :
    exec (.camGlitch n) s =
    run s fun _ d => actGlitch n d := rfl
theorem exec_missedSlot (n : Fin 8) (s : State) :
    exec (.missedSlot n) s =
    run s fun m d => actMissedSlot n m d := rfl
theorem exec_frameTimeout (n : Fin 8) (s : State) :
    exec (.frameTimeout n) s =
    run s fun _ d => actFrameTimeout n d := rfl
theorem exec_substituteFrame (n : Fin 8) (s : State) :
    exec (.substituteFrame n) s =
    run s fun m d => actSubstitute n m d := rfl
theorem exec_camCalGo (n : Fin 8) (s : State) :
    exec (.camCalGo n) s =
  run s fun _ d => d.writeTo (0x100200 + 0x10000 * n.val) (d.same (0x100200 + 0x10000 * n.val) + 1) (actCamCalGo n) := rfl
theorem exec_camCalStart (n : Fin 8) (s : State) :
    exec (.camCalStart n) s =
    run s fun _ d => actCamCalStart n d := rfl
theorem exec_defDataAccess (n : Fin 8) (write : Option Word) (s : State) :
    exec (.defDataAccess n write) s =
  run s fun _ d => match write with
    | some v => d.access (0x180040 + 0x10000 * n.val) (some v.toNat) fun d => ((d.writeDef n v.toNat).1, 0, (d.writeDef n v.toNat).2)
    | none => d.access (0x180040 + 0x10000 * n.val) none (Dev.busRead (0x180040 + 0x10000 * n.val)) := rfl
theorem exec_histArmWrite (n : Fin 8) (s : State) :
    exec (.histArmWrite n) s =
  run s fun _ d => d.writeTo (0x180088 + 0x10000 * n.val) 1 (actHistArm n) := rfl
theorem exec_statsWriteDone (n : Fin 8) (s : State) :
    exec (.statsWriteDone n) s =
    run s fun _ d => actStatsDone n d := rfl
theorem exec_lutDataAccess (write : Option Word) (s : State) :
    exec (.lutDataAccess write) s =
  run s fun _ d => match write with
    | some v => d.access 0x202004 (some v.toNat) fun d => ((d.writeLut v.toNat).1, 0, (d.writeLut v.toNat).2)
    | none => d.access 0x202004 none (Dev.busRead 0x202004) := rfl
theorem exec_ambientReading (readings : List (Option Nat)) (s : State) :
    exec (.ambientReading readings) s =
  run s fun _ d => actAmbient readings d := rfl
theorem exec_windowRowEntry (n : Fin 8) (dt : Nat) (s : State) :
    exec (.windowRowEntry n dt) s =
  run s fun m d => actWindowRow n dt m d := rfl
theorem exec_frameStoreWrite (j : Fin 32) (s : State) :
    exec (.frameStoreWrite j) s =
    run s fun m d => actFsWrite j m d := rfl
theorem exec_coefDataAccess (write : Option Word) (s : State) :
    exec (.coefDataAccess write) s =
  run s fun _ d => match write with
    | some v => d.access 0x210024 (some v.toNat) fun d => ((d.writeCoef v.toNat).1, 0, (d.writeCoef v.toNat).2)
    | none => d.access 0x210024 none (Dev.busRead 0x210024) := rfl
theorem exec_battDue (lane : Fin 64) (s : State) :
    exec (.battDue lane) s =
    run s fun _ d => actBattDue lane d := rfl
theorem exec_scanoutPixel (x y : Nat) (s : State) :
    exec (.scanoutPixel x y) s =
    run s fun _ d => actPixel x y d := rfl
theorem exec_fifoWrite (use : FifoUse) (s : State) :
    exec (.fifoWrite use) s =
  run s fun _ d => actFifoWrite use.lane use.ecc d := rfl
theorem exec_packetTransmit (use : FifoUse) (s : State) :
    exec (.packetTransmit use) s =
  run s fun _ d => (actTransmit use.lane use.ecc d).upAfter use.lane := rfl
theorem exec_alignmentMarker (octet : Fin 8) (s : State) :
    exec (.alignmentMarker octet) s =
    run s fun _ d => actMarker octet d := rfl
theorem exec_akReceive (lane : Fin 64) (blocks : List (BitVec 130)) (s : State) :
    exec (.akReceive lane blocks) s =
  run s fun _ d => actBlocks lane blocks d := rfl
theorem exec_nkReceive (lane : Fin 64) (blocks : List (BitVec 130)) (s : State) :
    exec (.nkReceive lane blocks) s =
  run s fun _ d => actBlocks lane blocks d := rfl
theorem exec_tlReceive (lane : Fin 64) (blocks : List (BitVec 130)) (s : State) :
    exec (.tlReceive lane blocks) s =
  run s fun _ d => actBlocks lane blocks d := rfl
theorem exec_returnPacketBad (rx : LaneBlocks) (s : State) :
    exec (.returnPacketBad rx) s =
  run s fun _ d => actBlocks rx.lane rx.blocks d := rfl
theorem exec_blockLockAcquired (rx : LaneBlocks) (s : State) :
    exec (.blockLockAcquired rx) s =
  run s fun _ d => actBlocks rx.lane rx.blocks d := rfl
theorem exec_blockLockLost (lane : Fin 64) (blocks : List (BitVec 130)) (s : State) :
    exec (.blockLockLost lane blocks) s =
  run s fun _ d => actBlocks lane blocks d := rfl
theorem exec_ackTimeout (lane : Fin 64) (s : State) :
    exec (.ackTimeout lane) s =
  run s fun _ d => (actAckTimeout lane d).upAfter lane := rfl
theorem exec_packetDeadline (lane : Fin 64) (s : State) :
    exec (.packetDeadline lane) s =
  run s fun _ d => (actDeadline lane d).upAfter lane := rfl
theorem exec_tileStale (tile : BitVec 12) (s : State) :
    exec (.tileStale tile) s =
    run s fun _ d => d.tileGoesStale tile.toNat := rfl
theorem exec_vrRepeat (lane : Fin 64) (s : State) :
    exec (.vrRepeat lane) s =
    run s fun _ d => d.sendVrs lane := rfl
theorem exec_ctWrite (tile : BitVec 12) (s : State) :
    exec (.ctWrite tile) s =
  run s fun _ d => d.writeTo 0x240040 (0x81000000 + tile.toNat) (Dev.writeCt (0x81000000 + tile.toNat)) := rfl
theorem exec_ctRead (tile : BitVec 12) (s : State) :
    exec (.ctRead tile) s =
  run s fun _ d => d.writeTo 0x240040 (0x82000000 + tile.toNat) (Dev.writeCt (0x82000000 + tile.toNat)) := rfl
theorem exec_ctSetPosition (tile : BitVec 12) (s : State) :
    exec (.ctSetPosition tile) s =
  run s fun _ d => d.writeTo 0x240040 (0x83000000 + tile.toNat) (Dev.writeCt (0x83000000 + tile.toNat)) := rfl
theorem exec_enumWindowEnd (lane : Fin 64) (s : State) :
    exec (.enumWindowEnd lane) s =
  run s fun _ d => (d.enumEnd lane).upAfter lane := rfl
theorem exec_modeReqWrite (octet : Fin 8) (mode : BitVec 2) (s : State) :
    exec (.modeReqWrite octet mode) s =
  run s fun _ d =>
    d.writeTo (0x300000 + 0x10000 * octet.val) (d.same (0x300000 + 0x10000 * octet.val) / 4 * 4 + mode.toNat) (actModeReq octet mode.toNat) := rfl
theorem exec_octetIdleDrained (octet : Fin 8) (s : State) :
    exec (.octetIdleDrained octet) s =
    run s fun _ d => actDrained octet d := rfl
theorem exec_octetFckStart (octet : Fin 8) (s : State) :
    exec (.octetFckStart octet) s =
    run s fun _ d => actFck octet d := rfl
theorem exec_octetTrainingEnd (octet : Fin 8) (s : State) :
    exec (.octetTrainingEnd octet) s =
    run s fun _ d => actTrained octet d := rfl
theorem exec_laneTestWrite (lane : Option (Fin 64)) (value : Word) (s : State) :
    exec (.laneTestWrite lane value) s =
  run s fun _ d =>
    let addr := match lane with
      | some k => 0x300100 + 0x10000 * (k.val / 8) + 0x40 * (k.val % 8)
      | none => 0x380000
    d.access addr (some value.toNat) fun d =>
      let r := actLaneTest (lane.map Fin.val) value.toNat d
      (r.1, 0, r.2) := rfl
theorem exec_lctrlGo (lane : Fin 64) (s : State) :
    exec (.lctrlGo lane) s =
  run s fun _ d =>
    let addr := 0x300100 + 0x10000 * (lane.val / 8) + 0x40 * (lane.val % 8)
    d.writeTo addr (d.same addr + 1) (actLctrlGo lane) := rfl
theorem exec_calReqRx (s : State) :
    exec .calReqRx s =
    run s fun _ d => d.writeTo 0x1080C 1 Dev.queueRx := rfl
theorem exec_calReqCam (s : State) :
    exec .calReqCam s =
    run s fun _ d => d.writeTo 0x1080C 2 Dev.queueCams := rfl
theorem exec_calReqDram (s : State) :
    exec .calReqDram s =
    run s fun _ d => d.writeTo 0x1080C 4 Dev.queueDram := rfl
theorem exec_rxCalStart (lane : Fin 64) (s : State) :
    exec (.rxCalStart lane) s =
    run s fun _ d => actRxStart lane d := rfl
theorem exec_rxCalPhaseDone (lane : Fin 64) (dt : Nat) (phase thr : BitVec 64) (errs : Word) (s : State) :
    exec (.rxCalPhaseDone lane dt phase thr errs) s =
  run s fun _ d => actRxPhase lane dt phase.toNat thr.toNat errs.toNat d := rfl
theorem exec_dramCalWindow (chan : Fin 32) (s : State) :
    exec (.dramCalWindow chan) s =
    run s fun _ d => actDramWindow chan d := rfl
theorem exec_calRunDone (kind : CalKind) (n : Fin 64) (clean : List (BitVec 64)) (errs : Word) (kept : Bool) (s : State) :
    exec (.calRunDone kind n clean errs kept) s =
  run s fun _ d => actRunDone kind n (clean.map BitVec.toNat) errs.toNat kept d := rfl
theorem exec_calRunTimeout (kind : CalKind) (n : Fin 64) (s : State) :
    exec (.calRunTimeout kind n) s =
  run s fun _ d => actRunTimeout kind n d := rfl
theorem exec_calRetry (kind : CalKind) (n : Fin 64) (s : State) :
    exec (.calRetry kind n) s =
  run s fun _ d => actRetry kind n d := rfl
theorem exec_alignmentColumnSend (s : State) :
    exec .alignmentColumnSend s =
    run s fun _ d => if Dev.testOn (d.rd R.PAIR_CTRL_TEST) then d else d.emit (.column alignColumn) := rfl
theorem exec_pairLaneAligned (lane : Fin 4) (syms : List PairSym) (pace : LanePace) (s : State) :
    exec (.pairLaneAligned lane syms pace) s =
  run s fun _ d => actPairSymbols lane syms pace.skew pace.ahead d := rfl
theorem exec_pairAlignmentLost (lane : Fin 4) (syms : List PairSym) (pace : LanePace) (s : State) :
    exec (.pairAlignmentLost lane syms pace) s =
  run s fun _ d => actPairSymbols lane syms pace.skew pace.ahead d := rfl
theorem exec_beatReceive (pathB : Bool) (bytes : List Byte) (s : State) :
    exec (.beatReceive pathB bytes) s =
  run s fun _ d => actBeat (wordRx pathB bytes) d := rfl
theorem exec_pairWaitExpiry (s : State) :
    exec .pairWaitExpiry s =
    run s fun _ d => actPairWait d := rfl
theorem exec_pathFault (pathB : Bool) (s : State) :
    exec (.pathFault pathB) s =
    run s fun _ d => actPathFault pathB d := rfl
theorem exec_partnerFailed (s : State) :
    exec .partnerFailed s =
    run s fun _ d => actPartnerFailed d := rfl
theorem exec_yieldPin (s : State) :
    exec .yieldPin s =
    run s fun _ d => actYieldPin d := rfl
theorem exec_yieldWordReceive (pathB : Bool) (bytes : List Byte) (s : State) :
    exec (.yieldWordReceive pathB bytes) s =
  run s fun _ d => actYieldWord (wordRx pathB bytes) d := rfl
theorem exec_claimGiveup (s : State) :
    exec .claimGiveup s =
    run s fun _ d => actGiveup d := rfl
theorem exec_stateFrameReceive (bytes : List Byte) (crc : Word) (body : StateBody) (s : State) :
    exec (.stateFrameReceive bytes crc body) s =
  run s fun _ d => actStateFrame (withCrc bytes crc) body d := rfl
theorem exec_cutReceive (bytes : List Byte) (crc : Word) (cut : Ckpt) (s : State) :
    exec (.cutReceive bytes crc cut) s =
  run s fun _ d => actCut bytes crc.toNat cut d := rfl
theorem exec_commitFrameReceive (bytes : List Byte) (crc line : Word) (groups : Byte) (s : State) :
    exec (.commitFrameReceive bytes crc line groups) s =
  run s fun _ d => actCommitFrame (withCrc bytes crc) line.toNat groups.toNat d := rfl
theorem exec_ackFrameReceive (ack : AckRx) (s : State) :
    exec (.ackFrameReceive ack) s =
  run s fun _ d => actAck ack.bytes ack.seq.toNat ack.gap d := rfl
theorem exec_ackFrameSend (s : State) :
    exec .ackFrameSend s =
    run s fun _ d => actAckSend d := rfl
theorem exec_sigFrameReceive (bytes : List Byte) (body : SigRx) (s : State) :
    exec (.sigFrameReceive bytes body) s =
  run s fun _ d => actSig bytes body.sig.toNat body.wln.toNat d := rfl
theorem exec_requestFrameReceive (rx : RequestRx) (s : State) :
    exec (.requestFrameReceive rx) s =
  run s fun _ d => actRequest rx.bytes rx.req d := rfl
theorem exec_telemFrameReceive (rx : TelemRx) (s : State) :
    exec (.telemFrameReceive rx) s =
  run s fun _ d => actTelem rx.bytes rx.tile d := rfl
theorem exec_checkpointTimeout (s : State) :
    exec .checkpointTimeout s =
    run s fun _ d => actCutTimeout d := rfl
theorem exec_veerReq (s : State) :
    exec .veerReq s =
    run s fun _ d => d.cueOp 0x0A actVeerReq := rfl
theorem exec_firmwareVeerReq (s : State) :
    exec .firmwareVeerReq s =
  run s fun _ d => d.writeTo 0x70030 1 fun d => d.veerRequest.1 := rfl
theorem exec_splitHeal (lane : Fin 64) (s : State) :
    exec (.splitHeal lane) s =
    run s fun _ d => actSplitHeal lane d := rfl
theorem exec_homing (s : State) :
    exec .homing s =
    run s fun _ d => actHoming d := rfl
theorem exec_hatboxMount (drives : List DriveInfo) (s : State) :
    exec (.hatboxMount drives) s =
    runEngine s fun _ d => actMount drives d := rfl
theorem exec_hbxWrite (s : State) :
    exec .hbxWrite s =
    runEngine s fun m d => actHbxWrite m d := rfl
theorem exec_writeStaged (tag : Fin 1024) (s : State) :
    exec (.writeStaged tag) s =
    runEngine s fun m d => actWriteStaged tag m d := rfl
theorem exec_hbxRead (s : State) :
    exec .hbxRead s =
    runEngine s fun m d => actHbxRead m d := rfl
theorem exec_readComplete (tag : Fin 1024) (data : List Byte) (result : NvmeEnd) (copied : Nat) (s : State) :
    exec (.readComplete tag data result copied) s =
    runEngine s fun _ d => actReadComplete tag data result copied d := rfl
theorem exec_hbxFlush (s : State) :
    exec .hbxFlush s =
    runEngine s fun m d => actHbxFlush m d := rfl
theorem exec_openTake (s : State) :
    exec .openTake s =
    runEngine s fun m d => actOpenTake m d := rfl
theorem exec_closeTake (s : State) :
    exec .closeTake s =
    runEngine s fun m d => actCloseTake m d := rfl
theorem exec_deleteTake (s : State) :
    exec .deleteTake s =
    runEngine s fun m d => actDeleteTake m d := rfl
theorem exec_fwActivate (s : State) :
    exec .fwActivate s =
    runEngine s fun m d => actFwActivate m d := rfl
theorem exec_nvmeWriteComplete (ser : Nat) (result : NvmeEnd) (s : State) :
    exec (.nvmeWriteComplete ser result) s =
  runEngine s fun _ d => actNvmeDone ser result d := rfl
theorem exec_commitBatchStart (drive : Fin 4) (s : State) :
    exec (.commitBatchStart drive) s =
    runEngine s fun _ d => actBatchStart drive d := rfl
theorem exec_batchStepDone (drive : Fin 4) (s : State) :
    exec (.batchStepDone drive) s =
    runEngine s fun _ d => actBatchStep drive d := rfl
theorem exec_hbxAbort (client : Fin 16) (cid : BitVec 16) (s : State) :
    exec (.hbxAbort client cid) s =
  run s fun m d => d.writeTo (0x40011C + 0x40 * client.val) cid.toNat (actHbxAbort client cid.toNat m) := rfl
theorem exec_hbxClientReset (client : Fin 16) (s : State) :
    exec (.hbxClientReset client) s =
  run s fun m d => d.writeTo (0x400124 + 0x40 * client.val) 1 (actHbxReset client m) := rfl
theorem exec_hbxCmdTimeout (tag : Fin 1024) (s : State) :
    exec (.hbxCmdTimeout tag) s =
    runEngine s fun _ d => actHbxTimeout tag d := rfl
theorem exec_ssdAdminTimeout (drive : Fin 4) (s : State) :
    exec (.ssdAdminTimeout drive) s =
    runEngine s fun _ d => actAdminTimeout drive d := rfl
theorem exec_driveReady (drive : Fin 4) (s : State) :
    exec (.driveReady drive) s =
    runEngine s fun _ d => actDriveReady drive d := rfl
theorem exec_completionPost (client : Fin 16) (s : State) :
    exec (.completionPost client) s =
    runEngine s fun _ d => actCompletionPost client d := rfl
theorem exec_compress (ring : Fin 8) (engine : Fin 4) (s : State) :
    exec (.compress ring engine) s =
  runEngine s fun m d => actCompress ring engine m d := rfl
theorem exec_decompress (ring : Fin 8) (engine : Fin 4) (s : State) :
    exec (.decompress ring engine) s =
  runEngine s fun m d => actDecompress ring engine m d := rfl
theorem exec_descriptorComplete (ring : Fin 8) (s : State) :
    exec (.descriptorComplete ring) s =
    runEngine s fun _ d => actDescComplete ring d := rfl
theorem exec_fulRingReset (ring : Fin 8) (s : State) :
    exec (.fulRingReset ring) s =
  run s fun m d => d.access (0x41011C + 0x40 * ring.val) (some 1) fun d =>
    if d.ringReleasing (0x41011C + 0x40 * ring.val) then (d.accessLog (0x41011C + 0x40 * ring.val) true, 0, true)
    else (actFulReset ring m d, 0, false) := rfl
theorem exec_fulRingRelease (ring : Fin 8) (s : State) :
    exec (.fulRingRelease ring) s =
    runEngine s fun _ d => actFulRelease ring d := rfl
theorem exec_lullEnd (unit : LullUnit) (s : State) :
    exec (.lullEnd unit) s =
    run s fun _ d => actLullEnd unit d := rfl
theorem exec_sessionOpen (session : Fin 32) (s : State) :
    exec (.sessionOpen session) s =
  run s fun _ d => d.writeTo (0x421004 + 0x80 * session.val) 1 (actSessionOpen session) := rfl
theorem exec_sessionClose (session : Fin 32) (s : State) :
    exec (.sessionClose session) s =
  run s fun _ d => d.writeTo (0x421004 + 0x80 * session.val) 2 (actSessionClose session) := rfl
theorem exec_sessionFlush (session : Fin 32) (s : State) :
    exec (.sessionFlush session) s =
  run s fun m d => d.writeTo (0x421004 + 0x80 * session.val) 4 (actSessionFlush session m) := rfl
theorem exec_ctuRowDone (dec : Bool) (s : State) :
    exec (.ctuRowDone dec) s =
    run s fun m d => actCtuRow dec m d := rfl
theorem exec_pictureComplete (session : Fin 32) (s : State) :
    exec (.pictureComplete session) s =
    run s fun _ d => actPictureDone session d := rfl
theorem exec_pictureWatchdog (session : Fin 32) (s : State) :
    exec (.pictureWatchdog session) s =
    run s fun m d => actPictureWatchdog session m d := rfl
theorem exec_restartArmWrite (value : Word) (s : State) :
    exec (.restartArmWrite value) s =
  run s fun _ d => d.writeTo 0x420010 value.toNat (actRestartArm value.toNat) := rfl
theorem exec_accessUnitTake (session : Fin 32) (s : State) :
    exec (.accessUnitTake session) s =
    run s fun m d => actAuTake session m d := rfl
theorem exec_audioFrame (dom : Fin 2) (edge : FrameEdge) (bclks : Nat) (lines : List (List Bool)) (s : State) :
    exec (.audioFrame dom edge bclks lines) s =
  run s fun m d => actAudioFrame dom.val edge.dt edge.falling bclks lines m d := rfl
theorem exec_ethLinkChange (port : Fin 2) (fecLock blockLock link : Bool) (s : State) :
    exec (.ethLinkChange port fecLock blockLock link) s =
  run s fun _ d => actEthLink port fecLock blockLock link d := rfl
theorem exec_ethServiceFrame (port : Fin 2) (frame : List Byte) (s : State) :
    exec (.ethServiceFrame port frame) s =
  run s fun _ d => actEthService port frame d := rfl
theorem exec_announceReceive (port : Fin 2) (dt : Nat) (msg : Announce) (s : State) :
    exec (.announceReceive port dt msg) s =
  run s fun _ d => actAnnounce port dt msg d := rfl
theorem exec_syncReceive (port : Fin 2) (dt : Nat) (msg : PtpMsg) (s : State) :
    exec (.syncReceive port dt msg) s =
  run s fun _ d => actSync port dt msg d := rfl
theorem exec_followUpReceive (port : Fin 2) (msg : PtpMsg) (s : State) :
    exec (.followUpReceive port msg) s =
  run s fun _ d => actFollowUp port msg d := rfl
theorem exec_delayReqSend (dt : Nat) (s : State) :
    exec (.delayReqSend dt) s =
    run s fun _ d => actDelayReq dt d := rfl
theorem exec_delayRespReceive (port : Fin 2) (dt : Nat) (msg : PtpMsg) (s : State) :
    exec (.delayRespReceive port dt msg) s =
  run s fun _ d => actDelayResp port dt msg d := rfl
theorem exec_announceTimeout (port : Fin 2) (s : State) :
    exec (.announceTimeout port) s =
  run s fun _ d => actAnnounceTimeout port d := rfl
theorem exec_tsqPop (s : State) :
    exec .tsqPop s =
    run s fun _ d => d.writeTo 0x440044 1 actTsqPop := rfl
theorem exec_cueMessageReceive (src : CueFrom) (bytes : List Byte) (s : State) :
    exec (.cueMessageReceive src bytes) s =
  run s fun _ d => actCueMessage src bytes d := rfl
theorem exec_regWrite (s : State) :
    exec .regWrite s =
    run s fun m d => d.cueOp 0x01 (actRegWrite m) := rfl
theorem exec_regRead (s : State) :
    exec .regRead s =
    run s fun _ d => d.cueOp 0x02 actRegRead := rfl
theorem exec_tblWriteOp (s : State) :
    exec .tblWriteOp s =
    run s fun _ d => d.cueOp 0x03 actTblWriteOp := rfl
theorem exec_memWrite (s : State) :
    exec .memWrite s =
    run s fun _ d => d.cueOp 0x04 actMemWrite := rfl
theorem exec_calInsertOp (s : State) :
    exec .calInsertOp s =
    run s fun _ d => d.cueOp 0x05 actCalInsertOp := rfl
theorem exec_calCancelOp (s : State) :
    exec .calCancelOp s =
    run s fun _ d => d.cueOp 0x06 actCalCancelOp := rfl
theorem exec_commitOp (s : State) :
    exec .commitOp s =
    run s fun _ d => d.cueOp 0x07 actCommitOp := rfl
theorem exec_storeCue (s : State) :
    exec .storeCue s =
    run s fun _ d => d.cueOp 0x08 actStoreCue := rfl
theorem exec_snapshot (s : State) :
    exec .snapshot s =
    run s fun _ d => d.cueOp 0x0B actSnapshot := rfl
theorem exec_status (s : State) :
    exec .status s =
    run s fun _ d => d.cueOp 0x0C actStatus := rfl
theorem exec_subscribe (s : State) :
    exec .subscribe s =
    run s fun _ d => d.cueOp 0x0D actSubscribe := rfl
theorem exec_writeMsg (bytes : List Byte) (s : State) :
    exec (.writeMsg bytes) s =
    run s fun _ d => actCueMessage .spi bytes d := rfl
theorem exec_readStatus (s : State) :
    exec .readStatus s =
    run s fun _ d => actReadStatus d := rfl
theorem exec_readMsg (s : State) :
    exec .readMsg s =
    run s fun _ d => actReadMsg d := rfl
theorem exec_rtpAuSend (stream : Fin 8) (s : State) :
    exec (.rtpAuSend stream) s =
    run s fun m d => actRtpSend stream m d := rfl
theorem exec_rtpLateDrop (stream : Fin 8) (s : State) :
    exec (.rtpLateDrop stream) s =
    run s fun m d => actRtpLate stream m d := rfl
theorem exec_dramWindow (chan : Fin 32) (dt : Nat) (arrivals : List DramArrival) (slots : Fin 257) (s : State) :
    exec (.dramWindow chan dt arrivals slots) s =
    run s fun _ d => actDramWindowOf chan dt arrivals slots d := rfl
theorem exec_requestPromotion (chan : Fin 32) (s : State) :
    exec (.requestPromotion chan) s =
    run s fun _ d => actPromotion chan d := rfl
theorem exec_dramReadComplete (addr : Nat) (ret : DramReturn) (s : State) :
    exec (.dramReadComplete addr ret) s =
  run s fun _ d => actDramRead addr ret.from_ ret.ecc d := rfl
theorem exec_dramRequestTimeout (addr : Nat) (write : Bool) (s : State) :
    exec (.dramRequestTimeout addr write) s =
  run s fun _ d => actDramTimeout addr write d := rfl
theorem exec_mr4Poll (chan : Fin 32) (dt : Nat) (rate : Fin 3) (s : State) :
    exec (.mr4Poll chan dt rate) s =
  run s fun _ d => actMr4 chan dt rate d := rfl
theorem exec_dramScrub (quadrant : Fin 4) (dt : Nat) (ecc : Ecc) (s : State) :
    exec (.dramScrub quadrant dt ecc) s =
  run s fun _ d => actDramScrub quadrant dt ecc d := rfl
theorem exec_thmReading (sites : List (Bool × Int)) (s : State) :
    exec (.thmReading sites) s =
  run s fun _ d => actThmReading sites d := rfl
theorem exec_logEntryArise (source inst : Byte) (cls : Fin 8) (event : BitVec 13) (detail : Word) (episode : Fin 4) (s : State) :
    exec (.logEntryArise source inst cls event detail episode) s =
  run s fun _ d => d.log source.toNat inst.toNat cls event.toNat detail.toNat episode := rfl
theorem exec_logCommit (s : State) :
    exec .logCommit s =
    run s fun _ d => actLogCommit d := rfl
theorem exec_logDramCopy (s : State) :
    exec .logDramCopy s =
    run s fun _ d => actLogCopy d := rfl
theorem exec_errSelWrite (value : Word) (s : State) :
    exec (.errSelWrite value) s =
  run s fun _ d => d.writeTo 0x40020 value.toNat fun d => actErrSel d value.toNat := rfl
theorem exec_calmNFall (highNs : Nat) (s : State) :
    exec (.calmNFall highNs) s =
    run s fun _ d => actCalmFall highNs d := rfl
theorem exec_snapTriggerWrite (s : State) :
    exec .snapTriggerWrite s =
  run s fun _ d => d.writeTo 0x50000 (d.same 0x50000 + 256) fun d => d.calm 2 := rfl
theorem exec_calmOutPulseEnd (s : State) :
    exec .calmOutPulseEnd s =
    run s fun _ d => actCalmOutEnd d := rfl
theorem exec_snapshotDump (s : State) :
    exec .snapshotDump s =
    run s fun _ d => actDump d := rfl
theorem exec_bselWrite (baddr : Bool) (value : Word) (s : State) :
    exec (.bselWrite baddr value) s =
  run s fun _ d => d.writeTo (if baddr then 0x50044 else 0x50040) value.toNat (actBsel baddr value.toNat) := rfl
theorem exec_headerChecked (sfdp : Option Bool) (header : List Byte) (s : State) :
    exec (.headerChecked sfdp header) s =
  run s fun _ d => actHeader sfdp header d := rfl
theorem exec_driveActivationTimeout (s : State) :
    exec .driveActivationTimeout s =
    runEngine s fun _ d => actActivationTimeout d := rfl
theorem exec_format (s : State) :
    exec .format s =
    runEngine s fun _ d => actFormat d := rfl
theorem exec_pcieLinkChange (drive : Fin 4) (width : Fin 5) (s : State) :
    exec (.pcieLinkChange drive width) s =
  run s fun _ d => actPcieLink drive width d := rfl
theorem exec_supplyMonitorRelease (role bank tmode : Bool) (s : State) :
    exec (.supplyMonitorRelease role bank tmode) s =
  runAny s fun _ d => actSupplyRelease role bank tmode d := rfl
theorem exec_testPortInstruction (instr : TestInstr) (s : State) :
    exec (.testPortInstruction instr) s =
  run s fun m d =>
    let d := actTestPort instr d
    match instr with
    | .regacc a w =>
      if !d.boot.tmode then d else
      (match w with
       | some v => d.access a (some v) fun d =>
          let r := d.busWrite m a v
          (r.1, 0, r.2)
       | none => d.access a none (Dev.busRead a))
    | _ => d := rfl

end Sys2Proof.Machine
end

