-- ==== Sys2Proof/Laws/Keeps.lean ====
section
/-!
SUPPORT. What operations leave alone, by whole blocks: `Keeps ws d e` says that e is in OFF as d is, has made the DRAM writes
that d has made, and reads as d in every register outside the windows ws. One lemma per way in which an operation changes
the device, so that a goal about a long operation is taken apart by applying them.
-/

namespace Sys2Proof.Machine

/-- What e has of d: OFF, the DRAM writes made, and every register outside the windows ws. -/
structure Dev.Keeps (ws : List Nat) (d e : Dev) : Prop where
  off : e.off = d.off
  wq  : e.wq = d.wq
  rd  : ∀ f : Fld, f.key / 524288 ∉ ws → e.rd f = d.rd f

namespace Dev.Keeps

variable {ws : List Nat} {d e e' : Dev}

theorem refl : Keeps ws d d := ⟨rfl, rfl, fun _ _ => rfl⟩

theorem trans {c : Dev} (h : Keeps ws c d) (h' : Keeps ws d e) : Keeps ws c e :=
  ⟨h'.off.trans h.off, h'.wq.trans h.wq, fun f w => (h'.rd f w).trans (h.rd f w)⟩

theorem wider {ws' : List Nat} (h : Keeps ws d e) (s : ∀ w ∈ ws, w ∈ ws') : Keeps ws' d e :=
  ⟨h.off, h.wq, fun f w => h.rd f fun c => w (s _ c)⟩

theorem wr {f : Fld} {v : Nat} (w : f.key / 524288 ∈ ws) (h : Keeps ws d e) : Keeps ws d (e.wr f v) :=
  ⟨h.off, h.wq, fun g n => (rd_wr_ne e f g v (fun c => n (by rw [c]; exact w))).trans (h.rd g n)⟩

theorem wrb {f : Fld} {v : Bool} (w : f.key / 524288 ∈ ws) (h : Keeps ws d e) : Keeps ws d (e.wrb f v) := h.wr w
theorem addCnt {f : Fld} {k : Nat} (w : f.key / 524288 ∈ ws) (h : Keeps ws d e) : Keeps ws d (e.addCnt f k) := h.wr w
theorem cnt {f : Fld} (w : f.key / 524288 ∈ ws) (h : Keeps ws d e) : Keeps ws d (e.cnt f) := h.wr w
theorem cntWrap {f : Fld} (w : f.key / 524288 ∈ ws) (h : Keeps ws d e) : Keeps ws d (e.cntWrap f) := h.wr w
theorem wrPair {f g : Fld} {v : Nat} (w : f.key / 524288 ∈ ws) (w' : g.key / 524288 ∈ ws) (h : Keeps ws d e) :
    Keeps ws d (e.wrPair f g v) := (h.wr w).wr w'

theorem emit {o : Out} (h : Keeps ws d e) : Keeps ws d (e.emit o) := ⟨h.off, h.wq, h.rd⟩
theorem drawn (h : Keeps ws d e) : Keeps ws d e.drawn := ⟨h.off, h.wq, h.rd⟩
theorem upTo {t : Time} (h : Keeps ws d e) : Keeps ws d (e.upTo t) := ⟨h.off, h.wq, h.rd⟩
theorem pass {t : Span} (h : Keeps ws d e) : Keeps ws d (e.pass t) := ⟨h.off, h.wq, h.rd⟩

theorem logEntry {x : LogEntry} (w : R.ERR_DROPPED.key / 524288 ∈ ws) (h : Keeps ws d e) : Keeps ws d (e.logEntry x) :=
  ⟨(logEntry_off _ _).trans h.off, (logEntry_wq _ _).trans h.wq,
    fun g n => (rd_logEntry e x g (fun c => n (by rw [c]; exact w))).trans (h.rd g n)⟩

theorem log {s i c k x p : Nat} (w : R.ERR_DROPPED.key / 524288 ∈ ws) (h : Keeps ws d e) : Keeps ws d (e.log s i c k x p) :=
  h.logEntry w

theorem ite {p : Prop} [Decidable p] {a b : Dev} (h : Keeps ws d a) (h' : Keeps ws d b) : Keeps ws d (if p then a else b) := by
  by_cases c : p
  · rwa [if_pos c]
  · rwa [if_neg c]

theorem setState {st : DevState} (w : R.ERR_DROPPED.key / 524288 ∈ ws) (w' : R.TOP_STATE.key / 524288 ∈ ws) (h : Keeps ws d e) :
    Keeps ws d (e.setState st) := ite h (log w (cntWrap w' (wr w' h)))

theorem setSplit {v : Bool} (w : R.TOP_STATE.key / 524288 ∈ ws) (h : Keeps ws d e) : Keeps ws d (e.setSplit v) := h.wrb w

theorem flag {i c : Nat} {f : Fld} {l v : Bool} (w : R.ERR_DROPPED.key / 524288 ∈ ws) (w' : f.key / 524288 ∈ ws)
    (h : Keeps ws d e) : Keeps ws d (e.flag i f c l v) :=
  ite h (ite (log w (h.wrb w')) (ite (log w (h.wrb w')) (h.wrb w')))

theorem flagBit {i j c : Nat} {f : Fld} {l v : Bool} (w : R.ERR_DROPPED.key / 524288 ∈ ws) (w' : f.key / 524288 ∈ ws)
    (h : Keeps ws d e) : Keeps ws d (e.flagBit i f j c l v) :=
  ite h (ite (log w (h.wr w')) (ite (log w (h.wr w')) (h.wr w')))

theorem foldl {α : Type} {f : Dev → α → Dev} (k : ∀ x a, Keeps ws x (f x a)) : ∀ (l : List α) {e : Dev}, Keeps ws d e →
    Keeps ws d (l.foldl f e)
  | [], _, h => h
  | a :: r, _, h => foldl k r (h.trans (k _ a))

theorem foldl_mem {α : Type} {f : Dev → α → Dev} : ∀ (l : List α) {e : Dev}, (∀ x, ∀ a ∈ l, Keeps ws x (f x a)) → Keeps ws d e →
    Keeps ws d (l.foldl f e)
  | [], _, _, h => h
  | a :: r, _, k, h => foldl_mem r (fun x b m => k x b (List.mem_cons_of_mem _ m)) (h.trans (k _ a List.mem_cons_self))

/-! A change of one part. -/

theorem set_comm {x : SMap} (h : Keeps ws d e) : Keeps ws d { e with comm := x } := ⟨h.off, h.wq, h.rd⟩
theorem set_live {x : SMap} (h : Keeps ws d e) : Keeps ws d { e with live := x } := ⟨h.off, h.wq, h.rd⟩
theorem set_now {x : Time} (h : Keeps ws d e) : Keeps ws d { e with now := x } := ⟨h.off, h.wq, h.rd⟩
theorem set_stcOff {x : Int} (h : Keeps ws d e) : Keeps ws d { e with stcOff := x } := ⟨h.off, h.wq, h.rd⟩
theorem set_out {x : List Out} (h : Keeps ws d e) : Keeps ws d { e with out := x } := ⟨h.off, h.wq, h.rd⟩
theorem set_free {x : Nat} (h : Keeps ws d e) : Keeps ws d { e with free := x } := ⟨h.off, h.wq, h.rd⟩
theorem set_elog {x : LogPart} (h : Keeps ws d e) : Keeps ws d { e with elog := x } := ⟨h.off, h.wq, h.rd⟩
theorem set_snap {x : SnapPart} (h : Keeps ws d e) : Keeps ws d { e with snap := x } := ⟨h.off, h.wq, h.rd⟩
theorem set_wtm {x : WtmPart} (h : Keeps ws d e) : Keeps ws d { e with wtm := x } := ⟨h.off, h.wq, h.rd⟩
theorem set_cal {x : CalPart} (h : Keeps ws d e) : Keeps ws d { e with cal := x } := ⟨h.off, h.wq, h.rd⟩
theorem set_com {x : CommitPart} (h : Keeps ws d e) : Keeps ws d { e with com := x } := ⟨h.off, h.wq, h.rd⟩
theorem set_tbl {x : TblPart} (h : Keeps ws d e) : Keeps ws d { e with tbl := x } := ⟨h.off, h.wq, h.rd⟩
theorem set_boot {x : BootPart} (h : Keeps ws d e) : Keeps ws d { e with boot := x } := ⟨h.off, h.wq, h.rd⟩
theorem set_clk {x : ClkPart} (h : Keeps ws d e) : Keeps ws d { e with clk := x } := ⟨h.off, h.wq, h.rd⟩
theorem set_sram {x : List Nat} (h : Keeps ws d e) : Keeps ws d { e with sram := x } := ⟨h.off, h.wq, h.rd⟩
theorem set_pins {x : Pins} (h : Keeps ws d e) : Keeps ws d { e with pins := x } := ⟨h.off, h.wq, h.rd⟩
theorem set_tiles {x : List TileLink} (h : Keeps ws d e) : Keeps ws d { e with tiles := x } := ⟨h.off, h.wq, h.rd⟩
theorem set_cams {x : Vector CamPart 8} (h : Keeps ws d e) : Keeps ws d { e with cams := x } := ⟨h.off, h.wq, h.rd⟩
theorem set_defects {x : Vector DefectBanks 8} (h : Keeps ws d e) : Keeps ws d { e with defects := x } := ⟨h.off, h.wq, h.rd⟩
theorem set_poison {x : List Nat} (h : Keeps ws d e) : Keeps ws d { e with poison := x } := ⟨h.off, h.wq, h.rd⟩
theorem set_clr {x : ClrPart} (h : Keeps ws d e) : Keeps ws d { e with clr := x } := ⟨h.off, h.wq, h.rd⟩
theorem set_cmp {x : CmpPart} (h : Keeps ws d e) : Keeps ws d { e with cmp := x } := ⟨h.off, h.wq, h.rd⟩
theorem set_scn {x : ScnPart} (h : Keeps ws d e) : Keeps ws d { e with scn := x } := ⟨h.off, h.wq, h.rd⟩
theorem set_link {x : LinkPart} (h : Keeps ws d e) : Keeps ws d { e with link := x } := ⟨h.off, h.wq, h.rd⟩
theorem set_calib {x : CalibPart} (h : Keeps ws d e) : Keeps ws d { e with calib := x } := ⟨h.off, h.wq, h.rd⟩
theorem set_plane {x : PairLanes} (h : Keeps ws d e) : Keeps ws d { e with plane := x } := ⟨h.off, h.wq, h.rd⟩
theorem set_late {x : List Nat} (h : Keeps ws d e) : Keeps ws d { e with late := x } := ⟨h.off, h.wq, h.rd⟩
theorem set_hbx {x : HbxPart} (h : Keeps ws d e) : Keeps ws d { e with hbx := x } := ⟨h.off, h.wq, h.rd⟩
theorem set_ful {x : Vector FRing 8} (h : Keeps ws d e) : Keeps ws d { e with ful := x } := ⟨h.off, h.wq, h.rd⟩
theorem set_thm {x : ThmPart} (h : Keeps ws d e) : Keeps ws d { e with thm := x } := ⟨h.off, h.wq, h.rd⟩
theorem set_hvc {x : HvcPart} (h : Keeps ws d e) : Keeps ws d { e with hvc := x } := ⟨h.off, h.wq, h.rd⟩
theorem set_aud {x : AudPart} (h : Keeps ws d e) : Keeps ws d { e with aud := x } := ⟨h.off, h.wq, h.rd⟩
theorem set_ptp {x : PtpPart} (h : Keeps ws d e) : Keeps ws d { e with ptp := x } := ⟨h.off, h.wq, h.rd⟩
theorem set_cue {x : CuePart} (h : Keeps ws d e) : Keeps ws d { e with cue := x } := ⟨h.off, h.wq, h.rd⟩
theorem set_dram {x : DramPart} (h : Keeps ws d e) : Keeps ws d { e with dram := x } := ⟨h.off, h.wq, h.rd⟩
theorem set_pair {x : PairPart} (h : Keeps ws d e) : Keeps ws d { e with pair := x } := ⟨h.off, h.wq, h.rd⟩

end Dev.Keeps

end Sys2Proof.Machine
end

