-- ==== Sys2Proof/Laws/Parts.lean ====
section
/-!
SUPPORT. The parts of the device that are kept by number (lanes, octets, ports, layers, sessions, rings, drives, audio ports, DRAM
channels): a read after a write of the same number and of another, and the registers left alone.
-/

namespace Sys2Proof.Machine

theorem getD_setV {α : Type} {n i : Nat} (l : Vector α n) (x y : α) (h : i < n) : (setV l i x).getD i y = x := by
  simp [setV, Vector.getD, h]

theorem getD_setV_ne {α : Type} {n i j : Nat} (l : Vector α n) (x y : α) (h : i ≠ j) : (setV l i x).getD j y = l.getD j y := by
  simp [setV, Vector.getD, h]

namespace Dev

theorem lane_putLane (d : Dev) {k : Nat} (l : Lane) (h : k < 64) : (d.putLane k l).lane k = l := getD_setV _ _ _ h
theorem lane_putLane_ne (d : Dev) {k i' : Nat} (l : Lane) (h : k ≠ i') : (d.putLane k l).lane i' = d.lane i' := getD_setV_ne _ _ _ h
@[simp] theorem rd_putLane (d : Dev) (k : Nat) (l : Lane) (f : Fld) : (d.putLane k l).rd f = d.rd f := rfl

theorem octet_putOctet (d : Dev) {j : Nat} (o : Octet) (h : j < 8) : (d.putOctet j o).octet j = o := getD_setV _ _ _ h
theorem octet_putOctet_ne (d : Dev) {j i' : Nat} (o : Octet) (h : j ≠ i') : (d.putOctet j o).octet i' = d.octet i' := getD_setV_ne _ _ _ h
@[simp] theorem rd_putOctet (d : Dev) (j : Nat) (o : Octet) (f : Fld) : (d.putOctet j o).rd f = d.rd f := rfl

theorem cam_putCam (d : Dev) {n : Nat} (c : CamPart) (h : n < 8) : (d.putCam n c).cam n = c := getD_setV _ _ _ h
theorem cam_putCam_ne (d : Dev) {n i' : Nat} (c : CamPart) (h : n ≠ i') : (d.putCam n c).cam i' = d.cam i' := getD_setV_ne _ _ _ h
@[simp] theorem rd_putCam (d : Dev) (n : Nat) (c : CamPart) (f : Fld) : (d.putCam n c).rd f = d.rd f := rfl

theorem layer_putLayer (d : Dev) {i : Nat} (l : LayerPart) (h : i < 16) : (d.putLayer i l).layer i = l := getD_setV _ _ _ h
theorem layer_putLayer_ne (d : Dev) {i i' : Nat} (l : LayerPart) (h : i ≠ i') : (d.putLayer i l).layer i' = d.layer i' := getD_setV_ne _ _ _ h
@[simp] theorem rd_putLayer (d : Dev) (i : Nat) (l : LayerPart) (f : Fld) : (d.putLayer i l).rd f = d.rd f := rfl

theorem hs_putHs (d : Dev) {s : Nat} (x : HSession) (h : s < 32) : (d.putHs s x).hs s = x := getD_setV _ _ _ h
theorem hs_putHs_ne (d : Dev) {s i' : Nat} (x : HSession) (h : s ≠ i') : (d.putHs s x).hs i' = d.hs i' := getD_setV_ne _ _ _ h
@[simp] theorem rd_putHs (d : Dev) (s : Nat) (x : HSession) (f : Fld) : (d.putHs s x).rd f = d.rd f := rfl

theorem fring_putRing (d : Dev) {r : Nat} (x : FRing) (h : r < 8) : (d.putRing r x).fring r = x := getD_setV _ _ _ h
theorem fring_putRing_ne (d : Dev) {r i' : Nat} (x : FRing) (h : r ≠ i') : (d.putRing r x).fring i' = d.fring i' := getD_setV_ne _ _ _ h
@[simp] theorem rd_putRing (d : Dev) (r : Nat) (x : FRing) (f : Fld) : (d.putRing r x).rd f = d.rd f := rfl

theorem hdrive_putDrive (d : Dev) {k : Nat} (x : HDrive) (h : k < 4) : (d.putDrive k x).hdrive k = x := getD_setV _ _ _ h
theorem hdrive_putDrive_ne (d : Dev) {k i' : Nat} (x : HDrive) (h : k ≠ i') : (d.putDrive k x).hdrive i' = d.hdrive i' := getD_setV_ne _ _ _ h
@[simp] theorem rd_putDrive (d : Dev) (k : Nat) (x : HDrive) (f : Fld) : (d.putDrive k x).rd f = d.rd f := rfl

theorem audDom_putAudDom (d : Dev) {k : Nat} (x : AudDom) (h : k < 2) : (d.putAudDom k x).audDom k = x := getD_setV _ _ _ h
theorem audDom_putAudDom_ne (d : Dev) {k i' : Nat} (x : AudDom) (h : k ≠ i') : (d.putAudDom k x).audDom i' = d.audDom i' := getD_setV_ne _ _ _ h
@[simp] theorem rd_putAudDom (d : Dev) (k : Nat) (x : AudDom) (f : Fld) : (d.putAudDom k x).rd f = d.rd f := rfl

theorem audIn_putAudIn (d : Dev) {p : Nat} (x : AudIn) (h : p < 4) : (d.putAudIn p x).audIn p = x := getD_setV _ _ _ h
theorem audIn_putAudIn_ne (d : Dev) {p i' : Nat} (x : AudIn) (h : p ≠ i') : (d.putAudIn p x).audIn i' = d.audIn i' := getD_setV_ne _ _ _ h
@[simp] theorem rd_putAudIn (d : Dev) (p : Nat) (x : AudIn) (f : Fld) : (d.putAudIn p x).rd f = d.rd f := rfl

theorem audSlot_putAudSlot (d : Dev) {i : Nat} (x : AudSlot) (h : i < 128) : (d.putAudSlot i x).audSlot i = x := getD_setV _ _ _ h
theorem audSlot_putAudSlot_ne (d : Dev) {i i' : Nat} (x : AudSlot) (h : i ≠ i') : (d.putAudSlot i x).audSlot i' = d.audSlot i' := getD_setV_ne _ _ _ h
@[simp] theorem rd_putAudSlot (d : Dev) (i : Nat) (x : AudSlot) (f : Fld) : (d.putAudSlot i x).rd f = d.rd f := rfl

theorem plane1_putPlane (d : Dev) {p : Nat} (l : PairLane) (h : p < 4) : (d.putPlane p l).plane1 p = l := getD_setV _ _ _ h
theorem plane1_putPlane_ne (d : Dev) {p i' : Nat} (l : PairLane) (h : p ≠ i') : (d.putPlane p l).plane1 i' = d.plane1 i' := getD_setV_ne _ _ _ h
@[simp] theorem rd_putPlane (d : Dev) (p : Nat) (l : PairLane) (f : Fld) : (d.putPlane p l).rd f = d.rd f := rfl

theorem dramChan_putDramChan (d : Dev) {c : Nat} (x : DramChan) (h : c < 32) : (d.putDramChan c x).dramChan c = x := getD_setV _ _ _ h
theorem dramChan_putDramChan_ne (d : Dev) {c i' : Nat} (x : DramChan) (h : c ≠ i') : (d.putDramChan c x).dramChan i' = d.dramChan i' := getD_setV_ne _ _ _ h
@[simp] theorem rd_putDramChan (d : Dev) (c : Nat) (x : DramChan) (f : Fld) : (d.putDramChan c x).rd f = d.rd f := rfl

theorem tileLink_id (d : Dev) (i : Nat) : (d.tileLink i).id = i := by
  unfold tileLink
  cases h : d.tiles.find? fun t => decide (t.id = i) with
  | none => rfl
  | some t => simpa using List.find?_some h

theorem tileLink_putTile (d : Dev) (t : TileLink) : (d.putTile t).tileLink t.id = t := by
  simp [tileLink, putTile]

theorem find_filter_ne {i j : Nat} (h : j ≠ i) : ∀ l : List TileLink,
    (l.filter fun u => u.id != i).find? (fun u => decide (u.id = j)) = l.find? fun u => decide (u.id = j)
  | [] => rfl
  | u :: r => by
    by_cases a : u.id = i
    · have b : u.id ≠ j := fun c => h (c.symm.trans a)
      simp [a, find_filter_ne h r, List.find?_cons]
      have : (i = j) = False := by simp [Ne.symm h]
      simp [this]
    · by_cases b : u.id = j
      · simp [b, h]
      · simp [a, b, find_filter_ne h r]

theorem tileLink_putTile_ne (d : Dev) (t : TileLink) {j : Nat} (h : j ≠ t.id) : (d.putTile t).tileLink j = d.tileLink j := by
  have e : (t.id = j) = False := by simp [Ne.symm h]
  simp only [tileLink, putTile, List.find?_cons, e, decide_false, find_filter_ne h]

end Dev
end Sys2Proof.Machine
end

