-- ==== Sys2Proof/Laws/Step.lean ====
section
/-!
SUPPORT. What a command can do, once for all of them: it settles the device that its effect leaves, or it has no
effect in OFF or in YIELDED, or it is a camera frame whose size the spec does not define.
-/

namespace Sys2Proof.Machine

/-- What the outcome of a command on s can be. -/
def Shaped (s : State) (o : Host.Outcome State Fault Refusal) : Prop :=
  (∃ d, o = .next (settle s d)) ∨ (o = .next s ∧ (s.dev.off = true ∨ s.dev.state = .yielded))

theorem run_shaped (s : State) (f : List Host.Cell → Dev → Dev) : Shaped s (run s f) := by
  unfold run
  cases h : s.dev.off
  · exact .inl ⟨_, rfl⟩
  · exact .inr ⟨rfl, .inl h⟩

theorem runEngine_shaped (s : State) (f : List Host.Cell → Dev → Dev) : Shaped s (runEngine s f) := by
  unfold runEngine
  by_cases h : s.dev.state = .yielded
  · rw [if_pos h]; exact .inr ⟨rfl, .inr h⟩
  · rw [if_neg h]; exact run_shaped s f

theorem runAny_shaped (s : State) (f : List Host.Cell → Dev → Dev) : Shaped s (runAny s f) := .inl ⟨_, rfl⟩

/-- A camera frame whose next size lies outside the ranges that the spec defines. -/
def BadFrame (c : Instr) (s : State) : Prop :=
  ∃ (n : Fin 8) (dt : CamTick), c = .camFrameStart n dt ∧ s.dev.nextSizeOk n = false

theorem camFrameStart_shaped (n : Fin 8) (dt : CamTick) (s : State) : Shaped s (execCamFrameStart n dt s) ∨
    (execCamFrameStart n dt s = .fault .geometryUndefined ∧ s.dev.off = false ∧ BadFrame (.camFrameStart n dt) s) := by
  unfold execCamFrameStart
  cases h : s.dev.off
  · by_cases h2 : s.dev.nextSizeOk n = true
    · rw [if_pos (by rw [h2, Bool.or_true])]
      exact .inl (run_shaped s _)
    · rw [Bool.not_eq_true] at h2
      rw [if_neg (by rw [h2]; decide)]
      exact .inr ⟨rfl, rfl, n, dt, rfl, h2⟩
  · rw [if_pos (by rw [Bool.true_or])]
    exact .inl (run_shaped s _)

/-- Every command settles a device, does nothing in OFF or, of an engine, in YIELDED, or is a camera frame of undefined size. -/
theorem exec_shaped (c : Instr) (s : State) : Shaped s (exec c s) ∨
    (exec c s = .fault .geometryUndefined ∧ s.dev.off = false ∧ BadFrame c s) :=
  match c with
  | .porstNAssert => .inl (show Shaped s (execPorstNAssert s) from runAny_shaped s _)
  | .porstNRelease role bank tmode => .inl (show Shaped s (execPorstNRelease role bank tmode s) from runAny_shaped s _)
  | .supplyMonitorReset => .inl (show Shaped s (execSupplyMonitorReset s) from runAny_shaped s _)
  | .pfailNFall => .inl (show Shaped s (execPfailNFall s) from run_shaped s _)
  | .pfailNRise => .inl (show Shaped s (execPfailNRise s) from run_shaped s _)
  | .pllLockTimeout => .inl (show Shaped s (execPllLockTimeout s) from run_shaped s _)
  | .pllLock => .inl (show Shaped s (execPllLock s) from run_shaped s _)
  | .dramTrainingDone failed => .inl (show Shaped s (execDramTrainingDone failed s) from run_shaped s _)
  | .imageReadDone body => .inl (show Shaped s (execImageReadDone body s) from run_shaped s _)
  | .wdogKick => .inl (show Shaped s (execWdogKick s) from run_shaped s _)
  | .watchdogExpiry => .inl (show Shaped s (execWatchdogExpiry s) from run_shaped s _)
  | .yieldTest => .inl (show Shaped s (execYieldTest s) from run_shaped s _)
  | .yieldHoldExpiry => .inl (show Shaped s (execYieldHoldExpiry s) from run_shaped s _)
  | .readBoot => .inl (show Shaped s (execReadBoot s) from run_shaped s _)
  | .clockStopped family inst => .inl (show Shaped s (execClockStopped family inst s) from run_shaped s _)
  | .clockRunning family inst => .inl (show Shaped s (execClockRunning family inst s) from run_shaped s _)
  | .bridgeTimeout => .inl (show Shaped s (execBridgeTimeout s) from run_shaped s _)
  | .registerWrite addr value size => .inl (show Shaped s (execRegisterWrite addr value size s) from run_shaped s _)
  | .rcRead read => .inl (show Shaped s (execRcRead read s) from run_shaped s _)
  | .wlnLoRead => .inl (show Shaped s (execWlnLoRead s) from run_shaped s _)
  | .wrIndexLoRead p => .inl (show Shaped s (execWrIndexLoRead p s) from run_shaped s _)
  | .arrivalLoRead => .inl (show Shaped s (execArrivalLoRead s) from run_shaped s _)
  | .wallLineBoundary => .inl (show Shaped s (execWallLineBoundary s) from run_shaped s _)
  | .referenceValid ref => .inl (show Shaped s (execReferenceValid ref s) from run_shaped s _)
  | .referenceLost ref => .inl (show Shaped s (execReferenceLost ref s) from run_shaped s _)
  | .frameRefEdge rising dt => .inl (show Shaped s (execFrameRefEdge rising dt s) from run_shaped s _)
  | .frameRefMissing => .inl (show Shaped s (execFrameRefMissing s) from run_shaped s _)
  | .sourceWrite value => .inl (show Shaped s (execSourceWrite value s) from run_shaped s _)
  | .epochWrite hi value => .inl (show Shaped s (execEpochWrite hi value s) from run_shaped s _)
  | .sampleGo => .inl (show Shaped s (execSampleGo s) from run_shaped s _)
  | .timeAcceptSlew => .inl (show Shaped s (execTimeAcceptSlew s) from run_shaped s _)
  | .timeAcceptStep => .inl (show Shaped s (execTimeAcceptStep s) from run_shaped s _)
  | .calInsert => .inl (show Shaped s (execCalInsert s) from run_shaped s _)
  | .calCancel => .inl (show Shaped s (execCalCancel s) from run_shaped s _)
  | .storedCueRun => .inl (show Shaped s (execStoredCueRun s) from run_shaped s _)
  | .markRun => .inl (show Shaped s (execMarkRun s) from run_shaped s _)
  | .commitArmWrite value => .inl (show Shaped s (execCommitArmWrite value s) from run_shaped s _)
  | .tblRead => .inl (show Shaped s (execTblRead s) from run_shaped s _)
  | .tblWrite => .inl (show Shaped s (execTblWrite s) from run_shaped s _)
  | .tblSelWrite value => .inl (show Shaped s (execTblSelWrite value s) from run_shaped s _)
  | .tblLoadGo => .inl (show Shaped s (execTblLoadGo s) from run_shaped s _)
  | .tblLoadDone bad => .inl (show Shaped s (execTblLoadDone bad s) from run_shaped s _)
  | .pageMoveOnchip => .inl (show Shaped s (execPageMoveOnchip s) from run_shaped s _)
  | .sramScrub region word ecc => .inl (show Shaped s (execSramScrub region word ecc s) from run_shaped s _)
  | .camFrameStart n dt => camFrameStart_shaped n dt s
  | .camFrameEnd n dt => .inl (show Shaped s (execCamFrameEnd n dt s) from run_shaped s _)
  | .camLine n dt transfers ovf => .inl (show Shaped s (execCamLine n dt transfers ovf s) from run_shaped s _)
  | .camCheckWord n check => .inl (show Shaped s (execCamCheckWord n check s) from run_shaped s _)
  | .camGlitch n => .inl (show Shaped s (execCamGlitch n s) from run_shaped s _)
  | .missedSlot n => .inl (show Shaped s (execMissedSlot n s) from run_shaped s _)
  | .frameTimeout n => .inl (show Shaped s (execFrameTimeout n s) from run_shaped s _)
  | .substituteFrame n => .inl (show Shaped s (execSubstituteFrame n s) from run_shaped s _)
  | .camCalGo n => .inl (show Shaped s (execCamCalGo n s) from run_shaped s _)
  | .camCalStart n => .inl (show Shaped s (execCamCalStart n s) from run_shaped s _)
  | .defDataAccess n write => .inl (show Shaped s (execDefDataAccess n write s) from run_shaped s _)
  | .histArmWrite n => .inl (show Shaped s (execHistArmWrite n s) from run_shaped s _)
  | .statsWriteDone n => .inl (show Shaped s (execStatsWriteDone n s) from run_shaped s _)
  | .lutDataAccess write => .inl (show Shaped s (execLutDataAccess write s) from run_shaped s _)
  | .ambientReading readings => .inl (show Shaped s (execAmbientReading readings s) from run_shaped s _)
  | .windowRowEntry n dt => .inl (show Shaped s (execWindowRowEntry n dt s) from run_shaped s _)
  | .frameStoreWrite j => .inl (show Shaped s (execFrameStoreWrite j s) from run_shaped s _)
  | .coefDataAccess write => .inl (show Shaped s (execCoefDataAccess write s) from run_shaped s _)
  | .battDue lane => .inl (show Shaped s (execBattDue lane s) from run_shaped s _)
  | .scanoutPixel x y => .inl (show Shaped s (execScanoutPixel x y s) from run_shaped s _)
  | .fifoWrite use => .inl (show Shaped s (execFifoWrite use s) from run_shaped s _)
  | .packetTransmit use => .inl (show Shaped s (execPacketTransmit use s) from run_shaped s _)
  | .alignmentMarker octet => .inl (show Shaped s (execAlignmentMarker octet s) from run_shaped s _)
  | .akReceive lane blocks => .inl (show Shaped s (execAkReceive lane blocks s) from run_shaped s _)
  | .nkReceive lane blocks => .inl (show Shaped s (execNkReceive lane blocks s) from run_shaped s _)
  | .tlReceive lane blocks => .inl (show Shaped s (execTlReceive lane blocks s) from run_shaped s _)
  | .returnPacketBad rx => .inl (show Shaped s (execReturnPacketBad rx s) from run_shaped s _)
  | .blockLockAcquired rx => .inl (show Shaped s (execBlockLockAcquired rx s) from run_shaped s _)
  | .blockLockLost lane blocks => .inl (show Shaped s (execBlockLockLost lane blocks s) from run_shaped s _)
  | .ackTimeout lane => .inl (show Shaped s (execAckTimeout lane s) from run_shaped s _)
  | .packetDeadline lane => .inl (show Shaped s (execPacketDeadline lane s) from run_shaped s _)
  | .tileStale tile => .inl (show Shaped s (execTileStale tile s) from run_shaped s _)
  | .vrRepeat lane => .inl (show Shaped s (execVrRepeat lane s) from run_shaped s _)
  | .ctWrite tile => .inl (show Shaped s (execCtWrite tile s) from run_shaped s _)
  | .ctRead tile => .inl (show Shaped s (execCtRead tile s) from run_shaped s _)
  | .ctSetPosition tile => .inl (show Shaped s (execCtSetPosition tile s) from run_shaped s _)
  | .enumWindowEnd lane => .inl (show Shaped s (execEnumWindowEnd lane s) from run_shaped s _)
  | .modeReqWrite octet mode => .inl (show Shaped s (execModeReqWrite octet mode s) from run_shaped s _)
  | .octetIdleDrained octet => .inl (show Shaped s (execOctetIdleDrained octet s) from run_shaped s _)
  | .octetFckStart octet => .inl (show Shaped s (execOctetFckStart octet s) from run_shaped s _)
  | .octetTrainingEnd octet => .inl (show Shaped s (execOctetTrainingEnd octet s) from run_shaped s _)
  | .laneTestWrite lane value => .inl (show Shaped s (execLaneTestWrite lane value s) from run_shaped s _)
  | .lctrlGo lane => .inl (show Shaped s (execLctrlGo lane s) from run_shaped s _)
  | .calReqRx => .inl (show Shaped s (execCalReqRx s) from run_shaped s _)
  | .calReqCam => .inl (show Shaped s (execCalReqCam s) from run_shaped s _)
  | .calReqDram => .inl (show Shaped s (execCalReqDram s) from run_shaped s _)
  | .rxCalStart lane => .inl (show Shaped s (execRxCalStart lane s) from run_shaped s _)
  | .rxCalPhaseDone lane dt phase thr errs => .inl (show Shaped s (execRxCalPhaseDone lane dt phase thr errs s) from run_shaped s _)
  | .dramCalWindow chan => .inl (show Shaped s (execDramCalWindow chan s) from run_shaped s _)
  | .calRunDone kind n clean errs kept => .inl (show Shaped s (execCalRunDone kind n clean errs kept s) from run_shaped s _)
  | .calRunTimeout kind n => .inl (show Shaped s (execCalRunTimeout kind n s) from run_shaped s _)
  | .calRetry kind n => .inl (show Shaped s (execCalRetry kind n s) from run_shaped s _)
  | .alignmentColumnSend => .inl (show Shaped s (execAlignmentColumnSend s) from run_shaped s _)
  | .pairLaneAligned lane syms pace => .inl (show Shaped s (execPairLaneAligned lane syms pace s) from run_shaped s _)
  | .pairAlignmentLost lane syms pace => .inl (show Shaped s (execPairAlignmentLost lane syms pace s) from run_shaped s _)
  | .beatReceive pathB bytes => .inl (show Shaped s (execBeatReceive pathB bytes s) from run_shaped s _)
  | .pairWaitExpiry => .inl (show Shaped s (execPairWaitExpiry s) from run_shaped s _)
  | .pathFault pathB => .inl (show Shaped s (execPathFault pathB s) from run_shaped s _)
  | .partnerFailed => .inl (show Shaped s (execPartnerFailed s) from run_shaped s _)
  | .yieldPin => .inl (show Shaped s (execYieldPin s) from run_shaped s _)
  | .yieldWordReceive pathB bytes => .inl (show Shaped s (execYieldWordReceive pathB bytes s) from run_shaped s _)
  | .claimGiveup => .inl (show Shaped s (execClaimGiveup s) from run_shaped s _)
  | .stateFrameReceive bytes crc body => .inl (show Shaped s (execStateFrameReceive bytes crc body s) from run_shaped s _)
  | .cutReceive bytes crc cut => .inl (show Shaped s (execCutReceive bytes crc cut s) from run_shaped s _)
  | .commitFrameReceive bytes crc line groups => .inl (show Shaped s (execCommitFrameReceive bytes crc line groups s) from run_shaped s _)
  | .ackFrameReceive ack => .inl (show Shaped s (execAckFrameReceive ack s) from run_shaped s _)
  | .ackFrameSend => .inl (show Shaped s (execAckFrameSend s) from run_shaped s _)
  | .sigFrameReceive bytes body => .inl (show Shaped s (execSigFrameReceive bytes body s) from run_shaped s _)
  | .requestFrameReceive rx => .inl (show Shaped s (execRequestFrameReceive rx s) from run_shaped s _)
  | .telemFrameReceive rx => .inl (show Shaped s (execTelemFrameReceive rx s) from run_shaped s _)
  | .checkpointTimeout => .inl (show Shaped s (execCheckpointTimeout s) from run_shaped s _)
  | .veerReq => .inl (show Shaped s (execVeerReq s) from run_shaped s _)
  | .firmwareVeerReq => .inl (show Shaped s (execFirmwareVeerReq s) from run_shaped s _)
  | .splitHeal lane => .inl (show Shaped s (execSplitHeal lane s) from run_shaped s _)
  | .homing => .inl (show Shaped s (execHoming s) from run_shaped s _)
  | .hatboxMount drives => .inl (show Shaped s (execHatboxMount drives s) from runEngine_shaped s _)
  | .hbxWrite => .inl (show Shaped s (execHbxWrite s) from runEngine_shaped s _)
  | .writeStaged tag => .inl (show Shaped s (execWriteStaged tag s) from runEngine_shaped s _)
  | .hbxRead => .inl (show Shaped s (execHbxRead s) from runEngine_shaped s _)
  | .readComplete tag data result copied => .inl (show Shaped s (execReadComplete tag data result copied s) from runEngine_shaped s _)
  | .hbxFlush => .inl (show Shaped s (execHbxFlush s) from runEngine_shaped s _)
  | .openTake => .inl (show Shaped s (execOpenTake s) from runEngine_shaped s _)
  | .closeTake => .inl (show Shaped s (execCloseTake s) from runEngine_shaped s _)
  | .deleteTake => .inl (show Shaped s (execDeleteTake s) from runEngine_shaped s _)
  | .fwActivate => .inl (show Shaped s (execFwActivate s) from runEngine_shaped s _)
  | .nvmeWriteComplete ser result => .inl (show Shaped s (execNvmeWriteComplete ser result s) from runEngine_shaped s _)
  | .commitBatchStart drive => .inl (show Shaped s (execCommitBatchStart drive s) from runEngine_shaped s _)
  | .batchStepDone drive => .inl (show Shaped s (execBatchStepDone drive s) from runEngine_shaped s _)
  | .hbxAbort client cid => .inl (show Shaped s (execHbxAbort client cid s) from run_shaped s _)
  | .hbxClientReset client => .inl (show Shaped s (execHbxClientReset client s) from run_shaped s _)
  | .hbxCmdTimeout tag => .inl (show Shaped s (execHbxCmdTimeout tag s) from runEngine_shaped s _)
  | .ssdAdminTimeout drive => .inl (show Shaped s (execSsdAdminTimeout drive s) from runEngine_shaped s _)
  | .driveReady drive => .inl (show Shaped s (execDriveReady drive s) from runEngine_shaped s _)
  | .completionPost client => .inl (show Shaped s (execCompletionPost client s) from runEngine_shaped s _)
  | .compress ring engine => .inl (show Shaped s (execCompress ring engine s) from runEngine_shaped s _)
  | .decompress ring engine => .inl (show Shaped s (execDecompress ring engine s) from runEngine_shaped s _)
  | .descriptorComplete ring => .inl (show Shaped s (execDescriptorComplete ring s) from runEngine_shaped s _)
  | .fulRingReset ring => .inl (show Shaped s (execFulRingReset ring s) from run_shaped s _)
  | .fulRingRelease ring => .inl (show Shaped s (execFulRingRelease ring s) from runEngine_shaped s _)
  | .lullEnd unit => .inl (show Shaped s (execLullEnd unit s) from run_shaped s _)
  | .sessionOpen session => .inl (show Shaped s (execSessionOpen session s) from run_shaped s _)
  | .sessionClose session => .inl (show Shaped s (execSessionClose session s) from run_shaped s _)
  | .sessionFlush session => .inl (show Shaped s (execSessionFlush session s) from run_shaped s _)
  | .ctuRowDone dec => .inl (show Shaped s (execCtuRowDone dec s) from run_shaped s _)
  | .pictureComplete session => .inl (show Shaped s (execPictureComplete session s) from run_shaped s _)
  | .pictureWatchdog session => .inl (show Shaped s (execPictureWatchdog session s) from run_shaped s _)
  | .restartArmWrite value => .inl (show Shaped s (execRestartArmWrite value s) from run_shaped s _)
  | .accessUnitTake session => .inl (show Shaped s (execAccessUnitTake session s) from run_shaped s _)
  | .audioFrame dom edge bclks lines => .inl (show Shaped s (execAudioFrame dom edge bclks lines s) from run_shaped s _)
  | .ethLinkChange port fecLock blockLock link => .inl (show Shaped s (execEthLinkChange port fecLock blockLock link s) from run_shaped s _)
  | .ethServiceFrame port frame => .inl (show Shaped s (execEthServiceFrame port frame s) from run_shaped s _)
  | .announceReceive port dt msg => .inl (show Shaped s (execAnnounceReceive port dt msg s) from run_shaped s _)
  | .syncReceive port dt msg => .inl (show Shaped s (execSyncReceive port dt msg s) from run_shaped s _)
  | .followUpReceive port msg => .inl (show Shaped s (execFollowUpReceive port msg s) from run_shaped s _)
  | .delayReqSend dt => .inl (show Shaped s (execDelayReqSend dt s) from run_shaped s _)
  | .delayRespReceive port dt msg => .inl (show Shaped s (execDelayRespReceive port dt msg s) from run_shaped s _)
  | .announceTimeout port => .inl (show Shaped s (execAnnounceTimeout port s) from run_shaped s _)
  | .tsqPop => .inl (show Shaped s (execTsqPop s) from run_shaped s _)
  | .cueMessageReceive src bytes => .inl (show Shaped s (execCueMessageReceive src bytes s) from run_shaped s _)
  | .regWrite => .inl (show Shaped s (execRegWrite s) from run_shaped s _)
  | .regRead => .inl (show Shaped s (execRegRead s) from run_shaped s _)
  | .tblWriteOp => .inl (show Shaped s (execTblWriteOp s) from run_shaped s _)
  | .memWrite => .inl (show Shaped s (execMemWrite s) from run_shaped s _)
  | .calInsertOp => .inl (show Shaped s (execCalInsertOp s) from run_shaped s _)
  | .calCancelOp => .inl (show Shaped s (execCalCancelOp s) from run_shaped s _)
  | .commitOp => .inl (show Shaped s (execCommitOp s) from run_shaped s _)
  | .storeCue => .inl (show Shaped s (execStoreCue s) from run_shaped s _)
  | .snapshot => .inl (show Shaped s (execSnapshot s) from run_shaped s _)
  | .status => .inl (show Shaped s (execStatus s) from run_shaped s _)
  | .subscribe => .inl (show Shaped s (execSubscribe s) from run_shaped s _)
  | .writeMsg bytes => .inl (show Shaped s (execWriteMsg bytes s) from run_shaped s _)
  | .readStatus => .inl (show Shaped s (execReadStatus s) from run_shaped s _)
  | .readMsg => .inl (show Shaped s (execReadMsg s) from run_shaped s _)
  | .rtpAuSend stream => .inl (show Shaped s (execRtpAuSend stream s) from run_shaped s _)
  | .rtpLateDrop stream => .inl (show Shaped s (execRtpLateDrop stream s) from run_shaped s _)
  | .dramWindow chan dt arrivals slots => .inl (show Shaped s (execDramWindow chan dt arrivals slots s) from run_shaped s _)
  | .requestPromotion chan => .inl (show Shaped s (execRequestPromotion chan s) from run_shaped s _)
  | .dramReadComplete addr ret => .inl (show Shaped s (execDramReadComplete addr ret s) from run_shaped s _)
  | .dramRequestTimeout addr write => .inl (show Shaped s (execDramRequestTimeout addr write s) from run_shaped s _)
  | .mr4Poll chan dt rate => .inl (show Shaped s (execMr4Poll chan dt rate s) from run_shaped s _)
  | .dramScrub quadrant dt ecc => .inl (show Shaped s (execDramScrub quadrant dt ecc s) from run_shaped s _)
  | .thmReading sites => .inl (show Shaped s (execThmReading sites s) from run_shaped s _)
  | .logEntryArise source inst cls event detail episode => .inl (show Shaped s (execLogEntryArise source inst cls event detail episode s) from run_shaped s _)
  | .logCommit => .inl (show Shaped s (execLogCommit s) from run_shaped s _)
  | .logDramCopy => .inl (show Shaped s (execLogDramCopy s) from run_shaped s _)
  | .errSelWrite value => .inl (show Shaped s (execErrSelWrite value s) from run_shaped s _)
  | .calmNFall highNs => .inl (show Shaped s (execCalmNFall highNs s) from run_shaped s _)
  | .snapTriggerWrite => .inl (show Shaped s (execSnapTriggerWrite s) from run_shaped s _)
  | .calmOutPulseEnd => .inl (show Shaped s (execCalmOutPulseEnd s) from run_shaped s _)
  | .snapshotDump => .inl (show Shaped s (execSnapshotDump s) from run_shaped s _)
  | .bselWrite baddr value => .inl (show Shaped s (execBselWrite baddr value s) from run_shaped s _)
  | .headerChecked sfdp header => .inl (show Shaped s (execHeaderChecked sfdp header s) from run_shaped s _)
  | .driveActivationTimeout => .inl (show Shaped s (execDriveActivationTimeout s) from runEngine_shaped s _)
  | .format => .inl (show Shaped s (execFormat s) from runEngine_shaped s _)
  | .pcieLinkChange drive width => .inl (show Shaped s (execPcieLinkChange drive width s) from run_shaped s _)
  | .supplyMonitorRelease role bank tmode => .inl (show Shaped s (execSupplyMonitorRelease role bank tmode s) from runAny_shaped s _)
  | .testPortInstruction instr => .inl (show Shaped s (execTestPortInstruction instr s) from run_shaped s _)

end Sys2Proof.Machine
end

