-- ==== Sys2Proof/Laws/Wall.lean ====
section
/-!
SUPPORT. What the operations that take the device off the wall leave alone (R342, R316, R504, R517).
-/

namespace Sys2Proof.Machine.Dev

/-- The windows of the lanes' registers. -/
def laneWins : List Nat := [0x30, 0x31, 0x32, 0x33, 0x34, 0x35, 0x36, 0x37]

theorem mem_laneWins {j : Nat} (h : j < 8) : 0x30 + j ∈ laneWins := by
  unfold laneWins
  have : j = 0 ∨ j = 1 ∨ j = 2 ∨ j = 3 ∨ j = 4 ∨ j = 5 ∨ j = 6 ∨ j = 7 := by omega
  rcases this with rfl | rfl | rfl | rfl | rfl | rfl | rfl | rfl <;> decide

theorem changing_win {j : Nat} (h : j < 8) : (R.LNE_OCT_STATUS_CHANGING j).key / 524288 ∈ laneWins := by
  have : (R.LNE_OCT_STATUS_CHANGING j).key / 524288 = 0x30 + j := by simp only [R.LNE_OCT_STATUS_CHANGING]; omega
  rw [this]; exact mem_laneWins h

theorem modeReq_win {j : Nat} (h : j < 8) : (R.LNE_OCT_CTRL_MODE_REQ j).key / 524288 ∈ laneWins := by
  have : (R.LNE_OCT_CTRL_MODE_REQ j).key / 524288 = 0x30 + j := by simp only [R.LNE_OCT_CTRL_MODE_REQ]; omega
  rw [this]; exact mem_laneWins h

theorem keeps_startChange (d : Dev) {j : Nat} (h : j < 8) (m : Nat) : Keeps laneWins d (d.startChange j m) :=
  .ite (.wr (changing_win h) (.set_link .refl)) (.wr (changing_win h) (.set_link .refl))

theorem keeps_seekMode (d : Dev) {j : Nat} (h : j < 8) : Keeps laneWins d (d.seekMode j) :=
  .ite .refl (.ite .refl (keeps_startChange d h _))

/-- A request for a mode writes the registers of the octet's lanes alone (R316). -/
theorem keeps_requestMode (d : Dev) {j : Nat} (h : j < 8) (v : Nat) : Keeps laneWins d (d.requestMode j v) :=
  .ite .refl (.trans (.set_link (.wr (modeReq_win h) .refl)) (keeps_seekMode _ h))

/-- Every octet is sent to idle: the lanes' registers alone change. -/
theorem keeps_idleAll (d : Dev) : Keeps laneWins d d.idleAll :=
  .foldl_mem _ (fun x _ m => keeps_requestMode x (List.mem_range.mp m) 0) .refl

theorem idleAll_frame (d : Dev) : ∃ r l, d.idleAll = { d with regs := r, link := l } := by
  unfold Dev.idleAll
  generalize List.range 8 = l
  induction l generalizing d with
  | nil => exact ⟨d.regs, d.link, rfl⟩
  | cons j r ih =>
    rw [List.foldl_cons]
    obtain ⟨a, b, e⟩ : ∃ a b, d.requestMode j 0 = { d with regs := a, link := b } := by
      unfold Dev.requestMode Dev.seekMode Dev.startChange
      dsimp only
      split_ifs <;> exact ⟨_, _, rfl⟩
    obtain ⟨a', b', e'⟩ := ih (d.requestMode j 0)
    rw [e', e]
    exact ⟨_, _, rfl⟩

/-- The windows that an entry to SAFE can write: the state, the event log, the lanes. -/
def safeWins : List Nat := [0, 4] ++ laneWins

theorem keeps_safePins (d : Dev) : Keeps safeWins d d.safePins := ⟨rfl, rfl, fun _ _ => rfl⟩

theorem keeps_enterSafe (d : Dev) : Keeps safeWins d d.enterSafe :=
  .setState (by decide) (by decide) (.trans (keeps_safePins d) ((keeps_idleAll _).wider (by decide)))

theorem enterSafe_pins (d : Dev) : d.enterSafe.pins = { d.pins with yieldN := true, xspiOwnN := true, spitIrqN := false } := by
  unfold Dev.enterSafe
  rw [setState_pins]
  obtain ⟨_, _, e⟩ := idleAll_frame d.safePins
  rw [e]; rfl

theorem enterSafe_wtm (d : Dev) : d.enterSafe.wtm = { d.wtm with running := false } := by
  unfold Dev.enterSafe
  rw [setState_wtm]
  obtain ⟨_, _, e⟩ := idleAll_frame d.safePins
  rw [e]; rfl

/-- The device is in SAFE. -/
theorem enterSafe_state (d : Dev) (h : d.off = false) : d.enterSafe.state = .safe :=
  state_setState _ _ ((keeps_idleAll _).off.trans h) (by decide)

theorem enterSafe_now (d : Dev) : d.enterSafe.now = d.now := by
  unfold Dev.enterSafe
  rw [setState_now]
  obtain ⟨_, _, e⟩ := idleAll_frame d.safePins
  rw [e]; rfl

/-! CALM and yield (R536 to R539, R341 to R344). -/

theorem keeps_latchBank (d : Dev) (w : Nat) : Keeps [5] d (d.latchBank w) := by
  unfold Dev.latchBank
  dsimp only
  refine .ite (.cnt (by decide) ?_) ?_ <;> exact ⟨rfl, rfl, fun _ _ => rfl⟩

theorem keeps_latchAll (d : Dev) (src : Nat) : Keeps [4, 5] d (d.latchAll src) := by
  unfold Dev.latchAll
  refine .log (by decide) (.wr (by decide) (.wrPair (by decide) (by decide) (.wrPair (by decide) (by decide)
    (.wr (by decide) (.cntWrap (by decide) ?_)))))
  exact .foldl (fun x a => (keeps_latchBank x a).wider (by decide)) _ .refl

theorem keeps_calmOut (d : Dev) (p : Bool) : Keeps [4, 5] d (d.calmOut p) := by
  unfold Dev.calmOut
  refine .ite (.emit ?_) .refl
  exact ⟨rfl, rfl, fun _ _ => rfl⟩

theorem keeps_putSnap (d : Dev) (x : SnapPart) : Keeps [4, 5] d (d.putSnap x) := ⟨rfl, rfl, fun _ _ => rfl⟩

theorem keeps_calmMark (d : Dev) (src : Nat) : Keeps [4, 5] d (d.calmMark src) :=
  (keeps_putSnap d _).trans (keeps_calmOut _ _)

theorem keeps_calmLatch (d : Dev) (src : Nat) : Keeps [4, 5] d (d.calmLatch src) :=
  have h := (keeps_putSnap d { d.snap with before := d.snap.banks, latchedAt := some d.now }).trans (keeps_latchAll _ src)
  .ite (h.trans (keeps_putSnap _ _)) h

/-- CALM writes the registers of SNAP and ERR alone. -/
theorem keeps_calm (d : Dev) (src : Nat) : Keeps [4, 5] d (d.calm src) := by
  have h : Keeps [4, 5] d (d.cnt R.SNAP_TRIGGERS) := .cnt (by decide) .refl
  have h1 := h.trans (keeps_calmMark (d.cnt R.SNAP_TRIGGERS) src)
  have h2 := h1.trans (keeps_calmLatch _ src)
  exact .ite (.cnt (by decide) h) (.ite (.cnt (by decide) h1) h2)

theorem keeps_showLoad (d : Dev) : Keeps [0x42] d d.showLoad := .wr (by decide) (.wr (by decide) .refl)

theorem keeps_hvcClosed (d : Dev) {s : Nat} (h : s < 32) : Keeps [0x42] d (d.hvcClosed s) := by
  have w1 : (R.HVC_S_CTRL_OPEN s).key / 524288 = 0x42 := by simp only [R.HVC_S_CTRL_OPEN]; omega
  have w2 : (R.HVC_S_STATUS_MIRROR_WAIT s).key / 524288 = 0x42 := by simp only [R.HVC_S_STATUS_MIRROR_WAIT]; omega
  refine .trans (.wr (by rw [w2]; decide) (.wr (by rw [w1]; decide) ?_)) (keeps_showLoad _)
  exact ⟨rfl, rfl, fun _ _ => rfl⟩

theorem keeps_hvcStop (d : Dev) : Keeps [0x42] d d.hvcStop :=
  .foldl_mem _ (fun x _ m => .ite (keeps_hvcClosed x (List.mem_range.mp m)) .refl) .refl

/-- The windows that leaving the wall can write: the state, the redundancy control, scan-out, the lanes. -/
def wallWins : List Nat := [0, 4, 7, 0x20, 0x22] ++ laneWins

theorem keeps_dropScan (d : Dev) : Keeps [] d d.dropScan := ⟨rfl, rfl, fun _ _ => rfl⟩

theorem keeps_underOff (x : Dev) : ∀ n ∈ List.range 2, Keeps [4, 0x22] x (x.flag 0 (R.SCN_STATUS_UNDER_EP n) 2 true false) := by
  intro n m
  have : n = 0 ∨ n = 1 := by have := List.mem_range.mp m; omega
  rcases this with rfl | rfl <;> exact .flag (by decide) (by decide) .refl

theorem keeps_stopScan (d : Dev) : Keeps [4, 0x22] d d.stopScan :=
  .wr (by decide) (.wr (by decide) (.foldl_mem _ (fun x n m => keeps_underOff x n m) ((keeps_dropScan d).wider (by decide))))

theorem keeps_drops (d : Dev) : Keeps [] d d.dropTiles.dropSegs := ⟨rfl, rfl, fun _ _ => rfl⟩

theorem keeps_loopLag (d : Dev) (v : Bool) : Keeps [4, 0x20] d (d.loopLag v) := .flag (by decide) (by decide) .refl

theorem keeps_offWall (d : Dev) : Keeps ([4, 0x22] ++ laneWins) d d.stopScan.idleAll.dropTiles.dropSegs :=
  .trans ((keeps_stopScan d).wider (by decide)) (.trans ((keeps_idleAll _).wider (by decide)) ((keeps_drops _).wider (by decide)))

theorem keeps_leaveWall (d : Dev) : Keeps wallWins d d.leaveWall :=
  .wrb (by decide) (.setSplit (by decide)
    (.trans ((keeps_offWall d).wider (by decide)) ((keeps_loopLag _ _).wider (by decide))))

theorem keeps_yieldPin (d : Dev) : Keeps [4, 5, 7] d d.yieldPin := ⟨rfl, rfl, fun _ _ => rfl⟩

theorem keeps_sendFrame (d : Dev) (b : PairBody) : Keeps [] d (d.sendFrame b) := .ite (.emit .refl) .refl

theorem keeps_yieldWords (d : Dev) (r : Nat) : Keeps [4, 5, 7] d (d.yieldWords r) :=
  .emit ((keeps_yieldPin d).trans ((keeps_sendFrame _ _).wider (by decide)))

theorem keeps_yieldLog (d : Dev) (r : Nat) : Keeps [4, 5, 7] d (d.yieldLog r) := .log (by decide) (.wr (by decide) .refl)

theorem keeps_yieldSay (d : Dev) (r : Nat) : Keeps [4, 5, 7] d (d.yieldSay r) := by
  have h : Keeps [4, 5, 7] ((d.yieldWords r).yieldLog r) (((d.yieldWords r).yieldLog r).calm 3) := (keeps_calm _ 3).wider (by decide)
  unfold Dev.yieldSay
  exact ((keeps_yieldWords d r).trans (keeps_yieldLog _ r)).trans h

/-- The windows that a yield can write. -/
def yieldWins : List Nat := [0, 4, 5, 7, 0x20, 0x22, 0x42] ++ laneWins

theorem keeps_yieldHold (d : Dev) : Keeps yieldWins d d.yieldHold := ⟨rfl, rfl, fun _ _ => rfl⟩

theorem yieldHold_rd (d : Dev) (f : Fld) : d.yieldHold.rd f = d.rd f := rfl

/-- What a yield leaves alone. -/
theorem keeps_yield (d : Dev) (r : Nat) : Keeps yieldWins d (d.yield r) :=
  .ite .refl (.setState (by decide) (by decide) (.trans ((keeps_yieldSay d r).wider (by decide))
    (.trans ((keeps_leaveWall _).wider (by decide)) (.trans ((keeps_hvcStop _).wider (by decide)) (keeps_yieldHold _)))))

theorem inService_on {d : Dev} (h : d.inService = true) : d.off = false := by
  unfold Dev.inService at h
  simp only [Bool.or_eq_true, decide_eq_true_eq] at h
  rcases h with (h | h) | h <;> exact on_of_state h (by decide)

theorem yield_eq (d : Dev) (r : Nat) (h : d.inService = true) :
    d.yield r = ((d.yieldSay r).leaveWall.hvcStop.yieldHold).setState .yielded := by
  unfold Dev.yield
  rw [h, if_neg (by decide)]

/-- The device is in YIELDED (R342). -/
theorem yield_state (d : Dev) (r : Nat) (h : d.inService = true) : (d.yield r).state = .yielded := by
  have o : (d.yield r).off = false := (keeps_yield d r).off.trans (inService_on h)
  rw [yield_eq d r h, setState_off] at o
  rw [yield_eq d r h]
  exact state_setState _ _ o (by decide)

theorem leaveWall_lastYield (d : Dev) : d.leaveWall.rd R.VEER_STATUS_LAST_YIELD = d.rd R.VEER_STATUS_LAST_YIELD := by
  unfold Dev.leaveWall Dev.setSplit
  rw [rd_wrb_ne _ _ _ _ (by decide), rd_wrb_ne _ _ _ _ (by decide)]
  exact ((keeps_loopLag _ _).rd _ (by decide)).trans ((keeps_offWall d).rd _ (by decide))

theorem yieldSay_lastYield (d : Dev) (r : Nat) : (d.yieldSay r).rd R.VEER_STATUS_LAST_YIELD = r % 16 := by
  unfold Dev.yieldSay
  refine ((keeps_calm _ _).rd _ (by decide)).trans ?_
  unfold Dev.yieldLog
  rw [rd_log _ _ _ _ _ _ _ _ (by decide), rd_wr_self]
  rfl

/-- LAST_YIELD holds the reason. -/
theorem yield_reason (d : Dev) (r : Nat) (h : d.inService = true) : (d.yield r).rd R.VEER_STATUS_LAST_YIELD = r % 16 := by
  rw [yield_eq d r h, rd_setState _ _ _ (by decide) (by decide) (by decide), yieldHold_rd]
  exact ((keeps_hvcStop _).rd _ (by decide)).trans ((leaveWall_lastYield _).trans (yieldSay_lastYield d r))

end Sys2Proof.Machine.Dev
end

