-- ==== Sys2Proof/Machine/Pinout.lean ====
section
/-!
DEFINITION. The state of every signal group in each device state (R545, Table 22-2).
-/

namespace Sys2Proof.Machine

/-- The signal groups of Table 22-2. -/
inductive PinGroup where
  | laneTx (octet : Fin 8) | pairTx | serialRx | camera | dram | pcieReset | ethTx (port : Fin 2) | audioOut | audioClock (dom : Fin 2)
  | xspiBus | xspiOwn | spitMiso | spitIrq | i2c | hbOut | yield | calmOut | coreVid
  deriving DecidableEq, Repr

/-- The states of a group: those of Table 22-2, a level, and the code that CORE_VID drives. `mode` is a lane group in the mode of its
octet; `joined` an audio output as R24 has it; `bySelect` a pin driven while SPIT_CS_N is low. -/
inductive PinState where
  | commonMode | mode (octetMode : Nat) | running | idle | unterminated | terminated | held | training | selfRefresh | highZ | driven
  | joined | bySelect | released | active | level (high : Bool) | code (vid : Nat)
  deriving DecidableEq, Repr

namespace Dev

/-- PORST_N is low, or a supply monitor holds the device in reset. -/
def heldInReset (d : Dev) : Bool := d.off

/-- The state of the DRAM pins. -/
def dramPins (d : Dev) : PinState :=
  match d.state with
  | .boot => if d.boot.trained then .running else .training
  | .yielded => .selfRefresh
  | .safe => if d.boot.trained then .selfRefresh else .held
  | _ => .running

/-- The state of a signal group (Table 22-2). In test mode the xSPI pins stay at high impedance. -/
def pinState (d : Dev) (g : PinGroup) : PinState :=
  let held := d.heldInReset
  match g with
  | .laneTx j => if held || !d.inService then .commonMode else .mode (d.rd (R.LNE_OCT_STATUS_MODE j))
  | .pairTx => if held || !d.inService then .commonMode else .running
  | .serialRx => if held then .unterminated else .terminated
  | .camera => if held then .unterminated else .terminated
  | .dram => if held then .held else d.dramPins
  | .pcieReset => .level (!held && d.inService)
  | .ethTx p => if held || !d.inService || !d.rdb (R.ETH_PORT_CTRL_EN p) then .idle else .running
  | .audioOut => if held || !d.inService then .highZ else .joined
  | .audioClock k => if held || !d.inService || !d.rdb (R.AUD_DOM_CTRL_MODE k) then .highZ else .driven
  | .xspiBus => if held || d.state ≠ .boot || d.boot.tmode then .highZ else .driven
  | .xspiOwn => .level d.pins.xspiOwnN
  | .spitMiso => if held then .highZ else .bySelect
  | .spitIrq => if d.pins.spitIrqN then .released else .level false
  | .i2c => if held || !d.inService then .released else .active
  | .hbOut => if held || !d.inService then .level false else .active
  | .yield => if d.pins.yieldN then .released else .level false
  | .calmOut => .level d.pins.calmOut
  | .coreVid => .code (d.pins.coreVid.getD 10)

end Dev
end Sys2Proof.Machine
end

