-- ==== Sys2Proof/WellFormed.lean ====
section
/-!
DEFINITION. The commands that the outside world can send: operands within the sizes that the spec gives the things that they stand
for. A command that is not well formed still has a meaning (exec is total); no run of the hardware sends it.
-/

namespace Sys2Proof

/-- 48-bit and 64-bit fields of IEEE 1588 messages. -/
def Announce.wellFormed (a : Announce) : Bool :=
  decide (a.transport < 3) && decide (a.source < 2 ^ 80) && decide (a.domain < 256) && decide (a.gm < 2 ^ 64) && decide (a.prio1 < 256) && decide (a.cls < 256)
    && decide (a.accuracy < 256) && decide (a.variance < 65536) && decide (a.prio2 < 256) && decide (a.steps < 65536)

def PtpMsg.wellFormed (m : PtpMsg) : Bool :=
  decide (m.transport < 3) && decide (m.source < 2 ^ 80) && decide (m.domain < 256) && decide (m.seq < 65536) && decide (-(2 ^ 63) ≤ m.corr) &&
    decide (m.corr < 2 ^ 63)

/-- An address has 4 or 16 bytes. -/
def CueFrom.wellFormed : CueFrom → Bool
  | .eth _ v6 addr udp dst => addr.length = (if v6 then 16 else 4) && decide (udp < 65536) && decide (dst < 65536)
  | .spi => true

/-- Index records have 64 bytes and journal pages 4,096 (R373). -/
def DriveInfo.wellFormed (d : DriveInfo) : Bool :=
  d.index.all (fun r => r.length = 64) && d.journal.all fun p => p.length = 4096

/-- A DRAM address fits the 40 bits of every address register. -/
def dramAddrOk (a : Nat) : Bool := decide (a < 2 ^ 40)

/-- The units of a calibration target (Table 11-6). -/
def CalKind.wellFormed (kind : CalKind) (n : Nat) : Bool := match kind with
  | .rx => decide (n < 64)
  | .cam => decide (n < 8)
  | .dram => decide (n < 32)

/-- The words of 64 bits, or 128 for the lane FIFOs, of each SRAM region in Table 2-4 order (R39), and of the live copies of shadowed
registers, at most one word for each word of the windows below TBL (log entry 101). -/
def sramWords (region : Nat) : Nat :=
  ([12, 1, 16, 24, 14, 16, 4, 20, 10, 8, 3, 8, 1, 7, 16].getD region 0) * 1048576 / (if region = 2 then 16 else 8)

/-- Payloads of REQUEST frames name lanes and tiles that exist. -/
def reqOk : Machine.PairReq → Bool
  | .split lane pos _ _ => decide (lane < 64) && decide (pos < 4096)
  | .release lane _ _ => decide (lane < 64)
  | .claimed tiles => tiles.all fun t => decide (t < 4096)
  | .accepted tiles _ => tiles.all fun t => decide (t < 4096)
  | _ => true

/-- A test-port access carries 32-bit words. -/
def testOk : TestInstr → Bool
  | .regacc addr write => decide (addr < 2 ^ 32) && decide (write.getD 0 < 2 ^ 32)
  | _ => true

/-- The operands of a command are ones that the hardware can meet. -/
def Instr.wellFormed : Instr → Bool
  | .porstNAssert => true
  | .porstNRelease _ _ _ => true
  | .supplyMonitorReset => true
  | .pfailNFall => true
  | .pfailNRise => true
  | .pllLockTimeout => true
  | .pllLock => true
  | .dramTrainingDone _ => true
  | .imageReadDone body => decide (body.length ≤ 58716160)
  | .wdogKick => true
  | .watchdogExpiry => true
  | .yieldTest => true
  | .yieldHoldExpiry => true
  | .readBoot => true
  | .clockStopped family inst => decide (inst.val < Machine.clockInstances.getD family 0)
  | .clockRunning family inst => decide (inst.val < Machine.clockInstances.getD family 0)
  | .bridgeTimeout => true
  | .registerWrite _ _ _ => true
  | .rcRead _ => true
  | .wlnLoRead => true
  | .wrIndexLoRead _ => true
  | .arrivalLoRead => true
  | .wallLineBoundary => true
  | .referenceValid _ => true
  | .referenceLost _ => true
  | .frameRefEdge _ _ => true
  | .frameRefMissing => true
  | .sourceWrite _ => true
  | .epochWrite _ _ => true
  | .sampleGo => true
  | .timeAcceptSlew => true
  | .timeAcceptStep => true
  | .calInsert => true
  | .calCancel => true
  | .storedCueRun => true
  | .markRun => true
  | .commitArmWrite _ => true
  | .tblRead => true
  | .tblWrite => true
  | .tblSelWrite _ => true
  | .tblLoadGo => true
  | .tblLoadDone bad => decide (bad.getD 0 < 2 ^ 20)
  | .pageMoveOnchip => true
  | .sramScrub region word _ => decide (word < sramWords region)
  | .camFrameStart _ _ => true
  | .camFrameEnd _ _ => true
  | .camLine _ _ transfers ovf => decide (ovf.getD 0 ≤ transfers.length)
  | .camCheckWord _ _ => true
  | .camGlitch _ => true
  | .missedSlot _ => true
  | .frameTimeout _ => true
  | .substituteFrame _ => true
  | .camCalGo _ => true
  | .camCalStart _ => true
  | .defDataAccess _ _ => true
  | .histArmWrite _ => true
  | .statsWriteDone _ => true
  | .lutDataAccess _ => true
  | .ambientReading _ => true
  | .windowRowEntry _ _ => true
  | .frameStoreWrite _ => true
  | .coefDataAccess _ => true
  | .battDue _ => true
  | .scanoutPixel x y => decide (x < 32768) && decide (y < 16384)
  | .fifoWrite use => decide (use.ecc.length ≤ 14)
  | .packetTransmit use => decide (use.ecc.length ≤ 14)
  | .alignmentMarker _ => true
  | .akReceive _ blocks => !blocks.isEmpty
  | .nkReceive _ blocks => !blocks.isEmpty
  | .tlReceive _ blocks => decide (2 ≤ blocks.length)
  | .returnPacketBad rx => !rx.blocks.isEmpty
  | .blockLockAcquired rx => !rx.blocks.isEmpty
  | .blockLockLost _ blocks => !blocks.isEmpty
  | .ackTimeout _ => true
  | .packetDeadline _ => true
  | .tileStale _ => true
  | .vrRepeat _ => true
  | .ctWrite _ => true
  | .ctRead _ => true
  | .ctSetPosition _ => true
  | .enumWindowEnd _ => true
  | .modeReqWrite _ _ => true
  | .octetIdleDrained _ => true
  | .octetFckStart _ => true
  | .octetTrainingEnd _ => true
  | .laneTestWrite _ _ => true
  | .lctrlGo _ => true
  | .calReqRx => true
  | .calReqCam => true
  | .calReqDram => true
  | .rxCalStart _ => true
  | .rxCalPhaseDone _ _ _ _ _ => true
  | .dramCalWindow _ => true
  | .calRunDone kind n clean _ _ => kind.wellFormed n && decide (clean.length ≤ 32)
  | .calRunTimeout kind n => kind.wellFormed n
  | .calRetry kind n => kind.wellFormed n
  | .alignmentColumnSend => true
  | .pairLaneAligned _ _ _ => true
  | .pairAlignmentLost _ _ _ => true
  | .beatReceive _ _ => true
  | .pairWaitExpiry => true
  | .pathFault _ => true
  | .partnerFailed => true
  | .yieldPin => true
  | .yieldWordReceive _ _ => true
  | .claimGiveup => true
  | .stateFrameReceive _ _ _ => true
  | .cutReceive _ _ cut => decide (cut.rtp.length ≤ 8)
  | .commitFrameReceive _ _ _ _ => true
  | .ackFrameReceive _ => true
  | .ackFrameSend => true
  | .sigFrameReceive _ _ => true
  | .requestFrameReceive rx => reqOk rx.req
  | .telemFrameReceive rx => decide (rx.tile.id < 4096)
  | .checkpointTimeout => true
  | .veerReq => true
  | .firmwareVeerReq => true
  | .splitHeal _ => true
  | .homing => true
  | .hatboxMount drives => decide (drives.length ≤ 4) && drives.all DriveInfo.wellFormed
  | .hbxWrite => true
  | .writeStaged _ => true
  | .hbxRead => true
  | .readComplete _ data _ copied => decide (copied ≤ data.length) && decide (data.length ≤ 16777216)
  | .hbxFlush => true
  | .openTake => true
  | .closeTake => true
  | .deleteTake => true
  | .fwActivate => true
  | .nvmeWriteComplete _ _ => true
  | .commitBatchStart _ => true
  | .batchStepDone _ => true
  | .hbxAbort _ _ => true
  | .hbxClientReset _ => true
  | .hbxCmdTimeout _ => true
  | .ssdAdminTimeout _ => true
  | .driveReady _ => true
  | .completionPost _ => true
  | .compress _ _ => true
  | .decompress _ _ => true
  | .descriptorComplete _ => true
  | .fulRingReset _ => true
  | .fulRingRelease _ => true
  | .lullEnd _ => true
  | .sessionOpen _ => true
  | .sessionClose _ => true
  | .sessionFlush _ => true
  | .ctuRowDone _ => true
  | .pictureComplete _ => true
  | .pictureWatchdog _ => true
  | .restartArmWrite _ => true
  | .accessUnitTake _ => true
  | .audioFrame _ _ _ lines => decide (lines.length ≤ 4)
  | .ethLinkChange _ _ _ _ => true
  | .ethServiceFrame _ _ => true
  | .announceReceive _ _ msg => msg.wellFormed
  | .syncReceive _ _ msg => msg.wellFormed
  | .followUpReceive _ msg => msg.wellFormed
  | .delayReqSend _ => true
  | .delayRespReceive _ _ msg => msg.wellFormed
  | .announceTimeout _ => true
  | .tsqPop => true
  | .cueMessageReceive src bytes => src.wellFormed && decide (bytes.length ≤ 65507)
  | .regWrite => true
  | .regRead => true
  | .tblWriteOp => true
  | .memWrite => true
  | .calInsertOp => true
  | .calCancelOp => true
  | .commitOp => true
  | .storeCue => true
  | .snapshot => true
  | .status => true
  | .subscribe => true
  | .writeMsg _ => true
  | .readStatus => true
  | .readMsg => true
  | .rtpAuSend _ => true
  | .rtpLateDrop _ => true
  | .dramWindow _ _ arrivals _ => arrivals.all fun a => dramAddrOk a.addr
  | .requestPromotion _ => true
  | .dramReadComplete addr _ => dramAddrOk addr
  | .dramRequestTimeout addr _ => dramAddrOk addr
  | .mr4Poll _ _ _ => true
  | .dramScrub _ _ _ => true
  | .thmReading sites => sites.length = 32
  | .logEntryArise _ _ _ _ _ _ => true
  | .logCommit => true
  | .logDramCopy => true
  | .errSelWrite _ => true
  | .calmNFall _ => true
  | .snapTriggerWrite => true
  | .calmOutPulseEnd => true
  | .snapshotDump => true
  | .bselWrite _ _ => true
  | .headerChecked _ header => header.length = 4096
  | .driveActivationTimeout => true
  | .format => true
  | .pcieLinkChange _ _ => true
  | .supplyMonitorRelease _ _ _ => true
  | .testPortInstruction instr => testOk instr

end Sys2Proof
end

