-- ==== Sys2Proof/Tests/Slice0.lean ====
section
/-!
SUPPORT. The model's own tests: for each statement a state and operands that meet its hypotheses, clause by clause, with a look at what
the command does there; the spec's worked examples; the check of WellFormed.
-/

namespace Sys2Proof.Tests

set_option Elab.async false

open Sys2Proof.Machine

/-! Small states: the device after reset with a change, and what stands after one command. -/

def st (f : Dev → Dev) : State := { State.reset with dev := f Dev.reset }

/-- The device in a state of Table 1-4. -/
def as (x : DevState) (d : Dev) : Dev := d.wr R.TOP_STATE (Dev.stateCode x)

/-- A field with a value in each of its copies. -/
def set (f : Fld) (v : Nat) (d : Dev) : Dev :=
  { d with regs := SMap.put d.regs f.key v, comm := SMap.put d.comm f.key v, live := SMap.put d.live f.key v }

def boot : State := st id
def cold : State := st (as .cold)
def live : State := st (as .live)
def safe : State := st (as .safe)

/-- The line generator runs and line 0 has begun. -/
def running (d : Dev) : Dev := { d with wtm := { d.wtm with running := true, fresh := false } }

def after (c : Instr) (s : State) (p : State → Bool) : Bool := match exec c s with
  | .next t => p t
  | _ => false

def stopsBadGeometry (c : Instr) (s : State) : Bool := match exec c s with
  | .fault .geometryUndefined => true
  | _ => false

/-! The queue, reset and boot. -/

theorem witness_StepRunsFrontCommand :
    ({ cold with pending := [.yieldTest, .wdogKick] } : State).pending = .yieldTest :: [.wdogKick] := by decide +kernel

/-- The queue holds two commands; the front one acts and leaves the other. -/
theorem test_step_takes_front : (match step { cold with pending := [.yieldTest, .wdogKick] } with
    | .next t => decide (t.pending = [.wdogKick] ∧ t.dev.state = .yielded)
    | _ => false) = true := by decide +kernel

theorem witness_ResetIsSoundAndInBoot : State.reset.pending = [] ∧ State.reset.dev.state = .boot ∧ cold.pending = [] := by
  decide +kernel

theorem witness_EveryCommandCompletesOrBadGeometry :
    stopsBadGeometry (.camFrameStart 3 ⟨0, 148500⟩) (st (set (R.CAM_CTRL_EN 3) 1 ∘ set (R.CAM_GEOM_WIDTH 3) 1 ∘ as .cold)) = true ∧
      (st (set (R.CAM_CTRL_EN 3) 1 ∘ set (R.CAM_GEOM_WIDTH 3) 1 ∘ as .cold)).dev.nextSizeOk 3 = false := by decide +kernel

def held : State := st fun d => { d with off := true, pins := { d.pins with porstN := false } }
def browned : State := st fun d => { d with off := true, boot := { d.boot with supplyIn := false } , pins := { d.pins with porstN := true }}

theorem witness_EveryCommandAnswersItsEffect : cold.dev.off = false ∧ cold.dev.nextSizeOk 3 = true ∧
    after .bridgeTimeout cold (fun t => t == cold) = true := by decide +kernel

theorem witness_EveryCommandCompletesOrBadGeometry_off :
    held.dev.off = true ∧ after .wallLineBoundary held (fun t => t == held) = true := by decide +kernel

theorem witness_StepKeepsMemoryCanonical :
    ({ cold with mem := [(3, 7), (9, 1)], pending := [.yieldTest] } : State).Sound ∧
      (match step { cold with mem := [(3, 7), (9, 1)], pending := [.yieldTest] } with | .next _ => true | _ => false) = true := by
  unfold State.Sound; decide +kernel

theorem witness_ResetEntersOffAndReleaseBoots :
    live.Sound ∧ after .porstNAssert live (fun t => t.dev.off) = true ∧
    (held.dev.off = true ∧ held.dev.rd R.TOP_STATE = 1 ∧ held.dev.pins.porstN = false ∧ held.dev.boot.supplyIn = true) ∧
    after (.porstNRelease true false false) held (fun t => t.dev.state = .boot && t.dev.rdb R.TOP_STATE_ROLE_STRAP) = true ∧
    (browned.dev.off = true ∧ browned.dev.rd R.TOP_STATE = 1 ∧ browned.dev.pins.porstN = true ∧
      browned.dev.boot.supplyIn = false) ∧
    after (.supplyMonitorRelease false true false) browned (fun t => t.dev.boot.bank = 1) = true := by
  unfold State.Sound; decide +kernel

def locked : State := st fun d => { d with boot := { d.boot with pll := true } }
def headed (h : List Byte) : State := st fun d => { d with boot := { d.boot with pll := true, header := some h } }
/-- An image whose one section does not have its SCRC. -/
def trained : State :=
  st fun d => { d with boot := { d.boot with
    pll := true, header := some [], trained := true, sections := [⟨3, 0, 0, 0, 4096, 0, 1⟩] } }
def applied (second : Bool) : State :=
  st fun d => { d with boot := { d.boot with pll := true, header := some [], trained := true, applied := true, second := second } }

theorem witness_PllsLockAndDramTrains :
    (boot.dev.state = .boot ∧ boot.dev.rdb R.THM_STATUS_TRIP = false ∧ boot.dev.boot.pll = false) ∧
    after .pllLockTimeout boot (fun t => t.dev.state = .safe && t.dev.rd R.BOOT_STATUS_PLL_FAIL = 1) = true ∧
    ((headed []).dev.bootStep = true ∧ (headed []).dev.boot.header.isSome = true ∧ (headed []).dev.boot.trained = false) ∧
    after (.dramTrainingDone 0) (headed []) (fun t => t.dev.boot.trained) = true ∧
    after (.dramTrainingDone 1) (headed []) (fun t => t.dev.state = .safe) = true := by decide +kernel

theorem witness_ImagesAreRejectedOrApplied_header :
    (locked.dev.bootStep = true ∧ locked.dev.boot.pll = true ∧ locked.dev.boot.header = none) ∧
    after (.headerChecked none []) locked (fun t => t.dev.rd (Dev.bankReason 0) = 2 && t.dev.boot.bank = 1) = true := by decide +kernel

theorem witness_ImagesAreRejectedOrApplied_image :
    (trained.dev.bootStep = true ∧ trained.dev.boot.header = some [] ∧ trained.dev.boot.trained = true ∧
      trained.dev.boot.applied = false) ∧
    after (.imageReadDone []) trained (fun t => t.dev.rd (Dev.bankReason 0) = 6 && t.dev.boot.bank = 1) = true := by
  decide +kernel

theorem witness_WatchdogAcceptsYieldsOrRejects :
    (cold.dev.inService = true ∧ cold.BusFree 0x70000 ∧ cold.BusFree 0x6001C) ∧
    after .yieldTest cold (fun t => t.dev.rd R.VEER_STATUS_LAST_YIELD = 0xF && !t.dev.pins.yieldN) = true ∧
    after .watchdogExpiry live (fun t => t.dev.state = .yielded && t.dev.rd R.VEER_STATUS_LAST_YIELD = 4) = true ∧
    ((applied true).dev.bootStep = true ∧ (applied true).dev.boot.applied = true ∧ (applied true).dev.boot.bank < 2 ∧
      (applied true).BusFree 0x6001C) ∧
    after .wdogKick (applied true) (fun t => t.dev.state = .cold && t.dev.rd R.BOOT_STATUS_BANK = 1 &&
      t.dev.rdb R.BOOT_STATUS_FALLBACK) = true ∧
    after .watchdogExpiry (applied true) (fun t => t.dev.state = .safe) = true ∧
    after .watchdogExpiry (applied false) (fun t => t.dev.state = .boot && t.dev.boot.bank = 1) = true := by
  unfold State.BusFree; decide +kernel

def yielded : State := st (Dev.wr (f := R.VEER_STATUS_LAST_YIELD) (v := 9) ∘ as .yielded)

theorem witness_YieldHoldRestartsAndSafeAnswers :
    (yielded.dev.state = .yielded ∧ yielded.dev.rdb R.THM_STATUS_TRIP = false) ∧
    after .yieldHoldExpiry yielded (fun t => t.dev.state = .boot && t.dev.rd R.VEER_STATUS_LAST_YIELD = 9) = true ∧
    safe.dev.state = .safe ∧
    after .readBoot safe (fun t => match t.dev.out with | [.spi bs] => bs.length = 32 | _ => false) = true := by decide +kernel

theorem witness_ReadingsTripAndScrubbingYields :
    (cold.dev.off = false ∧ (List.replicate 32 (false, (-40 : Int))).length = 32 ∧
      (∀ p ∈ List.replicate 32 (false, (-40 : Int)), p.1 = false) ∧ cold.dev.rdb R.THM_STATUS_TRIP = false) ∧
    after (.thmReading (List.replicate 32 (true, 100))) cold (fun t => t.dev.rd (R.THM_SITE_TEMP 31) = 100 &&
      t.dev.rd R.THM_STATUS_TJ = 100 && t.dev.rd R.THM_STATUS_BAND = 1) = true ∧
    cold.dev.lulling .sramScrub = false ∧ cold.dev.inService = true ∧
    after (.sramScrub 13 0 .single) cold (fun t => t.dev.sram.getD 13 0 = 1) = true ∧
    after (.sramScrub 9 0 .double) cold (fun t => t.dev.rd R.VEER_STATUS_LAST_YIELD = 2) = true := by decide +kernel

/-! Registers, tables, wall time and the calendar. -/

def lateWln : State := st fun d => { d with wtm := { d.wtm with wln := 0xABCD12345678 } }

theorem witness_WlnLoReadLatchesWlnHi : lateWln.BusFree 0x20010 ∧
    after .wlnLoRead lateWln (fun t => t.dev.out = [.bus 0x12345678 false] && t.dev.rd R.WTM_WLN_HI = 0xABCD) = true := by
  unfold State.BusFree; decide +kernel

theorem witness_RegisterReads :
    (cold.BusFree 0x20008 ∧ (regAt 0x20008).isSome = true ∧ cold.start.beforeRead 0x20008 = cold.start) ∧
    (cold.BusFree 0x420010 ∧ after (.rcRead ⟨0x20008, .word⟩) cold (fun t => t.dev.out.length = 1) = true) ∧
    (cold.BusFree 0x45010C ∧ cold.BusFree 0x430118 ∧ cold.BusFree 0x4301D8) ∧
    after .arrivalLoRead (st fun d => { d with cue := { d.cue with arrival := 2 ^ 32 + 5 } })
      (fun t => t.dev.out = [.bus 5 false] && t.dev.rd R.ETH_ARRIVAL_HI = 1) = true := by
  unfold State.BusFree; decide +kernel

/-- A write of a word to ACK_TO, an RWS field: the shadow takes it and its group is dirty. -/
theorem witness_RegisterWrites : cold.BusFree R.MVL_ACK_TO.addr ∧
    (match regAt R.MVL_ACK_TO.addr with
      | some fs => decide (cold.start.bootOnly fs = false ∧ cold.start.otherWrite cold.mem R.MVL_ACK_TO.addr 3 = none ∧
          cold.dev.mirrorOn = false ∧ (fs.map Fld.key).Nodup ∧ R.WTM_COMMIT_PEND_DIRTY.key ∉ fs.map Fld.key ∧
          R.TOP_STATE.key ∉ fs.map Fld.key ∧ R.VEER_STATUS_MIRROR.key ∉ fs.map Fld.key)
      | none => false) = true ∧
    after (.registerWrite (BitVec.ofNat 32 R.MVL_ACK_TO.addr) 3 .word) cold (fun t => t.dev.rd R.MVL_ACK_TO = 3 &&
      t.dev.lv R.MVL_ACK_TO = R.MVL_ACK_TO.reset && t.dev.rd R.WTM_COMMIT_PEND_DIRTY != 0) = true ∧
    (cold.BusFree R.CMP_CANVAS_W16.addr ∧ cold.start.bootOnly ((regAt R.CMP_CANVAS_W16.addr).getD []) = true) ∧ regAt 0xFFFFFFFC = none ∧
    after (.registerWrite 0xFFFFFFFC 1 .word) cold (fun t => t.dev.out = [.bus 0 true]) = true ∧
    after (.rcRead ⟨(BitVec.ofNat 32 R.MVL_ACK_TO.addr), .dword⟩) cold (fun t => t.dev.out = [.bus 0 true]) = true ∧
    after (.registerWrite (BitVec.ofNat 32 R.MVL_ACK_TO.addr) 3 .half) cold (fun t => t.dev.out = [.bus 0 true] &&
      t.dev.rd R.MVL_ACK_TO = R.MVL_ACK_TO.reset) = true := by
  unfold State.BusFree; decide +kernel

/-- The clock of camera port 1 has stopped. -/
def stopped1 : State := st fun d => as .cold { d with clk := ⟨[(5, 1)], none⟩ }
def waiting1 (w : BusWait) : State := st fun d => as .cold { d with clk := ⟨[(5, 1)], some w⟩ }
def narrow : BusWait := ⟨0x110000, true, 0, .half, 7, false⟩

theorem witness_StoppedClocksHoldAccesses :
    (stopped1.dev.clk.wait = none ∧ stopped1.dev.accessStopped 0x110000 = true) ∧
    after (.rcRead ⟨0x110000, .word⟩) stopped1 (fun t => t.dev.clk.wait.isSome && t.dev.out.isEmpty) = true ∧
    ((waiting1 narrow).dev.off = false ∧ (waiting1 narrow).dev.clk.wait = some narrow) ∧
    after .bridgeTimeout (waiting1 narrow) (fun t => t.dev.clk.wait = none && t.dev.out = [.bus 0 true]) = true ∧
    after .bridgeTimeout (waiting1 ⟨0x110000, false, 0, .word, 7, false⟩) (fun t => t.dev.out = [.bus 0 true]) = true ∧
    after .bridgeTimeout (st fun d => { d with clk := ⟨[(5, 1)], some ⟨0x110000, false, 0, .word, 7, true⟩⟩ }) (fun t => t.dev.out.isEmpty)
      = true ∧
    (cold.dev.domainStopped 16 0 = false ∧ cold.dev.domainStopped 7 63 = false) ∧
    after (.clockStopped 7 63) cold (fun t => t.dev.clk.stopped = [(7, 63)]) = true ∧
    (fatalClock 14 = true ∧ cold.dev.inService = true) ∧
    after (.clockStopped 14 0) cold (fun t => t.dev.state = .yielded && t.dev.rd R.VEER_STATUS_LAST_YIELD = 3) = true ∧
    (let s := st fun d => as .cold { d with clk := ⟨[(7, 63)], none⟩ }
     s.dev.domainStopped 7 63 = true ∧ s.dev.clk.wait = none ∧
     after (.clockRunning 7 63) s (fun t => t.dev.clk.stopped.isEmpty) = true) := by decide +kernel

/-- WLN stands at its last value; the next boundary wraps it. -/
def lastLine : State := st fun d => running { d with wtm := { d.wtm with wln := 2 ^ 48 - 1 } }

theorem witness_WallLineNumberAndLatches :
    (boot.dev.off = false ∧ boot.dev.wtm.running = false) ∧
    (lastLine.dev.wtm.running = true ∧ lastLine.dev.inService = false ∧ lastLine.dev.lock ≠ Dev.lockAcquire ∧
      lastLine.dev.wtm.stepDue = false) ∧
    after .wallLineBoundary lastLine (fun t => t.dev.wtm.wln = 0) = true ∧
    after .wallLineBoundary (st running) (fun t => t.dev.wtm.wln = 1) = true ∧
    (cold.BusFree 0x20040 ∧ cold.BusFree 0x20044 ∧ cold.BusFree 0x20018 ∧ cold.dev.mirrorOn = false) ∧
    after (.epochWrite true 0xFFFFFFFF) cold (fun t => t.dev.wtm.epochHeld = some 0xFFFF00000000) = true ∧
    after .sampleGo cold (fun t => t.dev.wtm.sampleDue) = true := by
  unfold State.BusFree; decide +kernel

/-- The PTP reference is selected and invalid; FREE. -/
def ptpOff : State := st fun d => set R.WTM_CTRL_SOURCE 1 (as .cold d)
/-- LOCKED on PTP, which is valid. -/
def ptpOn (src : Nat) : State := st fun d => set R.WTM_CTRL_SOURCE src (set R.WTM_STATUS_LOCK Dev.lockLocked (as .cold
  { d with wtm := { d.wtm with ptpValid := true, frefValid := true } }))

theorem witness_ReferencesMoveLockState :
    (ptpOff.dev.off = false ∧ ptpOff.dev.refSource = 1 ∧ ptpOff.dev.wtm.ptpValid = false ∧ ptpOff.dev.lock = Dev.lockFree) ∧
    after (.referenceValid .ptp) ptpOff (fun t => t.dev.lock = Dev.lockAcquire) = true ∧
    ((ptpOn 1).dev.refSource = 1 ∧ (ptpOn 1).dev.wtm.ptpValid = true ∧ (ptpOn 1).dev.lock = Dev.lockLocked) ∧
    after (.referenceLost .ptp) (ptpOn 1) (fun t => t.dev.lock = Dev.lockHoldover && t.dev.rd R.WTM_STATUS_LOSSES = 1) = true ∧
    ((ptpOn 2).dev.refSource = 2 ∧ (ptpOn 2).dev.wtm.frefValid = true ∧ (ptpOn 2).dev.lock = Dev.lockLocked) ∧
    after .frameRefMissing (ptpOn 2) (fun t => t.dev.lock = Dev.lockHoldover) = true ∧
    (cold.dev.wtm.frefEdge = none) ∧
    after (.frameRefEdge true 5) cold (fun t => t.dev.wtm.frefEdge = some 5) = true ∧
    ((ptpOn 2).BusFree 0x20000 ∧ (ptpOn 2).dev.mirrorOn = false) ∧
    after (.sourceWrite 0x19000001) (ptpOn 2) (fun t => t.dev.rd R.WTM_CTRL_SOURCE = 1 && t.dev.lock = Dev.lockAcquire &&
      t.dev.rd R.WTM_CTRL_FREF_DIV = 25) = true := by
  unfold State.BusFree; decide +kernel

/-- A staged CUE entry for wall line 9, tag 5. -/
def staged (tgt : Nat) : State := st fun d => (((running (as .cold d)).wr (R.WTM_CAL_W_W 0) tgt).wr (R.WTM_CAL_W_W 1) 0x02000005).wr
  (R.WTM_CAL_W_W 2) 1

theorem witness_CalendarAndCommits_calendar : cold.BusFree 0x20214 ∧
    after .calInsert (staged 9) (fun t => t.dev.rd R.WTM_CAL_STATUS_ERROR =
      (staged 9).start.calCheck 9 2 0 1 0 && (t.dev.cal.entries.length = 1 || t.dev.rd R.WTM_CAL_STATUS_ERROR != 0)) = true ∧
    after .calCancel (st fun d => (as .cold { d with cal := ⟨[⟨9, 2, 0, 5, 1, 0, false⟩, ⟨8, 2, 0, 6, 1, 0, false⟩], [], []⟩}).wr
      (R.WTM_CAL_W_W 1) 5) (fun t => t.dev.cal.entries.length = 1 && t.dev.rd R.WTM_CAL_STATUS_REMOVED = 1 &&
        t.dev.rd R.WTM_CAL_STATUS_ERROR = 0) = true := by
  unfold State.BusFree; decide +kernel

theorem witness_CalendarAndCommits_commits : (cold.BusFree 0x20080 ∧ cold.dev.mirrorOn = false) ∧
    after (.commitArmWrite 0x105) cold (fun t => t.dev.rd R.WTM_COMMIT_ARM_ARM = 5) = true ∧
    groupOfKey R.MVL_ACK_TO.key ≠ none ∧
    (((cold.dev.wr R.MVL_ACK_TO 77).commitGroup ((groupOfKey R.MVL_ACK_TO.key).getD 0)).cm R.MVL_ACK_TO = 77) := by
  unfold State.BusFree; decide +kernel

/-- The last entry of the Tile Table is selected. -/
def tblAt : State := st fun d => (((as .cold d).wr R.TBL_SEL_TABLE 2).wr R.TBL_INDEX 4095).wr (R.TBL_DATA_D 0) 0x11223344
def tblLoading : State := st fun d => as .cold { d with tbl := { d.tbl with load := some ⟨2, 0, 4095, 1, 4096⟩ } }

theorem witness_TableAccessActsOnShadows :
    (tblAt.BusFree 0x1000008 ∧ tblAt.start.tblCheck = 0 ∧ tblAt.dev.mirrorOn = false ∧ tblAt.dev.tblGroup 2 < 8) ∧
    after .tblWrite tblAt (fun t => t.dev.rd R.TBL_STATUS_ERROR = 0 && (t.dev.tblEntry 2 0 4095).take 4 = [0x44, 0x33, 0x22, 0x11] &&
      t.dev.tblLive 2 0 (4095 * 256) = 0) = true ∧
    after .tblRead tblAt (fun t => t.dev.rd (R.TBL_DATA_D 0) = 0) = true ∧
    cold.BusFree 0x1000000 ∧
    after (.tblSelWrite 0x10702) tblAt (fun t => t.dev.rd R.TBL_SEL_TABLE = 2 && t.dev.rd R.TBL_SEL_INSTANCE = 7 &&
      t.dev.rd (R.TBL_DATA_D 0) = 0) = true := by
  unfold State.BusFree; decide +kernel

theorem witness_TableLoadsAndPageMoves :
    (tblAt.BusFree 0x100002C ∧ tblAt.dev.tbl.load = none ∧ Dev.tblEsize 2 0 ≠ 0 ∧
      tblAt.dev.rd R.TBL_INDEX + tblAt.dev.rd R.TBL_LOAD_COUNT_COUNT ≤ tblAt.dev.tblEntries 2 0) ∧
    after .tblLoadGo tblAt (fun t => t.dev.tbl.load = none && t.dev.rd R.TBL_STATUS_ERROR = 0) = true ∧
    after .tblLoadGo (st fun d => (((as .cold d).wr R.TBL_SEL_TABLE 2).wr R.TBL_INDEX 4095).wr R.TBL_LOAD_COUNT_COUNT 1)
      (fun t => t.dev.tbl.load.isSome) = true ∧
    (tblLoading.dev.tbl.load = some ⟨2, 0, 4095, 1, 4096⟩) ∧
    after (.tblLoadDone none) tblLoading (fun t => t.dev.tbl.load = none && t.dev.rd R.TBL_STATUS_ERROR = 0) = true ∧
    after (.tblLoadDone (some 0)) tblLoading (fun t => t.dev.rd R.TBL_INDEX = 4095 && t.dev.rd R.TBL_STATUS_ERROR = 4) = true ∧
    (tblLoading.dev.poison = [] ∧ tblLoading.dev.late = [] ∧ 4096 + Dev.tblEsize 2 0 * 1 ≤ tblLoading.dev.dramC) ∧
    (let s : State := { tblLoading with
       mem := Memory.writes [] 4096 [0xFF, 1, 2, 3, 4, 5], dev := { tblLoading.dev with tbl := { tblLoading.dev.tbl with load := some ⟨1, 0, 9, 1, 4096⟩ } } }
     s.dev.mirrorOn = false ∧
     after (.tblLoadDone none) s (fun t => t.dev.tblEntry 1 0 9 = [0xFC, 1, 2, 3, 4, 5] && t.dev.rd R.TBL_STATUS_ERROR = 0) = true) ∧
    after .pageMoveOnchip tblAt (fun _ => true) = true := by
  unfold State.BusFree; decide +kernel

/-! Cameras, colour, stores and scan-out. -/

/-- Port 3 is bound, at its smallest size, 64 × 16. -/
def cam3 (f : CamPart → CamPart) (x : DevState) : State := st fun d =>
  set (R.CAM_CTRL_EN 3) 1 (set (R.CAM_GEOM_WIDTH 3) 64 (set (R.CAM_GEOM_HEIGHT 3) 16 (as x (d.putCam 3 (f CamPart.reset)))))

/-- A frame of port 3 is in progress. -/
def cam3In (x : DevState) : State := let s := cam3 (fun c => { c with vs := false, lastStart := some 0 }) x
  { s with dev := s.dev.wr (R.CAM_STATUS_IN_FRAME 3) 1 }

theorem witness_CameraFramesAndLines :
    ((cam3 id .cold).dev.off = false ∧ (cam3 id .cold).dev.nextSizeOk 3 = true ∧ ((cam3 id .cold).dev.cam 3).vs = true) ∧
    (st (set (R.CAM_CTRL_EN 3) 1 ∘ set (R.CAM_GEOM_WIDTH 3) 62)).dev.nextSizeOk 3 = false ∧
    (st (set (R.CAM_CTRL_EN 3) 1 ∘ set (R.CAM_GEOM_HEIGHT 3) 16386)).dev.nextSizeOk 3 = false ∧
    after (.camFrameStart 3 ⟨9, 148500⟩) { cam3 id .cold with dev := (cam3 id .cold).dev.wr (R.CAM_STATUS_CLK_RUN 3) 1 } (fun t => t.dev.rd (R.CAM_CLK_KHZ 3) = 148500 && !(t.dev.cam 3).vs && t.dev.rd (R.CAM_STATUS_IN_FRAME 3) = 1 &&
      t.dev.rd (R.CAM_FRAMES 3) = 1 && (t.dev.cam 3).lastStart = some 9) = true ∧
    (((cam3In .cold).dev.cam 3).vs = false ∧ (cam3In .cold).dev.rdb (R.CAM_STATUS_IN_FRAME 3) = true ∧
      ((cam3In .cold).dev.cam 3).rows.length < (cam3In .cold).dev.lv (R.CAM_GEOM_HEIGHT 3)) ∧
    after (.camFrameEnd 3 9) (cam3In .cold) (fun t => (t.dev.cam 3).vs && (t.dev.cam 3).lastRise = some 9) = true ∧
    (Dev.lineTransfers 64 12 = 24 ∧ (cam3In .cold).dev.camDepth 3 = 12) ∧
    after (.camLine 3 ⟨0, 148500⟩ (List.replicate 24 0xFFFFFFFF) none) (cam3In .cold)
      (fun t => (t.dev.cam 3).rows = [List.replicate 64 4095]) = true ∧
    after (.camLine 3 ⟨0, 148500⟩ [] none) (cam3In .cold) (fun t => (t.dev.cam 3).rows.map List.length = [64]) = true := by decide +kernel

def checking (vs : Bool) : State := cam3 (fun c => { c with vs := vs, lastStart := some 0, check := some 7 }) .cold

/-- A Draught-path layer takes camera 3, which has begun a frame. -/
def slotOpen (x : CamPart → CamPart) : State := let s := cam3 (fun c => x { c with lastStart := some 0 }) .live
  { s with dev := set (R.CMP_LAYER_CTRL_EN 0) 1 (set (R.CMP_LAYER_CTRL_KIND 0) 1 (set (R.CMP_LAYER_CTRL_SOURCE 0) 3
    (set (R.CMP_LAYER_CTRL_PATH 0) 0 s.dev))) }
def lost3 : State := let s := slotOpen id
  { s with dev := s.dev.wr (R.CAM_STATUS_LOST 3) 1 }

theorem witness_MarkedAndMissingFrames :
    (((checking false).dev.cam 3).check = some 7 ∧ (7 : Nat) = (7 : Word).toNat ∧
      (checking false).dev.lvb (R.CAM_CTRL_CHECK_EN 3) = true) ∧
    after (.camCheckWord 3 ⟨false, 8⟩) (checking false) (fun t => bit (t.dev.cam 3).marks 0 && t.dev.rd (R.CAM_CHECK_ERR 3) = 1) = true ∧
    after (.camGlitch 3) (checking true) (fun t => (t.dev.cam 3).clkNext) = true ∧
    after (.camGlitch 3) (checking false) (fun t => bit (t.dev.cam 3).marks 4) = true ∧
    (((slotOpen id).dev.cam 3).lastStart = some 0 ∧ (slotOpen id).dev.portDraught 3 = true ∧ (slotOpen id).dev.pipesRun = true ∧
      (slotOpen id).dev.lvb (R.CAM_CTRL_EN 3) = true ∧ ((slotOpen id).dev.cam 3).slotDone = false ∧
      (slotOpen id).dev.rdb (R.CAM_STATUS_LOST 3) = false) ∧
    after (.missedSlot 3) (slotOpen id) (fun t => t.dev.rd (R.CAM_MISSED 3) = 1 && t.dev.rd (R.CAM_STATUS_REPLACING 3) = 1) = true ∧
    after (.frameTimeout 3) (slotOpen id) (fun t => t.dev.rdb (R.CAM_STATUS_LOST 3)) = true ∧
    (lost3.dev.rdb (R.CAM_STATUS_LOST 3) = true ∧ lost3.dev.pipesRun = true ∧ lost3.dev.lvb (R.CAM_CTRL_EN 3) = true ∧
      lost3.dev.rdb (R.CAM_STATUS_IN_FRAME 3) = false) := by decide +kernel

def statWaits : State := cam3 (fun c => { c with stat := some [1, 2, 3] }) .live
/-- DEF_ADDR selects the last entry of the bank that is not live. -/
def defSel (bank : Nat) : State := st fun d => (((as .cold d).wr (R.RAWP_DEF_ADDR_BANK 3) bank).wr (R.RAWP_DEF_ADDR_INDEX 3) 65535).wr
  (R.RAWP_DEF_ADDR_AUTOINC 3) 1

theorem witness_StatisticsHistoryAndDefects :
    (statWaits.Sound ∧ statWaits.dev.poison = [] ∧ (statWaits.dev.cam 3).stat = some [1, 2, 3]) ∧
    after (.statsWriteDone 3) statWaits (fun t => t.mem = [(0, 1), (1, 2), (2, 3)] && t.dev.rd (R.RAWP_STAT_SEQ 3) = 1) = true ∧
    (cold.BusFree 0x180088 ∧ cold.BusFree 0x1F0088 ∧ (defSel 1).BusFree 0x1B0040 ∧ (defSel 1).dev.mirrorOn = false) ∧
    ((defSel 1).dev.rd (R.RAWP_DEF_ADDR_BANK 3) ≠ (defSel 1).dev.lv (R.RAWP_CTRL_DEF_BANK 3)) ∧
    after (.defDataAccess 3 (some 0x1234)) (defSel 1) (fun t => SMap.get (t.dev.defects.getD 3 ⟨[]⟩).vals 131071 = 0x1234 &&
      t.dev.rd (R.RAWP_DEF_ADDR_INDEX 3) = 65536 % 2 ^ (R.RAWP_DEF_ADDR_INDEX 3).width) = true ∧
    ((defSel 0).dev.rd (R.RAWP_DEF_ADDR_BANK 3) = (defSel 0).dev.lv (R.RAWP_CTRL_DEF_BANK 3)) ∧
    after (.defDataAccess 3 (some 0x1234)) (defSel 0) (fun t => t.dev.out = [.bus 0 true]) = true ∧
    after (.defDataAccess 3 none) (defSel 0) (fun t => t.dev.rd (R.RAWP_DEF_DATA_DATA 3) = 0) = true := by
  unfold State.BusFree State.Sound; decide +kernel

def lutSel (kind bank : Nat) : State := st fun d => (((((as .cold d).wr R.CLR_LUT_SEL_KIND kind).wr R.CLR_LUT_SEL_BANK bank).wr
  R.CLR_LUT_SEL_INSTANCE 7).wr R.CLR_LUT_SEL_INDEX 1024).wr R.CLR_LUT_SEL_AUTOINC 1
def coefSel (bank : Nat) : State := st fun d => (((as .cold d).wr R.CMP_COEF_SEL_BANK bank).wr R.CMP_COEF_SEL_INDEX 4095).wr
  R.CMP_COEF_SEL_AUTOINC 1

theorem witness_LookupDataAndAmbientReadings :
    ((lutSel 1 1).BusFree 0x202004 ∧ lutRefused false (lutSel 1 1).start = false ∧ lutRefused true (lutSel 1 1).start = false ∧
      (lutSel 1 1).dev.mirrorOn = false) ∧
    after (.lutDataAccess (some 0xFFFFFFFF)) (lutSel 1 1) (fun t => SMap.get t.dev.clr.luts (lutKey 1 7 1 0 1024) = 0xFFFFFF &&
      t.dev.rd R.CLR_LUT_SEL_INDEX = 1025) = true ∧
    (lutRefused true (lutSel 1 0).start = true ∧ lutRefused true (lutSel 0 1).start = true) ∧
    after (.lutDataAccess (some 1)) (lutSel 1 0) (fun t => t.dev.out = [.bus 0 true] && t.dev.clr.luts.isEmpty) = true ∧
    ((coefSel 1).BusFree 0x210024 ∧ (coefSel 1).dev.rd R.CMP_COEF_SEL_BANK ≠ (coefSel 1).dev.lv R.CMP_CFG_COEF_BANK) ∧
    after (.coefDataAccess (some 0xFABC)) (coefSel 1) (fun t => SMap.get t.dev.cmp.coefs 8191 = 0xABC &&
      t.dev.rd R.CMP_COEF_SEL_INDEX = 0) = true ∧
    ((coefSel 0).dev.rd R.CMP_COEF_SEL_BANK = (coefSel 0).dev.lv R.CMP_CFG_COEF_BANK) ∧
    after (.coefDataAccess (some 1)) (coefSel 0) (fun t => t.dev.out = [.bus 0 true]) = true ∧
    (boot.dev.off = false ∧ boot.dev.state = .boot ∧ cold.dev.state ≠ .boot ∧ cold.dev.state ≠ .safe) ∧
    after (.ambientReading []) cold (fun t => t.dev.rdb R.CLR_LOOP_STATUS_AMB_NONE) = true := by
  unfold State.BusFree; decide +kernel

def rowReady : State := cam3 (fun c => { c with outRows := [[⟨1, 2, 3⟩]] }) .live
/-- A frame of 3 bytes waits for store 31; all four of its buffers are held, or none. -/
def storeWaits (held : Bool) : State := st fun d => as .live { d with cmp := { d.cmp with
  waiting := [⟨31, [1, 2, 3], 0, 0, none, .stream, none⟩], holds := if held then (Dev.bufs 31).map fun b => (b, 1) else [] } }

theorem witness_RowsAndFrameStores :
    (rowReady.dev.pipesRun = true ∧ (rowReady.dev.cam 3).taken < (rowReady.dev.cam 3).outRows.length) ∧
    after (.windowRowEntry 3 0) rowReady (fun t => (t.dev.cam 3).taken = 1) = true ∧
    (cold.dev.pipesRun = false) ∧
    ((storeWaits false).Sound ∧ (storeWaits false).dev.poison = [] ∧
      (storeWaits false).dev.cmp.waiting.find? (fun f => f.fs = 31) = some ⟨31, [1, 2, 3], 0, 0, none, .stream, none⟩ ∧
      ((Dev.pickBuf [] (storeWaits false).start ⟨31, [1, 2, 3], 0, 0, none, .stream, none⟩).1).isSome = true) ∧
    after (.frameStoreWrite 31) (storeWaits false) (fun t => t.dev.cmp.waiting.isEmpty && !t.mem.isEmpty) = true ∧
    (Dev.pickBuf [] (storeWaits true).start ⟨31, [1, 2, 3], 0, 0, none, .stream, none⟩ = (none, false)) ∧
    after (.frameStoreWrite 31) (storeWaits true) (fun t => t.dev.rd (R.CMP_FS_WDROP 31) = 1 && t.mem.isEmpty) = true := by
  unfold State.Sound; decide +kernel

/-- A batt of lane 9 falls due; pixel (5, 6) was missed. -/
def battWaits : State := st fun d =>
  let d := as .live d
  { d.putLane 9 { d.lane 9 with due := [⟨100, 0, 0, 0, 0, true, 0, 0, 0, 0, 0, true, 0, 50⟩] } with
    scn := { d.scn with missed := [Dev.pixKey 5 6], absent := [Dev.pixKey 7 6] } }

theorem witness_BattsTakenAndLatePixelsCounted :
    ((battWaits.dev.lane 9).due = [⟨100, 0, 0, 0, 0, true, 0, 0, 0, 0, 0, true, 0, 50⟩]) ∧
    after (.scanoutPixel 5 6) battWaits (fun t => t.dev.rd (R.SCN_LATE_PX 0) = 1 && t.dev.scn.missed.isEmpty) = true ∧
    after (.scanoutPixel 7 6) battWaits (fun t => t.dev.rd (R.SCN_LATE_PX 0) = 0 && t.dev.scn.absent.isEmpty) = true := by
  decide +kernel

/-! The tile link. -/

/-- Lane 9 carries tiles 100 and 101; its octet is in a mode, it is up and in block lock. -/
def lane9 (mode : Nat) (f : Lane → Lane) (g : Dev → Dev) : State := st fun d =>
  let d := (((as .live d).wr (R.LNE_OCT_STATUS_MODE 1) mode).wr (R.MVL_LSTAT_UP 9) 1)
  let d := { d with link := { d.link with chains := d.link.chains.set 9 [100, 101] } }
  g (d.putLane 9 (f { d.lane 9 with lock := true }))

/-- A packet of tile 100, sent n times, that leaves line 2000. -/
def pkt (n : Nat) : Pkt := ⟨100, 7, 1, 2000, 2000, beBytes 16 1, n, 0, false, false⟩
def vr : Vr := ⟨100, 0, 0, 1, 0, false, none, 0⟩

theorem witness_LanesSendFromTheirQueues :
    (∀ n, n < 3 → let s := lane9 2 (fun l => { l with fifo := [pkt n] }) fun d => d.putTile { d.tileLink 100 with own := 1 }
      s.dev.laneSends 9 = true ∧ s.dev.silenced = false ∧ (s.dev.lane 9).fifo[(s.dev.lane 9).tx]? = some (pkt n) ∧
      s.dev.maySend 100 2000 = true ∧
      s.dev.pastDeadline 2000 = false ∧ s.dev.laneMode 9 = 2 ∧ s.dev.tileStale 100 = false ∧
      after (.packetTransmit ⟨9, []⟩) s (fun t => (t.dev.lane 9).fifo.map Pkt.sends = [n + 1] &&
        t.dev.rd (R.MVL_TX_PKT 9) = (if n = 0 then 1 else 0) && t.dev.rd (R.MVL_RESENT 9) = (if n = 0 then 0 else 1)) = true) ∧
    (lane9 2 id id).dev.NotComingUp 9 ∧ (cold.dev.laneSends 9 = false) ∧
    ((lane9 1 id id).dev.rd (R.LNE_OCT_STATUS_MODE 1) ≠ 0 ∧ (lane9 1 id id).dev.rdb (R.LNE_OCT_STATUS_CHANGING 1) = false) ∧
    after (.alignmentMarker 1) (lane9 1 id id) (fun t => t.dev.out.length = 8 && (t.dev.octet 1).mcount = 1) = true ∧
    (let s := lane9 2 (fun l => { l with vrs := [vr] }) id
     s.dev.laneSends 9 = true ∧ (s.dev.lane 9).vrs = [vr] ∧ (s.dev.lane 9).fifo = [] ∧
     after (.vrRepeat 9) s (fun t => t.dev.out.length = 1 && (t.dev.lane 9).vrs = [{ vr with sent := some 0 }])
       = true) ∧
    (let s := lane9 2 (fun l => { l with wait := [⟨100, 1, 2000, 2000, 0, 0, 0, [], [], 0, 5⟩] }) id
     after (.fifoWrite ⟨9, []⟩) s (fun t => (t.dev.lane 9).wait.isEmpty && (t.dev.lane 9).fifo.length = 1) = true) ∧
    (let s := lane9 2 (fun l => { l with fifo := [pkt 0] }) id
     s.dev.maySend 100 2000 = false ∧ (s.dev.lane 9).wait = [] ∧ (s.dev.lane 9).tx = 0 ∧ Ecc.double ∈ [Ecc.double].take (Dev.pktWords (pkt 0)) ∧
     after (.fifoWrite ⟨9, [.double]⟩) s (fun t => (t.dev.lane 9).fifo.isEmpty && t.dev.rd (R.MVL_EXHAUSTED 9) = 1) = true ∧
     after (.packetTransmit ⟨9, []⟩) s (fun t => t.dev.out.isEmpty && (t.dev.lane 9).fifo = [pkt 0]) = true) ∧
    (let s := lane9 2 (fun l => { l with fifo := [pkt 0] }) fun d => d.putTile { d.tileLink 100 with own := 1 }
     after (.packetTransmit ⟨9, [.double]⟩) s (fun t => (t.dev.lane 9).fifo.isEmpty && t.dev.rd (R.MVL_EXHAUSTED 9) = 1) = true) := by
  have h : (lane9 2 id id).dev.NotComingUp 9 := by
    intro e he
    rw [show ((lane9 2 id id).dev.lane 9).enum = none by decide +kernel] at he
    cases he
  refine ⟨?_, h, ?_⟩ <;> decide +kernel

/-- The bytes of a return packet from its first fields: type, tile, status, SEQ and the 14 bits after it; the rest is 0. -/
def ret (n type tile status seq more : Nat) : List Byte :=
  let body := beBytes (n - 2) ((((((type * 16 + 1) * 4096 + tile) * 64) * 4 * 16 + status) * 65536 + seq) * 2 ^ (8 * n - 64)
    + more)
  body ++ beBytes 2 (linkCrc body)

/-- A return packet as it comes on a line whose scrambler starts at 0. -/
def blocks (bs : List Byte) : List (BitVec 130) := (linkBlocks 0 bs).1

def retIs (bs : List Byte) (p : Ret → Bool) : Bool := match parseRet bs with
  | some r => p r
  | none => false

theorem witness_ReturnPacketsAct :
    (∀ x : Nat, x ≤ 5 → retIs (ret 16 8 100 x 7 0) (fun r => r.type = 8 && r.status = x && r.tile = 100 && r.seq = 7 &&
      r.end_ = (lane9 2 id id).dev.myEnd) = true) ∧
    parseRet [] = none ∧ ((lane9 2 id id).dev.lane 9).lock = true ∧ (cold.dev.lane 9).lock = false ∧
    after (.akReceive 9 (blocks (List.replicate 16 0x80))) (lane9 2 id id) (fun t => t.dev.rd (R.MVL_RX_BAD 9) = 1) = true ∧
    after (.akReceive 9 (blocks (ret 16 8 100 0 7 0))) (lane9 2 (fun l => { l with fifo := [pkt 1], tx := 1 }) id)
      (fun t => (t.dev.lane 9).fifo.all Pkt.released) = true ∧
    after (.akReceive 9 (blocks (ret 16 8 100 5 7 0))) (lane9 2 (fun l => { l with vrs := [vr] }) id)
      (fun t => t.dev.rd (R.MVL_VR_REFUSED 9) = 1) = true ∧
    (let s := lane9 2 (fun l => { l with vrs := [{ vr with sent := some 0 }] }) id
     (s.dev.lane 9).vrs.find? (fun v => v.tile = 100 && v.sent.isSome) = some { vr with sent := some 0 } ∧
     s.dev.state = .live ∧ s.dev.pair.refusing = false ∧
     after (.akReceive 9 (blocks (ret 16 8 100 4 7 0))) s (fun t => bit (t.dev.tileLink 100).own 0 && (t.dev.lane 9).vrs.isEmpty) = true) ∧
    (let s := lane9 2 (fun l => { l with fifo := [pkt 1], tx := 1 }) id
     retIs (ret 16 9 100 0 7 0) (fun r => r.type = 9) = true ∧ s.dev.findPkt 9 100 7 = some (0, pkt 1) ∧
     after (.nkReceive 9 (blocks (ret 16 9 100 0 7 0))) s (fun t => (t.dev.lane 9).tx = 0 && t.dev.rd (R.MVL_NK_RX 9) = 1) = true ∧
     s.dev.findPkt 9 100 8 = none ∧
     after (.nkReceive 9 (blocks (ret 16 9 100 0 8 0))) s (fun t => t.dev.rd (R.MVL_NK_IGNORED 9) = 1) = true) ∧
    (∀ x : Nat, x ≤ 2 → retIs (ret 32 10 100 x 7 0) (fun r => r.type = 10 && r.status = x) = true) ∧
    (let s := lane9 2 id id
     s.dev.clr.reported.contains 100 = false ∧
     after (.tlReceive 9 (blocks (ret 32 10 100 0 7 (0x1234 * 2 ^ (256 - 136 - 16))))) s
       (fun t => (t.dev.tileLink 100).fseq = 7) = true) ∧
    (let s := lane9 2 id fun d => { d with link := { d.link with ct := some ⟨100, 2, 0, 2000, some 7⟩ } }
     s.dev.link.ct = some ⟨100, 2, 0, 2000, some 7⟩ ∧
     after (.tlReceive 9 (blocks (ret 32 10 100 1 7 0))) s (fun t => t.dev.link.ct.isNone && t.dev.rd R.MVL_CT_STATUS_DONE = 1) = true) ∧
    (let s := lane9 2 id fun d => { d with link := { d.link with ct := some ⟨100, 1, 0, 2000, some 7⟩ } }
     after (.akReceive 9 (blocks (ret 16 8 100 0 7 0))) s (fun t => t.dev.link.ct.isNone && t.dev.rd R.MVL_CT_STATUS_DONE = 1 &&
       t.dev.rd R.MVL_CT_STATUS_ERROR = 0) = true ∧
     after (.akReceive 9 (blocks (ret 16 8 100 2 7 0))) s (fun t => t.dev.rd R.MVL_CT_STATUS_ERROR = 4) = true) ∧
    (lane9 2 id id).dev.pair.claiming = false ∧
    (let s := lane9 2 (fun l => { l with enum := some ⟨some 5, [(101, 1)], false⟩ }) id
     after (.tlReceive 9 (blocks (ret 32 10 100 2 7 0))) s (fun t => (t.dev.lane 9).enum = some ⟨some 5, [(101, 1), (100, 0)], false⟩) = true)
    := by decide +kernel

theorem witness_ReceiversAndLinkTimers :
    after (.returnPacketBad ⟨9, (blocks (List.replicate 16 0x80))⟩) (lane9 2 id id) (fun t => t.dev.rd (R.MVL_RX_BAD 9) = 1) = true ∧
    after (.blockLockLost 9 (List.replicate 16 0)) (lane9 2 id id) (fun t => !(t.dev.lane 9).lock && t.dev.rd (R.MVL_BLOCK_ERR 9) = 16) = true ∧
    after (.blockLockAcquired ⟨9, (List.replicate 64 (BitVec.ofNat 130 (2 ^ 128)))⟩) (lane9 2 (fun l => { l with lock := false }) id) (fun t => (t.dev.lane 9).lock) = true ∧
    (let s := lane9 2 (fun l => { l with fifo := [pkt 1], tx := 1, upTo := 0 }) id
     (s.dev.lane 9).pause = none ∧ ((s.dev.lane 9).fifo.zipIdx.find? fun q => !q.1.released && decide (0 < q.1.sends)) = some (pkt 1, 0) ∧
     ((s.dev.lane 9).tx ≤ 0 → (s.dev.lane 9).upTo ≤ 0) ∧
     after (.ackTimeout 9) s (fun t => t.dev.rd (R.MVL_ACK_TIMEOUT 9) = 1 && (t.dev.lane 9).tx = 0) = true) ∧
    (let s := lane9 2 (fun l => { l with fifo := [pkt 1], tx := 1 }) fun d => { d with wtm := { d.wtm with wln := 2000 } }
     s.dev.pastDeadline 2000 = true ∧ after (.packetDeadline 9) s (fun t => (t.dev.lane 9).fifo.all Pkt.released) = true) ∧
    (let s := lane9 2 id fun d => { d with wtm := { d.wtm with wln := 2000 }, link := { d.link with ct := some ⟨100, 1, 0, 2000, some 7⟩ } }
     s.dev.tilePlace 100 = some (9, 0) ∧ after (.packetDeadline 9) s (fun t => t.dev.link.ct.isNone && t.dev.rd R.MVL_CT_STATUS_ERROR = 3) = true) ∧
    (let s := lane9 2 (fun l => { l with pause := some 0, fifo := [pkt 1], tx := 1 }) id
     s.dev.laneTested 9 = false ∧ (s.dev.lane 9).pause.isSome = true ∧
     after (.akReceive 9 (blocks (ret 16 8 100 0 7 0))) s (fun t => (t.dev.lane 9).fifo = [pkt 1]) = true) ∧
    (let s := lane9 2 (fun l => { l with fifo := [pkt 1], tx := 1 }) fun d => { d with link := { d.link with heard := [(100, 0)] } }
     s.dev.tilePlace 100 = some (9, 0) ∧ (s.dev.link.heard.find? fun h => h.1 = 100) = some (100, 0) ∧
     s.dev.tileStale 100 = false ∧ s.dev.laneUp 9 = true ∧
     after (.tileStale 100) s (fun t => t.dev.tileStale 100 && (t.dev.lane 9).fifo.all Pkt.released) = true) ∧
    (let s := lane9 2 (fun l => { l with enum := some ⟨some 5, [(100, 0), (101, 1)], false⟩ }) id
     (s.dev.lane 9).enum = some ⟨some 5, [(100, 0), (101, 1)], false⟩ ∧ s.dev.enumTiles 9 ≠ [] ∧
     after (.enumWindowEnd 9) s (fun t => t.dev.rd (R.MVL_LSTAT_FOUND 9) = 2 && !t.dev.rdb (R.MVL_LSTAT_MISWIRED 9)) = true) ∧
    (let s := lane9 2 (fun l => { l with enum := some ⟨some 5, [(101, 0)], false⟩ }) id
     after (.enumWindowEnd 9) s (fun t => t.dev.rdb (R.MVL_LSTAT_MISWIRED 9)) = true) := by decide +kernel

/-- This end owns tile 100. -/
def owned : State := lane9 2 id fun d => d.putTile { d.tileLink 100 with own := 1 }

theorem witness_ControlTransferStarts :
    (owned.BusFree 0x240040 ∧ owned.dev.mirrorOn = false ∧ owned.dev.rdb R.MVL_CT_STATUS_BUSY = false ∧
      owned.dev.tilePlace 100 = some (9, 0) ∧ owned.dev.tilePlace 4095 = none ∧ owned.dev.laneUp 9 = true ∧
      owned.dev.rdb (R.MVL_LSTAT_MISWIRED 9) = false ∧ owned.dev.maySend 100 owned.dev.ctDline = true) ∧
    after (.ctWrite 100) owned (fun t => t.dev.rd R.MVL_CT_STATUS_BUSY = 1 && (t.dev.lane 9).wait.map Draft.op = [1]) = true ∧
    after (.ctSetPosition 101) owned (fun t => (t.dev.lane 9).wait.map Draft.data = [1]) = true ∧
    after (.ctRead 4095) owned (fun t => t.dev.rd R.MVL_CT_STATUS_ERROR = 2) = true ∧
    after (.ctRead 100) { owned with dev := { owned.dev with link := { owned.dev.link with ct := some ⟨100, 1, 0, 0, none⟩ } } } (fun t => t.dev.rd R.MVL_CT_STATUS_ERROR = 1)
      = true := by
  unfold State.BusFree; decide +kernel

/-- Octet 1 at a step of a change of mode. -/
def octet1 (mode step dest : Nat) : State := lane9 mode id fun d => d.putOctet 1 { d.octet 1 with step := step, dest := dest, goal := dest }

theorem witness_OctetsChangeModeInSteps :
    (cold.BusFree 0x310000 ∧ cold.dev.rd (R.LNE_OCT_CTRL_MODE_REQ 1) = 0 ∧ (cold.dev.octet 1).step = 0 ∧
      (cold.dev.octet 1).enum = false) ∧
    after (.modeReqWrite 1 2) cold (fun t => t.dev.rd (R.LNE_OCT_STATUS_CHANGING 1) = 1 && (t.dev.octet 1).step = 3 &&
      (t.dev.octet 1).dest = 1 && (t.dev.octet 1).goal = 2) = true ∧
    after (.modeReqWrite 1 3) cold (fun t => t.dev.rd (R.LNE_OCT_CTRL_MODE_REQ 1) = 3 && (t.dev.octet 1).step = 0) = true ∧
    after (.modeReqWrite 1 2) (octet1 1 0 0) (fun t => (t.dev.octet 1).step = 1 && (t.dev.octet 1).dest = 2) = true ∧
    (((octet1 2 1 0).dev.octet 1).step = 1 ∧ ((octet1 2 1 0).dev.octet 1).dest = 0) ∧
    after (.octetIdleDrained 1) (octet1 2 1 0) (fun t => t.dev.rd (R.LNE_OCT_STATUS_MODE 1) = 0 && !t.dev.laneUp 9) = true ∧
    after (.octetIdleDrained 1) (octet1 1 1 2) (fun t => (t.dev.octet 1).step = 2) = true ∧
    after (.octetFckStart 1) (octet1 1 2 2) (fun t => (t.dev.octet 1).step = 3) = true ∧
    after (.octetTrainingEnd 1) (octet1 0 3 1) (fun t => t.dev.rd (R.LNE_OCT_STATUS_MODE 1) = 1 && t.dev.rd (R.LNE_MODE_CHANGES 1) = 1 &&
      (t.dev.lane 9).enum = some ⟨none, [], false⟩) = true := by
  unfold State.BusFree; decide +kernel

def paired : State := st fun d => (as .live d).wr R.TOP_STATE_PAIRED 1
def aligned (n p : Nat) (f : PairLane → PairLane) : State := st fun d => ((as .live (d.putPlane p (f (d.plane1 p)))).wr R.PAIR_STATUS_ALIGNED n)

/-- Four aligned pairing lanes, in their order, in far-end loopback. -/
def loopback (p : Nat) (f : PairLane → PairLane) : State :=
  let s := st fun d => (((as .live d).wr R.PAIR_STATUS_ALIGNED 15).wr R.PAIR_STATUS_MAP 0xE4).wr R.PAIR_CTRL_TEST 3
  { s with dev := s.dev.putPlane p (f { s.dev.plane1 p with slot := some 9 }) }

theorem witness_LaneTestsAndPairingLanes :
    ((lane9 2 id id).BusFree 0x310140 ∧ (lane9 2 id id).dev.laneUp 9 = true ∧ cold.dev.laneUp 9 = false ∧
      cold.dev.laneChanging 9 = false) ∧
    after (.laneTestWrite (some 9) 0x430) (lane9 2 id id) (fun t => t.dev.out = [.bus 0 true]) = true ∧
    after (.laneTestWrite (some 9) 0x530) (lane9 2 id id) (fun t => t.dev.rd (R.LNE_LCTRL_TEST 1 1) = 5) = true ∧
    after (.laneTestWrite (some 9) 0x130) cold (fun t => t.dev.rd (R.LNE_LCTRL_TEST 1 1) = 1 && t.dev.rd (R.LNE_LCTRL_PRBS 1 1) = 3)
      = true ∧
    (paired.BusFree 0x380000 ∧ paired.dev.rdb R.TOP_STATE_PAIRED = true ∧ paired.dev.state ≠ .safe) ∧
    after (.laneTestWrite none 0x100) paired (fun t => t.dev.out = [.bus 0 true]) = true ∧
    after (.laneTestWrite none 0x100) cold (fun t => t.dev.rd R.PAIR_CTRL_TEST = 1) = true ∧
    after .alignmentColumnSend cold (fun t => t.dev.out = [.column alignColumn]) = true ∧
    (let s := aligned 0 2 fun l => { l with slot := some 1023, cols := 3 }
     (s.dev.plane1 2).slot = some 1023 ∧ (s.dev.plane1 2).cols = 3 ∧ bit (s.dev.rd R.PAIR_STATUS_ALIGNED) 2 = false ∧
       Dev.testOn (s.dev.rd R.PAIR_CTRL_TEST) = false ∧
     after (.pairLaneAligned 2 [.k285, .data 3, .k280, .k280] ⟨0, 0⟩) s (fun t => t.dev.rd R.PAIR_STATUS_ALIGNED = 4 && t.dev.pairMap 2 = 3)
       = true) ∧
    (bit ((aligned 15 3 id).dev.rd R.PAIR_STATUS_ALIGNED) 3 = true ∧ ((aligned 15 3 id).dev.plane1 3).errs = 0 ∧
      ((aligned 15 3 id).dev.plane1 3).miss = 0) ∧
    (∀ x ∈ [(some 2, (-1 : Int), [PairSym.k280, .k280]), (some 2, 0, [.k280]), (some 2, 1, [])],
       let s := loopback 0 fun l => { l with slot := x.1 }
       s.dev.pairReady = true ∧ s.dev.pairMap 0 = (s.dev.plane1 0).num ∧ (s.dev.plane1 0).slot = some 2 ∧ (s.dev.plane1 0).miss = 0 ∧
         ones256 (2 * (s.dev.plane1 0).errs % 2 ^ 256) < 4 ∧
       after (.pairLaneAligned 0 [.k280] ⟨0, x.2.1⟩) s (fun t => t.dev.out.contains (.pairSyms 0 x.2.2) &&
         t.dev.rd R.PAIR_COMP_DROP = b2n (x.2.1 = 1) && t.dev.rd R.PAIR_COMP_ADD = b2n (x.2.1 = -1)) = true) ∧
    (let s := loopback 3 id
     (s.dev.plane1 3).slot.getD 0 % 1024 ≠ 2 ∧ after (.pairLaneAligned 3 [.data 7] ⟨0, 0⟩) s (fun t => t.dev.out.contains (.pairSyms 3 [.data 7])) = true) ∧
    after (.pairAlignmentLost 3 [.code, .code, .code, .code] ⟨0, 0⟩) (aligned 15 3 fun l => { l with slot := some 9 }) (fun t => t.dev.rd R.PAIR_STATUS_ALIGNED = 7 && t.dev.rd R.PAIR_REALIGN = 1 &&
      t.dev.rd R.PAIR_CODE_ERR = 4) = true := by
  unfold State.BusFree; decide +kernel

/-! Calibration. -/

def queued (us : List CalUnit) (g : Dev → Dev) : State := st fun d => g (as .cold { d with calib := { d.calib with queue := us } })
def runOf (u : CalUnit) (ph : Nat) : CalRun := ⟨u, ph, 0, 0, 2 ^ 41 - 1, 2 ^ 41 - 1, 0, false⟩
def inRun (u : CalUnit) (ph : Nat) : State := st fun d => as .cold { d with calib := { d.calib with runs := [runOf u ph] } }
/-- Lane 9 is up and is in a run. -/
def rxRun (ph : Nat) : State := lane9 2 (fun l => { l with pause := some 0 }) fun d =>
  { d with calib := { d.calib with runs := [runOf ⟨0, 9⟩ ph] } }

theorem witness_CalibrationQueuesAndStarts :
    (cold.BusFree 0x310140 ∧ ¬ cold.dev.CalDue ⟨0, 9⟩ ∧ cold.BusFree 0x170200 ∧ ¬ cold.dev.CalDue ⟨1, 7⟩ ∧ cold.BusFree 0x1080C) ∧
    after (.lctrlGo 9) cold (fun t => t.dev.calib.queue = [⟨0, 9⟩] && t.dev.rd (R.LNE_CAL_STATUS_RESULT 1 1) = 5) = true ∧
    after (.camCalGo 7) cold (fun t => t.dev.calib.queue = [⟨1, 7⟩]) = true ∧
    (lane9 2 id id).dev.laneUp 9 = true ∧
    after .calReqRx (lane9 2 id id) (fun t => t.dev.calib.queue = [⟨0, 9⟩]) = true ∧
    after .calReqCam cold (fun t => t.dev.calib.queue.length = 8) = true ∧
    after .calReqDram cold (fun t => t.dev.calib.queue.length = 32) = true ∧
    (let s := queued [⟨0, 9⟩, ⟨0, 10⟩, ⟨0, 3⟩] id
     ⟨0, 9⟩ ∈ s.dev.calib.queue ∧ (∀ u ∈ s.dev.calib.queue, u.kind = 0 → u.n / 8 = 9 / 8 → 9 ≤ u.n) ∧
     (∀ r ∈ s.dev.calib.runs, r.unit.kind = 0 → r.unit.n / 8 ≠ 9 / 8) ∧ s.dev.laneChanging 9 = false ∧
     after (.rxCalStart 9) s (fun t => t.dev.rd (R.LNE_CAL_STATUS_RESULT 1 1) = 4 && !(t.dev.lane 9).lock) = true) ∧
    (let s := queued [⟨1, 3⟩] fun d => (d.putCam 3 { CamPart.reset with lastRise := some 4 }).wr (R.CAM_MEAS_VBLANK 3) 200000
     ⟨1, 3⟩ ∈ s.dev.calib.queue ∧ (s.dev.cam 3).lastRise = some 4 ∧ (s.dev.cam 3).vs = true ∧ s.dev.camCalOk 3 = true ∧
     after (.camCalStart 3) s (fun t => t.dev.rd (R.CAM_CAL_STATUS_RESULT 3) = 4) = true) ∧
    (let s := queued [⟨2, 31⟩] id
     ⟨2, 31⟩ ∈ s.dev.calib.queue ∧ (∀ u ∈ s.dev.calib.queue, u.kind = 2 → 31 ≤ u.n) ∧ (∀ r ∈ s.dev.calib.runs, r.unit.kind ≠ 2) ∧
     after (.dramCalWindow 31) s (fun t => t.dev.rd (R.DRM_CALR_RESULT 3 7) = 4 && micros 100 ≤ t.dev.now) = true) ∧
    (let s := st fun d => { d with calib := { d.calib with retry := [(⟨1, 3⟩, 77)] } }
     (s.dev.calib.retry.find? fun r => r.1 = calUnit .cam 3) = some (⟨1, 3⟩, 77) ∧
     after (.calRetry .cam 3) s (fun t => t.dev.calib.queue = [⟨1, 3⟩] && t.dev.calib.retry.isEmpty) = true) := by
  unfold State.BusFree Dev.CalDue; decide +kernel

theorem witness_CalibrationRunsAdvanceAndEnd :
    ((rxRun 0).dev.calRun ⟨0, 9⟩ = some (runOf ⟨0, 9⟩ 0)) ∧
    after (.rxCalPhaseDone 9 0 0 0 0) (rxRun 0) (fun t => (t.dev.calRun ⟨0, 9⟩).map CalRun.phase = some 1 && (t.dev.lane 9).pause.isNone)
      = true ∧
    after (.rxCalPhaseDone 9 0 0xFF00 0xFFF0 0) (rxRun 1) (fun t => (t.dev.calRun ⟨0, 9⟩).map CalRun.phase = some 2 &&
      t.dev.rd (R.LNE_CAL_STATUS_EYE_W 1 1) = 8) = true ∧
    after (.rxCalPhaseDone 9 0 0 0 6) (rxRun 2) (fun t => t.dev.rd (R.LNE_RESIDUAL 1 1) = 6) = true ∧
    ((rxRun 3).dev.calRun (calUnit .rx 9) = some (runOf ⟨0, 9⟩ 3) ∧ (rxRun 3).dev.now ≤ 0 + millis 2 ∧
      (rxRun 3).dev.rd R.CLK_CAL_MIN_EYE_RX_PHASE ≤ (Dev.eye (2 ^ 41 - 1)).1 ∧
      (rxRun 3).dev.rd R.CLK_CAL_MIN_EYE_RX_THR ≤ (Dev.eye (2 ^ 41 - 1)).1) ∧
    after (.calRunDone .rx 9 [] 0 true) (rxRun 3) (fun t => t.dev.calResult ⟨0, 9⟩ = 1 && t.dev.rd R.CLK_RUNS_GOOD = 1) = true ∧
    after (.calRunDone .rx 9 [] 0 false) (rxRun 3) (fun t => t.dev.calResult ⟨0, 9⟩ = 2 && t.dev.rd R.CLK_RUNS_BAD = 1) = true ∧
    after (.calRunDone .cam 3 (0x7FFFFFFFFF :: List.replicate 31 0x1FFFFFFFFFF) 0 true) (inRun ⟨1, 3⟩ 0) (fun t => t.dev.calResult ⟨1, 3⟩ = 1) = true ∧
    ((inRun ⟨1, 3⟩ 0).dev.rd R.CLK_CAL_MIN_EYE_CAM ≤ 64 ∧ (inRun ⟨2, 5⟩ 0).dev.rd R.CLK_CAL_MIN_EYE_DRAM ≤ 64) ∧
    after (.calRunDone .dram 5 (List.replicate 32 0xFFFF00) 1 true) (inRun ⟨2, 5⟩ 0) (fun t => t.dev.calResult ⟨2, 5⟩ = 2) = true ∧
    (runOf ⟨2, 5⟩ 0).lost = false ∧
    after (.calRunDone .dram 5 (List.replicate 32 0x1FFFFFFFFFF) 0 true) (inRun ⟨2, 5⟩ 0) (fun t => t.dev.calResult ⟨2, 5⟩ = 1) = true ∧
    after (.calRunDone .dram 5 (List.replicate 32 0x1FFFFFFFFFF) 0 true)
      (st fun d => as .cold { d with calib := { d.calib with runs := [{ runOf ⟨2, 5⟩ 0 with lost := true }] } }) (fun t => t.dev.calResult ⟨2, 5⟩ = 2) = true ∧
    ((inRun ⟨1, 3⟩ 0).dev.calib.bad.find? (fun b => b.1 = calUnit .cam 3) = none ∧ 1 ≤ (inRun ⟨1, 3⟩ 0).dev.rd R.CLK_CAL_CFG_RETRIES) ∧
    after (.calRunTimeout .cam 3) (inRun ⟨1, 3⟩ 0) (fun t => t.dev.rd R.CLK_TIMEOUTS = 1 && t.dev.calResult ⟨1, 3⟩ = 2 &&
      t.dev.calib.retry.length = 1) = true := by decide +kernel

/-! Pairing. -/

/-- A beat or a yield word: kind, state, flags (windward, synced, strap, ready), epoch and tag. -/
def beatW (kind state flags epoch tag : Nat) : BitVec 128 :=
  let v := (((((kind * 16 + state) * 16 + flags) * 16) * 2 ^ 32 + epoch) * 2 ^ 16 + tag) * 2 ^ 32
  BitVec.ofNat 128 (v * 2 ^ 32 + crc32c (beBytes 12 v))

/-- A frame of the pairing stream without payload, and a word on either path. -/
def frameBytes (type seq : Nat) : List Byte := sealFrame ⟨type, 0, seq, 0, []⟩
def wordA (type : Nat) (w : BitVec 128) : List Byte := sealFrame ⟨type, 0, 0, 0, beBytes 16 w.toNat⟩
def wordB (w : BitVec 128) : List Byte := beBytes 36 (bitsNat (wordLevels w))
/-- Such a frame without its CRC, and its CRC. -/
def frameHead (type seq : Nat) : List Byte := (frameBytes type seq).take 12
def frameCrc (type seq : Nat) : Word := BitVec.ofNat 32 (leAt (frameBytes type seq) 12 4)

/-- A paired device with the pairing link up. -/
def pairOf (x : DevState) (g : Dev → Dev) : State := st fun d => g (((as x d).wr R.TOP_STATE_PAIRED 1).wr R.PAIR_STATUS_UP 1)
/-- Role selection is open in COLD; the device may enter LIVE in FREE. -/
def choosing (strap : Nat) : State := pairOf .cold fun d =>
  ({ d with pair := { d.pair with selecting := true } }.wr R.WTM_CTRL_FREE_RUN_OK 1).wr R.TOP_STATE_ROLE_STRAP strap

theorem witness_BeatsPairAndSelectRoles :
    ((pairOf .live id).dev.inService = true ∧ (pairOf .live id).dev.pathUp = true ∧ beatParse 1 = none ∧
      rxWord 1 (wordRx false (wordA 1 1)) = some 1 ∧ onPin (wordRx false (wordA 1 1)) = false ∧ rxWord 1 (.pin [true, true]) = none ∧ rxWord 2 (wordRx true (wordB 5)) = some 5) ∧
    after (.yieldWordReceive false (wordA 2 1)) (pairOf .live id) (fun t => t.dev.rd R.VEER_BEAT_BAD = 1) = true ∧
    after (.beatReceive false (wordA 1 1)) (pairOf .live id) (fun t => t.dev.rd R.VEER_BEAT_BAD = 1) = true ∧
    beatParse (beatW 1 2 4 7 9) = some (1, ⟨2, false, true, false, false, 7, 9, 0, 0⟩) ∧
    ((st (as .live)).dev.line < (st (as .live)).dev.lt / 4) ∧
    after (.beatReceive true (wordB (beatW 1 2 4 7 9))) live (fun t => t.dev.rd R.VEER_PARTNER_EPOCH = 7 && t.dev.rdb R.TOP_STATE_PAIRED &&
      t.dev.pair.gotB) = true ∧
    ((choosing 1).dev.state = .cold ∧ (choosing 1).dev.pair.selecting = true ∧
      (choosing 1).dev.winsRole ⟨2, false, true, false, false, 7, 9, 0, 0⟩ = some true ∧ (choosing 1).dev.MayBecomeWindward) ∧
    after (.beatReceive false (wordA 1 (beatW 1 2 4 7 9))) (choosing 1) (fun t => t.dev.state = .live && t.dev.epoch = 1) = true ∧
    ((choosing 0).dev.pair.gaveUp = false ∧ (choosing 0).dev.pair.partner = none) ∧
    after .pairWaitExpiry (choosing 0) (fun t => t.dev.state = .live && t.dev.pair.alone) = true ∧
    (let s := pairOf .cold fun d => { d with pair := { d.pair with selecting := true } }
     s.dev.mayGoLive = false ∧ after .pairWaitExpiry s (fun t => t.dev.state = .cold && t.dev.pair.alone) = true) := by
  unfold Dev.MayBecomeWindward; decide +kernel

def missing (x : DevState) (a b : Nat) : State := pairOf x fun d =>
  { d with pair := { d.pair with missA := a, missB := b, partner := some ⟨4, true, true, false, true, 7, 9, 0, 0⟩ } }.wr
    R.WTM_CTRL_FREE_RUN_OK 1
def aloneRefused : State := st fun d => as .live { d with pair := { d.pair with alone := true, refSince := some 3 } }

theorem witness_PartnerLossAndTakeover :
    ((missing .live 3 0).dev.inService = true ∧ (missing .live 3 0).dev.rdb R.TOP_STATE_PAIRED = true ∧
      (missing .live 3 0).dev.rdb R.VEER_STATUS_PATH_A = false ∧ 3 ≤ (missing .live 3 0).dev.pair.missA ∧
      (missing .live 3 0).dev.pair.missB = 0 ∧ (missing .live 0 3).dev.rdb R.VEER_STATUS_PATH_B = false) ∧
    after (.pathFault false) (missing .live 3 0) (fun t => t.dev.rdb R.VEER_STATUS_PATH_A) = true ∧
    after (.pathFault true) (missing .live 0 3) (fun t => t.dev.rd R.VEER_PATH_B_FAULTS = 1) = true ∧
    (((missing .warm 3 3).dev.pair.partner.map Beat.windward).getD false = true ∧ (missing .warm 3 3).dev.MayBecomeWindward ∧
      (missing .warm 3 3).dev.pair.failed = false) ∧
    after .partnerFailed (missing .warm 3 3) (fun t => t.dev.state = .live && t.dev.rd R.VEER_TAKEOVERS = 1) = true ∧
    after .yieldPin (missing .live 0 0) (fun t => t.dev.state = .live && t.dev.pair.failed && t.dev.rd R.VEER_PARTNER_YIELDS = 1) = true ∧
    beatParse (beatW 2 2 0 7 9) = some (2, ⟨2, false, false, false, false, 7, 9, 0, 0⟩) ∧
    after (.yieldWordReceive true (wordB (beatW 2 2 0 7 9))) (missing .cold 0 0) (fun t => t.dev.state = .live) = true ∧
    (pairOf .cold id).dev.mayGoLive = false ∧ (live.dev.rdb R.TOP_STATE_PAIRED = false) ∧
    (aloneRefused.dev.state = .live ∧ aloneRefused.dev.pair.alone = true ∧ aloneRefused.dev.pair.refSince.isSome = true) ∧
    after .claimGiveup aloneRefused (fun t => t.dev.state = .cold && t.dev.rd R.VEER_CLAIM_GIVEUPS = 1 && t.dev.pair.gaveUp) = true := by
  unfold Dev.MayBecomeWindward; decide +kernel

def ckpt : Ckpt := ⟨40, [], [], [], 1, [], [(3, 4)], [], Vector.replicate 8 ⟨[]⟩, (0, LoopSet.mk 0 0 [] 0 []), [], [], ⟨[], [], []⟩, [], [], 6, 0, 6, 0,
  [], [], []⟩
/-- The partner of a windward expects the frame with SEQ 5, and has a base and a version. -/
def following (x : DevState) (mirror : Nat) : State := pairOf x fun d =>
  ({ d with pair := { d.pair with
      rxSeq := 5, rxCrc := 0xFFFFFFFF, based := true, version := some 1, sigsOwn := [(400, 7, true)], mism := 1
      kept := [⟨⟨0x11, 0, 8, 0, []⟩, .delta⟩, ⟨⟨0x11, 0, 9, 0, []⟩, .delta⟩] } }.wr R.VEER_STATUS_SYNCED 1).wr R.VEER_STATUS_MIRROR mirror

theorem witness_PairingStreamIsTaken :
    ((following .warm 0).dev.inService = true ∧ (following .warm 0).dev.state ≠ .live ∧ (following .warm 0).dev.pathUp = true ∧
      (following .warm 0).dev.rdb R.TOP_STATE_PAIRED = true ∧ (following .warm 0).dev.mirrored = false ∧
      (following .warm 0).Hears [0x11] (frameBytes 0x11 5) ⟨0x11, 0, 5, 0, []⟩ ∧ frameBytes 0x11 5 = withCrc (frameHead 0x11 5) (frameCrc 0x11 5) ∧ openFrame [1, 2] = none ∧ (following .warm 0).dev.pair.based = true ∧
      (following .warm 0).dev.pair.version.isSome = true) ∧
    after (.stateFrameReceive (frameHead 0x11 5) (frameCrc 0x11 5) .delta) (following .warm 0) (fun t => t.dev.pair.rxSeq = 6) = true ∧
    after (.stateFrameReceive (frameHead 0x10 5) (frameCrc 0x10 5) (.base true)) (following .warm 0) (fun t => t.dev.pair.rxSeq = 6 && t.dev.pair.based) = true ∧
    (0 ≤ diff32 6 5 ∧ after (.stateFrameReceive (frameHead 0x11 6) (frameCrc 0x11 6) .delta) (following .warm 0)
      (fun t => t.dev.out.length = 1 && t.dev.pair.rxSeq = 5) = true) ∧
    after (.cutReceive (frameBytes 0x12 5) 0 ckpt) (following .cold 0) (fun t => t.dev.rdb R.VEER_STATUS_SYNCED && t.dev.epoch = 6 &&
      t.dev.clr.luts = [(3, 4)] && t.dev.rd R.VEER_CUTS = 1) = true ∧
    after (.cutReceive (frameBytes 0x12 5) 0 ckpt) (pairOf .cold fun d => { d with pair := { d.pair with rxSeq := 5 } })
      (fun t => !t.dev.rdb R.VEER_STATUS_SYNCED && t.dev.pair.rxSeq = 6) = true ∧
    after (.commitFrameReceive (frameHead 0x14 5) (frameCrc 0x14 5) 3000 0x81) (following .warm 0) (fun t => t.dev.pair.decided = [(3000, 0x81)]) = true ∧
    after (.commitFrameReceive (frameHead 0x14 5) (frameCrc 0x14 5) 3000 0x81) (following .cold 0) (fun t => t.dev.pair.decided = [(3000, 0x81)]) = true ∧
    after .checkpointTimeout (following .warm 0) (fun t => !t.dev.rdb R.VEER_STATUS_SYNCED) = true ∧
    after (.ackFrameReceive ⟨(frameBytes 3 0), 8, false⟩) (following .warm 0) (fun t => (t.dev.pair.kept.map fun k => k.frame.seq) = [9] && t.dev.out.isEmpty) = true ∧
    after (.ackFrameReceive ⟨(frameBytes 3 0), 7, true⟩) (following .warm 0) (fun t => t.dev.rd R.VEER_RESENDS = 2 && t.dev.out.length = 2) = true ∧
    ((∀ p ∈ (following .warm 1).dev.pair.sigsHis, p.1 ≠ (400 : Word).toNat) ∧
      (following .warm 1).dev.pair.sigsOwn.find? (fun p => p.1 = (400 : Word).toNat) = some (400, 7, true) ∧ (following .warm 1).dev.rdb R.VEER_STATUS_MIRROR = true) ∧
    after (.sigFrameReceive (frameBytes 4 0) ⟨7, 400⟩) (following .warm 1) (fun t => t.dev.pair.mism = 0 && t.dev.rdb R.VEER_STATUS_MIRROR) = true ∧
    after (.sigFrameReceive (frameBytes 4 0) ⟨8, 400⟩) (following .warm 1) (fun t => !t.dev.rdb R.VEER_STATUS_MIRROR && t.dev.rd R.VEER_MIRROR_LOST = 1)
      = true ∧
    after (.telemFrameReceive ⟨(frameBytes 0x20 0), ⟨100, 0, 0, 0, 1, 6, 0, 3, 11, 12, 13, 0, 0, 0, 0, 0⟩⟩) (pairOf .live id)
      (fun t => (t.dev.tileLink 100).volt = 12 && (t.dev.tileLink 101).volt = 0) = true := by
  unfold State.Hears; decide +kernel

def windward (f : PairPart → PairPart) (g : Dev → Dev) : State := pairOf .live fun d =>
  let p := f { d.pair with partner := some ⟨2, false, true, false, true, 7, 9, 0, 0⟩ }
  g (Dev.wr { d with pair := p } R.VEER_STATUS_PARTNER_STATE (Dev.stateCode .cold))
def leeward (x : DevState) (f : PairPart → PairPart) : State := lane9 2 id fun d =>
  ((({ (as x d) with pair := f d.pair }.wr R.TOP_STATE_PAIRED 1).wr R.PAIR_STATUS_UP 1).wr R.WTM_CTRL_FREE_RUN_OK 1)
def prep (incoming : Bool) : Prep := ⟨4000, 5000, incoming, 0, false, false, [], [], false⟩

theorem witness_VeerAndSplitRequests_windward :
    ((windward id id).dev.state = .live ∧ (windward id id).BusFree 0x70030 ∧ (windward id id).dev.pathUp = true ∧
      (windward id id).dev.rdb R.TOP_STATE_PAIRED = true ∧ (windward id id).dev.veerCheck = 0 ∧
      (windward id id).dev.calCheck (windward id id).dev.veerLine 3 0 ((windward id id).dev.epoch + 1) 0 = 0) ∧
    after .firmwareVeerReq (windward id id) (fun t => t.dev.cal.entries.map CalEntry.action = [3] &&
      t.dev.cal.entries.map CalEntry.target = [(1 + Nat.max 4 (windward id id).dev.veerFrames) * (windward id id).dev.lt]) = true ∧
    live.dev.veerCheck = 1 ∧
    after .firmwareVeerReq live (fun t => t.dev.rd R.VEER_STATUS_LAST_REFUSE = 1 && t.dev.cal.entries.isEmpty) = true ∧
    ((leeward .cold id).dev.inService = true ∧ (leeward .cold id).dev.state ≠ .live ∧ (leeward .cold id).BusFree 0x70030) ∧
    after .firmwareVeerReq (leeward .cold id) (fun t => t.dev.out.length = 2) = true ∧
    after .firmwareVeerReq cold (fun t => t.dev.rd R.VEER_STATUS_LAST_REFUSE = 1) = true := by
  unfold State.BusFree; decide +kernel

theorem witness_VeerAndSplitRequests_frames :
    after (.requestFrameReceive ⟨(frameBytes 5 0), (.versions 3 0)⟩) (leeward .cold id) (fun t => t.dev.pair.version = none ||
      t.dev.pair.version = some (Nat.min ((leeward .cold id).dev.rd R.BOOT_VERS_CKPT_VER) 3)) = true ∧
    after (.requestFrameReceive ⟨(frameBytes 5 0), (.accepted [100] 4000)⟩) (windward id id) (fun t => bit (t.dev.tileLink 100).own 1 &&
      (t.dev.tileLink 100).ownLine = 4000) = true ∧
    after (.requestFrameReceive ⟨(frameBytes 5 0), (.claimed [100])⟩) (windward id fun d => d.putTile { d.tileLink 100 with own := 7 })
      (fun t => (t.dev.tileLink 100).own = 0) = true ∧
    after (.requestFrameReceive ⟨(frameBytes 5 0), (.lanes true)⟩) (windward (fun p => { p with prep := some (prep false) }) id)
      (fun t => t.dev.pair.prep.map Prep.lanes = some true) = true ∧
    after (.requestFrameReceive ⟨(frameBytes 5 0), (.stands 4000)⟩) (leeward .warm fun p => { p with prep := some (prep true) })
      (fun t => t.dev.pair.prep.map Prep.stands = some true) = true ∧
    after (.requestFrameReceive ⟨(frameBytes 5 0), (.abort 9)⟩) (leeward .warm fun p => { p with prep := some (prep true) })
      (fun t => t.dev.pair.prep.isNone && t.dev.epoch = 9) = true ∧
    after (.requestFrameReceive ⟨(frameBytes 5 0), (.release 9 4 4000)⟩) (windward (fun p => { p with given := [(9, 0), (8, 0)] }) id)
      (fun t => t.dev.pair.given = [(8, 0)] && t.dev.epoch = 4 && t.dev.pair.mirrorTo.isSome) = true ∧
    ((leeward .cold id).dev.mayGoLive = true ∧ (∀ x ∈ (leeward .cold id).dev.pair.segs, x.1 ≠ 9) ∧
      (leeward .cold id).dev.laneUsed 9 = true) ∧
    after (.requestFrameReceive ⟨(frameBytes 5 0), (.split 9 1 4 2400)⟩) (leeward .cold id) (fun t => t.dev.state = .warm && t.dev.pair.segs = [(9, 1)] &&
      t.dev.rdb R.VEER_STATUS_MIRROR) = true ∧
    (let s := leeward .warm fun p => { p with segs := [(9, 1)], heal := [(9, 77)] }
     s.dev.pair.back = none ∧ s.dev.pair.segs.find? (fun x => x.1 = 9) = some (9, 1) ∧
     s.dev.pair.heal.find? (fun x => x.1 = 9) = some (9, 77) ∧ s.dev.epoch < 0xFFFFFFF0 ∧
     after (.splitHeal 9) s (fun t => t.dev.pair.back.isSome) = true) ∧
    (let s := leeward .cold fun p => { p with homeAt := some 77, partner := some ⟨4, true, true, false, true, 7, 9, 0, 0⟩ }
     let t : State := { s with dev := (((s.dev.wr R.VEER_CTRL_HOME_EN 1).wr R.TOP_STATE_ROLE_STRAP 1).wr R.VEER_STATUS_SYNCED 1) }
     t.dev.pair.homeAt = some 77 ∧ t.dev.rdb R.VEER_CTRL_HOME_EN = true ∧ t.dev.rdb R.TOP_STATE_ROLE_STRAP = true ∧
     t.dev.homingHealth = true ∧ after .homing t (fun u => u.dev.pair.homeAt = some u.dev.now && u.dev.out.length = 1) = true) := by
  decide +kernel

/-! What goes on the lines. -/

/-- Lane 9's receiver in lock, with some block errors behind it. -/
def locked9 : Lane := { (lane9 2 id id).dev.lane 9 with lock := true, good := 0, errs := 5, rx := none, dscr := 0x123456789 }
def bytesOf (first n : Nat) : List Byte := (BitVec.ofNat 8 first) :: (List.range (n - 1)).map (BitVec.ofNat 8)
def someFrame : PairFrame := ⟨0x11, 1, 77, 4096, [9, 8, 7]⟩

theorem witness_LinesCarryWhatIsSent :
    (5 < 2 ^ 3 ∧ descramble 3 1 (scramble 3 1 5).1 = (5, (scramble 3 1 5).2)) ∧
    (locked9.lock = true ∧ locked9.rx = none ∧ ones (2 * locked9.errs % 2 ^ 64) < 16 ∧ (bytesOf 0x81 16).length = 16 ∧
      beAt (bytesOf 0x81 16) 0 1 / 16 = 8 ∧ beAt (bytesOf 0x91 16) 0 1 / 16 = 9 ∧ (bytesOf 0xA1 32).length = 32 ∧
      beAt (bytesOf 0xA1 32) 0 1 / 16 = 10 ∧ beAt (bytesOf 0xA1 32) 0 1 % 16 = 1 ∧ beAt (bytesOf 0xA2 32) 0 1 % 16 ≠ 1) ∧
    ((linkBlocks locked9.dscr (bytesOf 0x81 16)).1.map fun b => (takeBlock locked9 b).done) = [[some (bytesOf 0x81 16)]] ∧
    (someFrame.payload.length ≤ 4096 ∧ openFrame (sealFrame someFrame) = some someFrame) ∧
    (stripe [.k277, .data 1, .data 2, .data 3, .k297]).map List.length = [2, 2, 2, 2] ∧
    (beatParse (beatPack 1 2 ⟨4, true, false, true, true, 7, 9, 3, 1⟩) = some (1, ⟨4, true, false, true, true, 7, 9, 3, 1⟩)) := by
  decide +kernel

/-- Five bits after a register of ones, and a symbol stream on four lanes, by hand from x^58 + x^39 + 1 (R271) and R320. -/
theorem test_scrambler_and_striping_by_hand :
    (scramble 5 (2 ^ 58 - 1) 0b10110).1 = 0b10110 ∧ (scramble 5 (2 ^ 38) 0b10110).1 = 0b00110 ∧
    stripe [.k277, .data 1, .data 2, .data 3, .k297] = [[.k277, .k297], [.data 1, .k280], [.data 2, .k280], [.data 3, .k280]] := by
  decide +kernel

/-! The recording store. -/

/-- A store with drive 0 READY and of 4 segments, PFAIL_N high. -/
def store (x : DevState) (f : HbxPart → HbxPart) : State := st fun d =>
  let h : HbxPart := { d.hbx with drives := setV d.hbx.drives 0 { HDrive.reset with segs := 4 } }
  (set R.HBX_CTRL_EN 1 (Dev.wr (Dev.wr (as x { d with hbx := f h }) R.HBX_STATUS_MOUNTED 1) (R.HBX_DRIVE_STATE 0) 1)).wr
    (R.HBX_STG_MIB) 64

/-- Client 3's ring of 4 places at address 4096 holds one entry. -/
def entry (x : DevState) (f : HbxPart → HbxPart) (bs : List Byte) : State :=
  let s := store x f
  { s with
    mem := Memory.writes [] 4096 bs
    dev := ((s.dev.wr (R.HBX_CL_SQ_SIZE 3) 4).wr (R.HBX_CL_SQ_TAIL 3) 1).wr (R.HBX_CL_SQ_BASE_LO 3) 4096 }

/-- An entry: OPCODE, FLAGS, CID, TAKE, OFFSET, LENGTH, BUF and ARG (Table 13-3). -/
def sq (op flags take off len buf arg : Nat) : List Byte :=
  leBytes 1 op ++ leBytes 1 flags ++ leBytes 2 0x77 ++ leBytes 4 take ++ leBytes 8 off ++ leBytes 4 len ++ leBytes 4 0 ++ leBytes 8 buf
    ++ leBytes 8 arg

def take5 (open_ : Bool) : Take := ⟨5, 0, 3, open_, 100, 100, 0⟩
def endsWith (s : State) (op status : Nat) : Bool :=
  after (hbxInstr op) s fun t => t.dev.hbx.cmds.map HCmd.status = [some status] && t.dev.rd (R.HBX_CL_SQ_HEAD 3) = 1

theorem witness_HatboxEntriesAreConsumed :
    (entry .live id (sq 4 0 5 0 0 0 0)).HbxNext 3 ∧
    (let s := entry .live id (sq 4 0 5 0 0 0 0)
     Dev.entryOk s.mem s.dev 3 = true ∧ s.dev.liveOrWarm = true ∧ s.dev.findTake 5 = none ∧ s.dev.spaceLeft = true) ∧
    endsWith (entry .live id (sq 4 0 5 0 0 0 0)) 4 0 = true ∧
    endsWith (entry .live id (sq 9 0 5 0 0 0 0)) 9 3 = true ∧
    endsWith (entry .live id (sq 4 1 5 0 0 0 0)) 4 3 = true ∧
    endsWith (entry .live id (sq 1 0 5 0 0 0 0)) 1 3 = true ∧
    endsWith (entry .cold id (sq 1 0 5 0 4096 0 0)) 1 2 = true ∧
    endsWith (entry .live id (sq 1 0 5 0 262144 0 0)) 1 4 = true ∧
    endsWith (entry .live (fun h => { h with takes := [take5 true] }) (sq 1 0 5 99 4096 0 0)) 1 3 = true ∧
    after .hbxWrite (entry .live (fun h => { h with takes := [take5 true] }) (sq 1 0 5 100 262144 0 0))
      (fun t => t.dev.hbx.cmds.map HCmd.status = [none]) = true ∧
    endsWith (entry .live (fun h => { h with takes := [take5 true] }) (sq 2 0 5 0 101 0 0)) 2 11 = true ∧
    endsWith (entry .live id (sq 2 0 5 0 16777216 0 0)) 2 4 = true ∧
    after .hbxRead (entry .live (fun h => { h with takes := [take5 true] }) (sq 2 0 5 0 100 0 0))
      (fun t => t.dev.hbx.cmds.map HCmd.staged = [true]) = true ∧
    endsWith (entry .live (fun h => { h with takes := [take5 true] }) (sq 3 0 5 0 0 0 0)) 3 0 = true ∧
    endsWith (entry .live (fun h => { h with takes := [take5 true] }) (sq 5 0 5 0 0 0 0)) 5 0 = true ∧
    endsWith (entry .live (fun h => { h with takes := [take5 false] }) (sq 6 0 5 0 0 0 0)) 6 0 = true ∧
    endsWith (entry .live id (sq 7 0 0 0 0 0 0)) 7 2 = true ∧
    after .fwActivate (entry .cold id (sq 7 0 0 0 0 0 0)) (fun t => t.dev.driveState 0 = 2 && t.dev.hbx.fw.isSome) = true := by
  unfold State.HbxNext State.EnginesRun Dev.RecordersIdle; decide +kernel

/-- A command with tag 6 of client 3. -/
def cmd (op : Nat) (staged : Bool) : HCmd := ⟨1, 6, 3, op, 0, 0x77, 5, 100, 4, 64, 0, 9, 10, staged, false, none, false, [], [], none, []⟩
def staged1 (phase tries : Nat) (complete : Bool) : Staged := ⟨1, 3, 5, 100, 0, [1, 2, 3, 4], [0], 0, 70000, tries, phase, complete, false⟩
def withCmd (op : Nat) (staged : Bool) : State := store .live fun h => { h with cmds := [cmd op staged], takes := [take5 true], ser := 2 }
def withStaged (phase tries : Nat) (complete : Bool) : State :=
  store .live fun h => { h with staged := [staged1 phase tries complete], takes := [take5 true], ser := 2 }

theorem witness_HatboxDataMoves :
    (let s := { withCmd 1 false with mem := [(64, 7), (67, 8)] }
     s.Sound ∧ s.dev.hbx.cmds = [cmd 1 false] ∧ s.dev.hbx.staged = [] ∧
     units 4 ≤ 256 * Nat.min 8192 (s.dev.rd R.HBX_STG_MIB) ∧ s.dev.anyReady = true ∧ s.dev.unreadable 64 4 = false ∧ s.dev.poison = [] ∧
     (cmd 1 false).owed = none ∧ s.dev.stgAddr (units 4) ≤ s.dev.dramC ∧
     after (.writeStaged 6) s (fun t => Memory.bytes t.mem (s.dev.stgAddr 0) 4 = [7, 0, 0, 8] && t.dev.hbx.staged.map Staged.data = [[7, 0, 0, 8]] && t.dev.hbx.cmds.map HCmd.status = [some 0])
       = true) ∧
    (let s := withCmd 2 true
     s.dev.hbx.cmds = [cmd 2 true] ∧ s.dev.poison = [] ∧ s.dev.lulling .hatbox = false ∧ (∀ k ∈ (cmd 2 true).outs, s.dev.driveState k ≠ 2) ∧
     after (.readComplete 6 [9, 0, 8, 7] .ok 0) s (fun t => t.mem = [(64, 9), (66, 8), (67, 7)] && t.dev.hbx.cmds.map HCmd.status = [some 0])
       = true) ∧
    ((withStaged 1 1 true).dev.hbx.staged = [staged1 1 1 true] ∧ (withStaged 1 1 true).dev.hbx.cmds = []) ∧
    after (.nvmeWriteComplete 1 .ok) (withStaged 1 1 true) (fun t => t.dev.hbx.staged.map Staged.phase = [2]) = true ∧
    after (.nvmeWriteComplete 1 .media) (withStaged 1 2 true) (fun t => t.dev.rd R.HBX_REWRITES = 1 && t.dev.rd R.HBX_MEDIA_ERR = 1 &&
      t.dev.hbx.staged.map Staged.data = [[1, 2, 3, 4]]) = true ∧
    (let s := withStaged 1 1 true
     let t : State := { s with dev := { s.dev with poison := (List.range 8).map fun k => s.dev.stgAddr 0 + k } }
     s.dev.stgBad (staged1 1 1 true) = false ∧ t.dev.stgBad (staged1 1 1 true) = true ∧ t.dev.findTake 5 = some (take5 true) ∧
     after (.nvmeWriteComplete 1 .ok) t (fun t => t.dev.hbx.staged.isEmpty && t.dev.hbx.takes.map Take.fault = [10]) = true) ∧
    after (.nvmeWriteComplete 1 .media) (withStaged 1 3 true) (fun t => t.dev.hbx.staged.isEmpty &&
      t.dev.hbx.takes.map Take.fault = [6]) = true := by
  unfold State.Sound; decide +kernel

def rec1 : CommitRec := ⟨1, 0, 5, 100, 4, 0, 0, 70000⟩
def batch (step : Nat) : State := store .live fun h => { h with
  takes := [take5 true], lsn := 2, ser := 2, drives := setV h.drives 0 { HDrive.reset with segs := 4, batch := some ⟨step, [1], [rec1]⟩ },
  staged := [staged1 3 1 true] }
def posting : State := let s := store .live fun h => { h with compl := [⟨3, 0x77, 0, 6, 4, none, false⟩] }
  { s with dev := (s.dev.wr (R.HBX_CL_CQ_SIZE 3) 4).wr (R.HBX_CL_CQ_BASE_LO 3) 8192 }

theorem witness_HatboxBatchesAndCompletions :
    ((withStaged 2 1 true).dev.hbxWrites = true ∧ (withStaged 2 1 true).dev.driveState 0 = 1 ∧
      ((withStaged 2 1 true).dev.hdrive 0).batch = none) ∧
    after (.commitBatchStart 0) (withStaged 2 1 true) (fun t => t.dev.out = [.nvme 0 .flush 0 0 0 []] && t.dev.hbx.lsn = 2 &&
      ((t.dev.hdrive 0).batch.map HBatch.recs) = some [⟨1, 0, 5, 100, 4, 0, 0, 70000⟩]) = true ∧
    (((batch 1).dev.hdrive 0).batch = some ⟨1, [1], [rec1]⟩ ∧ (batch 1).dev.driveState 0 = 1 ∧ (batch 1).dev.hbxWrites = true) ∧
    after (.batchStepDone 0) (batch 1) (fun t => (t.dev.hdrive 0).batch.map HBatch.step = some 2) = true ∧
    after (.batchStepDone 0) { batch 1 with dev := as .warm (batch 1).dev } (fun t => (t.dev.hdrive 0).batch.isNone && t.dev.out.isEmpty)
      = true ∧
    after (.batchStepDone 0) (batch 2) (fun t => t.dev.out = [.nvme 0 .flush 0 0 0 []]) = true ∧
    after (.batchStepDone 0) (batch 3) (fun t => t.dev.hbx.recs = [rec1] && t.dev.hbx.staged.isEmpty && t.dev.rd R.HBX_BATCHES = 1)
      = true ∧
    (posting.dev.cqFull 3 = false ∧ posting.dev.poison = [] ∧ posting.dev.hbx.compl.find? (fun x => x.client = 3) =
      some ⟨3, 0x77, 0, 6, 4, none, false⟩) ∧
    after (.completionPost 3) posting (fun t => t.dev.hbx.compl.isEmpty && (t.dev.cqAt 3).1 = 1 && t.dev.hbx.posted.contains (3, 0x77))
      = true := by decide +kernel

theorem witness_HatboxControlAndFailures :
    (let s := withCmd 2 true
     s.BusFree 0x4001DC ∧ s.dev.hbx.cmds = [cmd 2 true] ∧ ringPlaces cold.dev 3 = [] ∧
     after (.hbxAbort 3 0x77) s (fun t => t.dev.rd (R.HBX_CL_ABORT_STATUS 3) = 0 && t.dev.rd R.HBX_ABORTS = 1) = true) ∧
    after (.hbxAbort 3 0x77) cold (fun t => t.dev.rd (R.HBX_CL_ABORT_STATUS 3) = 2) = true ∧
    after (.hbxAbort 3 0x77) (store .live fun h => { h with posted := [(3, 0x77)] }) (fun t =>
      t.dev.rd (R.HBX_CL_ABORT_STATUS 3) = 1 && t.dev.rd R.HBX_TOO_LATE = 1) = true ∧
    after (.hbxAbort 3 0x77) (store .live fun h => { h with compl := [⟨3, 0x77, 1, 0, 0, none, false⟩] }) (fun t =>
      t.dev.rd (R.HBX_CL_ABORT_STATUS 3) = 0 && t.dev.rd R.HBX_ABORTS = 0) = true ∧
    (cold.BusFree 0x4001E4 ∧ after (.hbxClientReset 3) (entry .live id (sq 4 0 5 0 0 0 0))
      (fun t => t.dev.rd (R.HBX_CL_SQ_TAIL 3) = 0 && t.dev.hbx.compl.map HCompl.status = [1]) = true) ∧
    after (.hbxCmdTimeout 6) (withCmd 2 true) (fun t => t.dev.hbx.cmds.map HCmd.status = [some 7] && t.dev.rd R.HBX_TIMEOUTS = 1 &&
      9 + millis 10 ≤ t.dev.now) = true ∧
    after (.ssdAdminTimeout 0) (store .live fun h => { h with drives := setV h.drives 0 { HDrive.reset with resetAt := some 7 } })
      (fun t => t.dev.driveState 0 = 3) = true ∧
    after (.ssdAdminTimeout 0) (store .live fun h => { h with drives := setV h.drives 0 { HDrive.reset with aborts := [(1, 7)] } })
      (fun t => (t.dev.hdrive 0).aborts.isEmpty && (t.dev.hdrive 0).resetAt = some (7 + seconds 10) && t.dev.driveState 0 = 2) = true ∧
    after (.ssdAdminTimeout 0) (store .live id) (fun t => t.dev.now = 0) = true ∧
    (let s := store .live id
     let t : State := { s with dev := s.dev.wr (R.HBX_DRIVE_STATE 0) 2 }
     t.dev.driveState 0 = 2 ∧ after (.driveReady 0) t (fun t => t.dev.driveState 0 = 1) = true) ∧
    after .driveActivationTimeout (store .cold fun h => { h with fw := some (6, 0, 7) }) (fun t => t.dev.hbx.fw.isNone) = true ∧
    (cold.dev.pins.pfailN = true ∧ cold.dev.rdb R.HBX_STATUS_MOUNTED = false ∧ cold.dev.inService = true) ∧
    after (.hatboxMount [⟨true, 0, 4096, 0, 0, 0, 4, [rec1.encode], []⟩]) cold (fun t => t.dev.rdb R.HBX_STATUS_MOUNTED &&
      t.dev.hbx.recs = [rec1] && t.dev.hbx.lsn = 2) = true ∧
    after .format { cold with dev := cold.dev.wr R.HBX_CFG_DRIVES 8 } (fun t => t.dev.out.length = 0) = true ∧
    (let s := store .live id
     after .format { s with dev := s.dev.wr R.HBX_CFG_DRIVES 8 } (fun t => t.dev.out.length = s.dev.out.length + 2)) = true ∧
    after (.pcieLinkChange 3 4) cold (fun t => t.dev.rd (R.HBX_DRIVE_WIDTH 3) = 0) = true ∧
    after (.pcieLinkChange 0 4) cold (fun t => t.dev.rd (R.HBX_DRIVE_WIDTH 0) = 4) = true ∧
    after (.pcieLinkChange 0 0) (store .live id) (fun t => t.dev.driveState 0 = 2) = true ∧
    after (.pcieLinkChange 0 2) (store .live fun h => { h with drives := setV h.drives 0 { HDrive.reset with down := true } })
      (fun t => t.dev.rd (R.HBX_DRIVE_WIDTH 0) = 0) = true ∧
    after .pfailNFall (withCmd 2 true) (fun t => t.dev.hbx.cmds.map HCmd.status = [some 8] && t.dev.rd R.HBX_POWER_FAILS = 1) = true ∧
    after .pfailNRise cold (fun t => t.dev.pins.pfailN) = true := by
  unfold State.BusFree; decide +kernel

/-! The Fuller engines and the HEVC block. -/

/-- Twelve bytes with a repeat. -/
def text : List Byte := [1, 2, 3, 4, 1, 2, 3, 4, 1, 2, 3, 4]

def opensTo (bs orig : List Byte) : Bool := match Fuller.openBlock bs with
  | .ok o => o == orig
  | .error _ => false

/-- A block by hand (Table 14-4): flags, payload; four literals and a match of 8 bytes at distance 4 give the text (R402). -/
def byHand (flags row x0 : Nat) (body orig : List Byte) : List Byte :=
  leBytes 2 0xC1F7 ++ leBytes 1 1 ++ leBytes 1 flags ++ leBytes 4 orig.length ++ leBytes 4 body.length ++ leBytes 2 row ++ leBytes 2 x0
    ++ body ++ leBytes 4 (crc32c orig)
def coded : List Byte := byHand 0 0 0 [0x45, 1, 2, 3, 4, 3, 0] text

theorem witness_FullerBlocksAreLossless :
    1 ≤ text.length ∧ text.length ≤ 1048576 ∧ text.length % 2 = 0 ∧ 2 ≤ 4 ∧ 4 ≤ 16384 ∧ 3 < 4 := by decide +kernel

theorem test_fuller_decodes_by_hand : Fuller.headerCheck coded = 0 ∧ opensTo coded text = true ∧
    opensTo (byHand 1 0 0 text text) text = true ∧ opensTo (byHand 0 0 0 [0x45, 1, 2, 3, 4, 4, 0] text) text = false := by decide +kernel

/-- A descriptor of ring 5 (Table 14-2) at address 4096; input at 8192, the chain at 4224 with one entry, output at 12288. -/
def fulDescr (op flags len : Nat) : List Byte :=
  leBytes 1 op ++ leBytes 1 flags ++ leBytes 2 0x77 ++ leBytes 4 len ++ leBytes 8 8192 ++ leBytes 8 4224 ++ leBytes 4 4096 ++ leBytes 2 4
def fuller (op flags len size : Nat) (input : List Byte) : State := { st fun d =>
    (((set R.FUL_CTRL_EN 1 (as .live d)).wr (R.FUL_RING_SQ_SIZE 5) 4).wr (R.FUL_RING_SQ_TAIL 5) 1).wr (R.FUL_RING_SQ_BASE_LO 5) 4096 with
  mem := Memory.writes (Memory.writes (Memory.writes [] 4096 (fulDescr op flags len)) 4224 (leBytes 8 12288 ++ leBytes 4 size ++ leBytes 4 1))
    8192 input }
def fulEnds (c : Instr) (s : State) (status blocks out safe bad : Nat) : Bool :=
  after c s fun t => (t.dev.fring 5).compl = [⟨0x77, status, 2, blocks, out, safe, bad⟩] && t.dev.rd (R.FUL_RING_SQ_HEAD 5) = 1

/-- A block has a header of 16 bytes, a trailer of 4 and a body no longer than its bytes: it fits 4,096 bytes, and not the last 4 of
DRAM. -/
theorem witness_CompressTakesDescriptors_block (x y : Nat) :
    20 ≤ (Fuller.block false x y text).1.length ∧ (Fuller.block false x y text).1.length ≤ 20 + text.length := by
  have h (n : Nat) : ∀ v : Nat, (leBytes n v).length = n := by
    induction n with
    | zero => simp [leBytes]
    | succ n ih => simp [leBytes, ih]
  simp only [Fuller.block, Bool.false_eq_true, if_false, List.length_append, h]
  split
  · split <;> simp only <;> omega
  · simp only; omega

/-- The chain's one entry lies beyond the usable capacity. -/
def outOfDram (s : State) : State := { s with mem := Memory.writes s.mem 4224 (leBytes 8 (s.dev.dramC - 4)) }

theorem witness_CompressTakesDescriptors :
    (fuller 1 0 12 4096 text).FulNext 5 2 0 [] ∧
    (let s := fuller 1 0 12 4096 text
     let b := s.dev.fulDesc s.mem 5 0
     leAt b 0 1 = 1 ∧ Dev.descOk b true = true ∧ Memory.bytes s.mem (leAt b 8 8) 12 = text ∧
     12 ≤ leAt b 24 4 ∧ bit (Memory.leNum s.mem (4224 + 12) 4) 0 = true) ∧
    after (.compress 5 2) (fuller 1 1 12 4096 text) (fun t => (t.dev.fring 5).stream.map FStream.pending = some text) = true ∧
    fulEnds (.compress 5 2) (fuller 3 0 12 4096 text) 2 0 0 0 0 = true ∧
    fulEnds (.compress 5 2) (fuller 1 4 11 4096 text) 2 0 0 0 0 = true ∧
    (let s := outOfDram (fuller 1 0 12 4096 text)
     Memory.leNum s.mem 4224 8 = s.dev.dramC - 4 ∧ 20 ≤ s.dev.dramC ∧ 12 + 20 ≤ Memory.leNum s.mem (4224 + 8) 4) := by
  unfold State.FulNext State.EnginesRun State.Sound; decide +kernel

def badText : List Byte := coded.set 16 0x44
def fulPosting : State := st fun d => ((d.putRing 5 { d.fring 5 with compl := [⟨0x77, 0, 2, 1, 30, 12, 0⟩] }).wr (R.FUL_RING_CQ_SIZE 5) 2).wr
  (R.FUL_RING_CQ_BASE_LO 5) 4096

theorem witness_DecompressAndRings :
    (fuller 2 0 27 4096 coded).FulNext 5 2 0 [] ∧
    (let s := fuller 2 0 27 4096 coded
     fulEnds (.decompress 5 2) s 0 1 12 27 0 = true ∧
     after (.decompress 5 2) s (fun t => Memory.bytes t.mem 12288 12 = text && t.dev.rd R.FUL_BLK_DECOMP = 1) = true) ∧
    fulEnds (.decompress 5 2) (fuller 2 0 0 4096 []) 0 0 0 0 0 = true ∧
    fulEnds (.decompress 5 2) (outOfDram (fuller 2 0 27 4096 coded)) 8 0 0 0 0 = true ∧
    (let s : State := { cold with dev := cold.dev.putRing 5 { cold.dev.fring 5 with releasing := true } }
     s.BusFree 0x41025C ∧ after (.fulRingReset 5) s (fun t => t.dev.out = [.bus 0 true] && (t.dev.fring 5).releasing) = true) ∧
    (Fuller.headerCheck [1, 2] ≠ 0 ∧ fulEnds (.decompress 5 2) (fuller 2 0 2 4096 [1, 2]) (Fuller.headerCheck [1, 2]) 0 0 0 0 = true) ∧
    (Fuller.headerCheck badText = 0 ∧ opensTo badText text = false) ∧
    fulEnds (.decompress 5 2) (fuller 2 8 badText.length 4096 badText) 0 0 12 badText.length 1 = true ∧
    after (.decompress 5 2) (fuller 2 8 badText.length 4096 badText) (fun t => Memory.bytes t.mem 12288 12 = List.replicate 12 0) = true ∧
    ((fulPosting.dev.fring 5).compl = [⟨0x77, 0, 2, 1, 30, 12, 0⟩] ∧ fulPosting.dev.fulCqSize 5 = 2 ∧
      ((fulPosting.dev.fring 5).cqAt + 1) % 2 ≠ fulPosting.dev.rd (R.FUL_RING_CQ_HEAD 5) % 2 ∧
      fulPosting.dev.lulling (.fuller 2) = false ∧ fulPosting.dev.poison = []) ∧
    after (.descriptorComplete 5) fulPosting (fun t => (t.dev.fring 5).compl.isEmpty && (t.dev.fring 5).cqAt = 1) = true ∧
    (cold.BusFree 0x41025C ∧ (cold.dev.fring 5).compl = []) ∧
    after (.fulRingReset 5) (fuller 1 0 12 4096 text) (fun t => (t.dev.fring 5).releasing && t.dev.rd (R.FUL_RING_SQ_TAIL 5) = 0 &&
      (t.dev.fring 5).compl.map FCompl.status = [1]) = true ∧
    after (.fulRingRelease 5) cold (fun t => !(t.dev.fring 5).releasing) = true ∧
    (let s := st fun d => { d with thm := { d.thm with lulls := [⟨.fuller 2, 8, 100⟩] } }
     s.dev.thm.lulls.find? (fun l => l.unit = .fuller 2) = some ⟨.fuller 2, 8, 100⟩ ∧
     after (.lullEnd (.fuller 2)) s (fun t => !t.dev.lulling (.fuller 2)) = true) := by
  unfold State.FulNext State.EnginesRun State.Sound State.BusFree; decide +kernel

/-- Session 7 may open: it encodes frame store 2, 64 × 64, LIVE. -/
def mayOpen (fmt : Nat) : State := st fun d =>
  let d := set R.HVC_CTRL_EN 1 (set (R.HVC_S_CTRL_CLASS 7) 1 (set (R.HVC_S_CTRL_FS 7) 2 (set (R.HVC_S_AU_SIZE 7) 16 (set (R.HVC_S_CAP 7) 20000
    (set (R.HVC_S_PERIOD 7) 256 (set (R.HVC_S_BUF_BYTES 7) 1 (as .live d)))))))
  set (R.CMP_FS_CTRL_FMT 2) fmt (set (R.CMP_FS_WH_W 2) 64 (set (R.CMP_FS_WH_H 2) 64 (set R.SCN_LGEN_LT 100 d)))
def picture : HPic := ⟨0, 0, 0, false, 0, 1, 1, 0, [], false, [], 0, 30, 0, 0, false, false, 0, false, 0, 0, ⟨true, 256, 0, 20000, 0, 51⟩, none, 0,
  false, []⟩
def session (dec : Bool) (p : Option HPic) : State := st fun d =>
  let d := set R.HVC_CTRL_EN 1 (set (R.HVC_S_AU_SIZE 7) 16 (set (R.HVC_S_CAP 7) 20000 (set (R.HVC_S_BUF_BYTES 7) 1 (set (R.HVC_S_PERIOD 7) 256 (as .live d)))))
  let d := d.putHs 7 { d.hs 7 with open_ := true, live := true, dec := dec, w := 64, h := 64, pic := p, latches := [0] }
  { d with hvc := { d.hvc with core := setV d.hvc.core (b2n dec) (some 7) } }

theorem witness_SessionsOpenAndClose :
    ((mayOpen 1).BusFree 0x421384 ∧ ((mayOpen 1).dev.hs 7).open_ = false ∧ (mayOpen 1).dev.cm R.HVC_CTRL_EN ≠ 0 ∧
      (mayOpen 1).dev.cm (R.HVC_S_CTRL_CLASS 7) = 1 ∧ (mayOpen 1).dev.liveOrWarm = true) ∧
    ((mayOpen 1).start.applyComm fun x => (Dev.hvcPicKeys 7 ++ Dev.hvcOpenKeys 7).contains x).openCheck 7 = 0 ∧
    ((mayOpen 0).start.applyComm fun x => (Dev.hvcPicKeys 7 ++ Dev.hvcOpenKeys 7).contains x).openCheck 7 = 2 ∧
    after (.sessionOpen 7) (mayOpen 1) (fun t => (t.dev.hs 7).open_ && (t.dev.hs 7).live && (t.dev.hs 7).w = 64 &&
      t.dev.rd (R.HVC_S_CTRL_OPEN 7) = 1) = true ∧
    after (.sessionOpen 7) (mayOpen 0) (fun t => t.dev.rd (R.HVC_S_STATUS_ERROR 7) = 2) = true ∧
    after (.sessionOpen 7) cold (fun t => t.dev.rd (R.HVC_S_STATUS_ERROR 7) = 4) = true ∧
    after (.sessionOpen 7) (session false none) (fun t => t.dev.rd (R.HVC_S_STATUS_ERROR 7) = 5) = true ∧
    after (.sessionClose 7) (session false none) (fun t => t.dev.hs 7 = HSession.reset) = true ∧
    after (.sessionClose 7) (session false (some picture)) (fun t => (t.dev.hs 7).closing && (t.dev.hs 7).open_) = true ∧
    after (.sessionFlush 7) (session true (some picture)) (fun t => (t.dev.hs 7).flush) = true ∧
    (cold.BusFree 0x420010 ∧ after (.restartArmWrite 1) cold (fun t => t.dev.rd R.HVC_RESTART_ARM_ARM = 1) = true) := by
  unfold State.BusFree; decide +kernel

theorem witness_PicturesAreCodedAndPosted :
    ((∀ j : Fin 32, ((session false (some picture)).dev.hs j).open_ = true → ((session false (some picture)).dev.hs j).live = true) ∧
      (session false (some picture)).dev.hvc.core[b2n false]? = some (some 7) ∧ ((session false (some picture)).dev.hs 7).live = true ∧
      ((session false (some picture)).dev.hs 7).pic = some picture ∧ picture.row < picture.rows ∧
      (session true (some picture)).dev.hvc.core[b2n true]? = some (some 7)) ∧
    ((session false (some { picture with row := 1 })).Sound ∧ (session false (some { picture with row := 1 })).dev.poison = [] ∧
      ((session false (some { picture with row := 1 })).dev.hs 7).closing = false) ∧
    after (.pictureComplete 7) (session false (some picture)) (fun t => (t.dev.hs 7).pic = some picture) = true ∧
    (let s := session false (some picture)
     let t : State := { s with dev := { s.dev with wtm := { s.dev.wtm with wln := 3 } } }
     ((3 * t.dev.hvcPeriod 7 / 256 : Nat) : Int) ≤ sext 48 (t.dev.wtm.wln + 2 ^ 48 - picture.latch) ∧
     after (.pictureWatchdog 7) { t with dev := { t.dev with hvc := { t.dev.hvc with core := Vector.replicate 2 none } } }
       (fun t => t.dev.rd (R.HVC_S_WATCHDOG 7) = 1 && (t.dev.hs 7).pic.map HPic.fallback = some true) = true) ∧
    (let s := session false (some { picture with row := 1 })
     let t : State := { s with dev := s.dev.putHs 7 { s.dev.hs 7 with queue := [picture] } }
     (t.dev.hs 7).queue = [picture] ∧ (t.dev.hs 7).pic = some { picture with row := 1 } ∧ (s.dev.hs 7).queue = []) ∧
    (let s := session true (some { picture with row := 1, bump := 0 })
     s.Sound ∧ s.dev.poison = [] ∧ (s.dev.hs 7).closing = false ∧ (s.dev.hs 7).dec = true) ∧
    ((session true none).dev.cm R.HVC_CTRL_EN ≠ 0 ∧ ((session true none).dev.hs 7).dec = true ∧ ((session true none).dev.hs 7).closing = false) := by
  unfold State.Sound; decide +kernel

/-! Audio, Ethernet, PTP and the cue protocol. -/

/-- Domain 1 has run frame 4; dt later frame 5 starts. Input port 2, or output port 2, is the domain's only port. -/
def audio (x : DevState) (input : Bool) : State := st fun d =>
  let d := as x d
  let d := d.putAudDom 1 ⟨some 4, some 0, 4, false, false⟩
  let d := if input then set (R.AUD_IN_CTRL_EN 2) 1 (set (R.AUD_IN_CTRL_DETECT_EN 2) 0 (set (R.AUD_IN_CTRL_DOM 2) 1 (set (R.AUD_IN_RING_BLOCKS 2) 8 d)))
    else set (R.AUD_OUT_CTRL_EN 2) 1 (set (R.AUD_OUT_CTRL_DOM 2) 1 d)
  { d with aud := { d.aud with
    ins := setV d.aud.ins 2 { d.audIn 2 with block := some ⟨0, 0, false, false⟩ }, blk := setV d.aud.blk 2 (some 0) } }
def frame5 : Nat := cold.dev.audStart 1 5

theorem witness_AudioFramesAreStoredAndDriven :
    (let s := audio .live true
     let n := (s.start.pass frame5).audIndex 1 (s.start.pass frame5).stc
     s.dev.domainStopped Dev.audFamily 1 = false ∧ s.dev.inService = true ∧ s.Sound ∧ s.dev.poison = [] ∧ s.dev.late = [] ∧
     s.dev.rdb (R.AUD_DOM_CTRL_MODE 1) = false ∧ s.dev.rdb (R.AUD_DOM_STATUS_RATE_ERR 1) = false ∧
     s.dev.audDom 1 = ⟨some 4, some 0, (s.dev.audDom 1).seen, false, (s.dev.audDom 1).moved⟩ ∧ (s.dev.audDom 1).seen < 63 ∧
     4 + 1 = n ∧ 4 / 64 = n / 64 ∧ n % 64 ≠ 63 ∧ s.dev.lv (R.AUD_IN_CTRL_DOM 2) = 1 ∧
     (∀ q : Fin 4, q ≠ 2 → s.dev.lv (R.AUD_IN_CTRL_DOM q) ≠ 1) ∧ (∀ q : Fin 4, s.dev.lv (R.AUD_OUT_CTRL_DOM q) ≠ 1) ∧
     s.dev.audInRuns 2 = true ∧ (s.dev.audIn 2).block = some ⟨0, 0, false, false⟩ ∧ s.dev.lvb (R.AUD_IN_CTRL_DETECT_EN 2) = false ∧
     (s.dev.audIn 2).pairs.all Option.isNone = true ∧ s.dev.rd (R.AUD_IN_NONAUDIO 2) = 0 ∧
     after (.audioFrame 1 ⟨frame5, false⟩ (s.dev.frameBits 1) [[], [], List.replicate 1024 true, []]) s
       (fun t => t.dev.audHolds 2 5 && t.dev.rdb (R.AUD_DOM_STATUS_RUN 1) && Memory.read t.mem (s.dev.audAddr 2 5 0) = 255) = true ∧
     after (.audioFrame 1 ⟨frame5, false⟩ 1 []) s (fun t => t.dev.audHolds 2 5 && t.dev.rd (R.AUD_GAP_FRAMES 2) = 1) = true) ∧
    (let s := audio .live false
     (∀ q : Fin 4, s.dev.lv (R.AUD_IN_CTRL_DOM q) ≠ 1) ∧ s.dev.lv (R.AUD_OUT_CTRL_DOM 2) = 1 ∧
     (∀ q : Fin 4, q ≠ 2 → s.dev.lv (R.AUD_OUT_CTRL_DOM q) ≠ 1) ∧ s.dev.audOutRuns 2 = true ∧
     s.dev.aud.blk[2]? = some (some (5 / 64)) ∧ s.dev.audDriven = true ∧
     after (.audioFrame 1 ⟨frame5, false⟩ 1 []) s (fun t => t.dev.out.length = 1) = true) ∧
    (audio .cold false).dev.audDriven = false ∧
    (let s := st fun d => as .cold { d with clk := ⟨[(Dev.audFamily, 1)], none⟩ }
     s.dev.domainStopped Dev.audFamily 1 = true) ∧
    ((audio .live true).dev.rdb (R.AUD_DOM_CTRL_FS_EDGE 1) = false ∧
     after (.audioFrame 1 ⟨frame5, true⟩ 1 []) (audio .live true) (fun t => !t.dev.audHolds 2 5 && t.dev.now = (audio .live true).dev.now) = true) := by
  unfold State.Sound; decide +kernel

/-- An untagged frame, one with tag 5, and a fragment. -/
def plain : List Byte := List.replicate 12 1 ++ [0x08, 0x06] ++ List.replicate 40 0
def tagged : List Byte := List.replicate 12 1 ++ [0x81, 0x00, 0x00, 0x05, 0x08, 0x06] ++ List.replicate 40 0
def piece : List Byte := List.replicate 12 1 ++ [0x08, 0x00, 0x45, 0, 0, 40, 0, 0, 0x20, 0] ++ List.replicate 40 0

/-- Port 1 is enabled and has link; PTP runs on it. -/
def network (f : Dev → Dev) : State := st fun d =>
  f (set (R.ETH_PORT_CTRL_EN 1) 1 (set R.PTP_CTRL_EN 1 (set R.PTP_CTRL_PORT_SEL 1 ((as .live d).wr (R.ETH_PORT_STATUS_LINK 1) 1))))
/-- Stream 6 sends session 7, whose oldest access unit has 3 bytes. -/
def streaming (wln : Nat) : State := { network fun d =>
    let d := set (R.ETH_STREAM_CTRL_EN 6) 1 (set (R.ETH_STREAM_CTRL_SESSION 6) 7 (set (R.ETH_STREAM_CTRL_PORT 6) 1 d))
    let d := set (R.HVC_S_BUF_BYTES 7) 1 (set (R.HVC_S_AU_SIZE 7) 16 (set (R.HVC_S_PERIOD 7) 256 (set (R.HVC_S_AU_BASE_LO 7) 8192 d)))
    let d := (d.putHs 7 { d.hs 7 with open_ := true, latches := [0] }).wr (R.HVC_S_AU_PTRS_AU_DEV 7) 1
    { d with wtm := { d.wtm with wln := wln } } with
  mem := Memory.writes [] 8200 (leBytes 4 7) }

theorem witness_EthernetAndStreams :
    ((network id).dev.rdb (R.ETH_PORT_CTRL_EN 1) = true ∧ (network id).dev.rdb (R.ETH_PORT_CTRL_EN 0) = false ∧
      (network id).dev.ethRuns 1 = true ∧ (network id).dev.ethRuns 0 = false) ∧
    after (.ethLinkChange 1 true true false) (network id) (fun t => t.dev.rdb (R.ETH_PORT_STATUS_FEC_LOCK 1) &&
      !t.dev.rdb (R.ETH_PORT_STATUS_LINK 1)) = true ∧
    after (.ethServiceFrame 1 (List.replicate 1523 0)) (network id) (fun t => t.dev.rd R.ETH_OVERSIZE = 1) = true ∧
    (List.replicate 1522 (0 : Byte)).length ≤ 1522 ∧
    ((streaming 0).dev.rtpSession 6 = 7 ∧ (streaming 0).dev.auLatch 7 = some 0 ∧ (streaming 0).dev.rtpRuns 6 = true ∧
      (streaming 0).dev.auLate 7 0 = false ∧ (streaming 0).dev.poison = [] ∧ (streaming 0).dev.late = [] ∧
      (streaming 1).dev.auLate 7 0 = true ∧ (streaming 1).dev.cmb (R.ETH_STREAM_CTRL_EN 6) = true ∧ (streaming 1).dev.state = .live ∧
      cold.dev.auLatch 7 = none ∧ cold.dev.rtpRuns 6 = false) ∧
    ((network id).dev.vlanStrip 1 plain = some plain ∧ (network id).dev.vlanStrip 1 tagged = none ∧ Dev.ipFragment plain = false ∧
      (network id).dev.vlanStrip 1 piece = some piece ∧ Dev.ipFragment piece = true ∧
      (network fun d => set (R.ETH_PORT_CTRL_VLAN_EN 1) 1 (set (R.ETH_PORT_CTRL_VID 1) 5 d)).dev.vlanStrip 1 tagged = some plain) ∧
    after (.ethServiceFrame 1 tagged) (network id) (fun t => t.dev.out.isEmpty) = true ∧
    after (.ethServiceFrame 1 piece) (network id) (fun t => t.dev.out.isEmpty) = true ∧
    ((streaming 0).dev.ptp.pace.getD 6 0 ≤ (streaming 0).dev.now ∧ (streaming 0).dev.unreadable ((streaming 0).dev.auAddr 7) 32 = false ∧
      (streaming 0).dev.unreadable 0 7 = false) ∧
    (let s : State := { streaming 0 with dev := { (streaming 0).dev with ptp := { (streaming 0).dev.ptp with pace := setV (streaming 0).dev.ptp.pace 6 9 } } }
     s.dev.now < s.dev.ptp.pace.getD 6 0 ∧ after (.rtpAuSend 6) s (fun t => t.dev.out.isEmpty) = true) ∧
    (let s : State := { streaming 0 with dev := { (streaming 0).dev with poison := [(streaming 0).dev.auAddr 7 / 32] } }
     s.dev.unreadable (s.dev.auAddr 7) 32 = true ∧
     after (.rtpAuSend 6) s (fun t => t.dev.out.isEmpty && t.dev.rd (R.HVC_S_CLI_PTR 7) = 7) = true) ∧
    after (.rtpLateDrop 6) (streaming 1) (fun t => t.dev.rd (R.ETH_STREAM_LATE_DROP 6) = 1 && t.dev.rd (R.HVC_S_CLI_PTR 7) = 7) = true
    := by decide +kernel

def ann : Announce := ⟨0, 77, 127, 88, 128, 6, 0x21, 100, 128, 1, 1000000000⟩
/-- The master 77 on port 1 is in use. -/
def synced (f : PtpPart → PtpPart) : State := network fun d =>
  { d with ptp := f { d.ptp with sel := some (1, 77), masters := [⟨1, ann, 5, some 4⟩] } }
def msg (two : Bool) : PtpMsg := ⟨0, 77, 127, 3, 65536000, 0, two, 0⟩

theorem witness_MastersAndSyncs :
    ((network id).dev.ptpRuns 1 0 127 = true ∧ (network id).dev.ptpRuns 1 0 1 = false ∧ (network id).dev.ptpRuns 1 2 127 = false ∧ (network id).dev.ptp.sel = none ∧
      (network id).dev.ptp.masters = [] ∧ (network id).dev.cm R.PTP_CTRL_PORT_SEL = 1) ∧
    after (.announceReceive 1 9 ann) (network id) (fun t => t.dev.ptp.masters = [⟨1, ann, 9, none⟩]) = true ∧
    (let s := network fun d => { d with ptp := { d.ptp with masters := [⟨1, ann, 5, none⟩] } }
     s.dev.now + 9 ≤ 5 + 4 * nanos ann.interval ∧ ann.steps < 255 ∧
     after (.announceReceive 1 9 ann) s (fun t => t.dev.ptp.sel = some (1, 77) && t.dev.rd R.PTP_STATUS_SERVO = 1 && t.dev.ptp.acq)
       = true) ∧
    ((synced id).dev.ptp.masters = [⟨1, ann, 5, some 4⟩] ∧ (synced id).dev.ptp.sel = some (1, 77)) ∧
    after (.announceTimeout 1) (synced id) (fun t => t.dev.ptp.sel.isNone && t.dev.rd R.PTP_STATUS_SERVO = 3) = true ∧
    ((synced id).dev.fromMaster 1 77 = true ∧ (synced id).dev.fromMaster 1 78 = false ∧ (synced id).dev.ptp.first = true) ∧
    after (.syncReceive 1 0 (msg true)) (synced id) (fun t => t.dev.ptp.twoStep.isSome) = true ∧
    after (.syncReceive 1 0 (msg false)) (synced id) (fun t => t.dev.rd R.PTP_SYNC_RX = 1 && t.dev.ptp.sync.isSome) = true ∧
    (let s := synced fun q => { q with first := false, acq := false, good := 15 }
     s.dev.rd R.PTP_STATUS_SERVO ≠ 3 ∧
     after (.syncReceive 1 0 (msg false)) s (fun t => t.dev.rd R.PTP_STATUS_SERVO = 1 && t.dev.rd R.PTP_OFFSET = 1000) = true ∧
     after (.syncReceive 1 0 { msg false with time := 6553600 }) s (fun t => t.dev.rd R.PTP_STATUS_SERVO = 2 && t.dev.rd R.PTP_OFFSET = 100)
       = true) ∧
    after (.followUpReceive 1 (msg false)) (synced fun q => { q with twoStep := some (1, 3, 8, 0) })
      (fun t => t.dev.ptp.sync = some (8, 65536000) && t.dev.ptp.twoStep.isNone) = true ∧
    (let s := synced fun q => { q with masters := [⟨1, { ann with domain := 126 }, 5, some 4⟩] }
     s.dev.ptpRuns 1 0 127 = true ∧ s.start.ptpDrift.ptpStale = true ∧ s.start.ptpDrift.wantedMaster = none ∧
     after (.syncReceive 1 0 (msg false)) s (fun t => t.dev.ptp.sel.isNone && t.dev.rd R.PTP_STATUS_SERVO = 3) = true) := by decide +kernel

def asked (f : PtpPart → PtpPart) : State := synced fun q => f { q with req := some (1, 3, some 0), sync := some (0, 655360) }

theorem witness_ExchangesMoveTheStc :
    ((synced id).dev.ptp.sel = some (1, 77) ∧ (synced id).dev.ptpRuns 1 (synced id).dev.ptpTransport ((synced id).dev.cm R.PTP_CTRL_DOMAIN) = true ∧
      (synced id).dev.ptp.tsq.length < 64 ∧ cold.dev.ptp.sel = none) ∧
    (let s := synced fun q => { q with reqAt := 5 }
     s.dev.now < s.dev.ptp.reqAt + nanos s.dev.ptp.granted ∧ after (.delayReqSend 0) s (fun t => t.dev.out.isEmpty) = true) ∧
    after (.delayReqSend 0) (synced id) (fun t => t.dev.ptp.tsq.length = 1 && t.dev.out = [.delayReq 1 0]) = true ∧
    after (.delayReqSend 0) (synced fun q => { q with tsq := List.replicate 64 ⟨0, 1, 1, 0⟩ }) (fun t => t.dev.rd R.PTP_TS_OVF = 1) = true ∧
    (cold.BusFree 0x440044 ∧ after .tsqPop (synced fun q => { q with tsq := [⟨0, 1, 1, 0⟩] }) (fun t => t.dev.ptp.tsq.isEmpty) = true) ∧
    ((asked id).dev.ptp.req = some (1, 3, some 0) ∧ (asked id).dev.ptp.sync = some (0, 655360) ∧ (asked id).dev.fromMaster 1 77 = true) ∧
    after (.delayRespReceive 1 0 { msg false with time := 655360 }) (asked id)
      (fun t => t.dev.stcOff = 655360 && !t.dev.ptp.first && t.dev.rd R.PTP_OFFSET = 10) = true ∧
    after (.delayRespReceive 1 0 { msg false with time := 655360 }) (asked fun q => { q with first := false, acq := true })
      (fun t => t.dev.stcOff = 0 && t.dev.ptp.exch = [655360]) = true ∧
    (let s := asked fun q => { q with first := false, acq := true, exch := List.replicate 7 655360 }
     655360 ≤ s.dev.jumpLimit ∧
     after (.delayRespReceive 1 0 { msg false with time := 655360 }) s (fun t => t.dev.stcOff = 655360 && !t.dev.ptp.acq) = true) ∧
    (let s := asked fun q => { q with first := false, acq := true, exch := List.replicate 7 (2 ^ 60) }
     s.dev.jumpLimit < 2 ^ 60 ∧
     after (.delayRespReceive 1 0 { msg false with time := 655360 }) s (fun t => t.dev.stcOff = 0 &&
       t.dev.rdb R.WTM_STATUS_JUMP_PENDING && t.dev.rd R.PTP_JUMPS_REFUSED = 1) = true) := by
  unfold State.BusFree; decide +kernel

/-! Cues. -/

def key : CueKey := ⟨3, List.replicate 32 0x55, some 9, [(9, [1, 2, 3])], 0⟩
/-- A request under the key. -/
def request (kind seq : Nat) (body : List Byte) : List Byte := cueMessage key.key kind 3 0 seq 0 0 body
def cued (f : CuePart → CuePart) : State := network fun d => { d with cue := f { d.cue with keys := [key] } }
def job (ops : List (Nat × List Byte)) : CueJob := ⟨ops, 0, [], 0, 0, none, none⟩
def from1 : CueFrom := .eth 1 false [10, 0, 0, 1] 5000 R.ETH_CUE_PORT.reset

theorem witness_CueMessagesAreTaken :
    ((cued id).dev.inService = true ∧ (cued id).dev.ethRuns 1 = true ∧ cueLenOk (request 1 10 []) = true ∧ cueLenOk [] = false ∧
      (cued id).dev.cueKey (cueKeyId (request 1 10 [])) = some key ∧ cold.dev.cueKey (cueKeyId (request 1 10 [])) = none) ∧
    (let bs := request 1 10 []
     beAt bs 0 2 = 0x5A43 ∧ beAt bs 2 1 = 1 ∧ hmacSha256 key.key (bs.take (bs.length - 32)) = bs.drop (bs.length - 32) ∧
     cueKind bs = 1 ∧ cueBody bs = [] ∧ cueScheduled bs = false ∧ (key.replies.find? fun x => x.1 = cueSeq bs) = none ∧ cueSeq bs = 10) ∧
    after (.cueMessageReceive from1 (request 1 10 [])) (cued id) (fun t =>
      t.dev.out.length = 1 && t.dev.cue.keys.map CueKey.high = [some 10]) = true ∧
    after (.cueMessageReceive (.eth 1 false [10, 0, 0, 1] 5000 9) (request 1 10 [])) (cued id) (fun t => t.dev.out.isEmpty &&
      t.dev.cue.keys = [key]) = true ∧
    (let s : State := { cued fun q => { q with spi := [(false, [7, 7, 7])] } with dev := as .yielded (cued fun q => { q with spi := [(false, [7, 7, 7])] }).dev }
     s.dev.inService = false ∧ s.dev.state ≠ .safe ∧ after .readMsg s (fun t => t.dev.out.isEmpty && t.dev.cue.spi.length = 1) = true) ∧
    after (.cueMessageReceive from1 ((request 1 10 []).set 30 1)) (cued id) (fun t => t.dev.rd R.ETH_AUTH_FAIL = 1) = true ∧
    after (.cueMessageReceive from1 (request 2 10 [])) (cued id) (fun t => t.dev.out.isEmpty && t.dev.cue.keys = [key]) = true ∧
    after (.cueMessageReceive from1 (request 1 9 [])) (cued id) (fun t => t.dev.rd R.ETH_DUP_REPLY = 1) = true ∧
    after (.cueMessageReceive from1 (request 1 8 [])) (cued id) (fun t => t.dev.rd R.ETH_REPLAY_DROP = 1) = true ∧
    after (.cueMessageReceive from1 (request 1 10 [])) (cued fun q => { q with queue := List.replicate 64 ⟨1, .spi, []⟩ })
      (fun t => t.dev.rd R.ETH_BUSY = 1) = true ∧
    after (.cueMessageReceive from1 (request 1 10 [])) (cued fun q => { q with queue := List.replicate 63 ⟨1, .spi, []⟩, job := some (job []) })
      (fun t => t.dev.cue.queue.length = 64 && t.dev.rd R.ETH_RX_MSG = 1) = true ∧
    after (.cueMessageReceive from1 (request 1 10 [] ++ [0])) (cued id) (fun t => t.dev.rd R.ETH_BAD_FRAME = 1) = true ∧
    after (.cueMessageReceive from1 (List.replicate 1480 0)) (cued id) (fun t => t.dev.rd R.ETH_BAD_FRAME = 1) = true ∧
    after (.cueMessageReceive from1 (List.replicate 1481 0)) (cued id) (fun t => t.dev.rd R.ETH_OVERSIZE = 1) = true ∧
    after (.writeMsg (request 1 10 [])) (cued fun q => { q with spiOpen := 16 }) (fun t => t.dev.rd R.ETH_SPI_DROP = 1) = true ∧
    after .readStatus (cued fun q => { q with spi := [(false, [7, 7, 7])] }) (fun t => t.dev.out = [.spi [1, 0, 3]]) = true ∧
    after .readMsg (cued fun q => { q with spi := [(false, [7, 7, 7])] }) (fun t => t.dev.out = [.spi [7, 7, 7]] && t.dev.pins.spitIrqN)
      = true := by decide +kernel

/-- The job at an operation, with a COMMIT after it. -/
def at_ (x : DevState) (op : Nat) (a : List Byte) (f : Dev → Dev) : State := st fun d =>
  f (as x { d with cue := { d.cue with job := some (job [(op, a), (7, [1])]), buffer := 4096, bufSize := 65536 } })
def ackTo : List Byte := beBytes 4 R.MVL_ACK_TO.addr ++ beBytes 4 33 ++ beBytes 4 0xFFFFFFFF

/-- A write of ACK_TO acts as no other register does. -/
theorem ackTo_plain (v : Nat) : (at_ .live 1 ackTo id).start.otherWrite [] R.MVL_ACK_TO.addr v = none := by rfl

/-- Every page that could be a shadow page is in use: the pool by carved regions, DRAM's by pages that wait for a camera. -/
def noPages (d : Dev) : Dev :=
  { d with tbl := { d.tbl with carved := 112, tables := [⟨3, 5, [], [], [], List.replicate Config.dramPages ⟨0, .dram, []⟩⟩] } }

theorem witness_CueOperationsReachTheirTargets_noPages (d : Dev) : (noPages d).noFreePage 2 0 4095 = true := by
  have h : (noPages d).nextPageLoc 2 0 = none := by
    simp [noPages, Dev.nextPageLoc, Dev.ownFree, Dev.leftFree, Dev.tblInst, Dev.poolFree, Dev.pagesIn]
  have e (p : Nat) : (noPages d).ensureShadow 2 0 p = noPages d := by
    simp [Dev.ensureShadow, h, show ((noPages d).tblInst 2 0).shadow = [] from rfl]
  simp [Dev.noFreePage, e, show ((noPages d).tblInst 2 0).shadow = [] from rfl]

theorem witness_CueOperationsReachTheirTargets :
    ((at_ .live 1 ackTo id).CueAt (job [(1, ackTo), (7, [1])]) 1 ackTo [(7, [1])] ∧
      (at_ .live 1 ackTo id).dev.accessStopped (beAt ackTo 0 4) = false ∧ beAt ackTo 0 4 = R.MVL_ACK_TO.addr ∧
      (at_ .live 1 ackTo id).dev.mirrorOn = false ∧ beAt ackTo 8 4 = 0xFFFFFFFF ∧
      (match regAt R.MVL_ACK_TO.addr with
        | some fs => decide ((at_ .live 1 ackTo id).start.bootOnly fs = false ∧ (fs.map Fld.key).Nodup ∧
            R.WTM_COMMIT_PEND_DIRTY.key ∉ fs.map Fld.key ∧ R.TOP_STATE.key ∉ fs.map Fld.key ∧ R.VEER_STATUS_MIRROR.key ∉ fs.map Fld.key)
        | none => false) = true) ∧
    after .regWrite (at_ .live 1 ackTo id) (fun t => t.dev.rd R.MVL_ACK_TO = 33 && t.dev.cue.job.map CueJob.index = some 1) = true ∧
    (let s := at_ .live 2 (beBytes 4 0x20004 ++ [1]) id
     s.start.beforeRead 0x20004 = s.start ∧ (regAt 0x20004).isSome = true ∧
     after .regRead s (fun t => (t.dev.cue.job.map fun j => j.data.length) = some 4) = true) ∧
    (let s := at_ .live 2 (beBytes 4 0x110000 ++ [1]) fun d => { d with clk := ⟨[(5, 1)], none⟩ }
     s.dev.accessStopped 0x110000 = true ∧
     after .regRead s (fun t => t.dev.clk.wait.isSome && t.dev.cue.job.map CueJob.index = some 0) = true) ∧
    (let a := [2, 0] ++ beBytes 4 4095 ++ [0xAA, 0xBB]
     let s := at_ .live 3 a id
     s.dev.tbl.load = none ∧ beAt a 2 4 < s.dev.tblEntries (beAt a 0 1) (beAt a 1 1) ∧ s.dev.tblGroup 2 < 8 ∧
     after .tblWriteOp s (fun t => t.dev.cue.job.map CueJob.index = some 1) = true) ∧
    (let s := at_ .live 3 ([2, 0] ++ beBytes 4 4095 ++ [0xAA, 0xBB]) id
     s.dev.noFreePage 2 0 4095 = false) ∧
    (let s := at_ .live 3 ([2, 0] ++ beBytes 4 4095 ++ [0xAA, 0xBB]) noPages
     s.CueAt (job [(3, [2, 0] ++ beBytes 4 4095 ++ [0xAA, 0xBB]), (7, [1])]) 3 ([2, 0] ++ beBytes 4 4095 ++ [0xAA, 0xBB]) [(7, [1])] ∧
     s.dev.tbl.load = none ∧ s.dev.cue.queue = [] ∧ (job [(3, [2, 0] ++ beBytes 4 4095 ++ [0xAA, 0xBB]), (7, [1])]).msg = none ∧
     (job [(3, [2, 0] ++ beBytes 4 4095 ++ [0xAA, 0xBB]), (7, [1])]).fired = none) ∧
    (let s := at_ .live 4 (beBytes 4 8 ++ [5, 6]) id
     s.Sound ∧ s.dev.poison = [] ∧ after .memWrite s (fun t => t.mem = [(4104, 5), (4105, 6)]) = true) ∧
    (let a := beBytes 4 900 ++ [4, 0] ++ beBytes 2 77 ++ beBytes 4 5 ++ beBytes 4 0 ++ beBytes 2 0
     let s := at_ .live 5 a id
     let e := calArgs a
     s.dev.calCheck e.target e.action e.groups e.arg0 e.arg1 = 0 ∧
     after .calInsertOp s (fun t => t.dev.cal.entries.map CalEntry.tag = [77]) = true) ∧
    (let s := at_ .live 6 (beBytes 2 77) fun d => { d with cal := { d.cal with entries := [⟨900, 4, 0, 77, 5, 0, false⟩] } }
     after .calCancelOp s (fun t => t.dev.cal.entries.isEmpty && t.dev.cue.job.map CueJob.removed = some 1) = true) ∧
    after .calCancelOp (at_ .live 6 (beBytes 2 77) id) (fun t => t.dev.cue.job.isNone) = true ∧
    after .storeCue (at_ .live 8 [7, 1, 2, 3] id) (fun t => t.dev.cue.stored = [(7, [1, 2, 3])]) = true ∧
    after .status (at_ .live 0xC [] id) (fun t => (t.dev.cue.job.map fun j => j.data.length) = some 20) = true ∧
    (let s := at_ .live 0xD [] fun d => { d with cue := { d.cue with
        job := some { job [(0xD, []), (7, [1])] with msg := some ⟨1, .spi, request 1 10 []⟩ } } }
     after .subscribe s (fun t => t.dev.cue.subs = [⟨3, .spi⟩]) = true) ∧
    (let a : List Byte := 6 :: (List.range 16).map (BitVec.ofNat 8) ++ [0x12, 0x34]
     let s := at_ .live 0xD a fun d => { d with cue := { d.cue with
        job := some { job [(0xD, a), (7, [1])] with msg := some ⟨1, .udp 1 false [10, 0, 0, 1] 5000, request 1 10 []⟩ } } }
     after .subscribe s (fun t => t.dev.cue.subs = [⟨3, .udp 1 true ((List.range 16).map (BitVec.ofNat 8)) 0x1234⟩]) = true) ∧
    ((at_ .live 4 (beBytes 4 8 ++ [5, 6]) id).dev.cue.buffer + 8 + 2 ≤ (at_ .live 4 (beBytes 4 8 ++ [5, 6]) id).dev.dramC) := by
  unfold State.CueAt State.Sound; decide +kernel

def cueing (x : DevState) (op : Nat) (a : List Byte) (f : Dev → Dev) : State := at_ x op a fun d => f (d.wr R.WTM_STATUS_JUMP_PENDING 1)
def fires (action arg0 : Nat) (stored : List (Nat × List Byte)) : State := st fun d => as .live { d with
  cal := { d.cal with runq := [⟨⟨900, action, 0, 77, arg0, 0, false⟩, 900⟩] }, cue := { d.cue with stored := stored } }

theorem witness_CueCommandsAndFiredEntries :
    after .commitOp (at_ .live 7 [6] id) (fun t => t.dev.cue.job.map CueJob.commits = some 6) = true ∧
    (let s := cueing .live 9 [0] fun d => { d with wtm := { d.wtm with jump := 655360 } }
     s.dev.rdb R.WTM_STATUS_JUMP_PENDING = true ∧ beAt [0] 0 1 ≠ 1 ∧
     after .timeAcceptSlew s (fun t => t.dev.stcOff = 655360 && t.dev.wtm.jump = 0 && !t.dev.rdb R.WTM_STATUS_JUMP_PENDING) = true) ∧
    (let s := cueing .cold 9 [1] fun d => { d with wtm := { d.wtm with jump := -655360 } }
     s.dev.state = .cold ∧ after .timeAcceptStep s (fun t => t.dev.stcOff = -655360) = true) ∧
    (let s := at_ .live 0xA [] fun d => { (((d.wr R.TOP_STATE_PAIRED 1).wr R.PAIR_STATUS_UP 1).wr R.VEER_STATUS_PARTNER_STATE
        (Dev.stateCode .cold)) with pair := { d.pair with partner := some ⟨2, false, true, false, true, 7, 9, 0, 0⟩ } }
     s.dev.veerCheck = 0 ∧ s.dev.calCheck s.dev.veerLine 3 0 (s.dev.epoch + 1) 0 = 0 ∧
     after .veerReq s (fun t => t.dev.cal.entries.map CalEntry.action = [3]) = true) ∧
    after .veerReq (at_ .cold 0xA [] fun d => (d.wr R.TOP_STATE_PAIRED 1).wr R.PAIR_STATUS_UP 1) (fun t => t.dev.out.length = 1) = true ∧
    after .veerReq (at_ .cold 0xA [] id) (fun t => t.dev.rd R.VEER_STATUS_LAST_REFUSE = 1 && t.dev.cue.job.isNone) = true ∧
    after .snapshot (at_ .live 0xB [] id) (fun t => t.dev.rd R.SNAP_SRC = 2 && t.dev.rd R.SNAP_SEQ = 1) = true ∧
    (let s := st fun d => as .live { d with cue := { d.cue with job := some { job [(7, [6])] with commits := 1 } } }
     after .commitOp s (fun t => t.dev.cue.job.isNone && t.dev.com.afterMsg = 7) = true) ∧
    (let b : List Byte := [7, 0, 0, 1, 2]
     let s := fires 4 5 [(5, b)]
     (s.dev.cue.stored.find? fun x => x.1 = 5) = some (5, b) ∧ (cueOps b).1 = [(7, [2])] ∧
     ({ s.start with cal := { s.start.cal with runq := [] } } : Dev).bodyCheck false true none b = none ∧
     after .storedCueRun s (fun t => t.dev.cue.job.map CueJob.ops = some [(7, [2])] && t.dev.cal.runq.isEmpty) = true) ∧
    (let b : List Byte := [7, 0, 0, 1, 2]
     let s : State := { fires 4 5 [] with dev := { (fires 4 5 []).dev with
       cal := { (fires 4 5 []).dev.cal with runq := [⟨⟨900, 4, 0, 77, 5, 3, false⟩, 900⟩] }
       cue := { (fires 4 5 []).dev.cue with sched := [(3, b)] } } }
     (s.dev.cue.sched.find? fun x => x.1 = 3) = some (3, b) ∧
     after .storedCueRun s (fun t => t.dev.cue.job.map CueJob.ops = some [(7, [2])] && t.dev.cue.sched.isEmpty) = true) ∧
    (let b : List Byte := [0x0E, 0, 0, 0]
     let s := fires 4 5 [(5, b)]
     (({ s.start with cal := { s.start.cal with runq := [] } } : Dev).bodyCheck false true none b).isSome = true ∧
     after .storedCueRun s (fun t => t.dev.cue.job.isNone && (t.dev.elog.held.map LogEntry.detail).drop 1 = [77 + 65536]) = true) ∧
    after .storedCueRun (fires 4 5 []) (fun t => (t.dev.elog.held.map LogEntry.detail).drop 1 = [77 + 65536]) = true ∧
    after .markRun (fires 5 1234 []) (fun t => (t.dev.elog.held.map LogEntry.detail).drop 1 = [1234]) = true := by decide +kernel

/-! DRAM, the log and the snapshots. -/

def dreq (id : Nat) (c : TrafficClass) : DramReq := ⟨id, c, 64 * id, false, 0, false⟩
def channel (c : Fin 32) (l : List DramReq) : State := st fun d => as .live { d with dram := { d.dram with
  chans := setV d.dram.chans c { d.dram.chans.getD c ⟨[], 0, [0, 0], 0, 0⟩ with queue := l }, next := 9 } }

theorem witness_DramWindowsServeInOrder :
    (cold.dev.off = false ∧ boot.dev.dramRuns = false ∧ cold.dev.dramRuns = true ∧ cold.dev.dramCalib 31 = false ∧
      (inRun ⟨2, 31⟩ 0).dev.dramCalib 31 = true) ∧
    after (.dramWindow 31 5 [] 1) (channel 31 [dreq 1 .bulk, dreq 2 .live]) (fun t => t.dev.out = [.dramServed 31 [2]] &&
      (t.dev.dramChan 31).queue.map DramReq.id = [1]) = true ∧
    after (.dramWindow 31 5 [] 256) (channel 31 [dreq 1 .bulk, dreq 2 .live]) (fun t => (t.dev.dramChan 31).queue.isEmpty) = true ∧
    (let c := (cold.dev.dramPlace 4096).1
     let s := inRun ⟨2, c⟩ 0
     c < 32 ∧ s.dev.dramCalib c = true ∧ 4096 < s.dev.dramC ∧
     after (.dramWindow (Fin.ofNat 32 c) 5 [⟨.layerRead, 4096, true⟩] 256) s (fun t => (t.dev.dramChan c).queue.length = 1 && t.dev.out.isEmpty)
       = true) ∧
    (let s := channel 31 [dreq 1 .bulk, dreq 2 .live]
     let late : State := { s with dev := { s.dev with now := micros 11 } }
     after (.dramWindow 31 5 [] 256) late (fun t => t.dev.out = [.dramServed 31 []] && (t.dev.dramChan 31).queue.isEmpty) = true) ∧
    (let s := channel 31 [dreq 1 .bulk, dreq 2 .live]
     let old : State := { s with dev := { s.dev with now := micros 9 } }
     old.dev.dramAge 3 ≤ micros 9 ∧
     after (.dramWindow 31 5 [] 0) old (fun t => (t.dev.dramChan 31).queue.map DramReq.up = [true, false]) = true) ∧
    after (.requestPromotion 31) (channel 31 [dreq 1 .bulk, dreq 2 .live]) (fun t => t.dev.rd (R.DRM_PROMOTED 3 7) = 1 &&
      (t.dev.dramChan 31).queue.map DramReq.up = [true, false]) = true ∧
    ((channel 31 [dreq 2 .live]).dev.dramChan 31).queue.find? (fun r => !r.up && Dev.dramRank r != 0) = none := by decide +kernel

theorem witness_DramErrorsAndUpkeep :
    (cold.dev.dramRuns = true ∧ cold.dev.poison.contains 2 = false ∧ 95 < cold.dev.dramC ∧ cold.dev.dramC ≤ 2 ^ 40) ∧
    after (.dramReadComplete 95 ⟨.fuller, .double⟩) cold (fun t => t.dev.poison = [2]) = true ∧
    after (.dramReadComplete 95 ⟨.layerRead, .single⟩) cold (fun t => t.dev.poison.isEmpty &&
      (let c := (cold.dev.dramPlace 95).1; t.dev.rd (R.DRM_CE (c / 8) (c % 8)) = 1)) = true ∧
    after (.dramReadComplete cold.dev.dramC ⟨.scrub, .single⟩) cold (fun t => (t.dev.elog.held.map LogEntry.source).drop 1 = [0x50]) = true ∧
    after (.dramRequestTimeout 95 false) cold (fun t => t.dev.late = [2]) = true ∧
    after (.dramRequestTimeout 95 true) cold (fun t => t.dev.late.isEmpty) = true ∧
    after (.mr4Poll 31 0 2) cold (fun t => t.dev.rd (R.DRM_HOT 3) = 128 && t.dev.rd (R.DRM_HOT_POLLS 3 7) = 1) = true ∧
    (let s := st fun d => set (R.DRM_SCRUB_EN 3) 1 (as .cold { d with dram := { d.dram with scrub := d.dram.scrub.set 3 (0, 7) } })
     s.dev.lulling (.dramScrub 3) = false ∧ s.dev.dramUnits ≠ 0 ∧ 3 < s.dev.dram.scrub.length ∧
     after (.dramScrub 3 0 .clean) s (fun t => t.dev.dram.scrub.getD 3 (0, 0) = (1 % s.dev.dramUnits, 0)) = true) ∧
    (let s := st fun d => set (R.DRM_SCRUB_EN 3) 0 (as .cold d)
     (s.start.applyComm (Dev.dramKey 3)).lvb (R.DRM_SCRUB_EN 3) = false) := by decide +kernel

def entry9 : LogEntry := ⟨5, 5, 0x24, 0, 5, 0x1D, 7, 0, none⟩
def logging (en : Nat) : State := st fun d => ({ as .cold d with elog := { d.elog with
  held := [entry9], ring := (List.range 256).map fun i => (255 - i, entry9) } }.wr R.ERR_WR_SEQ 256).wr R.ERR_CTRL_DRAM_EN en

theorem witness_LogEntriesAreCommittedAndCopied :
    (∀ x ∈ cold.dev.elog.sources, x.source = (0x24 : Byte).toNat → x.gap = 0 ∧ x.free < cold.dev.now + 4 * Dev.fabCycle) ∧
    after (.logEntryArise 0x24 1 2 3 4 0) cold (fun t => (t.dev.elog.held.map LogEntry.detail).drop 1 = [4]) = true ∧
    ((logging 1).dev.elog.held = [entry9] ∧ (logging 1).dev.elog.ring[255]? = some (0, entry9) ∧
      (logging 1).dev.rdb R.ERR_CTRL_DRAM_EN = true ∧ (logging 1).dev.rd R.ERR_DRAM_SEQ = 0) ∧
    after .logCommit (logging 1) (fun t => t.dev.rd R.ERR_WR_SEQ = 257 && t.dev.rd R.ERR_NOT_COPIED = 1 && t.dev.rd R.ERR_FATAL = 1 &&
      t.dev.elog.ring.length = 256) = true ∧
    ((logging 1).dev.rdPair R.ERR_DRAM_BASE_LO R.ERR_DRAM_BASE_HI + 16 ≤ (logging 1).dev.dramC) ∧
    ((logging 0).dev.rdb R.ERR_CTRL_DRAM_EN = false ∧ (logging 1).dev.ringEntry 0 = some entry9 ∧ (logging 1).dev.ringEntry 256 = none) ∧
    after .logDramCopy (logging 1) (fun t => t.dev.rd R.ERR_DRAM_SEQ = 1) = true ∧
    (let s := st fun d => as .cold { d with boot := { d.boot with tmode := true }, clk := ⟨[(5, 1)], none⟩ }
     s.dev.boot.tmode = true ∧ s.dev.clk.wait = none ∧ s.dev.accessStopped 0x110000 = true ∧
     after (.testPortInstruction (.regacc 0x110000 (some 1))) s (fun t => t.dev.clk.wait.isSome) = true) ∧
    (cold.dev.boot.tmode = false ∧
      after (.testPortInstruction (.regacc 0x110000 (some 1))) cold (fun t => t.dev.pins.testInstr = 7 && t.dev.out.isEmpty) = true) := by
  decide +kernel

theorem witness_ErrSelLatchesTheEntry : (logging 0).BusFree 0x40020 ∧
    after (.errSelWrite 0) (logging 0) (fun t => t.dev.rd R.ERR_RD_STATUS = 0 && t.dev.rd (R.ERR_E 3) = leAt entry9.encode 12 4) = true ∧
    after (.errSelWrite 0xFFFFFFFF) (logging 0) (fun t => t.dev.rd R.ERR_RD_STATUS = 1) = true ∧
    after (.errSelWrite 256) (logging 0) (fun t => t.dev.rd R.ERR_RD_STATUS = 2) = true := by
  unfold State.BusFree; decide +kernel

def calmed (f : SnapPart → SnapPart) (hold out : Nat) : State := st fun d =>
  ((as .live { d with snap := f d.snap }).wr R.SNAP_CTRL_HOLD hold).wr R.SNAP_CTRL_OUT_EN out

theorem witness_SnapshotsLatchTheBlocks :
    (cold.BusFree 0x50000 ∧ cold.dev.snap.pinFired = false ∧ cold.BusFree 0x50040 ∧ cold.BusFree 0x50044) ∧
    after .snapTriggerWrite (calmed id 0 1) (fun t => t.dev.rd R.SNAP_SEQ = 1 && t.dev.rd R.SNAP_SRC = 2 && !t.dev.pins.calmOut) = true ∧
    after (.calmNFall 0) (calmed id 0 1) (fun t => t.dev.rd R.SNAP_SEQ = 1 && t.dev.rd R.SNAP_SRC = 0 && t.dev.pins.calmOut) = true ∧
    after (.calmNFall 100) (calmed (fun p => { p with pinFired := true }) 0 0) (fun t => t.dev.rd R.SNAP_TRIGGERS = 1) = true ∧
    after (.calmNFall 99) (calmed (fun p => { p with pinFired := true }) 0 0) (fun t => t.dev.rd R.SNAP_TRIGGERS = 0) = true ∧
    after .snapTriggerWrite (calmed (fun p => { p with last := some 0 }) 0 0) (fun t => t.dev.rd R.SNAP_MERGED = 1 && t.dev.rd R.SNAP_SEQ = 0)
      = true ∧
    after .snapTriggerWrite (calmed id 1 0) (fun t => t.dev.rd R.SNAP_HELD = 1 && t.dev.rd R.SNAP_SEQ = 0) = true ∧
    after .calmOutPulseEnd (st fun d => { d with pins := { d.pins with calmOut := false }, snap := { d.snap with outUntil := 99 } })
      (fun t => t.dev.pins.calmOut && 99 ≤ t.dev.now) = true ∧
    after (.bselWrite true 0x8) cold (fun t => t.dev.rd R.SNAP_BADDR_OFFSET = 8) = true ∧
    (windowOf 0x21 0 = some 0x21 ∧ windowOf 0xFF 0 = none ∧
      after (.bselWrite false 0xFF00) cold (fun t => t.dev.rd R.SNAP_BSTAT_LATCHED = 0 && t.dev.rd R.SNAP_BSEL_SOURCE = 0xFF) = true) ∧
    (let s := calmed (fun p => { p with dumpOwed := true }) 0 0
     s.dev.snap.dumpOwed = true ∧ s.Sound ∧ s.dev.poison = []) := by
  unfold State.BusFree State.Sound; decide +kernel

/-! The worked examples of the spec, and check values of the standards that it names. -/

/-- RFC 3720, FIPS 180-4, RFC 4231 (test case 2), and CRC-16 with polynomial 0x1021 from 0xFFFF. -/
theorem test_digests : crc32c ("123456789".toUTF8.toList.map fun b => BitVec.ofNat 8 b.toNat) = 0xE3069283 ∧
    linkCrc ("123456789".toUTF8.toList.map fun b => BitVec.ofNat 8 b.toNat) = 0x29B1 ∧
    beAt (sha256 [0x61, 0x62, 0x63]) 0 32 = 0xba7816bf8f01cfea414140de5dae2223b00361a396177a9cb410ff61f20015ad ∧
    beAt (hmacSha256 [0x4A, 0x65, 0x66, 0x65] ("what do ya want for nothing?".toUTF8.toList.map fun b => BitVec.ofNat 8 b.toNat)) 0 32 =
      0x5bdcc146bf60754e6a042426089575c75a003f089d2739839dec58b964ec3843 := by decide +kernel

/-- Chapter 9: the PRED batt at format 0b111, decoded and encoded. -/
def predBatt : List Byte := [0x4F, 0xA1, 0xF4, 0x07, 0xD1, 0x00, 0xD2, 0x49, 0x24, 0x92, 0x49, 0x20, 0, 0, 0, 0, 0, 0]
def ramp : List (List Int) :=
  let row (f : Int → Int) : List Int := let l := [0, 1, 2, 3, 4, 5, 6, 7].map f; l ++ l
  [row fun i => 1000 + 16 * i, row fun _ => 2000, row fun i => 500 - 16 * i]

theorem test_felt_example : Felt.decode 7 predBatt = ramp ∧ Felt.batt 7 (Felt.choose 7 true true true 0 ramp) = predBatt := by
  decide +kernel

/-- Chapter 14: the small block, and the same with a first DIST of 0x0009. -/
def small (dist : Byte) : List Byte := [0x45, 0x41, 0x42, 0x43, 0x44, dist, 0, 0x41, 0x58, 0x59, 0x5A, 0x57, 3, 0]
theorem test_fuller_example :
    (match Fuller.decode 20 15 (small 3) [] with
      | .ok o => o.reverse == [0x41, 0x42, 0x43, 0x44, 0x41, 0x42, 0x43, 0x44, 0x41, 0x42, 0x43, 0x44, 0x58, 0x59, 0x5A, 0x57, 0x58, 0x59, 0x5A, 0x57]
      | .error _ => false) = true ∧
    (match Fuller.decode 20 15 (small 9) [] with
      | .ok _ => 0
      | .error e => e) = 5 := by decide +kernel

/-- Chapter 6: the grey pixel: its dithered code, its derate and the power cap. -/
def evening : State := st fun d =>
  let d := set R.CLR_AMB_LO 16 (set R.CLR_AMB_HI 16384 (set R.CLR_CAP_NIGHT 300000 (set R.CLR_CAP_DAY 600000 (as .live d))))
  { d with
    clr := { d.clr with level := some (10 * 2 ^ 32) }
    link := { d.link with chains := d.link.chains.set 9 [0, 1, 2, 3, 4, 5, 6, 7] }
    tiles := [⟨0, 0, 0, 0, 0, 0, 0, 0, 208, 0, 0, 0, 0, 0, 0, 0⟩]
    tbl := { d.tbl with tables := [⟨2, 0, SMap.setBytes ((List.range 8).foldl (fun m t => SMap.setBytes m (256 * t + 34) [0xE8, 0xFD]) []) 28
      [180, 0, 4, 1, 0, 96], [], [], []⟩] } }

theorem test_colour_example :
    driveCode false 198478 31 = 12404 ∧ driveCode false 198478 32 = 12405 ∧
    evening.dev.ambTarget = some 2458 ∧ 32768 - evening.dev.derateLoss 0 = 29900 ∧
    evening.dev.wallPower = 520000000000 ∧ evening.dev.capBudget 2458 = 480029 ∧ (evening.dev.capLoop 2458 32768 3).2 = 30249 := by
  decide +kernel

/-- R566: values outside a range act as the nearer limit and read back as written. -/
theorem test_ranges :
    (let d := set R.MVL_DISP_OFS 3 (set R.MVL_DISP_MARGIN 4095 cold.dev); (d.lv R.MVL_DISP_OFS, d.ofs, d.margin) = (3, 16, 8)) ∧
    (let d := (cold.dev.wr (R.FUL_RING_CQ_SIZE 1) 1).wr (R.HBX_CL_SQ_SIZE 2) 0; (d.rd (R.FUL_RING_CQ_SIZE 1), d.fulCqSize 1, d.sqSize 2) = (1, 2, 2)) ∧
    (let d := (cold.dev.wr (R.AUD_DOM_CTRL_FRAME_BITS 0) 2000).wr (R.AUD_DOM_FS_FS_HZ 0) 7; (d.frameBits 0, d.audFs 0) = (1024, 8000)) ∧
    (let d := (cold.dev.wr R.CMP_CANVAS_W16 1).wr R.CMP_CANVAS_H16 1025; (d.canvasW, d.canvasH, d.halfX 1) = (256, 16384, (256, 256))) := by
  decide +kernel

/-- Chapter 7: the Blocking Table entry of canvas (2048, 1024) at index 57,472, on tile 1,234. -/
theorem test_block_example : let s := st fun d => ((set R.CMP_CANVAS_W16 896 (set R.CMP_CANVAS_H16 288 { d with
      tbl := { d.tbl with tables := [⟨1, 0, SMap.setBytes [] (57472 * 6) [0x24, 0x07, 0x01, 0x62, 0x24, 0x4D], [], [], []⟩] } })))
    s.dev.blockEntry 128 64 = 0x4D2462010724 ∧ s.dev.blockEntry 128 64 / 2 ^ 36 = 1234 := by decide +kernel

/-- Chapter 19: L at 104.00 °C and at 106.75 °C. -/
theorem test_lull_example : let d := (cold.dev.wr R.THM_STATUS_BAND 2).wr R.THM_CTRL_LULL_MAX 4096
    (d.setLull 416).rd R.THM_LULL_NOW_L = 2458 ∧ (d.setLull 427).rd R.THM_LULL_NOW_L = 3208 ∧
    Dev.bandOf 3 432 = 3 ∧ Dev.bandOf 3 427 = 2 ∧ Dev.bandOf 2 367 = 1 := by decide +kernel

/-- Chapter 16: A of the PA feed, with OFS 128 at 59.94 Hz. -/
theorem test_audio_example : (st fun d => set (R.AUD_OUT_CTRL_ALIGN 2) 1 (set R.MVL_DISP_OFS 128 ((((d.wr R.WTM_RATE_RATE_NUM 60000).wr
    R.WTM_RATE_RATE_DEN 1001)).wr R.SCN_LGEN_LT 4800))).dev.audAlign 2 = 21 := by decide +kernel

/-- Chapter 15: the smallest CAP of the ribbon's tap is 408,064 bits, and N is at most 15. -/
def tapSession (cap n : Nat) : Dev :=
  let d := set (R.HVC_S_AU_SIZE 7) 16 (set (R.HVC_S_CAP 7) cap (set (R.HVC_S_REFRESH_N 7) n (set (R.HVC_S_PERIOD 7) 1228800
    (set (R.HVC_S_BUF_BYTES 7) 1 (set (R.HVC_S_CTRL_CLASS 7) 1 live.dev)))))
  (set (R.CMP_FS_CTRL_FMT 0) 1 (set (R.CMP_FS_WH_W 0) 3840 (set (R.CMP_FS_WH_H 0) 2160 d))).wr R.SCN_LGEN_LT 4800
theorem test_hevc_example : (tapSession 408064 15).openCheck 7 = 0 ∧ (tapSession 408063 15).openCheck 7 = 3 ∧
    (tapSession 408064 16).openCheck 7 = 2 := by decide +kernel

/-- Chapter 3: the show controller's WLN lies in frame 257,201 at line 3,090. -/
theorem test_wall_time_example : let d := cold.dev.wr R.SCN_LGEN_LT 4800
    d.frameOf 1234567890 = 257201 ∧ d.lineOf 1234567890 = 3090 ∧ 257500 * 4800 + 4610 = 0x49ABEF02 := by decide +kernel

/-- Chapter 4: at 12 bits three transfers carry eight pixels. -/
theorem test_unpack_example : Dev.unpack 12 8 (Dev.streamNum [0x12ABCDEF, 0x45678903, 0xFEDCBA98]) =
    [0xDEF, 0xABC, 0x312, 0x890, 0x567, 0x984, 0xCBA, 0xFED] := by decide +kernel

/-! Ill-formed commands are refused. -/

theorem test_wf_accepts : Instr.wellFormed .yieldTest = true ∧ (Instr.headerChecked (some true) (List.replicate 4096 0)).wellFormed = true ∧
    (Instr.clockStopped 7 63).wellFormed = true ∧ (Instr.cueMessageReceive from1 []).wellFormed = true := by decide +kernel
theorem test_wf_headerChecked : (Instr.headerChecked (some true) (List.replicate 4095 0)).wellFormed = false := by decide +kernel
theorem test_wf_clock : (Instr.clockStopped 6 8).wellFormed = false ∧ (Instr.clockRunning 17 0).wellFormed = false := by decide +kernel
theorem test_wf_tblLoadDone : (Instr.tblLoadDone (some (2 ^ 20))).wellFormed = false := by decide +kernel
theorem test_wf_sramScrub : (Instr.sramScrub 0 (sramWords 0) .clean).wellFormed = false := by decide +kernel
theorem test_wf_camLine : (Instr.camLine 0 ⟨0, 0⟩ [] (some 1)).wellFormed = false := by decide +kernel
theorem test_wf_scanoutPixel : (Instr.scanoutPixel 32768 0).wellFormed = false ∧ (Instr.scanoutPixel 0 16384).wellFormed = false := by
  decide +kernel
theorem test_wf_returnPackets : (Instr.akReceive 0 []).wellFormed = false ∧ (Instr.tlReceive 0 [0]).wellFormed = false ∧
    (Instr.blockLockLost 0 []).wellFormed = false ∧ (Instr.packetTransmit ⟨0, (List.replicate 15 .clean)⟩).wellFormed = false := by
  decide +kernel
theorem test_wf_calibration : (Instr.calRunDone .rx 63 (List.replicate 33 0) 0 true).wellFormed = false ∧
    (Instr.calRunTimeout .cam 8).wellFormed = false ∧ (Instr.calRetry .dram 32).wellFormed = false := by decide +kernel
theorem test_wf_cut : (Instr.cutReceive [] 0 { ckpt with rtp := List.replicate 9 0 }).wellFormed = false := by decide +kernel
theorem test_wf_request : (Instr.requestFrameReceive ⟨[], (.split 64 0 0 0)⟩).wellFormed = false ∧
    (Instr.requestFrameReceive ⟨[], (.claimed [4096])⟩).wellFormed = false := by decide +kernel
theorem test_wf_telem : (Instr.telemFrameReceive ⟨[], ⟨4096, 0, 0, 0, 0, 0, 0, 0, 0, 0, 0, 0, 0, 0, 0, 0⟩⟩).wellFormed = false := by decide +kernel
theorem test_wf_mount : (Instr.hatboxMount (List.replicate 5 ⟨true, 0, 4096, 0, 0, 0, 4, [], []⟩)).wellFormed = false ∧
    (Instr.hatboxMount [⟨true, 0, 4096, 0, 0, 0, 4, [[]], []⟩]).wellFormed = false := by decide +kernel
theorem test_wf_readComplete : (Instr.readComplete 0 [] .ok 1).wellFormed = false := by decide +kernel
theorem test_wf_audioFrame : (Instr.audioFrame 0 ⟨0, false⟩ 0 (List.replicate 5 [])).wellFormed = false := by decide +kernel
theorem test_wf_ptp : (Instr.announceReceive 0 0 { ann with prio1 := 256 }).wellFormed = false ∧
    (Instr.syncReceive 0 0 { msg true with seq := 65536 }).wellFormed = false ∧
    (Instr.followUpReceive 0 { msg true with domain := 256 }).wellFormed = false ∧
    (Instr.delayRespReceive 0 0 { msg true with corr := 2 ^ 63 }).wellFormed = false := by decide +kernel
theorem test_wf_cue : (Instr.cueMessageReceive (.eth 0 true [10, 0, 0, 1] 5000 5000) []).wellFormed = false := by decide +kernel
theorem test_wf_dram : (Instr.dramReadComplete (2 ^ 40) ⟨.scrub, .clean⟩).wellFormed = false ∧
    (Instr.dramRequestTimeout (2 ^ 40) true).wellFormed = false ∧ (Instr.dramWindow 0 0 [⟨.scrub, 2 ^ 40, true⟩] 0).wellFormed = false := by
  decide +kernel
theorem test_wf_thmReading : (Instr.thmReading (List.replicate 33 (true, 0))).wellFormed = false := by decide +kernel
theorem test_wf_testPort : (Instr.testPortInstruction (.regacc (2 ^ 32) none)).wellFormed = false := by decide +kernel

end Sys2Proof.Tests
end

section
/-!
PROOFS. Accesses of the register bus as rules: an access that goes through at once, a read that reaches its register, the RC fields
that it clears (R13), what it does besides, and a write to a Fuller ring that is not yet released (R414). The statements of the
scope family are settled from them.
-/

namespace Sys2Proof.Machine

namespace Dev

/-! An access that goes through at once (R56, R60). -/

theorem access_free {d : Dev} {addr : Nat} (hw : d.clk.wait = none) (hc : d.accessStopped addr = false) (w : Option Nat)
    (f : Dev → Dev × Nat × Bool) : d.access addr w f = (f d).1.emit (.bus (f d).2.1 (f d).2.2) := by
  simp [Dev.access, Dev.sized, hw, hc]

/-! The fields of a register that a read clears (R13). -/

/-- The RC fields of a register are cleared. -/
def clearRc (fs : List Fld) (d : Dev) : Dev := fs.foldl (fun d f => if f.acc = .rc then d.wr f 0 else d) d

@[simp] theorem clearRc_nil (d : Dev) : d.clearRc [] = d := rfl

theorem clearRc_cons (f : Fld) (fs : List Fld) (d : Dev) :
    d.clearRc (f :: fs) = (if f.acc = .rc then d.wr f 0 else d).clearRc fs := rfl

/-- Clearing touches the register file alone. -/
theorem clearRc_eq (fs : List Fld) (d : Dev) : d.clearRc fs = { d with regs := (d.clearRc fs).regs } := by
  induction fs generalizing d with
  | nil => rfl
  | cons f fs ih =>
    rw [clearRc_cons]
    split
    · exact ih (d.wr f 0)
    · exact ih d

theorem rd_clearRc_ne {g : Fld} {fs : List Fld} (h : ∀ f ∈ fs, f.acc = .rc → g.key ≠ f.key) (d : Dev) :
    (d.clearRc fs).rd g = d.rd g := by
  induction fs generalizing d with
  | nil => rfl
  | cons f fs ih =>
    obtain ⟨hf, hfs⟩ := List.forall_mem_cons.mp h
    rw [clearRc_cons, ih hfs]
    split
    · next rc => exact rd_wr_ne _ _ _ _ (hf rc)
    · rfl

/-- A field that reads 0 still does so after fields have been cleared that are 0 at reset, one at its own bit address included. -/
theorem rd_clearRc_zero {g : Fld} (hg : g.reset = 0) {fs : List Fld} (h0 : ∀ f ∈ fs, f.acc = .rc → f.reset = 0) {d : Dev}
    (hd : d.rd g = 0) : (d.clearRc fs).rd g = 0 := by
  induction fs generalizing d with
  | nil => exact hd
  | cons f fs ih =>
    obtain ⟨hf, hfs⟩ := List.forall_mem_cons.mp h0
    rw [clearRc_cons]
    refine ih hfs ?_
    split
    · next rc =>
      rw [rd_wr _ _ _ _ fun _ => hg.trans (hf rc).symm, hd]
      simp
    · exact hd

/-- Every RC field of a register reads 0 after the register's RC fields have been cleared. -/
theorem rd_clearRc_self {fs : List Fld} (h0 : ∀ f ∈ fs, f.acc = .rc → f.reset = 0) {g : Fld} (hg : g ∈ fs) (rc : g.acc = .rc)
    (d : Dev) : (d.clearRc fs).rd g = 0 := by
  induction fs generalizing d with
  | nil => exact absurd hg List.not_mem_nil
  | cons f fs ih =>
    have hfs := (List.forall_mem_cons.mp h0).2
    rw [clearRc_cons]
    rcases List.mem_cons.mp hg with rfl | hg
    · rw [if_pos rc]
      exact rd_clearRc_zero (h0 _ List.mem_cons_self rc) hfs (by simp)
    · exact ih hfs hg _

/-! What a read does besides. -/

theorem beforeRead_arrivalLo (d : Dev) : d.beforeRead 0x45010C = d.wr R.ETH_ARRIVAL_HI (d.cue.arrival / 2 ^ 32) := rfl

theorem beforeRead_wrIndexLo (d : Dev) (p : Fin 4) :
    d.beforeRead (0x430118 + 0x40 * p.val) = d.wr (R.AUD_IN_WR_INDEX_HI p) ((d.audIn p).wr / 2 ^ 32) := by
  fin_cases p <;> rfl

/-- e stands where d stands in the DRAM writes made and in what has left the device. -/
def Silent (d e : Dev) : Prop := e.wq = d.wq ∧ e.out = d.out

namespace Silent

variable {d e : Dev}

theorem refl : Silent d d := ⟨rfl, rfl⟩

theorem wr (f : Fld) (v : Nat) (h : Silent d e) : Silent d (e.wr f v) := h

theorem log (s i c k x : Nat) (h : Silent d e) : Silent d (e.log s i c k x) :=
  ⟨(log_wq ..).trans h.1, (log_out ..).trans h.2⟩

theorem ite {p : Prop} [Decidable p] {a b : Dev} (ha : Silent d a) (hb : Silent d b) : Silent d (if p then a else b) := by
  split
  · exact ha
  · exact hb

theorem patFlush (d : Dev) (k : Nat) : Silent d (d.patFlush k) := ite ⟨rfl, rfl⟩ refl

theorem defDataRead (n : Nat) (d : Dev) : Silent d (actDefData n none d) := ite ⟨rfl, rfl⟩ ⟨rfl, rfl⟩

theorem lutDataRead (d : Dev) : Silent d (actLutData none d) := ite (refl.log ..) (ite ⟨rfl, rfl⟩ ⟨rfl, rfl⟩)

theorem coefDataRead (d : Dev) : Silent d (actCoefData none d) := ite ⟨rfl, rfl⟩ ⟨rfl, rfl⟩

/-- Whatever a read does besides, it writes no DRAM and lets nothing leave. -/
theorem beforeRead (addr : Nat) (d : Dev) : Silent d (d.beforeRead addr) :=
  ite (refl.wr ..) <| ite (refl.wr ..) <| ite (defDataRead ..) <| ite (lutDataRead d) <| ite (coefDataRead d) <|
    ite (patFlush ..) <| ite (refl.wr ..) refl

end Silent

/-! A read that reaches its register. -/

theorem busRead_eq {d : Dev} {addr : Nat} {fs : List Fld} (hr : regAt addr = some fs)
    (hl : addr ≠ 0x202004 ∨ lutRefused false d = false) :
    d.busRead addr = ((d.beforeRead addr).clearRc fs, (d.beforeRead addr).shownWord fs, false) := by
  have h : (decide (addr = 0x202004) && lutRefused false d) = false := by
    rcases hl with h | h <;> simp [h]
  simp [busRead, hr, h, clearRc]

/-! What registers show from state held elsewhere. -/

theorem fulViews_window (d : Dev) : ∀ p ∈ d.fulViews, p.1.key / 524288 = 0x41 := by
  simp only [fulViews, List.forall_mem_append, List.forall_mem_cons]
  refine ⟨by decide, fun p hp => ?_⟩
  obtain ⟨r, hr, hp⟩ := List.mem_flatMap.mp hp
  have : r < 8 := List.mem_range.mp hr
  simp only [List.mem_cons, List.not_mem_nil, or_false] at hp
  rcases hp with rfl | rfl | rfl | rfl <;>
    simp only [R.FUL_RING_STATE_OPEN, R.FUL_RING_STATE_PARKED, R.FUL_RING_STATE_ENGINE, R.FUL_RING_STATE_BUSY] <;> omega

/-- No field of block AUD is held elsewhere. -/
theorem views_window_ne_audio (d : Dev) : ∀ p ∈ d.views, p.1.key / 524288 ≠ 0x43 := by
  simp only [views, otherViews, List.forall_mem_append, List.forall_mem_cons]
  exact ⟨⟨by decide, fun p hp => by rw [fulViews_window d p hp]; decide⟩, by decide⟩

theorem shown_of_no_view {d : Dev} {f : Fld} (ha : f.acc ≠ .wo) (h : ∀ p ∈ d.views, p.1.key ≠ f.key) : d.shown f = d.rd f := by
  have : d.views.find? (fun p => p.1.key = f.key) = none := by simpa using h
  simp only [shown, ha, if_false, this]

theorem shown_arrivalLo (d : Dev) : d.shown R.ETH_ARRIVAL_LO = d.cue.arrival % 2 ^ 32 := by
  have : d.views.find? (fun p => p.1.key = R.ETH_ARRIVAL_LO.key) = some (R.ETH_ARRIVAL_LO, d.cue.arrival) := by
    rw [views, List.append_assoc, List.find?_append]
    rfl
  simp only [shown, this]
  rfl

/-- A register whose one field begins at bit 0 shows that field. -/
theorem shownWord_one {f : Fld} (h : f.lo = 0) (d : Dev) : d.shownWord [f] = d.shown f := by
  simp [shownWord, h]

theorem shown_wrIndexLo (d : Dev) (p : Fin 4) : d.shown (R.AUD_IN_WR_INDEX_LO p) = d.rd (R.AUD_IN_WR_INDEX_LO p) := by
  refine shown_of_no_view (by simp [R.AUD_IN_WR_INDEX_LO]) fun q hq e => views_window_ne_audio d q hq ?_
  have := p.isLt
  simp only [e, R.AUD_IN_WR_INDEX_LO]
  omega

/-! A write to a register of a Fuller ring that is still to be released. -/

theorem busWrite_releasing {d : Dev} {addr : Nat} {fs : List Fld} (hr : regAt addr = some fs) (h : d.ringReleasing addr = true)
    (m : List Host.Cell) (v : Nat) : d.busWrite m addr v = (d.accessLog addr true, true) := by
  simp [busWrite, hr, h]

end Dev

/-! The registers of the map that the statements name, and their RC fields. -/

theorem regAt_arrivalLo : regAt 0x45010C = some [R.ETH_ARRIVAL_LO] := by decide +kernel

theorem regAt_wrIndexLo : ∀ p : Fin 4, regAt (0x430118 + 0x40 * p.val) = some [R.AUD_IN_WR_INDEX_LO p] := by decide +kernel

/-- A field that is 0 at reset if it is an RC field. -/
def Fld.rcResetsZero (f : Fld) : Bool := match f.acc with
  | .rc => f.reset == 0
  | _ => true

/-- Every RC field of some register rows, their registers with given indices, is 0 at reset. -/
def rcRowsResetZero (ix : List Nat) (rows : List RegRow) : Bool := rows.all fun r => (r.flds ix).all Fld.rcResetsZero

theorem rcRowsResetZero_append {ix : List Nat} {a b : List RegRow} (ha : rcRowsResetZero ix a = true)
    (hb : rcRowsResetZero ix b = true) : rcRowsResetZero ix (a ++ b) = true := by
  rw [rcRowsResetZero, List.all_append, Bool.and_eq_true]
  exact ⟨ha, hb⟩

/-- The register map evaluated block by block with its indices unknown: a row takes no index, one or two. -/
theorem rcRowsResetZero_regRows (ix : List Nat) : rcRowsResetZero ix regRows = true := by
  unfold regRows
  rcases ix with _ | ⟨n, _ | ⟨i, _ | ⟨j, ix⟩⟩⟩
  all_goals
    iterate 25 refine rcRowsResetZero_append ?_ rfl
    rfl

theorem RegRow.at_eq_some {r : RegRow} {addr : Nat} {fs : List Fld} (h : r.at addr = some fs) : ∃ ix, fs = r.flds ix := by
  unfold RegRow.at at h
  split at h
  · cases h
  split at h
  · next ix _ _ =>
    split at h
    · exact ⟨ix, (Option.some.inj h).symm⟩
    · cases h
  · cases h

/-- The RC fields of every register are 0 at reset. -/
theorem regAt_rc_reset {addr : Nat} {fs : List Fld} (h : regAt addr = some fs) : ∀ f ∈ fs, f.acc = .rc → f.reset = 0 := by
  intro f hf rc
  obtain ⟨r, hr, hat⟩ := List.exists_of_findSome?_eq_some h
  obtain ⟨ix, rfl⟩ := RegRow.at_eq_some hat
  have hz := List.all_eq_true.mp (List.all_eq_true.mp (rcRowsResetZero_regRows ix) r hr) f hf
  simpa [Fld.rcResetsZero, rc] using hz

/-! Reads and writes as commands. -/

/-- An access whose effect writes no DRAM, on a bus that is free, leaves that effect and its answer. -/
theorem run_access {s : State} {addr : Nat} (hb : s.BusFree addr) (w : Option Nat) (f : List Host.Cell → Dev → Dev × Nat × Bool)
    (hq : (f s.mem s.start).1.wq = []) :
    run s (fun m d => d.access addr w (f m)) =
      .next (s.answered (f s.mem s.start).1 (f s.mem s.start).2.1 (f s.mem s.start).2.2) := by
  obtain ⟨hon, hw, hc⟩ := hb
  have e := Dev.access_free (d := s.start) hw hc w (f s.mem)
  rw [run_quiet hon (by rw [e]; exact hq), e, State.answered]

/-- A read of a register answers the word that it shows after what it does besides, and clears its RC fields. -/
theorem run_busRead {s : State} {addr : Nat} {fs : List Fld} (hb : s.BusFree addr) (hr : regAt addr = some fs)
    (hl : addr ≠ 0x202004 ∨ lutRefused false s.start = false) :
    run s (fun _ d => d.access addr none (Dev.busRead addr)) =
      .next (s.answered ((s.start.beforeRead addr).clearRc fs) ((s.start.beforeRead addr).shownWord fs) false) := by
  have hq : ((s.start.beforeRead addr).clearRc fs).wq = [] := by
    rw [Dev.clearRc_eq]
    exact (Dev.Silent.beforeRead addr s.start).1
  have e := Dev.busRead_eq hr hl
  rw [run_access hb none (fun _ => Dev.busRead addr) (by rw [e]; exact hq), e]

/-- The register at an address belongs to a Fuller ring that is not yet released: a write of a word ends with an error response
and is logged (R414). -/
theorem exec_registerWrite_releasing {s : State} {addr : Word} {fs : List Fld} (hb : s.BusFree addr.toNat)
    (hr : regAt addr.toNat = some fs) (h : s.dev.ringReleasing addr.toNat = true) (v : Word) :
    exec (.registerWrite addr v .word) s = .next (s.answered (s.start.accessLog addr.toNat true) 0 true) := by
  have e := Dev.busWrite_releasing (d := s.start) hr h s.mem v.toNat
  rw [exec_registerWrite, run_access hb (some v.toNat)
    (fun m d => ((d.busWrite m addr.toNat v.toNat).1, 0, (d.busWrite m addr.toNat v.toNat).2)) ?_, e]
  rw [e]
  exact Dev.log_wq ..

/-! The statements. -/

/-- Settles O13: `run_busRead` with the RC fields 0 at reset (`regAt_rc_reset`), and for the two latching registers with what they
show. -/
theorem registerReads : Obligations.RegisterReads := by
  refine ⟨fun s addr fs hb hr hl => ?_, fun s hb => ?_, fun s p hb => ?_⟩
  · refine ⟨_, (exec_rcRead _ s).trans (run_busRead hb hr hl), ?_, ?_, ?_, ?_⟩
    · have hout := (Dev.Silent.beforeRead addr.toNat s.start).2
      rw [State.answered, Dev.clearRc_eq]
      exact congrArg _ hout
    · exact fun f hf rc => Dev.rd_clearRc_self (regAt_rc_reset hr) hf rc _
    · intro g hg
      refine Dev.rd_clearRc_ne (fun f hf rc e => hg ?_) _
      exact List.mem_map.mpr ⟨f, List.mem_filter.mpr ⟨hf, by simpa using rc⟩, e.symm⟩
    · rw [State.answered, Dev.clearRc_eq]
      rfl
  · rw [exec_arrivalLoRead, run_busRead hb regAt_arrivalLo (.inl (by decide)), Dev.beforeRead_arrivalLo,
      Dev.shownWord_one rfl, Dev.shown_arrivalLo]
    rfl
  · rw [exec_wrIndexLoRead, run_busRead hb (regAt_wrIndexLo p) (.inl (by omega)), Dev.beforeRead_wrIndexLo,
      Dev.shownWord_one (by simp only [Fld.lo, R.AUD_IN_WR_INDEX_LO]; omega), Dev.shown_wrIndexLo,
      Dev.rd_wr_ne _ _ _ _ (by simp only [R.AUD_IN_WR_INDEX_LO, R.AUD_IN_WR_INDEX_HI]; omega)]
    rfl

/-- In COLD, with ring 0 of the Fuller engines reset and not yet released. -/
def releasingRing0 : State :=
  { State.reset with dev := (Dev.reset.wr R.TOP_STATE (Dev.stateCode .cold)).putRing 0 { FRing.reset with releasing := true } }

theorem regAt_ring0Size : regAt 0x410108 = some [R.FUL_RING_SQ_SIZE 0, R.FUL_RING_SQ_TAIL 0] := by decide +kernel

/-- Refutes O14: a write to a register of a Fuller ring whose reset is still resolving ends with an error response (R414), which no
premise of the first clause excludes. -/
theorem not_registerWrites : ¬ Obligations.RegisterWrites := by
  intro h
  have hb : releasingRing0.BusFree (0x410108 : Word).toNat := by unfold State.BusFree; decide +kernel
  obtain ⟨t, ht, hout, -⟩ := h.1 releasingRing0 0x410108 1 _ hb regAt_ring0Size (by decide +kernel) (by decide +kernel)
    (by decide +kernel) (by decide +kernel) (by decide +kernel) (by decide +kernel) (by decide +kernel)
  rw [exec_registerWrite_releasing (addr := 0x410108) hb regAt_ring0Size (by decide +kernel)] at ht
  obtain rfl := Host.Outcome.next.inj ht
  simp [State.answered, Dev.emit] at hout

theorem step_idle {s : State} (h : s.pending = []) : step s = .next s := by
  simp [step, h]

/-- Settles O2: the state after reset lists no DRAM cell, no command and no register. -/
theorem resetIsSoundAndInBoot : Obligations.ResetIsSoundAndInBoot :=
  ⟨⟨rfl, rfl, rfl, fun _ => ⟨rfl, rfl, rfl⟩⟩, fun _ => step_idle⟩

end Sys2Proof.Machine
end

section
/-!
PROOFS. The frames of an audio domain.
-/

namespace Sys2Proof.Machine

/-- A field with a value in the register file and in the copy that its block uses. -/
def Dev.inUse (f : Fld) (v : Nat) (d : Dev) : Dev :=
  { d with regs := SMap.put d.regs f.key v, live := SMap.put d.live f.key v }

/-- Input port 2 is the one port of domain 1: it captures, checks for no non-audio payload, and has a ring of 8 blocks. -/
def Dev.capturing (d : Dev) : Dev :=
  ((((d.inUse (R.AUD_IN_CTRL_EN 2) 1).inUse (R.AUD_IN_CTRL_DOM 2) 1).inUse (R.AUD_IN_CTRL_DETECT_EN 2) 0).inUse (R.AUD_IN_RING_BLOCKS 2) 8)

/-- In LIVE, after frame 4 of domain 1. Its port has block 0 in progress; of the frame ranges that its ring is said to hold, the one range
runs backwards, from frame 6 to frame 4. -/
def backwardRange : State :=
  let d := ((Dev.reset.wr R.TOP_STATE (Dev.stateCode .live)).capturing).putAudDom 1 ⟨some 4, some 0, 4, false, false⟩
  { State.reset with dev := d.putAudIn 2 { d.audIn 2 with block := some ⟨0, 0, false, false⟩, got := [(6, 4)] } }

/-- When frame 5 of domain 1 starts. -/
def frame5At : Nat := Dev.reset.audStart 1 5

/-- The state that a command leaves. -/
def stateAfter (c : Instr) (s : State) : Option State := match exec c s with
  | .next t => some t
  | _ => none

theorem stateAfter_of_next {c : Instr} {s t : State} (h : exec c s = .next t) : stateAfter c s = some t := by
  rw [stateAfter, h]

/-- The range that runs backwards takes frame 5 at its end, and holds no frame. -/
theorem backwardRange_loses_frame5 :
    (stateAfter (.audioFrame 1 ⟨frame5At, false⟩ 1024 []) backwardRange).map (fun t => t.dev.audHolds 2 5) = some false := by
  decide +kernel

theorem backwardRange_index : (backwardRange.start.pass frame5At).audIndex 1 (backwardRange.start.pass frame5At).stc = 5 := by
  decide +kernel

theorem backwardRange_unmuted (i : Nat) : (backwardRange.dev.audIn 2).pairs.getD i none = none := by
  have : (backwardRange.dev.audIn 2).pairs = List.replicate 16 none := by decide +kernel
  rw [this, List.getD_eq_getElem?_getD, List.getElem?_replicate]
  split <;> rfl

/-- Refutes O49: no premise binds the frame ranges that the model keeps of a ring, and of a range that runs backwards up to the frame
before, frame n makes another that holds no frame. -/
theorem not_audioFramesAreStoredAndDriven : ¬ Obligations.AudioFramesAreStoredAndDriven := by
  intro h
  obtain ⟨-, -, h⟩ := h backwardRange 1 frame5At false 1024 [] rfl
  obtain ⟨h, -⟩ := h 4 0 (by decide +kernel) (by decide +kernel) rfl rfl rfl (by decide +kernel) (by decide +kernel) (by decide +kernel)
    (by decide +kernel) (by decide +kernel) (by decide +kernel) (by decide +kernel) (by decide +kernel)
  obtain ⟨t, ht, -, -, -, -, -, -, -, holds, -⟩ := h 2 ⟨0, 0, false, false⟩ (by decide +kernel) (by decide +kernel)
    (by decide +kernel) (by decide +kernel) (by decide +kernel) (by decide +kernel) backwardRange_unmuted (by decide +kernel)
    (by decide +kernel)
  have lost := backwardRange_loses_frame5
  rw [stateAfter_of_next ht, Option.map_some, Option.some.injEq] at lost
  rw [show ((1 : Fin 2) : Nat) = 1 from rfl, backwardRange_index] at holds
  exact Bool.false_ne_true (lost.symm.trans holds)

end Sys2Proof.Machine
end

section
/-!
PROOFS. How a command that writes no DRAM ends, numbers in bytes, and the messages of the cue protocol: the layout of a reply, the ways
in which an arriving message is taken, and the request that holds no operation.
-/

namespace Sys2Proof.Machine

/-! A command that writes no DRAM. -/

/-- A command whose effect is known and writes no DRAM leaves that effect. -/
theorem run_eq {s : State} {f : List Host.Cell → Dev → Dev} {d : Dev} (on : s.dev.off = false) (e : f s.mem s.start = d)
    (q : d.wq = []) : run s f = .next (s.withDev d) := by
  subst e
  exact run_quiet on q

/-- The state that it leaves differs in the device only, and in the windows that the effect writes. -/
theorem State.only_withDev {ws : List Nat} {s : State} {d : Dev} (h : Dev.Keeps ws s.start d) : s.Only ws (s.withDev d) :=
  ⟨rfl, rfl, fun f n => h.rd f n⟩

/-! Numbers in bytes. -/

@[simp] theorem length_leBytes (n v : Nat) : (leBytes n v).length = n := by
  induction n generalizing v with
  | zero => rfl
  | succ n ih => simp [leBytes, ih]

@[simp] theorem length_beBytes (n v : Nat) : (beBytes n v).length = n := by simp [beBytes]

theorem leNat_leBytes (n v : Nat) : leNat (leBytes n v) = v % 256 ^ n := by
  induction n generalizing v with
  | zero => simp [leBytes, leNat, Nat.mod_one]
  | succ n ih =>
    rw [leBytes, leNat, ih, BitVec.toNat_ofNat, show 256 ^ (n + 1) = 2 ^ 8 * 256 ^ n from Nat.pow_succ', Nat.mod_mul]
    rfl

theorem leNat_lt (bs : List Byte) : leNat bs < 256 ^ bs.length := by
  induction bs with
  | nil => simp [leNat]
  | cons b r ih =>
    have := b.isLt
    rw [leNat, List.length_cons, Nat.pow_succ']
    omega

theorem beAt_lt (bs : List Byte) (off n : Nat) : beAt bs off n < 256 ^ n := by
  refine (leNat_lt _).trans_le (Nat.pow_le_pow_right (by decide) ?_)
  simp [slice]

/-- A number of n bytes reads back at the place where it stands. -/
theorem beAt_append {a : List Byte} {off : Nat} (h : a.length = off) (n v : Nat) (c : List Byte) :
    beAt (a ++ (beBytes n v ++ c)) off n = v % 256 ^ n := by
  subst h
  rw [beAt, slice, List.drop_left, List.take_left' (length_beBytes n v), beNat, beBytes, List.reverse_reverse, leNat_leBytes]

/-! Messages (R466, Table 17-4). -/

theorem cueSeq_cueMessage (key : List Byte) (kind id flags seq at_ tag : Nat) (body : List Byte) :
    cueSeq (cueMessage key kind id flags seq at_ tag body) = seq % 2 ^ 64 := by
  have h : (beBytes 2 0x5A43 ++ (beBytes 1 1 ++ (beBytes 1 kind ++ (beBytes 1 id ++ (beBytes 1 flags ++ beBytes 2 body.length))))).length = 8 := by
    simp
  have e := beAt_append h 8 seq
  simp only [List.append_assoc] at e
  simp only [cueSeq, cueMessage, List.append_assoc, e]
  norm_num

/-- The body of a message stands after 32 bytes. -/
theorem beAt_body_cueMessage (key : List Byte) (kind id flags seq at_ tag : Nat) {a : List Byte} {off : Nat} (h : a.length + 32 = off)
    (n v : Nat) (c : List Byte) :
    beAt (cueMessage key kind id flags seq at_ tag (a ++ (beBytes n v ++ c))) off n = v % 256 ^ n := by
  have hl : (beBytes 2 0x5A43 ++ (beBytes 1 1 ++ (beBytes 1 kind ++ (beBytes 1 id ++ (beBytes 1 flags ++
      (beBytes 2 (a ++ (beBytes n v ++ c)).length ++ (beBytes 8 seq ++ (beBytes 8 at_ ++ (beBytes 2 tag ++ (beBytes 6 0 ++ a)))))))))).length
      = off := by
    simp only [List.length_append, length_beBytes]
    omega
  have e := beAt_append hl n v
  simp only [List.append_assoc] at e
  simp only [cueMessage, List.append_assoc, e]

namespace Dev

theorem cueSeq_replyTo (k : CueKey) (req body : List Byte) (dup : Bool) : cueSeq (replyTo k req body dup) = cueSeq req := by
  rw [replyTo, cueSeq_cueMessage]
  exact Nat.mod_eq_of_lt (beAt_lt req 8 8)

/-- A reply holds its status in byte 40. -/
theorem status_replyTo (d : Dev) (k : CueKey) (req : List Byte) (dup : Bool) (arrival index removed : Nat) {status : Nat}
    (h : status < 256) (data : List Byte) :
    beAt (replyTo k req (d.replyBody arrival status index removed data) dup) 40 1 = status := by
  have e := beAt_body_cueMessage k.key 2 k.id (b2n (cueScheduled req) + 2 * b2n dup) (cueSeq req) (beAt req 16 8) (cueTag req)
    (a := beBytes 8 arrival) (off := 40) (by simp) 1 status
  simp only [replyTo, replyBody, List.append_assoc, e]
  exact Nat.mod_eq_of_lt h

/-! Keys. -/

theorem cueKey_id {d : Dev} {id : Nat} {k : CueKey} (h : d.cueKey id = some k) : k.id = id := by
  simpa using List.find?_some h

/-- Of the keys with an id, a key put in their place is the first. -/
theorem find?_replaceKey {k' : CueKey} : ∀ {l : List CueKey}, (l.find? fun x => x.id = k'.id).isSome →
    ((l.map fun x => if x.id = k'.id then k' else x).find? fun x => x.id = k'.id) = some k'
  | [], h => by simp at h
  | x :: r, h => by
    by_cases hx : x.id = k'.id
    · simp [hx]
    · have := find?_replaceKey (k' := k') (l := r) (by simpa [List.find?_cons, hx] using h)
      simp [hx, this]

theorem cueKey_putKey {d : Dev} {id : Nat} {k k' : CueKey} (h : d.cueKey id = some k) (hid : k'.id = id) :
    (d.putKey k').cueKey id = some k' := by
  subst hid
  refine find?_replaceKey ?_
  rw [← cueKey, h]
  rfl

/-! Replies. -/

theorem cueSend_udp {d : Dev} {p : Nat} (h : d.ethRuns p = true) (v6 : Bool) (addr : List Byte) (udp : Nat) (report : Bool)
    (bs : List Byte) : d.cueSend (.udp p v6 addr udp) report bs = d.emit (.udp p addr (d.cm R.ETH_CUE_PORT) udp 0 bs) := by
  simp [cueSend, h]

theorem state_cnt {d : Dev} {f : Fld} (h : R.TOP_STATE.key ≠ f.key) : (d.cnt f).state = d.state := state_wr _ _ _ h

theorem ethRuns_cnt {d : Dev} {p : Nat} {f : Fld} (h : (R.ETH_PORT_CTRL_EN p).key ≠ f.key) (h' : R.TOP_STATE.key ≠ f.key) :
    (d.cnt f).ethRuns p = d.ethRuns p := by
  simp only [ethRuns, rdb, inService, rd_cnt_ne _ _ _ h, state_cnt h']

/-- No counter of the cue protocol is the register of a port. -/
theorem portEn_key_lt (p : Fin 2) : (R.ETH_PORT_CTRL_EN p).key < 8 * 0x450800 := by
  have := p.isLt
  simp only [R.ETH_PORT_CTRL_EN]
  omega

end Dev

/-! Arrival (R467 to R469). -/

/-- The key's HMAC stands under a message of the protocol (R467). -/
def CueKey.Signs (k : CueKey) (bs : List Byte) : Prop :=
  beAt bs 0 2 = 0x5A43 ∧ beAt bs 2 1 = 1 ∧ hmacSha256 k.key (bs.take (bs.length - 32)) = bs.drop (bs.length - 32)

/-- The reply that the key keeps for a message, within its window of 64 (R468). -/
def CueKey.kept (k : CueKey) (bs : List Byte) : Option (Nat × List Byte) :=
  k.replies.find? fun x => x.1 = cueSeq bs && decide (k.high.getD 0 < x.1 + 64)

/-- The message's SEQ does not exceed the highest that the key has accepted (R468). -/
def CueKey.Passed (k : CueKey) (bs : List Byte) : Prop := ∃ h, k.high = some h ∧ cueSeq bs ≤ h

/-- The key once it keeps a reply (R468). -/
def CueKey.keeping (k : CueKey) (seq : Nat) (r : List Byte) : CueKey :=
  { k with replies := (seq, r) :: k.replies.filter fun x => decide (k.high.getD 0 < x.1 + 64) && x.1 != seq }

namespace Dev

/-- A message takes its arrival number and its place in the queue. -/
def queued (d : Dev) (k : CueKey) (src : CueAddr) (bs : List Byte) : Dev :=
  let n := (d.cue.arrival + 1) % 2 ^ 64
  let d := (d.putKey { k with high := some (cueSeq bs) }).cnt R.ETH_RX_MSG
  d.cput { d.cue with
    queue := d.cue.queue ++ [⟨n, src, bs⟩], arrival := n
    spiOpen := d.cue.spiOpen + (if src = .spi then 1 else 0) }

section
variable {d : Dev} {src : CueAddr} {bs : List Byte} {k : CueKey}

theorem cueArrive_unknown (h : d.cueKey (cueKeyId bs) = none) : actCueArrive src bs d = d.cnt R.ETH_AUTH_FAIL := by
  simp only [actCueArrive, h]

theorem cueArrive_unsigned (h : d.cueKey (cueKeyId bs) = some k) (hs : ¬k.Signs bs) : actCueArrive src bs d = d.cnt R.ETH_AUTH_FAIL := by
  simp only [actCueArrive, h]
  refine if_pos ?_
  rw [CueKey.Signs] at hs
  tauto

/-- A message that the key signs goes by its kind, the reply kept and its SEQ. -/
theorem cueArrive_signed (h : d.cueKey (cueKeyId bs) = some k) (hs : k.Signs bs) :
    actCueArrive src bs d =
      if cueKind bs ≠ 1 then d
      else match k.kept bs with
        | some x => (d.cnt R.ETH_DUP_REPLY).cueSend src false (replyTo k bs (cueBody x.2) true)
        | none =>
          let old := match k.high with
            | some h => decide (cueSeq bs ≤ h)
            | none => false
          if old then d.cnt R.ETH_REPLAY_DROP
          else if 64 ≤ d.cue.queue.length then
            (d.cnt R.ETH_BUSY).cueSend src false (replyTo k bs (d.replyBody 0 0x0C 0xFF 0 []) false)
          else (d.queued k src bs).cuePump := by
  obtain ⟨h1, h2, h3⟩ := hs
  simp only [actCueArrive, h]
  rw [if_neg (by simp [h1, h2, h3])]
  rfl

theorem cueArrive_otherKind (h : d.cueKey (cueKeyId bs) = some k) (hs : k.Signs bs) (hk : cueKind bs ≠ 1) : actCueArrive src bs d = d := by
  rw [cueArrive_signed h hs, if_pos hk]

theorem cueArrive_kept (h : d.cueKey (cueKeyId bs) = some k) (hs : k.Signs bs) (hk : cueKind bs = 1) {x : Nat × List Byte}
    (hx : k.kept bs = some x) :
    actCueArrive src bs d = (d.cnt R.ETH_DUP_REPLY).cueSend src false (replyTo k bs (cueBody x.2) true) := by
  rw [cueArrive_signed h hs, if_neg (by simp [hk]), hx]

theorem cueArrive_passed (h : d.cueKey (cueKeyId bs) = some k) (hs : k.Signs bs) (hk : cueKind bs = 1) (hx : k.kept bs = none)
    (ho : k.Passed bs) : actCueArrive src bs d = d.cnt R.ETH_REPLAY_DROP := by
  obtain ⟨q, hq, hle⟩ := ho
  rw [cueArrive_signed h hs, if_neg (by simp [hk]), hx]
  simp [hq, hle]

theorem cueArrive_new (h : d.cueKey (cueKeyId bs) = some k) (hs : k.Signs bs) (hk : cueKind bs = 1) (hx : k.kept bs = none)
    (ho : ¬k.Passed bs) :
    actCueArrive src bs d = if 64 ≤ d.cue.queue.length then
      (d.cnt R.ETH_BUSY).cueSend src false (replyTo k bs (d.replyBody 0 0x0C 0xFF 0 []) false) else (d.queued k src bs).cuePump := by
  have old : (match k.high with
      | some h => decide (cueSeq bs ≤ h)
      | none => false) = false := by
    cases hh : k.high with
    | none => rfl
    | some q => exact decide_eq_false fun hle => ho ⟨q, hh, hle⟩
  rw [cueArrive_signed h hs, if_neg (by simp [hk]), hx]
  simp only [old, Bool.false_eq_true, if_false]

/-! A datagram reaches the cue protocol (R457, R466). -/

/-- With its headers a datagram exceeds 1,522 bytes as its payload exceeds 1,480 bytes, or 1,460 over IPv6. -/
theorem oversize_iff (n : Nat) (v6 : Bool) : 1522 < n + (if v6 then 62 else 42) ↔ 1480 - (if v6 then 20 else 0) < n := by
  cases v6 <;> simp <;> omega

theorem cueMessage_notRunning {p : Fin 2} {v6 : Bool} {addr : List Byte} {udp dst : Nat} (h : d.inService = false ∨ d.ethRuns p = false) :
    actCueMessage (.eth p v6 addr udp dst) bs d = d := by
  rcases h with h | h <;> simp [actCueMessage, h]

theorem cueMessage_udp {p : Fin 2} {v6 : Bool} {addr : List Byte} {udp dst : Nat} (hs : d.inService = true) (hr : d.ethRuns p = true) :
    actCueMessage (.eth p v6 addr udp dst) bs d =
      if 1480 - (if v6 then 20 else 0) < bs.length then d.cnt R.ETH_OVERSIZE
      else if dst ≠ d.cm R.ETH_CUE_PORT then d
      else if cueLenOk bs = false then d.cnt R.ETH_BAD_FRAME else actCueArrive (.udp p v6 addr udp) bs d := by
  simp [actCueMessage, hs, hr, oversize_iff]

end

/-! A message that has been queued (R469, R471). -/

section
variable {d : Dev} {src : CueAddr} {bs : List Byte} {k : CueKey}

theorem keeps_queued : Keeps [0x45] d (d.queued k src bs) := .set_cue (.cnt (by decide) (.set_cue .refl))

theorem cueKey_queued (h : d.cueKey (cueKeyId bs) = some k) :
    (d.queued k src bs).cueKey (cueKeyId bs) = some { k with high := some (cueSeq bs) } :=
  have same : k.id = cueKeyId bs := cueKey_id h
  cueKey_putKey h same

theorem counted_queued : d.Counted (d.queued k src bs) R.ETH_RX_MSG :=
  rd_cnt_self (d.putKey { k with high := some (cueSeq bs) }) R.ETH_RX_MSG

theorem inService_queued : (d.queued k src bs).inService = d.inService := by
  have : (d.queued k src bs).state = d.state := state_cnt (d := d.putKey { k with high := some (cueSeq bs) }) (by decide)
  rw [inService, this, inService]

theorem ethRuns_queued (p : Fin 2) : (d.queued k src bs).ethRuns p = d.ethRuns p :=
  ethRuns_cnt (d := d.putKey { k with high := some (cueSeq bs) })
    (Nat.ne_of_lt ((portEn_key_lt p).trans_le (by decide))) (by decide)

/-- While a job is in hand no message is taken. -/
theorem cuePump_of_job (h : d.cue.job.isSome = true) : d.cuePump = d :=
  List.foldl_fixed' (fun _ => by simp [cueTake, h]) _

/-- The messages that wait are gone from the queue. -/
def emptied (d : Dev) : Dev := d.cput { d.cue with queue := [] }

theorem bodyCheck_nil (d : Dev) (spi stored : Bool) : d.bodyCheck spi stored none [] = none := rfl

/-- The one message that waits asks for nothing: it is answered OK (R471). -/
theorem cuePump_empty {q : CueMsg} (hs : d.inService = true) (hj : d.cue.job = none) (hf : d.cal.runq = []) (hq : d.cue.queue = [q])
    (hu : cueScheduled q.bytes = false) (hb : cueBody q.bytes = []) :
    d.cuePump = d.emptied.answer q 0 0xFF 0 [] := by
  have idle : (d.cue.job.isSome || !d.cal.runq.isEmpty || !d.inService) = false := by simp [hs, hj, hf]
  have take : d.cueTake = d.emptied.answer q 0 0xFF 0 [] := by
    rw [cueTake, idle, hq]
    simp only [hu, hb, Bool.false_eq_true, if_false, bodyCheck_nil]
    rfl
  rw [cuePump, hq]
  exact take

/-- A request by UDP is answered: the key keeps the reply, and it goes to where the request came from (R468). -/
theorem answer_udp {q : CueMsg} {p : Fin 2} {v6 : Bool} {addr : List Byte} {udp : Nat} (hs : q.source = .udp p v6 addr udp)
    (hk : d.cueKey (cueKeyId q.bytes) = some k) (hr : d.ethRuns p = true) (status index removed : Nat) (data : List Byte) :
    let r := replyTo k q.bytes (d.replyBody q.arrival status index removed data) false
    d.answer q status index removed data =
      (d.putKey (k.keeping (cueSeq q.bytes) r)).emit (.udp p addr (d.cm R.ETH_CUE_PORT) udp 0 r) := by
  intro r
  simp only [answer, hk, hs]
  exact cueSend_udp (d := d.putKey (k.keeping (cueSeq q.bytes) r)) hr v6 addr udp false r

end

end Dev

section
variable {s : State} {bs : List Byte} {p : Fin 2} {v6 : Bool} {addr : List Byte} {udp dst : Nat}

/-- A datagram to a device in service, on a running port, no longer than a frame can be. -/
structure State.Reached (s : State) (p : Fin 2) (v6 : Bool) (bs : List Byte) (dst : Nat) : Prop where
  on : s.dev.off = false
  service : s.dev.inService = true
  runs : s.dev.ethRuns p = true
  fits : bs.length ≤ 1480 - (if v6 then 20 else 0)
  port : dst = s.dev.cm R.ETH_CUE_PORT

theorem exec_cueMessage {src : CueFrom} {d : Dev} (on : s.dev.off = false) (e : actCueMessage src bs s.start = d) (q : d.wq = []) :
    exec (.cueMessageReceive src bs) s = .next (s.withDev d) := (exec_cueMessageReceive src bs s).trans (run_eq on e q)

theorem State.Reached.checked (h : s.Reached p v6 bs dst) :
    actCueMessage (.eth p v6 addr udp dst) bs s.start =
      if cueLenOk bs = false then s.start.cnt R.ETH_BAD_FRAME else actCueArrive (.udp p v6 addr udp) bs s.start := by
  have port : ¬dst ≠ s.start.cm R.ETH_CUE_PORT := not_not_intro h.port
  rw [Dev.cueMessage_udp (d := s.start) h.service h.runs, if_neg (Nat.not_lt.mpr h.fits), if_neg port]

theorem State.Reached.act (h : s.Reached p v6 bs dst) (ok : cueLenOk bs = true) :
    actCueMessage (.eth p v6 addr udp dst) bs s.start = actCueArrive (.udp p v6 addr udp) bs s.start := by
  rw [h.checked, if_neg (by simp [ok])]

/-- A reply on a running port as a counter has been counted. -/
theorem State.Reached.cnt_send (h : s.Reached p v6 bs dst) {f : Fld} (hf : 8 * 0x450800 ≤ f.key) (r : List Byte) :
    (s.start.cnt f).cueSend (.udp p v6 addr udp) false r = (s.start.cnt f).emit (.udp p addr (s.dev.cm R.ETH_CUE_PORT) udp 0 r) := by
  refine Dev.cueSend_udp ?_ ..
  rw [Dev.ethRuns_cnt (Nat.ne_of_lt ((Dev.portEn_key_lt p).trans_le hf)) (Nat.ne_of_lt (Nat.lt_of_lt_of_le (by decide) hf))]
  exact h.runs

/-- A new message that meets a full queue is answered BUSY. -/
theorem cueMessage_busy (h : s.Reached p v6 bs dst) (ok : cueLenOk bs = true) {k : CueKey} (hk : s.dev.cueKey (cueKeyId bs) = some k)
    (hs : k.Signs bs) (kind : cueKind bs = 1) (hx : k.kept bs = none) (ho : ¬k.Passed bs) (full : 64 ≤ s.dev.cue.queue.length) :
    ∃ t r, exec (.cueMessageReceive (.eth p v6 addr udp dst) bs) s = .next t ∧ s.Only [0x45] t ∧ t.dev.cue = s.dev.cue ∧
      s.dev.Counted t.dev R.ETH_BUSY ∧ t.dev.out = .udp p addr (s.dev.cm R.ETH_CUE_PORT) udp 0 r :: s.dev.out ∧
      beAt r 40 1 = 0x0C ∧ cueSeq r = cueSeq bs := by
  have e : actCueMessage (.eth p v6 addr udp dst) bs s.start = _ :=
    ((h.act ok).trans (Dev.cueArrive_new hk hs kind hx ho)).trans ((if_pos full).trans (h.cnt_send (by decide) _))
  refine ⟨_, _, exec_cueMessage h.on e rfl, State.only_withDev (.emit (.cnt (by decide) .refl)), rfl, Dev.rd_cnt_self .., rfl, ?_, ?_⟩
  · exact Dev.status_replyTo _ _ _ _ _ _ _ (by decide) _
  · exact Dev.cueSeq_replyTo ..

/-- A new message takes its place in a queue that is not full. -/
theorem act_queued (h : s.Reached p v6 bs dst) (ok : cueLenOk bs = true) {k : CueKey} (hk : s.dev.cueKey (cueKeyId bs) = some k)
    (hs : k.Signs bs) (kind : cueKind bs = 1) (hx : k.kept bs = none) (ho : ¬k.Passed bs) (room : s.dev.cue.queue.length < 64) :
    actCueMessage (.eth p v6 addr udp dst) bs s.start = (s.start.queued k (.udp p v6 addr udp) bs).cuePump :=
  ((h.act ok).trans (Dev.cueArrive_new hk hs kind hx ho)).trans (if_neg (Nat.not_le.mpr room))

theorem cueMessage_queued (h : s.Reached p v6 bs dst) (ok : cueLenOk bs = true) {k : CueKey} (hk : s.dev.cueKey (cueKeyId bs) = some k)
    (hs : k.Signs bs) (kind : cueKind bs = 1) (hx : k.kept bs = none) (ho : ¬k.Passed bs) (room : s.dev.cue.queue.length < 64)
    (job : s.dev.cue.job.isSome = true) :
    ∃ t, exec (.cueMessageReceive (.eth p v6 addr udp dst) bs) s = .next t ∧ s.Only [0x45] t ∧
      t.dev.cue.queue = s.dev.cue.queue ++ [⟨(s.dev.cue.arrival + 1) % 2 ^ 64, .udp p v6 addr udp, bs⟩] ∧
      t.dev.cue.arrival = (s.dev.cue.arrival + 1) % 2 ^ 64 ∧ t.dev.cue.job = s.dev.cue.job ∧
      s.dev.Counted t.dev R.ETH_RX_MSG ∧ t.dev.cueKey (cueKeyId bs) = some { k with high := some (cueSeq bs) } ∧
      t.dev.out = s.dev.out :=
  have e : actCueMessage (.eth p v6 addr udp dst) bs s.start = _ :=
    (act_queued h ok hk hs kind hx ho room).trans (Dev.cuePump_of_job job)
  ⟨_, exec_cueMessage h.on e rfl, State.only_withDev Dev.keeps_queued, rfl, rfl, rfl, Dev.counted_queued, Dev.cueKey_queued hk, rfl⟩

/-- A new request that holds no operation, with nothing in hand, is answered OK at once. -/
theorem cueMessage_answered (h : s.Reached p v6 bs dst) (ok : cueLenOk bs = true) {k : CueKey} (hk : s.dev.cueKey (cueKeyId bs) = some k)
    (hs : k.Signs bs) (kind : cueKind bs = 1) (hx : k.kept bs = none) (ho : ¬k.Passed bs) (hq : s.dev.cue.queue = [])
    (hj : s.dev.cue.job = none) (hf : s.dev.cal.runq = []) (hu : cueScheduled bs = false) (hb : cueBody bs = []) :
    ∃ t r, exec (.cueMessageReceive (.eth p v6 addr udp dst) bs) s = .next t ∧ s.Only [0x45] t ∧ t.dev.cue.queue = [] ∧
      t.dev.cue.job = none ∧ t.dev.out = .udp p addr (s.dev.cm R.ETH_CUE_PORT) udp 0 r :: s.dev.out ∧
      beAt r 40 1 = 0 ∧ cueSeq r = cueSeq bs ∧
      ∃ q, t.dev.cueKey (cueKeyId bs) = some q ∧ q.high = some (cueSeq bs) ∧
        (q.replies.find? fun x => x.1 = cueSeq bs) = some (cueSeq bs, r) := by
  let d := s.start.queued k (.udp p v6 addr udp) bs
  let q : CueMsg := ⟨(s.dev.cue.arrival + 1) % 2 ^ 64, .udp p v6 addr udp, bs⟩
  have key := Dev.cueKey_queued (src := .udp p v6 addr udp) (d := s.start) hk
  have same : k.id = cueKeyId bs := Dev.cueKey_id hk
  have service : d.inService = true := Dev.inService_queued.trans h.service
  have runs : d.ethRuns p = true := (Dev.ethRuns_queued p).trans h.runs
  have pump := Dev.cuePump_empty (d := d) (q := q) service hj hf
    (congrArg (· ++ _) hq) hu hb
  have e : actCueMessage (.eth p v6 addr udp dst) bs s.start = _ :=
    ((act_queued h ok hk hs kind hx ho (by simp [hq])).trans pump).trans
      (Dev.answer_udp (d := d.emptied) (q := q) rfl key runs 0 0xFF 0 [])
  refine ⟨_, _, exec_cueMessage h.on e rfl, State.only_withDev (.emit (.set_cue (.set_cue Dev.keeps_queued))), rfl, hj, rfl, ?_, ?_,
    _, Dev.cueKey_putKey (d := d.emptied) key same, rfl, ?_⟩
  · exact Dev.status_replyTo _ _ _ _ _ _ _ (by decide) _
  · exact Dev.cueSeq_replyTo ..
  · exact List.find?_cons_of_pos (decide_eq_true rfl)

/-! The SPI target port (R475, R476). -/

theorem cueMessage_spi_badLength (hs : s.dev.inService = true) (bad : cueLenOk bs = false) :
    actCueMessage .spi bs s.start = s.start.cnt R.ETH_BAD_FRAME := by
  have service : s.start.inService = true := hs
  simp [actCueMessage, service, bad]

theorem cueMessage_spi_full (hs : s.dev.inService = true) (ok : cueLenOk bs = true)
    (full : 16 ≤ (s.dev.cue.spi.filter fun x => !x.1).length + s.dev.cue.spiOpen) :
    actCueMessage .spi bs s.start = s.start.cnt R.ETH_SPI_DROP := by
  have service : s.start.inService = true := hs
  simp only [actCueMessage, service, ok, Bool.not_true, Bool.false_eq_true, if_false]
  exact if_pos full

theorem cueMessage_outOfService {src : CueFrom} (hs : s.dev.inService = false) : actCueMessage src bs s.start = s.start := by
  have service : s.start.inService = false := hs
  simp [actCueMessage, service]

theorem readMsg_nothing (h : s.dev.inService = false ∨ s.dev.cue.spi = []) : actReadMsg s.start = s.start := by
  rcases h with h | h
  · have service : s.start.inService = false := h
    simp [actReadMsg, service]
  · have empty : s.start.cue.spi = [] := h
    simp [actReadMsg, empty]

/-- The oldest reply leaves, and SPIT_IRQ_N follows the queue. -/
theorem exec_readMsg_pops (on : s.dev.off = false) (hs : s.dev.inService = true) {x : Bool × List Byte} {r : List (Bool × List Byte)}
    (hq : s.dev.cue.spi = x :: r) :
    ∃ t, exec .readMsg s = .next t ∧ s.Only [] t ∧ t.dev.cue.spi = r ∧ t.dev.out = .spi x.2 :: s.dev.out ∧
      t.dev.pins.spitIrqN = r.isEmpty := by
  have service : s.start.inService = true := hs
  have queue : s.start.cue.spi = x :: r := hq
  have e : actReadMsg s.start = ((s.start.cput { s.start.cue with spi := r }).emit (.spi x.2)).spiShow := by
    simp only [actReadMsg, service, queue, Bool.not_true, Bool.false_eq_true, if_false]
  refine ⟨_, (exec_readMsg s).trans (run_eq on e rfl), State.only_withDev (.set_pins (.emit (.set_cue .refl))), rfl, rfl, ?_⟩
  have shown : ((s.start.cput { s.start.cue with spi := r }).emit (.spi x.2)).inService = true := hs
  exact (congrArg (fun b => r.isEmpty || !b) shown).trans (Bool.or_false _)

end

/-- Settles O53: the cases of a datagram by length, port, key, SEQ and queue, and the three commands of the SPI target port. -/
theorem cueMessagesAreTaken : Obligations.CueMessagesAreTaken := by
  refine ⟨fun s p v6 addr udp dst bs on => ⟨?_, fun hs hr long => ?_, fun hs hr fits port => ?_⟩, fun s bs on => ⟨rfl, ?_, ?_, ?_⟩,
    fun s on safe => ⟨?_, fun hs => ?_, fun hq => ?_, fun x r hs hq => exec_readMsg_pops on hs hq⟩⟩
  · rintro (h | h | ⟨fits, port⟩)
    · exact exec_cueMessage on (cueMessage_outOfService h) rfl
    · exact exec_cueMessage on (Dev.cueMessage_notRunning (.inr h)) rfl
    · cases hs : s.dev.inService with
      | false => exact exec_cueMessage on (cueMessage_outOfService hs) rfl
      | true =>
        cases hr : s.dev.ethRuns p with
        | false => exact exec_cueMessage on (Dev.cueMessage_notRunning (.inr hr)) rfl
        | true => exact exec_cueMessage on ((Dev.cueMessage_udp (d := s.start) hs hr).trans
            ((if_neg (Nat.not_lt.mpr fits)).trans (if_pos port))) rfl
  · exact exec_cueMessage on ((Dev.cueMessage_udp (d := s.start) hs hr).trans (if_pos long)) rfl
  · have h : s.Reached p v6 bs dst := ⟨on, hs, hr, fits, port⟩
    refine ⟨fun bad => ?_, fun ok hk => exec_cueMessage on ((h.act ok).trans (Dev.cueArrive_unknown hk)) rfl, fun k ok hk =>
      ⟨fun hn => exec_cueMessage on ((h.act ok).trans (Dev.cueArrive_unsigned hk hn)) rfl,
       fun hs' hn => exec_cueMessage on ((h.act ok).trans (Dev.cueArrive_otherKind hk hs' hn)) rfl, fun hs' kind => ⟨fun x hx => ?_,
         fun hx ho => exec_cueMessage on ((h.act ok).trans (Dev.cueArrive_passed hk hs' kind hx ho)) rfl,
         cueMessage_busy h ok hk hs' kind, cueMessage_queued h ok hk hs' kind, cueMessage_answered h ok hk hs' kind⟩⟩⟩
    · exact exec_cueMessage on ((h.checked).trans (if_pos bad)) rfl
    · exact exec_cueMessage on (((h.act ok).trans (Dev.cueArrive_kept (d := s.start) hk hs' kind hx)).trans (h.cnt_send (by decide) _)) rfl
  · exact fun hs => exec_cueMessage on (cueMessage_outOfService hs) rfl
  · exact fun hs bad => exec_cueMessage on (cueMessage_spi_badLength hs bad) rfl
  · exact fun hs ok full => exec_cueMessage on (cueMessage_spi_full hs ok full) rfl
  · exact (exec_readStatus s).trans (run_eq on (if_neg safe) rfl)
  · exact (exec_readMsg s).trans (run_eq on (readMsg_nothing (.inl hs)) rfl)
  · exact (exec_readMsg s).trans (run_eq on (readMsg_nothing (.inr hq)) rfl)

end Sys2Proof.Machine
end

section
/-!
PROOFS. The pairing stream: how a frame is received, and what a cut, an ACK, a SIG frame and a telemetry frame change.
-/

namespace Sys2Proof.Machine

namespace Dev

/-! What a cut changes beside the items that it names. -/

/-- e is d but for its registers, its event log, its tiles, its recording store and its HEVC sessions, and reads as d in every register
of the redundancy control but those with keys in ks. -/
structure Beside (ks : List Nat) (d e : Dev) : Prop where
  rest : e = { d with regs := e.regs, elog := e.elog, tiles := e.tiles, hbx := e.hbx, hvc := e.hvc }
  veer : ∀ f : Fld, f.key / 524288 = 7 → f.key ∉ ks → e.rd f = d.rd f

namespace Beside

variable {ks : List Nat} {c d e : Dev}

theorem refl : Beside ks d d := ⟨rfl, fun _ _ _ => rfl⟩

/-! The parts that stay. -/

theorem wq (h : Beside ks d e) : e.wq = d.wq := (congrArg Dev.wq h.rest).trans rfl
theorem live (h : Beside ks d e) : e.live = d.live := (congrArg Dev.live h.rest).trans rfl
theorem comm (h : Beside ks d e) : e.comm = d.comm := (congrArg Dev.comm h.rest).trans rfl
theorem tbl (h : Beside ks d e) : e.tbl = d.tbl := (congrArg Dev.tbl h.rest).trans rfl
theorem clr (h : Beside ks d e) : e.clr = d.clr := (congrArg Dev.clr h.rest).trans rfl
theorem cmp (h : Beside ks d e) : e.cmp = d.cmp := (congrArg Dev.cmp h.rest).trans rfl
theorem scn (h : Beside ks d e) : e.scn = d.scn := (congrArg Dev.scn h.rest).trans rfl
theorem cue (h : Beside ks d e) : e.cue = d.cue := (congrArg Dev.cue h.rest).trans rfl
theorem cal (h : Beside ks d e) : e.cal = d.cal := (congrArg Dev.cal h.rest).trans rfl

/-! The ways in which a device changes so. -/

theorem trans (h : Beside ks c d) (h' : Beside ks d e) : Beside ks c e :=
  ⟨h'.rest.trans (congrArg (fun x : Dev => { x with regs := e.regs, elog := e.elog, tiles := e.tiles, hbx := e.hbx, hvc := e.hvc }) h.rest),
    fun f hf n => (h'.veer f hf n).trans (h.veer f hf n)⟩

theorem wr (d : Dev) {f : Fld} (hf : f.key / 524288 ≠ 7) (v : Nat) : Beside ks d (d.wr f v) :=
  ⟨rfl, fun _ hg _ => rd_wr_ne _ _ _ _ fun e => hf (e ▸ hg)⟩

theorem wrVeer (d : Dev) {f : Fld} (hf : f.key ∈ ks) (v : Nat) : Beside ks d (d.wr f v) :=
  ⟨rfl, fun _ _ n => rd_wr_ne _ _ _ _ fun e => n (e ▸ hf)⟩

theorem log (d : Dev) (s i c k x p : Nat) (n : Option LogNote) : Beside ks d (d.log s i c k x p n) := by
  refine ⟨?_, fun f hf _ => rd_logEntry _ _ _ fun e => absurd (e ▸ hf) (by decide)⟩
  unfold Dev.log logEntry
  dsimp only
  split <;> rfl

theorem ite {p : Prop} [Decidable p] {a b : Dev} (ha : Beside ks d a) (hb : Beside ks d b) : Beside ks d (if p then a else b) := by
  split
  · exact ha
  · exact hb

theorem flag (d : Dev) {f : Fld} (hf : f.key / 524288 ≠ 7) (i c : Nat) (l v : Bool) : Beside ks d (d.flag i f c l v) :=
  ite refl (ite ((wr d hf _).trans (log ..)) (ite ((wr d hf _).trans (log ..)) (wr d hf _)))

theorem foldl {α : Type} {f : Dev → α → Dev} : ∀ (l : List α) {d : Dev}, (∀ d, ∀ a ∈ l, Beside ks d (f d a)) → Beside ks d (l.foldl f d)
  | [], _, _ => refl
  | a :: r, d, h => (h d a List.mem_cons_self).trans (foldl r fun d b hb => h d b (List.mem_cons_of_mem _ hb))

theorem setLock (d : Dev) (l : Nat) : Beside ks d (d.setLock l) :=
  ite refl ((ite ((wr d (by decide) l).trans (wr _ (by decide) 1)) (wr d (by decide) l)).trans (log ..))

theorem frefFlag (d : Dev) : Beside ks d d.frefFlag := flag d (by decide) ..

theorem lockLost (d : Dev) : Beside ks d d.lockLost :=
  (wr d (f := R.WTM_STATUS_LOSSES) (by decide) _).trans (ite (setLock ..) (ite (setLock ..) refl))

/-- A new SOURCE changes the registers of wall time (R68, R69). -/
theorem actSource (v : Nat) (d : Dev) : Beside ks d (actSource v d) := by
  have fields := (((wr (ks := ks) d (f := R.WTM_CTRL_SOURCE) (by decide) (bits v 1 0)).trans
    (wr _ (f := R.WTM_CTRL_FREF_EDGE) (by decide) (bits v 3 3))).trans
      (wr _ (f := R.WTM_CTRL_FREE_RUN_OK) (by decide) (bits v 4 4))).trans
        (wr _ (f := R.WTM_CTRL_FREF_DIV) (by decide) (bits v 31 24))
  exact ite fields (fields.trans ((ite (lockLost _) (ite (setLock ..) refl)).trans
    ((frefFlag _).trans (ite (setLock ..) (ite (setLock ..) refl)))))

/-- The check of the layers' settings changes their CFG_ERR alone (R200). -/
theorem checkLayers (d : Dev) : Beside ks d d.checkLayers := by
  refine foldl _ fun e i hi => flag e ?_ ..
  have : i < 16 := List.mem_range.mp hi
  simp only [R.CMP_LAYER_STATUS_I_CFG_ERR]
  omega

theorem setTiles (d : Dev) (l : List TileLink) : Beside ks d { d with tiles := l } := ⟨rfl, fun _ _ _ => rfl⟩
theorem hput (d : Dev) (x : HbxPart) : Beside ks d (d.hput x) := ⟨rfl, fun _ _ _ => rfl⟩
theorem putHs (d : Dev) (i : Nat) (x : HSession) : Beside ks d (d.putHs i x) := ⟨rfl, fun _ _ _ => rfl⟩

/-- The tiles of a cut and the next sequence numbers of its streams change no item of a cut but the tiles. -/
theorem takeTiles (d : Dev) (l : List TileLink) : Beside ks d (l.foldl takeTile d) := foldl l fun e _ _ => setTiles e _

theorem takeRtp (d : Dev) (l : List (Nat × Nat)) : Beside ks d (l.foldl (fun d q => d.wr (R.ETH_STREAM_NEXT_SEQ q.2) q.1) d) :=
  foldl l fun e q _ => wr e (by simp only [R.ETH_STREAM_NEXT_SEQ]; omega) _

/-- A device that joins mirror mode changes its HEVC sessions (R436, R441). -/
theorem hvcMirror (d : Dev) : Beside ks d d.hvcMirror := by
  refine foldl _ fun e i hi => ite ((putHs ..).trans (wr _ ?_ _)) refl
  have : i < 32 := List.mem_range.mp hi
  simp only [R.HVC_S_STATUS_MIRROR_WAIT]
  omega

end Beside

/-! The items of a cut (R348, R349, Table 12-6). -/

/-- e has taken the items of a cut that every device takes; the rest of what a cut names is as in d. -/
structure TookItems (c : Ckpt) (d e : Dev) : Prop where
  wq      : e.wq = d.wq
  live    : e.live = d.live
  comm    : e.comm = d.comm
  tbl     : e.tbl = d.tbl
  luts    : e.clr.luts = d.clr.luts
  cmp     : e.cmp = d.cmp
  scn     : e.scn = d.scn
  stored  : e.cue.stored = c.stored
  entries : e.cal.entries = c.cal.entries
  epoch   : e.rd R.VEER_EPOCH = c.veer % 2 ^ 32
  veer    : ∀ f : Fld, f.key / 524288 = 7 → f.key ≠ R.VEER_EPOCH.key → e.rd f = d.rd f

/-- Whatever changes beside the items leaves them taken. -/
theorem TookItems.beside {c : Ckpt} {d e e' : Dev} (h : TookItems c d e) (b : Beside [] e e') : TookItems c d e' where
  wq := b.wq.trans h.wq
  live := b.live.trans h.live
  comm := b.comm.trans h.comm
  tbl := b.tbl.trans h.tbl
  luts := (congrArg ClrPart.luts b.clr).trans h.luts
  cmp := b.cmp.trans h.cmp
  scn := b.scn.trans h.scn
  stored := (congrArg CuePart.stored b.cue).trans h.stored
  entries := (congrArg CalPart.entries b.cal).trans h.entries
  epoch := (b.veer _ rfl List.not_mem_nil).trans h.epoch
  veer f hf ne := (b.veer f hf List.not_mem_nil).trans (h.veer f hf ne)

/-- The parts of a device that are replaced by those of a cut. -/
def cutParts (d : Dev) (c : Ckpt) : Dev := { d with
  clr := { d.clr with
    received := some c.loop, before := d.clr.received
    reported := d.clr.reported ++ c.reported.filter fun t => !d.clr.reported.contains t }
  link := { d.link with spoke := d.link.spoke ++ c.reported.filter fun t => !d.link.spoke.contains t }
  cal := { d.cal with entries := c.cal.entries, fired := c.cal.fired }
  cue := { d.cue with stored := c.stored, sched := c.sched, arrival := c.arrival } }

theorem tookItems_setEpoch (d : Dev) (c : Ckpt) : TookItems c d ((c.tiles.foldl takeTile (d.cutParts c)).setEpoch c.veer) := by
  have b := Beside.takeTiles (ks := []) (d.cutParts c) c.tiles
  refine ⟨b.wq, b.live, b.comm, b.tbl, (congrArg ClrPart.luts b.clr).trans rfl, b.cmp, b.scn, congrArg CuePart.stored b.cue,
    (congrArg CalPart.entries b.cal).trans rfl, rd_wr_self .., fun f hf ne => ?_⟩
  exact (rd_wr_ne _ _ _ _ ne).trans (b.veer f hf List.not_mem_nil)

theorem tookItems_takeItems (d : Dev) (c : Ckpt) : TookItems c d (d.takeItems c) := by
  obtain ⟨wq, live, comm, tbl, luts, cmp, scn, stored, entries, epoch, veer⟩ :=
    ((tookItems_setEpoch d c).beside (Beside.hput _ _)).beside (Beside.takeRtp _ c.rtp.zipIdx)
  exact ⟨wq, live, comm, tbl, luts, cmp, scn, stored, entries, epoch, veer⟩

/-- No register of the redundancy control comes with a checkpoint (R568). -/
theorem carried_veer {k : Nat} (h : k / 524288 = 7) : carried k = false := by
  unfold carried
  cases e : fieldAt k with
  | none => rfl
  | some f =>
    obtain ⟨l, -, hl⟩ := Option.bind_eq_some_iff.mp e
    have hk : f.key = k := by simpa using List.find?_some hl
    have hw : f.addr / 65536 = 7 := by
      unfold Fld.addr
      omega
    simp [localReg, hw]

end Dev

theorem SMap.find?_filter {p : Nat → Bool} {k : Nat} (h : p k = true) : ∀ m : SMap,
    SMap.find? (m.filter fun q => p q.1) k = SMap.find? m k
  | [] => rfl
  | (a, v) :: r => by
    by_cases ha : k = a
    · subst ha
      simp [h, SMap.find?]
    · by_cases hp : p a = true <;> simp [hp, ha, SMap.find?, SMap.find?_filter h r]

/-- What is not taken from the other store stays. -/
theorem SMap.find?_takeFrom (m src : SMap) {p : Nat → Bool} {k : Nat} (h : p k = false) :
    SMap.find? (SMap.takeFrom m src p) k = SMap.find? m k := by
  unfold SMap.takeFrom
  have hs : ∀ q ∈ src.filter fun q => p q.1, k ≠ q.1 := by
    intro q hq e
    have := (List.mem_filter.mp hq).2
    simp [← e, h] at this
  generalize (src.filter fun q => p q.1) = l at hs
  induction l with
  | nil => exact SMap.find?_filter (p := fun a => !p a) (by simp [h]) m
  | cons q r ih =>
    rw [List.foldr_cons, SMap.find?_put, if_neg (hs q List.mem_cons_self)]
    exact ih fun x hx => hs x (List.mem_cons_of_mem _ hx)

namespace Dev

/-- The checkpoint's registers, tables and memories are those of the cut. -/
def cutImage (d : Dev) (c : Ckpt) : Dev := { d with
  regs := SMap.takeFrom d.regs c.regs carried, comm := c.comm, live := c.live, defects := c.defects
  tbl := { d.tbl with tables := c.tables }, clr := { d.clr with luts := c.luts }, cmp := { d.cmp with coefs := c.coefs } }

/-- EPOCH of a device that has stepped goes on showing the mapping in use (R80). -/
def cutShown (d : Dev) : Dev := if d.wtm.stepped then d.wrPair R.WTM_EPOCH_LO R.WTM_EPOCH_HI d.wtm.epochUse else d

theorem cutShown_beside (d : Dev) : Beside [] d d.cutShown := .ite ((Beside.wr _ (by decide) _).trans (.wr _ (by decide) _)) .refl

theorem takeAll_eq (d : Dev) (c : Ckpt) :
    d.takeAll c = ((cutImage (actSource (cutCtrl c) d) c).checkLayers.takeRatio c.ratio).cutShown.takeItems c := by
  unfold takeAll cutShown cutImage
  rfl

/-- A device with the image of a cut and its Felt ratio. -/
structure HasImage (c : Ckpt) (d e : Dev) : Prop where
  wq     : e.wq = d.wq
  live   : e.live = c.live
  comm   : e.comm = c.comm
  tables : e.tbl.tables = c.tables
  luts   : e.clr.luts = c.luts
  coefs  : e.cmp.coefs = c.coefs
  veer   : ∀ f : Fld, f.key / 524288 = 7 → e.rd f = d.rd f

theorem HasImage.beside {c : Ckpt} {d e e' : Dev} (h : HasImage c d e) (b : Beside [] e e') : HasImage c d e' :=
  ⟨b.wq.trans h.wq, b.live.trans h.live, b.comm.trans h.comm, (congrArg TblPart.tables b.tbl).trans h.tables,
    (congrArg ClrPart.luts b.clr).trans h.luts, (congrArg CmpPart.coefs b.cmp).trans h.coefs,
    fun f hf => (b.veer f hf List.not_mem_nil).trans (h.veer f hf)⟩

theorem hasImage_cutImage {d e : Dev} (b : Beside [] d e) (c : Ckpt) : HasImage c d (e.cutImage c) := by
  refine ⟨b.wq, rfl, rfl, rfl, rfl, rfl, fun f hf => Eq.trans ?_ (b.veer f hf List.not_mem_nil)⟩
  exact congrArg (fun o : Option Nat => o.getD f.reset) (SMap.find?_takeFrom _ _ (carried_veer hf))

theorem HasImage.takeRatio {c : Ckpt} {d e : Dev} (h : HasImage c d e) (r : Nat) : HasImage c d (e.takeRatio r) :=
  ⟨h.wq, h.live, h.comm, h.tables, h.luts, h.coefs,
    fun f hf => (rd_wr_ne _ _ _ _ fun e => absurd (e ▸ hf) (by decide)).trans (h.veer f hf)⟩

/-- A device that takes a whole cut has the image of the cut and takes its items. -/
theorem takeAll_hasImage (d : Dev) (c : Ckpt) : ∃ e, HasImage c d e ∧ e.scn.ratio = c.ratio ∧ TookItems c e (d.takeAll c) := by
  have image := ((hasImage_cutImage (Beside.actSource (cutCtrl c) d) c).beside (.checkLayers _)).takeRatio c.ratio
  refine ⟨_, image.beside (cutShown_beside _), ?_, takeAll_eq d c ▸ tookItems_takeItems _ c⟩
  exact congrArg ScnPart.ratio (cutShown_beside _).scn

/-- A WARM device that had left mirror mode is in it again. -/
def rejoined (d : Dev) : Dev :=
  if d.state = .warm && d.link.until_.isNone then
    (if d.rdb R.VEER_STATUS_MIRROR then d else d.hvcMirror).wrb R.VEER_STATUS_MIRROR true
  else d

theorem rejoined_beside (d : Dev) : Beside [R.VEER_STATUS_MIRROR.key] d d.rejoined :=
  .ite ((Beside.ite .refl (.hvcMirror d)).trans (.wrVeer _ List.mem_cons_self _)) .refl

/-- The effects of a cut on what shows it (R349). -/
def cutSynced (d : Dev) (c : Ckpt) : Dev :=
  let d := (((d.cnt R.VEER_CUTS).wr R.VEER_CUT_AGE 0).wrb R.VEER_STATUS_SYNCED true).rejoined
  d.pput { d.pair with cut := some c, cutAt := d.now }

/-- x has applied a cut on d. -/
structure Synced (c : Ckpt) (d x : Dev) : Prop where
  wq      : x.wq = d.wq
  live    : x.live = d.live
  comm    : x.comm = d.comm
  tbl     : x.tbl = d.tbl
  luts    : x.clr.luts = d.clr.luts
  cmp     : x.cmp = d.cmp
  scn     : x.scn = d.scn
  stored  : x.cue.stored = c.stored
  entries : x.cal.entries = c.cal.entries
  cut     : x.pair.cut = some c
  epoch   : x.epoch = c.veer % 2 ^ 32
  synced  : x.rdb R.VEER_STATUS_SYNCED = true
  age     : x.rd R.VEER_CUT_AGE = 0
  cuts    : d.Counted x R.VEER_CUTS

theorem TookItems.synced {c : Ckpt} {d e : Dev} (h : TookItems c d e) : Synced c d (e.cutSynced c) := by
  have b := rejoined_beside (((e.cnt R.VEER_CUTS).wr R.VEER_CUT_AGE 0).wrb R.VEER_STATUS_SYNCED true)
  have kept : ∀ f : Fld, f.key / 524288 = 7 → f.key ≠ R.VEER_STATUS_MIRROR.key → (e.cutSynced c).rd f =
      (((e.cnt R.VEER_CUTS).wr R.VEER_CUT_AGE 0).wrb R.VEER_STATUS_SYNCED true).rd f := fun f hf n =>
    b.veer f hf fun m => n (List.mem_singleton.mp m)
  exact {
    wq := b.wq.trans h.wq
    live := b.live.trans h.live
    comm := b.comm.trans h.comm
    tbl := b.tbl.trans h.tbl
    luts := (congrArg ClrPart.luts b.clr).trans h.luts
    cmp := b.cmp.trans h.cmp
    scn := b.scn.trans h.scn
    stored := (congrArg CuePart.stored b.cue).trans h.stored
    entries := (congrArg CalPart.entries b.cal).trans h.entries
    cut := rfl
    epoch := by
      rw [Dev.epoch, kept _ (by decide) (by decide), rd_wrb_ne _ _ _ _ (by decide), rd_wr_ne _ _ _ _ (by decide),
        rd_cnt_ne _ _ _ (by decide), h.epoch]
    synced := by rw [rdb, kept _ (by decide) (by decide), ← rdb, rdb_wrb_self _ _ _ rfl]
    age := by rw [kept _ (by decide) (by decide), rd_wrb_ne _ _ _ _ (by decide), rd_wr_self]; rfl
    cuts := by
      rw [Counted, kept _ (by decide) (by decide), rd_wrb_ne _ _ _ _ (by decide), rd_wr_ne _ _ _ _ (by decide), rd_cnt_self,
        h.veer _ (by decide) (by decide)] }

/-- Mirror mode that ends changes the HEVC sessions (R436, R441). -/
theorem Beside.hvcUnmirror {ks : List Nat} (d : Dev) : Beside ks d d.hvcUnmirror := by
  refine foldl _ fun e i hi => ite ((putHs ..).trans (wr _ ?_ _)) refl
  have : i < 32 := List.mem_range.mp hi
  simp only [R.HVC_S_STATUS_MIRROR_WAIT]
  omega

theorem keeps_hvcUnmirror (d : Dev) : Keeps [4, 7, 0x42] d d.hvcUnmirror := by
  refine .foldl_mem _ (fun e i hi => .ite (.wr ?_ (.set_hvc .refl)) .refl) .refl
  have : i < 32 := List.mem_range.mp hi
  simp only [R.HVC_S_STATUS_MIRROR_WAIT, List.mem_cons]
  omega

/-! Reception (R346, R347). -/

section
variable {d e : Dev} {bytes : List Byte} {f : PairFrame} {types : List Nat}

theorem rxFrame_bad (h : openFrame bytes = none) (types : List Nat) : d.rxFrame types bytes = none := by simp [rxFrame, h]

theorem takeSeq_none (h : d.rxFrame types bytes = none) : d.takeSeq types bytes = (d, none) := by simp [takeSeq, h]

/-- The device after a state frame that is the next one: SEQ goes on, and the CRC of the cut. -/
def wentOn (d : Dev) (f : PairFrame) : Dev :=
  d.pput { d.pair with rxSeq := (f.seq + 1) % 2 ^ 32, rxCrc := cutCrc d.pair.rxCrc f }

theorem takeSeq_next (h : d.rxFrame types bytes = some f) (n : d.state ≠ .live) (e : f.seq = d.pair.rxSeq) :
    d.takeSeq types bytes = (d.wentOn f, some f) := by
  simp [takeSeq, h, n, e, wentOn]

theorem takeSeq_gap (h : d.rxFrame types bytes = some f) (n : d.state ≠ .live) (ne : f.seq ≠ d.pair.rxSeq)
    (g : 0 ≤ diff32 f.seq d.pair.rxSeq) : d.takeSeq types bytes = (d.sendFrame (.ack d.lastSeq true), none) := by
  simp [takeSeq, h, n, ne, Int.not_lt.mpr g]

theorem stateFrame_untaken {body : StateBody} (h : d.takeSeq [stateType body] bytes = (e, none)) : actStateFrame bytes body d = e := by
  cases body <;> simp only [stateType] at h <;> simp [actStateFrame, h]

theorem stateFrame_base {last : Bool} (h : d.takeSeq [0x10] bytes = (e, some f)) :
    actStateFrame bytes (.base last) d = if last then e.pput { e.pair with based := true } else e := by
  simp [actStateFrame, h]

theorem stateFrame_delta (h : d.takeSeq [0x11] bytes = (e, some f)) : actStateFrame bytes .delta d = e := by
  simp [actStateFrame, h]

/-- A mirrored write acts in mirror mode only (R351). -/
theorem stateFrame_mirror {w : MirrorWrite} (h : d.takeSeq [0x13] bytes = (e, some f)) (m : e.mirrored = false) :
    actStateFrame bytes (.mirror w) d = e := by
  simp [actStateFrame, h, m]

theorem cut_eq (bytes : List Byte) (crc : Nat) (c : Ckpt) (d : Dev) : actCut bytes crc c d =
    (let r := d.takeSeq [0x12] bytes
     if r.2.isNone || !decide (crc = Nat.xor d.pair.rxCrc 0xFFFFFFFF) || !r.1.pair.based || r.1.pair.version.isNone then r.1
     else (if r.1.mirrored then r.1.takeItems c else r.1.takeAll c).cutSynced c) := by
  unfold actCut cutSynced rejoined
  rfl

theorem cut_untaken (crc : Nat) (c : Ckpt) (h : d.takeSeq [0x12] bytes = (e, none)) : actCut bytes crc c d = e := by
  rw [cut_eq, h]
  rfl

/-- A cut without a base, without a version or with another CRC is taken as a frame only (R349). -/
theorem cut_incomplete {crc : Nat} (c : Ckpt) (h : d.takeSeq [0x12] bytes = (e, some f))
    (b : e.pair.based = false ∨ e.pair.version = none ∨ ¬crc = Nat.xor d.pair.rxCrc 0xFFFFFFFF) : actCut bytes crc c d = e := by
  rw [cut_eq, h]
  refine if_pos ?_
  rcases b with b | b | b
  · simp [b]
  · simp [b]
  · rw [decide_eq_false b]
    simp

theorem cut_applied {crc : Nat} (c : Ckpt) (h : d.takeSeq [0x12] bytes = (e, some f)) (based : e.pair.based = true)
    (version : e.pair.version.isSome = true) (whole : crc = Nat.xor d.pair.rxCrc 0xFFFFFFFF) :
    actCut bytes crc c d = (if e.mirrored then e.takeItems c else e.takeAll c).cutSynced c := by
  have v : e.pair.version.isNone = false := by simpa using version
  rw [cut_eq, h]
  refine if_neg ?_
  rw [decide_eq_true whole, based, v]
  simp

theorem commitFrame_untaken (line groups : Nat) (h : d.takeSeq [0x14] bytes = (e, none)) : actCommitFrame bytes line groups d = e := by
  simp [actCommitFrame, h]

theorem commitFrame_taken (line groups : Nat) (h : d.takeSeq [0x14] bytes = (e, some f)) :
    actCommitFrame bytes line groups d =
      e.pput { e.pair with decided := (line, groups) :: e.pair.decided.filter fun p => decide (0 < diff32 p.1 e.wtm.wln) } := by
  simp [actCommitFrame, h]

theorem ack_untaken (seq : Nat) (gap : Bool) (h : d.rxFrame [3] bytes = none) : actAck bytes seq gap d = d := by simp [actAck, h]
theorem sig_untaken (sig wln : Nat) (h : d.rxFrame [4] bytes = none) : actSig bytes sig wln d = d := by simp [actSig, h]
theorem request_untaken (q : PairReq) (h : d.rxFrame [5] bytes = none) : actRequest bytes q d = d := by simp [actRequest, h]
theorem telem_untaken (x : TileLink) (h : d.rxFrame [0x20] bytes = none) : actTelem bytes x d = d := by simp [actTelem, h]

/-- The frames that an ACK leaves unacknowledged (R347). -/
def unacked (d : Dev) (seq : Nat) : List Kept := d.pair.kept.filter fun k => decide (0 < diff32 k.frame.seq seq)

/-- An ACK that answers a gap has the frames kept sent again. -/
def resent (d : Dev) (l : List Kept) : Dev := l.foldl (fun d (k : Kept) => d.emitFrame k.frame k.body) d

theorem resent_eq (l : List Kept) (d : Dev) :
    d.resent l = { d with out := (l.map fun k => Out.pairFrame k.frame k.body (frameLanes k.frame)).reverse ++ d.out } := by
  induction l generalizing d with
  | nil => rfl
  | cons k r ih =>
    rw [resent, List.foldl_cons, ← resent, ih]
    simp [emitFrame, emit]

theorem ack_taken {seq : Nat} {gap : Bool} (h : d.rxFrame [3] bytes = some f) :
    actAck bytes seq gap d = (let x := d.pput { d.pair with kept := d.unacked seq }
      if gap then (x.resent (d.unacked seq)).addCnt R.VEER_RESENDS (d.unacked seq).length else x) := by
  simp [actAck, h, unacked, resent]

theorem pathUp_sendFrame (h : d.pathUp = true) (body : PairBody) : d.sendFrame body = d.emitFrame (d.pairFrame 0 body) body := if_pos h

end

/-! Signatures (R352). -/

section
variable {d : Dev} {bytes : List Byte} {f : PairFrame} {sig wln : Nat} {mine : Nat × Nat × Bool}

/-- The partner's signature of a frame is kept. -/
def heardSig (d : Dev) (sig wln : Nat) : Dev := d.pput { d.pair with sigsHis := ((wln, sig) :: d.pair.sigsHis).take 256 }

theorem sig_taken (hw : d.state = .warm) (hm : d.rdb R.VEER_STATUS_MIRROR = true) (h : d.rxFrame [4] bytes = some f)
    (new : ∀ p ∈ d.pair.sigsHis, p.1 ≠ wln) : actSig bytes sig wln d = (d.heardSig sig wln).sigCompare wln := by
  have hn : (d.pair.sigsHis.any fun p => decide (p.1 = wln)) = false := by simpa using new
  simp [actSig, liveOrWarm, hw, hm, h, hn, heardSig]

/-- A counted frame of which both signatures are known. -/
theorem sigCompare_heard (hw : d.state = .warm) (hm : d.rdb R.VEER_STATUS_MIRROR = true)
    (own : d.pair.sigsOwn.find? (fun p => p.1 = wln) = some mine) (counted : mine.2.2 = true) :
    (d.heardSig sig wln).sigCompare wln = (let x := d.heardSig sig wln
      if mine.2.1 = sig then x.pput { x.pair with mism := 0 }
      else if 1 ≤ x.pair.mism then x.mirrorLost 1 else x.pput { x.pair with mism := 1 }) := by
  have own' : (d.heardSig sig wln).pair.sigsOwn.find? (fun p => p.1 = wln) = some mine := own
  have his : (d.heardSig sig wln).pair.sigsHis.find? (fun p => p.1 = wln) = some (wln, sig) := by simp [heardSig, pput]
  have m : (d.heardSig sig wln).mirrored = true := by
    show (decide (d.state = .warm) && d.rdb R.VEER_STATUS_MIRROR) = true
    simp [hw, hm]
  simp [sigCompare, own', his, m, counted]

theorem rd_pput (d : Dev) (p : PairPart) (f : Fld) : (d.pput p).rd f = d.rd f := rfl

/-- The device as it leaves mirror mode, before its checkpoint is void. -/
def leftMirror (d : Dev) (cause : Nat) : Dev :=
  (((d.wrb R.VEER_STATUS_MIRROR false).wrb R.VEER_STATUS_SYNCED false).cnt R.VEER_MIRROR_LOST).hvcUnmirror.log 0x07 0 2 0x018 cause

theorem leftMirror_beside (d : Dev) (cause : Nat) :
    Beside [] (((d.wrb R.VEER_STATUS_MIRROR false).wrb R.VEER_STATUS_SYNCED false).cnt R.VEER_MIRROR_LOST) (d.leftMirror cause) :=
  (Beside.hvcUnmirror _).trans (.log _ ..)

theorem mirrorLost_eq (d : Dev) (cause : Nat) :
    d.mirrorLost cause = (d.leftMirror cause).pput { d.pair with based := false, mism := 0 } := by
  unfold mirrorLost leftMirror
  rfl

theorem mirrorLost_spec (d : Dev) (cause : Nat) : Keeps [4, 7, 0x42] d (d.mirrorLost cause) ∧
    (d.mirrorLost cause).pair = { d.pair with based := false, mism := 0 } ∧
    (d.mirrorLost cause).rdb R.VEER_STATUS_MIRROR = false ∧ (d.mirrorLost cause).rdb R.VEER_STATUS_SYNCED = false ∧
    d.Counted (d.mirrorLost cause) R.VEER_MIRROR_LOST := by
  have b := leftMirror_beside d cause
  have veer : ∀ f : Fld, f.key / 524288 = 7 → (d.mirrorLost cause).rd f =
      (((d.wrb R.VEER_STATUS_MIRROR false).wrb R.VEER_STATUS_SYNCED false).cnt R.VEER_MIRROR_LOST).rd f := fun f hf => by
    rw [mirrorLost_eq, rd_pput]
    exact b.veer f hf List.not_mem_nil
  refine ⟨?_, ?_, ?_, ?_, ?_⟩
  · rw [mirrorLost_eq]
    exact .set_pair (.log (by decide) ((Keeps.cnt (by decide) (.wrb (by decide) (.wrb (by decide) .refl))).trans (keeps_hvcUnmirror _)))
  · rw [mirrorLost_eq]
    rfl
  · rw [rdb, veer _ (by decide), rd_cnt_ne _ _ _ (by decide), rd_wrb_ne _ _ _ _ (by decide), ← rdb, rdb_wrb_self _ _ _ rfl]
  · rw [rdb, veer _ (by decide), rd_cnt_ne _ _ _ (by decide), ← rdb, rdb_wrb_self _ _ _ rfl]
  · rw [Counted, veer _ (by decide), rd_cnt_self, rd_wrb_ne _ _ _ _ (by decide), rd_wrb_ne _ _ _ _ (by decide)]

end

/-! Telemetry (R25). -/

theorem tileLink_takeTile (d : Dev) (t : TileLink) : (d.takeTile t).tileLink t.id = { d.tileLink t.id with
    tileOwn := t.tileOwn, tileEpoch := t.tileEpoch, fseq := t.fseq, temp := t.temp, volt := t.volt, curr := t.curr, dead := t.dead,
    crcErr := t.crcErr, lost := t.lost, tlWln := t.tlWln } := by
  have h := tileLink_putTile d { d.tileLink t.id with
    tileOwn := t.tileOwn, tileEpoch := t.tileEpoch, fseq := t.fseq, temp := t.temp, volt := t.volt, curr := t.curr, dead := t.dead,
    crcErr := t.crcErr, lost := t.lost, tlWln := t.tlWln }
  rwa [tileLink_id] at h

theorem tileLink_takeTile_ne (d : Dev) (t : TileLink) {i : Nat} (h : i ≠ t.id) : (d.takeTile t).tileLink i = d.tileLink i :=
  tileLink_putTile_ne d _ (by rwa [tileLink_id])

end Dev

/-! The commands. -/

section
variable {s : State} {bytes : List Byte} {f : PairFrame} {types : List Nat}

theorem State.Hears.on (h : s.Hears types bytes f) : s.dev.off = false := Dev.inService_on h.1

theorem State.Hears.rxFrame (h : s.Hears types bytes f) : s.start.rxFrame types bytes = some f := by
  obtain ⟨service, path, paired, opened, type⟩ := h
  have hs : s.start.inService = true := service
  have hp : s.start.pathUp = true := path
  simp [Dev.rxFrame, hs, hp, paired, opened, type]

/-- A frame of the stream that arrives in its turn. -/
theorem State.Hears.next (h : s.Hears types bytes f) (n : s.dev.state ≠ .live) (e : f.seq = s.dev.pair.rxSeq) :
    s.start.takeSeq types bytes = (s.start.wentOn f, some f) := Dev.takeSeq_next h.rxFrame n e

theorem exec_stateFrame {h : List Byte} {e : Word} {body : StateBody} {d : Dev} (on : s.dev.off = false)
    (act : actStateFrame (withCrc h e) body s.start = d) (q : d.wq = []) :
    exec (.stateFrameReceive h e body) s = .next (s.withDev d) := (exec_stateFrameReceive ..).trans (run_eq on act q)

theorem exec_cut {crc : Word} {c : Ckpt} {d : Dev} (on : s.dev.off = false) (act : actCut bytes crc.toNat c s.start = d) (q : d.wq = []) :
    exec (.cutReceive bytes crc c) s = .next (s.withDev d) := (exec_cutReceive ..).trans (run_eq on act q)

theorem exec_commitFrame {h : List Byte} {e line : Word} {groups : Byte} {d : Dev} (on : s.dev.off = false)
    (act : actCommitFrame (withCrc h e) line.toNat groups.toNat s.start = d) (q : d.wq = []) :
    exec (.commitFrameReceive h e line groups) s = .next (s.withDev d) := (exec_commitFrameReceive ..).trans (run_eq on act q)

theorem exec_ackFrame {seq : Word} {gap : Bool} {d : Dev} (on : s.dev.off = false) (act : actAck bytes seq.toNat gap s.start = d)
    (q : d.wq = []) : exec (.ackFrameReceive ⟨bytes, seq, gap⟩) s = .next (s.withDev d) :=
  (exec_ackFrameReceive ..).trans (run_eq on act q)

theorem exec_sigFrame {sig wln : Word} {d : Dev} (on : s.dev.off = false) (act : actSig bytes sig.toNat wln.toNat s.start = d)
    (q : d.wq = []) : exec (.sigFrameReceive bytes ⟨sig, wln⟩) s = .next (s.withDev d) :=
  (exec_sigFrameReceive ..).trans (run_eq on act q)

theorem exec_telemFrame {x : TileLink} {d : Dev} (on : s.dev.off = false) (act : actTelem bytes x s.start = d) (q : d.wq = []) :
    exec (.telemFrameReceive ⟨bytes, x⟩) s = .next (s.withDev d) := (exec_telemFrameReceive ..).trans (run_eq on act q)

theorem only_wentOn (f : PairFrame) (p : PairPart) : s.Only [] (s.withDev ((s.start.wentOn f).pput p)) :=
  State.only_withDev (.set_pair (.set_pair .refl))

/-- A frame whose CRC or LEN is wrong is discarded (R346). -/
theorem badFrame_discarded (on : s.dev.off = false) (bad : openFrame bytes = none) :
    (∀ h e body, bytes = withCrc h e → exec (.stateFrameReceive h e body) s = .next (s.withDev s.start)) ∧
    (∀ crc c, exec (.cutReceive bytes crc c) s = .next (s.withDev s.start)) ∧
    (∀ h e line groups, bytes = withCrc h e → exec (.commitFrameReceive h e line groups) s = .next (s.withDev s.start)) ∧
    (∀ seq gap, exec (.ackFrameReceive ⟨bytes, seq, gap⟩) s = .next (s.withDev s.start)) ∧
    (∀ sig wln, exec (.sigFrameReceive bytes ⟨sig, wln⟩) s = .next (s.withDev s.start)) ∧
    (∀ q, exec (.requestFrameReceive ⟨bytes, q⟩) s = .next (s.withDev s.start)) ∧
    ∀ x, exec (.telemFrameReceive ⟨bytes, x⟩) s = .next (s.withDev s.start) := by
  have unheard (types : List Nat) : s.start.rxFrame types bytes = none := Dev.rxFrame_bad bad types
  have untaken (types : List Nat) := Dev.takeSeq_none (unheard types)
  refine ⟨fun h e body w => ?_, fun crc c => exec_cut on (Dev.cut_untaken _ c (untaken _)) rfl, fun h e line groups w => ?_,
    fun seq gap => exec_ackFrame on (Dev.ack_untaken _ _ (unheard _)) rfl, fun sig wln => exec_sigFrame on (Dev.sig_untaken _ _ (unheard _)) rfl,
    fun q => (exec_requestFrameReceive ..).trans (run_eq on (Dev.request_untaken q (unheard _)) rfl), fun x => exec_telemFrame on (Dev.telem_untaken x (unheard _)) rfl⟩
  · subst w
    exact exec_stateFrame on (Dev.stateFrame_untaken (untaken _)) rfl
  · subst w
    exact exec_commitFrame on (Dev.commitFrame_untaken _ _ (untaken _)) rfl

/-- A part of a base that comes in its turn; the last completes the base (R349). -/
theorem baseFrame_taken {h : List Byte} {e : Word} {last : Bool} (hear : s.Hears [0x10] (withCrc h e) f) (n : s.dev.state ≠ .live)
    (seq : f.seq = s.dev.pair.rxSeq) : ∃ t, exec (.stateFrameReceive h e (.base last)) s = .next t ∧ s.Only [] t ∧
      t.dev.pair = { (s.start.wentOn f).pair with based := if last then true else s.dev.pair.based } := by
  have act := Dev.stateFrame_base (last := last) (hear.next n seq)
  cases last with
  | true => exact ⟨_, exec_stateFrame hear.on act rfl, only_wentOn .., rfl⟩
  | false => exact ⟨_, exec_stateFrame hear.on act rfl, State.only_withDev (.set_pair .refl), rfl⟩

/-- Changes of a frame, and a mirrored write outside mirror mode. -/
theorem deltaFrame_taken {h : List Byte} {e : Word} {body : StateBody} (hear : s.Hears [stateType body] (withCrc h e) f)
    (n : s.dev.state ≠ .live) (seq : f.seq = s.dev.pair.rxSeq)
    (b : body = .delta ∨ s.dev.mirrored = false ∧ ∃ w, body = .mirror w) :
    ∃ t, exec (.stateFrameReceive h e body) s = .next t ∧ s.Only [] t ∧ t.dev.pair = (s.start.wentOn f).pair := by
  have act : actStateFrame (withCrc h e) body s.start = s.start.wentOn f := by
    rcases b with rfl | ⟨m, w, rfl⟩
    · exact Dev.stateFrame_delta (hear.next n seq)
    · exact Dev.stateFrame_mirror (hear.next n seq) m
  exact ⟨_, exec_stateFrame hear.on act rfl, State.only_withDev (.set_pair .refl), rfl⟩

/-- A gap is answered with an ACK of the last frame before it (R347). -/
theorem gap_answered {h : List Byte} {e : Word} {body : StateBody} (hear : s.Hears [stateType body] (withCrc h e) f)
    (n : s.dev.state ≠ .live) (ne : f.seq ≠ s.dev.pair.rxSeq) (gap : 0 ≤ diff32 f.seq s.dev.pair.rxSeq) :
    exec (.stateFrameReceive h e body) s = .next (s.withDev (s.start.emit (s.sends (.ack s.dev.lastSeq true)))) := by
  have act := Dev.stateFrame_untaken (Dev.takeSeq_gap hear.rxFrame n ne gap)
  rw [Dev.pathUp_sendFrame (d := s.start) hear.2.1] at act
  exact exec_stateFrame hear.on act rfl

/-- A cut on a device without a base or a version, or whose CRC disagrees, is a frame of the stream and nothing more. -/
theorem cut_goesOn {crc : Word} (c : Ckpt) (hear : s.Hears [0x12] bytes f) (n : s.dev.state ≠ .live) (seq : f.seq = s.dev.pair.rxSeq)
    (b : s.dev.pair.based = false ∨ s.dev.pair.version = none ∨ ¬crc.toNat = Nat.xor s.dev.pair.rxCrc 0xFFFFFFFF) :
    ∃ t, exec (.cutReceive bytes crc c) s = .next t ∧ s.Only [] t ∧ t.dev.pair = (s.start.wentOn f).pair :=
  ⟨_, exec_cut hear.on (Dev.cut_incomplete c (hear.next n seq) b) rfl, State.only_withDev (.set_pair .refl), rfl⟩

/-- A whole cut is applied, and the device is SYNCED (R348, R349). -/
theorem cut_synced {crc : Word} (c : Ckpt) (hear : s.Hears [0x12] bytes f) (n : s.dev.state ≠ .live) (seq : f.seq = s.dev.pair.rxSeq)
    (based : s.dev.pair.based = true) (version : s.dev.pair.version.isSome = true)
    (whole : crc.toNat = Nat.xor s.dev.pair.rxCrc 0xFFFFFFFF) :
    ∃ x, exec (.cutReceive bytes crc c) s = .next (s.withDev x) ∧
      (if s.dev.mirrored then Dev.Synced c s.start x else ∃ e, Dev.HasImage c s.start e ∧ e.scn.ratio = c.ratio ∧ Dev.Synced c e x) := by
  have act := Dev.cut_applied c (hear.next n seq) based version whole
  have same : (s.start.wentOn f).mirrored = s.dev.mirrored := rfl
  rw [same] at act
  cases m : s.dev.mirrored with
  | true =>
    rw [m, if_pos rfl] at act
    have sync := (Dev.tookItems_takeItems (s.start.wentOn f) c).synced
    refine ⟨_, exec_cut hear.on act sync.wq, ?_⟩
    rw [if_pos rfl]
    exact { sync with }
  | false =>
    rw [m, if_neg Bool.false_ne_true] at act
    obtain ⟨e, image, ratio, items⟩ := Dev.takeAll_hasImage (s.start.wentOn f) c
    refine ⟨_, exec_cut hear.on act (items.synced.wq.trans image.wq), ?_⟩
    rw [if_neg Bool.false_ne_true]
    exact ⟨e, { image with }, ratio, { items.synced with }⟩

/-- What a cut leaves (R348, R349). -/
theorem cut_applied {crc : Word} (c : Ckpt) (hear : s.Hears [0x12] bytes f) (n : s.dev.state ≠ .live) (seq : f.seq = s.dev.pair.rxSeq)
    (based : s.dev.pair.based = true) (version : s.dev.pair.version.isSome = true)
    (whole : crc.toNat = Nat.xor s.dev.pair.rxCrc 0xFFFFFFFF) :
    ∃ t, exec (.cutReceive bytes crc c) s = .next t ∧ t.mem = s.mem ∧ t.pending = s.pending ∧
      t.dev.rdb R.VEER_STATUS_SYNCED = true ∧ t.dev.rd R.VEER_CUT_AGE = 0 ∧ s.dev.Counted t.dev R.VEER_CUTS ∧
      t.dev.epoch = c.veer % 2 ^ 32 ∧ t.dev.cue.stored = c.stored ∧ t.dev.cal.entries = c.cal.entries ∧ t.dev.pair.cut = some c ∧
      (s.dev.mirrored = true → t.dev.live = s.dev.live ∧ t.dev.tbl = s.dev.tbl) ∧
      (s.dev.mirrored = false → t.dev.live = c.live ∧ t.dev.comm = c.comm ∧ t.dev.tbl.tables = c.tables ∧
        t.dev.clr.luts = c.luts ∧ t.dev.cmp.coefs = c.coefs ∧ t.dev.scn.ratio = c.ratio) := by
  obtain ⟨x, step, took⟩ := cut_synced c hear n seq based version whole
  cases m : s.dev.mirrored with
  | true =>
    rw [m, if_pos rfl] at took
    exact ⟨_, step, rfl, rfl, took.synced, took.age, took.cuts, took.epoch, took.stored, took.entries, took.cut,
      fun _ => ⟨took.live, took.tbl⟩, fun no => absurd no (by decide)⟩
  | false =>
    rw [m, if_neg Bool.false_ne_true] at took
    obtain ⟨e, image, ratio, took⟩ := took
    have cuts : s.dev.Counted x R.VEER_CUTS := by
      have := took.cuts
      rwa [Dev.Counted, image.veer _ (by decide)] at this
    exact ⟨_, step, rfl, rfl, took.synced, took.age, cuts, took.epoch, took.stored, took.entries, took.cut,
      fun no => absurd no (by decide), fun _ => ⟨took.live.trans image.live, took.comm.trans image.comm,
        (congrArg TblPart.tables took.tbl).trans image.tables, took.luts.trans image.luts,
        (congrArg CmpPart.coefs took.cmp).trans image.coefs, (congrArg ScnPart.ratio took.scn).trans ratio⟩⟩

/-- The decisions of a COMMIT frame are kept (R351). -/
theorem commitFrame_decides {h : List Byte} {e line : Word} {groups : Byte} (hear : s.Hears [0x14] (withCrc h e) f)
    (n : s.dev.state ≠ .live) (seq : f.seq = s.dev.pair.rxSeq) :
    ∃ t, exec (.commitFrameReceive h e line groups) s = .next t ∧ s.Only [] t ∧
      t.dev.pair = { (s.start.wentOn f).pair with decided := (line.toNat, groups.toNat) ::
        (s.dev.pair.decided.filter fun p => decide (0 < diff32 p.1 s.dev.wtm.wln)) } :=
  ⟨_, exec_commitFrame hear.on (Dev.commitFrame_taken _ _ (hear.next n seq)) rfl, only_wentOn .., rfl⟩

/-- ACK_FRAME_SEND (R347). -/
theorem ackFrame_sent (service : s.dev.inService = true) (n : s.dev.state ≠ .live) (path : s.dev.pathUp = true)
    (paired : s.dev.rdb R.TOP_STATE_PAIRED = true) :
    exec .ackFrameSend s = .next (s.withDev (s.start.emit (s.sends (.ack s.dev.lastSeq false)))) := by
  have act : actAckSend s.start = s.start.sendFrame (.ack s.start.lastSeq false) := by
    have hs : s.start.inService = true := service
    simp [actAckSend, hs, n, paired]
  rw [Dev.pathUp_sendFrame (d := s.start) path] at act
  exact (exec_ackFrameSend s).trans (run_eq (Dev.inService_on service) act rfl)

/-- A device without a cut for two frames is no longer SYNCED (R349). -/
theorem cut_timeout (service : s.dev.inService = true) (n : s.dev.state ≠ .live) (sync : s.dev.rdb R.VEER_STATUS_SYNCED = true) :
    ∃ t, exec .checkpointTimeout s = .next t ∧ s.Only [7] t ∧ t.dev.rdb R.VEER_STATUS_SYNCED = false ∧
      s.dev.pair.cutAt + 2 * s.dev.framePeriod ≤ t.dev.now := by
  have act : actCutTimeout s.start = (s.start.upTo (s.dev.pair.cutAt + 2 * s.dev.framePeriod)).wrb R.VEER_STATUS_SYNCED false := by
    have hs : s.start.inService = true := service
    simp only [actCutTimeout, hs, start_state, n, start_rdb, sync]
    rfl
  exact ⟨_, (exec_checkpointTimeout s).trans (run_eq (Dev.inService_on service) act rfl),
    State.only_withDev (.wrb (by decide) (.upTo .refl)), Dev.rdb_wrb_self (s.start.upTo _) R.VEER_STATUS_SYNCED false rfl, Nat.le_max_right ..⟩

/-- An ACK drops what it covers; one that answers a gap has the rest sent again (R347). -/
theorem ackFrame_taken (seq : Word) (gap : Bool) (hear : s.Hears [3] bytes f) :
    ∃ t, exec (.ackFrameReceive ⟨bytes, seq, gap⟩) s = .next t ∧ s.Only [7] t ∧
      t.dev.pair = { s.dev.pair with kept := s.dev.unacked seq.toNat } ∧ (gap = false → t.dev.out = s.dev.out) ∧
      (gap = true → s.dev.Counted t.dev R.VEER_RESENDS (s.dev.unacked seq.toNat).length ∧
        t.dev.out = ((s.dev.unacked seq.toNat).map fun k => Out.pairFrame k.frame k.body (frameLanes k.frame)).reverse ++ s.dev.out) := by
  have act := Dev.ack_taken (seq := seq.toNat) (gap := gap) hear.rxFrame
  cases gap with
  | false => exact ⟨_, exec_ackFrame hear.on act rfl, State.only_withDev (.set_pair .refl), rfl, fun _ => rfl, fun no => absurd no (by decide)⟩
  | true =>
    simp only [if_true, Dev.resent_eq] at act
    exact ⟨_, exec_ackFrame hear.on act rfl, State.only_withDev (.addCnt (by decide) (.set_out (.set_pair .refl))), rfl,
      fun no => absurd no (by decide), fun _ => ⟨Dev.rd_addCnt_self .., rfl⟩⟩

/-- Signatures of a counted frame: two in a row that differ end mirror mode (R352). -/
theorem sigFrame_compared {sig wln : Word} {mine : Nat × Nat × Bool} (warm : s.dev.state = .warm) (hear : s.Hears [4] bytes f)
    (mirror : s.dev.rdb R.VEER_STATUS_MIRROR = true) (new : ∀ p ∈ s.dev.pair.sigsHis, p.1 ≠ wln.toNat)
    (own : s.dev.pair.sigsOwn.find? (fun p => p.1 = wln.toNat) = some mine) (counted : mine.2.2 = true) :
    ∃ t, exec (.sigFrameReceive bytes ⟨sig, wln⟩) s = .next t ∧ s.Only [4, 7, 0x42] t ∧
      (wln.toNat, sig.toNat) ∈ t.dev.pair.sigsHis ∧
      (mine.2.1 = sig.toNat → t.dev.pair.mism = 0 ∧ t.dev.rdb R.VEER_STATUS_MIRROR = true) ∧
      (mine.2.1 ≠ sig.toNat → s.dev.pair.mism = 0 → t.dev.pair.mism = 1 ∧ t.dev.rdb R.VEER_STATUS_MIRROR = true) ∧
      (mine.2.1 ≠ sig.toNat → 1 ≤ s.dev.pair.mism → t.dev.rdb R.VEER_STATUS_MIRROR = false ∧
        t.dev.rdb R.VEER_STATUS_SYNCED = false ∧ s.dev.Counted t.dev R.VEER_MIRROR_LOST) := by
  have act := (Dev.sig_taken (d := s.start) (sig := sig.toNat) warm mirror hear.rxFrame new).trans
    (Dev.sigCompare_heard (d := s.start) warm mirror own counted)
  have his : (wln.toNat, sig.toNat) ∈ (s.start.heardSig sig.toNat wln.toNat).pair.sigsHis := by simp [Dev.heardSig, Dev.pput]
  by_cases equal : mine.2.1 = sig.toNat
  · simp only [equal, if_true] at act
    exact ⟨_, exec_sigFrame hear.on act rfl, State.only_withDev (.set_pair (.set_pair .refl)), his, fun _ => ⟨rfl, mirror⟩,
      fun ne => absurd equal ne, fun ne => absurd equal ne⟩
  · simp only [equal, if_false] at act
    by_cases second : 1 ≤ s.dev.pair.mism
    · have again : 1 ≤ (s.start.heardSig sig.toNat wln.toNat).pair.mism := second
      rw [if_pos again] at act
      obtain ⟨keeps, pair, unmirrored, unsynced, lost⟩ := Dev.mirrorLost_spec (s.start.heardSig sig.toNat wln.toNat) 1
      generalize (s.start.heardSig sig.toNat wln.toNat).mirrorLost 1 = x at act keeps pair unmirrored unsynced lost
      refine ⟨_, exec_sigFrame hear.on act keeps.wq, State.only_withDev (.trans (.set_pair .refl) keeps), ?_, fun e => absurd e equal,
        fun _ z => absurd second (by omega), fun _ _ => ⟨unmirrored, unsynced, lost⟩⟩
      exact (congrArg (fun p : PairPart => (wln.toNat, sig.toNat) ∈ p.sigsHis) pair).mpr his
    · have first : ¬1 ≤ (s.start.heardSig sig.toNat wln.toNat).pair.mism := second
      rw [if_neg first] at act
      exact ⟨_, exec_sigFrame hear.on act rfl, State.only_withDev (.set_pair (.set_pair .refl)), his, fun e => absurd e equal,
        fun _ _ => ⟨rfl, mirror⟩, fun _ m => absurd m second⟩

/-- The telemetry of a tile of the partner's is taken (R25). -/
theorem telemFrame_taken (x : TileLink) (live : s.dev.state = .live) (hear : s.Hears [0x20] bytes f) :
    ∃ t, exec (.telemFrameReceive ⟨bytes, x⟩) s = .next t ∧ s.Only [] t ∧
      t.dev.tileLink x.id = { s.dev.tileLink x.id with
        tileOwn := x.tileOwn, tileEpoch := x.tileEpoch, fseq := x.fseq, temp := x.temp, volt := x.volt, curr := x.curr, dead := x.dead,
        crcErr := x.crcErr, lost := x.lost, tlWln := x.tlWln } ∧
      ∀ i, i ≠ x.id → t.dev.tileLink i = s.dev.tileLink i := by
  have heard : ¬(!(decide (s.start.state = .live) && (s.start.rxFrame [0x20] bytes).isSome)) = true := by simp [live, hear.rxFrame]
  refine ⟨_, exec_telemFrame hear.on (if_neg heard) rfl, State.only_withDev (.set_clr (.set_tiles .refl)), ?_, fun i ne => ?_⟩
  · exact Dev.tileLink_takeTile s.start x
  · exact Dev.tileLink_takeTile_ne s.start x ne

end

/-- Settles O37, a lemma for each kind of frame of the pairing stream. -/
theorem pairingStreamIsTaken : Obligations.PairingStreamIsTaken := by
  unfold Obligations.PairingStreamIsTaken
  refine ⟨fun s bytes on bad => badFrame_discarded on bad, fun s bytes f n => ⟨fun h e body w hear => ?_, fun crc c hear seq => ⟨?_, ?_⟩,
      fun h e line groups w hear seq => ?_⟩, fun s service n path paired => ackFrame_sent service n path paired,
    fun s service n sync => cut_timeout service n sync, fun s bytes f seq gap hear => ackFrame_taken seq gap hear,
    fun s bytes f sig wln mine warm hear mirror new own counted => sigFrame_compared warm hear mirror new own counted,
    fun s bytes f x live hear => telemFrame_taken x live hear⟩
  · subst w
    refine ⟨fun last seq b => ?_, fun seq b => deltaFrame_taken hear n seq b, fun ne gap => gap_answered hear n ne gap⟩
    subst b
    exact baseFrame_taken hear n seq
  · exact fun b => cut_goesOn c hear n seq b
  · exact fun based version whole => cut_applied c hear n seq based version whole
  · subst w
    exact commitFrame_decides hear n seq

end Sys2Proof.Machine
end

section
/-!
PROOFS. The recording store's controls and failures: what its pump can change, that a pump finds nothing to do once every command has
resolved, and how aborts, resets, time-outs, drives, the mount and power failure act.
-/

namespace Sys2Proof.Machine
namespace Dev

/-! What the store's commands can change as they end. -/

/-- The registers that the end of a command, or what becomes possible by it, can write. -/
def pumpKeys : List Nat :=
  R.HBX_CQ_FULL.key :: R.HBX_TIMEOUTS.key :: R.HBX_ABORTS.key :: (List.range 16).map fun c => (R.HBX_CL_SQ_HEAD c).key

theorem pumpKeys_window : ∀ k ∈ pumpKeys, k / 524288 = 0x40 := by decide

theorem sqHead_mem_pumpKeys {c : Nat} (h : c < 16) : (R.HBX_CL_SQ_HEAD c).key ∈ pumpKeys :=
  List.mem_cons_of_mem _ (List.mem_cons_of_mem _ (List.mem_cons_of_mem _ (List.mem_map.mpr ⟨c, List.mem_range.mpr h, rfl⟩)))

/-- e is d but for parts of the store, outputs, free values and the registers that a pump writes. -/
structure Pumped (d e : Dev) : Prop where
  off       : e.off = d.off
  wq        : e.wq = d.wq
  pins      : e.pins = d.pins
  recorders : e.hbx.recorders = d.hbx.recorders
  now       : e.now = d.now
  rd        : ∀ f : Fld, f.key ∉ pumpKeys → e.rd f = d.rd f

namespace Pumped

variable {c d e : Dev}

theorem refl : Pumped d d := ⟨rfl, rfl, rfl, rfl, rfl, fun _ _ => rfl⟩

theorem trans (h : Pumped c d) (h' : Pumped d e) : Pumped c e :=
  ⟨h'.off.trans h.off, h'.wq.trans h.wq, h'.pins.trans h.pins, h'.recorders.trans h.recorders, h'.now.trans h.now,
    fun f n => (h'.rd f n).trans (h.rd f n)⟩

theorem idle (h : Pumped d e) (i : d.RecordersIdle) : e.RecordersIdle := fun r hr => i r (h.recorders ▸ hr)

theorem keeps (h : Pumped d e) : Keeps [0x40] d e :=
  ⟨h.off, h.wq, fun f n => h.rd f fun m => n (List.mem_singleton.mpr (pumpKeys_window _ m))⟩

theorem hput {x : HbxPart} (r : x.recorders = e.hbx.recorders) (h : Pumped d e) : Pumped d (e.hput x) :=
  ⟨h.off, h.wq, h.pins, r.trans h.recorders, h.now, h.rd⟩

theorem emit {o : Out} (h : Pumped d e) : Pumped d (e.emit o) := ⟨h.off, h.wq, h.pins, h.recorders, h.now, h.rd⟩
theorem drawn (h : Pumped d e) : Pumped d e.drawn := ⟨h.off, h.wq, h.pins, h.recorders, h.now, h.rd⟩

theorem wr {f : Fld} {v : Nat} (w : f.key ∈ pumpKeys) (h : Pumped d e) : Pumped d (e.wr f v) :=
  ⟨h.off, h.wq, h.pins, h.recorders, h.now, fun g n => (rd_wr_ne e f g v fun c => n (c ▸ w)).trans (h.rd g n)⟩

theorem cnt {f : Fld} (w : f.key ∈ pumpKeys) (h : Pumped d e) : Pumped d (e.cnt f) := h.wr w
theorem addCnt {f : Fld} {n : Nat} (w : f.key ∈ pumpKeys) (h : Pumped d e) : Pumped d (e.addCnt f n) := h.wr w

theorem ite {p : Prop} [Decidable p] {a b : Dev} (ha : Pumped d a) (hb : Pumped d b) : Pumped d (if p then a else b) := by
  split
  · exact ha
  · exact hb

theorem foldl {α : Type} {f : Dev → α → Dev} (k : ∀ d a, Pumped d (f d a)) : ∀ (l : List α) {e : Dev}, Pumped d e →
    Pumped d (l.foldl f e)
  | [], _, h => h
  | a :: r, e, h => foldl k r (h.trans (k e a))

theorem putCmd {x : HCmd} (h : Pumped d e) : Pumped d (e.putCmd x) := hput rfl h
theorem putTake {t : Take} (h : Pumped d e) : Pumped d (e.putTake t) := hput rfl h
theorem putDrive {k : Nat} {x : HDrive} (h : Pumped d e) : Pumped d (e.putDrive k x) := hput rfl h
theorem mapStaged {f : Staged → Staged} (h : Pumped d e) : Pumped d (e.mapStaged f) := hput rfl h
theorem dropStaged {ser : Nat} (h : Pumped d e) : Pumped d (e.dropStaged ser) := hput rfl h
theorem closeTake {t : Take} (h : Pumped d e) : Pumped d (e.closeTake t) := putTake h
theorem freeTags (h : Pumped d e) : Pumped d e.freeTags := hput rfl h

theorem stageRecord {ser client take off flags : Nat} (h : Pumped d e) : Pumped d (e.stageRecord ser client take off flags) := hput rfl h

theorem noteFull {c : Nat} (h : Pumped d e) : Pumped d (e.noteFull c) := ite (addCnt (by decide) (hput rfl h)) h

theorem addCompl {x : HCompl} (h : Pumped d e) : Pumped d (e.addCompl x) :=
  noteFull (hput rfl (ite (cnt (by decide) h) (ite (cnt (by decide) h) h)))

theorem endCmd {ser status done : Nat} (h : Pumped d e) : Pumped d (e.endCmd ser status done) := by
  unfold Dev.endCmd
  split
  · exact h
  · exact ite h (addCompl (ite (dropStaged (putCmd h)) (putCmd h)))

theorem overrule {ser status : Nat} (h : Pumped d e) : Pumped d (e.overrule ser status) := by
  unfold Dev.overrule
  split
  · exact h
  · exact ite h (ite (noteFull (hput rfl (hput rfl (ite (dropStaged (putCmd h)) (putCmd h)))))
      (addCompl (hput rfl (ite (dropStaged (putCmd h)) (putCmd h)))))

theorem pumpWrite {x : HCmd} (h : Pumped d e) : Pumped d (e.pumpWrite x) := by
  unfold Dev.pumpWrite
  refine ite h ?_
  split
  · exact endCmd h
  · exact ite (endCmd h) h

theorem pumpRead {x : HCmd} (h : Pumped d e) : Pumped d (e.pumpRead x) := by
  unfold Dev.pumpRead
  refine ite h (ite h ?_)
  split
  · exact endCmd h
  · exact ite (endCmd h) (ite (endCmd h) (putCmd (foldl (fun _ _ => emit refl) _ h)))

theorem pumpFlush {x : HCmd} (h : Pumped d e) : Pumped d (e.pumpFlush x) := ite h (endCmd h)

theorem pumpClose {x : HCmd} (h : Pumped d e) : Pumped d (e.pumpClose x) := by
  unfold Dev.pumpClose
  refine ite h ?_
  split
  · exact endCmd h
  · exact ite (endCmd (stageRecord (closeTake h))) (endCmd h)

theorem pumpCmds (h : Pumped d e) : Pumped d e.pumpCmds := by
  refine foldl (fun d x => ?_) _ h
  split
  · exact refl
  · refine ite refl ?_
    split
    · exact pumpWrite refl
    · exact pumpRead refl
    · exact pumpFlush refl
    · exact pumpClose refl
    · exact refl

theorem issueOne {w : Staged} (h : Pumped d e) : Pumped d (e.issueOne w) := by
  unfold Dev.issueOne
  dsimp only
  split
  · exact h
  · split
    · exact h
    · exact emit (mapStaged (hput rfl (putDrive h)))

theorem issueWrites (h : Pumped d e) : Pumped d e.issueWrites := ite (foldl (fun _ _ => issueOne refl) _ h) h

end Pumped

/-- A recorder with nothing to submit submits nothing. -/
theorem recordPump_idle {d : Dev} (i : d.RecordersIdle) (slot : Nat) : ∀ k, d.recordPump slot k = d
  | 0 => rfl
  | k + 1 => by
    unfold recordPump
    split
    · rfl
    · next r h => rw [i r (List.mem_of_find?_eq_some h)]

theorem pumpRecorders_idle {d : Dev} (i : d.RecordersIdle) : d.pumpRecorders = d :=
  List.foldl_fixed' (fun _ => recordPump_idle i _ _) _

/-! Heads that pass entries ended in place. -/

/-- e is d but for heads of submission rings that have moved past entries ended in place. -/
structure HeadsMoved (d e : Dev) : Prop where
  rest : e = { d with regs := e.regs, hbx := { d.hbx with skip := e.hbx.skip } }
  skip : ∀ p ∈ e.hbx.skip, p ∈ d.hbx.skip
  rd   : ∀ f : Fld, (∀ c < 16, ∀ h, (c, h) ∈ d.hbx.skip → f.key ≠ (R.HBX_CL_SQ_HEAD c).key) → e.rd f = d.rd f

namespace HeadsMoved

variable {c d e : Dev}

theorem refl : HeadsMoved d d := ⟨rfl, fun _ h => h, fun _ _ => rfl⟩

theorem trans (h : HeadsMoved c d) (h' : HeadsMoved d e) : HeadsMoved c e :=
  ⟨h'.rest.trans (congrArg (fun x : Dev => { x with regs := e.regs, hbx := { x.hbx with skip := e.hbx.skip } }) h.rest),
    fun p m => h.skip p (h'.skip p m), fun f n => (h'.rd f fun k hk i m => n k hk i (h.skip _ m)).trans (h.rd f n)⟩

theorem hbx (h : HeadsMoved d e) : e.hbx = { d.hbx with skip := e.hbx.skip } := congrArg Dev.hbx h.rest

theorem cmds (h : HeadsMoved d e) : e.hbx.cmds = d.hbx.cmds := (congrArg HbxPart.cmds h.hbx).trans rfl
theorem compl (h : HeadsMoved d e) : e.hbx.compl = d.hbx.compl := (congrArg HbxPart.compl h.hbx).trans rfl
theorem takes (h : HeadsMoved d e) : e.hbx.takes = d.hbx.takes := (congrArg HbxPart.takes h.hbx).trans rfl
theorem recs (h : HeadsMoved d e) : e.hbx.recs = d.hbx.recs := (congrArg HbxPart.recs h.hbx).trans rfl
theorem lsn (h : HeadsMoved d e) : e.hbx.lsn = d.hbx.lsn := (congrArg HbxPart.lsn h.hbx).trans rfl
theorem cq (h : HeadsMoved d e) : e.hbx.cq = d.hbx.cq := (congrArg HbxPart.cq h.hbx).trans rfl
theorem staged (h : HeadsMoved d e) : e.hbx.staged = d.hbx.staged := (congrArg HbxPart.staged h.hbx).trans rfl
theorem hdrive (h : HeadsMoved d e) (k : Nat) : e.hdrive k = d.hdrive k :=
  (congrArg (fun x : HbxPart => x.drives.getD k HDrive.reset) h.hbx).trans rfl

theorem rd_of_not_head (h : HeadsMoved d e) {f : Fld} (n : ∀ c < 16, f.key ≠ (R.HBX_CL_SQ_HEAD c).key) : e.rd f = d.rd f :=
  h.rd f fun c hc _ _ => n c hc

theorem pumped (h : HeadsMoved d e) : Pumped d e :=
  ⟨(congrArg Dev.off h.rest).trans rfl, (congrArg Dev.wq h.rest).trans rfl, (congrArg Dev.pins h.rest).trans rfl,
    (congrArg HbxPart.recorders h.hbx).trans rfl, (congrArg Dev.now h.rest).trans rfl,
    fun _ n => h.rd_of_not_head fun _ hc e => n (e ▸ sqHead_mem_pumpKeys hc)⟩

/-- One entry ended in place is passed. -/
theorem passed {c h v : Nat} (hc : c < 16) (m : (c, h) ∈ d.hbx.skip) : HeadsMoved d
    (({ d with hbx := { d.hbx with skip := d.hbx.skip.filter fun x => x != (c, h) } } : Dev).wr (R.HBX_CL_SQ_HEAD c) v) :=
  ⟨rfl, fun _ hp => (List.mem_filter.mp hp).1, fun f n => rd_wr_ne d _ f v (n c hc h m)⟩

theorem skipHead {c : Nat} (hc : c < 16) : ∀ (k : Nat) (d : Dev), HeadsMoved d (d.skipHead c k)
  | 0, _ => refl
  | k + 1, d => by
    unfold Dev.skipHead
    dsimp only
    split
    · next h =>
      simp only [Bool.and_eq_true, List.contains_iff_mem] at h
      obtain ⟨⟨-, m⟩, -⟩ := h
      exact (passed hc m).trans (skipHead hc k _)
    · exact refl

end HeadsMoved

theorem headsMoved_foldl (n : Nat) : ∀ (l : List Nat) (d : Dev), (∀ c ∈ l, c < 16) → HeadsMoved d (l.foldl (fun d c => d.skipHead c n) d)
  | [], _, _ => .refl
  | c :: r, d, h => (HeadsMoved.skipHead (h c List.mem_cons_self) n d).trans
      (headsMoved_foldl n r _ fun c m => h c (List.mem_cons_of_mem _ m))

theorem pump_eq (d : Dev) : d.pump = (let d := d.pumpCmds.issueWrites.freeTags.pumpRecorders
    if d.hbx.skip = [] then d else (List.range 16).foldl (fun d c => d.skipHead c 65536) d) := by
  unfold pump
  rfl

theorem headsMoved_skips (d : Dev) :
    HeadsMoved d (if d.hbx.skip = [] then d else (List.range 16).foldl (fun d c => d.skipHead c 65536) d) := by
  split
  · exact .refl
  · exact headsMoved_foldl 65536 _ _ fun c m => List.mem_range.mp m

/-- A pump while no recorder waits changes the store's parts and the pump's registers alone. -/
theorem pumped_pump {d : Dev} (i : d.RecordersIdle) : Pumped d d.pump := by
  have cmds : Pumped d d.pumpCmds.issueWrites.freeTags := .freeTags (.issueWrites (.pumpCmds .refl))
  rw [pump_eq, pumpRecorders_idle (cmds.idle i)]
  exact cmds.trans (headsMoved_skips _).pumped

/-! A pump with nothing to do. -/

/-- Every command has resolved and none is posted, nothing is staged, and no recorder waits. -/
structure Settled (d : Dev) : Prop where
  cmds   : ∀ x ∈ d.hbx.cmds, hopen x = false ∧ x.posted = false
  staged : d.hbx.staged = []
  idle   : d.RecordersIdle

theorem pumpCmds_settled {d : Dev} (h : Settled d) : d.pumpCmds = d := by
  refine List.foldl_fixed' (fun x => ?_) _
  split
  · rfl
  · next y hy => rw [(h.cmds y (List.mem_of_find?_eq_some hy)).1]; rfl

theorem issueWrites_unstaged {d : Dev} (h : d.hbx.staged = []) : d.issueWrites = d := by
  unfold issueWrites
  split
  · rw [h]; rfl
  · rfl

theorem freeTags_settled {d : Dev} (h : Settled d) : d.freeTags = d := by
  unfold freeTags
  rw [List.filter_eq_self.mpr fun x m => by simp [(h.cmds x m).2]]
  rfl

/-- It moves heads alone. -/
theorem headsMoved_pump {d : Dev} (h : Settled d) : HeadsMoved d d.pump := by
  rw [pump_eq, pumpCmds_settled h, issueWrites_unstaged h.staged, freeTags_settled h, pumpRecorders_idle h.idle]
  exact headsMoved_skips d


/-! The end of a store's one command. -/

theorem noteFull_hbx (d : Dev) (c : Nat) : (d.noteFull c).hbx = { d.hbx with compl := (d.noteFull c).hbx.compl } := by
  unfold noteFull
  split <;> rfl

theorem rd_noteFull (d : Dev) (c : Nat) {f : Fld} (n : f.key ≠ R.HBX_CQ_FULL.key) : (d.noteFull c).rd f = d.rd f := by
  unfold noteFull
  split
  · exact rd_addCnt_ne _ _ _ _ n
  · rfl

/-- A completion that becomes due is counted where it is a time-out or an abort (R389, R393). -/
def countEnd (d : Dev) (status : Nat) : Dev := if status = 7 then d.cnt R.HBX_TIMEOUTS else if status = 1 then d.cnt R.HBX_ABORTS else d

theorem countEnd_hbx (d : Dev) (status : Nat) : (d.countEnd status).hbx = d.hbx := by
  unfold countEnd
  split
  · rfl
  · split <;> rfl

theorem addCompl_eq (d : Dev) (x : HCompl) :
    d.addCompl x = ((d.countEnd x.status).hput { d.hbx with compl := d.hbx.compl ++ [x] }).noteFull x.client := by
  rw [← countEnd_hbx d x.status]
  rfl

theorem addCompl_hbx (d : Dev) (x : HCompl) : (d.addCompl x).hbx = { d.hbx with compl := (d.addCompl x).hbx.compl } := by
  rw [addCompl_eq, noteFull_hbx]
  rfl

theorem counted_timeout (d : Dev) {x : HCompl} (h : x.status = 7) : d.Counted (d.addCompl x) R.HBX_TIMEOUTS := by
  rw [Counted, addCompl_eq, rd_noteFull _ _ (by decide), h]
  exact rd_cnt_self d R.HBX_TIMEOUTS

theorem counted_abort (d : Dev) {x : HCompl} (h : x.status = 1) : d.Counted (d.addCompl x) R.HBX_ABORTS := by
  rw [Counted, addCompl_eq, rd_noteFull _ _ (by decide), h]
  exact rd_cnt_self d R.HBX_ABORTS

theorem hput_unstaged {d : Dev} (h : d.hbx.staged = []) : d.hput { d.hbx with staged := [] } = d := by
  rw [← h]
  rfl

theorem dropStaged_unstaged {d : Dev} (h : d.hbx.staged = []) (ser : Nat) : d.dropStaged ser = d := by
  simp only [dropStaged, h, List.filter_nil, List.map_nil]
  exact hput_unstaged h

theorem hcmd_single {d : Dev} {x : HCmd} (h : d.hbx.cmds = [x]) : d.hcmd x.ser = some x := by simp [hcmd, h]

/-- The store holds one command, and its completions. -/
def withCmd (d : Dev) (x : HCmd) (l : List HCompl) : Dev := d.hput { d.hbx with cmds := [x], compl := l }

theorem putCmd_single {d : Dev} {x : HCmd} (h : d.hbx.cmds = [x]) (y : HCmd) (hy : x.ser = y.ser) :
    d.putCmd y = d.withCmd y d.hbx.compl := by
  simp [putCmd, withCmd, h, hy]

section
variable {d : Dev} {x : HCmd} (h : d.hbx.cmds = [x]) (unstaged : d.hbx.staged = [])
include h unstaged

theorem endCmd_single (o : hopen x = true) (status done : Nat) : d.endCmd x.ser status done =
    (d.withCmd { x with status := some status } d.hbx.compl).addCompl ⟨x.client, x.cid, status, x.tag, done, some x.ser, false⟩ := by
  have hd := dropStaged_unstaged (d := d.withCmd { x with status := some status } d.hbx.compl) unstaged x.ser
  simp only [endCmd, hcmd_single h, o, putCmd_single h { x with status := some status } rfl, hd, ite_self]
  rfl

theorem overrule_single (p : x.posted = false) (status : Nat) : d.overrule x.ser status =
    (let e := d.withCmd { x with status := some status } (d.hbx.compl.filter fun y => y.ser != some x.ser)
     let y : HCompl := ⟨x.client, x.cid, status, x.tag, 0, some x.ser, false⟩
     if x.status = some 1 && status = 1 then (e.hput { e.hbx with compl := e.hbx.compl ++ [y] }).noteFull x.client else e.addCompl y) := by
  have hd := dropStaged_unstaged (d := d.withCmd { x with status := some status } d.hbx.compl) unstaged x.ser
  have uncompleted : ¬x.posted = true := by simp [p]
  simp only [overrule, hcmd_single h, if_neg uncompleted, putCmd_single h { x with status := some status } rfl, hd, ite_self]
  rfl

/-- An overruled command has the status, and nothing else of the store changes but the completions. -/
theorem overrule_hbx (p : x.posted = false) (status : Nat) : (d.overrule x.ser status).hbx =
    { d.hbx with cmds := [{ x with status := some status }], compl := (d.overrule x.ser status).hbx.compl } := by
  rw [overrule_single h unstaged p]
  dsimp only
  split
  · rw [noteFull_hbx]
    rfl
  · rw [addCompl_hbx]
    rfl

theorem endCmd_hbx (o : hopen x = true) (status done : Nat) : (d.endCmd x.ser status done).hbx =
    { d.hbx with cmds := [{ x with status := some status }], compl := (d.endCmd x.ser status done).hbx.compl } := by
  rw [endCmd_single h unstaged o, addCompl_hbx]
  rfl

/-- A command that ends with TIMEOUT is counted (R393). -/
theorem timeouts_endCmd (o : hopen x = true) (done : Nat) : d.Counted (d.endCmd x.ser 7 done) R.HBX_TIMEOUTS := by
  rw [endCmd_single h unstaged o, Counted, counted_timeout _ rfl]
  rfl

/-- A command that ends with ABORTED is counted once (R390). -/
theorem aborts_overrule (p : x.posted = false) (o : x.status ≠ some 1) : d.Counted (d.overrule x.ser 1) R.HBX_ABORTS := by
  have first : ¬(decide (x.status = some 1) && decide (1 = 1)) = true := by simp [o]
  rw [overrule_single h unstaged p, Counted]
  dsimp only
  rw [if_neg first, counted_abort _ rfl]
  rfl

end

/-- A store whose one command has resolved and is not posted. -/
theorem Settled.single {d : Dev} {x : HCmd} (h : d.hbx.cmds = [x]) (o : hopen x = false) (p : x.posted = false)
    (unstaged : d.hbx.staged = []) (i : d.RecordersIdle) : Settled d :=
  ⟨fun y m => by rw [h, List.mem_singleton] at m; exact m ▸ ⟨o, p⟩, unstaged, i⟩

theorem Settled.none {d : Dev} (h : d.hbx.cmds = []) (unstaged : d.hbx.staged = []) (i : d.RecordersIdle) : Settled d :=
  ⟨fun y m => by simp [h] at m, unstaged, i⟩

/-- Heads that move leave a settled store settled. -/
theorem HeadsMoved.settled {d e : Dev} (h : HeadsMoved d e) (s : Settled d) : Settled e :=
  ⟨h.cmds ▸ s.cmds, h.staged.trans s.staged, h.pumped.idle s.idle⟩

/-- e is d but for its outputs and its drives. -/
structure DrivesOnly (d e : Dev) : Prop where
  rest : e = { d with out := e.out, hbx := { d.hbx with drives := e.hbx.drives } }

namespace DrivesOnly

variable {c d e : Dev}

theorem trans (h : DrivesOnly c d) (h' : DrivesOnly d e) : DrivesOnly c e :=
  ⟨h'.rest.trans (congrArg (fun x : Dev => { x with out := e.out, hbx := { x.hbx with drives := e.hbx.drives } }) h.rest)⟩

theorem hbx (h : DrivesOnly d e) : e.hbx = { d.hbx with drives := e.hbx.drives } := congrArg Dev.hbx h.rest

theorem pumped (h : DrivesOnly d e) : Pumped d e :=
  ⟨(congrArg Dev.off h.rest).trans rfl, (congrArg Dev.wq h.rest).trans rfl, (congrArg Dev.pins h.rest).trans rfl,
    (congrArg HbxPart.recorders h.hbx).trans rfl, (congrArg Dev.now h.rest).trans rfl, fun f _ => (congrArg (fun x : Dev => x.rd f) h.rest).trans rfl⟩

theorem rd (h : DrivesOnly d e) (f : Fld) : e.rd f = d.rd f := (congrArg (fun x : Dev => x.rd f) h.rest).trans rfl

theorem cmds (h : DrivesOnly d e) : e.hbx.cmds = d.hbx.cmds := (congrArg HbxPart.cmds h.hbx).trans rfl
theorem staged (h : DrivesOnly d e) : e.hbx.staged = d.hbx.staged := (congrArg HbxPart.staged h.hbx).trans rfl

/-- Drives that change leave a settled store settled. -/
theorem settled (h : DrivesOnly d e) (s : Settled d) : Settled e :=
  ⟨h.cmds ▸ s.cmds, h.staged.trans s.staged, h.pumped.idle s.idle⟩

theorem foldl {α : Type} {f : Dev → α → Dev} (k : ∀ d a, DrivesOnly d (f d a)) : ∀ (l : List α) (d : Dev), DrivesOnly d (l.foldl f d)
  | [], _ => ⟨rfl⟩
  | a :: r, d => (k d a).trans (foldl k r (f d a))

end DrivesOnly

/-- The NVMe Aborts of a command change the drives alone. -/
theorem drivesOnly_abortDrives (d : Dev) (x : HCmd) : DrivesOnly d (abortDrives d x) := by
  unfold abortDrives
  refine DrivesOnly.foldl (fun d k => ?_) _ d
  dsimp only
  split
  · exact ⟨rfl⟩
  · exact ⟨rfl⟩

end Dev

/-! The commands. -/

section
variable {s : State}

/-- An engine's command whose effect is known. -/
theorem runEngine_eq {f : List Host.Cell → Dev → Dev} {d : Dev} (e : s.EnginesRun) (act : f s.mem s.start = d) (q : d.wq = []) :
    runEngine s f = .next (s.withDev d) := by
  unfold runEngine
  rw [if_neg e.2]
  exact run_eq e.1 act q

/-- A write to a register whose clock runs. -/
theorem run_writeTo {addr v : Nat} {f : List Host.Cell → Dev → Dev} {d : Dev} (hb : s.BusFree addr) (act : f s.mem s.start = d)
    (q : d.wq = []) : run s (fun m d => d.writeTo addr v (f m)) = .next (s.answered d 0 false) := by
  subst act
  exact run_access hb (some v) (fun m d => (f m d, 0, false)) q

/-- CMD_TO passes (R393). -/
theorem cmdTimeout_ends (tag : Fin 1024) (c : HCmd) (e : s.EnginesRun) (h : s.dev.hbx.cmds = [c]) (ht : c.tag = tag.val)
    (o : c.status = none) (p : c.posted = false) (op : c.op ≠ 7) (unstaged : s.dev.hbx.staged = []) (i : s.dev.RecordersIdle) :
    ∃ t x, exec (.hbxCmdTimeout tag) s = .next t ∧ s.Only [0x40] t ∧ t.dev.hbx.cmds = [x] ∧ x.status = some 7 ∧
      s.dev.Counted t.dev R.HBX_TIMEOUTS ∧ c.since + millis c.limit ≤ t.dev.now := by
  have ho : Dev.hopen c = true := by simp [Dev.hopen, o]
  have hc : s.start.hcmdTag tag = some c := by
    show s.dev.hbx.cmds.find? _ = some c
    simp [h, ht]
  have act : actHbxTimeout tag s.start =
      (abortDrives ((s.start.upTo (c.since + millis c.limit)).endCmd c.ser 7 0) c).pump := by
    simp [actHbxTimeout, hc, ho, op]
  have hd : (s.start.upTo (c.since + millis c.limit)).hbx.cmds = [c] := h
  have ended := Dev.endCmd_hbx hd unstaged ho 7 0
  have counted : s.dev.Counted _ R.HBX_TIMEOUTS := Dev.timeouts_endCmd hd unstaged ho 0
  have frame : Dev.Pumped (s.start.upTo (c.since + millis c.limit)) _ := .endCmd (ser := c.ser) (status := 7) (done := 0) .refl
  generalize (s.start.upTo (c.since + millis c.limit)).endCmd c.ser 7 0 = d at act ended counted frame
  have settled : d.Settled := .single (congrArg HbxPart.cmds ended) rfl p ((congrArg HbxPart.staged ended).trans unstaged) (frame.idle i)
  have drives := Dev.drivesOnly_abortDrives d c
  have heads := Dev.headsMoved_pump (drives.settled settled)
  have all := frame.trans (drives.pumped.trans heads.pumped)
  generalize (abortDrives d c).pump = x at act heads all
  refine ⟨s.withDev x, { c with status := some 7 }, ?_, ?_, ?_, rfl, ?_, ?_⟩
  · exact (exec_hbxCmdTimeout tag s).trans (runEngine_eq e act all.wq)
  · exact State.only_withDev (.trans (.upTo .refl) all.keeps)
  · exact heads.cmds.trans (drives.cmds.trans (congrArg HbxPart.cmds ended))
  · have same : x.rd R.HBX_TIMEOUTS = d.rd R.HBX_TIMEOUTS :=
      (heads.rd_of_not_head (by decide)).trans (drives.rd _)
    exact same.trans counted
  · rw [withDev_now, all.now]
    exact Nat.le_max_right ..

end

namespace Dev

/-! What an ABORT finds (R389). -/

section
variable {m : List Host.Cell} {d : Dev} {c cid : Nat}

theorem abort_found {x : HCmd} (h : d.hbx.cmds = [x]) (hc : x.client = c) (hid : x.cid = cid) (p : x.posted = false) (op : x.op ≠ 1) :
    actHbxAbort c cid m d = (((d.wr (R.HBX_CL_ABORT_STATUS c) 0).overrule x.ser 1).skipHead c 65536).pump := by
  have found : (d.hbx.cmds.find? fun x => x.client = c && x.cid = cid && uncompleted x) = some x := by
    simp [h, hc, hid, uncompleted, p]
  simp only [actHbxAbort, found, op, if_false]

theorem abort_missed (none_ : ∀ x ∈ d.hbx.cmds, x.client = c → x.cid = cid → x.posted = true) (empty : ringPlaces d c = []) :
    actHbxAbort c cid m d =
      if d.hbx.compl.any fun x => x.client = c && x.cid = cid && x.ser.isNone then d.wr (R.HBX_CL_ABORT_STATUS c) 0
      else if d.hbx.posted.contains (c, cid) then (d.wr (R.HBX_CL_ABORT_STATUS c) 1).cnt R.HBX_TOO_LATE
      else d.wr (R.HBX_CL_ABORT_STATUS c) 2 := by
  have missed : (d.hbx.cmds.find? fun x => x.client = c && x.cid = cid && uncompleted x) = none := by
    refine List.find?_eq_none.mpr fun x hx => ?_
    simp only [uncompleted, Bool.and_eq_true, decide_eq_true_eq, Bool.not_eq_true']
    rintro ⟨⟨hc, hid⟩, p⟩
    simp [none_ x hx hc hid] at p
  simp only [actHbxAbort, missed, empty, List.find?_nil]

end

theorem abortStatus_not_pumped (c : Fin 16) : (R.HBX_CL_ABORT_STATUS c).key ∉ pumpKeys := by
  revert c
  decide

theorem abortStatus_ne_tooLate (c : Fin 16) : (R.HBX_CL_ABORT_STATUS c).key ≠ R.HBX_TOO_LATE.key := by
  revert c
  decide

theorem abortStatus_window (c : Fin 16) : (R.HBX_CL_ABORT_STATUS c).key / 524288 ∈ [0x40] := by
  revert c
  decide

end Dev

section
variable {s : State}

theorem exec_abort {c : Fin 16} {cid : BitVec 16} {d : Dev} (hb : s.BusFree (0x40011C + 0x40 * c.val))
    (act : actHbxAbort c cid.toNat s.mem s.start = d) (q : d.wq = []) : exec (.hbxAbort c cid) s = .next (s.answered d 0 false) :=
  (exec_hbxAbort c cid s).trans (run_writeTo hb act q)

/-- What a bus answer leaves differs in the device only. -/
theorem State.only_answered {ws : List Nat} {d : Dev} (h : Dev.Keeps ws s.start d) (data : Nat) (err : Bool) :
    s.Only ws (s.answered d data err) := State.only_withDev h.emit

/-- An ABORT of the one command ends it with ABORTED (R389, R390). -/
theorem abort_ends {c : Fin 16} {cid : BitVec 16} {x : HCmd} (hb : s.BusFree (0x40011C + 0x40 * c.val)) (h : s.dev.hbx.cmds = [x])
    (hc : x.client = c) (hid : x.cid = cid.toNat) (p : x.posted = false) (op : x.op ≠ 1) (unstaged : s.dev.hbx.staged = [])
    (i : s.dev.RecordersIdle) :
    ∃ t y, exec (.hbxAbort c cid) s = .next t ∧ s.Only [0x40] t ∧ t.dev.rd (R.HBX_CL_ABORT_STATUS c) = 0 ∧
      t.dev.hbx.cmds = [y] ∧ y.status = some 1 ∧ (x.status ≠ some 1 → s.dev.Counted t.dev R.HBX_ABORTS) := by
  have act := Dev.abort_found (m := s.mem) (d := s.start) h hc hid p op
  have hd : (s.start.wr (R.HBX_CL_ABORT_STATUS c) 0).hbx.cmds = [x] := h
  have hs : (s.start.wr (R.HBX_CL_ABORT_STATUS c) 0).hbx.staged = [] := unstaged
  have hi : (s.start.wr (R.HBX_CL_ABORT_STATUS c) 0).RecordersIdle := i
  have ended := Dev.overrule_hbx hd unstaged p 1
  have counted := Dev.aborts_overrule hd unstaged p
  have frame : Dev.Pumped (s.start.wr (R.HBX_CL_ABORT_STATUS c) 0) _ := .overrule (ser := x.ser) (status := 1) .refl
  have zero : (s.start.wr (R.HBX_CL_ABORT_STATUS c) 0).rd (R.HBX_CL_ABORT_STATUS c) = 0 := Dev.rd_wr_self ..
  have other : (s.start.wr (R.HBX_CL_ABORT_STATUS c) 0).rd R.HBX_ABORTS = s.dev.rd R.HBX_ABORTS :=
    Dev.rd_wr_ne _ _ _ _ fun e => Dev.abortStatus_not_pumped c (e ▸ by decide)
  have keep : Dev.Keeps [0x40] s.start (s.start.wr (R.HBX_CL_ABORT_STATUS c) 0) := .wr (Dev.abortStatus_window c) .refl
  generalize s.start.wr (R.HBX_CL_ABORT_STATUS c) 0 = a at act hd hs hi ended counted frame zero other keep
  generalize a.overrule x.ser 1 = d at act ended counted frame
  have settled : d.Settled := .single (congrArg HbxPart.cmds ended) rfl p ((congrArg HbxPart.staged ended).trans hs) (frame.idle hi)
  have skips := Dev.HeadsMoved.skipHead c.isLt 65536 d
  generalize d.skipHead c 65536 = e at act skips
  have heads := skips.trans (Dev.headsMoved_pump (skips.settled settled))
  have all := frame.trans heads.pumped
  generalize e.pump = f at act heads all
  refine ⟨s.answered f 0 false, { x with status := some 1 }, exec_abort hb act (all.wq.trans keep.wq),
    State.only_answered (keep.trans all.keeps) .., ?_, ?_, rfl, fun o => ?_⟩
  · exact (all.rd _ (Dev.abortStatus_not_pumped c)).trans zero
  · exact heads.cmds.trans (congrArg HbxPart.cmds ended)
  · have same : f.rd R.HBX_ABORTS = d.rd R.HBX_ABORTS := heads.rd_of_not_head (by decide)
    exact same.trans ((counted o).trans (by rw [other]))

/-- An ABORT that finds nothing to end says what became of the command (R389). -/
theorem abort_says {c : Fin 16} {cid : BitVec 16} (hb : s.BusFree (0x40011C + 0x40 * c.val))
    (none_ : ∀ x ∈ s.dev.hbx.cmds, x.client = c.val → x.cid = cid.toNat → x.posted = true) (empty : ringPlaces s.dev c = []) :
    ∃ t, exec (.hbxAbort c cid) s = .next t ∧ s.Only [0x40] t ∧ t.dev.hbx = s.dev.hbx ∧
      (let waits := s.dev.hbx.compl.any fun x => x.client = c.val && x.cid = cid.toNat && x.ser.isNone
       (waits = true → t.dev.rd (R.HBX_CL_ABORT_STATUS c) = 0) ∧
       (waits = false → s.dev.hbx.posted.contains (c.val, cid.toNat) = true → t.dev.rd (R.HBX_CL_ABORT_STATUS c) = 1 ∧
         s.dev.Counted t.dev R.HBX_TOO_LATE) ∧
       (waits = false → s.dev.hbx.posted.contains (c.val, cid.toNat) = false → t.dev.rd (R.HBX_CL_ABORT_STATUS c) = 2)) := by
  have act := Dev.abort_missed (m := s.mem) (d := s.start) none_ empty
  have shows (v : Nat) : (s.start.wr (R.HBX_CL_ABORT_STATUS c) v).rd (R.HBX_CL_ABORT_STATUS c) = v % 4 := Dev.rd_wr_self ..
  have keeps (v : Nat) : Dev.Keeps [0x40] s.start (s.start.wr (R.HBX_CL_ABORT_STATUS c) v) := .wr (Dev.abortStatus_window c) .refl
  have late := Dev.abortStatus_ne_tooLate c
  cases waits : s.dev.hbx.compl.any fun x => x.client = c.val && x.cid = cid.toNat && x.ser.isNone with
  | true =>
    have act := act.trans (if_pos waits)
    exact ⟨_, exec_abort hb act rfl, State.only_answered (keeps 0) .., rfl, fun _ => shows 0, fun no => absurd no (by decide),
      fun no => absurd no (by decide)⟩
  | false =>
    have act := act.trans (if_neg (ne_true_of_eq_false waits))
    cases posted : s.dev.hbx.posted.contains (c.val, cid.toNat) with
    | true =>
      have act := act.trans (if_pos posted)
      refine ⟨_, exec_abort hb act rfl, State.only_answered ((keeps 1).cnt (by decide)) .., rfl, fun no => absurd no (by decide),
        fun _ _ => ⟨(Dev.rd_cnt_ne _ _ _ late).trans (shows 1), ?_⟩, fun _ no => absurd no (by decide)⟩
      refine (Dev.rd_cnt_self (s.start.wr (R.HBX_CL_ABORT_STATUS c) 1) R.HBX_TOO_LATE).trans ?_
      rw [Dev.rd_wr_ne _ _ _ _ late.symm, start_rd]
    | false =>
      have act := act.trans (if_neg (ne_true_of_eq_false posted))
      exact ⟨_, exec_abort hb act rfl, State.only_answered (keeps 2) .., rfl, fun no => absurd no (by decide),
        fun _ no => absurd no (by decide), fun _ _ => shows 2⟩

end

namespace Dev

/-! A client's RESET (R391). -/

/-- Every completion of l' ends something with ABORTED, or is of l but for having been counted as waiting. -/
def ComplFrom (l l' : List HCompl) : Prop :=
  ∀ x ∈ l', x.status = 1 ∨ ∃ y ∈ l, y.client = x.client ∧ y.cid = x.cid ∧ y.status = x.status

theorem ComplFrom.trans {l l' l'' : List HCompl} (h : ComplFrom l l') (h' : ComplFrom l' l'') : ComplFrom l l'' := by
  intro x hx
  obtain a | ⟨y, hy, hc, hi, hs⟩ := h' x hx
  · exact .inl a
  · obtain a | ⟨z, hz, hc', hi', hs'⟩ := h y hy
    · exact .inl (hs ▸ a)
    · exact .inr ⟨z, hz, hc'.trans hc, hi'.trans hi, hs'.trans hs⟩

theorem ComplFrom.of_subset {l l' : List HCompl} (h : ∀ x ∈ l', x ∈ l) : ComplFrom l l' := fun x hx => .inr ⟨x, h x hx, rfl, rfl, rfl⟩

theorem complFrom_noteFull (d : Dev) (c : Nat) : ComplFrom d.hbx.compl (d.noteFull c).hbx.compl := by
  unfold noteFull
  split
  · intro x hx
    obtain ⟨y, hy, rfl⟩ := List.mem_map.mp hx
    refine .inr ⟨y, hy, ?_⟩
    split <;> exact ⟨rfl, rfl, rfl⟩
  · exact .of_subset fun _ h => h

/-- What becomes of a store whose entries in a ring end with ABORTED. -/
structure PlacesEnded (d e : Dev) : Prop where
  frame  : Pumped d e
  cmds   : e.hbx.cmds = d.hbx.cmds
  staged : e.hbx.staged = d.hbx.staged
  compl  : ComplFrom d.hbx.compl e.hbx.compl

/-- The completion of an entry that is ended in place. -/
def placeCompl (m : List Host.Cell) (d : Dev) (c i : Nat) : HCompl :=
  ⟨c, leAt (d.sqEntry m c i) 2 2, 1, d.freeVal 14 % 65536, 0, none, false⟩

theorem abortPlace_eq (m : List Host.Cell) (c : Nat) (d : Dev) (i : Nat) :
    abortPlace m c d i = (d.drawn.hput { d.hbx with skip := (c, i) :: d.hbx.skip }).addCompl (placeCompl m d c i) := rfl

theorem placesEnded_abortPlace (m : List Host.Cell) (c : Nat) (d : Dev) (i : Nat) : PlacesEnded d (abortPlace m c d i) := by
  rw [abortPlace_eq]
  have shape := addCompl_hbx (d.drawn.hput { d.hbx with skip := (c, i) :: d.hbx.skip }) (placeCompl m d c i)
  refine ⟨.addCompl (.hput rfl (.drawn .refl)), (congrArg HbxPart.cmds shape).trans rfl, (congrArg HbxPart.staged shape).trans rfl, ?_⟩
  have new : ComplFrom d.hbx.compl (d.hbx.compl ++ [placeCompl m d c i]) := by
    intro x hx
    obtain old | new := List.mem_append.mp hx
    · exact .inr ⟨x, old, rfl, rfl, rfl⟩
    · exact .inl (List.mem_singleton.mp new ▸ rfl)
  rw [addCompl_eq]
  exact new.trans (complFrom_noteFull _ _)

theorem placesEnded_abortPlaces (m : List Host.Cell) (c : Nat) : ∀ (l : List Nat) (d : Dev), PlacesEnded d (l.foldl (abortPlace m c) d)
  | [], _ => ⟨.refl, rfl, rfl, .of_subset fun _ h => h⟩
  | i :: r, d => by
    obtain ⟨frame, cmds, staged, compl⟩ := placesEnded_abortPlace m c d i
    obtain ⟨frame', cmds', staged', compl'⟩ := placesEnded_abortPlaces m c r (abortPlace m c d i)
    exact ⟨frame.trans frame', cmds'.trans cmds, staged'.trans staged, compl.trans compl'⟩

/-- The rings of a client are empty. -/
def ringsEmptied (d : Dev) (c : Nat) : Dev :=
  (((d.hput { d.hbx with
    skip := d.hbx.skip.filter fun p => p.1 != c
    posted := d.hbx.posted.filter fun p => p.1 != c
    cq := setV d.hbx.cq c (0, false) }).wr (R.HBX_CL_SQ_HEAD c) 0).wr (R.HBX_CL_SQ_TAIL c) 0).wr (R.HBX_CL_CQ_HEAD c) 0

/-- A client's completions that end no command stand behind the others. -/
def complSorted (d : Dev) (c : Nat) : Dev := d.hput { d.hbx with
  compl := (d.hbx.compl.filter fun x => x.client != c || x.ser.isSome) ++ d.hbx.compl.filter fun x => x.client = c && x.ser.isNone }

theorem sqHead_ne {c k : Nat} (h : c ≠ k) : (R.HBX_CL_SQ_HEAD c).key ≠ (R.HBX_CL_SQ_HEAD k).key := by
  simp only [R.HBX_CL_SQ_HEAD]
  omega

theorem sqTail_ne_sqHead (c k : Nat) : (R.HBX_CL_SQ_TAIL c).key ≠ (R.HBX_CL_SQ_HEAD k).key := by
  simp only [R.HBX_CL_SQ_TAIL, R.HBX_CL_SQ_HEAD]
  omega

theorem cqHead_ne_sqHead (c k : Nat) : (R.HBX_CL_CQ_HEAD c).key ≠ (R.HBX_CL_SQ_HEAD k).key := by
  simp only [R.HBX_CL_CQ_HEAD, R.HBX_CL_SQ_HEAD]
  omega

theorem sqTail_ne_cqHead (c k : Nat) : (R.HBX_CL_SQ_TAIL c).key ≠ (R.HBX_CL_CQ_HEAD k).key := by
  simp only [R.HBX_CL_SQ_TAIL, R.HBX_CL_CQ_HEAD]
  omega

theorem ring_windows (c : Fin 16) : (R.HBX_CL_SQ_HEAD c).key / 524288 ∈ [0x40] ∧ (R.HBX_CL_SQ_TAIL c).key / 524288 ∈ [0x40] ∧
    (R.HBX_CL_CQ_HEAD c).key / 524288 ∈ [0x40] := by
  revert c
  decide

theorem keeps_ringsEmptied {d e : Dev} (c : Fin 16) (h : Keeps [0x40] d e) : Keeps [0x40] d (e.ringsEmptied c) := by
  obtain ⟨head, tail, cqHead⟩ := ring_windows c
  exact .wr cqHead (.wr tail (.wr head (.set_hbx h)))

/-- The places of an emptied ring are 0. -/
theorem rd_ringsEmptied (d : Dev) (c : Nat) : (d.ringsEmptied c).rd (R.HBX_CL_SQ_HEAD c) = 0 ∧
    (d.ringsEmptied c).rd (R.HBX_CL_SQ_TAIL c) = 0 ∧ (d.ringsEmptied c).rd (R.HBX_CL_CQ_HEAD c) = 0 := by
  refine ⟨?_, ?_, rd_wr_self ..⟩
  · exact (rd_wr_ne _ _ _ _ (cqHead_ne_sqHead c c).symm).trans ((rd_wr_ne _ _ _ _ (sqTail_ne_sqHead c c).symm).trans (rd_wr_self ..))
  · exact (rd_wr_ne _ _ _ _ (sqTail_ne_cqHead c c)).trans (rd_wr_self ..)

/-- No entry of an emptied ring is to be passed. -/
theorem not_skipped_ringsEmptied {d : Dev} {c k n : Nat} (m : (k, n) ∈ (d.ringsEmptied c).hbx.skip) : c ≠ k := by
  have ne := (List.mem_filter.mp (show (k, n) ∈ d.hbx.skip.filter fun p => p.1 != c from m)).2
  simp only [bne_iff_ne] at ne
  exact ne.symm

theorem hbxReset_eq (c : Nat) (m : List Host.Cell) {d : Dev} (h : d.hbx.cmds = []) :
    actHbxReset c m d = (((ringPlaces d c).foldl (abortPlace m c) (d.complSorted c)).ringsEmptied c).pump := by
  have none_ : ((List.range 1024).filterMap fun t =>
      (d.hbx.cmds.filter fun x => x.client = c && uncompleted x).find? fun x => x.tag = t) = [] := by
    refine List.filterMap_eq_nil_iff.mpr fun t _ => ?_
    rw [h]
    rfl
  unfold actHbxReset
  dsimp only
  rw [none_]
  rfl

end Dev

section
variable {s : State}

theorem exec_reset {c : Fin 16} {d : Dev} (hb : s.BusFree (0x400124 + 0x40 * c.val)) (act : actHbxReset c s.mem s.start = d)
    (q : d.wq = []) : exec (.hbxClientReset c) s = .next (s.answered d 0 false) :=
  (exec_hbxClientReset c s).trans (run_writeTo hb act q)

/-- RESET empties the rings of a client (R391). -/
theorem reset_empties {c : Fin 16} (hb : s.BusFree (0x400124 + 0x40 * c.val)) (h : s.dev.hbx.cmds = []) (unstaged : s.dev.hbx.staged = [])
    (i : s.dev.RecordersIdle) :
    ∃ t, exec (.hbxClientReset c) s = .next t ∧ s.Only [0x40] t ∧ t.dev.rd (R.HBX_CL_SQ_HEAD c) = 0 ∧
      t.dev.rd (R.HBX_CL_SQ_TAIL c) = 0 ∧ t.dev.rd (R.HBX_CL_CQ_HEAD c) = 0 ∧ t.dev.cqAt c = (0, false) ∧
      (∀ x ∈ t.dev.hbx.compl, x.client = c → x.status = 1 ∨ ∃ y ∈ s.dev.hbx.compl, y.client = c ∧ y.cid = x.cid) := by
  have act := Dev.hbxReset_eq c s.mem (d := s.start) h
  obtain ⟨frame, cmds, staged, compl⟩ := Dev.placesEnded_abortPlaces s.mem c (ringPlaces s.start c) (s.start.complSorted c)
  have sorted : Dev.Pumped s.start (s.start.complSorted c) := .hput rfl .refl
  have from_ : Dev.ComplFrom s.dev.hbx.compl (s.start.complSorted c).hbx.compl := .of_subset fun x hx =>
    (List.mem_append.mp hx).elim (fun m => (List.mem_filter.mp m).1) fun m => (List.mem_filter.mp m).1
  generalize (ringPlaces s.start c).foldl (abortPlace s.mem c) (s.start.complSorted c) = d at act frame cmds staged compl
  have settled : (d.ringsEmptied c).Settled :=
    .none (cmds.trans h) (staged.trans unstaged) ((sorted.trans frame).idle i)
  have keeps : Dev.Keeps [0x40] s.start (d.ringsEmptied c) := Dev.keeps_ringsEmptied c (sorted.trans frame).keeps
  have heads := Dev.headsMoved_pump settled
  obtain ⟨head, tail, cqHead⟩ := Dev.rd_ringsEmptied d c
  generalize (d.ringsEmptied c).pump = e at act heads
  refine ⟨s.answered e 0 false, exec_reset hb act (heads.pumped.wq.trans keeps.wq), State.only_answered (keeps.trans heads.pumped.keeps) ..,
    ?_, ?_, ?_, ?_, ?_⟩
  · exact (heads.rd _ fun k _ n m => Dev.sqHead_ne (Dev.not_skipped_ringsEmptied m)).trans head
  · exact (heads.rd_of_not_head fun k _ => Dev.sqTail_ne_sqHead c k).trans tail
  · exact (heads.rd_of_not_head fun k _ => Dev.cqHead_ne_sqHead c k).trans cqHead
  · exact (congrArg (fun v : Vector (Nat × Bool) 16 => v.getD c (0, false)) heads.cq).trans (getD_setV _ _ _ c.isLt)
  · intro x hx hc
    obtain a | ⟨y, hy, yc, yi, -⟩ := (from_.trans compl) x (heads.compl ▸ hx)
    · exact .inl a
    · exact .inr ⟨y, hy, yc.trans hc, yi⟩

end

namespace Dev

/-! Drives (R392, R393). -/

/-- e is d but for the drives, their registers, outputs and the event log. -/
structure DriveStep (d e : Dev) : Prop where
  keeps : Keeps [4, 0x40] d e
  now   : e.now = d.now
  hbx   : e.hbx = { d.hbx with drives := e.hbx.drives }

namespace DriveStep

variable {d e : Dev}

theorem refl : DriveStep d d := ⟨.refl, rfl, rfl⟩

theorem trans {c : Dev} (h : DriveStep c d) (h' : DriveStep d e) : DriveStep c e :=
  ⟨h.keeps.trans h'.keeps, h'.now.trans h.now,
    h'.hbx.trans (congrArg (fun x : HbxPart => { x with drives := e.hbx.drives }) h.hbx)⟩

theorem cmds (h : DriveStep d e) : e.hbx.cmds = d.hbx.cmds := (congrArg HbxPart.cmds h.hbx).trans rfl
theorem staged (h : DriveStep d e) : e.hbx.staged = d.hbx.staged := (congrArg HbxPart.staged h.hbx).trans rfl
theorem recorders (h : DriveStep d e) : e.hbx.recorders = d.hbx.recorders := (congrArg HbxPart.recorders h.hbx).trans rfl

theorem settled (h : DriveStep d e) (s : Settled d) : Settled e :=
  ⟨h.cmds ▸ s.cmds, h.staged.trans s.staged, fun r m => s.idle r (h.recorders ▸ m)⟩

theorem wr {f : Fld} {v : Nat} (w : f.key / 524288 ∈ [4, 0x40]) (h : DriveStep d e) : DriveStep d (e.wr f v) := ⟨.wr w h.keeps, h.now, h.hbx⟩
theorem cnt {f : Fld} (w : f.key / 524288 ∈ [4, 0x40]) (h : DriveStep d e) : DriveStep d (e.cnt f) := h.wr w
theorem emit {o : Out} (h : DriveStep d e) : DriveStep d (e.emit o) := ⟨.emit h.keeps, h.now, h.hbx⟩

theorem putDrive {k : Nat} {x : HDrive} (h : DriveStep d e) : DriveStep d (e.putDrive k x) :=
  ⟨.set_hbx h.keeps, h.now, congrArg (fun y : HbxPart => { y with drives := (e.putDrive k x).hbx.drives }) h.hbx⟩

theorem log {s i c k x p : Nat} (h : DriveStep d e) : DriveStep d (e.log s i c k x p) :=
  ⟨.log (by decide) h.keeps, (log_now ..).trans h.now, by rw [log_hbx]; exact h.hbx⟩

theorem ite {p : Prop} [Decidable p] {a b : Dev} (ha : DriveStep d a) (hb : DriveStep d b) : DriveStep d (if p then a else b) := by
  split
  · exact ha
  · exact hb

theorem foldl {α : Type} {f : Dev → α → Dev} (k : ∀ d a, DriveStep d (f d a)) : ∀ (l : List α) {e : Dev}, DriveStep d e →
    DriveStep d (l.foldl f e)
  | [], _, h => h
  | a :: r, e, h => foldl k r (h.trans (k e a))

end DriveStep

/-! The registers of a drive. -/

theorem driveState_window {k : Nat} (h : k < 4) : (R.HBX_DRIVE_STATE k).key / 524288 ∈ [4, 0x40] := by
  simp only [R.HBX_DRIVE_STATE, List.mem_cons]
  omega

theorem driveWidth_window {k : Nat} (h : k < 4) : (R.HBX_DRIVE_WIDTH k).key / 524288 ∈ [4, 0x40] := by
  simp only [R.HBX_DRIVE_WIDTH, List.mem_cons]
  omega

theorem driveState_ne_head {k : Nat} (h : k < 4) (c : Nat) : (R.HBX_DRIVE_STATE k).key ≠ (R.HBX_CL_SQ_HEAD c).key := by
  simp only [R.HBX_DRIVE_STATE, R.HBX_CL_SQ_HEAD]
  omega

theorem driveState_ne_width (j k : Nat) : (R.HBX_DRIVE_STATE j).key ≠ (R.HBX_DRIVE_WIDTH k).key := by
  simp only [R.HBX_DRIVE_STATE, R.HBX_DRIVE_WIDTH]
  omega

theorem driveState_ne_dropped (k : Nat) : (R.HBX_DRIVE_STATE k).key ≠ R.ERR_DROPPED.key := by
  simp only [R.HBX_DRIVE_STATE, R.ERR_DROPPED]
  omega

theorem driveWidth_ne_dropped (k : Nat) : (R.HBX_DRIVE_WIDTH k).key ≠ R.ERR_DROPPED.key := by
  simp only [R.HBX_DRIVE_WIDTH, R.ERR_DROPPED]
  omega

theorem ctrlResets_ne_driveState {k : Nat} (h : k < 4) : R.HBX_CTRL_RESETS.key ≠ (R.HBX_DRIVE_STATE k).key := by
  simp only [R.HBX_CTRL_RESETS, R.HBX_DRIVE_STATE]
  omega

/-! A drive's state. -/

theorem driveStep_setDrive {d e : Dev} {k st : Nat} (hk : k < 4) (h : DriveStep d e) : DriveStep d (e.setDrive k st) :=
  .ite h (.log (.wr (driveState_window hk) h))

theorem setDrive_hbx (d : Dev) (k st : Nat) : (d.setDrive k st).hbx = d.hbx := by
  unfold setDrive
  split
  · rfl
  · exact log_hbx ..

theorem rd_setDrive (d : Dev) (k st : Nat) {f : Fld} (n : f.key ≠ (R.HBX_DRIVE_STATE k).key) (n' : f.key ≠ R.ERR_DROPPED.key) :
    (d.setDrive k st).rd f = d.rd f := by
  unfold setDrive
  split
  · rfl
  · rw [rd_log _ _ _ _ _ _ _ _ n', rd_wr_ne _ _ _ _ n]

theorem driveState_setDrive (d : Dev) (k : Nat) {st : Nat} (h : st < 4) : (d.setDrive k st).driveState k = st := by
  unfold setDrive
  split
  · assumption
  · exact (rd_log _ _ _ _ _ _ _ _ (driveState_ne_dropped k)).trans ((rd_wr_self ..).trans (Nat.mod_eq_of_lt h))

/-- A link that is held down stays so (R393). -/
theorem linkDrive_down {d : Dev} {k : Nat} (h : (d.hdrive k).down = true) (width : Nat) : linkDrive d k width = d := if_pos h

/-- The width that a link comes up with (R369). -/
def linkWidth (d : Dev) (k width : Nat) : Nat := if k < (pcieLinks d).1 then Nat.min width (pcieLinks d).2 else 0

/-- A drive that its link leaves is UNAVAIL. -/
def leftByLink (d : Dev) (k width : Nat) : Dev := if width = 0 && d.driveState k = 1 then d.setDrive k 2 else d

theorem linkDrive_up {d : Dev} {k : Nat} (h : (d.hdrive k).down = false) (width : Nat) : linkDrive d k width =
    (let w := d.linkWidth k width
     let e := (d.leftByLink k w).wr (R.HBX_DRIVE_WIDTH k) w
     if ((d.leftByLink k w).rd (R.HBX_DRIVE_WIDTH k) = 0) = (w = 0) then e else e.log 0x46 k 0 0x012 (b2n (w != 0))) := by
  unfold linkDrive
  rw [if_neg (ne_true_of_eq_false h)]
  rfl

theorem driveStep_leftByLink {d : Dev} {k : Nat} (hk : k < 4) (w : Nat) : DriveStep d (d.leftByLink k w) :=
  .ite (driveStep_setDrive hk .refl) .refl

theorem driveStep_linkDrive {d : Dev} {k : Nat} (hk : k < 4) (width : Nat) : DriveStep d (linkDrive d k width) := by
  cases h : (d.hdrive k).down with
  | true => rw [linkDrive_down h]; exact .refl
  | false =>
    rw [linkDrive_up h]
    have widened := DriveStep.wr (v := d.linkWidth k width) (driveWidth_window hk)
      (driveStep_leftByLink (d := d) hk (d.linkWidth k width))
    exact .ite widened (.log widened)

/-- The registers of a drive after its link has changed, but for the width. -/
theorem rd_linkDrive_width {d : Dev} {k : Nat} (h : (d.hdrive k).down = false) (width : Nat) :
    (linkDrive d k width).rd (R.HBX_DRIVE_WIDTH k) = d.linkWidth k width % 2 ^ (R.HBX_DRIVE_WIDTH k).width := by
  rw [linkDrive_up h]
  dsimp only
  split
  · exact rd_wr_self ..
  · exact (rd_log _ _ _ _ _ _ _ _ (driveWidth_ne_dropped k)).trans (rd_wr_self ..)

theorem driveState_linkDrive {d : Dev} {k : Nat} (h : (d.hdrive k).down = false) (width : Nat) :
    (linkDrive d k width).driveState k = (d.leftByLink k (d.linkWidth k width)).driveState k := by
  rw [linkDrive_up h]
  dsimp only
  split
  · exact rd_wr_ne _ _ _ _ (driveState_ne_width k k)
  · exact (rd_log _ _ _ _ _ _ _ _ (driveState_ne_dropped k)).trans (rd_wr_ne _ _ _ _ (driveState_ne_width k k))

/-! Failure, reset and readiness. -/

theorem mapStaged_unstaged {d : Dev} (h : d.hbx.staged = []) (f : Staged → Staged) : d.mapStaged f = d := by
  simp only [mapStaged, h, List.map_nil]
  exact hput_unstaged h

/-- A drive is FAILED and its link held down. -/
def driveFailed (d : Dev) (k : Nat) : Dev :=
  ((linkDrive d k 0).putDrive k { (linkDrive d k 0).hdrive k with aborts := [], resetAt := none, down := true }).setDrive k 3

theorem driveStep_driveFailed {d : Dev} {k : Nat} (hk : k < 4) : DriveStep d (d.driveFailed k) :=
  driveStep_setDrive hk (.putDrive (driveStep_linkDrive hk 0))

/-- No command and no staged write stands with a drive that fails. -/
theorem failDrive_idle {d : Dev} {k : Nat} (hk : k < 4) (h : d.hbx.cmds = []) (unstaged : d.hbx.staged = []) :
    failDrive d k = d.driveFailed k := by
  have step := driveStep_driveFailed (d := d) hk
  have cmds : (d.driveFailed k).hbx.cmds = [] := step.cmds.trans h
  have staged : (d.driveFailed k).hbx.staged = [] := step.staged.trans unstaged
  have drop := mapStaged_unstaged staged
  unfold driveFailed at *
  simp only [failDrive, cmds, staged, List.filter_nil, List.foldl_nil, drop]

/-- With nothing staged, the reset of a controller ends its batch alone. -/
theorem failDriveWrites_unstaged {d : Dev} (unstaged : d.hbx.staged = []) (k : Nat) :
    failDriveWrites d k = d ∨ failDriveWrites d k = d.putDrive k { d.hdrive k with batch := none } := by
  unfold failDriveWrites
  split
  · simp only [unstaged, List.filter_nil, List.foldl_nil]
    exact .inl trivial
  · rw [mapStaged_unstaged unstaged]
    have staged : (d.putDrive k { d.hdrive k with batch := none }).hbx.staged = [] := unstaged
    simp only [staged, List.filter_nil, List.foldl_nil]
    exact .inr trivial

/-- A reset of a drive's controller (R393). -/
def controllerReset (d : Dev) (k : Nat) : Dev :=
  (((d.putDrive k { d.hdrive k with aborts := [], resetAt := some d.now }).emit (.nvme k .resetController 0 0 0 [])).cnt
    R.HBX_CTRL_RESETS).setDrive k 2

/-- What a reset of the controller leaves, its writes in flight failed. -/
theorem controllerReset_spec {d : Dev} {k : Nat} (hk : k < 4) (unstaged : d.hbx.staged = []) :
    (let e := failDriveWrites (d.controllerReset k) k
     DriveStep d e ∧ (e.hdrive k).resetAt = some d.now ∧ (e.hdrive k).aborts = [] ∧ e.driveState k = 2 ∧
       d.Counted e R.HBX_CTRL_RESETS) := by
  have step : DriveStep d (d.controllerReset k) := driveStep_setDrive hk (.cnt (by decide) (.emit (.putDrive .refl)))
  have drive : (d.controllerReset k).hdrive k = { d.hdrive k with aborts := [], resetAt := some d.now } := by
    show (d.controllerReset k).hbx.drives.getD k _ = _
    rw [controllerReset, setDrive_hbx]
    exact getD_setV _ _ _ hk
  have state : (d.controllerReset k).driveState k = 2 := driveState_setDrive _ _ (by decide)
  have counted : d.Counted (d.controllerReset k) R.HBX_CTRL_RESETS :=
    (rd_setDrive _ _ _ (ctrlResets_ne_driveState hk) (by decide)).trans (rd_cnt_self _ _)
  obtain e | e := failDriveWrites_unstaged (step.staged.trans unstaged) k <;> rw [e]
  · exact ⟨step, by rw [drive], by rw [drive], state, counted⟩
  · refine ⟨.putDrive step, ?_, ?_, ?_, ?_⟩
    · rw [hdrive_putDrive _ _ hk, drive]
    · rw [hdrive_putDrive _ _ hk, drive]
    · rw [driveState, rd_putDrive]
      exact state
    · rw [Counted, rd_putDrive]
      exact counted

theorem hcmdTag_none {d : Dev} (h : d.hbx.cmds = []) (tag : Nat) : d.hcmdTag tag = none := by
  rw [hcmdTag, h]
  rfl

/-- A drive that reports ready: READY, with its queues opened (R369, R392). -/
def driveUp (d : Dev) (k : Nat) : Dev := openQueues ((d.putDrive k { d.hdrive k with aborts := [], resetAt := none }).setDrive k 1) k

theorem driveStep_driveUp {d : Dev} {k : Nat} (hk : k < 4) : DriveStep d (d.driveUp k) :=
  .emit (.emit (.emit (driveStep_setDrive hk (.putDrive .refl))))

theorem driveState_driveUp (d : Dev) (k : Nat) : (d.driveUp k).driveState k = 1 := by
  simp only [driveUp, openQueues, driveState, rd_emit]
  exact driveState_setDrive _ _ (by decide)

theorem driveReady_eq {d : Dev} {k : Nat} (hk : k < 4) (unavail : d.driveState k = 2) (fw : d.hbx.fw = none) :
    actDriveReady k d = (d.driveUp k).pump := by
  have none_ : (d.driveUp k).hbx.fw = none := (congrArg HbxPart.fw (driveStep_driveUp hk).hbx).trans fw
  unfold actDriveReady
  rw [if_neg fun n => n unavail]
  unfold driveUp at none_ ⊢
  dsimp only
  split
  · next h => rw [none_] at h; cases h
  · rfl

end Dev

section
variable {s : State}

theorem exec_adminTimeout {k : Fin 4} {d : Dev} (e : s.EnginesRun) (act : actAdminTimeout k s.start = d) (q : d.wq = []) :
    exec (.ssdAdminTimeout k) s = .next (s.withDev d) := (exec_ssdAdminTimeout k s).trans (runEngine_eq e act q)

/-- An engine's command whose effect is a step of the drives and a pump with nothing to do. -/
theorem driveStep_pump {d d' : Dev} (begun : Dev.Keeps [4, 0x40] s.start d') (step : Dev.DriveStep d' d) (settled : d'.Settled) :
    ∃ e, d.pump = e ∧ e.wq = [] ∧ s.Only [4, 0x40] (s.withDev e) ∧ e.now = d.now ∧ (∀ k, e.hdrive k = d.hdrive k) ∧
      ∀ f : Fld, (∀ c < 16, f.key ≠ (R.HBX_CL_SQ_HEAD c).key) → e.rd f = d.rd f := by
  have heads := Dev.headsMoved_pump (step.settled settled)
  exact ⟨_, rfl, heads.pumped.wq.trans (begun.trans step.keeps).wq,
    State.only_withDev ((begun.trans step.keeps).trans (heads.pumped.keeps.wider (by decide))),
    heads.pumped.now, heads.hdrive, fun f n => heads.rd_of_not_head n⟩

/-- A reset after which a drive is not ready leads to FAILED (R393). -/
theorem adminTimeout_fails {k : Fin 4} {at_ : Time} (e : s.EnginesRun) (h : s.dev.hbx.cmds = []) (unstaged : s.dev.hbx.staged = [])
    (i : s.dev.RecordersIdle) (hr : (s.dev.hdrive k).resetAt = some at_) :
    ∃ t, exec (.ssdAdminTimeout k) s = .next t ∧ s.Only [4, 0x40] t ∧ t.dev.driveState k = 3 ∧ at_ + seconds 10 ≤ t.dev.now := by
  have hr' : (s.start.hdrive k).resetAt = some at_ := hr
  have act : actAdminTimeout k s.start = ((s.start.upTo (at_ + seconds 10)).driveFailed k).pump := by
    have idle := Dev.failDrive_idle (d := s.start.upTo (at_ + seconds 10)) k.isLt h unstaged
    simp only [actAdminTimeout, hr', idle]
  have late : at_ + seconds 10 ≤ (s.start.upTo (at_ + seconds 10)).now := Nat.le_max_right ..
  have begun : Dev.Keeps [4, 0x40] s.start (s.start.upTo (at_ + seconds 10)) := .upTo .refl
  have settled : (s.start.upTo (at_ + seconds 10)).Settled := .none h unstaged i
  generalize s.start.upTo (at_ + seconds 10) = d at act late begun settled
  have step := Dev.driveStep_driveFailed (d := d) k.isLt
  have failed : (d.driveFailed k).driveState k = 3 := Dev.driveState_setDrive _ _ (by decide)
  obtain ⟨t, ht, q, only, now, -, rd⟩ := driveStep_pump begun step settled
  exact ⟨_, exec_adminTimeout e (act.trans ht) q, only, (rd _ fun c _ => Dev.driveState_ne_head k.isLt c).trans failed,
    late.trans (le_of_eq (now.trans step.now).symm)⟩

/-- An NVMe Abort that has not resolved leads to a controller reset (R393). -/
theorem adminTimeout_resets {k : Fin 4} {x : Nat × Time} {rest : List (Nat × Time)} (e : s.EnginesRun) (h : s.dev.hbx.cmds = [])
    (unstaged : s.dev.hbx.staged = []) (i : s.dev.RecordersIdle) (hr : (s.dev.hdrive k).resetAt = none)
    (ha : (s.dev.hdrive k).aborts = x :: rest) :
    ∃ t, exec (.ssdAdminTimeout k) s = .next t ∧ s.Only [4, 0x40] t ∧ (t.dev.hdrive k).resetAt = some t.dev.now ∧
      (t.dev.hdrive k).aborts = [] ∧ x.2 + seconds 10 ≤ t.dev.now ∧ t.dev.driveState k = 2 ∧
      s.dev.Counted t.dev R.HBX_CTRL_RESETS := by
  have hr' : (s.start.hdrive k).resetAt = none := hr
  have ha' : (s.start.hdrive k).aborts = x :: rest := ha
  have act : actAdminTimeout k s.start = (failDriveWrites ((s.start.upTo (x.2 + seconds 10)).controllerReset k) k).pump := by
    simp only [actAdminTimeout, hr', ha', List.head?_cons]
    rfl
  have late : x.2 + seconds 10 ≤ (s.start.upTo (x.2 + seconds 10)).now := Nat.le_max_right ..
  have begun : Dev.Keeps [4, 0x40] s.start (s.start.upTo (x.2 + seconds 10)) := .upTo .refl
  have settled : (s.start.upTo (x.2 + seconds 10)).Settled := .none h unstaged i
  have resets : (s.start.upTo (x.2 + seconds 10)).rd R.HBX_CTRL_RESETS = s.dev.rd R.HBX_CTRL_RESETS := rfl
  generalize s.start.upTo (x.2 + seconds 10) = d at act late begun settled resets
  obtain ⟨step, resetAt, aborts, state, counted⟩ := Dev.controllerReset_spec (d := d) k.isLt settled.staged
  generalize failDriveWrites (d.controllerReset k) k = f at act step resetAt aborts state counted
  obtain ⟨t, ht, q, only, now, drives, rd⟩ := driveStep_pump begun step settled
  refine ⟨_, exec_adminTimeout e (act.trans ht) q, only, ?_, ?_, ?_, ?_, ?_⟩
  · exact (congrArg HDrive.resetAt (drives k)).trans (resetAt.trans (congrArg some (now.trans step.now).symm))
  · exact (congrArg HDrive.aborts (drives k)).trans aborts
  · exact late.trans (le_of_eq (now.trans step.now).symm)
  · exact (rd _ fun c _ => Dev.driveState_ne_head k.isLt c).trans state
  · exact (rd R.HBX_CTRL_RESETS (by decide)).trans (counted.trans (by rw [resets]))

/-- Without a reset or an Abort outstanding there is no time-out. -/
theorem adminTimeout_none {k : Fin 4} (e : s.EnginesRun) (hr : (s.dev.hdrive k).resetAt = none) (ha : (s.dev.hdrive k).aborts = []) :
    exec (.ssdAdminTimeout k) s = .next (s.withDev s.start) := by
  have hr' : (s.start.hdrive k).resetAt = none := hr
  have ha' : (s.start.hdrive k).aborts = [] := ha
  refine exec_adminTimeout e ?_ rfl
  simp only [actAdminTimeout, hr', ha', List.head?_nil]

/-- A drive that reports ready is READY (R392, R393). -/
theorem driveReady_ready {k : Fin 4} (e : s.EnginesRun) (h : s.dev.hbx.cmds = []) (unstaged : s.dev.hbx.staged = [])
    (i : s.dev.RecordersIdle) (unavail : s.dev.driveState k = 2) (fw : s.dev.hbx.fw = none) :
    ∃ t, exec (.driveReady k) s = .next t ∧ s.Only [4, 0x40] t ∧ t.dev.driveState k = 1 := by
  have act := Dev.driveReady_eq (d := s.start) k.isLt unavail fw
  have step := Dev.driveStep_driveUp (d := s.start) k.isLt
  have ready := Dev.driveState_driveUp s.start k
  generalize s.start.driveUp k = d at act step ready
  obtain ⟨t, ht, q, only, -, -, rd⟩ := driveStep_pump .refl step (.none h unstaged i)
  exact ⟨_, (exec_driveReady k s).trans (runEngine_eq e (act.trans ht) q), only,
    (rd _ fun c _ => Dev.driveState_ne_head k.isLt c).trans ready⟩

/-- A drive that is not ready within 20 s of its Firmware Commit stays as it is (R392). -/
theorem activation_timesOut {tag k : Nat} {at_ : Time} (e : s.EnginesRun) (fw : s.dev.hbx.fw = some (tag, k, at_))
    (h : s.dev.hbx.cmds = []) :
    ∃ t, exec .driveActivationTimeout s = .next t ∧ s.Only [] t ∧ t.dev.hbx.fw = none ∧ at_ + seconds 20 ≤ t.dev.now := by
  have fw' : s.start.hbx.fw = some (tag, k, at_) := fw
  have act : actActivationTimeout s.start =
      (s.start.upTo (at_ + seconds 20)).hput { (s.start.upTo (at_ + seconds 20)).hbx with fw := none } := by
    unfold actActivationTimeout
    rw [fw']
    dsimp only
    split
    · next hc => cases hc.symm.trans (Dev.hcmdTag_none h tag)
    · rfl
  exact ⟨_, (exec_driveActivationTimeout s).trans (runEngine_eq e act rfl), State.only_withDev (.set_hbx (.upTo .refl)), rfl,
    Nat.le_max_right ..⟩

/-- The link of a drive changes width, and its state where the link leaves it (R369, Table 13-8). -/
theorem linkChange_shows {k : Fin 4} {w : Fin 5} (on : s.dev.off = false) (up : (s.dev.hdrive k).down = false) :
    ∃ t, exec (.pcieLinkChange k w) s = .next t ∧ s.Only [4, 0x40] t ∧
      (let width := if k.val < (pcieLinks s.dev).1 then Nat.min w (pcieLinks s.dev).2 else 0
       t.dev.rd (R.HBX_DRIVE_WIDTH k) = width % 2 ^ (R.HBX_DRIVE_WIDTH k).width ∧
         (width = 0 → s.dev.driveState k = 1 → t.dev.driveState k = 2) ∧
         (width ≠ 0 → t.dev.driveState k = s.dev.driveState k)) := by
  have up' : (s.start.hdrive k).down = false := up
  have step := Dev.driveStep_linkDrive (d := s.start) k.isLt w
  have state := Dev.driveState_linkDrive up' w
  have act : actPcieLink k w s.start = linkDrive s.start k w := rfl
  refine ⟨_, (exec_pcieLinkChange k w s).trans (run_eq on act step.keeps.wq), State.only_withDev step.keeps, ?_, fun zero ready => ?_, fun some_ => ?_⟩
  · exact Dev.rd_linkDrive_width up' w
  · have zero' : s.start.linkWidth k w = 0 := zero
    have ready' : s.start.driveState k = 1 := ready
    refine state.trans ?_
    rw [zero', Dev.leftByLink, if_pos (by simp [ready'])]
    exact Dev.driveState_setDrive _ _ (by decide)
  · have some' : s.start.linkWidth k w ≠ 0 := some_
    refine state.trans ?_
    rw [Dev.leftByLink, if_neg (by simp [some'])]
    rfl

end

namespace Dev

/-! The mount (R371, R374, R387). -/

theorem driveStep_mountDrive {d : Dev} {k : Nat} (hk : k < 4) (x : DriveInfo) : DriveStep d (mountDrive d k x) :=
  .ite (.wr (driveState_window hk) .refl)
    (.ite (driveStep_setDrive hk (.emit (.emit (.emit (.putDrive .refl))))) (driveStep_setDrive hk (.emit (.emit (.emit (.putDrive .refl))))))

/-- The drives as the mount finds them. -/
def drivesMounted (d : Dev) (ds : List DriveInfo) : Dev :=
  ds.zipIdx.foldl (fun d p => if p.2 < 4 then mountDrive d p.2 p.1 else d) d

theorem driveStep_drivesMounted (d : Dev) (ds : List DriveInfo) : DriveStep d (d.drivesMounted ds) := by
  refine .foldl (fun d p => ?_) _ .refl
  split
  · next h => exact driveStep_mountDrive h _
  · exact .refl

/-- LSN of the next record. -/
def lsnAfter (d : Dev) (recs : List CommitRec) : Nat := recs.foldl (fun n r => Nat.max n (r.lsn + 1)) d.hbx.lsn

theorem le_foldl_lsn (recs : List CommitRec) : ∀ n : Nat, n ≤ recs.foldl (fun n r => Nat.max n (r.lsn + 1)) n := by
  induction recs with
  | nil => exact fun n => le_refl n
  | cons r l ih => exact fun n => (Nat.le_max_left ..).trans (ih _)

/-- It lies above every record. -/
theorem lt_foldl_lsn {r : CommitRec} : ∀ {recs : List CommitRec}, r ∈ recs → ∀ n : Nat,
    r.lsn < recs.foldl (fun n r => Nat.max n (r.lsn + 1)) n
  | q :: l, m, n => by
    obtain rfl | m := List.mem_cons.mp m
    · exact Nat.lt_of_succ_le ((Nat.le_max_right n (r.lsn + 1)).trans (le_foldl_lsn l _))
    · exact lt_foldl_lsn m _

/-- The takes and records that the mount finds, and the mount's end. -/
def indexMounted (d : Dev) (recs : List CommitRec) (lsn : Nat) : Dev :=
  (d.hput { d.hbx with recs := recs, lsn := lsn, takes := (takesOf recs).map (closeDurable recs) }).wr R.HBX_STATUS_MOUNTED 1

theorem mount_eq {d : Dev} (ds : List DriveInfo) (pfail : d.pins.pfailN = true) (service : d.inService = true)
    (unmounted : d.rdb R.HBX_STATUS_MOUNTED = false) :
    actMount ds d = ((d.drivesMounted ds).indexMounted (rolled d ds) (d.lsnAfter (rolled d ds))).pump := by
  unfold actMount
  rw [pfail, service, unmounted]
  rfl

/-! FORMAT (Table 13-1). -/

/-- The superblocks of a drive. -/
def superblocks (n : Nat) (d : Dev) (k : Nat) : Dev :=
  [0, 1].foldl (fun d lba => d.emit (.superblock k lba d.hbx.storeSet k n Config.idxMib Config.jrnMib)) d

/-- Outputs alone have been added. -/
structure Emitted (d e : Dev) : Prop where
  rest : e = { d with out := e.out }
  out  : ∀ o ∈ d.out, o ∈ e.out

theorem Emitted.trans {c d e : Dev} (h : Emitted c d) (h' : Emitted d e) : Emitted c e :=
  ⟨h'.rest.trans (congrArg (fun x : Dev => { x with out := e.out }) h.rest), fun o m => h'.out o (h.out o m)⟩

theorem emitted_superblocks (n : Nat) (d : Dev) (k : Nat) : Emitted d (superblocks n d k) :=
  ⟨rfl, fun _ m => List.mem_cons_of_mem _ (List.mem_cons_of_mem _ m)⟩

theorem emitted_foldl (n : Nat) : ∀ (l : List Nat) (d : Dev), Emitted d (l.foldl (superblocks n) d)
  | [], _ => ⟨rfl, fun _ m => m⟩
  | k :: r, d => (emitted_superblocks n d k).trans (emitted_foldl n r _)

theorem out_superblocks (n : Nat) (d : Dev) (k : Nat) : (superblocks n d k).out =
    .superblock k 1 d.hbx.storeSet k n Config.idxMib Config.jrnMib :: .superblock k 0 d.hbx.storeSet k n Config.idxMib Config.jrnMib :: d.out := rfl

theorem storeSet_superblocks (n : Nat) (d : Dev) (k : Nat) : (superblocks n d k).hbx.storeSet = d.hbx.storeSet := rfl

theorem superblock_mem_superblocks (n : Nat) (d : Dev) (k : Nat) (lba : Fin 2) :
    Out.superblock k lba d.hbx.storeSet k n Config.idxMib Config.jrnMib ∈ (superblocks n d k).out := by
  rw [out_superblocks]
  match lba with
  | 0 => exact List.mem_cons_of_mem _ List.mem_cons_self
  | 1 => exact List.mem_cons_self

theorem superblock_mem_foldl (n : Nat) {k : Nat} (lba : Fin 2) {l : List Nat} (d : Dev) (m : k ∈ l) :
    Out.superblock k lba d.hbx.storeSet k n Config.idxMib Config.jrnMib ∈ (l.foldl (superblocks n) d).out := by
  induction l generalizing d with
  | nil => cases m
  | cons j r ih =>
    obtain rfl | m := List.mem_cons.mp m
    · exact (emitted_foldl n r _).out _ (superblock_mem_superblocks n d k lba)
    · have later := ih (superblocks n d j) m
      rwa [storeSet_superblocks] at later

/-- The drives of the store set. -/
def storeDrives (d : Dev) : List Nat := (List.range 4).filter fun k => bit (d.rd R.HBX_CFG_DRIVES) k

theorem format_live {d : Dev} (live : d.state = .live) (pfail : d.pins.pfailN = true) :
    actFormat d = d.storeDrives.foldl (superblocks d.storeDrives.length) d := by
  unfold actFormat
  rw [live, pfail]
  rfl

theorem format_notLive {d : Dev} (h : d.state ≠ .live) : actFormat d = d := by simp [actFormat, h]

/-! Power failure (R388). -/

/-- PFAIL_N is low, which is counted. -/
def pfailLow (d : Dev) : Dev := ({ d with pins := { d.pins with pfailN := false } } : Dev).cnt R.HBX_POWER_FAILS

/-- The commands that a power failure ends. -/
def failing (d : Dev) : List HCmd := d.hbx.cmds.filter fun c => uncompleted c && c.status != some 1

theorem pfailFall_eq {d : Dev} (h : d.pins.pfailN = true) :
    actPfailFall d = (d.failing.foldl (fun d c => d.overrule c.ser 8) d.pfailLow).pump := by
  unfold actPfailFall
  rw [h]
  rfl

end Dev

section
variable {s : State}

/-- The mount takes takes and records from the drives (R371, R374, R387). -/
theorem mount_takes {ds : List DriveInfo} (service : s.dev.inService = true) (pfail : s.dev.pins.pfailN = true)
    (unmounted : s.dev.rdb R.HBX_STATUS_MOUNTED = false) (h : s.dev.hbx.cmds = []) (unstaged : s.dev.hbx.staged = [])
    (i : s.dev.RecordersIdle) :
    ∃ t, exec (.hatboxMount ds) s = .next t ∧ s.Only [4, 0x40] t ∧ t.dev.rdb R.HBX_STATUS_MOUNTED = true ∧
      t.dev.hbx.recs = rolled s.dev ds ∧ t.dev.hbx.takes = (takesOf (rolled s.dev ds)).map (closeDurable (rolled s.dev ds)) ∧
      ∀ r ∈ rolled s.dev ds, r.lsn < t.dev.hbx.lsn := by
  have run : s.EnginesRun := ⟨Dev.inService_on service, fun y => by simp [Dev.inService, y] at service⟩
  have act := Dev.mount_eq (d := s.start) ds pfail service unmounted
  have same : rolled s.start ds = rolled s.dev ds := rfl
  rw [same] at act
  have step := Dev.driveStep_drivesMounted s.start ds
  have settled := step.settled (.none h unstaged i)
  generalize s.start.drivesMounted ds = d at act step settled
  have above (r : CommitRec) (m : r ∈ rolled s.dev ds) : r.lsn < s.start.lsnAfter (rolled s.dev ds) := Dev.lt_foldl_lsn m _
  generalize s.start.lsnAfter (rolled s.dev ds) = lsn at act above
  have indexed : Dev.Keeps [4, 0x40] s.start (d.indexMounted (rolled s.dev ds) lsn) := .wr (by decide) (.set_hbx step.keeps)
  have settled' : (d.indexMounted (rolled s.dev ds) lsn).Settled := ⟨settled.cmds, settled.staged, settled.idle⟩
  have heads := Dev.headsMoved_pump settled'
  generalize (d.indexMounted (rolled s.dev ds) lsn).pump = t at act heads
  refine ⟨s.withDev t, (exec_hatboxMount ds s).trans (runEngine_eq run act (heads.pumped.wq.trans indexed.wq)),
    State.only_withDev (indexed.trans (heads.pumped.keeps.wider (by decide))), ?_, heads.recs, heads.takes,
    fun r m => (above r m).trans_eq heads.lsn.symm⟩
  have mounted : t.rd R.HBX_STATUS_MOUNTED = 1 := (heads.rd_of_not_head (by decide)).trans (Dev.rd_wr_self ..)
  show (t.rd R.HBX_STATUS_MOUNTED != 0) = true
  rw [mounted]
  rfl

/-- FORMAT writes nothing in COLD and WARM (R23, R396). -/
theorem format_nothing (h : s.dev.state = .cold ∨ s.dev.state = .warm) :
    ∃ t, exec .format s = .next t ∧ s.Only [] t ∧ t.dev.out = s.dev.out := by
  have run : s.EnginesRun := by
    rcases h with h | h <;> exact ⟨Dev.on_of_state h (by decide), by rw [h]; decide⟩
  have act : actFormat s.start = s.start := Dev.format_notLive (by
    rcases h with h | h <;> rw [start_state, h] <;> decide)
  exact ⟨_, (exec_format s).trans (runEngine_eq run act rfl), State.only_withDev .refl, rfl⟩

/-- FORMAT writes the superblocks of every drive of the store set (Table 13-1). -/
theorem format_writes (live : s.dev.state = .live) (pfail : s.dev.pins.pfailN = true) :
    ∃ t, exec .format s = .next t ∧ s.Only [] t ∧ ∀ k : Fin 4, bit (s.dev.rd R.HBX_CFG_DRIVES) k = true →
      ∃ n, ∀ lba : Fin 2, Out.superblock k lba s.dev.hbx.storeSet k n Config.idxMib Config.jrnMib ∈ t.dev.out := by
  have run : s.EnginesRun := ⟨Dev.on_of_state live (by decide), by rw [live]; decide⟩
  have act := Dev.format_live (d := s.start) live pfail
  have rest := (Dev.emitted_foldl s.start.storeDrives.length s.start.storeDrives s.start).rest
  have keeps : Dev.Keeps [] s.start (s.start.storeDrives.foldl (Dev.superblocks s.start.storeDrives.length) s.start) := by
    rw [rest]
    exact .set_out .refl
  refine ⟨_, (exec_format s).trans (runEngine_eq run act keeps.wq), State.only_withDev keeps, fun k set =>
    ⟨s.start.storeDrives.length, fun lba => Dev.superblock_mem_foldl _ lba s.start ?_⟩⟩
  exact List.mem_filter.mpr ⟨List.mem_range.mpr k.isLt, set⟩

/-- PFAIL_N that falls ends every command that stands with POWER_FAIL (R388). -/
theorem pfailFall_ends (on : s.dev.off = false) (i : s.dev.RecordersIdle) (pfail : s.dev.pins.pfailN = true)
    (unstaged : s.dev.hbx.staged = []) :
    ∃ t, exec .pfailNFall s = .next t ∧ s.Only [0x40] t ∧ t.dev.pins.pfailN = false ∧ s.dev.Counted t.dev R.HBX_POWER_FAILS ∧
      ∀ c, s.dev.hbx.cmds = [c] → c.posted = false → c.status ≠ some 1 → ∃ x, t.dev.hbx.cmds = [x] ∧ x.status = some 8 := by
  have act := Dev.pfailFall_eq (d := s.start) pfail
  have low : Dev.Keeps [0x40] s.start s.start.pfailLow := .cnt (by decide) (.set_pins .refl)
  have counted : s.dev.Counted s.start.pfailLow R.HBX_POWER_FAILS := Dev.rd_cnt_self s.start R.HBX_POWER_FAILS
  have pins : s.start.pfailLow.pins.pfailN = false := rfl
  have idle : s.start.pfailLow.RecordersIdle := i
  have single (c : HCmd) (h : s.dev.hbx.cmds = [c]) : s.start.pfailLow.hbx.cmds = [c] := h
  have unstaged' : s.start.pfailLow.hbx.staged = [] := unstaged
  have alone (c : HCmd) (h : s.dev.hbx.cmds = [c]) (p : c.posted = false) (a : c.status ≠ some 1) : s.start.failing = [c] := by
    show s.dev.hbx.cmds.filter _ = [c]
    simp [h, Dev.uncompleted, p, a]
  generalize s.start.pfailLow = a at act low counted pins idle single unstaged'
  have ended : Dev.Pumped a (s.start.failing.foldl (fun d c => d.overrule c.ser 8) a) := .foldl (fun _ _ => .overrule .refl) _ .refl
  have all := ended.trans (Dev.pumped_pump (ended.idle idle))
  refine ⟨_, (exec_pfailNFall s).trans (run_eq on act (all.wq.trans low.wq)), State.only_withDev (low.trans all.keeps), ?_, ?_, ?_⟩
  · exact (congrArg Pins.pfailN all.pins).trans pins
  · exact (all.rd _ (by decide)).trans counted
  · intro c h p ab
    rw [alone c h p ab] at ended ⊢
    have hbx := Dev.overrule_hbx (single c h) unstaged' p 8
    have settled : (a.overrule c.ser 8).Settled :=
      .single (congrArg HbxPart.cmds hbx) rfl p ((congrArg HbxPart.staged hbx).trans unstaged') (ended.idle idle)
    exact ⟨_, (Dev.headsMoved_pump settled).cmds.trans (congrArg HbxPart.cmds hbx), rfl⟩

/-- PFAIL_N that rises (R388). -/
theorem pfailRise_goesOn (on : s.dev.off = false) (i : s.dev.RecordersIdle) (h : s.dev.hbx.cmds = []) (unstaged : s.dev.hbx.staged = []) :
    ∃ t, exec .pfailNRise s = .next t ∧ s.Only [0x40] t ∧ t.dev.pins.pfailN = true := by
  let d : Dev := { s.start with pins := { s.start.pins with pfailN := true } }
  have heads := Dev.headsMoved_pump (d := d) (.none h unstaged i)
  have act : actPfailRise s.start = d.pump := rfl
  have keeps : Dev.Keeps [0x40] s.start d := .set_pins .refl
  have pins : d.pins.pfailN = true := rfl
  generalize d.pump = t at act heads
  exact ⟨s.withDev t, (exec_pfailNRise s).trans (run_eq on act (heads.pumped.wq.trans keeps.wq)),
    State.only_withDev (keeps.trans heads.pumped.keeps), (congrArg Pins.pfailN heads.pumped.pins).trans pins⟩

end

/-- Settles O42, a lemma for each control and each failure of the recording store. -/
theorem hatboxControlAndFailures : Obligations.HatboxControlAndFailures := by
  unfold Obligations.HatboxControlAndFailures
  refine ⟨fun s c cid hb => ⟨fun x h hc hid p op unstaged i => abort_ends hb h hc hid p op unstaged i, fun none_ empty => abort_says hb none_ empty⟩,
    fun s c hb h unstaged i => reset_empties hb h unstaged i,
    fun s tag c e h ht o p op unstaged i => cmdTimeout_ends tag c e h ht o p op unstaged i,
    fun s k e h unstaged i => ⟨fun at_ hr => adminTimeout_fails e h unstaged i hr, fun x rest hr ha => adminTimeout_resets e h unstaged i hr ha,
      fun hr ha => adminTimeout_none e hr ha, fun unavail fw => driveReady_ready e h unstaged i unavail fw⟩,
    fun s tag k at_ e fw h => activation_timesOut e fw h,
    fun s ds service pfail unmounted h unstaged i => mount_takes service pfail unmounted h unstaged i,
    fun s h => format_nothing h, fun s live pfail => format_writes live pfail,
    fun s k w on => ⟨fun down => (exec_pcieLinkChange k w s).trans (run_eq on (Dev.linkDrive_down (d := s.start) down w) rfl),
      fun up => linkChange_shows on up⟩,
    fun s on i => ⟨fun pfail unstaged => pfailFall_ends on i pfail unstaged, fun h unstaged => pfailRise_goesOn on i h unstaged⟩⟩

end Sys2Proof.Machine
end

section
/-!
PROOFS. The event log: an entry is taken by ERR, committed to the ring and copied to DRAM (R524 to R527); a DRAM write that meets no
uncorrectable error; a register access of the test port (R555).
-/

namespace Sys2Proof.Machine

namespace Memory

/-- The bytes of a range written read as written. -/
theorem bytes_writes {m : List Host.Cell} (w : wf m = true) (a : Nat) (bs : List Byte) : bytes (writes m a bs) a bs.length = bs := by
  refine List.ext_getElem (by simp [bytes]) fun i _ h => ?_
  simpa [bytes] using read_writes_inside bs a i w h

end Memory

namespace Dev

/-! A DRAM write. -/

/-- The command in hand has a write of bytes to perform. -/
def writing (d : Dev) (a : Nat) (bs : List Byte) : Dev := { d with wq := d.wq ++ [.write a bs] }

/-- A write within the usable capacity is performed as it stands where no unit holds an uncorrectable error (R482, R492). -/
theorem memWrite_clean {d : Dev} {a : Nat} {bs : List Byte} (clean : d.poison = []) (fits : a + bs.length ≤ d.dramC) :
    d.memWrite a bs = d.writing a bs := by
  simp [memWrite, memWriteIn, writing, fits, clean]

/-! An entry arises (R525, R526). -/

/-- The source of an entry has dropped none, and ERR has room for the entry. -/
def HasRoom (d : Dev) (source : Nat) : Prop :=
  ∀ x ∈ d.elog.sources, x.source = source → x.gap = 0 ∧ x.free < d.now + 4 * fabCycle

/-- ERR holds one entry more, and its sources stand as l. -/
def holding (d : Dev) (e : LogEntry) (l : List LogSource) : Dev :=
  { d with elog := { d.elog with held := d.elog.held ++ [e], sources := l } }

/-- ERR holds an entry whose source has room. -/
theorem logEntry_held {d : Dev} {e : LogEntry} (room : d.HasRoom e.source) : ∃ l, d.logEntry e = d.holding e l := by
  have free : ∀ x, (d.elog.sources.find? fun x => x.source = e.source).getD ⟨e.source, 0, 0⟩ = x →
      x.gap = 0 ∧ x.free < d.now + 4 * fabCycle := by
    rintro x rfl
    cases found : d.elog.sources.find? fun x => x.source = e.source with
    | none => exact ⟨rfl, by simp [fabCycle]⟩
    | some y => exact room y (List.mem_of_find?_eq_some found) (by simpa using List.find?_some found)
  obtain ⟨gap, now⟩ := free _ rfl
  unfold logEntry
  dsimp only
  rw [if_neg (Nat.not_le.mpr now), if_pos gap, List.append_nil]
  exact ⟨_, rfl⟩

/-! An entry is committed (R524, R525, R527). -/

/-- The entry that leaves the ring before its copy has been written is lost from the DRAM ring (R527). -/
def passUncopied (d : Dev) : Dev := match (d.elog.ring.drop 255).head? with
  | some (q, _) => if d.rdb R.ERR_CTRL_DRAM_EN && d.rd R.ERR_DRAM_SEQ = q then (d.cnt R.ERR_NOT_COPIED).cntWrap R.ERR_DRAM_SEQ else d
  | none => d

/-- A fatal entry is counted. -/
def countFatal (d : Dev) (e : LogEntry) : Dev := if e.cls = 5 then d.cnt R.ERR_FATAL else d

/-- The ring takes an entry. -/
def ringTake (d : Dev) (s : Nat) (e : LogEntry) : Dev :=
  { d with elog := { d.elog with ring := (s, e) :: d.elog.ring.take 255 } }

theorem ringPut_eq (d : Dev) (e : LogEntry) :
    d.ringPut e = ((d.passUncopied.ringTake (d.rd R.ERR_WR_SEQ) e).cntWrap R.ERR_WR_SEQ).countFatal e := rfl

theorem passUncopied_eq (d : Dev) : d.passUncopied = d ∨ d.passUncopied = (d.cnt R.ERR_NOT_COPIED).cntWrap R.ERR_DRAM_SEQ := by
  unfold passUncopied
  split
  · split
    · exact .inr rfl
    · exact .inl rfl
  · exact .inl rfl

theorem passUncopied_lost {d : Dev} {q : Nat} {x : LogEntry} (oldest : d.elog.ring[255]? = some (q, x))
    (en : d.rdb R.ERR_CTRL_DRAM_EN = true) (due : d.rd R.ERR_DRAM_SEQ = q) :
    d.passUncopied = (d.cnt R.ERR_NOT_COPIED).cntWrap R.ERR_DRAM_SEQ := by
  simp [passUncopied, List.head?_drop, oldest, en, due]

theorem passUncopied_elog (d : Dev) : d.passUncopied.elog = d.elog := by
  rcases d.passUncopied_eq with e | e
  · rw [e]
  · rw [e]; rfl

theorem passUncopied_now (d : Dev) : d.passUncopied.now = d.now := by
  rcases d.passUncopied_eq with e | e
  · rw [e]
  · rw [e]; rfl

theorem rd_passUncopied (d : Dev) {f : Fld} (n : f.key ≠ R.ERR_NOT_COPIED.key) (n' : f.key ≠ R.ERR_DRAM_SEQ.key) :
    d.passUncopied.rd f = d.rd f := by
  rcases d.passUncopied_eq with e | e <;> rw [e]
  rw [rd_cntWrap_ne _ _ _ n', rd_cnt_ne _ _ _ n]

theorem keeps_passUncopied (d : Dev) : Keeps [4] d d.passUncopied := by
  rcases d.passUncopied_eq with e | e <;> rw [e]
  · exact .refl
  · exact .cntWrap (by decide) (.cnt (by decide) .refl)

theorem keeps_ringPut (d : Dev) (e : LogEntry) : Keeps [4] d (d.ringPut e) :=
  have took : Keeps [4] d ((d.passUncopied.ringTake (d.rd R.ERR_WR_SEQ) e).cntWrap R.ERR_WR_SEQ) :=
    .cntWrap (by decide) (.set_elog d.keeps_passUncopied)
  .ite (.cnt (by decide) took) took

theorem ringPut_elog (d : Dev) (e : LogEntry) :
    (d.ringPut e).elog = { d.elog with ring := (d.rd R.ERR_WR_SEQ, e) :: d.elog.ring.take 255 } := by
  have took : ((d.passUncopied.ringTake (d.rd R.ERR_WR_SEQ) e).cntWrap R.ERR_WR_SEQ).elog =
      { d.elog with ring := (d.rd R.ERR_WR_SEQ, e) :: d.elog.ring.take 255 } := by
    rw [← d.passUncopied_elog]; rfl
  rw [ringPut_eq, countFatal]
  split
  · exact took
  · exact took

theorem ringPut_now (d : Dev) (e : LogEntry) : (d.ringPut e).now = d.now := by
  rw [ringPut_eq, countFatal]
  split <;> exact d.passUncopied_now

/-- Of the registers that a commit does not count in, the ring's new entry changes none. -/
theorem rd_ringPut (d : Dev) (e : LogEntry) {f : Fld} (n : f.key ≠ R.ERR_FATAL.key) (n' : f.key ≠ R.ERR_WR_SEQ.key) :
    (d.ringPut e).rd f = d.passUncopied.rd f := by
  have took : ((d.passUncopied.ringTake (d.rd R.ERR_WR_SEQ) e).cntWrap R.ERR_WR_SEQ).rd f = d.passUncopied.rd f :=
    rd_cntWrap_ne _ _ _ n'
  rw [ringPut_eq, countFatal]
  split
  · exact (rd_cnt_ne _ _ _ n).trans took
  · exact took

theorem rd_ringPut_wrSeq (d : Dev) (e : LogEntry) : (d.ringPut e).rd R.ERR_WR_SEQ = (d.rd R.ERR_WR_SEQ + 1) % 2 ^ 32 := by
  have took : ((d.passUncopied.ringTake (d.rd R.ERR_WR_SEQ) e).cntWrap R.ERR_WR_SEQ).rd R.ERR_WR_SEQ =
      (d.rd R.ERR_WR_SEQ + 1) % 2 ^ 32 := by
    rw [rd_cntWrap_self, ← d.rd_passUncopied (f := R.ERR_WR_SEQ) (by decide) (by decide)]
    rfl
  rw [ringPut_eq, countFatal]
  split
  · exact (rd_cnt_ne _ _ _ (by decide)).trans took
  · exact took

theorem ringPut_fatal (d : Dev) (e : LogEntry) :
    if e.cls = 5 then d.Counted (d.ringPut e) R.ERR_FATAL else (d.ringPut e).rd R.ERR_FATAL = d.rd R.ERR_FATAL := by
  have took : ((d.passUncopied.ringTake (d.rd R.ERR_WR_SEQ) e).cntWrap R.ERR_WR_SEQ).rd R.ERR_FATAL = d.rd R.ERR_FATAL :=
    (rd_cntWrap_ne _ _ _ (by decide)).trans (d.rd_passUncopied (by decide) (by decide))
  rw [ringPut_eq, countFatal]
  split
  · rw [Counted, rd_cnt_self, took]
  · exact took

theorem ringPut_lost {d : Dev} {q : Nat} {x : LogEntry} (oldest : d.elog.ring[255]? = some (q, x))
    (en : d.rdb R.ERR_CTRL_DRAM_EN = true) (due : d.rd R.ERR_DRAM_SEQ = q) (e : LogEntry) :
    d.Counted (d.ringPut e) R.ERR_NOT_COPIED ∧ (d.ringPut e).rd R.ERR_DRAM_SEQ = (q + 1) % 2 ^ 32 := by
  rw [Counted, rd_ringPut _ _ (by decide) (by decide), rd_ringPut _ _ (by decide) (by decide), passUncopied_lost oldest en due]
  refine ⟨?_, ?_⟩
  · rw [rd_cntWrap_ne _ _ _ (by decide), rd_cnt_self]
  · rw [rd_cntWrap_self, rd_cnt_ne _ _ _ (by decide), due]
    rfl

/-! The test port (R555). -/

/-- The test port selects an instruction. -/
def selecting (d : Dev) (code : Nat) : Dev := { d with pins := { d.pins with testInstr := code } }

/-- The access that REGACC makes, in test mode only. -/
def testAccess (m : List Host.Cell) (a : Nat) (w : Option Nat) (d : Dev) : Dev :=
  if !d.boot.tmode then d else
  match w with
  | some v => d.access a (some v) fun d => ((d.busWrite m a v).1, 0, (d.busWrite m a v).2)
  | none => d.access a none (Dev.busRead a)

theorem testAccess_waits {d : Dev} {a : Nat} (test : d.boot.tmode = true) (free : d.clk.wait = none) (stopped : d.accessStopped a = true)
    (m : List Host.Cell) (v : Nat) :
    d.testAccess m a (some v) = { d with clk := { d.clk with wait := some ⟨a, true, v, .word, d.now, false⟩ } } := by
  simp [testAccess, access, test, free, stopped]

end Dev

theorem length_encode (e : LogEntry) : e.encode.length = 16 := by simp [LogEntry.encode]

/-! The commands. -/

section
variable {s : State}

/-- A command whose one DRAM write is known performs it as it ends. -/
theorem settle_mem_of_wq {d : Dev} {a : Nat} {bs : List Byte} (q : d.wq = [.write a bs]) :
    (settle s d).mem = Memory.writes s.mem a bs := by
  rw [settle, q]
  rfl

theorem logEntryArise_held {source inst : Byte} {cls : Fin 8} {event : BitVec 13} {detail : Word} {episode : Fin 4}
    (on : s.dev.off = false) (room : s.dev.HasRoom source.toNat) :
    ∃ t, exec (.logEntryArise source inst cls event detail episode) s = .next t ∧ s.Only [] t ∧
      t.dev.elog.held = s.dev.elog.held ++
        [⟨s.dev.stc, s.dev.now, source.toNat, inst.toNat, cls, event.toNat, detail.toNat, episode, none⟩] ∧
      t.dev.elog.ring = s.dev.elog.ring := by
  let e : LogEntry := ⟨s.dev.stc, s.dev.now, source.toNat, inst.toNat, cls, event.toNat, detail.toNat, episode, none⟩
  obtain ⟨l, held⟩ := Dev.logEntry_held (d := s.start) (e := e) room
  have act : s.start.log source.toNat inst.toNat cls event.toNat detail.toNat episode = s.start.holding e l := by
    rw [Dev.log, Nat.mod_eq_of_lt detail.isLt]
    exact held
  have ran : exec (.logEntryArise source inst cls event detail episode) s = .next (s.withDev (s.start.holding e l)) := by
    rw [exec_logEntryArise, run_on on, act, settle_quiet rfl]
  exact ⟨_, ran, State.only_withDev (.set_elog .refl), rfl, rfl⟩

/-- The one held entry is committed 2 µs after it arose. -/
theorem logCommit_puts {e : LogEntry} (on : s.dev.off = false) (held : s.dev.elog.held = [e]) :
    ∃ t, exec .logCommit s = .next t ∧ s.Only [4] t ∧ t.dev.elog.held = [] ∧ e.born + micros 2 ≤ t.dev.now ∧
      t.dev.elog.ring = (s.dev.rd R.ERR_WR_SEQ, e) :: s.dev.elog.ring.take 255 ∧
      t.dev.rd R.ERR_WR_SEQ = (s.dev.rd R.ERR_WR_SEQ + 1) % 2 ^ 32 ∧
      (if e.cls = 5 then s.dev.Counted t.dev R.ERR_FATAL else t.dev.rd R.ERR_FATAL = s.dev.rd R.ERR_FATAL) ∧
      (∀ q x, s.dev.elog.ring[255]? = some (q, x) → s.dev.rdb R.ERR_CTRL_DRAM_EN = true → s.dev.rd R.ERR_DRAM_SEQ = q →
        s.dev.Counted t.dev R.ERR_NOT_COPIED ∧ t.dev.rd R.ERR_DRAM_SEQ = (q + 1) % 2 ^ 32) := by
  let d : Dev := { s.start.upTo (e.born + micros 2) with elog := { s.dev.elog with held := [] } }
  have act : actLogCommit s.start = d.ringPut e := by
    rw [actLogCommit, show s.start.elog.held = [e] from held]
    rfl
  have keeps : Dev.Keeps [4] s.start (d.ringPut e) := Dev.Keeps.trans (.set_elog (.upTo .refl)) (d.keeps_ringPut e)
  have elog := d.ringPut_elog e
  have ran : exec .logCommit s = .next (s.withDev (d.ringPut e)) := by
    rw [exec_logCommit, run_on on, act, settle_quiet keeps.wq]
  have seq : (d.ringPut e).rd R.ERR_WR_SEQ = (s.dev.rd R.ERR_WR_SEQ + 1) % 2 ^ 32 := d.rd_ringPut_wrSeq e
  have fatal := d.ringPut_fatal e
  refine ⟨_, ran, State.only_withDev keeps, ?_, ?_, ?_, seq, ?_, ?_⟩
  · exact congrArg LogPart.held elog
  · exact (Nat.le_max_right _ _).trans_eq (d.ringPut_now e).symm
  · exact congrArg LogPart.ring elog
  · exact fatal
  · exact fun q x oldest en due => Dev.ringPut_lost (d := d) oldest en due e

/-- The DRAM ring takes nothing while DRAM_EN is 0, nor where the next entry is not in the on-chip ring. -/
theorem logDramCopy_nothing (on : s.dev.off = false)
    (h : s.dev.rdb R.ERR_CTRL_DRAM_EN = false ∨ s.dev.ringEntry (s.dev.rd R.ERR_DRAM_SEQ) = none) :
    exec .logDramCopy s = .next (s.withDev s.start) := by
  have act : actLogCopy s.start = s.start := by
    rw [actLogCopy]
    rcases h with h | h
    · rw [show s.start.rdb R.ERR_CTRL_DRAM_EN = false from h]
      rfl
    · rw [show s.start.ringEntry (s.start.rd R.ERR_DRAM_SEQ) = none from h, ite_self]
  rw [exec_logDramCopy, run_on on, act, settle_quiet rfl]

/-- The next entry is copied to its place in the DRAM ring. -/
theorem logDramCopy_copies {e : LogEntry} (on : s.dev.off = false) (sound : s.Sound) (clean : s.dev.poison = [])
    (en : s.dev.rdb R.ERR_CTRL_DRAM_EN = true) (next : s.dev.ringEntry (s.dev.rd R.ERR_DRAM_SEQ) = some e) {a : Nat}
    (place : s.dev.rdPair R.ERR_DRAM_BASE_LO R.ERR_DRAM_BASE_HI + 16 * (s.dev.rd R.ERR_DRAM_SEQ % 65536) = a)
    (fits : a + 16 ≤ s.dev.dramC) :
    ∃ t, exec .logDramCopy s = .next t ∧ t.pending = s.pending ∧ s.dev.SameBut [R.ERR_DRAM_SEQ.key] t.dev ∧
      t.dev.rd R.ERR_DRAM_SEQ = (s.dev.rd R.ERR_DRAM_SEQ + 1) % 2 ^ 32 ∧ Memory.bytes t.mem a 16 = e.encode ∧
      ∀ y, y < a ∨ a + 16 ≤ y → Memory.read t.mem y = Memory.read s.mem y := by
  have len := length_encode e
  have mem : (settle s ((s.start.writing a e.encode).cntWrap R.ERR_DRAM_SEQ)).mem = Memory.writes s.mem a e.encode :=
    settle_mem_of_wq rfl
  have act : actLogCopy s.start = (s.start.writing a e.encode).cntWrap R.ERR_DRAM_SEQ := by
    rw [actLogCopy, show s.start.rdb R.ERR_CTRL_DRAM_EN = true from en, if_pos rfl,
      show s.start.ringEntry (s.start.rd R.ERR_DRAM_SEQ) = some e from next,
      ← Dev.memWrite_clean (d := s.start) clean (by rwa [len]), ← place]
    rfl
  have ran : exec .logDramCopy s = .next (settle s ((s.start.writing a e.encode).cntWrap R.ERR_DRAM_SEQ)) := by
    rw [exec_logDramCopy, run_on on, act]
  refine ⟨_, ran, settle_pending _ _, ?_, ?_, ?_, ?_⟩
  · exact fun f n => Dev.rd_cntWrap_ne (s.start.writing a e.encode) _ f fun c => n (List.mem_singleton.mpr c)
  · exact Dev.rd_cntWrap_self (s.start.writing a e.encode) R.ERR_DRAM_SEQ
  · rw [mem, ← len]
    exact Memory.bytes_writes sound a e.encode
  · intro y out
    rw [mem]
    exact Memory.read_writes_outside e.encode a y sound (by rwa [len])

theorem exec_regacc (on : s.dev.off = false) (a : Nat) (w : Option Nat) :
    exec (.testPortInstruction (.regacc a w)) s = .next (settle s ((s.start.selecting 7).testAccess s.mem a w)) :=
  (exec_testPortInstruction (.regacc a w) s).trans (run_on on _)

/-- Outside test mode REGACC is selected and makes no access (R555). -/
theorem regacc_outsideTest (on : s.dev.off = false) (a : Nat) (w : Option Nat) (normal : s.dev.boot.tmode = false) :
    exec (.testPortInstruction (.regacc a w)) s = .next (s.withDev (s.start.selecting 7)) := by
  have idle : (s.start.selecting 7).testAccess s.mem a w = s.start.selecting 7 := if_pos (by rw [Bool.not_eq_true']; exact normal)
  rw [exec_regacc on, idle, settle_quiet rfl]

/-- In test mode a REGACC write into a stopped domain waits on the bus (R56, R60, R555). -/
theorem regacc_waits (on : s.dev.off = false) (a v : Nat) (test : s.dev.boot.tmode = true) (free : s.dev.clk.wait = none)
    (stopped : s.dev.accessStopped a = true) :
    exec (.testPortInstruction (.regacc a (some v))) s = .next (s.withDev { s.start with
      pins := { s.start.pins with testInstr := 7 }, clk := { s.start.clk with wait := some ⟨a, true, v, .word, s.dev.now, false⟩ } }) := by
  have waits := Dev.testAccess_waits (d := s.start.selecting 7) test free stopped s.mem v
  rw [exec_regacc on, waits, settle_quiet rfl]
  rfl

theorem extest_selected (on : s.dev.off = false) :
    exec (.testPortInstruction .extest) s = .next (s.withDev (s.start.selecting (if s.dev.boot.tmode then 4 else 0))) :=
  ((exec_testPortInstruction .extest s).trans (run_on on _)).trans (congrArg _ (settle_quiet rfl))


end

/-- Settles O58, a lemma for each step of an entry's way and for each case of the test port. -/
theorem logEntriesAreCommittedAndCopied : Obligations.LogEntriesAreCommittedAndCopied := by
  unfold Obligations.LogEntriesAreCommittedAndCopied
  exact ⟨fun s source inst cls event detail episode on room => logEntryArise_held on room, fun s e on held => logCommit_puts on held,
    fun s on => ⟨logDramCopy_nothing on, fun e sound clean en next fits => logDramCopy_copies on sound clean en next rfl fits⟩,
    fun s on => ⟨fun a w normal => regacc_outsideTest on a w normal, fun a v test free stopped => regacc_waits on a v test free stopped,
      extest_selected on⟩⟩

end Sys2Proof.Machine
end

section
/-!
PROOFS. Thermal readings, the trip and SRAM scrubbing: what a yield, a change of band, a stop of runs and a drift check spare of the
thermal block, of the corrected-error counts and of the time.
-/

namespace Sys2Proof.Machine

namespace Dev

/-! What an operation spares. -/

/-- e stands where d stands in OFF, in whether readings have been taken, in the corrected-error counts, in the time, and in every register
whose key K names. -/
structure Spares (K : Nat → Bool) (d e : Dev) : Prop where
  off  : e.off = d.off
  read : e.thm.read = d.thm.read
  sram : e.sram = d.sram
  now  : e.now = d.now
  rd   : ∀ f : Fld, K f.key = true → e.rd f = d.rd f

namespace Spares

variable {K : Nat → Bool} {c d e : Dev}

theorem refl : Spares K d d := ⟨rfl, rfl, rfl, rfl, fun _ _ => rfl⟩

theorem trans (h : Spares K c d) (h' : Spares K d e) : Spares K c e :=
  ⟨h'.off.trans h.off, h'.read.trans h.read, h'.sram.trans h.sram, h'.now.trans h.now, fun f k => (h'.rd f k).trans (h.rd f k)⟩

theorem mono {L : Nat → Bool} (h : Spares K d e) (sub : ∀ k, L k = true → K k = true) : Spares L d e :=
  ⟨h.off, h.read, h.sram, h.now, fun f k => h.rd f (sub _ k)⟩

theorem wr {f : Fld} {v : Nat} (n : K f.key = false) (h : Spares K d e) : Spares K d (e.wr f v) :=
  ⟨h.off, h.read, h.sram, h.now, fun g k => (rd_wr_ne e f g v fun c => by rw [c, n] at k; exact Bool.false_ne_true k).trans (h.rd g k)⟩

theorem wrb {f : Fld} {v : Bool} (n : K f.key = false) (h : Spares K d e) : Spares K d (e.wrb f v) := h.wr n
theorem addCnt {f : Fld} {v : Nat} (n : K f.key = false) (h : Spares K d e) : Spares K d (e.addCnt f v) := h.wr n
theorem cnt {f : Fld} (n : K f.key = false) (h : Spares K d e) : Spares K d (e.cnt f) := h.wr n
theorem cntWrap {f : Fld} (n : K f.key = false) (h : Spares K d e) : Spares K d (e.cntWrap f) := h.wr n
theorem wrPair {f g : Fld} {v : Nat} (n : K f.key = false) (n' : K g.key = false) (h : Spares K d e) : Spares K d (e.wrPair f g v) :=
  (h.wr n).wr n'

/-- A change of parts that hold neither registers nor what is spared. -/
theorem parts {e' : Dev} (h : Spares K d e) (off : e'.off = e.off) (read : e'.thm.read = e.thm.read) (sram : e'.sram = e.sram)
    (now : e'.now = e.now) (regs : e'.regs = e.regs) : Spares K d e' :=
  ⟨off.trans h.off, read.trans h.read, sram.trans h.sram, now.trans h.now,
    fun f k => (congrArg (fun r => (SMap.find? r f.key).getD f.reset) regs).trans (h.rd f k)⟩

theorem setCalib {x : CalibPart} (h : Spares K d e) : Spares K d { e with calib := x } := h.parts rfl rfl rfl rfl rfl
theorem emit {o : Out} (h : Spares K d e) : Spares K d (e.emit o) := h.parts rfl rfl rfl rfl rfl
theorem drawn (h : Spares K d e) : Spares K d e.drawn := h.parts rfl rfl rfl rfl rfl

theorem log {s i c k x p : Nat} (n : K R.ERR_DROPPED.key = false) (h : Spares K d e) : Spares K d (e.log s i c k x p) :=
  ⟨(log_off ..).trans h.off, (congrArg ThmPart.read (log_thm ..)).trans h.read, (log_sram ..).trans h.sram, (log_now ..).trans h.now,
    fun g k => (rd_log _ _ _ _ _ _ _ _ fun c => by rw [c, n] at k; exact Bool.false_ne_true k).trans (h.rd g k)⟩

theorem ite {p : Prop} [Decidable p] {a b : Dev} (ha : Spares K d a) (hb : Spares K d b) : Spares K d (if p then a else b) := by
  split
  · exact ha
  · exact hb

theorem foldl_mem {α : Type} {f : Dev → α → Dev} : ∀ (l : List α) {e : Dev}, (∀ x, ∀ a ∈ l, Spares K x (f x a)) → Spares K d e →
    Spares K d (l.foldl f e)
  | [], _, _, h => h
  | a :: r, _, k, h => foldl_mem r (fun x b m => k x b (List.mem_cons_of_mem _ m)) (h.trans (k _ a List.mem_cons_self))

theorem foldl {α : Type} {f : Dev → α → Dev} (k : ∀ x a, Spares K x (f x a)) (l : List α) (h : Spares K d e) : Spares K d (l.foldl f e) :=
  foldl_mem l (fun x a _ => k x a) h

theorem flag {i c : Nat} {f : Fld} {l v : Bool} (n : K R.ERR_DROPPED.key = false) (n' : K f.key = false) (h : Spares K d e) :
    Spares K d (e.flag i f c l v) :=
  ite h (ite (log n (h.wrb n')) (ite (log n (h.wrb n')) (h.wrb n')))

theorem setState {st : DevState} (n : K R.ERR_DROPPED.key = false) (n' : K R.TOP_STATE.key = false) (n'' : K R.TOP_STATE_CHANGES.key = false)
    (h : Spares K d e) : Spares K d (e.setState st) := ite h (log n (cntWrap n'' (wr n' h)))

/-- The state stays with its field. -/
theorem state (h : Spares K d e) (k : K R.TOP_STATE.key = true) : e.state = d.state := by
  simp only [Dev.state, h.off, h.rd _ k]

theorem inService (h : Spares K d e) (k : K R.TOP_STATE.key = true) : e.inService = d.inService := by
  simp only [Dev.inService, h.state k]

theorem rdb (h : Spares K d e) {f : Fld} (k : K f.key = true) : e.rdb f = d.rdb f := by simp only [Dev.rdb, h.rd f k]

end Spares

/-! The keys that are spared. -/

/-- A field of THM. -/
def thmKey (k : Nat) : Bool := decide (k / 524288 = 3)

/-- A field of a block whose window comes before the camera ports'. -/
def lowKey (k : Nat) : Bool := decide (k < 8388608)

theorem thmKey_eq_false {k : Nat} (h : k / 524288 ≠ 3) : thmKey k = false := decide_eq_false h

theorem lowKey_eq_false {k : Nat} (h : 8388608 ≤ k) : lowKey k = false := decide_eq_false (Nat.not_lt.mpr h)

theorem lowKey_of_thmKey (k : Nat) (h : thmKey k = true) : lowKey k = true := by
  simp only [thmKey, lowKey, decide_eq_true_eq] at h ⊢
  omega

/-! CALM and yield (R536 to R539, R342). -/

theorem spares_latchBank (d : Dev) (w : Nat) : Spares thmKey d (d.latchBank w) :=
  .ite (.cnt (by decide) (Spares.refl.parts rfl rfl rfl rfl rfl)) (Spares.refl.parts rfl rfl rfl rfl rfl)

theorem spares_latchAll (d : Dev) (src : Nat) : Spares thmKey d (d.latchAll src) :=
  .log (by decide) (.wr (by decide) (.wrPair (by decide) (by decide) (.wrPair (by decide) (by decide) (.wr (by decide)
    (.cntWrap (by decide) (.foldl spares_latchBank _ .refl))))))

theorem spares_calmMark (d : Dev) (src : Nat) : Spares thmKey d (d.calmMark src) :=
  .ite (.emit (Spares.refl.parts rfl rfl rfl rfl rfl)) (Spares.refl.parts rfl rfl rfl rfl rfl)

theorem spares_putSnap (d : Dev) (x : SnapPart) : Spares thmKey d (d.putSnap x) := Spares.refl.parts rfl rfl rfl rfl rfl

theorem spares_calmLatch (d : Dev) (src : Nat) : Spares thmKey d (d.calmLatch src) :=
  have latched := (spares_putSnap d { d.snap with before := d.snap.banks, latchedAt := some d.now }).trans (spares_latchAll _ src)
  .ite (latched.trans (spares_putSnap _ _)) latched

theorem spares_calm (d : Dev) (src : Nat) : Spares thmKey d (d.calm src) := by
  have counted : Spares thmKey d (d.cnt R.SNAP_TRIGGERS) := .cnt (by decide) .refl
  have marked := counted.trans (spares_calmMark _ src)
  exact .ite (.cnt (by decide) counted) (.ite (.cnt (by decide) marked) (marked.trans (spares_calmLatch _ src)))

theorem spares_yieldSay (d : Dev) (r : Nat) : Spares thmKey d (d.yieldSay r) := by
  have words : Spares thmKey d (d.yieldWords r) :=
    .emit (.ite (.emit (Spares.refl.parts rfl rfl rfl rfl rfl)) (Spares.refl.parts rfl rfl rfl rfl rfl))
  exact .trans (.log (by decide) (.wr (by decide) words)) (spares_calm _ 3)

/-- The octets' requests for idle write the lanes' registers (R316). -/
theorem spares_idleAll (d : Dev) : Spares lowKey d d.idleAll := by
  obtain ⟨r, l, e⟩ := idleAll_frame d
  refine ⟨by rw [e], by rw [e], by rw [e], by rw [e], fun f k => (keeps_idleAll d).rd f fun m => ?_⟩
  have lane : ∀ w ∈ laneWins, 16 ≤ w := by decide
  have := lane _ m
  simp only [lowKey, decide_eq_true_eq] at k
  omega

theorem spares_stopScan (d : Dev) : Spares thmKey d d.stopScan := by
  refine .wr (by decide) (.wr (by decide) (.foldl_mem _ (fun x n m => ?_) (Spares.refl.parts rfl rfl rfl rfl rfl)))
  have : n < 2 := List.mem_range.mp m
  exact .flag (by decide) (thmKey_eq_false (by simp only [R.SCN_STATUS_UNDER_EP]; omega)) .refl

theorem spares_drops (d : Dev) : Spares thmKey d d.dropTiles.dropSegs := Spares.refl.parts rfl rfl rfl rfl rfl

theorem spares_leaveWall (d : Dev) : Spares thmKey d d.leaveWall := by
  have idle : Spares thmKey d d.stopScan.idleAll := (spares_stopScan d).trans ((spares_idleAll _).mono lowKey_of_thmKey)
  exact .wrb (by decide) (.wrb (by decide) (.flag (by decide) (by decide) (idle.trans (spares_drops _))))

theorem spares_hvcClosed (d : Dev) {s : Nat} (h : s < 32) : Spares thmKey d (d.hvcClosed s) := by
  have closed : Spares thmKey d ((d.hvcRelease s).putHs s HSession.reset) := Spares.refl.parts rfl rfl rfl rfl rfl
  exact .wr (by decide) (.wr (by decide) (.wr (thmKey_eq_false (by simp only [R.HVC_S_STATUS_MIRROR_WAIT]; omega))
    (.wr (thmKey_eq_false (by simp only [R.HVC_S_CTRL_OPEN]; omega)) (closed.parts rfl rfl rfl rfl rfl))))

theorem spares_hvcStop (d : Dev) : Spares thmKey d d.hvcStop :=
  .foldl_mem _ (fun x _ m => .ite (spares_hvcClosed x (List.mem_range.mp m)) .refl) .refl

theorem spares_yieldHold (d : Dev) : Spares thmKey d d.yieldHold := Spares.refl.parts rfl rfl rfl rfl rfl

/-- A yield leaves THM's registers, the corrected-error counts and the time alone. -/
theorem spares_yield (d : Dev) (r : Nat) : Spares thmKey d (d.yield r) := by
  have stopped := ((spares_yieldSay d r).trans (spares_leaveWall _)).trans (spares_hvcStop _)
  exact .ite .refl (.setState (by decide) (by decide) (by decide) (stopped.trans (spares_yieldHold _)))

/-! Presets, taps and calibration (R318, R326 to R333). -/

/-- A write to a field of a block whose window comes after, and what else is spared. -/
theorem Spares.wrHigh {d e : Dev} {f : Fld} {v : Nat} (n : 8388608 ≤ f.key) (h : Spares lowKey d e) : Spares lowKey d (e.wr f v) :=
  h.wr (lowKey_eq_false n)

theorem spares_presetChanged (d : Dev) (j : Nat) : Spares lowKey d (d.presetChanged j) := by
  have easing : 8388608 ≤ (R.LNE_OCT_STATUS_EASING j).key := by simp only [R.LNE_OCT_STATUS_EASING]; omega
  exact .ite (.wrHigh easing .refl) (.wrHigh easing (Spares.refl.parts rfl rfl rfl rfl rfl))

theorem spares_queueCal (d : Dev) (u : CalUnit) : Spares lowKey d (d.queueCal u) := by
  refine .ite .refl ?_
  have queued : Spares lowKey d { d with calib := { d.calib with queue := d.calib.queue ++ [u] } } := .setCalib .refl
  dsimp only
  split
  · exact .wrHigh (by simp only [R.LNE_CAL_STATUS_RESULT]; omega) queued
  · exact .wrHigh (by simp only [R.DRM_CALR_RESULT]; omega) queued
  · exact queued

theorem spares_queueRx (d : Dev) : Spares lowKey d d.queueRx := .foldl (fun _ _ => spares_queueCal _ _) _ .refl

theorem spares_easeRx (d : Dev) (jump : Bool) (k : Nat) : Spares lowKey d (d.easeRx jump k) := by
  have phase : 8388608 ≤ (R.LNE_RX_TAPS_PHASE (k / 8) (k % 8)).key := by simp only [R.LNE_RX_TAPS_PHASE]; omega
  have thr : 8388608 ≤ (R.LNE_RX_TAPS_THR (k / 8) (k % 8)).key := by simp only [R.LNE_RX_TAPS_THR]; omega
  have easing : 8388608 ≤ (R.LNE_CAL_STATUS_EASING (k / 8) (k % 8)).key := by simp only [R.LNE_CAL_STATUS_EASING]; omega
  exact .ite (.wrHigh easing (.wrHigh thr (.wrHigh phase .refl))) (.wrHigh easing (.wrHigh thr (.wrHigh phase .refl)))

theorem spares_tapMedian (d : Dev) (n : Nat) : Spares lowKey d (d.tapMedian n).1 := by
  unfold tapMedian pick
  dsimp only
  split
  · exact .refl
  · exact .drawn .refl

theorem spares_easeCam (d : Dev) (jump : Bool) (n : Nat) : Spares lowKey d (d.easeCam jump n) := by
  unfold easeCam
  dsimp only
  refine .ite (.foldl (fun _ i => .wrHigh ?_ .refl) _ .refl)
    (.wrHigh ?_ (.trans (.foldl (fun _ i => .wrHigh ?_ .refl) _ .refl) (spares_tapMedian _ n)))
  all_goals simp only [R.CAM_DLY_TAP, R.CAM_CTL_DLY_TAP]; omega

theorem spares_easeAll (d : Dev) (jump : Bool) : Spares lowKey d (d.easeAll jump) := by
  unfold easeAll
  exact (Spares.foldl (fun x n => spares_easeCam x jump n) _ (.foldl (fun x k => spares_easeRx x jump k) _ .refl)).setCalib

theorem spares_easeNow (d : Dev) : Spares lowKey d d.easeNow := .ite .refl (spares_easeAll d true)

theorem spares_driftCheck (d : Dev) : Spares lowKey d d.driftCheck :=
  .ite .refl (.foldl (fun _ _ => .ite (spares_queueCal _ _) .refl) _ .refl)

theorem spares_showResult (d : Dev) (u : CalUnit) (v : Nat) : Spares lowKey d (d.showResult u v) := by
  unfold showResult
  split
  · exact .wrHigh (by simp only [R.LNE_CAL_STATUS_RESULT]; omega) .refl
  · exact .wrHigh (by simp only [R.CAM_CAL_STATUS_RESULT]; omega) .refl
  · exact .wrHigh (by simp only [R.DRM_CALR_RESULT]; omega) .refl

theorem spares_resumeTimer (d : Dev) (k : Nat) : Spares lowKey d (d.resumeTimer k) := by
  unfold resumeTimer
  dsimp only
  split
  · exact Spares.refl.parts rfl rfl rfl rfl rfl
  · exact .refl

theorem spares_stopRuns (d : Dev) : Spares lowKey d d.stopRuns := by
  have shown : ∀ (x : Dev) (u : CalUnit), Spares lowKey x
      (if u.kind = 0 then (x.showResult u (x.freeVal 8)).drawn.resumeTimer u.n else (x.showResult u (x.freeVal 8)).drawn) := fun x u =>
    have drew : Spares lowKey x (x.showResult u (x.freeVal 8)).drawn := .drawn (spares_showResult ..)
    .ite (drew.trans (spares_resumeTimer ..)) drew
  exact (Spares.foldl shown _ .refl).setCalib

/-! A site takes a reading (R498). -/

/-- A site shows a temperature and whether it is valid. -/
def siteShown (d : Dev) (i : Nat) (x : Site) (t : Int) (now : Bool) : Dev :=
  (({ d with thm := { d.thm with sites := setV d.thm.sites i x } }).wr (R.THM_SITE_TEMP i) (ofInt 16 t)).wrb (R.THM_SITE_VALID i) now

/-- A change of a site's validity is counted as it is lost, and logged. -/
def siteNoted (d : Dev) (i : Nat) (was now : Bool) : Dev :=
  if was = now then d else (if now then d else d.cnt R.THM_SITE_FAULTS).log 0x03 0 0 0x01B (i + 256 * b2n now)

/-- An implausible reading leaves its site invalid. -/
theorem siteReading_eq (d : Dev) (i : Nat) (plausible : Bool) (t : Int) (temps : List Int) (valid : List Bool) :
    ∃ x now, (plausible = false → now = false) ∧
      d.siteReading i plausible t temps valid = (d.siteShown i x t now).siteNoted i (valid.getD i false) now := by
  refine ⟨_, _, ?_, rfl⟩
  rintro rfl
  simp

/-- What a site's reading spares: every field but its own and those that count. -/
theorem spares_siteReading {K : Nat → Bool} {i : Nat} (temp : K (R.THM_SITE_TEMP i).key = false) (valid_ : K (R.THM_SITE_VALID i).key = false)
    (faults : K R.THM_SITE_FAULTS.key = false) (dropped : K R.ERR_DROPPED.key = false) (d : Dev) (plausible : Bool) (t : Int)
    (temps : List Int) (valid : List Bool) : Spares K d (d.siteReading i plausible t temps valid) := by
  obtain ⟨x, now, -, e⟩ := d.siteReading_eq i plausible t temps valid
  rw [e]
  have shown : Spares K d (d.siteShown i x t now) := .wrb valid_ (.wr temp (Spares.refl.parts rfl rfl rfl rfl rfl))
  exact .ite shown (.log dropped (.ite shown (.cnt faults shown)))

theorem siteNoted_rd (d : Dev) (i : Nat) (was now : Bool) {f : Fld} (faults : f.key ≠ R.THM_SITE_FAULTS.key)
    (dropped : f.key ≠ R.ERR_DROPPED.key) : (d.siteNoted i was now).rd f = d.rd f := by
  unfold siteNoted
  split
  · rfl
  · rw [rd_log _ _ _ _ _ _ _ _ dropped]
    split
    · rfl
    · exact rd_cnt_ne _ _ _ faults

theorem temp_ne_counts {i : Nat} (h : i < 32) :
    (R.THM_SITE_TEMP i).key ≠ R.THM_SITE_FAULTS.key ∧ (R.THM_SITE_TEMP i).key ≠ R.ERR_DROPPED.key := by
  simp only [R.THM_SITE_TEMP, R.THM_SITE_FAULTS, R.ERR_DROPPED]
  omega

theorem valid_ne_counts {i : Nat} (h : i < 32) :
    (R.THM_SITE_VALID i).key ≠ R.THM_SITE_FAULTS.key ∧ (R.THM_SITE_VALID i).key ≠ R.ERR_DROPPED.key := by
  simp only [R.THM_SITE_VALID, R.THM_SITE_FAULTS, R.ERR_DROPPED]
  omega

theorem ofInt_lt (w : Nat) (x : Int) : ofInt w x < 2 ^ w := by
  have := Int.emod_lt_of_pos x (show (0 : Int) < (2 ^ w : Nat) by positivity)
  have := Int.emod_nonneg x (show ((2 ^ w : Nat) : Int) ≠ 0 by positivity)
  unfold ofInt
  omega

/-- TEMP of the site takes the temperature. -/
theorem siteReading_temp {i : Nat} (h : i < 32) (d : Dev) (plausible : Bool) (t : Int) (temps : List Int) (valid : List Bool) :
    (d.siteReading i plausible t temps valid).rd (R.THM_SITE_TEMP i) = ofInt 16 t := by
  obtain ⟨x, now, -, e⟩ := d.siteReading_eq i plausible t temps valid
  obtain ⟨faults, dropped⟩ := temp_ne_counts h
  have own : (R.THM_SITE_TEMP i).key ≠ (R.THM_SITE_VALID i).key := by
    simp only [R.THM_SITE_TEMP, R.THM_SITE_VALID]
    omega
  rw [e, siteNoted_rd _ _ _ _ faults dropped, siteShown, rd_wrb_ne _ _ _ _ own, rd_wr_self]
  exact Nat.mod_eq_of_lt (ofInt_lt 16 t)

/-- A site with an implausible reading is not valid. -/
theorem siteReading_invalid {i : Nat} (h : i < 32) (d : Dev) (t : Int) (temps : List Int) (valid : List Bool) :
    (d.siteReading i false t temps valid).rdb (R.THM_SITE_VALID i) = false := by
  obtain ⟨x, now, off, e⟩ := d.siteReading_eq i false t temps valid
  obtain ⟨faults, dropped⟩ := valid_ne_counts h
  rw [e, off rfl]
  unfold rdb
  rw [siteNoted_rd _ _ _ _ faults dropped, siteShown, rd_wrb_self _ _ _ rfl]
  rfl

/-! A complete set of readings (R496 to R504). -/

/-- A reading of every site in turn. -/
def readAll (d : Dev) (reading : Nat → Bool × Int) (temps : List Int) (valid : List Bool) (l : List Nat) : Dev :=
  l.foldl (fun d i => d.siteReading i (reading i).1 (temps.getD i 0) temps valid) d

/-- What every reading of a site does to it, and no reading of another undoes, holds after all of them. -/
theorem foldl_establishes {P : Nat → Dev → Prop} {f : Dev → Nat → Dev} (hit : ∀ d i, P i (f d i))
    (keep : ∀ d i j, i ≠ j → P i d → P i (f d j)) :
    ∀ (l : List Nat) (d : Dev), ∀ i ∈ l, P i (l.foldl f d) := by
  have stays : ∀ (l : List Nat) (d : Dev) (i : Nat), P i d → P i (l.foldl f d) := by
    intro l
    induction l with
    | nil => exact fun _ _ h => h
    | cons j r ih =>
      intro d i h
      refine ih _ i ?_
      by_cases e : i = j
      · exact e ▸ hit d j
      · exact keep d i j e h
  intro l
  induction l with
  | nil => exact fun _ _ h => absurd h List.not_mem_nil
  | cons j r ih =>
    intro d i h
    rcases List.mem_cons.mp h with rfl | h
    · exact stays r _ i (hit d i)
    · exact ih _ i h

theorem temp_readAll (d : Dev) (reading : Nat → Bool × Int) (temps : List Int) (valid : List Bool) {i : Nat} (h : i < 32) :
    (d.readAll reading temps valid (List.range 32)).rd (R.THM_SITE_TEMP i) = ofInt 16 (temps.getD i 0) := by
  refine foldl_establishes (P := fun i d => i < 32 → d.rd (R.THM_SITE_TEMP i) = ofInt 16 (temps.getD i 0)) (fun d i h => siteReading_temp h d ..)
    (fun d i j ne p h => ?_) (List.range 32) d i (List.mem_range.mpr h) h
  obtain ⟨faults, dropped⟩ := temp_ne_counts h
  have temp : (R.THM_SITE_TEMP i).key ≠ (R.THM_SITE_TEMP j).key := by simp only [R.THM_SITE_TEMP]; omega
  have valid_ : (R.THM_SITE_TEMP i).key ≠ (R.THM_SITE_VALID j).key := by simp only [R.THM_SITE_TEMP, R.THM_SITE_VALID]; omega
  exact ((spares_siteReading (K := fun k => decide (k = (R.THM_SITE_TEMP i).key)) (decide_eq_false temp.symm) (decide_eq_false valid_.symm)
    (decide_eq_false faults.symm) (decide_eq_false dropped.symm) d ..).rd _ (decide_eq_true rfl)).trans (p h)

theorem valid_readAll (d : Dev) {reading : Nat → Bool × Int} (bad : ∀ i, (reading i).1 = false) (temps : List Int) (valid : List Bool) {i : Nat}
    (h : i < 32) : (d.readAll reading temps valid (List.range 32)).rdb (R.THM_SITE_VALID i) = false := by
  refine foldl_establishes (P := fun i d => i < 32 → d.rdb (R.THM_SITE_VALID i) = false) (fun d i h => ?_) (fun d i j ne p h => ?_)
    (List.range 32) d i (List.mem_range.mpr h) h
  · rw [bad i]
    exact siteReading_invalid h ..
  · obtain ⟨faults, dropped⟩ := valid_ne_counts h
    have temp : (R.THM_SITE_VALID i).key ≠ (R.THM_SITE_TEMP j).key := by simp only [R.THM_SITE_TEMP, R.THM_SITE_VALID]; omega
    have valid_ : (R.THM_SITE_VALID i).key ≠ (R.THM_SITE_VALID j).key := by simp only [R.THM_SITE_VALID]; omega
    exact ((spares_siteReading (K := fun k => decide (k = (R.THM_SITE_VALID i).key)) (decide_eq_false temp.symm) (decide_eq_false valid_.symm)
      (decide_eq_false faults.symm) (decide_eq_false dropped.symm) d ..).rdb (decide_eq_true rfl)).trans (p h)

/-- The key of a site's TEMP. -/
def tempKey (k : Nat) : Bool := decide (1574912 ≤ k ∧ k < 1575936 ∧ k % 32 = 0)

theorem tempKey_temp {i : Nat} (h : i < 32) : tempKey (R.THM_SITE_TEMP i).key = true :=
  decide_eq_true (by simp only [R.THM_SITE_TEMP]; omega)

theorem thmKey_of_tempKey (k : Nat) (h : tempKey k = true) : thmKey k = true := by
  simp only [tempKey, thmKey, decide_eq_true_eq] at h ⊢
  omega

theorem lowKey_of_tempKey (k : Nat) (h : tempKey k = true) : lowKey k = true := lowKey_of_thmKey k (thmKey_of_tempKey k h)

/-- The key of a field of TOP, or of the trip. -/
def stateKey (k : Nat) : Bool := decide (k < 524288 ∨ k = R.THM_STATUS_TRIP.key)

/-- A temperature in TEMP reads as itself. -/
theorem ofInt_sext_ofInt (w : Nat) (x : Int) : ofInt w (sext w (ofInt w x)) = ofInt w x := by
  have small : ofInt w x % 2 ^ w = ofInt w x := Nat.mod_eq_of_lt (ofInt_lt w x)
  have same : sext w (ofInt w x) % (2 ^ w : Nat) = (ofInt w x : Int) % (2 ^ w : Nat) := by
    unfold sext
    dsimp only
    rw [small]
    split
    · rfl
    · exact Int.sub_emod_right _ _
  have back : (ofInt w x : Int) % (2 ^ w : Nat) = (ofInt w x : Int) := by exact_mod_cast small
  rw [ofInt, same, back]
  exact Int.toNat_natCast _

/-! The stages of a set. -/

/-- The reading of a site in a set: a site that it does not name stays at its TEMP and counts as implausible. -/
def readingOf (d : Dev) (sites : List (Bool × Int)) (i : Nat) : Bool × Int := sites.getD i (false, sext 16 (d.rd (R.THM_SITE_TEMP i)))

/-- The temperatures of a set, as TEMP holds them. -/
def tempsOf (d : Dev) (sites : List (Bool × Int)) : List Int := (List.range 32).map fun i => sext 16 (ofInt 16 (d.readingOf sites i).2)

/-- The sites that are valid before a set: all of them before the first. -/
def validBefore (d : Dev) : List Bool := (List.range 32).map fun i => !d.thm.read || d.rdb (R.THM_SITE_VALID i)

/-- Readings have been taken. -/
def readMark (d : Dev) : Dev := { d with thm := { d.thm with read := true } }

/-- The set is taken; one that comes in band 3 counts (R501). -/
def taken (d : Dev) (inB3 : Bool) : Dev := if inB3 then d.readMark.cnt R.THM_B3_MS else d.readMark

/-- Every site of a set is read. -/
def readSet (d : Dev) (sites : List (Bool × Int)) : Dev :=
  (d.readAll (d.readingOf sites) (d.tempsOf sites) d.validBefore (List.range 32)).taken (decide (d.rd R.THM_STATUS_BAND = 3))

/-- The sites whose readings are valid. -/
def goodSites (d : Dev) : List Nat := (List.range 32).filter fun i => d.rdb (R.THM_SITE_VALID i)

/-- STATUS shows how many sites are valid, and the hottest of them (R499). -/
def hottest (d : Dev) (temps : List Int) (good : List Nat) : Dev :=
  let d := d.wr R.THM_STATUS_VALID (good.length - 1)
  match good with
  | [] => d
  | g :: r =>
      let hot := r.foldl (fun (h : Nat) (i : Nat) => if temps.getD h 0 < temps.getD i 0 then i else h) g
      (d.wr R.THM_STATUS_HOT_SITE hot).wr R.THM_STATUS_TJ (ofInt 16 (temps.getD hot 0))

/-- The band follows, or the device trips (R499 to R501, R504), with n valid sites at tj. -/
def judged (d : Dev) (n : Nat) (tj : Int) : Dev :=
  if d.rdb R.THM_STATUS_TRIP then d
  else if n < 8 then d.trip true n
  else if 500 ≤ tj then d.trip false n
  else d.enterBand (bandOf (d.rd R.THM_STATUS_BAND) tj)

/-- The lull length follows, and without a trip the check for drift (R502, R327). -/
def lulled (d : Dev) (tj : Int) : Dev :=
  let d := d.setLull tj
  if d.rdb R.THM_STATUS_TRIP then d else d.driftCheck

theorem thmReading_eq (sites : List (Bool × Int)) (d : Dev) :
    actThmReading sites d =
      (let x := d.upTo d.readingDue
       let r := x.readSet sites
       let h := r.hottest (x.tempsOf sites) r.goodSites
       let tj := sext 16 (h.rd R.THM_STATUS_TJ)
       (h.judged r.goodSites.length tj).lulled tj) := rfl

theorem taken_read (d : Dev) (inB3 : Bool) : (d.taken inB3).thm.read = true := by
  unfold taken
  split <;> rfl

theorem taken_rd (d : Dev) (inB3 : Bool) {f : Fld} (b3 : f.key ≠ R.THM_B3_MS.key) : (d.taken inB3).rd f = d.rd f := by
  unfold taken
  split
  · exact rd_cnt_ne _ _ _ b3
  · rfl

theorem Spares.taken {K : Nat → Bool} {d e : Dev} (b3 : K R.THM_B3_MS.key = false) (inB3 : Bool) (h : Spares K d e) :
    Spares K d.readMark (e.taken inB3) :=
  have marked : Spares K d.readMark e.readMark := ⟨h.off, rfl, h.sram, h.now, h.rd⟩
  .ite (.cnt b3 marked) marked

/-- What a set's readings spare: every field but the sites' and those that count. -/
theorem spares_readSet {K : Nat → Bool} (site : ∀ i < 32, K (R.THM_SITE_TEMP i).key = false ∧ K (R.THM_SITE_VALID i).key = false)
    (faults : K R.THM_SITE_FAULTS.key = false) (dropped : K R.ERR_DROPPED.key = false) (b3 : K R.THM_B3_MS.key = false) (d : Dev)
    (sites : List (Bool × Int)) : Spares K (d.readMark) (d.readSet sites) := by
  refine .taken b3 _ (.foldl_mem _ (fun x i m => ?_) .refl)
  obtain ⟨temp, valid⟩ := site i (List.mem_range.mp m)
  exact spares_siteReading temp valid faults dropped x ..

theorem temp_readSet (d : Dev) {sites : List (Bool × Int)} (all : sites.length = 32) {i : Nat} (h : i < 32) :
    (d.readSet sites).rd (R.THM_SITE_TEMP i) = ofInt 16 (sites.getD i (false, 0)).2 := by
  have other : (R.THM_SITE_TEMP i).key ≠ R.THM_B3_MS.key := by
    simp only [R.THM_SITE_TEMP, R.THM_B3_MS]
    omega
  rw [readSet, taken_rd _ _ other, temp_readAll _ _ _ _ h]
  simp [tempsOf, readingOf, h, all, ofInt_sext_ofInt]

/-- A set of implausible readings leaves no site valid. -/
theorem goodSites_readSet (d : Dev) {sites : List (Bool × Int)} (bad : ∀ p ∈ sites, p.1 = false) : (d.readSet sites).goodSites = [] := by
  have reading : ∀ i, (d.readingOf sites i).1 = false := by
    intro i
    unfold readingOf
    rw [List.getD_eq_getElem?_getD]
    cases at_ : sites[i]? with
    | none => rfl
    | some p => exact bad p (List.mem_of_getElem? at_)
  refine List.filter_eq_nil_iff.mpr fun i m => ?_
  have h : i < 32 := List.mem_range.mp m
  have other : (R.THM_SITE_VALID i).key ≠ R.THM_B3_MS.key := by
    simp only [R.THM_SITE_VALID, R.THM_B3_MS]
    omega
  have invalid := valid_readAll d reading (d.tempsOf sites) d.validBefore h
  rw [readSet, rdb, taken_rd _ _ other, ← rdb, invalid]
  exact Bool.false_ne_true

/-! What the stages after the readings spare. -/

theorem spares_hottest {K : Nat → Bool} (n : K R.THM_STATUS_VALID.key = false) (n' : K R.THM_STATUS_HOT_SITE.key = false)
    (n'' : K R.THM_STATUS_TJ.key = false) (d : Dev) (temps : List Int) (good : List Nat) : Spares K d (d.hottest temps good) := by
  unfold hottest
  dsimp only
  split
  · exact .wr n .refl
  · exact .wr n'' (.wr n' (.wr n .refl))

theorem spares_enterBand (d : Dev) (b : Nat) : Spares tempKey d (d.enterBand b) := by
  have entered : Spares tempKey d (((d.wr R.THM_STATUS_BAND b).cnt R.THM_BAND_CHANGES).log 0x03 0 0 0x01A b) :=
    .log (by decide) (.cnt (by decide) (.wr (by decide) .refl))
  have preset : ∀ (x : Dev) (j : Nat), Spares lowKey x ((x.wr (R.LNE_OCT_STATUS_BAND j) b).presetChanged j) := fun x j =>
    (Spares.wrHigh (by simp only [R.LNE_OCT_STATUS_BAND]; omega) .refl).trans (spares_presetChanged _ j)
  have presets (x : Dev) :=
    (Spares.foldl preset (List.range 8) (.refl (d := x))).trans ((spares_queueRx _).trans (spares_easeNow _))
  exact .ite .refl (.ite entered (entered.trans ((presets _).mono lowKey_of_tempKey)))

theorem spares_tripStop (d : Dev) : Spares thmKey d (d.yield 1).idleAll.stopRuns :=
  (spares_yield d 1).trans (((spares_idleAll _).trans (spares_stopRuns _)).mono lowKey_of_thmKey)

theorem spares_trip (d : Dev) (lost : Bool) (n : Nat) : Spares tempKey d (d.trip lost n) := by
  have latched : Spares tempKey d ((if lost then d.log 0x03 0 5 0x024 n else d).wrb R.THM_STATUS_TRIP true) :=
    .wrb (by decide) (.ite (.log (by decide) .refl) .refl)
  exact .ite .refl ((latched.trans (spares_enterBand _ 4)).trans ((spares_tripStop _).mono thmKey_of_tempKey))

theorem spares_judged (d : Dev) (n : Nat) (tj : Int) : Spares tempKey d (d.judged n tj) :=
  .ite .refl (.ite (spares_trip ..) (.ite (spares_trip ..) (spares_enterBand ..)))

theorem spares_setLull {K : Nat → Bool} (n : K R.THM_LULL_NOW_L.key = false) (d : Dev) (tj : Int) : Spares K d (d.setLull tj) := by
  unfold setLull
  dsimp only
  split
  · exact .wr n .refl
  · exact .wr n .refl
  · exact .wr n .refl
  · exact .wr n .refl
  · exact .wr n (.drawn .refl)

theorem spares_lulled (d : Dev) (tj : Int) : Spares tempKey d (d.lulled tj) := by
  have lull : Spares tempKey d (d.setLull tj) := spares_setLull (by decide) d tj
  exact .ite lull (lull.trans ((spares_driftCheck _).mono lowKey_of_tempKey))

/-! The trip (R499, R504). -/

/-- What a device shows that has tripped. -/
structure Tripped (d : Dev) : Prop where
  trip : d.rdb R.THM_STATUS_TRIP = true
  band : d.rd R.THM_STATUS_BAND = 4

/-- The trip band is entered: nothing but BAND, its count and the log changes. -/
theorem enterBand_trip (d : Dev) :
    (d.enterBand 4).rd R.THM_STATUS_BAND = 4 ∧ Spares stateKey d (d.enterBand 4) := by
  unfold enterBand
  split
  next already => exact ⟨already, .refl⟩
  next =>
    rw [if_pos (Nat.le_refl 4)]
    refine ⟨?_, .log (by decide) (.cnt (by decide) (.wr (by decide) .refl))⟩
    exact (rd_log _ _ _ _ _ _ _ _ (by decide)).trans ((rd_cnt_ne _ _ _ (by decide)).trans (rd_wr_self ..))

theorem trip_trips {d : Dev} (not_yet : d.rdb R.THM_STATUS_TRIP = false) (lost : Bool) (n : Nat) :
    (d.trip lost n).Tripped ∧ (d.inService = true → (d.trip lost n).state = .yielded) := by
  have logged : Spares stateKey d (if lost then d.log 0x03 0 5 0x024 n else d) := .ite (.log (by decide) .refl) .refl
  unfold trip
  rw [not_yet]
  simp only [Bool.false_eq_true, if_false]
  generalize (if lost then d.log 0x03 0 5 0x024 n else d) = l at logged
  obtain ⟨band, entered⟩ := enterBand_trip (l.wrb R.THM_STATUS_TRIP true)
  have latched : ((l.wrb R.THM_STATUS_TRIP true).enterBand 4).rdb R.THM_STATUS_TRIP = true := by
    rw [entered.rdb (by decide)]
    unfold rdb
    rw [rd_wrb_self _ _ _ rfl]
    rfl
  have service : d.inService = true → ((l.wrb R.THM_STATUS_TRIP true).enterBand 4).inService = true := fun h => by
    rw [entered.inService (by decide), show (l.wrb R.THM_STATUS_TRIP true).inService = l.inService from
      Spares.inService (K := fun k => decide (k = R.TOP_STATE.key)) (.wrb (by decide) .refl) (by decide), logged.inService (by decide), h]
  generalize (l.wrb R.THM_STATUS_TRIP true).enterBand 4 = e at band latched service
  have stop := spares_tripStop e
  have rest := (spares_idleAll (e.yield 1)).trans (spares_stopRuns _)
  exact ⟨⟨(stop.rdb (by decide)).trans latched, (stop.rd _ (by decide)).trans band⟩,
    fun h => (rest.state (by decide)).trans (yield_state e 1 (service h))⟩

theorem lulled_tripped {d : Dev} (h : d.Tripped) (tj : Int) : (d.lulled tj).Tripped ∧ (d.lulled tj).state = d.state := by
  have lull := spares_setLull (K := fun k => decide (k ≠ R.THM_LULL_NOW_L.key)) (by decide) d tj
  unfold lulled
  dsimp only
  rw [lull.rdb (by decide), h.trip, if_pos rfl]
  exact ⟨⟨(lull.rdb (by decide)).trans h.trip, (lull.rd _ (by decide)).trans h.band⟩, lull.state (by decide)⟩

/-! The whole set. -/

theorem thmReading_shows (d : Dev) {sites : List (Bool × Int)} (all : sites.length = 32) :
    (actThmReading sites d).thm.read = true ∧ d.now ≤ (actThmReading sites d).now ∧
      ∀ i, i < 32 → (actThmReading sites d).rd (R.THM_SITE_TEMP i) = ofInt 16 (sites.getD i (false, 0)).2 := by
  rw [thmReading_eq]
  dsimp only
  have read : ((d.upTo d.readingDue).readSet sites).thm.read = true := taken_read ..
  have now := (spares_readSet (K := fun _ => false) (fun _ _ => ⟨rfl, rfl⟩) rfl rfl rfl (d.upTo d.readingDue) sites).now
  have temp : ∀ i, i < 32 → _ := fun i h => temp_readSet (d.upTo d.readingDue) all h
  generalize (d.upTo d.readingDue).readSet sites = r at read now temp
  have hot := spares_hottest (K := tempKey) (by decide) (by decide) (by decide) r ((d.upTo d.readingDue).tempsOf sites) r.goodSites
  generalize r.hottest ((d.upTo d.readingDue).tempsOf sites) r.goodSites = h at hot
  have rest := hot.trans ((spares_judged h r.goodSites.length (sext 16 (h.rd R.THM_STATUS_TJ))).trans
    (spares_lulled _ (sext 16 (h.rd R.THM_STATUS_TJ))))
  exact ⟨rest.read.trans read, (Nat.le_max_left _ _).trans (rest.now.trans now).ge, fun i l => (rest.rd _ (tempKey_temp l)).trans (temp i l)⟩

theorem thmReading_trips {d : Dev} {sites : List (Bool × Int)} (bad : ∀ p ∈ sites, p.1 = false) (not_yet : d.rdb R.THM_STATUS_TRIP = false) :
    (actThmReading sites d).Tripped ∧ (d.inService = true → (actThmReading sites d).state = .yielded) := by
  rw [thmReading_eq]
  dsimp only
  have site : ∀ i < 32, stateKey (R.THM_SITE_TEMP i).key = false ∧ stateKey (R.THM_SITE_VALID i).key = false := fun i _ =>
    ⟨decide_eq_false (by simp only [R.THM_SITE_TEMP, R.THM_STATUS_TRIP]; omega),
      decide_eq_false (by simp only [R.THM_SITE_VALID, R.THM_STATUS_TRIP]; omega)⟩
  have read := spares_readSet (K := stateKey) site (by decide) (by decide) (by decide) (d.upTo d.readingDue) sites
  have none_ := goodSites_readSet (d.upTo d.readingDue) bad
  generalize (d.upTo d.readingDue).readSet sites = r at read none_
  have hot := spares_hottest (K := stateKey) (by decide) (by decide) (by decide) r ((d.upTo d.readingDue).tempsOf sites) r.goodSites
  generalize r.hottest ((d.upTo d.readingDue).tempsOf sites) r.goodSites = h at hot
  have same := read.trans hot
  have trip : h.rdb R.THM_STATUS_TRIP = false := (same.rdb (by decide)).trans not_yet
  have judged_ : h.judged r.goodSites.length (sext 16 (h.rd R.THM_STATUS_TJ)) = h.trip true 0 := by
    rw [judged, trip, none_, if_neg Bool.false_ne_true, if_pos (by decide), List.length_nil]
  rw [judged_]
  obtain ⟨tripped, yields⟩ := trip_trips trip true 0
  obtain ⟨tripped', state⟩ := lulled_tripped tripped (sext 16 (h.rd R.THM_STATUS_TJ))
  exact ⟨tripped', fun service => state.trans (yields ((same.inService (by decide)).trans service))⟩

/-! SRAM scrubbing (R39 to R41, R503). -/

theorem spares_lullAfter {K : Nat → Bool} (n : K R.THM_LULLS.key = false) (d : Dev) (quantum k : Nat) :
    Spares K d (d.lullAfter .sramScrub quantum k) :=
  .ite (Spares.refl.parts rfl rfl rfl rfl rfl) (.addCnt n (Spares.refl.parts rfl rfl rfl rfl rfl))

/-- A corrected error is counted in its region (R39), and of a retransmit FIFO in its lane (R283). -/
def corrected (d : Dev) (region word : Nat) : Dev :=
  let e := { d with sram := d.sram.set region (Nat.min (2 ^ 32 - 1) (d.sram.getD region 0 + 1)) }
  if region = 2 then e.cnt (R.MVL_ECC_CORR (word / 16384 % 64)) else e

theorem sramScrub_single {d : Dev} {region : Nat} (busy : d.lulling .sramScrub = false) (word : Nat) :
    actSramScrub region word .single d = (d.corrected region word).lullAfter .sramScrub 65536 (if region = 2 then 16 else 8) := by
  rw [actSramScrub, busy]
  rfl

theorem keeps_corrected (d : Dev) (region word : Nat) : Keeps [3, 0x24] d (d.corrected region word) := by
  have window : (R.MVL_ECC_CORR (word / 16384 % 64)).key / 524288 = 0x24 := by simp only [R.MVL_ECC_CORR]; omega
  exact .ite (.cnt (by rw [window]; decide) (.set_sram .refl)) (.set_sram .refl)

theorem corrected_sram (d : Dev) (region word : Nat) :
    (d.corrected region word).sram = d.sram.set region (Nat.min (2 ^ 32 - 1) (d.sram.getD region 0 + 1)) := by
  unfold corrected
  split <;> rfl

theorem keeps_lullAfter (d : Dev) (quantum k : Nat) : Keeps [3] d (d.lullAfter .sramScrub quantum k) :=
  .ite (.set_thm .refl) (.addCnt (by decide) (.set_thm (.set_thm .refl)))

/-- The regions that hold nothing but configuration (R40). -/
theorem configWord_of_named {region : Nat} (cfg : region = 0 ∨ region = 1 ∨ region = 4 ∨ region = 9) (d : Dev) :
    configWord region d = (d, true) := by
  rcases cfg with rfl | rfl | rfl | rfl <;> rfl

/-- A double error in configuration memory yields with reason 2 (R40, R341). -/
theorem sramScrub_double {d : Dev} {region : Nat} (busy : d.lulling .sramScrub = false)
    (cfg : region = 0 ∨ region = 1 ∨ region = 4 ∨ region = 9) (word : Nat) :
    actSramScrub region word .double d = ((d.log 0xF2 region 5 0x00A word).yield 2).lullAfter .sramScrub 65536 8 := by
  have other : region ≠ 2 := by omega
  simp only [actSramScrub, busy, configWord_of_named cfg, other, Bool.false_eq_true, if_false, if_true]

theorem sramScrub_double_yields {d : Dev} {region : Nat} (service : d.inService = true) (busy : d.lulling .sramScrub = false)
    (cfg : region = 0 ∨ region = 1 ∨ region = 4 ∨ region = 9) (word : Nat) :
    (actSramScrub region word .double d).state = .yielded ∧ (actSramScrub region word .double d).rd R.VEER_STATUS_LAST_YIELD = 2 ∧
      (actSramScrub region word .double d).sram = d.sram := by
  rw [sramScrub_double busy cfg]
  have logged : Spares (fun k => decide (k = R.TOP_STATE.key)) d (d.log 0xF2 region 5 0x00A word) := .log (by decide) .refl
  have service' : (d.log 0xF2 region 5 0x00A word).inService = true := (logged.inService (by decide)).trans service
  have lull := spares_lullAfter (K := fun k => decide (k ≠ R.THM_LULLS.key)) (by decide)
    ((d.log 0xF2 region 5 0x00A word).yield 2) 65536 8
  exact ⟨(lull.state (by decide)).trans (yield_state _ 2 service'), (lull.rd _ (by decide)).trans (yield_reason _ 2 service'),
    lull.sram.trans ((spares_yield _ 2).sram.trans logged.sram)⟩

end Dev

section
variable {s : State} {region : Fin 15}

theorem scrub_counts (on : s.dev.off = false) (busy : s.dev.lulling .sramScrub = false) (word : Nat) :
    ∃ t, exec (.sramScrub region word .single) s = .next t ∧
      t.dev.sram = s.dev.sram.set region (Nat.min (2 ^ 32 - 1) (s.dev.sram.getD region 0 + 1)) ∧
      t.mem = s.mem ∧ t.pending = s.pending ∧ s.dev.SameOutside [3, 0x24] t.dev := by
  have act := Dev.sramScrub_single (d := s.start) (region := region) busy word
  have sram := s.start.corrected_sram region word
  have keeps := s.start.keeps_corrected region word
  generalize s.start.corrected region word = d at act sram keeps
  have lull := Dev.spares_lullAfter (K := fun _ => false) rfl d 65536 (if region.val = 2 then 16 else 8)
  have all := keeps.trans ((d.keeps_lullAfter 65536 (if region.val = 2 then 16 else 8)).wider (by decide))
  generalize d.lullAfter .sramScrub 65536 (if region.val = 2 then 16 else 8) = e at act lull all
  have ran : exec (.sramScrub region word .single) s = .next (s.withDev e) := by
    rw [exec_sramScrub, run_on on, act, settle_quiet all.wq]
  exact ⟨_, ran, lull.sram.trans sram, withDev_mem _ _, withDev_pending _ _, fun f n => all.rd f n⟩

theorem scrub_yields (service : s.dev.inService = true) (busy : s.dev.lulling .sramScrub = false)
    (cfg : region = 0 ∨ region = 1 ∨ region = 4 ∨ region = 9) (word : Nat) :
    ∃ t, exec (.sramScrub region word .double) s = .next t ∧ t.dev.state = .yielded ∧
      t.dev.rd R.VEER_STATUS_LAST_YIELD = 2 ∧ t.dev.sram = s.dev.sram := by
  have cfg' : region.val = 0 ∨ region.val = 1 ∨ region.val = 4 ∨ region.val = 9 := by
    rcases cfg with rfl | rfl | rfl | rfl <;> decide
  obtain ⟨state, reason, sram⟩ := Dev.sramScrub_double_yields (d := s.start) service busy cfg' word
  have ran : exec (.sramScrub region word .double) s = .next (settle s (actSramScrub region word .double s.start)) := by
    rw [exec_sramScrub, run_on (Dev.inService_on service)]
  generalize actSramScrub region word .double s.start = d at ran state reason sram
  exact ⟨_, ran, state, reason, sram⟩

theorem reading_shows_and_trips {sites : List (Bool × Int)} (on : s.dev.off = false) (all : sites.length = 32) :
    ∃ t, exec (.thmReading sites) s = .next t ∧ t.dev.thm.read = true ∧ s.dev.now ≤ t.dev.now ∧ t.pending = s.pending ∧
      (∀ i, i < 32 → t.dev.rd (R.THM_SITE_TEMP i) = ofInt 16 (sites.getD i (false, 0)).2) ∧
      ((∀ p ∈ sites, p.1 = false) → s.dev.rdb R.THM_STATUS_TRIP = false →
        t.dev.rdb R.THM_STATUS_TRIP = true ∧ t.dev.rd R.THM_STATUS_BAND = 4 ∧ (s.dev.inService = true → t.dev.state = .yielded)) := by
  have ran : exec (.thmReading sites) s = .next (settle s (actThmReading sites s.start)) := by rw [exec_thmReading, run_on on]
  obtain ⟨read, now, temp⟩ := s.start.thmReading_shows all
  have trips := fun bad => Dev.thmReading_trips (d := s.start) (sites := sites) bad
  generalize actThmReading sites s.start = d at ran read now temp trips
  refine ⟨_, ran, read, now, settle_pending _ _, temp, fun bad not_yet => ?_⟩
  obtain ⟨tripped, yields⟩ := trips bad not_yet
  exact ⟨tripped.trip, tripped.band, yields⟩

end

/-- Settles O11, from what a set of readings and a scrub do to the device: the readings' stages spare TEMP, and a set without a valid site
trips, which yields. -/
theorem readingsTripAndScrubbingYields : Obligations.ReadingsTripAndScrubbingYields :=
  ⟨fun _ _ on all => reading_shows_and_trips on all,
    fun _ _ word on busy => ⟨scrub_counts on busy word, fun service cfg => scrub_yields service busy cfg word⟩⟩

end Sys2Proof.Machine
end

section
/-!
PROOFS. The paged tables: what a write to an entry and a move of a page do to the bytes that TBL and the consumers read, and how a load runs.
-/

namespace Sys2Proof.Machine

namespace Dev

/-! Table instances. -/

theorem tblInst_names (d : Dev) (table inst : Nat) : (d.tblInst table inst).table = table ∧ (d.tblInst table inst).inst = inst := by
  unfold tblInst
  cases e : d.tbl.tables.find? fun t => t.table = table && t.inst = inst with
  | none => exact ⟨rfl, rfl⟩
  | some t => simpa using List.find?_some e

/-- A table that is stored is the one found under its name. -/
theorem tblInst_putInst_self (d : Dev) {t : TableInst} {table inst : Nat} (h : t.table = table) (h' : t.inst = inst) :
    (d.putInst t).tblInst table inst = t := by
  simp [tblInst, putInst, h, h']

theorem tblInst_putInst_ne (d : Dev) {t : TableInst} {table inst : Nat} (h : ¬(t.table = table ∧ t.inst = inst)) :
    (d.putInst t).tblInst table inst = d.tblInst table inst := by
  have other : (decide (t.table = table) && decide (t.inst = inst)) = false := by simpa using h
  have kept : ∀ u : TableInst, ((!(decide (u.table = t.table) && decide (u.inst = t.inst))) = true ∧
      (decide (u.table = table) && decide (u.inst = inst)) = true) ↔ (decide (u.table = table) && decide (u.inst = inst)) = true := by
    refine fun u => ⟨And.right, fun e => ⟨?_, e⟩⟩
    simp only [Bool.and_eq_true, decide_eq_true_eq] at e
    have clash : ¬(u.table = t.table ∧ u.inst = t.inst) := by
      rw [e.1, e.2]
      exact fun c => h ⟨c.1.symm, c.2.symm⟩
    rwa [Bool.not_eq_true', ← Bool.not_eq_true, Bool.and_eq_true, decide_eq_true_eq, decide_eq_true_eq]
  simp only [tblInst, putInst, List.find?_cons, other, List.find?_filter, kept, Bool.decide_eq_true]

/-- Where a table keeps the live bytes, every consumer reads as before. -/
theorem tblLive_putInst (d : Dev) {t : TableInst} (h : t.live = (d.tblInst t.table t.inst).live) (table inst off : Nat) :
    (d.putInst t).tblLive table inst off = d.tblLive table inst off := by
  have live : ((d.putInst t).tblInst table inst).live = (d.tblInst table inst).live := by
    by_cases e : t.table = table ∧ t.inst = inst
    · obtain ⟨rfl, rfl⟩ := e
      rw [tblInst_putInst_self d rfl rfl, h]
    · rw [tblInst_putInst_ne d e]
  unfold tblLive
  rw [live]
  rfl

/-! A page moves (R45). -/

theorem movePage_live (d : Dev) {t : TableInst} (h : t = d.tblInst t.table t.inst) (page table inst off : Nat) :
    (movePage d t page).tblLive table inst off = d.tblLive table inst off := by
  have live : t.live = (d.tblInst t.table t.inst).live := congrArg TableInst.live h
  have put : ∀ moved, (d.putInst { t with moved := moved }).tblLive table inst off = d.tblLive table inst off := fun moved =>
    tblLive_putInst d (t := { t with moved := moved }) live table inst off
  unfold movePage
  dsimp only
  split
  · exact put _
  · split
    · exact put _
    · rfl

/-- A page for which there is room on chip lies in DRAM no more. -/
theorem movePage_moved (d : Dev) (t : TableInst) (page : Nat) (able : 0 < d.ownFree t.table t.inst ∨ 0 < d.poolFree) :
    (page, PageLoc.dram) ∉ ((movePage d t page).tblInst t.table t.inst).moved := by
  unfold movePage
  dsimp only
  split
  · rw [tblInst_putInst_self d rfl rfl]
    simp
  next own =>
    rw [if_pos (able.resolve_left own), tblInst_putInst_self d rfl rfl]
    intro m
    obtain ⟨q, -, e⟩ := List.mem_map.mp m
    split at e
    · simp at e
    next ne => exact ne (congrArg Prod.fst e)

/-- A page for which its table's own pages or the pool have room. -/
def onChipRoom (d : Dev) (t : TableInst) : Bool := decide (0 < d.ownFree t.table t.inst) || decide (0 < d.poolFree)

theorem movePage_only (d : Dev) (t : TableInst) (page : Nat) : movePage d t page = { d with tbl := (movePage d t page).tbl } := by
  unfold movePage
  dsimp only
  split
  · rfl
  · split <;> rfl

theorem pageMove_only (d : Dev) : actPageMove d = { d with tbl := (actPageMove d).tbl } := by
  unfold actPageMove
  dsimp only
  split
  · rfl
  · split
    · rfl
    · exact movePage_only ..

theorem pageMove_live (d : Dev) (table inst off : Nat) : (actPageMove d).tblLive table inst off = d.tblLive table inst off := by
  unfold actPageMove
  dsimp only
  split
  · rfl
  next t _ =>
    split
    · rfl
    · refine movePage_live d ?_ ..
      obtain ⟨table, inst⟩ := d.tblInst_names t.table t.inst
      rw [table, inst]

theorem pageMove_moved (d : Dev) {x : TableInst} {p : Nat × PageLoc}
    (first : d.tbl.tables.find? (fun t => d.onChipRoom t && t.moved.any fun q => q.2 = .dram) = some x)
    (page : (d.tblInst x.table x.inst).moved.find? (fun q => q.2 = .dram) = some p) :
    (p.1, PageLoc.dram) ∉ ((actPageMove d).tblInst x.table x.inst).moved := by
  have moves : actPageMove d = movePage d (d.tblInst x.table x.inst) p.1 := by
    unfold actPageMove
    dsimp only
    rw [show (d.tbl.tables.find? fun t => (decide (0 < d.ownFree t.table t.inst) || decide (0 < d.poolFree)) &&
      t.moved.any fun p => p.2 = .dram) = some x from first]
    dsimp only
    rw [page]
  have room : 0 < d.ownFree x.table x.inst ∨ 0 < d.poolFree := by
    have found := List.find?_some first
    simp only [onChipRoom, Bool.and_eq_true, Bool.or_eq_true, decide_eq_true_eq] at found
    exact found.1
  have names := d.tblInst_names x.table x.inst
  rw [moves]
  generalize d.tblInst x.table x.inst = t at names
  obtain ⟨table, inst⟩ := names
  rw [← table, ← inst] at room ⊢
  exact movePage_moved d t p.1 room

/-! The byte that a read through TBL returns (R42). -/

/-- The bytes of a page as TBL reads them: shadow content first, then what waits for a camera, then the live bytes. -/
def pageBytes (t : TableInst) (page : Nat) : SMap :=
  ((t.shadow.find? fun p => p.page = page).or (t.held.find? fun p => p.page = page)).elim t.live ShadowPage.bytes

theorem tblByte_eq {table : Nat} (h : table ≠ 2) (d : Dev) (inst off : Nat) :
    d.tblByte table inst off = tblKeep table off (SMap.get (pageBytes (d.tblInst table inst) (off / 4096)) off) := by
  have plain : (decide (table = 2) && isLinkByte (off % 256)) = false := by simp [h]
  unfold tblByte
  rw [plain]
  rfl

theorem tblByte_congr {table : Nat} (h : table ≠ 2) {d e : Dev} (same : e.tbl.tables = d.tbl.tables) (inst off : Nat) :
    e.tblByte table inst off = d.tblByte table inst off := by
  rw [tblByte_eq h, tblByte_eq h, tblInst, tblInst, same]

/-! A page gets a shadow page (R42, R43). -/

/-- A page of a table has a shadow page. -/
def shadowed (d : Dev) (table inst page : Nat) : Bool := (d.tblInst table inst).shadow.any fun p => p.page = page

/-- The shadow page that a page would get: a copy of it as committed. -/
def shadowCopy (t : TableInst) (page : Nat) (loc : PageLoc) : ShadowPage :=
  ⟨page, loc, match t.held.find? fun p => p.page = page with
    | some p => p.bytes
    | none => t.live.filter fun p => p.1 / 4096 = page⟩

/-- A table with a shadow page for a page. -/
def withShadow (t : TableInst) (page : Nat) (loc : PageLoc) : TableInst := { t with shadow := t.shadow ++ [shadowCopy t page loc] }

theorem ensureShadow_of_shadowed {d : Dev} {table inst page : Nat} (h : d.shadowed table inst page = true) :
    d.ensureShadow table inst page = d := if_pos h

theorem ensureShadow_of_full {d : Dev} {table inst : Nat} (h : d.nextPageLoc table inst = none) (page : Nat) :
    d.ensureShadow table inst page = d := by
  unfold ensureShadow
  rw [h]
  exact ite_self _

theorem ensureShadow_of_room {d : Dev} {table inst page : Nat} {loc : PageLoc} (new : d.shadowed table inst page = false)
    (h : d.nextPageLoc table inst = some loc) :
    d.ensureShadow table inst page = d.putInst (withShadow (d.tblInst table inst) page loc) := by
  unfold ensureShadow
  dsimp only
  rw [h, if_neg (by rw [← shadowed, new]; exact Bool.false_ne_true)]
  rfl

/-- The three ways in which a page is given a shadow page, or not. -/
theorem ensureShadow_cases (d : Dev) (table inst page : Nat) :
    d.ensureShadow table inst page = d ∧ (d.shadowed table inst page = true ∨ d.nextPageLoc table inst = none) ∨
    d.shadowed table inst page = false ∧
      ∃ loc, d.ensureShadow table inst page = d.putInst (withShadow (d.tblInst table inst) page loc) := by
  cases has : d.shadowed table inst page with
  | true => exact .inl ⟨ensureShadow_of_shadowed has, .inl rfl⟩
  | false =>
    cases room : d.nextPageLoc table inst with
    | none => exact .inl ⟨ensureShadow_of_full room page, .inr rfl⟩
    | some loc => exact .inr ⟨rfl, loc, ensureShadow_of_room has room⟩

theorem shadowed_withShadow (d : Dev) (table inst page p : Nat) (loc : PageLoc) :
    (d.putInst (withShadow (d.tblInst table inst) page loc)).shadowed table inst p =
      (d.shadowed table inst p || decide (page = p)) := by
  obtain ⟨t, i⟩ := d.tblInst_names table inst
  unfold shadowed
  rw [tblInst_putInst_self (t := withShadow _ page loc) d t i]
  simp [withShadow, shadowCopy]

/-- A page that has a shadow page keeps it. -/
theorem shadowed_ensureShadow_of_shadowed {d : Dev} {table inst p : Nat} (h : d.shadowed table inst p = true) (page : Nat) :
    (d.ensureShadow table inst page).shadowed table inst p = true := by
  obtain ⟨e, -⟩ | ⟨-, loc, e⟩ := d.ensureShadow_cases table inst page
  · rw [e, h]
  · rw [e, shadowed_withShadow, h, Bool.true_or]

/-- A page that has a shadow page after another was given one had it before. -/
theorem shadowed_of_ensureShadow {d : Dev} {table inst p page : Nat} (ne : page ≠ p)
    (h : (d.ensureShadow table inst page).shadowed table inst p = true) : d.shadowed table inst p = true := by
  obtain ⟨e, -⟩ | ⟨-, loc, e⟩ := d.ensureShadow_cases table inst page
  · rwa [e] at h
  · rw [e, shadowed_withShadow] at h
    simpa [ne] using h

/-- A page finds a shadow page unless no page is free. -/
theorem shadowed_ensureShadow_iff (d : Dev) (table inst page : Nat) :
    (d.ensureShadow table inst page).shadowed table inst page = true ↔
      d.shadowed table inst page = true ∨ (d.nextPageLoc table inst).isSome = true := by
  cases has : d.shadowed table inst page with
  | true => simp [ensureShadow_of_shadowed has, has]
  | false =>
    cases room : d.nextPageLoc table inst with
    | none => simp [ensureShadow_of_full room, has]
    | some loc => simp [ensureShadow_of_room has room, shadowed_withShadow]

theorem ensureShadow_idem (d : Dev) (table inst page : Nat) :
    (d.ensureShadow table inst page).ensureShadow table inst page = d.ensureShadow table inst page := by
  obtain ⟨e, -⟩ | ⟨-, loc, e⟩ := d.ensureShadow_cases table inst page
  · rw [e, e]
  · refine ensureShadow_of_shadowed ?_
    rw [e, shadowed_withShadow, decide_eq_true rfl, Bool.or_true]

theorem find?_shadowCopy (t : TableInst) (page q : Nat) (loc : PageLoc) :
    ([shadowCopy t page loc].find? fun p => p.page = q) = if page = q then some (shadowCopy t page loc) else none := by
  rw [List.find?_singleton]
  exact if_congr (decide_eq_true_iff (p := page = q)) rfl rfl

/-- A shadow page shows what the page showed. -/
theorem pageBytes_withShadow {t : TableInst} {page : Nat} (new : (t.shadow.any fun p => p.page = page) = false) (loc : PageLoc) (off : Nat) :
    SMap.get (pageBytes (withShadow t page loc) (off / 4096)) off =
      SMap.get (pageBytes t (off / 4096)) off := by
  have lookup := find?_shadowCopy t page (off / 4096) loc
  by_cases own : page = off / 4096
  · subst own
    have none_ : (t.shadow.find? fun p => p.page = off / 4096) = none := by
      rw [List.find?_eq_none]
      simpa using new
    rw [if_pos rfl] at lookup
    unfold pageBytes withShadow
    dsimp only
    rw [List.find?_append, none_, lookup, Option.none_or, Option.some_or, Option.none_or]
    cases held : t.held.find? fun p => p.page = off / 4096 with
    | some p => simp only [Option.elim_some, shadowCopy, held]
    | none =>
      simp only [Option.elim_some, Option.elim_none, shadowCopy, held]
      unfold SMap.get
      rw [SMap.find?_filter (p := fun k => decide (k / 4096 = off / 4096)) (decide_eq_true rfl)]
  · rw [if_neg own] at lookup
    unfold pageBytes withShadow
    dsimp only
    rw [List.find?_append, lookup, Option.or_none]

theorem tblByte_ensureShadow {table : Nat} (h : table ≠ 2) (d : Dev) (inst page off : Nat) :
    (d.ensureShadow table inst page).tblByte table inst off = d.tblByte table inst off := by
  obtain ⟨e, -⟩ | ⟨new, loc, e⟩ := d.ensureShadow_cases table inst page
  · rw [e]
  · obtain ⟨t, i⟩ := d.tblInst_names table inst
    rw [e, tblByte_eq h, tblByte_eq h, tblInst_putInst_self (t := withShadow _ page loc) d t i, pageBytes_withShadow new]

/-! A byte goes into its shadow page. -/

/-- A shadow page with a byte of the table set. -/
def setPageByte (off v : Nat) (p : ShadowPage) : ShadowPage :=
  if p.page = off / 4096 then { p with bytes := SMap.set p.bytes off (v % 256) } else p

/-- A table with a byte of its shadow pages set. -/
def setInstByte (t : TableInst) (off v : Nat) : TableInst := { t with shadow := t.shadow.map (setPageByte off v) }

theorem setPageByte_page (off v : Nat) (p : ShadowPage) : (setPageByte off v p).page = p.page := by
  unfold setPageByte
  split <;> rfl

theorem setPageByte_loc (off v : Nat) (p : ShadowPage) : (setPageByte off v p).loc = p.loc := by
  unfold setPageByte
  split <;> rfl

theorem tblWriteByte_eq {table : Nat} (h : table ≠ 2) (d : Dev) (inst off v : Nat) :
    d.tblWriteByte table inst off v = (d.ensureShadow table inst (off / 4096)).putInst
      (setInstByte ((d.ensureShadow table inst (off / 4096)).tblInst table inst) off v) := by
  have plain : ¬((decide (table = 2) && isLinkByte (off % 256)) = true) := by simp [h]
  exact if_neg plain

theorem find?_setInstByte (t : TableInst) (off v q : Nat) :
    ((setInstByte t off v).shadow.find? fun p => p.page = q) = (t.shadow.find? fun p => p.page = q).map (setPageByte off v) := by
  rw [setInstByte, List.find?_map]
  congr 2
  funext p
  exact congrArg (fun k => decide (k = q)) (setPageByte_page off v p)

/-- The byte set reads as set, and no other byte changes. -/
theorem pageBytes_setInstByte {t : TableInst} {off : Nat} (has : (t.shadow.any fun p => p.page = off / 4096) = true) (v o : Nat) :
    SMap.get (pageBytes (setInstByte t off v) (o / 4096)) o = if o = off then v % 256 else SMap.get (pageBytes t (o / 4096)) o := by
  unfold pageBytes
  rw [find?_setInstByte]
  cases found : t.shadow.find? fun p => p.page = o / 4096 with
  | some p =>
    have page : p.page = o / 4096 := by simpa using List.find?_some found
    simp only [Option.map_some, Option.some_or, Option.elim_some, setPageByte, page]
    by_cases own : o / 4096 = off / 4096
    · rw [if_pos own]
      exact SMap.get_set ..
    · rw [if_neg own, if_neg fun e => own (congrArg (· / 4096) e)]
  | none =>
    have other : o ≠ off := by
      rintro rfl
      rw [List.find?_eq_none] at found
      obtain ⟨p, m, page⟩ := List.any_eq_true.mp has
      exact found p m page
    rw [if_neg other, Option.map_none]
    rfl

theorem tblByte_writeByte {table : Nat} (h : table ≠ 2) {d : Dev} {inst off : Nat}
    (has : (d.ensureShadow table inst (off / 4096)).shadowed table inst (off / 4096) = true) (v o : Nat) :
    (d.tblWriteByte table inst off v).tblByte table inst o =
      if o = off then tblKeep table off (v % 256) else d.tblByte table inst o := by
  rw [tblWriteByte_eq h, ← d.tblByte_ensureShadow h inst (off / 4096) o]
  generalize d.ensureShadow table inst (off / 4096) = e at has
  obtain ⟨t, i⟩ := e.tblInst_names table inst
  rw [tblByte_eq h, tblByte_eq h, tblInst_putInst_self (t := setInstByte _ off v) e t i, pageBytes_setInstByte has]
  by_cases own : o = off
  · rw [if_pos own, if_pos own, own]
  · rw [if_neg own, if_neg own]

/-! A byte set takes no page. -/

theorem shadowed_setInstByte (d : Dev) (table inst off v p : Nat) :
    (d.putInst (setInstByte (d.tblInst table inst) off v)).shadowed table inst p = d.shadowed table inst p := by
  obtain ⟨t, i⟩ := d.tblInst_names table inst
  unfold shadowed
  rw [tblInst_putInst_self (t := setInstByte _ off v) d t i]
  simp only [setInstByte, List.any_map, Function.comp_def, setPageByte_page]

theorem length_loc_setInstByte (t : TableInst) (off v : Nat) (l : PageLoc) :
    ((setInstByte t off v).shadow.filter fun p => p.loc = l).length = (t.shadow.filter fun p => p.loc = l).length := by
  simp only [setInstByte, List.filter_map, List.length_map, Function.comp_def, setPageByte_loc]

theorem ownSpare_setInstByte (t : TableInst) (off v : Nat) : ownSpare (setInstByte t off v) = ownSpare t := by
  unfold ownSpare
  rw [length_loc_setInstByte]
  rfl

/-- Pages of a table that lie in a place. -/
def instPages (l : PageLoc) (t : TableInst) : Nat :=
  (t.moved.filter fun p => p.2 = l).length + (t.shadow.filter fun p => p.loc = l).length + (t.held.filter fun p => p.loc = l).length

theorem instPages_setInstByte (l : PageLoc) (t : TableInst) (off v : Nat) : instPages l (setInstByte t off v) = instPages l t := by
  unfold instPages
  rw [length_loc_setInstByte]
  rfl

/-- A table that is stored takes the place of all that have its name. -/
theorem sum_putInst_le (f : TableInst → Nat) (p : TableInst → Bool) : ∀ (l : List TableInst) (t : TableInst), l.find? p = some t →
    f t + ((l.filter fun u => !p u).map f).sum ≤ (l.map f).sum := by
  intro l
  induction l with
  | nil => exact fun _ h => absurd h (by simp)
  | cons u r ih =>
    intro t h
    cases hu : p u with
    | true =>
      obtain rfl : u = t := by simpa [hu] using h
      have fewer : ((r.filter fun u => !p u).map f).sum ≤ (r.map f).sum :=
        (List.filter_sublist.map f).sum_le_sum (fun _ _ => Nat.zero_le _)
      simpa [hu] using fewer
    | false =>
      have rest := ih t (by simpa [hu] using h)
      simp only [List.filter_cons, hu, Bool.not_false, if_true, List.map_cons, List.sum_cons]
      omega

theorem pagesIn_setInstByte (d : Dev) {table inst page : Nat} (has : d.shadowed table inst page = true) (off v : Nat) (l : PageLoc) :
    (d.putInst (setInstByte (d.tblInst table inst) off v)).pagesIn l ≤ d.pagesIn l := by
  obtain ⟨t, i⟩ := d.tblInst_names table inst
  have found : d.tbl.tables.find? (fun u => decide (u.table = table) && decide (u.inst = inst)) = some (d.tblInst table inst) := by
    unfold shadowed tblInst at has
    unfold tblInst
    cases e : d.tbl.tables.find? fun u => decide (u.table = table) && decide (u.inst = inst) with
    | some u => rfl
    | none => simp [e] at has
  have fewer := sum_putInst_le (instPages l) _ _ _ found
  have put : (d.putInst (setInstByte (d.tblInst table inst) off v)).pagesIn l =
      instPages l (setInstByte (d.tblInst table inst) off v) +
        ((d.tbl.tables.filter fun u => !(decide (u.table = table) && decide (u.inst = inst))).map (instPages l)).sum := by
    have names : (setInstByte (d.tblInst table inst) off v).table = table ∧ (setInstByte (d.tblInst table inst) off v).inst = inst := ⟨t, i⟩
    generalize setInstByte (d.tblInst table inst) off v = x at names
    obtain ⟨rfl, rfl⟩ := names
    exact List.sum_cons
  rw [put, instPages_setInstByte]
  exact fewer

theorem ownFree_setInstByte (d : Dev) (table inst off v : Nat) :
    (d.putInst (setInstByte (d.tblInst table inst) off v)).ownFree table inst = d.ownFree table inst := by
  obtain ⟨t, i⟩ := d.tblInst_names table inst
  have own := tblInst_putInst_self (t := setInstByte _ off v) d t i
  have spare := ownSpare_setInstByte (d.tblInst table inst) off v
  have blocks : (d.putInst (setInstByte (d.tblInst table inst) off v)).blocksW * (d.putInst (setInstByte (d.tblInst table inst) off v)).blocksH =
    d.blocksW * d.blocksH := rfl
  have moved : (setInstByte (d.tblInst table inst) off v).moved = (d.tblInst table inst).moved := rfl
  unfold ownFree
  split
  next blocking =>
    by_cases first : inst = 0
    · subst blocking first
      rw [regionFree, regionFree, blockRegionLive, blockRegionLive, own, spare, blocks, moved]
    · have other := tblInst_putInst_ne (t := setInstByte (d.tblInst table inst) off v) (table := 1) (inst := 0) d
        fun c => first (i.symm.trans c.2)
      rw [regionFree, regionFree, blockRegionLive, blockRegionLive, other, blocks]
  next => rw [leftFree, leftFree, own, spare, moved]

/-- Where a page was free, one is free after a byte was set. -/
theorem nextPageLoc_setInstByte {d : Dev} {table inst page : Nat} (has : d.shadowed table inst page = true) (off v : Nat)
    (room : (d.nextPageLoc table inst).isSome = true) :
    ((d.putInst (setInstByte (d.tblInst table inst) off v)).nextPageLoc table inst).isSome = true := by
  have own := d.ownFree_setInstByte table inst off v
  have pool := d.pagesIn_setInstByte has off v .pool
  have dram := d.pagesIn_setInstByte has off v .dram
  have carved : (d.putInst (setInstByte (d.tblInst table inst) off v)).tbl.carved = d.tbl.carved := rfl
  generalize d.putInst (setInstByte (d.tblInst table inst) off v) = e at own pool dram carved
  have free : ∀ x : Dev, (x.nextPageLoc table inst).isSome = true ↔
      0 < x.ownFree table inst ∨ 0 < x.poolFree ∨ x.pagesIn .dram < Config.dramPages := by
    intro x
    unfold nextPageLoc
    split
    · simp [*]
    · split
      · simp [*]
      · split <;> simp [*]
  rw [free] at room ⊢
  unfold poolFree at room ⊢
  omega

/-! The bytes of an entry go in (R42). -/

/-- Page a has a shadow page, and page b has one or finds one. -/
def Placed (d : Dev) (table inst a b : Nat) : Prop :=
  d.shadowed table inst a = true ∧ (d.ensureShadow table inst b).shadowed table inst b = true

/-- A byte of either page finds its shadow page, and both pages stay placed. -/
theorem placed_writeByte {table : Nat} (h : table ≠ 2) {d : Dev} {inst a b : Nat} (placed : d.Placed table inst a b) {off : Nat}
    (page : off / 4096 = a ∨ off / 4096 = b) (v : Nat) :
    (d.ensureShadow table inst (off / 4096)).shadowed table inst (off / 4096) = true ∧ (d.tblWriteByte table inst off v).Placed table inst a b := by
  obtain ⟨hasA, hasB⟩ := placed
  rw [tblWriteByte_eq h]
  rcases page with rfl | rfl
  · rw [ensureShadow_of_shadowed hasA]
    rw [shadowed_ensureShadow_iff] at hasB
    refine ⟨hasA, (d.shadowed_setInstByte ..).trans hasA, (shadowed_ensureShadow_iff ..).mpr ?_⟩
    rw [shadowed_setInstByte]
    exact hasB.imp_right (nextPageLoc_setInstByte hasA off v)
  · refine ⟨hasB, (shadowed_setInstByte ..).trans (shadowed_ensureShadow_of_shadowed hasA _), ?_⟩
    exact shadowed_ensureShadow_of_shadowed ((shadowed_setInstByte ..).trans hasB) _

theorem tblByte_writeBytes {table : Nat} (h : table ≠ 2) {inst a b : Nat} : ∀ (l : List Nat) (off : Nat) {d : Dev}, d.Placed table inst a b →
    (∀ i < l.length, (off + i) / 4096 = a ∨ (off + i) / 4096 = b) → ∀ o, (d.tblWriteBytes table inst off l).tblByte table inst o =
      if off ≤ o ∧ o < off + l.length then tblKeep table o (l.getD (o - off) 0 % 256) else d.tblByte table inst o := by
  intro l
  induction l with
  | nil =>
    intro off d _ _ o
    rw [if_neg (by rw [List.length_nil]; omega)]
    rfl
  | cons v r ih =>
    intro off d placed pages o
    have first : off / 4096 = a ∨ off / 4096 = b := pages 0 (Nat.succ_pos _)
    obtain ⟨has, placed'⟩ := placed_writeByte h placed first v
    have pages' : ∀ i < r.length, (off + 1 + i) / 4096 = a ∨ (off + 1 + i) / 4096 = b := fun i hi => by
      rw [Nat.add_assoc, Nat.add_comm 1]
      exact pages (i + 1) (Nat.succ_lt_succ hi)
    have step : (d.tblWriteBytes table inst off (v :: r)).tblByte table inst o = _ := ih (off + 1) placed' pages' o
    rw [step, tblByte_writeByte h has, List.length_cons]
    by_cases later : off + 1 ≤ o ∧ o < off + 1 + r.length
    · rw [if_pos later, if_pos (by omega), show o - off = o - (off + 1) + 1 by omega, List.getD_cons_succ]
    · rw [if_neg later]
      by_cases own : o = off
      · subst own
        rw [if_pos rfl, if_pos (by omega), Nat.sub_self, List.getD_cons_zero]
      · rw [if_neg own, if_neg (by omega)]

/-- A first byte gives its page a shadow page itself. -/
theorem writeBytes_ensureShadow {table : Nat} (h : table ≠ 2) (d : Dev) (inst off v : Nat) (r : List Nat) :
    (d.ensureShadow table inst (off / 4096)).tblWriteBytes table inst off (v :: r) = d.tblWriteBytes table inst off (v :: r) := by
  rw [tblWriteBytes, tblWriteBytes, tblWriteByte_eq h, tblWriteByte_eq h, ensureShadow_idem]

theorem tblEsize_le (table inst : Nat) : tblEsize table inst ≤ 256 := by
  unfold tblEsize
  split
  · split <;> decide
  · split <;> decide
  · split <;> decide
  · split <;> decide
  · decide

/-- Where an entry finds its pages, they are placed (R49). -/
theorem placed_of_freePage {d : Dev} {table inst index : Nat} (room : d.noFreePage table inst index = false) :
    (d.ensureShadow table inst (index * tblEsize table inst / 4096)).Placed table inst (index * tblEsize table inst / 4096)
      ((index * tblEsize table inst + tblEsize table inst - 1) / 4096) := by
  unfold noFreePage at room
  dsimp only at room
  generalize index * tblEsize table inst / 4096 = a at room
  generalize (index * tblEsize table inst + tblEsize table inst - 1) / 4096 = b at room
  obtain ⟨hasA, hasB⟩ : ((d.ensureShadow table inst a).ensureShadow table inst b).shadowed table inst a = true ∧
      ((d.ensureShadow table inst a).ensureShadow table inst b).shadowed table inst b = true := by
    simpa [shadowed] using room
  refine ⟨?_, hasB⟩
  by_cases e : b = a
  · subst e
    rwa [ensureShadow_idem] at hasA
  · exact shadowed_of_ensureShadow e hasA

theorem tblByte_writeEntryBytes {table : Nat} (h : table ≠ 2) {d : Dev} {inst index : Nat} (room : d.noFreePage table inst index = false)
    {l : List Nat} (len : l.length = tblEsize table inst) (o : Nat) :
    (d.tblWriteBytes table inst (index * tblEsize table inst) l).tblByte table inst o =
      if index * tblEsize table inst ≤ o ∧ o < index * tblEsize table inst + tblEsize table inst then
        tblKeep table o (l.getD (o - index * tblEsize table inst) 0 % 256) else d.tblByte table inst o := by
  have placed := placed_of_freePage room
  have small := tblEsize_le table inst
  have size := len.symm
  generalize tblEsize table inst = e at placed small size
  cases l with
  | nil =>
    rw [if_neg (by rw [size, List.length_nil]; omega)]
    rfl
  | cons v r =>
    have pages : ∀ i < (v :: r).length, (index * e + i) / 4096 = index * e / 4096 ∨ (index * e + i) / 4096 = (index * e + e - 1) / 4096 := by
      intro i hi
      omega
    rw [← writeBytes_ensureShadow h, tblByte_writeBytes h (v :: r) (index * e) placed pages, tblByte_ensureShadow h, size]

/-! What a write to an entry leaves alone. -/

/-- A write to tables alone, to the groups' dirt and to the pairing stream. -/
structure Writes (ws : List Nat) (d e : Dev) : Prop where
  keeps  : Keeps ws d e
  poison : e.poison = d.poison
  late   : e.late = d.late

namespace Writes

variable {ws : List Nat} {c d e : Dev}

theorem refl : Writes ws d d := ⟨.refl, rfl, rfl⟩

theorem trans (h : Writes ws c d) (h' : Writes ws d e) : Writes ws c e :=
  ⟨h.keeps.trans h'.keeps, h'.poison.trans h.poison, h'.late.trans h.late⟩

theorem wider {ws' : List Nat} (h : Writes ws d e) (s : ∀ w ∈ ws, w ∈ ws') : Writes ws' d e := ⟨h.keeps.wider s, h.poison, h.late⟩

theorem putInst (d : Dev) (t : TableInst) : Writes ws d (d.putInst t) := ⟨.set_tbl .refl, rfl, rfl⟩

theorem ensureShadow (d : Dev) (table inst page : Nat) : Writes ws d (d.ensureShadow table inst page) := by
  obtain ⟨e, -⟩ | ⟨-, loc, e⟩ := d.ensureShadow_cases table inst page
  · rw [e]
    exact .refl
  · rw [e]
    exact putInst ..

theorem writeByte (d : Dev) (table inst off v : Nat) : Writes ws d (d.tblWriteByte table inst off v) := by
  unfold tblWriteByte
  dsimp only
  split
  · exact ensureShadow ..
  · exact (ensureShadow ..).trans (putInst ..)

theorem writeBytes (table inst : Nat) : ∀ (l : List Nat) (d : Dev) (off : Nat), Writes ws d (d.tblWriteBytes table inst off l)
  | [], _, _ => refl
  | _ :: r, _, _ => (writeByte ..).trans (writeBytes table inst r _ _)

theorem dirty (d : Dev) (g : Nat) : Writes [2] d (d.dirty g) := ⟨.wr (by decide) .refl, rfl, rfl⟩

theorem restartBase (d : Dev) : Writes [7] d d.restartBase := ⟨.cnt (by decide) (.set_pair .refl), rfl, rfl⟩

theorem ite {p : Prop} [Decidable p] {a b : Dev} (ha : Writes ws d a) (hb : Writes ws d b) : Writes ws d (if p then a else b) := by
  split
  · exact ha
  · exact hb

theorem emitFrame (d : Dev) (f : PairFrame) (body : PairBody) : Writes ws d (d.emitFrame f body) := ⟨.emit .refl, rfl, rfl⟩

theorem putPair (d : Dev) (p : PairPart) : Writes ws d { d with pair := p } := ⟨.set_pair .refl, rfl, rfl⟩

theorem sendState (d : Dev) (body : PairBody) : Writes [7] d (d.sendState body) := by
  have sent (p : PairPart) := (emitFrame (ws := [7]) d (d.pairFrame d.pair.txSeq body) body).trans (putPair _ p)
  exact .ite .refl (.ite ((sent _).trans (restartBase _)) (sent _))

theorem mirrorWrite (d : Dev) (w : MirrorWrite) : Writes [7] d (d.mirrorWrite w) := .ite (sendState ..) .refl

theorem writeEntry (d : Dev) (table inst index : Nat) (l : List Nat) : Writes [2, 7] d (d.tblWriteEntry table inst index l) := by
  have dirtied (d : Dev) (g : Nat) : Writes [2, 7] d (d.dirty g) := (dirty d g).wider (by decide)
  have mirrored (d : Dev) (w : MirrorWrite) : Writes [2, 7] d (d.mirrorWrite w) := (mirrorWrite d w).wider (by decide)
  unfold tblWriteEntry
  dsimp only
  split
  · exact putPair ..
  · exact ((writeBytes ..).trans (dirtied ..)).trans (mirrored ..)

theorem dramC (h : Writes [2, 7] d e) : e.dramC = d.dramC := by
  unfold Dev.dramC
  rw [h.keeps.rd _ (by decide)]

theorem mirrorOn (h : Writes [2] d e) : e.mirrorOn = d.mirrorOn := by
  unfold Dev.mirrorOn Dev.state Dev.rdb
  rw [h.keeps.off, h.keeps.rd _ (by decide), h.keeps.rd _ (by decide)]

end Writes

/-- Outside mirror mode a write to an entry goes nowhere else (R351). -/
theorem writeEntry_unmirrored {d : Dev} (unmirrored : d.mirrorOn = false) (table inst index : Nat) (l : List Nat) :
    d.tblWriteEntry table inst index l =
      (d.tblWriteBytes table inst (index * tblEsize table inst) (l.take (tblEsize table inst))).dirty (d.tblGroup table) := by
  have undecided : d.decidedLine (d.tblGroup table) = none := by rw [decidedLine, unmirrored]; rfl
  have written := (Writes.writeBytes (ws := [2]) table inst (l.take (tblEsize table inst)) d (index * tblEsize table inst)).trans
    (.dirty _ (d.tblGroup table))
  unfold tblWriteEntry
  dsimp only
  rw [undecided]
  dsimp only
  rw [mirrorWrite, written.mirrorOn, unmirrored]
  rfl

theorem tblByte_writeEntry {table : Nat} (h : table ≠ 2) {d : Dev} (unmirrored : d.mirrorOn = false) {inst index : Nat}
    (room : d.noFreePage table inst index = false) {l : List Nat} (len : l.length = tblEsize table inst) (o : Nat) :
    (d.tblWriteEntry table inst index l).tblByte table inst o =
      if index * tblEsize table inst ≤ o ∧ o < index * tblEsize table inst + tblEsize table inst then
        tblKeep table o (l.getD (o - index * tblEsize table inst) 0 % 256) else d.tblByte table inst o := by
  rw [writeEntry_unmirrored unmirrored, ← tblByte_writeEntryBytes h room len, ← len, List.take_length]
  exact tblByte_congr h rfl ..

theorem mirrorOn_writeEntry {d : Dev} (unmirrored : d.mirrorOn = false) (table inst index : Nat) (l : List Nat) :
    (d.tblWriteEntry table inst index l).mirrorOn = false := by
  rw [writeEntry_unmirrored unmirrored]
  exact ((Writes.writeBytes (ws := [2]) ..).trans (.dirty ..)).mirrorOn.trans unmirrored

/-! A read that is reported (R482, R491). -/

theorem log_parts (d : Dev) (s i c k x p : Nat) (n : Option LogNote) : (d.log s i c k x p n).wq = d.wq ∧ (d.log s i c k x p n).tbl = d.tbl :=
  ⟨logEntry_wq .., logEntry_tbl ..⟩

/-- The count and the address of an uncorrectable error on a channel. -/
def ueShown (d : Dev) (ch unit : Nat) : Dev :=
  (d.cnt (R.DRM_UE (ch / 8) (ch % 8))).wrPair (R.DRM_UE_ADDR_LO (ch / 8)) (R.DRM_UE_ADDR_HI (ch / 8)) (32 * unit)

theorem ueShown_parts (d : Dev) (ch unit : Nat) : (d.ueShown ch unit).wq = d.wq ∧ (d.ueShown ch unit).tbl = d.tbl := ⟨rfl, rfl⟩

theorem dramUe_eq (d : Dev) (u : Nat) (cls : TrafficClass) :
    d.dramUe u cls = (d.ueShown (d.dramPlace (32 * u)).1 u).log (0x50 + (d.dramPlace (32 * u)).1 / 8) (d.dramPlace (32 * u)).1 3 0x00B
      (u % 2 ^ 32) 0 (some (.requester cls)) := rfl

theorem dramUe_parts (d : Dev) (u : Nat) (cls : TrafficClass) : (d.dramUe u cls).wq = d.wq ∧ (d.dramUe u cls).tbl = d.tbl := by
  rw [dramUe_eq]
  generalize (d.dramPlace (32 * u)).1 = ch
  obtain ⟨wq, tbl⟩ := d.ueShown_parts ch u
  obtain ⟨wq', tbl'⟩ := (d.ueShown ch u).log_parts (0x50 + ch / 8) ch 3 0x00B (u % 2 ^ 32) 0 (some (.requester cls))
  exact ⟨wq'.trans wq, tbl'.trans tbl⟩

/-- Each uncorrectable error of a range is reported. -/
def uesReported (d : Dev) (a n : Nat) (cls : TrafficClass) : Dev :=
  (d.poison.filter fun u => decide (a / 32 ≤ u) && decide (u ≤ (a + n - 1) / 32)).foldl (fun d u => d.dramUe u cls) d

/-- A read beyond the usable capacity is reported. -/
def beyondReported (d : Dev) (a n : Nat) : Dev :=
  if d.dramC < a + n then d.log 0x50 0 4 0x005 ((Nat.max a d.dramC) % 65536) else d

theorem reportRead_eq (d : Dev) (a n : Nat) (cls : TrafficClass) : d.reportRead a n cls = (d.uesReported a n cls).beyondReported a n := rfl

theorem uesReported_parts (d : Dev) (a n : Nat) (cls : TrafficClass) :
    (d.uesReported a n cls).wq = d.wq ∧ (d.uesReported a n cls).tbl = d.tbl := by
  unfold uesReported
  generalize (d.poison.filter fun u => decide (a / 32 ≤ u) && decide (u ≤ (a + n - 1) / 32)) = l
  induction l generalizing d with
  | nil => exact ⟨rfl, rfl⟩
  | cons u r ih =>
    obtain ⟨wq, tbl⟩ := d.dramUe_parts u cls
    rw [List.foldl_cons, (ih _).1, (ih _).2]
    exact ⟨wq, tbl⟩

theorem beyondReported_parts (d : Dev) (a n : Nat) : (d.beyondReported a n).wq = d.wq ∧ (d.beyondReported a n).tbl = d.tbl := by
  unfold beyondReported
  split
  · exact log_parts ..
  · exact ⟨rfl, rfl⟩

theorem reportRead_parts (d : Dev) (a n : Nat) (cls : TrafficClass) : (d.reportRead a n cls).wq = d.wq ∧ (d.reportRead a n cls).tbl = d.tbl := by
  obtain ⟨wq, tbl⟩ := d.uesReported_parts a n cls
  obtain ⟨wq', tbl'⟩ := (d.uesReported a n cls).beyondReported_parts a n
  rw [reportRead_eq]
  exact ⟨wq'.trans wq, tbl'.trans tbl⟩

end Dev

section
variable {s : State}

/-- The load that the registers ask for. -/
def Dev.loadAsked (d : Dev) : Option TblLoad :=
  if d.rd R.TBL_LOAD_COUNT_COUNT = 0 then none else
    some ⟨d.rd R.TBL_SEL_TABLE, d.rd R.TBL_SEL_INSTANCE, d.rd R.TBL_INDEX, d.rd R.TBL_LOAD_COUNT_COUNT,
      d.rdPair R.TBL_LOAD_ADDR_LO R.TBL_LOAD_ADDR_HI⟩

/-- TBL has a load, or none. -/
def Dev.putLoad (d : Dev) (l : Option TblLoad) : Dev := { d with tbl := { d.tbl with load := l } }

/-- LOAD_GO's effect (R48, R49): a range that lies in the table is loaded. -/
theorem tblLoadGo_begins {d : Dev} (free : d.tbl.load = none) (size : Dev.tblEsize (d.rd R.TBL_SEL_TABLE) (d.rd R.TBL_SEL_INSTANCE) ≠ 0)
    (inRange : d.rd R.TBL_INDEX + d.rd R.TBL_LOAD_COUNT_COUNT ≤ d.tblEntries (d.rd R.TBL_SEL_TABLE) (d.rd R.TBL_SEL_INSTANCE)) :
    actTblLoadGo d = (d.wr R.TBL_STATUS_ERROR 0).putLoad d.loadAsked := by
  have idle : ¬(d.tbl.load.isSome = true) := by simp [free]
  have addr : (d.wr R.TBL_STATUS_ERROR 0).rdPair R.TBL_LOAD_ADDR_LO R.TBL_LOAD_ADDR_HI = d.rdPair R.TBL_LOAD_ADDR_LO R.TBL_LOAD_ADDR_HI := by
    rw [Dev.rdPair, Dev.rd_wr_ne _ _ _ _ (by decide), Dev.rd_wr_ne _ _ _ _ (by decide), Dev.rdPair]
  unfold actTblLoadGo Dev.loadAsked
  dsimp only
  rw [if_neg idle, if_neg size, if_neg (Nat.not_lt.mpr inRange), addr]
  by_cases empty : d.rd R.TBL_LOAD_COUNT_COUNT = 0
  · rw [if_pos empty, if_pos empty, ← free]
    rfl
  · rw [if_neg empty, if_neg empty]
    rfl

theorem putLoad_rd (d : Dev) (l : Option TblLoad) (f : Fld) : (d.putLoad l).rd f = d.rd f := rfl

theorem answered_rd (s : State) (d : Dev) (data : Nat) (err : Bool) (f : Fld) : (s.answered d data err).dev.rd f = d.rd f := rfl

theorem load_begins (bus : s.BusFree 0x100002C) (free : s.dev.tbl.load = none)
    (size : Dev.tblEsize (s.dev.rd R.TBL_SEL_TABLE) (s.dev.rd R.TBL_SEL_INSTANCE) ≠ 0)
    (inRange : s.dev.rd R.TBL_INDEX + s.dev.rd R.TBL_LOAD_COUNT_COUNT ≤
      s.dev.tblEntries (s.dev.rd R.TBL_SEL_TABLE) (s.dev.rd R.TBL_SEL_INSTANCE)) :
    ∃ t, exec .tblLoadGo s = .next t ∧ t.dev.rd R.TBL_STATUS_ERROR = 0 ∧
      t.dev.tbl.load = (if s.dev.rd R.TBL_LOAD_COUNT_COUNT = 0 then none else
        some ⟨s.dev.rd R.TBL_SEL_TABLE, s.dev.rd R.TBL_SEL_INSTANCE, s.dev.rd R.TBL_INDEX, s.dev.rd R.TBL_LOAD_COUNT_COUNT,
          s.dev.rdPair R.TBL_LOAD_ADDR_LO R.TBL_LOAD_ADDR_HI⟩) ∧
      s.dev.SameBut [R.TBL_STATUS_ERROR.key] t.dev ∧ t.mem = s.mem ∧ t.pending = s.pending := by
  have ran := run_writeTo (f := fun _ => actTblLoadGo) (v := 1) bus (tblLoadGo_begins (d := s.start) free size inRange) rfl
  refine ⟨_, ran, ?_, rfl, fun f n => ?_, rfl, rfl⟩
  · rw [answered_rd, putLoad_rd, Dev.rd_wr_self]
    rfl
  · rw [answered_rd, putLoad_rd, Dev.rd_wr_ne _ _ _ _ fun e => n (e ▸ List.mem_singleton_self _)]
    rfl

theorem page_moves (on : s.dev.off = false) :
    ∃ t, exec .pageMoveOnchip s = .next t ∧
      (∀ table inst off, t.dev.tblLive table inst off = s.dev.tblLive table inst off) ∧
      (∀ x p, s.dev.tbl.tables.find? (fun y => (decide (0 < s.dev.ownFree y.table y.inst) || decide (0 < s.dev.poolFree)) &&
          y.moved.any fun q => q.2 = .dram) = some x →
        (s.dev.tblInst x.table x.inst).moved.find? (fun q => q.2 = .dram) = some p →
        (p.1, PageLoc.dram) ∉ (t.dev.tblInst x.table x.inst).moved) ∧
      t = { s with dev := { s.dev with tbl := t.dev.tbl, wq := [] } } := by
  have only := s.start.pageMove_only
  have quiet : (actPageMove s.start).wq = [] := congrArg Dev.wq only
  have ran : exec .pageMoveOnchip s = .next (s.withDev (actPageMove s.start)) := by
    rw [exec_pageMoveOnchip, run_on on, settle_quiet quiet]
  have live := s.start.pageMove_live
  have moved := fun x p => s.start.pageMove_moved (x := x) (p := p)
  generalize actPageMove s.start = d at only ran live moved
  refine ⟨_, ran, live, moved, ?_⟩
  rw [only]
  rfl

end

/-! The entries of a load, one after another (R48). -/

section
variable (m : List Host.Cell) (table inst : Nat)

/-- A load goes on at an entry that can be read and placed, and else stops there. -/
theorem loadEntries_succ (n index addr : Nat) (d : Dev) :
    loadEntries m table inst (n + 1) index addr d =
      if d.unreadable addr (Dev.tblEsize table inst) then (d.reportRead addr (Dev.tblEsize table inst), n + 1, 4) else
      if d.noFreePage table inst index then (d, n + 1, 3) else
      loadEntries m table inst n (index + 1) (addr + Dev.tblEsize table inst)
        (d.tblWriteEntry table inst index ((Memory.bytes m addr (Dev.tblEsize table inst)).map BitVec.toNat)) := rfl

/-- The entries left and the ERROR code of a load agree: none is left where it is 0, which else is 3 or 4. -/
def LoadStop (left code : Nat) : Prop := code = 0 ∧ left = 0 ∨ (code = 3 ∨ code = 4) ∧ 0 < left

theorem loadEntries_left : ∀ (n index addr : Nat) (d : Dev), (loadEntries m table inst n index addr d).2.1 ≤ n ∧
    LoadStop (loadEntries m table inst n index addr d).2.1 (loadEntries m table inst n index addr d).2.2 := by
  intro n
  induction n with
  | zero => exact fun _ _ _ => ⟨Nat.le_refl _, .inl ⟨rfl, rfl⟩⟩
  | succ n ih =>
    intro index addr d
    rw [loadEntries_succ]
    split
    · exact ⟨Nat.le_refl _, .inr ⟨.inr rfl, Nat.succ_pos n⟩⟩
    · split
      · exact ⟨Nat.le_refl _, .inr ⟨.inl rfl, Nat.succ_pos n⟩⟩
      · obtain ⟨fewer, codes⟩ := ih (index + 1) (addr + Dev.tblEsize table inst)
          (d.tblWriteEntry table inst index ((Memory.bytes m addr (Dev.tblEsize table inst)).map BitVec.toNat))
        exact ⟨Nat.le_succ_of_le fewer, codes⟩

theorem loadEntries_wq : ∀ (n index addr : Nat) (d : Dev), (loadEntries m table inst n index addr d).1.wq = d.wq := by
  intro n
  induction n with
  | zero => exact fun _ _ _ => rfl
  | succ n ih =>
    intro index addr d
    rw [loadEntries_succ]
    split
    · exact (d.reportRead_parts ..).1
    · split
      · rfl
      · exact (ih ..).trans (Dev.Writes.writeEntry ..).keeps.wq

/-- A load from a range that DRAM holds and answers does not stop for DRAM (R48). -/
theorem loadEntries_readable : ∀ (n index addr : Nat) (d : Dev), d.poison = [] → d.late = [] →
    addr + Dev.tblEsize table inst * n ≤ d.dramC → (loadEntries m table inst n index addr d).2.2 ≠ 4 := by
  intro n
  induction n with
  | zero => exact fun _ _ _ _ _ _ => (by decide : (0 : Nat) ≠ 4)
  | succ n ih =>
    intro index addr d poison late held
    rw [Nat.mul_succ] at held
    have readable : d.unreadable addr (Dev.tblEsize table inst) = false := by
      have within_ : ¬(d.dramC < addr + Dev.tblEsize table inst) := by omega
      simp [Dev.unreadable, poison, late, within_]
    rw [loadEntries_succ, readable, if_neg Bool.false_ne_true]
    split
    · exact (by decide : (3 : Nat) ≠ 4)
    · have written := Dev.Writes.writeEntry d table inst index ((Memory.bytes m addr (Dev.tblEsize table inst)).map BitVec.toNat)
      refine ih _ _ _ (written.poison.trans poison) (written.late.trans late) ?_
      rw [written.dramC]
      omega

theorem getD_bytes {i n : Nat} (h : i < n) (a : Nat) : ((Memory.bytes m a n).map BitVec.toNat).getD i 0 = (Memory.read m (a + i)).toNat := by
  simp [Memory.bytes, h]

variable {table} in
/-- The entries written read as their bytes in DRAM, and every other byte of the table as before. -/
theorem loadEntries_tblByte (h : table ≠ 2) : ∀ (n index addr : Nat) (d : Dev), d.mirrorOn = false → ∀ o,
    (loadEntries m table inst n index addr d).1.tblByte table inst o =
      if index * Dev.tblEsize table inst ≤ o ∧
          o < index * Dev.tblEsize table inst + (n - (loadEntries m table inst n index addr d).2.1) * Dev.tblEsize table inst then
        Dev.tblKeep table o (Memory.read m (addr + (o - index * Dev.tblEsize table inst))).toNat
      else d.tblByte table inst o := by
  intro n
  induction n with
  | zero =>
    intro index addr d _ o
    rw [if_neg (by rw [Nat.zero_sub, Nat.zero_mul]; omega)]
    rfl
  | succ n ih =>
    intro index addr d unmirrored o
    have none_ : ∀ a : Nat, ¬(a ≤ o ∧ o < a + (n + 1 - (n + 1)) * Dev.tblEsize table inst) := fun a => by
      rw [Nat.sub_self, Nat.zero_mul]
      omega
    rw [loadEntries_succ]
    split
    · rw [if_neg (none_ _)]
      exact Dev.tblByte_congr h (congrArg TblPart.tables (d.reportRead_parts ..).2) ..
    · split
      · rw [if_neg (none_ _)]
      next room =>
        have len : ((Memory.bytes m addr (Dev.tblEsize table inst)).map BitVec.toNat).length = Dev.tblEsize table inst := by
          simp [Memory.bytes]
        have entry := Dev.tblByte_writeEntry h unmirrored (Bool.not_eq_true _ ▸ room) len o
        have off := Dev.mirrorOn_writeEntry unmirrored table inst index ((Memory.bytes m addr (Dev.tblEsize table inst)).map BitVec.toNat)
        have rest := ih (index + 1) (addr + Dev.tblEsize table inst) _ off o
        have fewer := (loadEntries_left m table inst n (index + 1) (addr + Dev.tblEsize table inst)
          (d.tblWriteEntry table inst index ((Memory.bytes m addr (Dev.tblEsize table inst)).map BitVec.toNat))).1
        have value := fun i (hi : i < Dev.tblEsize table inst) => getD_bytes m hi addr
        rw [rest, entry]
        generalize d.tblWriteEntry table inst index ((Memory.bytes m addr (Dev.tblEsize table inst)).map BitVec.toNat) = x at fewer
        generalize (loadEntries m table inst n (index + 1) (addr + Dev.tblEsize table inst) x).2.1 = left at fewer
        generalize (Memory.bytes m addr (Dev.tblEsize table inst)).map BitVec.toNat = l at value
        rw [Nat.succ_mul, show n + 1 - left = n - left + 1 by omega, Nat.succ_mul]
        generalize index * Dev.tblEsize table inst = a
        generalize (n - left) * Dev.tblEsize table inst = k
        generalize Dev.tblEsize table inst = e at value
        by_cases later : a + e ≤ o ∧ o < a + e + k
        · rw [if_pos later, if_pos (by omega), show addr + e + (o - (a + e)) = addr + (o - a) by omega]
        · rw [if_neg later]
          by_cases own : a ≤ o ∧ o < a + e
          · rw [if_pos own, if_pos (by omega), value _ (by omega), Nat.mod_eq_of_lt (BitVec.isLt _)]
          · rw [if_neg own, if_neg (by omega)]

end

/-! A load ends (R48). -/

/-- How many entries a load goes through: all, or those before the entry at which DRAM answers with an error. -/
def loadTried (bad : Option Nat) (l : TblLoad) : Nat := match bad with
  | some b => Nat.min b l.left
  | none => l.left

theorem loadTried_le (bad : Option Nat) (l : TblLoad) : loadTried bad l ≤ l.left ∧ ∀ b, bad = some b → loadTried bad l ≤ b := by
  cases bad with
  | none => exact ⟨Nat.le_refl _, fun b h => absurd h (by simp)⟩
  | some b =>
    refine ⟨Nat.min_le_right .., fun c h => ?_⟩
    obtain rfl : b = c := by simpa using h
    exact Nat.min_le_left ..

/-- A load leaves its results in TBL's registers. -/
def Dev.loadEnded (d : Dev) (index code : Nat) : Dev := ((d.putLoad none).wr R.TBL_INDEX index).wr R.TBL_STATUS_ERROR code

/-- The ERROR code of a load that tried n of its entries. -/
def loadCode (n left code : Nat) : Nat := if code = 0 && decide (n < left) then 4 else code

theorem loadCode_codes {left code : Nat} (h : LoadStop left code) (n all : Nat) :
    loadCode n all code = 0 ∨ loadCode n all code = 3 ∨ loadCode n all code = 4 := by
  unfold LoadStop at h
  unfold loadCode
  split <;> omega

/-- ERROR is 0 where no entry is left. -/
theorem loadCode_eq_zero_iff {left code n all : Nat} (h : LoadStop left code) (fewer : left ≤ n) (within_ : n ≤ all) :
    loadCode n all code = 0 ↔ n - left = all := by
  unfold LoadStop at h
  unfold loadCode
  simp only [Bool.and_eq_true, decide_eq_true_eq]
  split <;> omega

theorem loadCode_of_all (n code : Nat) : loadCode n n code = code := by simp [loadCode]

theorem tblLoadDone_eq {bad : Option Nat} {m : List Host.Cell} {d : Dev} {l : TblLoad} (h : d.tbl.load = some l) :
    actTblLoadDone bad m d =
      (let r := loadEntries m l.table l.inst (loadTried bad l) l.index l.addr d
       r.1.loadEnded (l.index + loadTried bad l - r.2.1) (loadCode (loadTried bad l) l.left r.2.2)) := by
  unfold actTblLoadDone
  rw [h]
  rfl

theorem loadEnded_index (d : Dev) (index code : Nat) : (d.loadEnded index code).rd R.TBL_INDEX = index % 2 ^ R.TBL_INDEX.width := by
  unfold Dev.loadEnded
  rw [Dev.rd_wr_ne _ _ _ _ (by decide), Dev.rd_wr_self]

theorem loadEnded_code (d : Dev) (index : Nat) {code : Nat} (small : code ≤ 4) : (d.loadEnded index code).rd R.TBL_STATUS_ERROR = code := by
  unfold Dev.loadEnded
  rw [Dev.rd_wr_self]
  exact Nat.mod_eq_of_lt (lt_of_le_of_lt small (by decide))

theorem loadEnded_tables (d : Dev) (index code : Nat) : (d.loadEnded index code).tbl.tables = d.tbl.tables := rfl

theorem tblEntry_eq_of_tblByte {d : Dev} {m : List Host.Cell} {table inst index addr : Nat}
    (h : ∀ j < Dev.tblEsize table inst, d.tblByte table inst (index * Dev.tblEsize table inst + j) =
      Dev.tblKeep table (index * Dev.tblEsize table inst + j) (Memory.read m (addr + j)).toNat) :
    d.tblEntry table inst index = ((Memory.bytes m addr (Dev.tblEsize table inst)).zipIdx.map fun q =>
      Dev.tblKeep table (index * Dev.tblEsize table inst + q.2) q.1.toNat) := by
  refine List.ext_getElem (by simp [Dev.tblEntry, Memory.bytes]) fun j hj _ => ?_
  have small : j < Dev.tblEsize table inst := by simpa [Dev.tblEntry] using hj
  simp [Dev.tblEntry, Memory.bytes, h j small]

/-- An entry of a range whose bytes read as DRAM's reads as DRAM's. -/
theorem tblEntry_of_range {d : Dev} {m : List Host.Cell} {table inst index addr k : Nat} {was : Nat → Nat}
    (h : ∀ o, d.tblByte table inst o =
      if index * Dev.tblEsize table inst ≤ o ∧ o < index * Dev.tblEsize table inst + k * Dev.tblEsize table inst then
        Dev.tblKeep table o (Memory.read m (addr + (o - index * Dev.tblEsize table inst))).toNat
      else was o) {i : Nat} (hi : i < k) :
    d.tblEntry table inst (index + i) =
      ((Memory.bytes m (addr + Dev.tblEsize table inst * i) (Dev.tblEsize table inst)).zipIdx.map fun q =>
        Dev.tblKeep table ((index + i) * Dev.tblEsize table inst + q.2) q.1.toNat) := by
  refine tblEntry_eq_of_tblByte fun j hj => ?_
  rw [h]
  generalize Dev.tblEsize table inst = e at hj
  have last : (i + 1) * e ≤ k * e := Nat.mul_le_mul_right _ hi
  rw [Nat.succ_mul] at last
  rw [Nat.add_mul, if_pos (by omega), Nat.mul_comm e i]
  congr 3
  omega

section
variable {s : State} {l : TblLoad}

theorem load_ends (on : s.dev.off = false) (load : s.dev.tbl.load = some l) (bad : Option Nat) :
    ∃ t k, exec (.tblLoadDone bad) s = .next t ∧ t.dev.tbl.load = none ∧ k ≤ l.left ∧
      t.dev.rd R.TBL_INDEX = (l.index + k) % 2 ^ R.TBL_INDEX.width ∧ (t.dev.rd R.TBL_STATUS_ERROR = 0 ↔ k = l.left) ∧
      (t.dev.rd R.TBL_STATUS_ERROR = 0 ∨ t.dev.rd R.TBL_STATUS_ERROR = 3 ∨ t.dev.rd R.TBL_STATUS_ERROR = 4) ∧
      (∀ b, bad = some b → k ≤ b) ∧
      (s.dev.poison = [] → s.dev.late = [] → l.addr + Dev.tblEsize l.table l.inst * l.left ≤ s.dev.dramC → bad = none →
        t.dev.rd R.TBL_STATUS_ERROR ≠ 4) ∧
      (l.table ≠ 2 → s.dev.mirrorOn = false → ∀ i, i < k →
        t.dev.tblEntry l.table l.inst (l.index + i) =
          ((Memory.bytes s.mem (l.addr + Dev.tblEsize l.table l.inst * i) (Dev.tblEsize l.table l.inst)).zipIdx.map fun q =>
            Dev.tblKeep l.table ((l.index + i) * Dev.tblEsize l.table l.inst + q.2) q.1.toNat)) ∧
      t.mem = s.mem ∧ t.pending = s.pending := by
  have act := tblLoadDone_eq (bad := bad) (m := s.mem) (d := s.start) load
  obtain ⟨fewer, codes⟩ := loadEntries_left s.mem l.table l.inst (loadTried bad l) l.index l.addr s.start
  have quiet := loadEntries_wq s.mem l.table l.inst (loadTried bad l) l.index l.addr s.start
  have readable := loadEntries_readable s.mem l.table l.inst (loadTried bad l) l.index l.addr s.start
  have bytes := fun h : l.table ≠ 2 => loadEntries_tblByte s.mem l.inst h (loadTried bad l) l.index l.addr s.start
  have whole : bad = none → loadTried bad l = l.left := by rintro rfl; rfl
  obtain ⟨within_, before⟩ := loadTried_le bad l
  generalize loadTried bad l = n at act fewer codes quiet readable bytes whole within_ before
  generalize loadEntries s.mem l.table l.inst n l.index l.addr s.start = r at act fewer codes quiet readable bytes
  obtain ⟨d, left, code⟩ := r
  dsimp only at act fewer codes quiet readable bytes
  have code34 := loadCode_codes codes n l.left
  have code0 := loadCode_eq_zero_iff codes fewer within_
  have small : loadCode n l.left code ≤ 4 := by omega
  have shown := loadEnded_code d (l.index + n - left) small
  have index := loadEnded_index d (l.index + n - left) (loadCode n l.left code)
  have tables := loadEnded_tables d (l.index + n - left) (loadCode n l.left code)
  have none_ : (d.loadEnded (l.index + n - left) (loadCode n l.left code)).tbl.load = none := rfl
  have quiet' : (d.loadEnded (l.index + n - left) (loadCode n l.left code)).wq = [] := quiet
  have ran : exec (.tblLoadDone bad) s = .next (s.withDev (d.loadEnded (l.index + n - left) (loadCode n l.left code))) := by
    rw [exec_tblLoadDone, run_on on, act, settle_quiet quiet']
  generalize d.loadEnded (l.index + n - left) (loadCode n l.left code) = e at ran shown index tables none_
  refine ⟨_, n - left, ran, none_, by omega, ?_, ?_, ?_, fun b h => ?_, fun poison late held h => ?_, fun plain unmirrored i hi => ?_,
    withDev_mem .., withDev_pending ..⟩
  · rw [← Nat.add_sub_assoc fewer]
    exact index
  · rw [← code0, ← shown]
    rfl
  · rw [← shown] at code34
    exact code34
  · have := before b h
    omega
  · have all := whole h
    subst all
    have found := readable poison late held
    rw [← loadCode_of_all l.left code, ← shown] at found
    exact found
  · exact tblEntry_of_range (fun o => (Dev.tblByte_congr plain tables ..).trans (bytes plain unmirrored o)) hi

end

/-- Settles O20: a load by induction on its entries, each of which finds its one or two shadow pages and writes its bytes there alone; a move
of a page by the bytes that a table keeps. -/
theorem tableLoadsAndPageMoves : Obligations.TableLoadsAndPageMoves :=
  ⟨⟨fun _ bus free size inRange => load_begins bus free size inRange, fun _ _ bad on load => load_ends on load bad⟩,
    fun _ on => page_moves on⟩

end Sys2Proof.Machine
end

section
/-!
PROOFS. Wall time read as one value, the calendar's insertions and cancellations as rules, and what a commit leaves of a group.
-/

namespace Sys2Proof.Machine

/-! WLN (R78). -/

theorem regAt_wlnLo : regAt 0x20010 = some [R.WTM_WLN_LO] := by decide +kernel

namespace Dev

theorem beforeRead_wlnLo (d : Dev) : d.beforeRead 0x20010 = d.wr R.WTM_WLN_HI (d.wtm.wln / 2 ^ 32) := rfl

theorem shown_wlnLo (d : Dev) : d.shown R.WTM_WLN_LO = d.wtm.wln % 2 ^ 32 := by
  have view : d.views.find? (fun p => p.1.key = R.WTM_WLN_LO.key) = some (R.WTM_WLN_LO, d.wtm.wln) := by
    rw [views, List.append_assoc, List.find?_append]
    rfl
  simp only [shown, view]
  rfl

end Dev

/-- Settles O12: `run_busRead` of a register whose one field shows the lower half and whose read latches the upper one. -/
theorem wlnLoReadLatchesWlnHi : Obligations.WlnLoReadLatchesWlnHi := by
  intro s hb
  have latched : (s.start.wr R.WTM_WLN_HI (s.dev.wtm.wln / 2 ^ 32)).rd R.WTM_WLN_HI = s.dev.wtm.wln / 2 ^ 32 % 2 ^ 16 :=
    Dev.rd_wr_self ..
  refine ⟨?_, ?_, ?_⟩
  · rw [exec_wlnLoRead, run_busRead hb regAt_wlnLo (.inl (by decide)), Dev.beforeRead_wlnLo, Dev.shownWord_one rfl, Dev.shown_wlnLo]
    rfl
  · rw [latched, bits, Nat.shiftRight_eq_div_pow]
  · rw [latched, ← Nat.mod_mul, ← Nat.pow_add]

namespace Dev

/-! The calendar (R83, R89, R567). -/

/-- The entry staged in CAL_W and CAL_TGT_HI (Table 3-9). -/
def calStaged (d : Dev) : CalEntry :=
  ⟨d.rd (R.WTM_CAL_W_W 0) + 2 ^ 32 * d.rd R.WTM_CAL_TGT_HI_TGT_HI, bits (d.rd (R.WTM_CAL_W_W 1)) 31 24,
    bits (d.rd (R.WTM_CAL_W_W 1)) 23 16, bits (d.rd (R.WTM_CAL_W_W 1)) 15 0, d.rd (R.WTM_CAL_W_W 2), d.rd (R.WTM_CAL_W_W 3), false⟩

/-- The check of an entry for the calendar (R567). -/
def entryCheck (d : Dev) (e : CalEntry) : Nat := d.calCheck e.target e.action e.groups e.arg0 e.arg1

/-- An entry joins the calendar (R83). -/
def entryStored (d : Dev) (e : CalEntry) : Dev := d.calStore e.target e.action e.groups e.tag e.arg0 e.arg1

theorem calCheck_lt (d : Dev) (target action groups arg0 arg1 : Nat) : d.calCheck target action groups arg0 arg1 < 8 := by
  unfold calCheck
  split_ifs <;> decide

theorem calInsert_accepted {d : Dev} {target action groups arg0 arg1 : Nat} (h : d.calCheck target action groups arg0 arg1 = 0) (tag : Nat) :
    d.calInsert target action groups tag arg0 arg1 = (0, d.calStore target action groups tag arg0 arg1) := by
  simp only [calInsert, h, if_true]

theorem calInsert_refused {d : Dev} {target action groups arg0 arg1 : Nat} (h : d.calCheck target action groups arg0 arg1 ≠ 0) (tag : Nat) :
    d.calInsert target action groups tag arg0 arg1 = (d.calCheck target action groups arg0 arg1, d) := by
  simp only [calInsert, h, if_false]

theorem actCalInsert_accepted {d : Dev} (h : d.entryCheck d.calStaged = 0) :
    actCalInsert d = ((d.entryStored d.calStaged).wr R.WTM_CAL_STATUS_ERROR 0).wrb R.WTM_CAL_STATUS_PAST_AT_INSERT
      (d.ahead48 d.calStaged.target ≤ 0) := by
  have e := calInsert_accepted h d.calStaged.tag
  unfold calStaged at e
  simp only [actCalInsert, e, if_true]
  rfl

theorem actCalInsert_refused {d : Dev} (h : d.entryCheck d.calStaged ≠ 0) :
    actCalInsert d = d.wr R.WTM_CAL_STATUS_ERROR (d.entryCheck d.calStaged) := by
  have e := calInsert_refused h d.calStaged.tag
  have h' : d.calCheck .. ≠ 0 := h
  unfold calStaged at e h'
  simp only [actCalInsert, e, h', if_false]
  rfl

/-- The pending entries with a tag. -/
def tagged (d : Dev) (tag : Nat) : List CalEntry := d.cal.entries.filter fun e => e.tag = tag

/-- The pending entries with a tag are removed (R89). -/
def untagged (d : Dev) (tag : Nat) : Dev := { d with cal := { d.cal with entries := d.cal.entries.filter fun e => e.tag != tag } }

theorem tagged_eq_nil_iff {d : Dev} {tag : Nat} : d.tagged tag = [] ↔ ¬∃ e ∈ d.cal.entries, e.tag = tag := by
  simp [tagged]

theorem untagged_of_none {d : Dev} {tag : Nat} (h : d.tagged tag = []) : d.untagged tag = d := by
  have all : (d.cal.entries.filter fun e => e.tag != tag) = d.cal.entries := by
    simpa [tagged] using h
  rw [untagged, all]

/-- What a cancel answers: 0 where it removes an entry, else whether the tag has fired (R89). -/
theorem calCancel_eq (d : Dev) (tag : Nat) :
    ∃ code < 8, (code = 0 ↔ ∃ e ∈ d.cal.entries, e.tag = tag) ∧ d.calCancel tag = (code, (d.tagged tag).length, d.untagged tag) := by
  by_cases h : d.tagged tag = []
  · have none_ := tagged_eq_nil_iff.mp h
    refine ⟨if d.cal.fired.contains tag then 6 else 5, by split <;> decide, ?_, ?_⟩
    · exact iff_of_false (by split <;> decide) none_
    · rw [untagged_of_none h, h]
      exact if_pos h
  · refine ⟨0, by decide, iff_of_true rfl (not_not.mp fun n => h (tagged_eq_nil_iff.mpr n)), if_neg h⟩


theorem actCalCancel_eq {d : Dev} {code n : Nat} {e : Dev} (h : d.calCancel (bits (d.rd (R.WTM_CAL_W_W 1)) 15 0) = (code, n, e)) :
    actCalCancel d = (e.wr R.WTM_CAL_STATUS_ERROR code).wr R.WTM_CAL_STATUS_REMOVED (Nat.min n 255) := by
  simp only [actCalCancel, h]

end Dev

/-! Commits (R91, R93). -/

/-- A store with the entries of some keys taken away lists nothing under them. -/
theorem SMap.find?_filter_of_not {p : Nat → Bool} {k : Nat} (h : p k = false) : ∀ m : SMap,
    SMap.find? (m.filter fun q => p q.1) k = none
  | [] => rfl
  | (a, v) :: r => by
    have ih := SMap.find?_filter_of_not h r
    by_cases ha : k = a
    · subst ha
      simpa [h] using ih
    · by_cases hp : p a = true <;> simp [hp, ha, SMap.find?, ih]

/-- What is taken from the other store is as it stands there. -/
theorem SMap.find?_takeFrom_taken (m src : SMap) {p : Nat → Bool} {k : Nat} (h : p k = true) :
    SMap.find? (SMap.takeFrom m src p) k = SMap.find? src k := by
  unfold SMap.takeFrom
  rw [← SMap.find?_filter h src]
  induction src.filter fun q => p q.1 with
  | nil => exact SMap.find?_filter_of_not (p := fun a => !p a) (by simp [h]) m
  | cons q r ih =>
    rw [List.foldr_cons, SMap.find?_put, ih]
    rfl

theorem bit_setBit_false (v i : Nat) : bit (setBit v i false) i = false := by
  unfold setBit bit
  cases h : v.testBit i with
  | false => simpa using h
  | true =>
    have odd : v / 2 ^ i % 2 = 1 := by simpa [Nat.testBit_eq_decide_div_mod_eq] using h
    have less : (v - 2 ^ i) / 2 ^ i = v / 2 ^ i - 1 := by simpa using Nat.sub_mul_div (a := v) (b := 2 ^ i) (c := 1)
    simp [Nat.testBit_eq_decide_div_mod_eq, less]
    omega

namespace Dev

theorem commitGroup_comm (d : Dev) (g : Nat) :
    (d.commitGroup g).comm = SMap.takeFrom d.comm d.regs fun k => groupOfKey k = some g := by
  unfold commitGroup
  dsimp only
  split <;> rfl

/-- The committed copy of a field of the group is its shadow. -/
theorem cm_commitGroup (d : Dev) {g : Nat} {f : Fld} (h : groupOfKey f.key = some g) : (d.commitGroup g).cm f = d.rd f := by
  rw [cm, commitGroup_comm, SMap.find?_takeFrom_taken _ _ (by simpa using h), rd]

theorem bit_wr_setBit_false (d : Dev) {f : Fld} {g : Nat} (v : Nat) : bit ((d.wr f (setBit v g false)).rd f) g = false := by
  have clean : (setBit v g false).testBit g = false := bit_setBit_false v g
  rw [rd_wr_self, bit, Nat.testBit_mod_two_pow, clean, Bool.and_false]

/-- The group is clean, and no occasion of it is deferred. -/
theorem commitGroup_clean (d : Dev) (g : Fin 8) :
    bit ((d.commitGroup g).rd R.WTM_COMMIT_PEND_DIRTY) g = false ∧ bit ((d.commitGroup g).rd R.WTM_COMMIT_PEND_DEFERRED) g = false := by
  unfold commitGroup
  constructor
  · rw [rd_wr_ne _ _ _ _ (by decide)]
    exact bit_wr_setBit_false ..
  · exact bit_wr_setBit_false ..

theorem writeArm_unmirrored {d : Dev} (h : d.mirrorOn = false) (v : Nat) : d.writeArm v = actCommitArm v d := by
  have stays : (actCommitArm v d).mirrorOn = false := by
    rw [← h]
    simp only [mirrorOn, actCommitArm, rdb, state_wr _ _ _ (by decide : R.TOP_STATE.key ≠ R.WTM_COMMIT_ARM_ARM.key),
      rd_wr_ne _ _ _ _ (by decide : R.VEER_STATUS_MIRROR.key ≠ R.WTM_COMMIT_ARM_ARM.key)]
  simp [writeArm, mirrorReg, mirrorWrite, stays]

end Dev

/-- A write that acts on registers and the calendar leaves the rest of the device as it was. -/
theorem answered_regs_cal {s : State} {d : Dev} (h : d = { s.start with regs := d.regs, cal := d.cal }) :
    s.answered d 0 false = { s with dev := { s.dev with
      regs := (s.answered d 0 false).dev.regs, cal := (s.answered d 0 false).dev.cal, out := .bus 0 false :: s.dev.out, wq := [] } } := by
  generalize d.regs = r, d.cal = c at h
  subst h
  rfl

/-- An entry whose check fails leaves its code in ERROR, and the calendar as it was. -/
theorem calInsert_refuses {s : State} (hb : s.BusFree 0x20214) (h : s.start.entryCheck s.start.calStaged ≠ 0) :
    exec .calInsert s = .next (s.answered (s.start.wr R.WTM_CAL_STATUS_ERROR (s.start.entryCheck s.start.calStaged)) 0 false) :=
  (exec_calInsert s).trans (run_writeTo hb (Dev.actCalInsert_refused h) rfl)

/-- An entry that passes its check joins the calendar. -/
theorem calInsert_accepts {s : State} (hb : s.BusFree 0x20214) (h : s.start.entryCheck s.start.calStaged = 0) :
    exec .calInsert s = .next (s.answered (((s.start.entryStored s.start.calStaged).wr R.WTM_CAL_STATUS_ERROR 0).wrb
      R.WTM_CAL_STATUS_PAST_AT_INSERT (s.start.ahead48 s.start.calStaged.target ≤ 0)) 0 false) :=
  (exec_calInsert s).trans (run_writeTo hb (Dev.actCalInsert_accepted h) rfl)

/-- The staged entry joins the calendar, or its check's code stands in ERROR. -/
theorem calInsert_acts {s : State} (hb : s.BusFree 0x20214) :
    ∃ t, exec .calInsert s = .next t ∧ t.dev.rd R.WTM_CAL_STATUS_ERROR = s.start.entryCheck s.start.calStaged ∧
      t.dev.cal = (if s.start.entryCheck s.start.calStaged = 0 then (s.start.entryStored s.start.calStaged).cal else s.dev.cal) ∧
      s.dev.SameBut [R.WTM_CAL_STATUS_ERROR.key, R.WTM_CAL_STATUS_PAST_AT_INSERT.key] t.dev ∧
      t = { s with dev := { s.dev with regs := t.dev.regs, cal := t.dev.cal, out := .bus 0 false :: s.dev.out, wq := [] } } := by
  by_cases h : s.start.entryCheck s.start.calStaged = 0
  · refine ⟨_, calInsert_accepts hb h, ?_, (if_pos h).symm, fun f n => ?_, answered_regs_cal rfl⟩
    · exact ((Dev.rd_wrb_ne _ _ _ _ (by decide)).trans (Dev.rd_wr_self ..)).trans h.symm
    · rw [List.mem_cons, List.mem_singleton, not_or] at n
      exact (Dev.rd_wrb_ne _ _ _ _ n.2).trans (Dev.rd_wr_ne _ _ _ _ n.1)
  · have small : s.start.entryCheck s.start.calStaged < 2 ^ 8 := (s.start.calCheck_lt ..).trans (by decide)
    refine ⟨_, calInsert_refuses hb h, (Dev.rd_wr_self ..).trans (Nat.mod_eq_of_lt small), (if_neg h).symm, fun f n => ?_,
      answered_regs_cal rfl⟩
    exact Dev.rd_wr_ne _ _ _ _ fun e => n (e ▸ List.mem_cons_self)

/-- The entries with the staged tag leave the calendar and are counted. -/
theorem calCancel_acts {s : State} (hb : s.BusFree 0x20214) {tag : Nat} (ht : bits (s.dev.rd (R.WTM_CAL_W_W 1)) 15 0 = tag) :
    ∃ t, exec .calCancel s = .next t ∧ t.dev.cal = (s.start.untagged tag).cal ∧
      t.dev.rd R.WTM_CAL_STATUS_REMOVED = Nat.min (s.dev.tagged tag).length 255 ∧
      (t.dev.rd R.WTM_CAL_STATUS_ERROR = 0 ↔ ∃ e ∈ s.dev.cal.entries, e.tag = tag) ∧
      s.dev.SameBut [R.WTM_CAL_STATUS_ERROR.key, R.WTM_CAL_STATUS_REMOVED.key] t.dev ∧
      t = { s with dev := { s.dev with regs := t.dev.regs, cal := t.dev.cal, out := .bus 0 false :: s.dev.out, wq := [] } } := by
  obtain ⟨code, small, found, e⟩ := s.start.calCancel_eq tag
  subst ht
  refine ⟨_, (exec_calCancel s).trans (run_writeTo hb (Dev.actCalCancel_eq e) rfl), rfl, ?_, ?_, fun f n => ?_, answered_regs_cal rfl⟩
  · exact (Dev.rd_wr_self ..).trans (Nat.mod_eq_of_lt (Nat.lt_succ_of_le (Nat.min_le_right ..)))
  · rw [answered_rd, Dev.rd_wr_ne _ _ _ _ (by decide), Dev.rd_wr_self, Nat.mod_eq_of_lt (small.trans (by decide))]
    exact found
  · rw [List.mem_cons, List.mem_singleton, not_or] at n
    exact (Dev.rd_wr_ne _ _ _ _ n.2).trans (Dev.rd_wr_ne _ _ _ _ n.1)

/-- Settles O18: an insertion by whether its check passes, a cancel by what it answers, and a commit by what a store takes from another. -/
theorem calendarAndCommits : Obligations.CalendarAndCommits := by
  refine ⟨fun s hb => ⟨calInsert_acts hb, calCancel_acts hb rfl⟩, fun s v hb plain => ?_, fun d g f h => d.cm_commitGroup h,
    Dev.commitGroup_clean⟩
  have unmirrored : s.start.mirrorOn = false := plain
  exact (exec_commitArmWrite v s).trans (run_writeTo hb (s.start.writeArm_unmirrored unmirrored v.toNat) rfl)

end Sys2Proof.Machine
end

section
/-!
PROOFS. The cue operations that act on time, the veer and CALM, and the fired CUE and MARK entries: how the job in hand goes on and ends,
what a time acceptance leaves of the clock, and how a fired entry is taken in hand.
-/

namespace Sys2Proof.Machine

namespace Dev

/-! The job in hand (R471). -/

section
variable {d : Dev} {j k : CueJob}

theorem cuePump_of_no_message (h : d.cue.queue = []) : d.cuePump = d := by
  rw [cuePump, h]
  rfl

/-- An operation of the kind given, at the head of the job in hand, is executed. -/
theorem cueOp_at {code : Nat} {a : List Byte} {more : List (Nat × List Byte)} (service : d.inService = true) (free : d.clk.wait = none)
    (job : d.cue.job = some j) (ops : j.ops = (code, a) :: more) (f : List Byte → CueJob → Dev → Dev × Option (CueJob × Nat)) :
    d.cueOp code f = (f a j d).1.stepJob j (f a j d).2 := by
  simp [cueOp, service, free, job, ops]

theorem stepJob_goes_on (h : k.ops.tail ≠ []) : d.stepJob j (some (k, 0)) = d.cput { d.cue with job := some k.after } := if_neg h

theorem stepJob_ends (h : k.ops.tail = []) : d.stepJob j (some (k, 0)) = d.endJob k.after 0 := if_pos h

/-- The job ends and its commits fall due: nothing is answered, reported or taken in hand. -/
def jobEnded (d : Dev) (j : CueJob) : Dev :=
  { d.cput { d.cue with job := none } with com := ⟨0, Nat.lor d.com.afterMsg j.commits⟩ }

theorem endJob_silent (msg : j.msg = none) (fired : j.fired = none) (queue : d.cue.queue = []) (status : Nat) :
    d.endJob j status = d.jobEnded j := by
  simp only [endJob, msg, fired]
  exact cuePump_of_no_message queue

end

/-! Steering the wall's time (R67, R75, R76, R465). -/

/-- e has d's STC and d's pending jump, with JUMP_PENDING, and reads as d in every register outside the windows ws. -/
structure Steers (ws : List Nat) (d e : Dev) : Prop where
  keeps   : Keeps ws d e
  stcOff  : e.stcOff = d.stcOff
  jump    : e.wtm.jump = d.wtm.jump
  pending : e.rd R.WTM_STATUS_JUMP_PENDING = d.rd R.WTM_STATUS_JUMP_PENDING

namespace Steers

variable {ws : List Nat} {c d e : Dev}

theorem refl : Steers ws d d := ⟨.refl, rfl, rfl, rfl⟩

theorem trans (h : Steers ws c d) (h' : Steers ws d e) : Steers ws c e :=
  ⟨h.keeps.trans h'.keeps, h'.stcOff.trans h.stcOff, h'.jump.trans h.jump, h'.pending.trans h.pending⟩

theorem wider {ws' : List Nat} (h : Steers ws d e) (s : ∀ w ∈ ws, w ∈ ws') : Steers ws' d e := ⟨h.keeps.wider s, h.stcOff, h.jump, h.pending⟩

theorem wr {f : Fld} {v : Nat} (w : f.key / 524288 ∈ ws) (n : R.WTM_STATUS_JUMP_PENDING.key ≠ f.key) (h : Steers ws d e) :
    Steers ws d (e.wr f v) :=
  ⟨h.keeps.wr w, h.stcOff, h.jump, (rd_wr_ne _ _ _ _ n).trans h.pending⟩

theorem log {s i c k x p : Nat} (w : R.ERR_DROPPED.key / 524288 ∈ ws) (h : Steers ws d e) : Steers ws d (e.log s i c k x p) :=
  ⟨h.keeps.log w, (log_stcOff ..).trans h.stcOff, (congrArg WtmPart.jump (log_wtm ..)).trans h.jump,
    (rd_log _ _ _ _ _ _ _ _ (by decide)).trans h.pending⟩

theorem ite {p : Prop} [Decidable p] {a b : Dev} (ha : Steers ws d a) (hb : Steers ws d b) : Steers ws d (if p then a else b) := by
  split
  · exact ha
  · exact hb

theorem ite_of {p : Prop} [Decidable p] {a b : Dev} (ha : p → Steers ws d a) (hb : ¬p → Steers ws d b) :
    Steers ws d (if p then a else b) := by
  split
  · next h => exact ha h
  · next h => exact hb h

theorem foldl_mem {α : Type} {f : Dev → α → Dev} : ∀ (l : List α) {e : Dev}, (∀ x, ∀ a ∈ l, Steers ws x (f x a)) → Steers ws d e →
    Steers ws d (l.foldl f e)
  | [], _, _, h => h
  | a :: r, _, k, h => foldl_mem r (fun x b m => k x b (List.mem_cons_of_mem _ m)) (h.trans (k _ a List.mem_cons_self))

theorem set_wtm {x : WtmPart} (same : x.jump = e.wtm.jump) (h : Steers ws d e) : Steers ws d { e with wtm := x } :=
  ⟨.set_wtm h.keeps, h.stcOff, same.trans h.jump, h.pending⟩

theorem set_ptp {x : PtpPart} (h : Steers ws d e) : Steers ws d { e with ptp := x } := ⟨.set_ptp h.keeps, h.stcOff, h.jump, h.pending⟩

theorem setLock {l : Nat} (h : Steers [2, 4] d e) : Steers [2, 4] d (e.setLock l) :=
  ite h (log (by decide) (ite (wr (by decide) (by decide) (wr (by decide) (by decide) h)) (wr (by decide) (by decide) h)))

theorem setLock_if {p : Prop} [Decidable p] {l : Nat} (h : Steers [2, 4] d e) : Steers [2, 4] d (if p then e.setLock l else e) :=
  ite (setLock h) h

theorem useEpoch {x : Nat} (h : Steers [2, 4] d e) : Steers [2, 4] d (e.useEpoch x) :=
  ite (wr (by decide) (by decide) (wr (by decide) (by decide) (set_wtm rfl h))) (set_wtm rfl h)

theorem originStep {x : Int} (h : Steers ws d e) : Steers ws d (e.originStep x) := set_wtm rfl h

/-- A slew corrects EPOCH, PHASE_ERR and the lock state (R75). -/
theorem startSlew (h : Steers [2, 4] d e) : Steers [2, 4] d e.startSlew := by
  refine h.trans (ite (setLock (setLock_if ?_)) (setLock (setLock_if (setLock_if ?_))))
  all_goals exact wr (by decide) (by decide) (set_wtm rfl (ite refl (useEpoch refl)))

/-- A reference other than FRAME_REF becomes valid (R67). -/
theorem lockValid (h : Steers [2, 4] d e) (source : e.refSource ≠ 2) : Steers [2, 4] d e.lockValid := by
  unfold Dev.lockValid
  rw [if_neg source]
  exact ite (setLock h) (ite h (ite h (startSlew h)))

/-- PTP becomes valid (R68). -/
theorem setPtpValid (h : Steers [2, 4] d e) : Steers [2, 4] d (e.setPtpValid true) := by
  have noted : Steers [2, 4] d { e with wtm := { e.wtm with ptpValid := true } } := set_wtm rfl h
  exact ite h (ite_of (fun ptp => lockValid noted (ptp.trans_ne (by decide))) fun _ => noted)

end Steers

/-- The STC steps, and the moments that the device holds stay (R465). -/
def stcMoved (d : Dev) (x : Int) : Dev :=
  ({ d with stcOff := d.stcOff + x, wtm := { d.wtm with frefEdge := d.wtm.frefEdge.map (· + x) } }).keepMoments x

/-- The step is counted in SLIP of the audio ports, and logged. -/
theorem steers_stcStep (d : Dev) (x : Int) : Steers [4, 0x43] (d.stcMoved x) (d.stcStep x) := by
  refine .log (by decide) (.foldl_mem _ (fun e p hp => .ite (.wr ?_ ?_ .refl) .refl) .refl)
  all_goals have := List.mem_range.mp hp
  · have window : (R.AUD_SLIP p).key / 524288 = 0x43 := by simp only [R.AUD_SLIP]; omega
    rw [window]
    decide
  · simp only [R.AUD_SLIP, R.WTM_STATUS_JUMP_PENDING]
    omega

/-- JUMP_PENDING is clear, and no jump waits. -/
def jumpCleared (d : Dev) : Dev :=
  let d := d.flag 0 R.WTM_STATUS_JUMP_PENDING 0 false false
  { d with wtm := { d.wtm with jump := 0 } }

theorem takeJump_eq (d : Dev) : d.takeJump = if d.wtm.jump = 0 then d.jumpCleared else d.jumpCleared.stcStep d.wtm.jump := rfl

theorem keeps_jumpCleared (d : Dev) : Keeps [2, 4] d d.jumpCleared := .set_wtm (.flag (by decide) (by decide) .refl)

/-- What a time acceptance leaves of d's clock: the STC has taken the pending jump, and none waits. -/
structure TookJump (ws : List Nat) (d e : Dev) : Prop where
  keeps   : Keeps ws d e
  stcOff  : e.stcOff = d.stcOff + d.wtm.jump
  jump    : e.wtm.jump = 0
  pending : e.rdb R.WTM_STATUS_JUMP_PENDING = false

theorem TookJump.steers {ws : List Nat} {c d e : Dev} (h : TookJump ws c d) (h' : Steers ws d e) : TookJump ws c e :=
  ⟨h.keeps.trans h'.keeps, h'.stcOff.trans h.stcOff, h'.jump.trans h.jump, by rw [rdb, h'.pending]; exact h.pending⟩

theorem takeJump_takes (d : Dev) : TookJump [2, 4, 0x43] d d.takeJump := by
  have clear : d.jumpCleared.rdb R.WTM_STATUS_JUMP_PENDING = false :=
    rdb_flag_self d 0 R.WTM_STATUS_JUMP_PENDING 0 false false (by decide) rfl
  have off : d.jumpCleared.stcOff = d.stcOff := flag_stcOff ..
  have keeps : Keeps [2, 4, 0x43] d d.jumpCleared := (keeps_jumpCleared d).wider (by decide)
  rw [takeJump_eq]
  split
  · next none_ => exact ⟨keeps, by rw [off, none_, add_zero], rfl, clear⟩
  · have moved : TookJump [2, 4, 0x43] d (d.jumpCleared.stcMoved d.wtm.jump) :=
      ⟨keeps.trans ⟨rfl, rfl, fun _ _ => rfl⟩, congrArg (· + d.wtm.jump) off, rfl, clear⟩
    exact moved.steers ((steers_stcStep ..).wider (by decide))

theorem steers_acceptSlew (d : Dev) : Steers [2, 4] d.takeJump d.acceptSlew := .ite (.startSlew (.originStep .refl)) (.originStep .refl)

theorem steers_acceptStep (d : Dev) : Steers [2, 4] d.takeJump d.acceptStep := by
  refine .ite ?_ (.setLock ?_)
  all_goals exact .set_wtm rfl (.ite .refl (.originStep .refl))

/-- The acceptance is noted by the servo: PENDING_JUMP is 0. -/
theorem ptpAccepted_steers (d : Dev) : Steers [2, 4, 0x44] d d.ptpAccepted ∧ d.ptpAccepted.rd R.PTP_PENDING_JUMP = 0 := by
  have zero : (d.wr R.PTP_PENDING_JUMP 0).rd R.PTP_PENDING_JUMP = 0 := rd_wr_self ..
  have cleared : Steers [2, 4, 0x44] d (d.wr R.PTP_PENDING_JUMP 0) := .wr (by decide) (by decide) .refl
  unfold ptpAccepted
  dsimp only
  split
  · refine ⟨(Steers.set_ptp (.wr (by decide) (by decide) cleared)).trans ((Steers.setPtpValid .refl).wider (by decide)), ?_⟩
    have servo : ((d.wr R.PTP_PENDING_JUMP 0).wr R.PTP_STATUS_SERVO servoAcquiring).rd R.PTP_PENDING_JUMP = 0 :=
      (rd_wr_ne _ _ _ _ (by decide)).trans zero
    exact ((Steers.setPtpValid .refl).keeps.rd _ (by decide)).trans servo
  · exact ⟨cleared, zero⟩

/-- Whichever way it is accepted, the jump is taken and PENDING_JUMP is 0 (R76, R465). -/
theorem accepted_takes {d e : Dev} (h : Steers [2, 4] d.takeJump e) :
    TookJump [2, 4, 0x43, 0x44] d e.ptpAccepted ∧ e.ptpAccepted.rd R.PTP_PENDING_JUMP = 0 := by
  obtain ⟨servo, zero⟩ := ptpAccepted_steers e
  have taken := (takeJump_takes d).steers (h.wider (by decide))
  exact ⟨TookJump.steers ⟨taken.keeps.wider (by decide), taken.stcOff, taken.jump, taken.pending⟩ (servo.wider (by decide)), zero⟩

/-! CALM leaves the cue protocol alone (R536). -/

theorem latchBank_cue (d : Dev) (w : Nat) : (d.latchBank w).cue = d.cue := by
  unfold latchBank
  dsimp only
  split <;> rfl

theorem latchBanks_cue (l : List Nat) (d : Dev) : (l.foldl latchBank d).cue = d.cue := by
  induction l generalizing d with
  | nil => rfl
  | cons w r ih => exact (ih _).trans (latchBank_cue d w)

theorem latchAll_cue (d : Dev) (src : Nat) : (d.latchAll src).cue = d.cue := by
  simp only [latchAll, log_cue, wr_cue, wrPair_cue, cntWrap_cue, latchBanks_cue]

theorem calmMark_cue (d : Dev) (src : Nat) : (d.calmMark src).cue = d.cue := by
  unfold calmMark calmOut
  split <;> rfl

theorem putSnap_cue (d : Dev) (x : SnapPart) : (d.putSnap x).cue = d.cue := rfl

theorem calmLatch_cue (d : Dev) (src : Nat) : (d.calmLatch src).cue = d.cue := by
  have latched := latchAll_cue (d.putSnap { d.snap with before := d.snap.banks, latchedAt := some d.now }) src
  rw [calmLatch]
  generalize (d.putSnap { d.snap with before := d.snap.banks, latchedAt := some d.now }).latchAll src = e at latched
  rw [apply_ite Dev.cue, putSnap_cue, ite_self]
  exact latched

theorem calm_cue (d : Dev) (src : Nat) : (d.calm src).cue = d.cue := by
  simp only [calm, apply_ite Dev.cue, cnt_cue, calmMark_cue, calmLatch_cue, ite_self]

/-! A veer is asked for (R357). -/

section
variable {d : Dev}

theorem veerAsk_inserted (may : d.veerCheck = 0) {e : Dev} (joins : d.calInsert d.veerLine 3 0 0 (d.epoch + 1) 0 = (0, e)) :
    d.veerAsk = (e, true) := by
  unfold veerAsk
  rw [may, joins]
  rfl

theorem veerRequest_windward (live : d.state = .live) (may : d.veerCheck = 0) (fits : d.calCheck d.veerLine 3 0 (d.epoch + 1) 0 = 0) :
    d.veerRequest = (d.calStore d.veerLine 3 0 0 (d.epoch + 1) 0, true) :=
  (if_pos live).trans (veerAsk_inserted may (calInsert_accepted fits 0))

theorem veerRequest_leeward (other : d.state ≠ .live) (service : d.inService = true) (paired : d.rdb R.TOP_STATE_PAIRED = true) :
    d.veerRequest = (d.sendFrame (.request .veer), true) := by
  simp [veerRequest, other, service, paired]

theorem veerRequest_unpaired (other : d.state ≠ .live) (alone : d.rdb R.TOP_STATE_PAIRED = false) :
    d.veerRequest = (d.veerRefused 1, false) := by
  simp [veerRequest, other, alone]

theorem keeps_veerRefused (d : Dev) (code : Nat) : Keeps [4, 7] d (d.veerRefused code) := .log (by decide) (.wr (by decide) .refl)

theorem veerRefused_cue (d : Dev) (code : Nat) : (d.veerRefused code).cue = d.cue := by rw [veerRefused, log_cue, wr_cue]

theorem lastRefuse_veerRefused (d : Dev) (code : Nat) : (d.veerRefused code).rd R.VEER_STATUS_LAST_REFUSE = code % 2 ^ 8 :=
  (rd_log _ _ _ _ _ _ _ _ (by decide)).trans (rd_wr_self ..)

theorem sendFrame_cue (d : Dev) (body : PairBody) : (d.sendFrame body).cue = d.cue := by
  unfold sendFrame
  split <;> rfl

end

/-! A fired entry is taken in hand (R86, R88). -/

/-- The operations that a fired CUE entry names: a stored cue's, or those of a scheduled request. -/
def firedBody (d : Dev) (e : CalEntry) : Option (List Byte) :=
  if e.arg1 = 0 then (d.cue.stored.find? fun x => x.1 = e.arg0).map Prod.snd else (d.cue.sched.find? fun x => x.1 = e.arg1).map Prod.snd

/-- What stays of the scheduled requests' operations once an entry has been taken in hand. -/
def schedLeft (d : Dev) (e : CalEntry) : List (Nat × List Byte) :=
  if e.arg1 = 0 then d.cue.sched else d.cue.sched.filter fun x => x.1 != e.arg1

/-- The fired CUE entry is taken in hand: it leaves the run queue, and its scheduled operations leave the store. -/
def takeFired (d : Dev) (e : CalEntry) (r : List FiredEntry) : Dev :=
  { d with cal := { d.cal with runq := r }, cue := { d.cue with sched := d.schedLeft e } }

/-- The start of a fired CUE entry is logged with the WLN (R86; its event number is free, log entry 104). -/
def startLogged (d : Dev) (e : CalEntry) : Dev :=
  d.drawn.log 0x02 0 0 (d.freeVal 41 % 2 ^ 13) d.wtm.wln 0 (some (d.firedNote e))

/-- The operations of a fired entry become the job in hand, and the groups that they touch are held (R96). -/
def startJob (d : Dev) (ops : List (Nat × List Byte)) (f : FiredEntry) : Dev :=
  { d.cput { d.cue with job := some ⟨ops, 0, [], 0, 0, none, some f⟩ } with com := { d.com with msgHold := d.touched ops } }

/-- A fired CUE entry's operations are checked, logged and started, or the entry is refused (R86, R88). -/
def beginFired (d : Dev) (f : FiredEntry) : Option (List Byte) → Dev
  | none => (d.fireRefused f.entry f.at_ 1).cuePump
  | some b =>
    match d.bodyCheck false true none b with
    | some (row, _, _) => (d.fireRefused f.entry f.at_ (if row = 1 then 2 else 1)).cuePump
    | none =>
      if (cueOps b).1 = [] then ((d.startLogged f.entry).fireReport f.entry f.at_ 0).cuePump
      else (d.startLogged f.entry).startJob (cueOps b).1 f

section
variable {d : Dev} {f : FiredEntry} {r : List FiredEntry}

theorem fireReport_unsubscribed (h : d.cue.subs = []) (e : CalEntry) (at_ result : Nat) : d.fireReport e at_ result = d := by
  rw [fireReport, h]
  rfl

/-- A log entry, whatever it notes, leaves the cue protocol alone. -/
theorem log_note_cue (d : Dev) (s i c k x p : Nat) (n : Option LogNote) : (d.log s i c k x p n).cue = d.cue := logEntry_cue ..

/-- A refusal that nobody is told of, with no message to take in hand, is its entry in the log. -/
theorem fireRefused_pump (subs : d.cue.subs = []) (queue : d.cue.queue = []) (e : CalEntry) (at_ reason : Nat) :
    (d.fireRefused e at_ reason).cuePump = d.log 0x02 0 4 0x008 (e.tag + 65536 * reason) 0 (some (d.firedNote e)) := by
  rw [fireRefused, fireReport_unsubscribed (by rw [log_note_cue, subs])]
  exact cuePump_of_no_message (by rw [log_note_cue, queue])

theorem takeFired_eq (d : Dev) (e : CalEntry) (r : List FiredEntry) :
    (let x : Dev := { d with cal := { d.cal with runq := r } }
     if e.arg1 = 0 then x else x.cput { x.cue with sched := x.cue.sched.filter fun y => y.1 != e.arg1 }) = d.takeFired e r := by
  unfold takeFired schedLeft
  split <;> rfl

theorem beginFired_refused {b : List Byte} {row c i : Nat} (bad : d.bodyCheck false true none b = some (row, c, i)) :
    d.beginFired f (some b) = (d.fireRefused f.entry f.at_ (if row = 1 then 2 else 1)).cuePump := by
  simp only [beginFired, bad]

theorem beginFired_starts {b : List Byte} (good : d.bodyCheck false true none b = none) (ops : (cueOps b).1 ≠ []) :
    d.beginFired f (some b) = (d.startLogged f.entry).startJob (cueOps b).1 f := by
  simp only [beginFired, good, if_neg ops]

section
variable (service : d.inService = true) (job : d.cue.job = none) (next : d.cal.runq = f :: r)
include service job next

theorem actStoredCue_eq (cue : f.entry.action = 4) :
    actStoredCue d = (d.takeFired f.entry r).beginFired f (d.firedBody f.entry) := by
  have idle : (!d.inService || d.cue.job.isSome) = false := by simp [service, job]
  unfold actStoredCue
  rw [idle, next, ← takeFired_eq]
  exact (if_neg Bool.false_ne_true).trans (if_neg (not_not_intro cue))

theorem actMark_eq (mark : f.entry.action = 5) :
    actMark d = ((({ d with cal := { d.cal with runq := r } } : Dev).log 0x02 0 0 0x009 f.entry.arg0 0 (some (d.firedNote f.entry))).fireReport
      f.entry f.at_ 0).cuePump := by
  have idle : (!d.inService || d.cue.job.isSome) = false := by simp [service, job]
  unfold actMark
  rw [idle, next]
  exact (if_neg Bool.false_ne_true).trans (if_neg (not_not_intro mark))

end
end

/-! What a fired entry names, and what the entry of its start in the log leaves alone. -/

section
variable {d : Dev} {e : CalEntry}

theorem firedBody_found {b : List Byte}
    (h : (e.arg1 = 0 ∧ (d.cue.stored.find? fun x => x.1 = e.arg0) = some (e.arg0, b)) ∨
      (e.arg1 ≠ 0 ∧ (d.cue.sched.find? fun x => x.1 = e.arg1) = some (e.arg1, b))) : d.firedBody e = some b := by
  rcases h with ⟨stored, found⟩ | ⟨scheduled, found⟩
  · rw [firedBody, if_pos stored, found]
    rfl
  · rw [firedBody, if_neg scheduled, found]
    rfl

theorem firedBody_missing
    (h : (e.arg1 = 0 ∧ (d.cue.stored.find? fun x => x.1 = e.arg0) = none) ∨
      (e.arg1 ≠ 0 ∧ (d.cue.sched.find? fun x => x.1 = e.arg1) = none)) : d.firedBody e = none := by
  rcases h with ⟨stored, found⟩ | ⟨scheduled, found⟩
  · rw [firedBody, if_pos stored, found]
    rfl
  · rw [firedBody, if_neg scheduled, found]
    rfl

end

theorem keeps_takeFired (d : Dev) (e : CalEntry) (r : List FiredEntry) : Keeps [4] d (d.takeFired e r) := ⟨rfl, rfl, fun _ _ => rfl⟩

theorem keeps_startLogged (d : Dev) (e : CalEntry) : Keeps [4] d (d.startLogged e) := .logEntry (by decide) (.drawn .refl)

/-- A free value drawn beside an entry does not change the log. -/
theorem logEntry_drawn_elog (d : Dev) (x : LogEntry) : (d.drawn.logEntry x).elog = (d.logEntry x).elog := by
  rw [logEntry, logEntry]
  generalize 4 * fabCycle = dead
  generalize fabCycle = cycle
  rw [apply_ite Dev.elog, apply_ite Dev.elog]
  rfl

theorem elog_startLogged (d : Dev) (e : CalEntry) :
    (d.startLogged e).elog = (d.log 0x02 0 0 (d.freeVal 41 % 2 ^ 13) d.wtm.wln 0 (some (d.firedNote e))).elog := by
  rw [startLogged, log, logEntry_drawn_elog, log]
  rfl

/-- The groups that operations touch follow the table that is selected and the tables' groups. -/
theorem touched_congr {d e : Dev} (sel : e.rd R.TBL_SEL_TABLE = d.rd R.TBL_SEL_TABLE) (tbl : e.tbl = d.tbl) (ops : List (Nat × List Byte)) :
    e.touched ops = d.touched ops := by
  have group : e.tblGroup = d.tblGroup := by
    funext table
    rw [tblGroup, tbl, tblGroup]
  simp only [touched, sel, group]

theorem touched_startLogged (d : Dev) (e : CalEntry) (ops : List (Nat × List Byte)) : (d.startLogged e).touched ops = d.touched ops :=
  touched_congr ((keeps_startLogged d e).rd _ (by decide)) (logEntry_tbl ..) ops

/-- The entry that joins the calendar (R567). -/
theorem calStore_adds (d : Dev) (target action groups tag arg0 arg1 : Nat) :
    ∃ e : CalEntry, (d.calStore target action groups tag arg0 arg1).cal.entries = d.cal.entries ++ [e] ∧
      e.action = action ∧ e.target = target % 2 ^ 48 ∧ e.arg0 = arg0 := ⟨_, rfl, rfl, rfl, rfl⟩

end Dev

/-! The cue operations as commands (R470, R471). -/

section
variable {s : State} {j k : CueJob} {code : Nat} {a : List Byte} {more : List (Nat × List Byte)} {d : Dev}
  {f : List Byte → CueJob → Dev → Dev × Option (CueJob × Nat)}

/-- The operation at the head is executed. -/
theorem State.CueAt.executes (h : s.CueAt j code a more) : s.start.cueOp code f = (f a j s.start).1.stepJob j (f a j s.start).2 := by
  obtain ⟨-, service, free, job, head, -⟩ := h
  exact Dev.cueOp_at (d := s.start) service free job head f

/-- An operation that is done, with more after it, leaves the job at the next one. -/
theorem State.CueAt.goes_on (h : s.CueAt j code a more) (act : f a j s.start = (d, some (k, 0))) (ops : k.ops = j.ops) (q : d.wq = []) :
    run s (fun _ x => x.cueOp code f) = .next (s.withDev (d.cput { d.cue with job := some k.after })) := by
  have acts := h.executes (f := f)
  obtain ⟨on, -, -, -, head, rest⟩ := h
  have tail : k.ops.tail ≠ [] := by
    rw [ops, head]
    exact rest
  rw [act] at acts
  exact run_eq on (acts.trans (Dev.stepJob_goes_on tail)) q

/-- An operation that waits leaves the job as it was. -/
theorem State.CueAt.waits (h : s.CueAt j code a more) (act : f a j s.start = (s.start, none)) :
    run s (fun _ x => x.cueOp code f) = .next (s.withDev s.start) := by
  have acts := h.executes (f := f)
  rw [act] at acts
  exact run_eq h.1 acts rfl

/-- An operation that fails ends the job. -/
theorem State.CueAt.fails (h : s.CueAt j code a more) {c : Nat} (act : f a j s.start = (d, some (k, c + 1))) (q : d.wq = [])
    (msg : j.msg = none) (fired : j.fired = none) (queue : d.cue.queue = []) :
    run s (fun _ x => x.cueOp code f) = .next (s.withDev (d.jobEnded j)) := by
  have acts := h.executes (f := f)
  rw [act] at acts
  exact run_eq h.1 (acts.trans (Dev.endJob_silent msg fired queue (c + 1))) q

/-! TIME_ACCEPT (R76, R465). -/

theorem timeAccept_slew (slew : beAt a 0 1 ≠ 1) (pending : d.rdb R.WTM_STATUS_JUMP_PENDING = true) :
    actTimeAccept false a j d = (d.acceptSlew.ptpAccepted, some (j, 0)) := by
  simp [actTimeAccept, slew, pending]

theorem timeAccept_step (step : beAt a 0 1 = 1) (cold : d.state = .cold) (pending : d.rdb R.WTM_STATUS_JUMP_PENDING = true) :
    actTimeAccept true a j d = (d.acceptStep.ptpAccepted, some (j, 0)) := by
  simp [actTimeAccept, step, Dev.liveOrWarm, cold, pending]

/-- A command accepts the pending jump: the STC has taken it, none waits, and the job goes on. -/
def State.Accepts (s : State) (j : CueJob) (o : Host.Outcome State Fault Refusal) : Prop :=
  ∃ t, o = .next t ∧ s.Only [2, 4, 0x43, 0x44] t ∧ t.dev.cue.job = some j.after ∧ t.dev.stcOff = s.dev.stcOff + s.dev.wtm.jump ∧
    t.dev.wtm.jump = 0 ∧ t.dev.rdb R.WTM_STATUS_JUMP_PENDING = false ∧ t.dev.rd R.PTP_PENDING_JUMP = 0

theorem State.CueAt.accepts (h : s.CueAt j 9 a more) {step : Bool} (act : actTimeAccept step a j s.start = (d.ptpAccepted, some (j, 0)))
    (steers : Dev.Steers [2, 4] s.start.takeJump d) : s.Accepts j (run s fun _ x => x.cueOp 9 (actTimeAccept step)) := by
  obtain ⟨⟨keeps, off, jump, pending⟩, shown⟩ := Dev.accepted_takes steers
  exact ⟨_, h.goes_on act rfl keeps.wq, State.only_withDev (.set_cue keeps), rfl, off, jump, pending, shown⟩

/-- TIME_ACCEPT of a pending jump, with SLEW in any state in service or with STEP in COLD. -/
theorem timeAccept_accepts (h : s.CueAt j 9 a more) (pending : s.dev.rdb R.WTM_STATUS_JUMP_PENDING = true) {c : Instr}
    (hc : c = .timeAcceptSlew ∧ beAt a 0 1 ≠ 1 ∨ c = .timeAcceptStep ∧ beAt a 0 1 = 1 ∧ s.dev.state = .cold) : s.Accepts j (exec c s) := by
  rcases hc with ⟨rfl, slew⟩ | ⟨rfl, step, cold⟩
  · exact h.accepts (timeAccept_slew (d := s.start) slew pending) (Dev.steers_acceptSlew _)
  · exact h.accepts (timeAccept_step (d := s.start) step cold pending) (Dev.steers_acceptStep _)

/-- TIME_ACCEPT of the other kind is not this command's. -/
theorem timeAccept_other (h : s.CueAt j 9 a more) :
    (beAt a 0 1 = 1 → exec .timeAcceptSlew s = .next (s.withDev s.start)) ∧
    (beAt a 0 1 ≠ 1 → exec .timeAcceptStep s = .next (s.withDev s.start)) := by
  refine ⟨fun step => h.waits (if_pos ?_), fun slew => h.waits (if_pos ?_)⟩
  · simp [step]
  · simp [slew]

/-! VEER_REQ (R357). -/

theorem veerReq_windward (h : s.CueAt j 0xA a more) (live : s.dev.state = .live) (may : s.dev.veerCheck = 0)
    (fits : s.dev.calCheck s.dev.veerLine 3 0 (s.dev.epoch + 1) 0 = 0) :
    ∃ t e, exec .veerReq s = .next t ∧ s.Only [] t ∧ t.dev.cue.job = some j.after ∧ t.dev.cal.entries = s.dev.cal.entries ++ [e] ∧
      e.action = 3 ∧ e.target = s.dev.veerLine % 2 ^ 48 ∧ e.arg0 = s.dev.epoch + 1 := by
  have asked : s.start.veerRequest = (s.start.calStore s.dev.veerLine 3 0 0 (s.dev.epoch + 1) 0, true) :=
    Dev.veerRequest_windward (d := s.start) live may fits
  have keeps : Dev.Keeps [] s.start (s.start.calStore s.dev.veerLine 3 0 0 (s.dev.epoch + 1) 0) := .set_cal .refl
  obtain ⟨e, entries, entry⟩ := s.start.calStore_adds s.dev.veerLine 3 0 0 (s.dev.epoch + 1) 0
  generalize s.start.calStore s.dev.veerLine 3 0 0 (s.dev.epoch + 1) 0 = d at asked keeps entries
  have act : actVeerReq a j s.start = (d, some (j, 0)) := by
    rw [actVeerReq, asked]
    rfl
  exact ⟨_, _, h.goes_on act rfl keeps.wq, State.only_withDev (.set_cue keeps), rfl, entries, entry⟩

theorem veerReq_leeward (h : s.CueAt j 0xA a more) (other : s.dev.state ≠ .live) (paired : s.dev.rdb R.TOP_STATE_PAIRED = true) :
    exec .veerReq s = .next (s.withDev ((s.start.sendFrame (.request .veer)).cput { s.dev.cue with job := some j.after })) := by
  have act : actVeerReq a j s.start = (s.start.sendFrame (.request .veer), some (j, 0)) := by
    rw [actVeerReq, Dev.veerRequest_leeward (d := s.start) other h.2.1 paired]
    rfl
  have sent := h.goes_on act rfl (Dev.keeps_sendFrame ..).wq
  rw [Dev.sendFrame_cue] at sent
  exact sent

/-- A request that is refused ends the job. -/
theorem veerReq_fails (h : s.CueAt j 0xA a more) (asked : s.start.veerRequest = (d, false)) (keeps : Dev.Keeps [4, 7] s.start d)
    (shown : d.rd R.VEER_STATUS_LAST_REFUSE = 1) (msg : j.msg = none) (fired : j.fired = none) (queue : d.cue.queue = []) :
    ∃ t, exec .veerReq s = .next t ∧ s.Only [4, 7] t ∧ t.dev.cue.job = none ∧ t.dev.rd R.VEER_STATUS_LAST_REFUSE = 1 := by
  have act : actVeerReq a j s.start = (d, some (j, 0x0C + 1)) := by
    rw [actVeerReq, asked]
    rfl
  exact ⟨_, h.fails act keeps.wq msg fired queue, State.only_withDev (.set_com (.set_cue keeps)), rfl, shown⟩

theorem veerReq_unpaired (h : s.CueAt j 0xA a more) (other : s.dev.state ≠ .live) (alone : s.dev.rdb R.TOP_STATE_PAIRED = false)
    (msg : j.msg = none) (fired : j.fired = none) (queue : s.dev.cue.queue = []) :
    ∃ t, exec .veerReq s = .next t ∧ s.Only [4, 7] t ∧ t.dev.cue.job = none ∧ t.dev.rd R.VEER_STATUS_LAST_REFUSE = 1 :=
  veerReq_fails h (Dev.veerRequest_unpaired (d := s.start) other alone) (Dev.keeps_veerRefused ..) (Dev.lastRefuse_veerRefused ..) msg fired
    ((congrArg CuePart.queue (Dev.veerRefused_cue ..)).trans queue)

/-! SNAPSHOT and COMMIT (R96, R471, R536). -/

theorem snapshot_calms (h : s.CueAt j 0xB a more) :
    exec .snapshot s = .next (s.withDev ((s.start.calm 2).cput { s.dev.cue with job := some j.after })) := by
  have calmed := h.goes_on (f := actSnapshot) rfl rfl (Dev.keeps_calm s.start 2).wq
  rw [Dev.calm_cue] at calmed
  exact calmed

/-- The last COMMIT of a message's operations: its groups fall due as the message ends. -/
theorem commitOp_ends (on : s.dev.off = false) (service : s.dev.inService = true) (free : s.dev.clk.wait = none)
    (job : s.dev.cue.job = some j) (ops : j.ops = [(7, a)]) (msg : j.msg = none) (fired : j.fired = none) (queue : s.dev.cue.queue = []) :
    ∃ t, exec .commitOp s = .next t ∧ s.Only [] t ∧ t.dev.cue = { s.dev.cue with job := none } ∧ t.dev.com.msgHold = 0 ∧
      t.dev.com.afterMsg = Nat.lor s.dev.com.afterMsg (Nat.lor j.commits (beAt a 0 1)) := by
  let k : CueJob := { j with commits := Nat.lor j.commits (beAt a 0 1) }
  have last : k.ops.tail = [] := congrArg List.tail ops
  have act : s.start.cueOp 7 actCommitOp = s.start.jobEnded k.after :=
    (Dev.cueOp_at (d := s.start) service free job ops actCommitOp).trans
      ((Dev.stepJob_ends last).trans (Dev.endJob_silent (d := s.start) (j := k.after) msg fired queue 0))
  exact ⟨_, (exec_commitOp s).trans (run_eq on act rfl), State.only_withDev (.set_com (.set_cue .refl)), rfl, rfl, rfl⟩

end

/-! Fired entries as commands (R86, R88). -/

/-- The operations of a fired entry are the job in hand of a device that has d's calendar, cues and tables, and x's log. -/
theorem storedCueRun_startJob {s : State} {f : FiredEntry} {ops : List (Nat × List Byte)} {d e x : Dev} (on : s.dev.off = false)
    (act : actStoredCue s.start = e.startJob ops f) (keeps : Dev.Keeps [4] s.start e) (cal : e.cal = d.cal) (cue : e.cue = d.cue)
    (touched : e.touched ops = d.touched ops) (elog : e.elog = x.elog) :
    ∃ t, exec .storedCueRun s = .next t ∧ s.Only [4] t ∧ t.dev.cal.runq = d.cal.runq ∧ t.dev.cue.sched = d.cue.sched ∧
      t.dev.cue.job = some ⟨ops, 0, [], 0, 0, none, some f⟩ ∧ t.dev.com.msgHold = d.touched ops ∧ t.dev.elog = x.elog := by
  have sched : e.cue.sched = d.cue.sched := congrArg CuePart.sched cue
  have same : (s.withDev (e.startJob ops f)).dev.elog = e.elog := rfl
  exact ⟨_, (exec_storedCueRun s).trans (run_eq on act keeps.wq), State.only_withDev (.set_com (.set_cue keeps)), congrArg CalPart.runq cal,
    sched, rfl, touched, same.trans elog⟩

section
variable {s : State} {f : FiredEntry} {r : List FiredEntry} (on : s.dev.off = false) (service : s.dev.inService = true)
  (job : s.dev.cue.job = none) (next : s.dev.cal.runq = f :: r)
include on service job next

theorem exec_markRun_fired (mark : f.entry.action = 5) (subs : s.dev.cue.subs = []) (queue : s.dev.cue.queue = []) :
    exec .markRun s = .next (s.withDev (({ s.start with cal := { s.start.cal with runq := r } } : Dev).log 0x02 0 0 0x009 f.entry.arg0 0
      (some (s.start.firedNote f.entry)))) := by
  refine (exec_markRun s).trans (run_eq on ((Dev.actMark_eq (d := s.start) service job next mark).trans ?_) (Dev.logEntry_wq ..))
  rw [Dev.fireReport_unsubscribed (by rw [Dev.log_note_cue]; exact subs)]
  exact Dev.cuePump_of_no_message (by rw [Dev.log_note_cue]; exact queue)

variable (cue : f.entry.action = 4)
include cue

/-- A refused entry, with nobody subscribed and no message waiting, leaves its entry in the log. -/
theorem storedCueRun_refused {reason : Nat} (act : (s.start.takeFired f.entry r).beginFired f (s.start.firedBody f.entry) =
      ((s.start.takeFired f.entry r).fireRefused f.entry f.at_ reason).cuePump) (subs : s.dev.cue.subs = []) (queue : s.dev.cue.queue = []) :
    exec .storedCueRun s = .next (s.withDev ((s.start.takeFired f.entry r).log 0x02 0 4 0x008 (f.entry.tag + 65536 * reason) 0
      (some (s.start.firedNote f.entry)))) :=
  (exec_storedCueRun s).trans (run_eq on (((Dev.actStoredCue_eq (d := s.start) service job next cue).trans act).trans
    (Dev.fireRefused_pump (d := s.start.takeFired f.entry r) subs queue ..)) (Dev.logEntry_wq ..))

/-- An entry whose operations pass their check starts them. -/
theorem storedCueRun_starts {b : List Byte} {x : Dev} (body : s.start.firedBody f.entry = some b)
    (good : (s.start.takeFired f.entry r).bodyCheck false true none b = none) (ops : (cueOps b).1 ≠ [])
    (entered : (s.start.takeFired f.entry r).log 0x02 0 0 ((s.start.takeFired f.entry r).freeVal 41 % 2 ^ 13) s.dev.wtm.wln 0
      (some (s.start.firedNote f.entry)) = x) :
    ∃ t, exec .storedCueRun s = .next t ∧ s.Only [4] t ∧ t.dev.cal.runq = r ∧ t.dev.cue.sched = s.dev.schedLeft f.entry ∧
      t.dev.cue.job = some ⟨(cueOps b).1, 0, [], 0, 0, none, some f⟩ ∧
      t.dev.com.msgHold = (s.start.takeFired f.entry r).touched (cueOps b).1 ∧ t.dev.elog = x.elog := by
  have act : actStoredCue s.start = ((s.start.takeFired f.entry r).startLogged f.entry).startJob (cueOps b).1 f := by
    rw [Dev.actStoredCue_eq (d := s.start) service job next cue, body]
    exact Dev.beginFired_starts good ops
  exact storedCueRun_startJob on act ((Dev.keeps_takeFired ..).trans (Dev.keeps_startLogged ..)) (Dev.logEntry_cal ..) (Dev.log_note_cue ..)
    (Dev.touched_startLogged ..) ((Dev.elog_startLogged ..).trans (congrArg Dev.elog entered))

end

/-- Settles O55: an operation of the job in hand by how the job goes on or ends after it, a time acceptance by what steering the clock leaves,
and a fired entry by the operations that it names and what becomes of them. -/
theorem cueCommandsAndFiredEntries : Obligations.CueCommandsAndFiredEntries := by
  refine ⟨fun s j a more => ⟨fun h => h.goes_on (f := actCommitOp) rfl rfl rfl, fun h => ?_, fun h => ⟨?_, ?_, ?_⟩, snapshot_calms⟩,
    fun s j a on service free job ops msg fired queue => commitOp_ends on service free job ops msg fired queue,
    fun s f r on service job next => ⟨fun cue => ⟨fun b named => ⟨fun good ops => ?_, fun row c i bad subs queue => ?_⟩, fun missing subs queue => ?_⟩,
      fun mark subs queue => ?_⟩⟩
  · obtain ⟨step, slew⟩ := timeAccept_other h
    exact ⟨step, slew, fun pending c hc => timeAccept_accepts h pending hc⟩
  · exact veerReq_windward h
  · exact veerReq_leeward h
  · exact veerReq_unpaired h
  · exact storedCueRun_starts on service job next cue (Dev.firedBody_found (d := s.start) named) good ops rfl
  · refine storedCueRun_refused on service job next cue ?_ subs queue
    rw [Dev.firedBody_found (d := s.start) named]
    exact Dev.beginFired_refused bad
  · refine storedCueRun_refused on service job next cue ?_ subs queue
    rw [Dev.firedBody_missing (d := s.start) missing]
    rfl
  · exact exec_markRun_fired on service job next mark subs queue

end Sys2Proof.Machine
end

section
/-!
PROOFS. Every command as a whole: that it runs or rests, what that leaves in OFF and in YIELDED, and which effect each command has.
-/

namespace Sys2Proof.Machine

/-! Running and resting (Table 1-4, R342). -/

section
variable {s : State} (f : List Host.Cell → Dev → Dev)

theorem run_off (off : s.dev.off = true) : run s f = .next s := if_pos off

theorem runEngine_yielded (yielded : s.dev.state = .yielded) : runEngine s f = .next s := if_pos yielded

theorem runEngine_awake (awake : s.dev.state ≠ .yielded) : runEngine s f = run s f := if_neg awake

theorem runEngine_off (off : s.dev.off = true) : runEngine s f = .next s := by
  have awake : s.dev.state ≠ .yielded := by simp [Dev.state, off]
  rw [runEngine_awake f awake, run_off f off]

theorem runEngine_on (on : s.dev.off = false) (awake : s.dev.state ≠ .yielded) : runEngine s f = .next (settle s (f s.mem s.start)) :=
  (runEngine_awake f awake).trans (run_on on f)

end

/-! A camera's frame start, by the size that its frames would have (R104). -/

section
variable {s : State} (n : Fin 8) (dt : CamTick)

theorem exec_camFrameStart_off (off : s.dev.off = true) : exec (.camFrameStart n dt) s = .next s :=
  ((exec_camFrameStart n dt s).trans (if_pos (by rw [off, Bool.true_or]))).trans (run_off _ off)

theorem exec_camFrameStart_on (on : s.dev.off = false) (size : s.dev.nextSizeOk n = true) :
    exec (.camFrameStart n dt) s = .next (settle s (actCamStart n dt s.start)) :=
  ((exec_camFrameStart n dt s).trans (if_pos (by rw [size, Bool.or_true]))).trans (run_on on _)

theorem exec_camFrameStart_undefined (on : s.dev.off = false) (size : s.dev.nextSizeOk n = false) :
    exec (.camFrameStart n dt) s = .fault .geometryUndefined :=
  (exec_camFrameStart n dt s).trans (if_neg (by rw [on, size]; decide))

end

/-- In OFF every command but those of the resets rests: those of the engines, a camera's frame start, and all others. -/
theorem exec_off {s : State} (off : s.dev.off = true) (c : Instr) (assert_ : c ≠ .porstNAssert) (supply : c ≠ .supplyMonitorReset)
    (release : ∀ r b t, c ≠ .porstNRelease r b t) (supplyRelease : ∀ r b t, c ≠ .supplyMonitorRelease r b t) : exec c s = .next s := by
  cases c <;> unfold exec
  case porstNAssert => exact absurd rfl assert_
  case supplyMonitorReset => exact absurd rfl supply
  case porstNRelease => exact absurd rfl (release _ _ _)
  case supplyMonitorRelease => exact absurd rfl (supplyRelease _ _ _)
  case camFrameStart n dt => exact exec_camFrameStart_off n dt off
  case hatboxMount | hbxWrite | writeStaged | hbxRead | readComplete | hbxFlush | openTake | closeTake | deleteTake | fwActivate |
      nvmeWriteComplete | commitBatchStart | batchStepDone | hbxCmdTimeout | ssdAdminTimeout | driveReady | completionPost | compress |
      decompress | descriptorComplete | fulRingRelease | driveActivationTimeout | format =>
    exact runEngine_off _ off
  all_goals exact run_off _ off

/-- Settles O4: what a command can do (`exec_shaped`), and in OFF what it cannot (`exec_off`). -/
theorem everyCommandCompletesOrBadGeometry : Obligations.EveryCommandCompletesOrBadGeometry := by
  refine ⟨fun c s => ?_, fun c s off => exec_off off c⟩
  rcases exec_shaped c s with (⟨d, settles⟩ | ⟨rests, -⟩) | undefined
  · exact .inl ⟨settle s d, settles, rfl⟩
  · exact .inl ⟨s, rests, rfl⟩
  · exact .inr undefined

/-- Settles O3: the reset commands act in every state. In YIELDED the engines' commands rest. Out of OFF the others run, the engines'
unless the device has yielded, and a camera's frame start if its size is defined. -/
theorem everyCommandAnswersItsEffect : Obligations.EveryCommandAnswersItsEffect := by
  intro s
  refine ⟨rfl, fun _ _ _ => rfl, rfl, fun _ _ _ => rfl, fun yielded => ?_, fun on => ?_⟩
  · and_intros
    all_goals unfold exec; intros; exact runEngine_yielded _ yielded
  · and_intros
    all_goals unfold exec; intros
    any_goals exact run_on on _
    any_goals exact runEngine_on _ on ‹s.dev.state ≠ .yielded›
    exact exec_camFrameStart_on _ _ on ‹_›

end Sys2Proof.Machine
end

section
/-!
PROOFS. What the operations on a camera port's frames leave of a port: its place in its frame, the registers that tell of its frame
starts and of its check words, the time, wall time, the live settings and the DRAM.
-/

namespace Sys2Proof.Machine

/-! What a port keeps. -/

/-- A port's place in its frame: VS and the times of its edges, the check word that it awaits, its rows, and whether its slot is filled. -/
def CamPart.place (c : CamPart) : Bool × Option Time × Option Time × Option Nat × List (List Nat) × Bool :=
  (c.vs, c.lastStart, c.lastRise, c.check, c.rows, c.slotDone)

theorem CamPart.check_of_place {c e : CamPart} (h : e.place = c.place) : e.check = c.check := congrArg (·.2.2.2.1) h
theorem CamPart.rows_of_place {c e : CamPart} (h : e.place = c.place) : e.rows = c.rows := congrArg (·.2.2.2.2.1) h

namespace Dev

/-- e stands where d stands in the time, wall time, the live settings, the DRAM writes made, port n's place in its frame, and those of port
n's registers whose offsets in its window, in bits, are listed. -/
structure PortKeeps (ks : List Nat) (n : Fin 8) (d e : Dev) : Prop where
  now  : e.now = d.now
  live : e.live = d.live
  wtm  : e.wtm = d.wtm
  wq   : e.wq = d.wq
  rd   : ∀ f : Fld, f.key / 524288 = 0x10 + n.val → f.key % 524288 ∈ ks → e.rd f = d.rd f
  cam  : (e.cam n).place = (d.cam n).place

theorem cam_putCam_of_ne (d : Dev) {q : Nat} (c : CamPart) {n : Fin 8} (h : q ≠ n) : (d.putCam q c).cam n = d.cam n :=
  cam_putCam_ne d c h

theorem cam_congr {d e : Dev} (h : e.cams = d.cams) (n : Nat) : e.cam n = d.cam n := by rw [cam, cam, h]

theorem lv_congr {d e : Dev} (h : e.live = d.live) (f : Fld) : e.lv f = d.lv f := by rw [lv, lv, h]

namespace PortKeeps

variable {ks : List Nat} {n : Fin 8} {c d e : Dev}

theorem refl : PortKeeps ks n d d := ⟨rfl, rfl, rfl, rfl, fun _ _ _ => rfl, rfl⟩

theorem trans (h : PortKeeps ks n c d) (h' : PortKeeps ks n d e) : PortKeeps ks n c e :=
  ⟨h'.now.trans h.now, h'.live.trans h.live, h'.wtm.trans h.wtm, h'.wq.trans h.wq, fun f w k => (h'.rd f w k).trans (h.rd f w k),
    h'.cam.trans h.cam⟩

theorem mono {ks' : List Nat} (h : PortKeeps ks n d e) (sub : ∀ k ∈ ks', k ∈ ks) : PortKeeps ks' n d e :=
  ⟨h.now, h.live, h.wtm, h.wq, fun f w k => h.rd f w (sub _ k), h.cam⟩

/-- A change of parts that hold nothing of what is kept. -/
theorem parts {e' : Dev} (h : PortKeeps ks n d e) (now : e'.now = e.now) (live : e'.live = e.live) (wtm : e'.wtm = e.wtm)
    (wq : e'.wq = e.wq) (regs : e'.regs = e.regs) (cams : e'.cams = e.cams) : PortKeeps ks n d e' :=
  ⟨now.trans h.now, live.trans h.live, wtm.trans h.wtm, wq.trans h.wq,
    fun f w k => (congrArg (fun r => (SMap.find? r f.key).getD f.reset) regs).trans (h.rd f w k),
    (congrArg CamPart.place (cam_congr cams n)).trans h.cam⟩

theorem wr {f : Fld} {v : Nat} (free : f.key / 524288 = 0x10 + n.val → f.key % 524288 ∉ ks) (h : PortKeeps ks n d e) :
    PortKeeps ks n d (e.wr f v) :=
  ⟨h.now, h.live, h.wtm, h.wq,
    fun g w k => (rd_wr_ne e f g v fun c => free (c ▸ w) (c ▸ k)).trans (h.rd g w k), h.cam⟩

/-- A field of a camera port's window is written, none of those listed if the port is n. -/
theorem wrPort {f : Fld} {v a b q : Nat} (key : f.key = 8 * (a + 0x10000 * q) + b) (window : (8 * a + b) / 524288 = 0x10)
    (free : q = n → (8 * a + b) % 524288 ∉ ks) (h : PortKeeps ks n d e) : PortKeeps ks n d (e.wr f v) := by
  have offset : f.key % 524288 = (8 * a + b) % 524288 := by omega
  exact h.wr fun w => offset ▸ free (by omega)

/-- A field of a block whose window comes after those of the camera ports is written. -/
theorem wrPast {f : Fld} {v a b r q : Nat} (key : f.key = 8 * (a + r * q) + b) (past : 0x180000 ≤ a) (h : PortKeeps ks n d e) :
    PortKeeps ks n d (e.wr f v) :=
  h.wr fun w => by
    have := n.isLt
    generalize r * q = x at key
    omega

theorem ite {p : Prop} [Decidable p] {a b : Dev} (ha : PortKeeps ks n d a) (hb : PortKeeps ks n d b) :
    PortKeeps ks n d (if p then a else b) := by
  split
  · exact ha
  · exact hb

theorem foldl {α : Type} {f : Dev → α → Dev} : ∀ (l : List α) {e : Dev}, (∀ x, ∀ a ∈ l, PortKeeps ks n x (f x a)) → PortKeeps ks n d e →
    PortKeeps ks n d (l.foldl f e)
  | [], _, _, h => h
  | a :: r, _, k, h => foldl r (fun x b m => k x b (List.mem_cons_of_mem _ m)) (h.trans (k _ a List.mem_cons_self))

theorem putCam {q : Nat} {x : CamPart} (same : q = n → x.place = (e.cam q).place) (h : PortKeeps ks n d e) :
    PortKeeps ks n d (e.putCam q x) := by
  refine ⟨h.now, h.live, h.wtm, h.wq, h.rd, Eq.trans ?_ h.cam⟩
  by_cases c : q = n
  · subst c
    rw [cam_putCam _ _ n.isLt]
    exact same rfl
  · rw [cam_putCam_of_ne _ _ c]

theorem log {s i c k x p : Nat} (h : PortKeeps ks n d e) : PortKeeps ks n d (e.log s i c k x p) := by
  have dropped : ∀ f : Fld, f.key / 524288 = 0x10 + n.val → f.key ≠ R.ERR_DROPPED.key := by
    intro f w c
    rw [c] at w
    simp only [R.ERR_DROPPED] at w
    omega
  exact ⟨(log_now ..).trans h.now, (log_live ..).trans h.live, (log_wtm ..).trans h.wtm, (log_wq ..).trans h.wq,
    fun f w k => (rd_log _ _ _ _ _ _ _ _ (dropped f w)).trans (h.rd f w k),
    (congrArg CamPart.place (cam_congr (log_cams ..) n)).trans h.cam⟩

/-- A flag changes whose field may be written. -/
theorem flag {i c : Nat} {f : Fld} {l v : Bool} (may : ∀ {x : Dev} {v : Nat}, PortKeeps ks n d x → PortKeeps ks n d (x.wr f v))
    (h : PortKeeps ks n d e) : PortKeeps ks n d (e.flag i f c l v) :=
  ite h (ite (log (may h)) (ite (log (may h)) (may h)))

theorem lv (h : PortKeeps ks n d e) (f : Fld) : e.lv f = d.lv f := lv_congr h.live f

theorem lvb (h : PortKeeps ks n d e) (f : Fld) : e.lvb f = d.lvb f := by rw [Dev.lvb, Dev.lvb, h.lv f]

theorem vs (h : PortKeeps ks n d e) : (e.cam n).vs = (d.cam n).vs := congrArg (·.1) h.cam
theorem lastStart (h : PortKeeps ks n d e) : (e.cam n).lastStart = (d.cam n).lastStart := congrArg (·.2.1) h.cam
theorem lastRise (h : PortKeeps ks n d e) : (e.cam n).lastRise = (d.cam n).lastRise := congrArg (·.2.2.1) h.cam
theorem check (h : PortKeeps ks n d e) : (e.cam n).check = (d.cam n).check := CamPart.check_of_place h.cam
theorem rows (h : PortKeeps ks n d e) : (e.cam n).rows = (d.cam n).rows := CamPart.rows_of_place h.cam
theorem slotDone (h : PortKeeps ks n d e) : (e.cam n).slotDone = (d.cam n).slotDone := congrArg (·.2.2.2.2.2) h.cam

end PortKeeps

/-! Marks and replacement (R110, R115, R116). -/

/-- The offsets of the registers that tell of a port's frame starts and check words. -/
def frameRegs : List Nat :=
  [R.CAM_STATUS_IN_FRAME, R.CAM_STATUS_CLK_RUN, R.CAM_CLK_KHZ, R.CAM_FS_SEQ, R.CAM_FS_WLN_LO, R.CAM_FRAMES, R.CAM_CHECK_ERR,
    R.CAM_CHECK_MISS].map fun f => (f 0).key % 524288

variable {ks : List Nat} {n : Fin 8}

theorem keeps_dropFramed (d : Dev) (q : Nat) : PortKeeps ks n d (d.dropFramed q) := PortKeeps.refl.parts rfl rfl rfl rfl rfl rfl
theorem keeps_tagFramed (d : Dev) (q : Nat) : PortKeeps ks n d (d.tagFramed q) := PortKeeps.refl.parts rfl rfl rfl rfl rfl rfl

theorem keeps_replaceFrom (d : Dev) {q : Nat} (own : q = n → ∀ k ∈ ks, k ∈ frameRegs) : PortKeeps ks n d (d.replaceFrom q) := by
  have counted : PortKeeps ks n d ((d.putCam q { d.cam q with replFrom := some (d.cam q).rows.length }).cnt (R.CAM_REPLACED q)) :=
    .wrPort rfl rfl (fun c m => absurd (own c _ m) (by decide)) (.putCam (fun _ => rfl) .refl)
  have dropped := counted.trans (keeps_dropFramed _ q)
  exact .ite (.ite (.wrPort rfl rfl (fun c m => absurd (own c _ m) (by decide)) dropped) dropped) .refl

/-- What a frame counts as it gains a mark (R115). -/
def markCounted (d : Dev) (q k : Nat) : Dev :=
  match markCounter q k with
  | some f => (if (d.cam q).marks = 0 then d.cnt (R.CAM_MARKED q) else d).cnt f
  | none => if (d.cam q).marks = 0 then d.cnt (R.CAM_MARKED q) else d

/-- The frame gains the mark, and what has left of it is tagged. -/
def markSet (d : Dev) (q k : Nat) : Dev :=
  ((d.markCounted q k).putCam q { (d.markCounted q k).cam q with marks := setBit (d.cam q).marks k true }).tagFramed q

/-- LAST_MARKS shows the marks of a frame that is over. -/
def markShown (d : Dev) (q : Nat) : Dev :=
  if d.rdb (R.CAM_STATUS_IN_FRAME q) then d else d.wr (R.CAM_STATUS_LAST_MARKS q) (d.cam q).marks

/-- A mark of REPL_MASK replaces the frame, in every port of its slot. -/
def markReplaced (d : Dev) (q k : Nat) : Dev :=
  if bit (d.lv (R.CAM_CTRL_REPL_MASK q)) k then (d.inSlot q).foldl replaceFrom d else d

theorem mark_eq (d : Dev) (q k : Nat) :
    d.mark q k = if bit (d.cam q).marks k then d else ((d.markSet q k).markShown q).markReplaced q k := by
  unfold mark markReplaced markShown markSet markCounted
  cases markCounter q k <;> rfl

theorem keeps_markCounted (d : Dev) (q k : Nat) : PortKeeps frameRegs n d (d.markCounted q k) := by
  have marked : PortKeeps frameRegs n d (if (d.cam q).marks = 0 then d.cnt (R.CAM_MARKED q) else d) :=
    .ite (.wrPort rfl rfl (fun _ => by decide) .refl) .refl
  unfold markCounted markCounter
  split
  · next f counter =>
    split at counter <;> cases counter <;> exact .wrPort rfl rfl (fun _ => by decide) marked
  · exact marked

theorem keeps_markSet (d : Dev) (q k : Nat) : PortKeeps frameRegs n d (d.markSet q k) := by
  unfold markSet
  refine PortKeeps.trans ?_ (keeps_tagFramed _ q)
  exact .putCam (fun _ => rfl) (keeps_markCounted d q k)

theorem keeps_markShown (d : Dev) (q : Nat) : PortKeeps frameRegs n d (d.markShown q) :=
  .ite .refl (.wrPort rfl rfl (fun _ => by decide) .refl)

theorem keeps_replaceAll (d : Dev) (l : List Nat) : PortKeeps frameRegs n d (l.foldl replaceFrom d) :=
  .foldl l (fun x _ _ => keeps_replaceFrom x fun _ _ m => m) .refl

theorem keeps_mark (d : Dev) (q k : Nat) : PortKeeps frameRegs n d (d.mark q k) := by
  rw [mark_eq]
  have shown := (keeps_markSet (n := n) d q k).trans (keeps_markShown _ q)
  exact .ite .refl (.ite (shown.trans (keeps_replaceAll ..)) shown)

theorem marks_replaceFrom (d : Dev) (q : Nat) : ((d.replaceFrom q).cam n).marks = (d.cam n).marks := by
  have same : ((d.putCam q { d.cam q with replFrom := some (d.cam q).rows.length }).cam n).marks = (d.cam n).marks := by
    by_cases c : q = n
    · subst c
      rw [cam_putCam _ _ n.isLt]
    · rw [cam_putCam_of_ne _ _ c]
  unfold replaceFrom
  dsimp only
  split_ifs
  · exact same
  · exact same
  · rfl

theorem marks_replaceAll (l : List Nat) (d : Dev) : ((l.foldl replaceFrom d).cam n).marks = (d.cam n).marks := by
  induction l generalizing d with
  | nil => rfl
  | cons q r ih => exact (ih _).trans (marks_replaceFrom d q)

theorem bit_setBit_true (v i : Nat) : bit (setBit v i true) i = true := by
  unfold setBit bit
  split
  · assumption
  · next h => simp [Nat.testBit_two_pow_add_eq, Nat.add_comm v, h]

/-- A frame has the mark that it gains. -/
theorem bit_marks_mark (d : Dev) (k : Nat) : bit ((d.mark n k).cam n).marks k = true := by
  rw [mark_eq]
  split
  · assumption
  · have set_ : bit ((d.markSet n k).cam n).marks k = true := by
      have : (d.markSet n k).cam n = { (d.markCounted n k).cam n with marks := setBit (d.cam n).marks k true } :=
        cam_putCam _ _ n.isLt
      rw [this]
      exact bit_setBit_true ..
    have shown : ((d.markSet n k).markShown n).cam n = (d.markSet n k).cam n := by
      unfold markShown
      split <;> rfl
    have replaced : ((((d.markSet n k).markShown n).markReplaced n k).cam n).marks = (((d.markSet n k).markShown n).cam n).marks := by
      unfold markReplaced
      split
      · exact marks_replaceAll ..
      · rfl
    rw [replaced, shown]
    exact set_

/-! The line of a frame (R106, R110, R134, R137). -/

theorem keeps_defOrder (d : Dev) (q : Nat) : PortKeeps ks n d (d.defOrder q) :=
  .ite (.ite (.flag (.wrPast (r := 0x10000) rfl (by decide)) .refl) .refl) .refl

theorem keeps_obClamp (d : Dev) (q y : Nat) : PortKeeps ks n d (d.obClamp q y) :=
  .ite .refl (.ite (.wrPast (r := 0x10000) rfl (by decide) .refl) .refl)

theorem keeps_gangSubst (d : Dev) (q : Nat) : PortKeeps frameRegs n d (d.gangSubst q) :=
  .ite (keeps_replaceFrom d fun _ _ m => m) .refl

theorem keeps_gangCheck (d : Dev) (q : Nat) : PortKeeps frameRegs n d (d.gangCheck q) := by
  unfold gangCheck
  dsimp only
  split
  · exact .refl
  · have marked : PortKeeps frameRegs n d ((d.inSlot q).foldl (fun d q => d.mark q 7) d) := .foldl _ (fun x _ _ => keeps_mark x _ 7) .refl
    have late {p : Bool} : PortKeeps frameRegs n d (if p then (d.inSlot q).foldl (fun d q => d.mark q 7) d else d) := .ite marked .refl
    exact .ite (late.trans (keeps_replaceFrom _ fun _ _ m => m)) late

/-- The check word of the last line is awaited no more. -/
def checkTaken (d : Dev) (n : Nat) : Dev := d.putCam n { d.cam n with check := none }

theorem missedCheck_cases (d : Dev) (n : Nat) : d.missedCheck n = d ∨ d.missedCheck n = d.checkTaken n ∨
    d.missedCheck n = ((d.checkTaken n).cnt (R.CAM_CHECK_MISS n)).mark n 0 := by
  unfold missedCheck
  dsimp only
  split
  · split
    · exact .inr (.inr rfl)
    · exact .inr (.inl rfl)
  · exact .inl rfl

theorem missedCheck_of_check {d : Dev} {n : Nat} (waits : (d.cam n).check.isSome = true) (on : d.lvb (R.CAM_CTRL_CHECK_EN n) = true) :
    d.missedCheck n = ((d.checkTaken n).cnt (R.CAM_CHECK_MISS n)).mark n 0 := by
  unfold missedCheck
  rw [if_pos waits]
  exact if_pos on

/-- A line whose check word is missed leaves the time, the live settings and the rows alone. -/
theorem missedCheck_parts (d : Dev) (n : Fin 8) : (d.missedCheck n).now = d.now ∧ (d.missedCheck n).live = d.live ∧
    ((d.missedCheck n).cam n).rows = (d.cam n).rows := by
  have taken : ((d.checkTaken n).cam n).rows = (d.cam n).rows := by rw [checkTaken, cam_putCam _ _ n.isLt]
  rcases missedCheck_cases d n with e | e | e <;> rw [e]
  · exact ⟨rfl, rfl, rfl⟩
  · exact ⟨rfl, rfl, taken⟩
  · have marked := keeps_mark (n := n) ((d.checkTaken n).cnt (R.CAM_CHECK_MISS n)) n 0
    exact ⟨marked.now, marked.live, marked.rows.trans taken⟩

/-! Rows leave the pipeline (R161): DRAM is written, and what has left is kept. -/

theorem dramUe_now_cams (d : Dev) (u : Nat) (cls : TrafficClass) : (d.dramUe u cls).now = d.now ∧ (d.dramUe u cls).cams = d.cams := by
  rw [dramUe_eq]
  generalize (d.dramPlace (32 * u)).1 = ch
  exact ⟨logEntry_now .., logEntry_cams ..⟩

theorem memWriteIn_now_cams (d : Dev) (a : Nat) (bs : List Byte) (cls : TrafficClass) :
    (d.memWriteIn a bs cls).now = d.now ∧ (d.memWriteIn a bs cls).cams = d.cams := by
  have told : ∀ (l : List Nat) (e : Dev), (l.foldl (fun d u => d.dramUe u cls) e).now = e.now ∧
      (l.foldl (fun d u => d.dramUe u cls) e).cams = e.cams := by
    intro l
    induction l with
    | nil => exact fun _ => ⟨rfl, rfl⟩
    | cons u r ih => exact fun e => ⟨(ih _).1.trans (dramUe_now_cams e u cls).1, (ih _).2.trans (dramUe_now_cams e u cls).2⟩
  unfold memWriteIn
  dsimp only
  split
  · exact ⟨rfl, rfl⟩
  · exact told ..

theorem memWrite_now_cams (d : Dev) (a : Nat) (bs : List Byte) (cls : TrafficClass) :
    (d.memWrite a bs cls).now = d.now ∧ (d.memWrite a bs cls).cams = d.cams := by
  unfold memWrite
  dsimp only
  split
  · exact memWriteIn_now_cams ..
  · generalize (Nat.max a d.dramC) % 65536 + 65536 = detail
    split
    · exact ⟨log_now .., log_cams ..⟩
    · exact ⟨(memWriteIn_now_cams ..).1.trans (log_now ..), (memWriteIn_now_cams ..).2.trans (log_cams ..)⟩

theorem writeRef_now_cams (m : List Host.Cell) (d : Dev) (f : RawFrame) (y : Nat) :
    (d.writeRef m f y).now = d.now ∧ (d.writeRef m f y).cams = d.cams := by
  unfold writeRef
  dsimp only
  split
  · exact memWrite_now_cams ..
  · exact ⟨rfl, rfl⟩

/-- The rows that leave port n's pipeline change neither the time nor its place in its frame. -/
theorem emitRow_place (m : List Host.Cell) (d : Dev) (n : Fin 8) (y : Nat) :
    (emitRow m d n y).now = d.now ∧ ((emitRow m d n y).cam n).place = (d.cam n).place := by
  have put : ∀ {e : Dev} (rows : List (List Rgb)), e.now = d.now ∧ e.cams = d.cams →
      (e.putCam n { e.cam n with outRows := rows }).now = d.now ∧
        ((e.putCam n { e.cam n with outRows := rows }).cam n).place = (d.cam n).place := by
    intro e rows ⟨now, cams⟩
    rw [cam_putCam _ _ n.isLt, ← cam_congr cams n]
    exact ⟨now, rfl⟩
  have counted : ∀ {p : Bool} {e : Dev} {f : Fld} {k : Nat}, (if p then e.addCnt f k else e).now = e.now ∧
      (if p then e.addCnt f k else e).cams = e.cams := by
    intro p e f k
    split <;> exact ⟨rfl, rfl⟩
  unfold emitRow
  dsimp only
  split
  · obtain ⟨now, cams⟩ := writeRef_now_cams ..
    obtain ⟨now', cams'⟩ := counted ..
    exact put _ ⟨now.trans now', cams.trans cams'⟩
  · exact put _ counted

theorem emitRows_place (m : List Host.Cell) (d : Dev) (n : Fin 8) (ended : Bool) :
    (emitRows m d n ended).now = d.now ∧ ((emitRows m d n ended).cam n).place = (d.cam n).place := by
  have all : ∀ (k : Nat) (l : List Nat) (e : Dev), (l.foldl (fun d i => emitRow m d n (k + i)) e).now = e.now ∧
      ((l.foldl (fun d i => emitRow m d n (k + i)) e).cam n).place = (e.cam n).place := by
    intro k l
    induction l with
    | nil => exact fun _ => ⟨rfl, rfl⟩
    | cons i r ih =>
      intro e
      obtain ⟨now, place⟩ := emitRow_place m e n (k + i)
      exact ⟨(ih _).1.trans now, (ih _).2.trans place⟩
  unfold emitRows
  dsimp only
  split
  · exact all ..
  · exact ⟨rfl, rfl⟩

end Dev
end Sys2Proof.Machine
end

section
/-!
PROOFS. The frames and lines of a camera port: what a frame's start, its end and its lines do to the port.
-/

namespace Sys2Proof.Machine

namespace Dev

variable {ks : List Nat} {n : Fin 8}

/-! A frame starts (R100, R107, R112, R125). -/

theorem keeps_checkLayers (d : Dev) : PortKeeps ks n d d.checkLayers :=
  .foldl _ (fun _ _ _ => .flag (.wrPast (r := 0x80) rfl (by decide)) .refl) .refl

/-- The committed values come into use; of what is kept, the live settings alone change. -/
theorem keeps_applyCam (d : Dev) (q : Nat) : PortKeeps ks n (d.applyComm (camKey q)) (d.applyCam q) := by
  unfold applyCam
  dsimp only
  have held : ∀ {t : TblPart}, PortKeeps ks n (d.applyComm (camKey q)) { d.applyComm (camKey q) with tbl := t } :=
    PortKeeps.refl.parts rfl rfl rfl rfl rfl rfl
  have bound : ∀ {p : Bool} {e : Dev} {v : Bool}, PortKeeps ks n e (if p then e.putCam q { e.cam q with noRate := v } else e) :=
    .ite (.putCam (fun _ => rfl) .refl) .refl
  have named : ∀ {p : Bool} {e : Dev} {v : Nat}, PortKeeps ks n e (if p then e.putCam q { e.cam q with frameSeq := v } else e) :=
    .ite (.putCam (fun _ => rfl) .refl) .refl
  have restarts : ∀ {p : Bool} {e : Dev} {v : Bool} {w : Nat},
      PortKeeps ks n e (if p then (e.putCam q { e.cam q with restart := v }).wr (R.RAWP_STATUS_LAST_GOOD q) w else e) :=
    .ite (.wrPast (r := 0x10000) rfl (by decide) (.putCam (fun _ => rfl) .refl)) .refl
  exact (((held.trans bound).trans named).trans (keeps_checkLayers _)).trans restarts

theorem keeps_measStart (d : Dev) (q : Nat) : PortKeeps frameRegs n d (d.measStart q) := by
  unfold measStart
  dsimp only
  split <;> split
  · exact .wrPort rfl rfl (fun _ => by decide) (.wrPort rfl rfl (fun _ => by decide) .refl)
  · exact .wrPort rfl rfl (fun _ => by decide) .refl
  · exact .wrPort rfl rfl (fun _ => by decide) .refl
  · exact .refl

theorem keeps_startHistory (d : Dev) (q : Nat) : PortKeeps ks n d (d.startHistory q) := by
  unfold startHistory
  dsimp only
  have paired : ∀ {p : Bool}, PortKeeps ks n d
      (if p then (d.cnt (R.RAWP_HIST_RESTARTS q)).wr (R.RAWP_HIST_ARM_ARM q) 0 else d) :=
    .ite (.wrPast (r := 0x10000) rfl (by decide) (.wrPast (r := 0x10000) rfl (by decide) .refl)) .refl
  exact .wrPast (r := 0x10000) rfl (by decide) (.putCam (fun _ => rfl) paired)

/-- The registers of a frame's start: its measurements and time-stamps, and FRAMES. -/
def frameStamped (d : Dev) (n : Nat) : Dev := ((d.measStart n).stampStart n).cnt (R.CAM_FRAMES n)

/-- The port takes its frame, with no row yet. -/
def frameTaken (d : Dev) (n : Nat) (en : Bool) : Dev :=
  let d := if en then d else d.cnt (R.CAM_DROP_UNBOUND n)
  let c := d.cam n
  let d := d.putCam n { c with
    vs := false, lastStart := some d.now, marks := 0, noRate := false, check := none, feeds := en && d.pipesRun,
    rows := [], replFrom := none, outRows := [], taken := 0, frameSeq := (c.frameSeq + 1) % 2 ^ 32,
    startWln := d.wtm.wln, slotDone := false, clkNext := false, slotStart := (d.stc : Int), filled := false,
    inSubst := d.rdb (R.CAM_STATUS_LOST n), substDue := d.now + nanos (d.lv (R.CAM_EXP_PERIOD n)) }
  { d with clr := { d.clr with satCams := setBit d.clr.satCams n false } }

/-- STATUS and CLK_KHZ show the frame. -/
def frameShown (d : Dev) (n khz : Nat) : Dev := ((d.showKhz n khz).wr (R.CAM_STATUS_IN_FRAME n) 1).wr (R.CAM_STATUS_REPLACING n) 0

/-- The history of the frame's pipeline, and the marks that it starts with. -/
def frameJudged (d : Dev) (n : Nat) (en clk rate : Bool) : Dev :=
  let d := d.wrb (R.RAWP_STATUS_REF_SMALL n) (d.refSmall n)
  let d := if en && d.pipesRun then d.startHistory n else d
  let d := if clk then d.mark n 4 else d
  let d := if rate then d.mark n 5 else d
  d.gangCheck n

theorem actFrameStart_eq {d : Dev} {n : Nat} (high : (d.cam n).vs = true) (tick : CamTick) :
    ∃ en clk rate, actFrameStart n tick d =
      (((((d.pass tick.dt).applyCam n).frameStamped n).frameTaken n en).frameShown n tick.khz).frameJudged n en clk rate := by
  have up : (!((d.pass tick.dt).cam n).vs) = false := by rw [show ((d.pass tick.dt).cam n).vs = true from high]; rfl
  unfold actFrameStart
  dsimp only
  rw [up]
  exact ⟨_, _, _, rfl⟩

theorem keeps_frameJudged (d : Dev) (q : Nat) (en clk rate : Bool) : PortKeeps frameRegs n d (d.frameJudged q en clk rate) := by
  have marked : ∀ {p : Bool} {e : Dev} {k : Nat}, PortKeeps frameRegs n e (if p then e.mark q k else e) := .ite (keeps_mark ..) .refl
  have small : PortKeeps frameRegs n d (d.wrb (R.RAWP_STATUS_REF_SMALL q) (d.refSmall q)) :=
    .wrPast (r := 0x10000) rfl (by decide) .refl
  have restarted : ∀ {p : Bool} {e : Dev}, PortKeeps frameRegs n e (if p then e.startHistory q else e) := .ite (keeps_startHistory ..) .refl
  exact (((small.trans restarted).trans marked).trans marked).trans (keeps_gangCheck _ q)

theorem keeps_lockStart (d : Dev) (q : Nat) : PortKeeps ks n d (d.lockStart q) :=
  .foldl _ (fun x i _ => .ite (.ite (.flag (.wrPast (r := 0x80) rfl (by decide)) (PortKeeps.refl.parts rfl rfl rfl rfl rfl rfl))
    (PortKeeps.refl.parts rfl rfl rfl rfl rfl rfl)) .refl) .refl

theorem keeps_dropRun (d : Dev) (u : CalUnit) : PortKeeps ks n d (d.dropRun u) :=
  .ite (PortKeeps.refl.parts rfl rfl rfl rfl rfl rfl) (PortKeeps.refl.parts rfl rfl rfl rfl rfl rfl)

theorem keeps_queueCal (d : Dev) (u : CalUnit) : PortKeeps ks n d (d.queueCal u) := by
  have queued : PortKeeps ks n d { d with calib := { d.calib with queue := d.calib.queue ++ [u] } } :=
    PortKeeps.refl.parts rfl rfl rfl rfl rfl rfl
  unfold queueCal
  dsimp only
  split
  · exact .refl
  · split
    · exact queued.wr fun w => by have := n.isLt; simp only [R.LNE_CAL_STATUS_RESULT] at w; omega
    · exact queued.wr fun w => by have := n.isLt; simp only [R.DRM_CALR_RESULT] at w; omega
    · exact queued

theorem keeps_camDefer (d : Dev) (q : Nat) : PortKeeps frameRegs n d (d.camDefer q) := by
  have deferred : PortKeeps frameRegs n d
      ((d.putCam q { d.cam q with defers := (d.cam q).defers + 1 }).wr (R.CAM_CAL_STATUS_RESULT q) 3) :=
    .wrPort rfl rfl (fun _ => by decide) (.putCam (fun _ => rfl) .refl)
  exact .ite (.flag (.wrPort rfl rfl fun _ => by decide) deferred) deferred

theorem keeps_camAbort (d : Dev) (q : Nat) : PortKeeps frameRegs n d (d.camAbort q) :=
  .ite (((keeps_dropRun ..).trans (keeps_queueCal ..)).trans (keeps_camDefer ..)) .refl

theorem keeps_camBlank (d : Dev) (q : Nat) : PortKeeps frameRegs n d (d.camBlank q) := .ite (keeps_camDefer ..) .refl

/-! What a frame's start shows. -/

/-- A register of port n that is kept reads as before. -/
theorem PortKeeps.rdPort {d e : Dev} {f : Fld} {a b : Nat} (h : PortKeeps ks n d e) (key : f.key = 8 * (a + 0x10000 * n.val) + b)
    (window : (8 * a + b) / 524288 = 0x10) (kept : (8 * a + b) % 524288 ∈ ks) : e.rd f = d.rd f := by
  have offset : f.key % 524288 = (8 * a + b) % 524288 := by omega
  exact h.rd f (by omega) (offset ▸ kept)

/-- The offsets of a few of a port's registers. -/
def portRegs (fs : List (Nat → Fld)) : List Nat := fs.map fun f => (f 0).key % 524288

/-- What e shows of a frame of port n that starts on d. -/
structure FrameBegun (n : Fin 8) (tick : CamTick) (d e : Dev) : Prop where
  vs : (e.cam n).vs = false
  lastStart : (e.cam n).lastStart = some (d.now + tick.dt)
  inFrame : e.rd (R.CAM_STATUS_IN_FRAME n) = 1
  khz : d.rdb (R.CAM_STATUS_CLK_RUN n) = true → e.rd (R.CAM_CLK_KHZ n) = tick.khz % 2 ^ (R.CAM_CLK_KHZ n).width
  frames : d.Counted e (R.CAM_FRAMES n)
  seq : e.rd (R.CAM_FS_SEQ n) = (d.rd (R.CAM_FS_SEQ n) + 1) % 2 ^ (R.CAM_FS_SEQ n).width
  wln : e.rd (R.CAM_FS_WLN_LO n) = d.wtm.wln % 2 ^ 32

theorem stampStart_seq (d : Dev) (n : Fin 8) :
    (d.stampStart n).rd (R.CAM_FS_SEQ n) = (d.rd (R.CAM_FS_SEQ n) + 1) % 2 ^ (R.CAM_FS_SEQ n).width := by
  have rest : PortKeeps (portRegs [R.CAM_FS_SEQ]) n (d.cntWrap (R.CAM_FS_SEQ n)) (d.stampStart n) :=
    .wrPort rfl rfl (fun _ => by decide) (.wrPort rfl rfl (fun _ => by decide) (.wrPort rfl rfl (fun _ => by decide)
      (.wrPort rfl rfl (fun _ => by decide) (.wrPort rfl rfl (fun _ => by decide) .refl))))
  exact (rest.rdPort rfl rfl (by decide)).trans (rd_cntWrap_self ..)

theorem stampStart_wln (d : Dev) (n : Fin 8) : (d.stampStart n).rd (R.CAM_FS_WLN_LO n) = d.wtm.wln % 2 ^ 32 := by
  have rest : PortKeeps (portRegs [R.CAM_FS_WLN_LO]) n ((d.cntWrap (R.CAM_FS_SEQ n)).wr (R.CAM_FS_WLN_LO n) d.wtm.wln) (d.stampStart n) :=
    .wrPort rfl rfl (fun _ => by decide) (.wrPort rfl rfl (fun _ => by decide) (.wrPort rfl rfl (fun _ => by decide)
      (.wrPort rfl rfl (fun _ => by decide) .refl)))
  exact (rest.rdPort rfl rfl (by decide)).trans (rd_wr_self ..)

theorem keeps_stampStart (d : Dev) (q : Nat) : PortKeeps (portRegs [R.CAM_STATUS_CLK_RUN, R.CAM_FRAMES]) n d (d.stampStart q) :=
  .wrPort rfl rfl (fun _ => by decide) (.wrPort rfl rfl (fun _ => by decide) (.wrPort rfl rfl (fun _ => by decide)
    (.wrPort rfl rfl (fun _ => by decide) (.wrPort rfl rfl (fun _ => by decide) (.wrPort rfl rfl (fun _ => by decide) .refl)))))

/-- The registers that a frame's start has stamped stay as the frame is taken and shown. -/
def startRegs : List Nat := portRegs [R.CAM_STATUS_CLK_RUN, R.CAM_FS_SEQ, R.CAM_FS_WLN_LO, R.CAM_FRAMES]

theorem keeps_frameBound (d : Dev) (q : Nat) (en : Bool) : PortKeeps startRegs n d (if en then d else d.cnt (R.CAM_DROP_UNBOUND q)) :=
  .ite .refl (.wrPort rfl rfl (fun _ => by decide) .refl)

theorem frameTaken_takes (d : Dev) (n : Fin 8) (en : Bool) : (d.frameTaken n en).now = d.now ∧
    ((d.frameTaken n en).cam n).vs = false ∧ ((d.frameTaken n en).cam n).lastStart = some d.now := by
  have bound := (keeps_frameBound (n := n) d n en).now
  unfold frameTaken
  generalize (if en then d else d.cnt (R.CAM_DROP_UNBOUND n)) = e at bound
  refine ⟨bound, ?_, ?_⟩
  · exact congrArg CamPart.vs (cam_putCam e _ n.isLt)
  · exact (congrArg CamPart.lastStart (cam_putCam e _ n.isLt)).trans (congrArg some bound)

theorem frameTaken_rd (d : Dev) (en : Bool) {f : Fld} {a b : Nat} (key : f.key = 8 * (a + 0x10000 * n.val) + b)
    (window : (8 * a + b) / 524288 = 0x10) (kept : (8 * a + b) % 524288 ∈ startRegs) : (d.frameTaken n en).rd f = d.rd f :=
  (keeps_frameBound d n en).rdPort key window kept

theorem showKhz_khz {d : Dev} {n : Nat} (runs : d.rdb (R.CAM_STATUS_CLK_RUN n) = true) (khz : Nat) :
    (d.showKhz n khz).rd (R.CAM_CLK_KHZ n) = khz % 2 ^ (R.CAM_CLK_KHZ n).width := by
  unfold showKhz
  rw [if_pos runs, rd_wr_self]

theorem keeps_showKhz (d : Dev) (q khz : Nat) : PortKeeps startRegs n d (d.showKhz q khz) :=
  .ite (.wrPort rfl rfl (fun _ => by decide) .refl) .refl

theorem keeps_frameShown (d : Dev) (q khz : Nat) : PortKeeps startRegs n d (d.frameShown q khz) :=
  .wrPort rfl rfl (fun _ => by decide) (.wrPort rfl rfl (fun _ => by decide) (keeps_showKhz d q khz))

theorem frameShown_inFrame (d : Dev) (n : Fin 8) (khz : Nat) : (d.frameShown n khz).rd (R.CAM_STATUS_IN_FRAME n) = 1 := by
  have rest : PortKeeps (portRegs [R.CAM_STATUS_IN_FRAME]) n ((d.showKhz n khz).wr (R.CAM_STATUS_IN_FRAME n) 1) (d.frameShown n khz) :=
    .wrPort rfl rfl (fun _ => by decide) .refl
  exact (rest.rdPort rfl rfl (by decide)).trans (rd_wr_self ..)

theorem frameShown_khz {d : Dev} {n : Fin 8} (runs : d.rdb (R.CAM_STATUS_CLK_RUN n) = true) (khz : Nat) :
    (d.frameShown n khz).rd (R.CAM_CLK_KHZ n) = khz % 2 ^ (R.CAM_CLK_KHZ n).width := by
  have rest : PortKeeps (portRegs [R.CAM_CLK_KHZ]) n (d.showKhz n khz) (d.frameShown n khz) :=
    .wrPort rfl rfl (fun _ => by decide) (.wrPort rfl rfl (fun _ => by decide) .refl)
  rw [rest.rdPort rfl rfl (by decide)]
  exact showKhz_khz runs khz

theorem actCamStart_eq {d : Dev} {n : Nat} (high : (d.cam n).vs = true) (tick : CamTick) :
    actCamStart n tick d = ((actFrameStart n tick d).lockStart n).camAbort n :=
  if_neg (by rw [high]; decide)

/-- What the time-stamps and FRAMES show of a frame's start, the committed values having come into use. -/
theorem frameStamped_stamps (d : Dev) (n : Fin 8) (dt : Nat) :
    let e := ((d.pass dt).applyCam n).frameStamped n
    e.now = d.now + dt ∧ e.rd (R.CAM_STATUS_CLK_RUN n) = d.rd (R.CAM_STATUS_CLK_RUN n) ∧ d.Counted e (R.CAM_FRAMES n) ∧
      e.rd (R.CAM_FS_SEQ n) = (d.rd (R.CAM_FS_SEQ n) + 1) % 2 ^ (R.CAM_FS_SEQ n).width ∧
      e.rd (R.CAM_FS_WLN_LO n) = d.wtm.wln % 2 ^ 32 := by
  have measured : PortKeeps frameRegs n ((d.pass dt).applyComm (camKey n)) (((d.pass dt).applyCam n).measStart n) :=
    (keeps_applyCam ..).trans (keeps_measStart ..)
  have stamped := (measured.mono (ks' := portRegs [R.CAM_STATUS_CLK_RUN, R.CAM_FRAMES]) (by decide)).trans (keeps_stampStart _ n)
  have counted : PortKeeps (portRegs [R.CAM_STATUS_CLK_RUN, R.CAM_FS_SEQ, R.CAM_FS_WLN_LO]) n
      ((((d.pass dt).applyCam n).measStart n).stampStart n) (((d.pass dt).applyCam n).frameStamped n) :=
    .wrPort rfl rfl (fun _ => by decide) .refl
  refine ⟨counted.now.trans stamped.now, ?_, ?_, ?_, ?_⟩
  · exact (counted.rdPort rfl rfl (by decide)).trans (stamped.rdPort rfl rfl (by decide))
  · have before : ((((d.pass dt).applyCam n).measStart n).stampStart n).rd (R.CAM_FRAMES n) = d.rd (R.CAM_FRAMES n) :=
      stamped.rdPort rfl rfl (by decide)
    rw [Counted, ← before]
    exact rd_cnt_self ..
  · have before : (((d.pass dt).applyCam n).measStart n).rd (R.CAM_FS_SEQ n) = d.rd (R.CAM_FS_SEQ n) :=
      measured.rdPort rfl rfl (by decide)
    exact (counted.rdPort rfl rfl (by decide)).trans (before ▸ stampStart_seq ..)
  · have before : (((d.pass dt).applyCam n).measStart n).wtm.wln = d.wtm.wln := congrArg WtmPart.wln measured.wtm
    exact (counted.rdPort rfl rfl (by decide)).trans (before ▸ stampStart_wln ..)

theorem camStart_begins {d : Dev} {n : Fin 8} (high : (d.cam n).vs = true) (tick : CamTick) : FrameBegun n tick d (actCamStart n tick d) := by
  obtain ⟨en, clk, rate, start⟩ := actFrameStart_eq high tick
  obtain ⟨now, runs, frames, seq, wln⟩ := frameStamped_stamps d n tick.dt
  rw [actCamStart_eq high, start]
  generalize ((d.pass tick.dt).applyCam n).frameStamped n = e at now runs frames seq wln
  obtain ⟨-, low, begun⟩ := frameTaken_takes e n en
  have shown := keeps_frameShown (n := n) (e.frameTaken n en) n tick.khz
  have rest := ((keeps_frameJudged (n := n) _ n en clk rate).trans (keeps_lockStart _ n)).trans
    (keeps_camAbort (((((e.frameTaken n en).frameShown n tick.khz).frameJudged n en clk rate).lockStart n)) n)
  generalize (((((e.frameTaken n en).frameShown n tick.khz).frameJudged n en clk rate).lockStart n).camAbort n) = x at rest
  refine ⟨rest.vs.trans (shown.vs.trans low), ?_, (rest.rdPort rfl rfl (by decide)).trans (frameShown_inFrame ..), fun on => ?_, ?_, ?_, ?_⟩
  · rw [rest.lastStart, shown.lastStart, begun, now]
  · have on' : (e.frameTaken n en).rdb (R.CAM_STATUS_CLK_RUN n) = true := by
      rw [Dev.rdb, frameTaken_rd e en rfl rfl (by decide), runs]
      exact on
    rw [rest.rdPort rfl rfl (by decide)]
    exact frameShown_khz on' _
  · rw [Counted, rest.rdPort rfl rfl (by decide), shown.rdPort rfl rfl (by decide), frameTaken_rd e en rfl rfl (by decide)]
    exact frames
  · rw [rest.rdPort rfl rfl (by decide), shown.rdPort rfl rfl (by decide), frameTaken_rd e en rfl rfl (by decide), seq]
  · rw [rest.rdPort rfl rfl (by decide), shown.rdPort rfl rfl (by decide), frameTaken_rd e en rfl rfl (by decide), wln]

/-! A frame ends (R100, R111). -/

/-- The last line's check word is missed, and a frame of too few rows is marked and completed, unless it is replaced. -/
def frameCompleted (d : Dev) (n : Nat) : Dev :=
  let d := d.missedCheck n
  let h := d.lv (R.CAM_GEOM_HEIGHT n)
  let d := if (d.cam n).rows.length < h then d.mark n 1 else d
  let c := d.cam n
  if c.replFrom.isNone then
    let e := (d.putCam n { c with rows := repeatLast h c.rows }).defOrder n
    (List.range (h - c.rows.length)).foldl (fun d i => d.obClamp n (c.rows.length + i)) e
  else d

/-- STATUS and the counters show that the frame is over, and its statistics wait. -/
def frameClosed (m : List Host.Cell) (d : Dev) (n : Nat) : Dev :=
  let c := d.cam n
  let d := (d.wr (R.CAM_STATUS_LAST_MARKS n) c.marks).wr (R.CAM_STATUS_IN_FRAME n) 0
  let d := d.wr (R.CAM_STATUS_REPLACING n) 0
  let d := if d.rdb (R.RAWP_STATUS_DEF_ORDER n) then d.flag n (R.RAWP_STATUS_DEF_ORDER n) 2 false false else d
  let d := if c.feeds && d.pipesRun then d.cnt (R.RAWP_FRAMES_OUT n) else d
  if c.feeds && d.pipesRun && d.lvb (R.RAWP_CTRL_STATS_EN n) then
    d.putCam n { d.cam n with
      stat := some (statBytes m d ⟨n, c.rows, d.liveRows n⟩ c.frameSeq c.marks c.startWln (decide (d.liveRows n < d.cropH n))) }
  else d

theorem endFrame_eq (m : List Host.Cell) (d : Dev) (n : Nat) :
    d.endFrame m n = ((frameClosed m (emitRows m (d.frameCompleted n) n true) n).goodFrame n).endSubst n := rfl

theorem frameCompleted_now (d : Dev) (n : Fin 8) : (d.frameCompleted n).now = d.now := by
  have line := (missedCheck_parts d n).1
  unfold frameCompleted
  generalize d.missedCheck n = e at line
  dsimp only
  have short : (if (e.cam n).rows.length < e.lv (R.CAM_GEOM_HEIGHT n) then e.mark n 1 else e).now = d.now :=
    (PortKeeps.ite (ks := frameRegs) (n := n) (keeps_mark e n 1) .refl).now.trans line
  generalize (if (e.cam n).rows.length < e.lv (R.CAM_GEOM_HEIGHT n) then e.mark n 1 else e) = x at short
  split
  · have clamped : PortKeeps [] n
        ((x.putCam n { x.cam n with rows := repeatLast (e.lv (R.CAM_GEOM_HEIGHT n)) (x.cam n).rows }).defOrder n) _ :=
      .foldl (List.range (e.lv (R.CAM_GEOM_HEIGHT n) - (x.cam n).rows.length))
        (fun y i _ => keeps_obClamp y n ((x.cam n).rows.length + i)) .refl
    exact clamped.now.trans ((keeps_defOrder (ks := []) (n := n) _ n).now.trans short)
  · exact short

theorem frameClosed_inFrame (m : List Host.Cell) (d : Dev) (n : Fin 8) :
    PortKeeps (portRegs [R.CAM_STATUS_IN_FRAME]) n ((d.wr (R.CAM_STATUS_LAST_MARKS n) (d.cam n).marks).wr (R.CAM_STATUS_IN_FRAME n) 0)
      (d.frameClosed m n) := by
  unfold frameClosed
  dsimp only
  have ordered : ∀ {p : Bool} {e : Dev}, PortKeeps (portRegs [R.CAM_STATUS_IN_FRAME]) n e
      (if p then e.flag n (R.RAWP_STATUS_DEF_ORDER n) 2 false false else e) := .ite (.flag (.wrPast (r := 0x10000) rfl (by decide)) .refl) .refl
  have counted : ∀ {p : Bool} {e : Dev}, PortKeeps (portRegs [R.CAM_STATUS_IN_FRAME]) n e (if p then e.cnt (R.RAWP_FRAMES_OUT n) else e) :=
    .ite (.wrPast (r := 0x10000) rfl (by decide) .refl) .refl
  have waits : ∀ {p : Bool} {e : Dev} {x : Option (List Byte)}, PortKeeps (portRegs [R.CAM_STATUS_IN_FRAME]) n e
      (if p then e.putCam n { e.cam n with stat := x } else e) := .ite (.putCam (fun _ => rfl) .refl) .refl
  exact .trans (.trans (.trans (.wrPort rfl rfl (fun _ => by decide) .refl) ordered) counted) waits

theorem keeps_goodFrame (d : Dev) (q : Nat) : PortKeeps ks n d (d.goodFrame q) :=
  .ite (.foldl _ (fun _ _ _ => .ite (.wrPast (r := 0x10000) rfl (by decide) (.putCam (fun _ => rfl) .refl)) .refl) .refl) .refl

theorem keeps_endSubst (d : Dev) (q : Nat) : PortKeeps frameRegs n d (d.endSubst q) :=
  .ite (.foldl _ (fun _ _ _ => .putCam (fun _ => rfl) (.flag (.wrPort rfl rfl fun _ => by decide) .refl)) .refl) .refl

/-- A frame ends in no time, and its port is then in no frame. -/
theorem endFrame_ends (m : List Host.Cell) (d : Dev) (n : Fin 8) :
    (d.endFrame m n).now = d.now ∧ (d.endFrame m n).rd (R.CAM_STATUS_IN_FRAME n) = 0 := by
  rw [endFrame_eq]
  have rows := (emitRows_place m (d.frameCompleted n) n true).1.trans (frameCompleted_now d n)
  generalize emitRows m (d.frameCompleted n) n true = e at rows
  have closed := frameClosed_inFrame m e n
  have ended := (keeps_goodFrame (n := n) (e.frameClosed m n) n).trans (keeps_endSubst ((e.frameClosed m n).goodFrame n) n)
  refine ⟨ended.now.trans (closed.now.trans rows), ?_⟩
  rw [ended.rdPort rfl rfl (by decide), closed.rdPort rfl rfl (by decide), rd_wr_self]
  rfl

/-- The frame in progress, if there is one, ends. -/
def frameOver (m : List Host.Cell) (d : Dev) (n : Nat) : Dev := if d.rdb (R.CAM_STATUS_IN_FRAME n) then d.endFrame m n else d

theorem frameOver_ends (m : List Host.Cell) (d : Dev) (n : Fin 8) :
    (d.frameOver m n).now = d.now ∧ (d.frameOver m n).rd (R.CAM_STATUS_IN_FRAME n) = 0 := by
  unfold frameOver
  split
  · exact endFrame_ends m d n
  · next none_ => exact ⟨rfl, by simpa [Dev.rdb] using none_⟩

/-- VS has risen: the edge's time is kept, and no frame is in progress. -/
theorem camEnd_ends {d : Dev} {n : Fin 8} (low : (d.cam n).vs = false) (dt : Nat) (m : List Host.Cell) :
    ((actCamEnd n dt m d).cam n).vs = true ∧ ((actCamEnd n dt m d).cam n).lastRise = some (d.now + dt) ∧
      (actCamEnd n dt m d).rd (R.CAM_STATUS_IN_FRAME n) = 0 := by
  have rises : actCamEnd n dt m d = (actFrameEnd n dt m d).camBlank n := if_neg (by rw [low]; decide)
  have ended : actFrameEnd n dt m d = ((d.pass dt).frameOver m n).putCam n
      { ((d.pass dt).frameOver m n).cam n with vs := true, lastRise := some ((d.pass dt).frameOver m n).now } :=
    if_neg (by rw [show ((d.pass dt).cam n).vs = false from low]; decide)
  obtain ⟨now, inFrame⟩ := frameOver_ends m (d.pass dt) n
  rw [rises, ended]
  generalize (d.pass dt).frameOver m n = x at now inFrame
  have blank := keeps_camBlank (n := n) (x.putCam n { x.cam n with vs := true, lastRise := some x.now }) n
  refine ⟨blank.vs.trans ?_, blank.lastRise.trans ?_, (blank.rdPort rfl rfl (by decide)).trans inFrame⟩
  · exact congrArg CamPart.vs (cam_putCam x _ n.isLt)
  · exact (congrArg CamPart.lastRise (cam_putCam x _ n.isLt)).trans (congrArg some now)

/-! A line (R102, R106). -/

theorem length_unpack (b k s : Nat) : (unpack b k s).length = k := by simp [unpack]

theorem length_completeLine (w : Nat) (px : List Nat) : (completeLine w px).length = w := by simp [completeLine]

/-- The pixels of a line's transfers, completed where they are too few (R106). -/
def linePixels (w b : Nat) (ts : List Word) : List Nat :=
  if decide (32 * ts.length < w * b) then completeLine w (unpack b (32 * ts.length / b) (streamNum ts)) else unpack b w (streamNum ts)

theorem length_linePixels (w b : Nat) (ts : List Word) : (linePixels w b ts).length = w := by
  unfold linePixels
  split
  · exact length_completeLine ..
  · exact length_unpack ..

/-- The transfers that R102 gives a line hold all its pixels. -/
theorem linePixels_of_whole {w b : Nat} {ts : List Word} (whole : ts.length = lineTransfers w b) :
    linePixels w b ts = unpack b w (streamNum ts) := by
  refine if_neg ?_
  rw [decide_eq_true_eq, whole, lineTransfers]
  generalize w * b = k
  omega

/-- The line's pixels join the rows, and its check word is awaited. -/
def lineJoined (d : Dev) (n : Nat) (ts got : List Word) : Dev :=
  d.putCam n { d.cam n with
    rows := (d.cam n).rows ++ [linePixels (d.lv (R.CAM_GEOM_WIDTH n)) (d.camDepth n) got]
    check := some (crc32c (ts.flatMap fun t => leBytes 4 t.toNat)) }

/-- What the line's transfers mark, and what the pipeline makes of the row. -/
def lineJudged (d : Dev) (n : Nat) (ovf bad : Bool) : Dev :=
  let d := if ovf then d.mark n 6 else if bad then (d.cnt (R.CAM_LINE_LEN n)).mark n 3 else d
  ((d.defOrder n).obClamp n ((d.cam n).rows.length - 1)).gangSubst n

theorem keeps_lineJudged (d : Dev) (q : Nat) (ovf bad : Bool) : PortKeeps frameRegs n d (d.lineJudged q ovf bad) := by
  have counted : PortKeeps frameRegs n d (d.cnt (R.CAM_LINE_LEN q)) := .wrPort rfl rfl (fun _ => by decide) .refl
  have marked : PortKeeps frameRegs n d (if ovf then d.mark q 6 else if bad then (d.cnt (R.CAM_LINE_LEN q)).mark q 3 else d) :=
    .ite (keeps_mark d q 6) (.ite (counted.trans (keeps_mark _ q 3)) .refl)
  unfold lineJudged
  generalize (if ovf then d.mark q 6 else if bad then (d.cnt (R.CAM_LINE_LEN q)).mark q 3 else d) = e at marked
  exact ((marked.trans (keeps_defOrder e q)).trans (keeps_obClamp _ q _)).trans (keeps_gangSubst _ q)

/-- A line has too few transfers or too many (R106). -/
def lineMisfit (d : Dev) (n : Nat) (ts : List Word) : Bool :=
  decide (32 * ts.length < d.lv (R.CAM_GEOM_WIDTH n) * d.camDepth n) ||
    decide (lineTransfers (d.lv (R.CAM_GEOM_WIDTH n)) (d.camDepth n) < ts.length)

/-- The transfers taken of a line. -/
def lineGot (ts : List Word) (ovf : Option Nat) : List Word := match ovf with
  | some k => ts.take k
  | none => ts

/-- The line's check word is awaited no more, and CLK_KHZ shows the clock. -/
def lineBegun (d : Dev) (n : Nat) (tick : CamTick) : Dev := ((d.pass tick.dt).showKhz n tick.khz).missedCheck n

theorem lineBegun_parts (d : Dev) (n : Fin 8) (tick : CamTick) :
    (d.lineBegun n tick).live = d.live ∧ ((d.lineBegun n tick).cam n).rows = (d.cam n).rows := by
  have shown := keeps_showKhz (n := n) (d.pass tick.dt) n tick.khz
  obtain ⟨-, live, rows⟩ := missedCheck_parts ((d.pass tick.dt).showKhz n tick.khz) n
  exact ⟨live.trans shown.live, rows.trans shown.rows⟩

theorem actCamLine_eq {d : Dev} {n : Fin 8} {tick : CamTick} (low : (d.cam n).vs = false) (inFrame : d.rdb (R.CAM_STATUS_IN_FRAME n) = true)
    (room : (d.cam n).rows.length < d.lv (R.CAM_GEOM_HEIGHT n)) (ts : List Word) (ovf : Option Nat) (m : List Host.Cell) :
    actCamLine n tick ts ovf m d = (((d.lineBegun n tick).lineJoined n ts (lineGot ts ovf)).lineJudged n ovf.isSome
      ((d.lineBegun n tick).lineMisfit n (lineGot ts ovf))).emitRows m n false := by
  have shown : PortKeeps (portRegs [R.CAM_STATUS_IN_FRAME]) n (d.pass tick.dt) ((d.pass tick.dt).showKhz n tick.khz) :=
    .ite (.wrPort rfl rfl (fun _ => by decide) .refl) .refl
  have taken : ¬((((d.pass tick.dt).showKhz n tick.khz).cam n).vs || !((d.pass tick.dt).showKhz n tick.khz).rdb (R.CAM_STATUS_IN_FRAME n)) = true := by
    rw [shown.vs, show ((d.pass tick.dt).cam n).vs = false from low, Dev.rdb, shown.rdPort rfl rfl (by decide)]
    simpa [Dev.rdb] using inFrame
  obtain ⟨live, rows⟩ := lineBegun_parts d n tick
  have roomy : ¬(d.lineBegun n tick).lv (R.CAM_GEOM_HEIGHT n) ≤ ((d.lineBegun n tick).cam n).rows.length := by
    rw [lv_congr live, rows]
    exact Nat.not_le.mpr room
  exact (if_neg taken).trans (if_neg roomy)

/-- The line of a frame in progress: its pixels join the rows, and its check word is awaited. -/
theorem camLine_joins {d : Dev} {n : Fin 8} {tick : CamTick} (low : (d.cam n).vs = false) (inFrame : d.rdb (R.CAM_STATUS_IN_FRAME n) = true)
    (room : (d.cam n).rows.length < d.lv (R.CAM_GEOM_HEIGHT n)) (ts : List Word) (ovf : Option Nat) (m : List Host.Cell) :
    ((actCamLine n tick ts ovf m d).cam n).rows =
        (d.cam n).rows ++ [linePixels (d.lv (R.CAM_GEOM_WIDTH n)) (d.camDepth n) (lineGot ts ovf)] ∧
      ((actCamLine n tick ts ovf m d).cam n).check = some (crc32c (ts.flatMap fun t => leBytes 4 t.toNat)) := by
  obtain ⟨live, rows⟩ := lineBegun_parts d n tick
  rw [actCamLine_eq low inFrame room]
  generalize d.lineBegun n tick = e at live rows
  generalize e.lineMisfit n (lineGot ts ovf) = bad
  have left := (emitRows_place m ((e.lineJoined n ts (lineGot ts ovf)).lineJudged n ovf.isSome bad) n false).2
  have judged := keeps_lineJudged (n := n) (e.lineJoined n ts (lineGot ts ovf)) n ovf.isSome bad
  have joined : (e.lineJoined n ts (lineGot ts ovf)).cam n = _ := cam_putCam e _ n.isLt
  refine ⟨(CamPart.rows_of_place left).trans (judged.rows.trans ?_), (CamPart.check_of_place left).trans (judged.check.trans ?_)⟩
  · rw [joined, rows, lv_congr live, camDepth, lv_congr live]
    rfl
  · rw [joined]

end Dev

/-- Settles O21: what a frame's start (`FrameBegun`), its end (`camEnd_ends`) and a line (`camLine_joins`) do to the port. -/
theorem cameraFramesAndLines : Obligations.CameraFramesAndLines := by
  refine ⟨fun s n dt on => ⟨exec_camFrameStart_undefined n dt on, fun size high => ?_⟩, fun s n dt on low => ?_,
    fun s n dt ts ovf on low inFrame room => ?_⟩
  · have begun := Dev.camStart_begins (d := s.start) high dt
    exact ⟨_, exec_camFrameStart_on n dt on size, begun.vs, begun.lastStart, begun.inFrame, begun.khz, begun.frames, begun.seq, begun.wln, rfl⟩
  · obtain ⟨vs, rise, inFrame⟩ := Dev.camEnd_ends (d := s.start) low dt s.mem
    exact ⟨_, (exec_camFrameEnd n dt s).trans (run_on on _), vs, rise, inFrame, rfl⟩
  · obtain ⟨rows, check⟩ := Dev.camLine_joins (d := s.start) (tick := dt) low inFrame room ts ovf s.mem
    refine ⟨_, _, (exec_camLine n dt ts ovf s).trans (run_on on _), rows, Dev.length_linePixels .., check, fun whole all => ?_, rfl⟩
    subst whole
    exact Dev.linePixels_of_whole all

end Sys2Proof.Machine
end

section
/-!
PROOFS. Marked and missing frames: a line whose check word is wrong or missed, a glitch of the clock, and what stands in for a frame that
does not come.
-/

namespace Sys2Proof.Machine

namespace Dev

variable {ks : List Nat} {n : Fin 8}

/-! A line whose check word is wrong or missed (R106). -/

/-- The line is counted in one of the registers of its port, and marks its frame. -/
def lineMarked (d : Dev) (n : Nat) (f : Fld) : Dev := ((d.checkTaken n).cnt f).mark n 0

theorem checkTaken_check (d : Dev) (n : Fin 8) : ((d.checkTaken n).cam n).check = none := congrArg CamPart.check (cam_putCam d _ n.isLt)

theorem lineMarked_marks (d : Dev) (f : Fld) : bit ((d.lineMarked n f).cam n).marks 0 = true ∧ ((d.lineMarked n f).cam n).check = none ∧
    (d.lineMarked n f).wq = d.wq := by
  have marked := keeps_mark (n := n) ((d.checkTaken n).cnt f) n 0
  exact ⟨bit_marks_mark .., marked.check.trans (checkTaken_check d n), marked.wq⟩

theorem lineMarked_counts (d : Dev) {f : Fld} {a b : Nat} (key : f.key = 8 * (a + 0x10000 * n.val) + b)
    (window : (8 * a + b) / 524288 = 0x10) (kept : (8 * a + b) % 524288 ∈ frameRegs) : d.Counted (d.lineMarked n f) f :=
  ((keeps_mark (n := n) ((d.checkTaken n).cnt f) n 0).rdPort key window kept).trans (rd_cnt_self (d.checkTaken n) f)

/-! What becomes of a line whose check word is awaited. -/

theorem checkWord_agrees {d : Dev} {n : Nat} {w : Word} (check : (d.cam n).check = some w.toNat) :
    actCheckWord n false w d = d.checkTaken n := by
  unfold actCheckWord
  simp only [check, Bool.false_eq_true, if_false, bne_self_eq_false, Bool.and_false]
  rfl

theorem checkWord_differs {d : Dev} {n crc : Nat} {w : Word} (check : (d.cam n).check = some crc) (differs : crc ≠ w.toNat)
    (on : d.lvb (R.CAM_CTRL_CHECK_EN n) = true) : actCheckWord n false w d = d.lineMarked n (R.CAM_CHECK_ERR n) := by
  have bad : ((d.checkTaken n).lvb (R.CAM_CTRL_CHECK_EN n) && crc != w.toNat) = true := by
    rw [show (d.checkTaken n).lvb (R.CAM_CTRL_CHECK_EN n) = true from on, Bool.true_and, bne_iff_ne]
    exact differs
  unfold actCheckWord
  simp only [check, Bool.false_eq_true, if_false]
  exact if_pos bad

theorem checkWord_missed {d : Dev} {n crc : Nat} {w : Word} (check : (d.cam n).check = some crc)
    (on : d.lvb (R.CAM_CTRL_CHECK_EN n) = true) : actCheckWord n true w d = d.lineMarked n (R.CAM_CHECK_MISS n) :=
  missedCheck_of_check (by rw [check]; rfl) on

/-! The members of a gang (R109, R110). -/

theorem gangSize_pos (d : Dev) (q : Nat) : 0 < d.gangSize q := by
  unfold gangSize
  split <;> decide

theorem mem_gangMembers (d : Dev) (q : Nat) : q ∈ d.gangMembers q := by
  refine List.mem_map.mpr ⟨q % d.gangSize q, List.mem_range.mpr (Nat.mod_lt _ (d.gangSize_pos q)), ?_⟩
  rw [gangLeader, Nat.mul_comm]
  exact Nat.div_add_mod ..

theorem nodup_gangMembers (d : Dev) (q : Nat) : (d.gangMembers q).Nodup :=
  List.nodup_range.map fun _ _ => Nat.add_left_cancel

/-- Of distinct numbers, port n's is taken once: what those before it keep it finds, and what those after it keep stays. -/
theorem PortKeeps.foldl_at {f : Dev → Nat → Dev} {l : List Nat} (distinct : l.Nodup) (mem : n.val ∈ l)
    (others : ∀ x q, q ≠ n.val → PortKeeps ks n x (f x q)) (d : Dev) : ∃ x, PortKeeps ks n d x ∧ PortKeeps ks n (f x n) (l.foldl f d) := by
  obtain ⟨before, after, rfl, fresh⟩ := List.eq_append_cons_of_mem mem
  have rest : n.val ∉ after := (List.nodup_cons.mp (List.nodup_append.mp distinct).2.1).1
  refine ⟨before.foldl f d, .foldl before (fun x q m => others x q fun c => fresh (c ▸ m)) .refl, ?_⟩
  rw [List.foldl_append, List.foldl_cons]
  exact .foldl after (fun x q m => others x q fun c => rest (c ▸ m)) .refl

/-! A slot is missed (R118). -/

theorem keeps_abandon (d : Dev) (q : Nat) : PortKeeps ks n d (d.abandon q) := by
  have left : PortKeeps ks n d (d.putCam q { d.cam q with feeds := false, replFrom := some (d.cam q).rows.length }) :=
    .putCam (fun _ => rfl) .refl
  exact .ite (left.trans (keeps_dropFramed _ q)) .refl

/-- The rows of a fill leave the pipeline. -/
theorem keeps_emitFill (m : List Host.Cell) (d : Dev) (q : Nat) (black : Bool) : PortKeeps ks n d (d.emitFill m q black) := by
  have counted : ∀ {p : Bool} {k : Nat}, PortKeeps ks n d (if p then d.addCnt (R.RAWP_REPL_POISON q) k else d) :=
    .ite (.wrPast (r := 0x10000) rfl (by decide) .refl) .refl
  exact .wrPast (r := 0x10000) rfl (by decide) (.putCam (fun _ => rfl) counted)

theorem emitFill_rows (m : List Host.Cell) (d : Dev) (n : Fin 8) (black : Bool) :
    ((d.emitFill m n black).cam n).outRows.length = d.cropH n := by
  unfold emitFill
  dsimp only
  generalize (if d.hasGood n && !black then d.addCnt (R.RAWP_REPL_POISON n) _ else d) = e
  refine (congrArg (fun c => c.outRows.length) (cam_putCam e _ n.isLt)).trans ?_
  cases black <;> simp

/-- The slot of a member is filled. -/
def slotFilled (m : List Host.Cell) (slot : Time) (d : Dev) (q : Nat) : Dev :=
  let d := (d.abandon q).emitFill m q false
  let d := d.putCam q { d.cam q with slotStart := (slot : Int) + d.stcOff, slotDone := true }
  (d.cnt (R.CAM_MISSED q)).wr (R.CAM_STATUS_REPLACING q) 1

theorem keeps_missSlot_other (m : List Host.Cell) (slot : Time) (d : Dev) {q : Nat} (other : q ≠ n) :
    PortKeeps ks n d (d.missSlot m slot q) := by
  have filled : PortKeeps ks n d (d.slotFilled m slot q) :=
    .wrPort rfl rfl (fun c => absurd c other) (.wrPort rfl rfl (fun c => absurd c other)
      (.putCam (fun c => absurd c other) ((keeps_abandon d q).trans (keeps_emitFill m _ q false))))
  exact .ite (keeps_replaceFrom d fun c => absurd c other) (.ite .refl filled)

/-- A slot that begins a period after the last frame start is not that frame's: it is filled. -/
theorem missSlot_fills {d : Dev} {q : Nat} {at_ : Time} (start : (d.cam q).lastStart = some at_)
    (period : 0 < d.lv (R.CAM_EXP_PERIOD q)) (en : d.lvb (R.CAM_CTRL_EN q) = true) (open_ : (d.cam q).slotDone = false)
    (m : List Host.Cell) : d.missSlot m (at_ + nanos (d.lv (R.CAM_EXP_PERIOD q))) q =
      d.slotFilled m (at_ + nanos (d.lv (R.CAM_EXP_PERIOD q))) q := by
  have long : 0 < nanos (d.lv (R.CAM_EXP_PERIOD q)) := Nat.mul_pos period (by decide)
  have later : ¬at_ + nanos (d.lv (R.CAM_EXP_PERIOD q)) ≤ at_ + nanos (d.lv (R.CAM_EXP_PERIOD q)) / 2 :=
    Nat.not_le.mpr (Nat.add_lt_add_left (Nat.div_lt_self long (by decide)) _)
  unfold missSlot
  simp only [start, later, decide_false, Bool.false_eq_true, if_false, open_, en, Bool.not_true, Bool.or_self]
  rfl

/-- A slot that is filled is shown so, and counted. -/
theorem slotFilled_fills (m : List Host.Cell) (slot : Time) (d : Dev) (n : Fin 8) :
    ((d.slotFilled m slot n).cam n).slotDone = true ∧ (d.slotFilled m slot n).rd (R.CAM_STATUS_REPLACING n) = 1 ∧
      d.Counted (d.slotFilled m slot n) (R.CAM_MISSED n) ∧ (d.slotFilled m slot n).wq = d.wq := by
  have left : PortKeeps (portRegs [R.CAM_MISSED]) n d ((d.abandon n).emitFill m n false) :=
    (keeps_abandon d n).trans (keeps_emitFill m _ n false)
  unfold slotFilled
  generalize (d.abandon n).emitFill m n false = e at left
  refine ⟨congrArg CamPart.slotDone (cam_putCam e _ n.isLt), rd_wr_self .., ?_, left.wq⟩
  have shown : PortKeeps (portRegs [R.CAM_MISSED]) n (e.cnt (R.CAM_MISSED n)) ((e.cnt (R.CAM_MISSED n)).wr (R.CAM_STATUS_REPLACING n) 1) :=
    .wrPort rfl rfl (fun _ => by decide) .refl
  rw [Counted, ← left.rdPort (f := R.CAM_MISSED n) rfl rfl (by decide)]
  exact (shown.rdPort rfl rfl (by decide)).trans (rd_cnt_self ..)

theorem actMissedSlot_eq {d : Dev} {n : Nat} {at_ : Time} (start : (d.cam n).lastStart = some at_) (draught : d.portDraught n = true)
    (runs : d.pipesRun = true) (en : d.lvb (R.CAM_CTRL_EN n) = true) (open_ : (d.cam n).slotDone = false)
    (found : d.rdb (R.CAM_STATUS_LOST n) = false) (m : List Host.Cell) : actMissedSlot n m d =
      (d.gangMembers n).foldl (missSlot m (at_ + nanos (d.lv (R.CAM_EXP_PERIOD n))))
        (d.upTo (at_ + nanos (d.lv (R.CAM_EXP_PERIOD n) + d.lv (R.CAM_RATE_TOL_TOL n)))) := by
  unfold actMissedSlot
  simp only [start, draught, runs, en, open_, found, Bool.not_false, Bool.and_self, if_true]
  rfl

/-- Every member of the gang misses the slot, and port n's is filled. -/
theorem actMissedSlot_fills {d : Dev} {at_ : Time} (start : (d.cam n).lastStart = some at_) (draught : d.portDraught n = true)
    (runs : d.pipesRun = true) (en : d.lvb (R.CAM_CTRL_EN n) = true) (open_ : (d.cam n).slotDone = false)
    (found : d.rdb (R.CAM_STATUS_LOST n) = false) (period : 0 < d.lv (R.CAM_EXP_PERIOD n)) (m : List Host.Cell) :
    ((actMissedSlot n m d).cam n).slotDone = true ∧ (actMissedSlot n m d).rd (R.CAM_STATUS_REPLACING n) = 1 ∧
      d.Counted (actMissedSlot n m d) (R.CAM_MISSED n) ∧ (actMissedSlot n m d).wq = d.wq := by
  obtain ⟨x, before, after⟩ := PortKeeps.foldl_at (ks := portRegs [R.CAM_MISSED, R.CAM_STATUS_REPLACING]) (nodup_gangMembers d n)
    (mem_gangMembers d n) (fun y q other => keeps_missSlot_other m (at_ + nanos (d.lv (R.CAM_EXP_PERIOD n))) y other)
    (d.upTo (at_ + nanos (d.lv (R.CAM_EXP_PERIOD n) + d.lv (R.CAM_RATE_TOL_TOL n))))
  have fills : x.missSlot m (at_ + nanos (d.lv (R.CAM_EXP_PERIOD n))) n = x.slotFilled m (at_ + nanos (d.lv (R.CAM_EXP_PERIOD n))) n := by
    have same : x.lv (R.CAM_EXP_PERIOD n) = d.lv (R.CAM_EXP_PERIOD n) := before.lv _
    rw [← same]
    exact missSlot_fills (before.lastStart.trans start) (same ▸ period) ((before.lvb _).trans en) (before.slotDone.trans open_) m
  obtain ⟨done, replacing, counted, quiet⟩ := slotFilled_fills m (at_ + nanos (d.lv (R.CAM_EXP_PERIOD n))) x n
  rw [fills] at after
  rw [actMissedSlot_eq start draught runs en open_ found]
  refine ⟨after.slotDone.trans done, (after.rdPort rfl rfl (by decide)).trans replacing, ?_, after.wq.trans (quiet.trans before.wq)⟩
  rw [Counted, after.rdPort rfl rfl (by decide), counted, before.rdPort rfl rfl (by decide)]
  rfl

/-! The frame timeout (R119). -/

/-- A member of a gang is lost. -/
def memberLost (due : Time) (d : Dev) (q : Nat) : Dev :=
  (d.flag q (R.CAM_STATUS_LOST q) 2 true true).putCam q
    { (d.flag q (R.CAM_STATUS_LOST q) 2 true true).cam q with noRate := true, substDue := due }

theorem keeps_memberLost (due : Time) (d : Dev) (q : Nat) : PortKeeps [] n d (d.memberLost due q) :=
  .putCam (fun _ => rfl) (.flag (.wrPort rfl rfl fun _ => List.not_mem_nil) .refl)

theorem keeps_membersLost (due : Time) (l : List Nat) (d : Dev) : PortKeeps [] n d (l.foldl (memberLost due) d) :=
  .foldl l (fun x q _ => keeps_memberLost due x q) .refl

theorem lost_key_ne_dropped (q : Nat) : (R.CAM_STATUS_LOST q).key ≠ R.ERR_DROPPED.key := by
  simp only [R.CAM_STATUS_LOST, R.ERR_DROPPED]
  omega

theorem lost_membersLost (due : Time) (l : List Nat) (d : Dev) : ∀ q ∈ l, (l.foldl (memberLost due) d).rdb (R.CAM_STATUS_LOST q) = true := by
  refine foldl_establishes (P := fun q d => d.rdb (R.CAM_STATUS_LOST q) = true) (fun d q => ?_) (fun d i j ne lost => ?_) l d
  · exact rdb_flag_self _ _ _ _ _ _ (lost_key_ne_dropped q) rfl
  · have other : (R.CAM_STATUS_LOST i).key ≠ (R.CAM_STATUS_LOST j).key := by
      simp only [R.CAM_STATUS_LOST]
      omega
    exact (congrArg (· != 0) (rd_flag d j _ 2 true true _ (lost_key_ne_dropped i) other)).trans lost

theorem actFrameTimeout_eq {d : Dev} {q : Nat} {at_ : Time} (start : (d.cam q).lastStart = some at_)
    (found : d.rdb (R.CAM_STATUS_LOST q) = false) : actFrameTimeout q d =
      (d.gangMembers q).foldl (memberLost (at_ + nanos (2 * d.lv (R.CAM_EXP_PERIOD q)))) (d.upTo (at_ + nanos (2 * d.lv (R.CAM_EXP_PERIOD q)))) := by
  unfold actFrameTimeout
  simp only [start, found, Bool.false_eq_true, if_false]
  rfl

/-! A substitute frame (R119). -/

/-- A substitute frame leaves port n's pipeline, stamped with the time at which it was due. -/
def substFilled (m : List Host.Cell) (d : Dev) (n : Nat) : Dev :=
  let e := ((d.upTo (d.cam n).substDue).abandon n).emitFill m n (d.lvb (R.CAM_CTRL_SUBST_BLACK n))
  let e := e.putCam n { e.cam n with
    startWln := e.wtm.wln, slotStart := ((d.cam n).substDue : Int) + e.stcOff,
    substDue := (d.cam n).substDue + nanos (e.lv (R.CAM_EXP_PERIOD n)) }
  (e.cnt (R.CAM_SUBST n)).wr (R.CAM_STATUS_REPLACING n) 1

theorem actSubstitute_eq {d : Dev} {n : Nat} (lost : d.rdb (R.CAM_STATUS_LOST n) = true) (runs : d.pipesRun = true)
    (en : d.lvb (R.CAM_CTRL_EN n) = true) (m : List Host.Cell) : actSubstitute n m d = d.substFilled m n := by
  unfold actSubstitute
  simp only [lost, runs, en, Bool.and_self, if_true]
  rfl

theorem substFilled_fills (m : List Host.Cell) (d : Dev) (n : Fin 8) :
    (d.substFilled m n).rd (R.CAM_STATUS_REPLACING n) = 1 ∧ ((d.substFilled m n).cam n).outRows.length = d.cropH n ∧
      (d.cam n).substDue ≤ (d.substFilled m n).now ∧ d.Counted (d.substFilled m n) (R.CAM_SUBST n) ∧
      (d.substFilled m n).wq = d.wq := by
  have abandoned : PortKeeps (portRegs [R.CAM_SUBST]) n (d.upTo (d.cam n).substDue) ((d.upTo (d.cam n).substDue).abandon n) :=
    keeps_abandon _ n
  have left := abandoned.trans (keeps_emitFill m _ n (d.lvb (R.CAM_CTRL_SUBST_BLACK n)))
  have rows := (emitFill_rows m ((d.upTo (d.cam n).substDue).abandon n) n (d.lvb (R.CAM_CTRL_SUBST_BLACK n))).trans
    (abandoned.lv (R.RAWP_CROP_WH_H n))
  unfold substFilled
  generalize ((d.upTo (d.cam n).substDue).abandon n).emitFill m n (d.lvb (R.CAM_CTRL_SUBST_BLACK n)) = e at left rows
  refine ⟨rd_wr_self .., ?_, (Nat.le_max_right ..).trans_eq left.now.symm, ?_, left.wq⟩
  · refine (congrArg (fun c => c.outRows.length) (cam_putCam e _ n.isLt)).trans ?_
    exact rows
  have shown : PortKeeps (portRegs [R.CAM_SUBST]) n (e.cnt (R.CAM_SUBST n)) ((e.cnt (R.CAM_SUBST n)).wr (R.CAM_STATUS_REPLACING n) 1) :=
    .wrPort rfl rfl (fun _ => by decide) .refl
  rw [Counted]
  refine (shown.rdPort rfl rfl (by decide)).trans ((rd_cnt_self ..).trans ?_)
  rw [left.rdPort (f := R.CAM_SUBST n) rfl rfl (by decide)]
  rfl

end Dev

/-- Settles O22: each effect is named by an equation, and what its later parts leave of port n is what `PortKeeps` says. -/
theorem markedAndMissingFrames : Obligations.MarkedAndMissingFrames := by
  refine ⟨⟨fun s n w crc on check => ⟨fun agrees => ?_, fun differs enabled => ?_, fun enabled => ?_⟩,
    fun s n on => ⟨fun high => ?_, fun low => ?_⟩⟩, fun s n at_ on start draught runs en open_ found period => ?_,
    fun s n at_ on start found => ?_, fun s n on lost runs en => ?_⟩
  · rw [exec_camCheckWord]
    exact run_eq on (Dev.checkWord_agrees (agrees ▸ check)) rfl
  · obtain ⟨mark, taken, quiet⟩ := s.start.lineMarked_marks (n := n) (R.CAM_CHECK_ERR n)
    exact ⟨_, (exec_camCheckWord ..).trans (run_eq on (Dev.checkWord_differs check differs enabled) quiet), mark, taken,
      s.start.lineMarked_counts rfl rfl (by decide), rfl, rfl⟩
  · obtain ⟨mark, taken, quiet⟩ := s.start.lineMarked_marks (n := n) (R.CAM_CHECK_MISS n)
    exact ⟨_, (exec_camCheckWord ..).trans (run_eq on (Dev.checkWord_missed check enabled) quiet), mark, taken,
      s.start.lineMarked_counts rfl rfl (by decide), rfl, rfl⟩
  · exact (exec_camGlitch ..).trans (run_eq on (if_pos high) rfl)
  · exact ⟨_, (exec_camGlitch ..).trans (run_eq on (if_neg (ne_true_of_eq_false low)) (Dev.keeps_mark (n := n) _ n 4).wq),
      Dev.bit_marks_mark .., rfl, rfl⟩
  · obtain ⟨done, replacing, counted, quiet⟩ := Dev.actMissedSlot_fills (d := s.start) start draught runs en open_ found period s.mem
    exact ⟨_, (exec_missedSlot ..).trans (run_quiet on quiet), done, replacing, counted, rfl, rfl⟩
  · have act := Dev.actFrameTimeout_eq (d := s.start) (q := n) start found
    have kept := Dev.keeps_membersLost (n := n) (at_ + nanos (2 * s.start.lv (R.CAM_EXP_PERIOD n))) (s.start.gangMembers n)
      (s.start.upTo (at_ + nanos (2 * s.start.lv (R.CAM_EXP_PERIOD n))))
    exact ⟨_, (exec_frameTimeout ..).trans (run_eq on act kept.wq), Dev.lost_membersLost _ _ _, (Nat.le_max_right ..).trans_eq kept.now.symm,
      rfl, rfl⟩
  · have act := Dev.actSubstitute_eq (d := s.start) (n := n) lost runs en s.mem
    obtain ⟨replacing, rows, due, counted, quiet⟩ := s.start.substFilled_fills s.mem n
    generalize s.start.substFilled s.mem n = d at act replacing rows due counted quiet
    exact ⟨_, (exec_substituteFrame ..).trans (run_eq on act quiet), replacing, rows, due, counted, rfl, rfl⟩

end Sys2Proof.Machine
end

section
/-!
PROOFS. The raw pipelines' statistics, the arming of a paired restart, and the entries of the static defect lists.
-/

namespace Sys2Proof.Machine

namespace Dev

/-! A DRAM write of any class, where no unit holds an uncorrectable error (R482). -/

/-- The class of a write tells only of the errors that it meets. -/
theorem memWrite_class_of_clean {d : Dev} (clean : d.poison = []) (a : Nat) (bs : List Byte) (cls : TrafficClass) :
    d.memWrite a bs cls = d.memWrite a bs := by
  simp [memWrite, memWriteIn, clean]

/-- A write that begins at or beyond the usable capacity ends with an entry of the event log. -/
theorem memWrite_beyond {d : Dev} {a : Nat} {bs : List Byte} (beyond : d.dramC ≤ a) (nonempty : bs ≠ []) (cls : TrafficClass) :
    d.memWrite a bs cls = d.log 0x50 0 4 0x005 ((Nat.max a d.dramC) % 65536 + 65536) := by
  have past : ¬a + bs.length ≤ d.dramC := by
    have := List.length_pos_of_ne_nil nonempty
    omega
  have kept : ∀ x, (d.log 0x50 0 4 0x005 x).dramC = d.dramC := fun x => by
    rw [dramC, dramC, rd_log _ _ _ _ _ _ _ _ (by decide)]
  unfold memWrite
  rw [if_neg past]
  exact if_pos ((kept _).trans_le beyond)

/-! The statistics of a frame (R155). -/

/-- Where the statistics of pipeline n's frame go: to the buffer that STAT_SEQ's parity names. -/
def statAddr (d : Dev) (n : Nat) : Nat :=
  d.lvPair (R.RAWP_STAT_BASE_LO n) (R.RAWP_STAT_BASE_HI n) + 0x20000 * (d.rd (R.RAWP_STAT_SEQ n) % 2)

/-- STAT_SEQ and STAT_BUF tell of the statistics in a buffer, and none wait. -/
def statShown (d : Dev) (n buf : Nat) : Dev :=
  ((d.putCam n { d.cam n with stat := none }).cntWrap (R.RAWP_STAT_SEQ n)).wr (R.RAWP_STATUS_STAT_BUF n) buf

theorem actStatsDone_eq {d : Dev} {n : Nat} {bs : List Byte} (waits : (d.cam n).stat = some bs) :
    actStatsDone n d =
      (d.memWrite (d.statAddr n) bs Requester.statistics.cls).statShown n (d.rd (R.RAWP_STAT_SEQ n) % 2) := by
  unfold actStatsDone
  rw [waits]
  rfl

@[simp] theorem statShown_wq (d : Dev) (n buf : Nat) : (d.statShown n buf).wq = d.wq := rfl

theorem statBuf_key_ne_statSeq (n : Nat) : (R.RAWP_STATUS_STAT_BUF n).key ≠ (R.RAWP_STAT_SEQ n).key := by
  simp only [R.RAWP_STATUS_STAT_BUF, R.RAWP_STAT_SEQ]
  omega

theorem rd_statShown_buf (d : Dev) (n seq : Nat) : (d.statShown n (seq % 2)).rd (R.RAWP_STATUS_STAT_BUF n) = seq % 2 :=
  (rd_wr_self ..).trans (Nat.mod_mod seq 2)

theorem rd_statShown_seq (d : Dev) (n buf : Nat) :
    (d.statShown n buf).rd (R.RAWP_STAT_SEQ n) = (d.rd (R.RAWP_STAT_SEQ n) + 1) % 2 ^ (R.RAWP_STAT_SEQ n).width :=
  (rd_wr_ne _ _ _ _ (statBuf_key_ne_statSeq n).symm).trans (rd_cntWrap_self ..)

theorem statShown_sameBut (d : Dev) (n buf : Nat) :
    d.SameBut [(R.RAWP_STAT_SEQ n).key, (R.RAWP_STATUS_STAT_BUF n).key] (d.statShown n buf) := by
  intro f other
  simp only [List.mem_cons, List.not_mem_nil, or_false, not_or] at other
  obtain ⟨seq, buf⟩ := other
  exact (rd_wr_ne _ _ _ _ buf).trans (rd_cntWrap_ne _ _ _ seq)

/-! The entry of the defect lists that DEF_ADDR selects (R136). -/

/-- The number of an entry of pipeline n's lists: its bank above its index. -/
def defEntry (d : Dev) (n : Nat) : Nat := 65536 * d.rd (R.RAWP_DEF_ADDR_BANK n) + d.rd (R.RAWP_DEF_ADDR_INDEX n)

/-- What INDEX is after an access. -/
def defNext (d : Dev) (n : Nat) : Nat :=
  if d.rdb (R.RAWP_DEF_ADDR_AUTOINC n) then (d.rd (R.RAWP_DEF_ADDR_INDEX n) + 1) % 2 ^ (R.RAWP_DEF_ADDR_INDEX n).width
  else d.rd (R.RAWP_DEF_ADDR_INDEX n)

/-- INDEX goes on from i while AUTOINC is 1. -/
def defAdvance (d : Dev) (n i : Nat) : Dev :=
  if d.rdb (R.RAWP_DEF_ADDR_AUTOINC n) then d.wr (R.RAWP_DEF_ADDR_INDEX n) (i + 1) else d

/-- INDEX goes on where the access has left DEF_ADDR as it was. -/
theorem rd_defAdvance_index {d e : Dev} {n : Nat} (inc : e.rd (R.RAWP_DEF_ADDR_AUTOINC n) = d.rd (R.RAWP_DEF_ADDR_AUTOINC n))
    (index : e.rd (R.RAWP_DEF_ADDR_INDEX n) = d.rd (R.RAWP_DEF_ADDR_INDEX n)) :
    (e.defAdvance n (d.rd (R.RAWP_DEF_ADDR_INDEX n))).rd (R.RAWP_DEF_ADDR_INDEX n) = d.defNext n := by
  rw [defAdvance, defNext, rdb, rdb, inc]
  split
  · exact rd_wr_self ..
  · exact index

theorem rd_defAdvance_ne (d : Dev) (n i : Nat) {f : Fld} (other : f.key ≠ (R.RAWP_DEF_ADDR_INDEX n).key) :
    (d.defAdvance n i).rd f = d.rd f := by
  unfold defAdvance
  split
  · exact rd_wr_ne _ _ _ _ other
  · rfl

theorem defAdvance_only (d : Dev) (n i : Nat) :
    (d.defAdvance n i).wq = d.wq ∧ (d.defAdvance n i).out = d.out ∧ (d.defAdvance n i).defects = d.defects := by
  unfold defAdvance
  split <;> exact ⟨rfl, rfl, rfl⟩

/-! A read of DEF_DATA. -/

/-- DEF_DATA has fetched the entry selected. -/
def defFetched (d : Dev) (n : Nat) : Dev := d.wr (R.RAWP_DEF_DATA_DATA n) (SMap.get (d.defects.getD n ⟨[]⟩).vals (d.defEntry n))

theorem beforeRead_defData (d : Dev) (n : Fin 8) :
    d.beforeRead (0x180040 + 0x10000 * n.val) = (d.defFetched n).defAdvance n (d.rd (R.RAWP_DEF_ADDR_INDEX n)) := by
  fin_cases n <;> rfl

theorem rd_defFetched_addr (d : Dev) (n : Nat) :
    (d.defFetched n).rd (R.RAWP_DEF_ADDR_AUTOINC n) = d.rd (R.RAWP_DEF_ADDR_AUTOINC n) ∧
      (d.defFetched n).rd (R.RAWP_DEF_ADDR_INDEX n) = d.rd (R.RAWP_DEF_ADDR_INDEX n) := by
  constructor <;>
  · refine rd_wr_ne _ _ _ _ ?_
    simp only [R.RAWP_DEF_ADDR_AUTOINC, R.RAWP_DEF_ADDR_INDEX, R.RAWP_DEF_DATA_DATA]
    omega

theorem defData_key_ne_index (n : Nat) : (R.RAWP_DEF_DATA_DATA n).key ≠ (R.RAWP_DEF_ADDR_INDEX n).key := by
  simp only [R.RAWP_DEF_DATA_DATA, R.RAWP_DEF_ADDR_INDEX]
  omega

/-- A read of DEF_DATA clears nothing. -/
theorem clearRc_defData (d : Dev) (n : Nat) : d.clearRc [R.RAWP_DEF_DATA_DATA n] = d := rfl

/-! A write of DEF_DATA. -/

/-- An entry of pipeline n's lists takes a value. -/
def defPut (d : Dev) (n key v : Nat) : Dev := { d with defects := setV d.defects n ⟨SMap.set (d.defects.getD n ⟨[]⟩).vals key v⟩ }

theorem get_defPut (d : Dev) (n : Fin 8) (key v k : Nat) :
    SMap.get ((d.defPut n key v).defects.getD n ⟨[]⟩).vals k =
      if k = key then v else SMap.get (d.defects.getD n ⟨[]⟩).vals k := by
  rw [defPut, getD_setV _ _ _ n.isLt]
  exact SMap.get_set ..

/-- Outside mirror mode a write to a defect list lands at once, and goes nowhere else (R351). -/
theorem writeBank_defects {d : Dev} (unmirrored : d.mirrorOn = false) (n key v : Nat) : d.writeBank (2 + n) key v = d.defPut n key v := by
  have undecided : ∀ g, d.decidedLine g = none := fun g => by
    rw [decidedLine, unmirrored]
    rfl
  have alone : (d.putBank (n + 2) key v).mirrorOn = false := unmirrored
  rw [Nat.add_comm 2 n, writeBank, undecided]
  dsimp only
  rw [mirrorWrite, alone]
  rfl

theorem actDefData_lands {d : Dev} {n : Nat} (unmirrored : d.mirrorOn = false)
    (shadow : d.rd (R.RAWP_DEF_ADDR_BANK n) ≠ d.lv (R.RAWP_CTRL_DEF_BANK n)) (w : Word) :
    actDefData n (some w.toNat) d = (d.defPut n (d.defEntry n) w.toNat).defAdvance n (d.rd (R.RAWP_DEF_ADDR_INDEX n)) := by
  have taken : defRefused n d = false := decide_eq_false shadow
  unfold actDefData
  simp only [taken, Bool.false_eq_true, if_false, Nat.mod_eq_of_lt w.isLt, writeBank_defects unmirrored]
  rfl

theorem actDefData_refused {d : Dev} {n : Nat} (live : d.rd (R.RAWP_DEF_ADDR_BANK n) = d.lv (R.RAWP_CTRL_DEF_BANK n)) (v : Nat) :
    actDefData n (some v) d = d.log (0x18 + n) n 4 0x005 (0x40 + 65536) :=
  if_pos (decide_eq_true live)

end Dev

theorem regAt_defData : ∀ n : Fin 8, regAt (0x180040 + 0x10000 * n.val) = some [R.RAWP_DEF_DATA_DATA n] := by decide +kernel

section
variable {s : State} {n : Fin 8}

/-! The statistics of a frame as a command. -/

theorem exec_statsWriteDone_of_stat {bs : List Byte} (on : s.dev.off = false) (waits : (s.dev.cam n).stat = some bs) :
    exec (.statsWriteDone n) s =
      .next (settle s ((s.start.memWrite (s.dev.statAddr n) bs Requester.statistics.cls).statShown n
        (s.dev.rd (R.RAWP_STAT_SEQ n) % 2))) := by
  rw [exec_statsWriteDone, run_on on, Dev.actStatsDone_eq (d := s.start) waits]
  rfl

/-- A buffer at or beyond the usable capacity takes nothing (R482). -/
theorem statsWriteDone_beyond {bs : List Byte} (on : s.dev.off = false) (waits : (s.dev.cam n).stat = some bs)
    (beyond : s.dev.dramC ≤ s.dev.statAddr n) (nonempty : bs ≠ []) :
    ∃ t, exec (.statsWriteDone n) s = .next t ∧ t.mem = s.mem ∧
      t.dev.rd (R.RAWP_STATUS_STAT_BUF n) = s.dev.rd (R.RAWP_STAT_SEQ n) % 2 ∧ t.pending = s.pending := by
  have ran := exec_statsWriteDone_of_stat on waits
  rw [Dev.memWrite_beyond (d := s.start) beyond nonempty, settle_quiet ((Dev.statShown_wq ..).trans (Dev.log_wq ..))] at ran
  exact ⟨_, ran, rfl, Dev.rd_statShown_buf .., rfl⟩

/-- The statistics stand in their buffer, and STAT_SEQ and STAT_BUF tell of them. -/
theorem statsWriteDone_writes {bs : List Byte} (on : s.dev.off = false) (sound : s.Sound) (clean : s.dev.poison = [])
    (waits : (s.dev.cam n).stat = some bs) (fits : s.dev.statAddr n + bs.length ≤ s.dev.dramC) :
    ∃ t, exec (.statsWriteDone n) s = .next t ∧
      (∀ i (h : i < bs.length), Memory.read t.mem (s.dev.statAddr n + i) = bs[i]) ∧
      (∀ x, x < s.dev.statAddr n ∨ s.dev.statAddr n + bs.length ≤ x → Memory.read t.mem x = Memory.read s.mem x) ∧
      t.dev.rd (R.RAWP_STAT_SEQ n) = (s.dev.rd (R.RAWP_STAT_SEQ n) + 1) % 2 ^ (R.RAWP_STAT_SEQ n).width ∧
      t.dev.rd (R.RAWP_STATUS_STAT_BUF n) = s.dev.rd (R.RAWP_STAT_SEQ n) % 2 ∧
      s.dev.SameBut [(R.RAWP_STAT_SEQ n).key, (R.RAWP_STATUS_STAT_BUF n).key] t.dev ∧ t.pending = s.pending := by
  have write : s.start.memWrite (s.dev.statAddr n) bs Requester.statistics.cls = s.start.writing (s.dev.statAddr n) bs :=
    (Dev.memWrite_class_of_clean (d := s.start) clean ..).trans (Dev.memWrite_clean (d := s.start) clean fits)
  have ran := exec_statsWriteDone_of_stat on waits
  rw [write] at ran
  refine ⟨_, ran, fun i h => ?_, fun x out => ?_, Dev.rd_statShown_seq .., Dev.rd_statShown_buf ..,
    Dev.statShown_sameBut (s.start.writing _ bs) n _, rfl⟩
  · rw [settle_mem_of_wq rfl]
    exact Memory.read_writes_inside bs _ i sound h
  · rw [settle_mem_of_wq rfl]
    exact Memory.read_writes_outside bs _ x sound out

/-! An access to DEF_DATA as a command. -/

theorem defData_reads (bus : s.BusFree (0x180040 + 0x10000 * n.val)) :
    ∃ t, exec (.defDataAccess n none) s = .next t ∧
      t.dev.rd (R.RAWP_DEF_DATA_DATA n) = SMap.get (s.dev.defects.getD n ⟨[]⟩).vals (s.dev.defEntry n) % 2 ^ 32 ∧
      t.dev.rd (R.RAWP_DEF_ADDR_INDEX n) = s.dev.defNext n ∧ t.dev.defects = s.dev.defects ∧ t.mem = s.mem ∧
      t.pending = s.pending := by
  have elsewhere : 0x180040 + 0x10000 * n.val ≠ 0x202004 := by omega
  have ran := run_busRead bus (regAt_defData n) (.inl elsewhere)
  rw [Dev.beforeRead_defData, Dev.clearRc_defData] at ran
  obtain ⟨inc, index⟩ := s.start.rd_defFetched_addr n
  have next := Dev.rd_defAdvance_index inc index
  have data := (Dev.rd_defAdvance_ne (s.start.defFetched n) n (s.start.rd (R.RAWP_DEF_ADDR_INDEX n))
    (Dev.defData_key_ne_index n)).trans (Dev.rd_wr_self ..)
  obtain ⟨-, -, lists⟩ := (s.start.defFetched n).defAdvance_only n (s.start.rd (R.RAWP_DEF_ADDR_INDEX n))
  generalize (s.start.defFetched n).defAdvance n (s.start.rd (R.RAWP_DEF_ADDR_INDEX n)) = d at ran data next lists
  exact ⟨_, (exec_defDataAccess n none s).trans ran, data, next, lists, rfl, rfl⟩

/-- A write answers with an error response exactly where it is refused. -/
theorem exec_defDataWrite {d : Dev} {w : Word} (bus : s.BusFree (0x180040 + 0x10000 * n.val))
    (act : actDefData n (some w.toNat) s.start = d) (quiet : d.wq = []) :
    exec (.defDataAccess n (some w)) s = .next (s.answered d 0 (defRefused n s.start)) := by
  subst act
  exact (exec_defDataAccess n (some w) s).trans
    (run_access bus (some w.toNat) (fun _ d => ((d.writeDef n w.toNat).1, 0, (d.writeDef n w.toNat).2)) quiet)

theorem defData_writes (bus : s.BusFree (0x180040 + 0x10000 * n.val)) (unmirrored : s.dev.mirrorOn = false) (w : Word)
    (shadow : s.dev.rd (R.RAWP_DEF_ADDR_BANK n) ≠ s.dev.lv (R.RAWP_CTRL_DEF_BANK n)) :
    ∃ t, exec (.defDataAccess n (some w)) s = .next t ∧ t.dev.out = .bus 0 false :: s.dev.out ∧
      SMap.get (t.dev.defects.getD n ⟨[]⟩).vals (s.dev.defEntry n) = w.toNat ∧
      (∀ k, k ≠ s.dev.defEntry n →
        SMap.get (t.dev.defects.getD n ⟨[]⟩).vals k = SMap.get (s.dev.defects.getD n ⟨[]⟩).vals k) ∧
      t.dev.rd (R.RAWP_DEF_ADDR_INDEX n) = s.dev.defNext n ∧ t.mem = s.mem ∧ t.pending = s.pending := by
  have taken : defRefused n s.start = false := decide_eq_false shadow
  have act := Dev.actDefData_lands (d := s.start) unmirrored shadow w
  have index := Dev.rd_defAdvance_index (d := s.start) (e := s.start.defPut n (s.start.defEntry n) w.toNat) (n := n) rfl rfl
  have lists := s.start.get_defPut n (s.start.defEntry n) w.toNat
  have only := (s.start.defPut n (s.start.defEntry n) w.toNat).defAdvance_only n (s.start.rd (R.RAWP_DEF_ADDR_INDEX n))
  generalize Dev.defAdvance _ n.val _ = d at act index only
  obtain ⟨quiet, left, same⟩ := only
  have ran := exec_defDataWrite bus act quiet
  rw [taken] at ran
  rw [← same] at lists
  exact ⟨_, ran, congrArg (Out.bus 0 false :: ·) left, (lists _).trans (if_pos rfl),
    fun k other => (lists k).trans (if_neg other), index, rfl, rfl⟩

/-- A write into the live bank is refused and logged (R136). -/
theorem defData_refuses (bus : s.BusFree (0x180040 + 0x10000 * n.val)) (w : Word)
    (live : s.dev.rd (R.RAWP_DEF_ADDR_BANK n) = s.dev.lv (R.RAWP_CTRL_DEF_BANK n)) :
    ∃ t, exec (.defDataAccess n (some w)) s = .next t ∧ t.dev.out = .bus 0 true :: s.dev.out ∧
      t.dev.defects = s.dev.defects ∧ s.dev.SameBut [R.ERR_DROPPED.key] t.dev ∧ t.mem = s.mem ∧ t.pending = s.pending := by
  have refused : defRefused n s.start = true := decide_eq_true live
  have ran := exec_defDataWrite bus (Dev.actDefData_refused (d := s.start) live w.toNat) (Dev.log_wq ..)
  rw [refused] at ran
  refine ⟨_, ran, congrArg (Out.bus 0 true :: ·) (Dev.log_out ..), Dev.log_defects .., fun f other => ?_, rfl, rfl⟩
  exact Dev.rd_log _ _ _ _ _ _ _ f fun c => other (List.mem_singleton.mpr c)

end

/-- Settles O23: a frame's statistics are one DRAM write, and DEF_DATA's accesses are one fetch or one store in a defect list, each with
INDEX's advance (`Dev.defAdvance`). -/
theorem statisticsHistoryAndDefects : Obligations.StatisticsHistoryAndDefects := by
  refine ⟨fun s n bs on sound clean waits => ⟨statsWriteDone_beyond on waits, statsWriteDone_writes on sound clean waits⟩,
    fun s n bus => ?_, fun s n bus plain => ⟨defData_reads bus, fun w => ⟨defData_writes bus plain w, defData_refuses bus w⟩⟩⟩
  exact (exec_histArmWrite n s).trans (run_writeTo bus rfl rfl)

end Sys2Proof.Machine
end

section
/-!
PROOFS. The data ports of the LUTs and of the scaler coefficients, and the readings of the ambient sensors.
-/

namespace Sys2Proof.Machine

/-- A data port of a banked memory: a register that shows and takes the entry which a selection names, with the fields of the selection
that an access may advance. -/
structure DataPort where
  addr    : Nat
  data    : Fld
  autoInc : Fld
  index   : Fld
  reg     : regAt addr = some [data]
  noClear : data.acc ≠ .rc
  dataNeIndex : data.key ≠ index.key
  incNeData   : autoInc.key ≠ data.key

/-- CLR.LUT_DATA with CLR.LUT_SEL (R192). -/
def lutPort : DataPort :=
  ⟨0x202004, R.CLR_LUT_DATA_DATA, R.CLR_LUT_SEL_AUTOINC, R.CLR_LUT_SEL_INDEX, by decide +kernel, by decide, by decide, by decide⟩

/-- CMP.COEF_DATA with CMP.COEF_SEL (R203). -/
def coefPort : DataPort :=
  ⟨0x210024, R.CMP_COEF_DATA_COEF, R.CMP_COEF_SEL_AUTOINC, R.CMP_COEF_SEL_INDEX, by decide +kernel, by decide, by decide, by decide⟩

namespace Dev

/-! INDEX's advance. -/

/-- What INDEX is after an access. -/
def nextIndex (d : Dev) (p : DataPort) : Nat :=
  if d.rdb p.autoInc then (d.rd p.index + 1) % 2 ^ p.index.width else d.rd p.index

/-- INDEX goes on from i while AUTOINC is 1. -/
def advance (d : Dev) (p : DataPort) (i : Nat) : Dev := if d.rdb p.autoInc then d.wr p.index (i + 1) else d

theorem advance_only (d : Dev) (p : DataPort) (i : Nat) :
    (d.advance p i).wq = d.wq ∧ (d.advance p i).out = d.out ∧ (d.advance p i).clr = d.clr ∧ (d.advance p i).cmp = d.cmp := by
  unfold advance
  split <;> exact ⟨rfl, rfl, rfl, rfl⟩

/-- INDEX goes on where the access has left the selection as it was. -/
theorem rd_advance_index {d e : Dev} {p : DataPort} (inc : e.rd p.autoInc = d.rd p.autoInc) (index : e.rd p.index = d.rd p.index) :
    (e.advance p (d.rd p.index)).rd p.index = d.nextIndex p := by
  rw [advance, nextIndex, rdb, rdb, inc]
  split
  · exact rd_wr_self ..
  · exact index

theorem rd_advance_data (d : Dev) (p : DataPort) (i : Nat) : (d.advance p i).rd p.data = d.rd p.data := by
  unfold advance
  split
  · exact rd_wr_ne _ _ _ _ p.dataNeIndex
  · rfl

theorem clearRc_data (d : Dev) (p : DataPort) : d.clearRc [p.data] = d := by
  rw [clearRc_cons, if_neg p.noClear, clearRc_nil]

/-- The event log apart, e is as d: in the DRAM writes made, in what has left the device, in the banked memories of blocks CLR and CMP,
and in every register but the count of dropped entries. -/
structure OnlyLogged (d e : Dev) : Prop where
  wq   : e.wq = d.wq
  out  : e.out = d.out
  clr  : e.clr = d.clr
  cmp  : e.cmp = d.cmp
  same : d.SameBut [R.ERR_DROPPED.key] e

theorem onlyLogged_log (d : Dev) (source inst cls code detail : Nat) : d.OnlyLogged (d.log source inst cls code detail) :=
  ⟨log_wq .., log_out .., log_clr .., log_cmp .., fun f other => rd_log _ _ _ _ _ _ _ f fun c => other (List.mem_singleton.mpr c)⟩

/-! The writes of banked memories. -/

/-- An entry of a banked memory touches neither registers nor what has left the device, and makes no DRAM write. -/
theorem putBank_only (d : Dev) (mem key v : Nat) :
    (d.putBank mem key v).wq = d.wq ∧ (d.putBank mem key v).out = d.out ∧ ∀ f, (d.putBank mem key v).rd f = d.rd f := by
  unfold putBank
  split <;> exact ⟨rfl, rfl, fun _ => rfl⟩

theorem mirrorOn_putBank (d : Dev) (mem key v : Nat) : (d.putBank mem key v).mirrorOn = d.mirrorOn := by
  unfold putBank
  split <;> rfl

/-- Outside mirror mode a write to a banked memory lands at once, and goes nowhere else (R351). -/
theorem writeBank_unmirrored {d : Dev} (unmirrored : d.mirrorOn = false) (mem key v : Nat) :
    d.writeBank mem key v = d.putBank mem key v := by
  have undecided : d.decidedLine (bankGroup mem key) = none := by simp [decidedLine, unmirrored]
  rw [writeBank, undecided]
  exact if_neg (by rw [mirrorOn_putBank, unmirrored]; decide)

/-! What an access to LUT_DATA or COEF_DATA does to the device. -/

/-- The number of the LUT entry that LUT_SEL selects (R192). -/
def lutEntry (d : Dev) : Nat :=
  lutKey (d.rd R.CLR_LUT_SEL_KIND) (d.rd R.CLR_LUT_SEL_INSTANCE) (d.rd R.CLR_LUT_SEL_BANK) (d.rd R.CLR_LUT_SEL_CHANNEL)
    (d.rd R.CLR_LUT_SEL_INDEX)

/-- The number of the coefficient that COEF_SEL selects (R203). -/
def coefEntry (d : Dev) : Nat := 4096 * d.rd R.CMP_COEF_SEL_BANK + d.rd R.CMP_COEF_SEL_INDEX

variable {d : Dev}

theorem beforeRead_lutData (taken : lutRefused false d = false) :
    d.beforeRead lutPort.addr = (d.wr lutPort.data (SMap.get d.clr.luts d.lutEntry)).advance lutPort (d.rd lutPort.index) :=
  if_neg (by rw [Option.isSome_none, taken]; decide)

theorem beforeRead_coefData (d : Dev) :
    d.beforeRead coefPort.addr = (d.wr coefPort.data (SMap.get d.cmp.coefs d.coefEntry)).advance coefPort (d.rd coefPort.index) := rfl

theorem writeLut_lands (taken : lutRefused true d = false) (unmirrored : d.mirrorOn = false) (v : Nat) :
    d.writeLut v =
      ((d.putBank 0 d.lutEntry (v % 2 ^ lutWidth (d.rd R.CLR_LUT_SEL_KIND))).advance lutPort (d.rd lutPort.index), false) := by
  rw [← writeBank_unmirrored unmirrored]
  exact Prod.ext (if_neg (by rw [Option.isSome_some, taken]; decide)) taken

theorem writeLut_refused (refused : lutRefused true d = true) (v : Nat) :
    d.writeLut v = (d.log 0x20 0 4 0x005 (0x2004 + 65536), true) :=
  Prod.ext (if_pos refused) refused

theorem writeCoef_lands (shadow : d.rd R.CMP_COEF_SEL_BANK ≠ d.lv R.CMP_CFG_COEF_BANK) (unmirrored : d.mirrorOn = false) (v : Nat) :
    d.writeCoef v = ((d.putBank 1 d.coefEntry (v % 4096)).advance coefPort (d.rd coefPort.index), false) := by
  have taken : coefRefused d = false := decide_eq_false shadow
  rw [← writeBank_unmirrored unmirrored]
  exact Prod.ext (if_neg (by rw [taken]; decide)) taken

theorem writeCoef_refused (live : d.rd R.CMP_COEF_SEL_BANK = d.lv R.CMP_CFG_COEF_BANK) (v : Nat) :
    d.writeCoef v = (d.log 0x21 0 4 0x005 (0x24 + 65536), true) :=
  have refused : coefRefused d = true := decide_eq_true live
  Prod.ext (if_pos refused) refused

/-! The ambient sensors (R180 to R182): registers of blocks ERR and CLR alone change. -/

theorem keeps_senseOne (d : Dev) (i : Nat) (r : Option Nat) : Keeps [4, 0x20] d (d.senseOne i r) := by
  unfold senseOne
  dsimp only
  split
  · -- a good reading: a third one in a row makes the sensor valid
    refine .ite (.set_clr .refl) (.ite (.set_clr .refl) ?_)
    exact .flagBit (by decide) (by decide) (.set_clr .refl)
  · -- a bad one: a third one in a row makes it invalid
    refine .ite (.set_clr .refl) (.ite (.set_clr .refl) ?_)
    exact .cnt (by decide) (.flagBit (by decide) (by decide) (.set_clr .refl))

theorem keeps_filterLevel (d : Dev) : Keeps [4, 0x20] d d.filterLevel := by
  have shown : Keeps [4, 0x20] d (d.wrb R.CLR_LOOP_STATUS_AMB_NONE
      ((d.clr.sensors.filter fun s => s.valid).map fun s => s.lux).isEmpty) := .wrb (by decide) .refl
  exact .ite shown (.set_clr (.wr (by decide) shown))

/-- AMB_NONE, as the filter leaves it, agrees with the sensors, whose states the filter leaves alone (R181, R182). -/
theorem filterLevel_ambNone (d : Dev) :
    d.filterLevel.rdb R.CLR_LOOP_STATUS_AMB_NONE = (d.filterLevel.clr.sensors.filter fun x => x.valid).isEmpty := by
  have shown : (d.wrb R.CLR_LOOP_STATUS_AMB_NONE ((d.clr.sensors.filter fun s => s.valid).map fun s => s.lux).isEmpty).rdb
      R.CLR_LOOP_STATUS_AMB_NONE = (d.clr.sensors.filter fun x => x.valid).isEmpty :=
    (rdb_wrb_self _ _ _ rfl).trans List.isEmpty_map
  unfold filterLevel
  dsimp only
  split
  · exact shown
  · -- OWN_LUX is another field
    refine Eq.trans ?_ shown
    exact congrArg (· != 0) (rd_wr_ne _ R.CLR_AMB_OWN_LUX _ _ (by decide))

theorem actAmbient_idle (idle : d.state = .boot ∨ d.state = .safe) (readings : List (Option Nat)) : actAmbient readings d = d :=
  if_pos (by simpa using idle)

/-- Each sensor has taken its reading, and a sensor beyond those known is one that was not valid. -/
def sensed (d : Dev) (readings : List (Option Nat)) : Dev :=
  readings.zipIdx.foldl (fun d p => d.senseOne p.2 p.1) { d with clr := { d.clr with
    sensors := d.clr.sensors ++ List.replicate (readings.length - d.clr.sensors.length) ⟨0, false, 0⟩ } }

theorem actAmbient_reads (boot : d.state ≠ .boot) (safe : d.state ≠ .safe) (readings : List (Option Nat)) :
    actAmbient readings d = (d.sensed readings).filterLevel :=
  if_neg (by simpa using ⟨boot, safe⟩)

theorem keeps_sensed (d : Dev) (readings : List (Option Nat)) : Keeps [4, 0x20] d (d.sensed readings) :=
  .foldl (fun _ _ => keeps_senseOne ..) _ (.set_clr .refl)

end Dev

section
variable {s : State}

/-! An access to a data port as a command. -/

/-- A read fetches the entry selected, and no entry changes. -/
theorem DataPort.reads (p : DataPort) {v : Nat} (bus : s.BusFree p.addr)
    (taken : p.addr ≠ 0x202004 ∨ lutRefused false s.start = false)
    (before : s.start.beforeRead p.addr = (s.start.wr p.data v).advance p (s.start.rd p.index)) :
    ∃ t, run s (fun _ d => d.access p.addr none (Dev.busRead p.addr)) = .next t ∧ t.dev.rd p.data = v % 2 ^ p.data.width ∧
      t.dev.rd p.index = s.dev.nextIndex p ∧ t.dev.clr = s.dev.clr ∧ t.dev.cmp = s.dev.cmp ∧
      t.mem = s.mem ∧ t.pending = s.pending := by
  have ran := run_busRead bus p.reg taken
  rw [Dev.clearRc_data, before] at ran
  have data := (Dev.rd_advance_data (s.start.wr p.data v) p (s.start.rd p.index)).trans (Dev.rd_wr_self ..)
  have index : ((s.start.wr p.data v).advance p (s.start.rd p.index)).rd p.index = s.start.nextIndex p :=
    Dev.rd_advance_index (Dev.rd_wr_ne _ _ _ _ p.incNeData) (Dev.rd_wr_ne _ _ _ _ p.dataNeIndex.symm)
  obtain ⟨-, -, clr, cmp⟩ := (s.start.wr p.data v).advance_only p (s.start.rd p.index)
  generalize (s.start.wr p.data v).advance p (s.start.rd p.index) = d at ran data index clr cmp
  exact ⟨_, ran, data, index, clr, cmp, rfl, rfl⟩

/-- A write whose effect makes no DRAM write leaves that effect, and answers whether it was refused. -/
theorem run_dataWrite {addr : Nat} {w : Word} {write : Nat → Dev → Dev × Bool} {d : Dev} {refused : Bool} (bus : s.BusFree addr)
    (effect : write w.toNat s.start = (d, refused)) (quiet : d.wq = []) :
    run s (fun _ d => d.access addr (some w.toNat) fun d => ((write w.toNat d).1, 0, (write w.toNat d).2)) =
      .next (s.answered d 0 refused) := by
  have ran := run_access bus (some w.toNat) (fun _ d => ((write w.toNat d).1, 0, (write w.toNat d).2)) (by rwa [effect])
  rwa [effect] at ran

/-- A write that is taken puts its value into the memory's entry. -/
theorem DataPort.writes (p : DataPort) {mem key v : Nat} {w : Word} {write : Nat → Dev → Dev × Bool} (bus : s.BusFree p.addr)
    (lands : write w.toNat s.start = ((s.start.putBank mem key v).advance p (s.start.rd p.index), false)) :
    ∃ t, run s (fun _ d => d.access p.addr (some w.toNat) fun d => ((write w.toNat d).1, 0, (write w.toNat d).2)) = .next t ∧
      t.dev.out = .bus 0 false :: s.dev.out ∧ t.dev.clr = (s.start.putBank mem key v).clr ∧
      t.dev.cmp = (s.start.putBank mem key v).cmp ∧ t.dev.rd p.index = s.dev.nextIndex p ∧ t.mem = s.mem ∧ t.pending = s.pending := by
  obtain ⟨wq, out, kept⟩ := s.start.putBank_only mem key v
  have index := Dev.rd_advance_index (kept p.autoInc) (kept p.index)
  obtain ⟨wq', out', clr, cmp⟩ := (s.start.putBank mem key v).advance_only p (s.start.rd p.index)
  generalize (s.start.putBank mem key v).advance p (s.start.rd p.index) = d at lands index wq' out' clr cmp
  exact ⟨_, run_dataWrite bus lands (wq'.trans wq), congrArg (Out.bus 0 false :: ·) (out'.trans out), clr, cmp, index, rfl, rfl⟩

/-- A write that is refused is logged, and changes no entry. -/
theorem DataPort.refuses (p : DataPort) {d : Dev} {w : Word} {write : Nat → Dev → Dev × Bool} (bus : s.BusFree p.addr)
    (refused : write w.toNat s.start = (d, true)) (logged : s.start.OnlyLogged d) :
    ∃ t, run s (fun _ d => d.access p.addr (some w.toNat) fun d => ((write w.toNat d).1, 0, (write w.toNat d).2)) = .next t ∧
      t.dev.out = .bus 0 true :: s.dev.out ∧ t.dev.clr = s.dev.clr ∧ t.dev.cmp = s.dev.cmp ∧
      s.dev.SameBut [R.ERR_DROPPED.key] t.dev ∧ t.mem = s.mem ∧ t.pending = s.pending := by
  obtain ⟨wq, out, clr, cmp, same⟩ := logged
  exact ⟨_, run_dataWrite bus refused wq, congrArg (Out.bus 0 true :: ·) out, clr, cmp, same, rfl, rfl⟩

/-! CLR.LUT_DATA. -/

theorem lutData_reads (bus : s.BusFree 0x202004) (taken : lutRefused false s.start = false) :
    ∃ t, exec (.lutDataAccess none) s = .next t ∧ t.dev.rd R.CLR_LUT_DATA_DATA = SMap.get s.dev.clr.luts s.dev.lutEntry % 2 ^ 32 ∧
      t.dev.rd R.CLR_LUT_SEL_INDEX = s.dev.nextIndex lutPort ∧ t.dev.clr = s.dev.clr ∧ t.mem = s.mem ∧ t.pending = s.pending := by
  obtain ⟨t, ran, data, index, clr, -, mem, pending⟩ := lutPort.reads bus (.inr taken) (Dev.beforeRead_lutData taken)
  exact ⟨t, (exec_lutDataAccess none s).trans ran, data, index, clr, mem, pending⟩

theorem lutData_writes (bus : s.BusFree 0x202004) (w : Word) (taken : lutRefused true s.start = false)
    (unmirrored : s.dev.mirrorOn = false) :
    ∃ t, exec (.lutDataAccess (some w)) s = .next t ∧ t.dev.out = .bus 0 false :: s.dev.out ∧
      SMap.get t.dev.clr.luts s.dev.lutEntry = w.toNat % 2 ^ lutWidth (s.dev.rd R.CLR_LUT_SEL_KIND) ∧
      (∀ k, k ≠ s.dev.lutEntry → SMap.get t.dev.clr.luts k = SMap.get s.dev.clr.luts k) ∧
      t.dev.rd R.CLR_LUT_SEL_INDEX = s.dev.nextIndex lutPort ∧ t.mem = s.mem ∧ t.pending = s.pending := by
  obtain ⟨t, ran, out, clr, -, index, mem, pending⟩ :=
    lutPort.writes (write := Dev.writeLut) bus (Dev.writeLut_lands (d := s.start) taken unmirrored w.toNat)
  have entry := SMap.get_set s.dev.clr.luts s.dev.lutEntry (w.toNat % 2 ^ lutWidth (s.dev.rd R.CLR_LUT_SEL_KIND))
  refine ⟨t, (exec_lutDataAccess (some w) s).trans ran, out, ?_, fun k other => ?_, index, mem, pending⟩ <;> rw [clr]
  · exact (entry _).trans (if_pos rfl)
  · exact (entry k).trans (if_neg other)

theorem lutData_refuses (bus : s.BusFree 0x202004) (w : Word) (refused : lutRefused true s.start = true) :
    ∃ t, exec (.lutDataAccess (some w)) s = .next t ∧ t.dev.out = .bus 0 true :: s.dev.out ∧ t.dev.clr = s.dev.clr ∧
      s.dev.SameBut [R.ERR_DROPPED.key] t.dev ∧ t.mem = s.mem ∧ t.pending = s.pending := by
  obtain ⟨t, ran, out, clr, -, same⟩ :=
    lutPort.refuses (write := Dev.writeLut) bus (Dev.writeLut_refused refused w.toNat) (Dev.onlyLogged_log ..)
  exact ⟨t, (exec_lutDataAccess (some w) s).trans ran, out, clr, same⟩

/-! CMP.COEF_DATA. -/

theorem coefData_reads (bus : s.BusFree 0x210024) :
    ∃ t, exec (.coefDataAccess none) s = .next t ∧ t.dev.rd R.CMP_COEF_DATA_COEF = SMap.get s.dev.cmp.coefs s.dev.coefEntry % 4096 ∧
      t.dev.rd R.CMP_COEF_SEL_INDEX = s.dev.nextIndex coefPort ∧ t.dev.cmp = s.dev.cmp ∧ t.mem = s.mem ∧ t.pending = s.pending := by
  obtain ⟨t, ran, data, index, -, rest⟩ := coefPort.reads bus (.inl (by decide)) (Dev.beforeRead_coefData _)
  exact ⟨t, (exec_coefDataAccess none s).trans ran, data, index, rest⟩

theorem coefData_writes (bus : s.BusFree 0x210024) (w : Word) (shadow : s.dev.rd R.CMP_COEF_SEL_BANK ≠ s.dev.lv R.CMP_CFG_COEF_BANK)
    (unmirrored : s.dev.mirrorOn = false) :
    ∃ t, exec (.coefDataAccess (some w)) s = .next t ∧ t.dev.out = .bus 0 false :: s.dev.out ∧
      SMap.get t.dev.cmp.coefs s.dev.coefEntry = w.toNat % 4096 ∧
      (∀ k, k ≠ s.dev.coefEntry → SMap.get t.dev.cmp.coefs k = SMap.get s.dev.cmp.coefs k) ∧
      t.dev.rd R.CMP_COEF_SEL_INDEX = s.dev.nextIndex coefPort ∧ t.mem = s.mem ∧ t.pending = s.pending := by
  obtain ⟨t, ran, out, -, cmp, index, mem, pending⟩ :=
    coefPort.writes (write := Dev.writeCoef) bus (Dev.writeCoef_lands (d := s.start) shadow unmirrored w.toNat)
  have entry := SMap.get_set s.dev.cmp.coefs s.dev.coefEntry (w.toNat % 4096)
  refine ⟨t, (exec_coefDataAccess (some w) s).trans ran, out, ?_, fun k other => ?_, index, mem, pending⟩ <;> rw [cmp]
  · exact (entry _).trans (if_pos rfl)
  · exact (entry k).trans (if_neg other)

theorem coefData_refuses (bus : s.BusFree 0x210024) (w : Word) (live : s.dev.rd R.CMP_COEF_SEL_BANK = s.dev.lv R.CMP_CFG_COEF_BANK) :
    ∃ t, exec (.coefDataAccess (some w)) s = .next t ∧ t.dev.out = .bus 0 true :: s.dev.out ∧ t.dev.cmp = s.dev.cmp ∧
      s.dev.SameBut [R.ERR_DROPPED.key] t.dev ∧ t.mem = s.mem ∧ t.pending = s.pending := by
  obtain ⟨t, ran, out, -, cmp, same⟩ :=
    coefPort.refuses (write := Dev.writeCoef) bus (Dev.writeCoef_refused (d := s.start) live w.toNat) (Dev.onlyLogged_log ..)
  exact ⟨t, (exec_coefDataAccess (some w) s).trans ran, out, cmp, same⟩

/-! The readings of the ambient sensors as a command. -/

theorem ambientReading_idle (on : s.dev.off = false) (readings : List (Option Nat)) (idle : s.dev.state = .boot ∨ s.dev.state = .safe) :
    exec (.ambientReading readings) s = .next (s.withDev s.start) := by
  rw [exec_ambientReading, run_on on, Dev.actAmbient_idle (d := s.start) idle, settle_quiet (start_wq s)]

theorem ambientReading_reads (on : s.dev.off = false) (readings : List (Option Nat)) (boot : s.dev.state ≠ .boot)
    (safe : s.dev.state ≠ .safe) :
    ∃ t, exec (.ambientReading readings) s = .next t ∧
      t.dev.rdb R.CLR_LOOP_STATUS_AMB_NONE = (t.dev.clr.sensors.filter fun x => x.valid).isEmpty ∧
      s.dev.SameOutside [4, 0x20] t.dev ∧ t.mem = s.mem ∧ t.pending = s.pending := by
  have keeps := (s.start.keeps_sensed readings).trans (s.start.sensed readings).keeps_filterLevel
  have ran : exec (.ambientReading readings) s = .next (s.withDev (s.start.sensed readings).filterLevel) := by
    rw [exec_ambientReading, run_on on, Dev.actAmbient_reads (d := s.start) boot safe, settle_quiet keeps.wq]
  exact ⟨_, ran, Dev.filterLevel_ambNone _, keeps.rd, rfl, rfl⟩

end

/-- Settles O24: an access to a data port is one fetch, one store in a banked memory or one entry of the log (`DataPort.reads`,
`DataPort.writes`, `DataPort.refuses`), and the filter shows AMB_NONE from the sensors as their readings left them. -/
theorem lookupDataAndAmbientReadings : Obligations.LookupDataAndAmbientReadings :=
  ⟨⟨fun _ bus => ⟨lutData_reads bus, fun w => ⟨lutData_writes bus w, lutData_refuses bus w⟩⟩,
    fun _ bus => ⟨coefData_reads bus, fun w => ⟨coefData_writes bus w, coefData_refuses bus w⟩⟩⟩,
    fun _ readings on => ⟨ambientReading_idle on readings, ambientReading_reads on readings⟩⟩

end Sys2Proof.Machine
end

section
/-!
PROOFS. What goes on the lines comes off them: the scrambler and the blocks of a return lane, pairing frames, lanes and Manchester code,
and the words of Table 12-2.
-/

namespace Sys2Proof.Machine

/-! Numbers in bytes and bits. -/

theorem b2n_lt_two (b : Bool) : b2n b < 2 := by cases b <;> decide

theorem leNat_append (a b : List Byte) : leNat (a ++ b) = leNat a + 256 ^ a.length * leNat b := by
  induction a with
  | nil => simp [leNat]
  | cons x r ih => rw [List.cons_append, leNat, leNat, ih, List.length_cons, Nat.pow_succ']; ring

theorem leBytes_leNat (l : List Byte) : leBytes l.length (leNat l) = l := by
  induction l with
  | nil => rfl
  | cons b r ih =>
    have low : BitVec.ofNat 8 (b.toNat + 256 * leNat r) = b := BitVec.eq_of_toNat_eq (by
      rw [BitVec.toNat_ofNat, Nat.add_mul_mod_self_left, Nat.mod_eq_of_lt b.isLt])
    have high : (b.toNat + 256 * leNat r) / 256 = leNat r := by have := b.isLt; omega
    rw [List.length_cons, leBytes, leNat, low, high, ih]

theorem beBytes_beNat (l : List Byte) : beBytes l.length (beNat l) = l := by
  rw [beBytes, beNat, ← l.length_reverse, leBytes_leNat, List.reverse_reverse]

theorem beNat_beBytes {n v : Nat} (h : v < 256 ^ n) : beNat (beBytes n v) = v := by
  rw [beNat, beBytes, List.reverse_reverse, leNat_leBytes, Nat.mod_eq_of_lt h]

theorem beNat_append (a b : List Byte) : beNat (a ++ b) = beNat a * 256 ^ b.length + beNat b := by
  rw [beNat, beNat, beNat, List.reverse_append, leNat_append, List.length_reverse]; ring

theorem beNat_lt (l : List Byte) : beNat l < 256 ^ l.length := by
  simpa [beNat] using leNat_lt l.reverse

theorem leAt_leBytes {a : List Byte} {off n v : Nat} (c : List Byte) (h : a.length = off) (lt : v < 256 ^ n) :
    leAt (a ++ (leBytes n v ++ c)) off n = v := by
  subst h
  rw [leAt, slice, List.drop_left, List.take_left' (length_leBytes n v), leNat_leBytes, Nat.mod_eq_of_lt lt]

theorem beAt_all {l : List Byte} {n : Nat} (h : l.length = n) : beAt l 0 n = beNat l := by
  rw [beAt, slice, List.drop_zero, List.take_of_length_le h.le]

/-- The first byte of a string is the highest of its number. -/
theorem beAt_first {l : List Byte} {n : Nat} (h : l.length = n + 1) : beAt l 0 1 = beAt l 0 (n + 1) / 256 ^ n := by
  cases l with
  | nil => simp at h
  | cons b r =>
    have len : r.length = n := by simpa using h
    have lt : beNat r < 256 ^ n := len ▸ beNat_lt r
    have one : beAt (b :: r) 0 1 = beNat [b] := rfl
    rw [beAt_all h, one, show b :: r = [b] ++ r from rfl, beNat_append, len, Nat.mul_comm, Nat.mul_add_div (Nat.pow_pos (by decide)),
      Nat.div_eq_of_lt lt, Nat.add_zero]

/-! The scrambler (R271). -/

/-- The highest of n + 1 bits is the one put there. -/
theorem bit_top (s : Bool) {n q : Nat} (h : q < 2 ^ n) : bit (b2n s * 2 ^ n + q) n = s := by
  cases s
  · simpa [bit, b2n] using Nat.testBit_lt_two_pow h
  · have high : (2 ^ n + q).testBit n = true := by rw [Nat.testBit_two_pow_add_eq, Nat.testBit_lt_two_pow h]; rfl
    simpa [bit, b2n] using high

theorem mod_two_pow_succ (v n : Nat) : v % 2 ^ (n + 1) = b2n (bit v n) * 2 ^ n + v % 2 ^ n := by
  have top : b2n (bit v n) = v / 2 ^ n % 2 := by
    rw [bit, Nat.testBit_eq_decide_div_mod_eq, b2n]
    rcases Nat.mod_two_eq_zero_or_one (v / 2 ^ n) with h | h <;> simp [h]
  rw [top, Nat.pow_succ, Nat.mod_mul]
  ring

theorem scramble_lt (n r v : Nat) : (scramble n r v).1 < 2 ^ n := by
  induction n generalizing r with
  | zero => exact Nat.one_pos
  | succ n ih =>
    have := ih (scrShift r (bit v n != scrTap r))
    have : b2n (bit v n != scrTap r) * 2 ^ n ≤ 1 * 2 ^ n := Nat.mul_le_mul_right _ (Nat.le_of_lt_succ (b2n_lt_two _))
    rw [scramble, Nat.pow_succ]
    dsimp only
    omega

theorem bit_mul_two_pow_add (n c w : Nat) : bit (c * 2 ^ (n + 1) + w) n = bit w n := by
  simp only [bit, Nat.testBit_eq_decide_div_mod_eq]
  rw [Nat.pow_succ, show c * (2 ^ n * 2) = 2 ^ n * (2 * c) by ring, Nat.mul_add_div (Nat.two_pow_pos n), Nat.mul_add_mod_self_left]

/-- A descrambler looks at no bit above those that it takes. -/
theorem descramble_mul_two_pow_add (n r c w : Nat) : descramble n r (c * 2 ^ n + w) = descramble n r w := by
  induction n generalizing r c with
  | zero => rfl
  | succ n ih =>
    have high : c * 2 ^ (n + 1) = (2 * c) * 2 ^ n := by ring
    simp only [descramble, bit_mul_two_pow_add]
    rw [high, ih]

theorem descramble_scramble (n r v : Nat) : descramble n r (scramble n r v).1 = (v % 2 ^ n, (scramble n r v).2) := by
  induction n generalizing r with
  | zero => simp [descramble, scramble, Nat.mod_one]
  | succ n ih =>
    have line := scramble_lt n (scrShift r (bit v n != scrTap r)) v
    have plain : ((bit v n != scrTap r) != scrTap r) = bit v n := by cases bit v n <;> cases scrTap r <;> rfl
    have top := (mod_two_pow_succ v n).symm
    simp only [scramble, descramble, bit_top _ line, descramble_mul_two_pow_add, ih, plain, top]

/-! Blocks (R270, R272, R273). -/

/-- The number of block i of a packet. -/
def blockOf (bytes : List Byte) (i : Nat) : Nat := beAt bytes (16 * i) 16

theorem blockOf_lt (bytes : List Byte) (i : Nat) : blockOf bytes i < 2 ^ 128 := beAt_lt bytes (16 * i) 16

/-- A block as it goes on the line, on from a scrambler's register. -/
def lineBlock (head r v : Nat) : BitVec 130 := BitVec.ofNat 130 (head * 2 ^ 128 + (scramble 128 r v).1)

theorem lineBlock_toNat {head : Nat} (h : head < 4) (r v : Nat) :
    (lineBlock head r v).toNat = head * 2 ^ 128 + (scramble 128 r v).1 := by
  have := scramble_lt 128 r v
  rw [lineBlock, BitVec.toNat_ofNat, Nat.mod_eq_of_lt]
  omega

/-- A receiver whose register has taken a block. -/
def Lane.past (l : Lane) (reg : Nat) : Lane := { l with dscr := reg }

/-- A receiver in lock takes a block off the line as it was put there. -/
theorem takeBlock_lineBlock {l : Lane} (lock : l.lock = true) {head v : Nat} (h : head < 4) (lt : v < 2 ^ 128) :
    takeBlock l (lineBlock head l.dscr v) = follow (l.past (scramble 128 l.dscr v).2) head v := by
  have line := scramble_lt 128 l.dscr v
  have hd : (head * 2 ^ 128 + (scramble 128 l.dscr v).1) / 2 ^ 128 = head := by omega
  have pay : (head * 2 ^ 128 + (scramble 128 l.dscr v).1) % 2 ^ 128 = (scramble 128 l.dscr v).1 := by omega
  simp only [takeBlock, lineBlock_toNat h, hd, pay, descramble_scramble, lock, if_true, Nat.mod_eq_of_lt lt, Lane.past]

theorem linkBlocks_one {bytes : List Byte} (len : bytes.length = 16) (r : Nat) :
    (linkBlocks r bytes).1 = [lineBlock 2 r (blockOf bytes 0)] := by
  simp [linkBlocks, len, sealBlocks, lineBlock, blockOf, List.range_succ]

theorem linkBlocks_two {bytes : List Byte} (len : bytes.length = 32) (r : Nat) :
    (linkBlocks r bytes).1 = [lineBlock 2 r (blockOf bytes 0), lineBlock 1 (scramble 128 r (blockOf bytes 0)).2 (blockOf bytes 1)] := by
  simp [linkBlocks, len, sealBlocks, lineBlock, blockOf, List.range_succ]


/-- The first byte of a packet names its TYPE and its VER. -/
theorem blockOf_zero_div {bytes : List Byte} (len : 16 ≤ bytes.length) : blockOf bytes 0 / 2 ^ 120 = beAt bytes 0 1 := by
  have same : ∀ n, n ≤ 16 → beAt bytes 0 n = beAt (bytes.take 16) 0 n := fun n h => by
    simp [beAt, slice, List.take_take, Nat.min_eq_left h]
  rw [blockOf, same 16 (by decide), same 1 (by decide), beAt_first (n := 15) (by simp [len])]
  norm_num

/-- A block gives back the bytes that it was made of. -/
theorem beBytes_blockOf {bytes : List Byte} {i : Nat} (len : 16 * i + 16 ≤ bytes.length) :
    beBytes 16 (blockOf bytes i) = slice bytes (16 * i) 16 := by
  have long : (slice bytes (16 * i) 16).length = 16 := by simp [slice]; omega
  simpa only [long, blockOf, beAt] using beBytes_beNat (slice bytes (16 * i) 16)

theorem beBytes_one_block {bytes : List Byte} (len : bytes.length = 16) : beBytes 16 (blockOf bytes 0) = bytes := by
  rw [beBytes_blockOf (i := 0) (by omega)]
  simp [slice, len]

theorem beBytes_two_blocks {bytes : List Byte} (len : bytes.length = 32) :
    beBytes 16 (blockOf bytes 0) ++ beBytes 16 (blockOf bytes 1) = bytes := by
  rw [beBytes_blockOf (i := 0) (by omega), beBytes_blockOf (i := 1) (by omega)]
  simp [slice, List.take_of_length_le, len]

/-- What a receiver in lock makes of a block, from the error that it finds and the packet that stands open after it. -/
def Lane.step (l : Lane) (err : Bool) (p : Option (List Byte × Nat) × List (Option (List Byte))) : RxStep :=
  let errs := (2 * l.errs + b2n err) % 2 ^ 64
  if 16 ≤ ones errs then ⟨{ l with lock := false, good := 0, errs := 0, rx := none }, err, p.2⟩
  else ⟨{ l with errs := errs, rx := p.1 }, err, p.2⟩

/-- A block with header 0b10 that cuts off no packet opens one. -/
theorem follow_two {l : Lane} (idle : ∀ bs n, l.rx ≠ some (bs, n + 1)) (v : Nat) : follow l 2 v = l.step false (openBlock v) := by
  rcases e : l.rx with _ | ⟨bs, _ | n⟩
  · simp [follow, e, Lane.step]
  · simp [follow, e, Lane.step]
  · exact absurd e (idle bs n)

/-- A block with header 0b01 ends the packet that lacks one block. -/
theorem follow_one_last {l : Lane} {bs : List Byte} (open_ : l.rx = some (bs, 1)) (v : Nat) :
    follow l 1 v = l.step false (none, [some (bs ++ beBytes 16 v)]) := by
  simp [follow, open_, Lane.step]

/-- A block with header 0b01 of a packet that is discarded is discarded with it. -/
theorem follow_one_discard {l : Lane} (open_ : l.rx = some ([], 0)) (v : Nat) :
    follow l 1 v = l.step false (some ([], 0), []) := by
  simp [follow, open_, Lane.step]

@[simp] theorem Lane.step_err (l : Lane) (err : Bool) (p : Option (List Byte × Nat) × List (Option (List Byte))) : (l.step err p).err = err := by
  unfold Lane.step; dsimp only; split <;> rfl

@[simp] theorem Lane.step_done (l : Lane) (err : Bool) (p : Option (List Byte × Nat) × List (Option (List Byte))) :
    (l.step err p).done = p.2 := by
  unfold Lane.step; dsimp only; split <;> rfl

theorem Lane.step_lane {l : Lane} {err : Bool} (few : ones ((2 * l.errs + b2n err) % 2 ^ 64) < 16)
    (p : Option (List Byte × Nat) × List (Option (List Byte))) :
    (l.step err p).lane = { l with errs := (2 * l.errs + b2n err) % 2 ^ 64, rx := p.1 } := by
  unfold Lane.step; dsimp only; rw [if_neg (by omega)]

/-- A receiver that has taken a block without an error, its register at `reg` and `rx` the packet that stands open. -/
def Lane.hears (l : Lane) (reg : Nat) (rx : Option (List Byte × Nat)) : Lane :=
  { l with dscr := reg, errs := 2 * l.errs % 2 ^ 64, rx := rx }

@[simp] theorem Lane.hears_dscr (l : Lane) (reg : Nat) (rx : Option (List Byte × Nat)) : (l.hears reg rx).dscr = reg := rfl

/-- A block without an error reaches a receiver whose errors do not cost the lock. -/
theorem Lane.step_past {l : Lane} (few : ones (2 * l.errs % 2 ^ 64) < 16) (reg : Nat)
    (p : Option (List Byte × Nat) × List (Option (List Byte))) : ((l.past reg).step false p).lane = l.hears reg p.1 := by
  rw [Lane.step_lane (by simpa [Lane.past, b2n] using few)]
  rfl

theorem openBlock_short {v : Nat} (type : v / 2 ^ 124 = 8 ∨ v / 2 ^ 124 = 9) (ver : v / 2 ^ 120 % 16 = 1) :
    openBlock v = (none, [some (beBytes 16 v)]) := by
  rcases type with h | h <;> simp only [openBlock, h, ver]

theorem openBlock_long {v : Nat} (type : v / 2 ^ 124 = 10) (ver : v / 2 ^ 120 % 16 = 1) : openBlock v = (some (beBytes 16 v, 1), []) := by
  simp only [openBlock, type, ver]

theorem openBlock_otherVer {v : Nat} (type : v / 2 ^ 124 = 8 ∨ v / 2 ^ 124 = 9 ∨ v / 2 ^ 124 = 10) (ver : v / 2 ^ 120 % 16 ≠ 1) :
    openBlock v = (some ([], 0), [none]) := by
  unfold openBlock
  split
  · omega
  · rename_i h; omega
  · omega
  · omega
  · rfl

section

variable {l : Lane} {bytes : List Byte}

theorem blockType (len : 16 ≤ bytes.length) : blockOf bytes 0 / 2 ^ 124 = beAt bytes 0 1 / 16 := by
  rw [← blockOf_zero_div len, Nat.div_div_eq_div_mul]
  norm_num

theorem blockVer (len : 16 ≤ bytes.length) : blockOf bytes 0 / 2 ^ 120 % 16 = beAt bytes 0 1 % 16 := by
  rw [blockOf_zero_div len]

/-- A block that opens a packet reaches a receiver in lock. -/
theorem takeBlock_first (lock : l.lock = true) (idle : ∀ bs n, l.rx ≠ some (bs, n + 1)) {v : Nat} (lt : v < 2 ^ 128) :
    takeBlock l (lineBlock 2 l.dscr v) = (l.past (scramble 128 l.dscr v).2).step false (openBlock v) := by
  rw [takeBlock_lineBlock lock (by decide) lt]
  exact follow_two (l := l.past (scramble 128 l.dscr v).2) idle v

/-- The block that ends a packet reaches it. -/
theorem takeBlock_last (lock : l.lock = true) {bs : List Byte} (open_ : l.rx = some (bs, 1)) {v : Nat} (lt : v < 2 ^ 128) :
    takeBlock l (lineBlock 1 l.dscr v) = (l.past (scramble 128 l.dscr v).2).step false (none, [some (bs ++ beBytes 16 v)]) := by
  rw [takeBlock_lineBlock lock (by decide) lt]
  exact follow_one_last (l := l.past (scramble 128 l.dscr v).2) open_ v

/-- A block of a packet that is discarded reaches it. -/
theorem takeBlock_discard (lock : l.lock = true) (open_ : l.rx = some ([], 0)) {v : Nat} (lt : v < 2 ^ 128) :
    takeBlock l (lineBlock 1 l.dscr v) = (l.past (scramble 128 l.dscr v).2).step false (some ([], 0), []) := by
  rw [takeBlock_lineBlock lock (by decide) lt]
  exact follow_one_discard (l := l.past (scramble 128 l.dscr v).2) open_ v

/-- The receiver after a block that opens a packet. -/
theorem lane_takeBlock_first (lock : l.lock = true) (idle : ∀ bs n, l.rx ≠ some (bs, n + 1)) (few : ones (2 * l.errs % 2 ^ 64) < 16) {v : Nat}
    (lt : v < 2 ^ 128) :
    (takeBlock l (lineBlock 2 l.dscr v)).lane = l.hears (scramble 128 l.dscr v).2 (openBlock v).1 := by
  rw [takeBlock_first lock idle lt, Lane.step_past few]

/-- A packet of one block comes out of a receiver in lock. -/
theorem receives_short (lock : l.lock = true) (idle : ∀ bs n, l.rx ≠ some (bs, n + 1)) (len : bytes.length = 16)
    (type : beAt bytes 0 1 / 16 = 8 ∨ beAt bytes 0 1 / 16 = 9) (ver : beAt bytes 0 1 % 16 = 1) :
    ∃ b, (linkBlocks l.dscr bytes).1 = [b] ∧ (takeBlock l b).err = false ∧ (takeBlock l b).done = [some bytes] := by
  rw [← blockType len.ge] at type
  rw [← blockVer len.ge] at ver
  refine ⟨_, linkBlocks_one len l.dscr, ?_, ?_⟩
  · rw [takeBlock_first lock idle (blockOf_lt bytes 0), Lane.step_err]
  · rw [takeBlock_first lock idle (blockOf_lt bytes 0), Lane.step_done, openBlock_short type ver, beBytes_one_block len]

/-- A packet of two blocks and another VER than 1 is discarded whole. -/
theorem discards_otherVer (lock : l.lock = true) (idle : ∀ bs n, l.rx ≠ some (bs, n + 1)) (len : bytes.length = 32)
    (type : beAt bytes 0 1 / 16 = 8 ∨ beAt bytes 0 1 / 16 = 9 ∨ beAt bytes 0 1 / 16 = 10) (ver : beAt bytes 0 1 % 16 ≠ 1)
    (few : ones (2 * l.errs % 2 ^ 64) < 16) :
    ∃ b c, (linkBlocks l.dscr bytes).1 = [b, c] ∧ (takeBlock l b).err = false ∧ (takeBlock l b).done = [none] ∧
      (takeBlock (takeBlock l b).lane c).err = false ∧ (takeBlock (takeBlock l b).lane c).done = [] := by
  have long : 16 ≤ bytes.length := by omega
  rw [← blockType long] at type
  rw [← blockVer long] at ver
  have opens := openBlock_otherVer type ver
  have second : takeBlock (l.hears (scramble 128 l.dscr (blockOf bytes 0)).2 (some ([], 0)))
      (lineBlock 1 (scramble 128 l.dscr (blockOf bytes 0)).2 (blockOf bytes 1)) = _ :=
    takeBlock_discard (l := l.hears _ _) lock rfl (blockOf_lt bytes 1)
  refine ⟨_, _, linkBlocks_two len l.dscr, ?_, ?_, ?_⟩
  · rw [takeBlock_first lock idle (blockOf_lt bytes 0), Lane.step_err]
  · rw [takeBlock_first lock idle (blockOf_lt bytes 0), Lane.step_done, opens]
  · rw [lane_takeBlock_first lock idle few (blockOf_lt bytes 0), opens, second]
    exact ⟨Lane.step_err .., Lane.step_done ..⟩

/-- A packet of two blocks comes out of a receiver in lock with its second block. -/
theorem receives_long (lock : l.lock = true) (idle : ∀ bs n, l.rx ≠ some (bs, n + 1)) (len : bytes.length = 32)
    (type : beAt bytes 0 1 / 16 = 10) (ver : beAt bytes 0 1 % 16 = 1) (few : ones (2 * l.errs % 2 ^ 64) < 16) :
    ∃ b c, (linkBlocks l.dscr bytes).1 = [b, c] ∧ (takeBlock l b).err = false ∧ (takeBlock l b).done = [] ∧
      (takeBlock (takeBlock l b).lane c).err = false ∧ (takeBlock (takeBlock l b).lane c).done = [some bytes] := by
  have long : 16 ≤ bytes.length := by omega
  rw [← blockType long] at type
  rw [← blockVer long] at ver
  have opens := openBlock_long type ver
  have second : takeBlock (l.hears (scramble 128 l.dscr (blockOf bytes 0)).2 (some (beBytes 16 (blockOf bytes 0), 1)))
      (lineBlock 1 (scramble 128 l.dscr (blockOf bytes 0)).2 (blockOf bytes 1)) = _ :=
    takeBlock_last (l := l.hears _ _) lock rfl (blockOf_lt bytes 1)
  refine ⟨_, _, linkBlocks_two len l.dscr, ?_, ?_, ?_⟩
  · rw [takeBlock_first lock idle (blockOf_lt bytes 0), Lane.step_err]
  · rw [takeBlock_first lock idle (blockOf_lt bytes 0), Lane.step_done, opens]
  · rw [lane_takeBlock_first lock idle few (blockOf_lt bytes 0), opens, second, beBytes_two_blocks len]
    exact ⟨Lane.step_err .., Lane.step_done ..⟩

end

/-! Pairing frames (R346) and lanes (R320). -/

theorem crcShift_lt {poly : Nat} (h : poly < 2 ^ 32) : ∀ (k : Nat) {r : Nat}, r < 2 ^ 32 → crcShift poly k r < 2 ^ 32
  | 0, _, lt => lt
  | k + 1, r, lt => by
    rw [crcShift]
    refine crcShift_lt h k ?_
    split
    · exact Nat.xor_lt_two_pow (by omega) h
    · omega

theorem crcByte_lt {poly r : Nat} (h : poly < 2 ^ 32) (lt : r < 2 ^ 32) (b : Byte) : crcByte poly r b < 2 ^ 32 :=
  crcShift_lt h 8 (Nat.xor_lt_two_pow lt (b.isLt.trans (by decide)))

theorem foldl_crcByte_lt {poly : Nat} (h : poly < 2 ^ 32) : ∀ (bs : List Byte) {r : Nat}, r < 2 ^ 32 → bs.foldl (crcByte poly) r < 2 ^ 32
  | [], _, lt => lt
  | b :: bs, _, lt => foldl_crcByte_lt h bs (crcByte_lt h lt b)

theorem crc32c_lt (bs : List Byte) : crc32c bs < 2 ^ 32 :=
  Nat.xor_lt_two_pow (foldl_crcByte_lt (by decide) bs (by decide)) (by decide)

/-- The bytes of a frame that its CRC covers. -/
def PairFrame.covered (f : PairFrame) : List Byte :=
  leBytes 1 f.type ++ (leBytes 1 f.flags ++ (leBytes 2 f.payload.length ++ (leBytes 4 f.seq ++ (leBytes 4 f.wln ++ f.payload))))

theorem length_covered (f : PairFrame) : f.covered.length = 12 + f.payload.length := by
  simp [PairFrame.covered]; omega

theorem sealFrame_eq (f : PairFrame) : sealFrame f = f.covered ++ leBytes 4 (crc32c f.covered) := by
  simp [sealFrame, PairFrame.covered]

/-- Each field of the header stands at its place, and the payload after them (Table 12-4). -/
theorem fields_sealFrame {f : PairFrame} (type : f.type < 256) (flags : f.flags < 256) (seq : f.seq < 2 ^ 32) (wln : f.wln < 2 ^ 32)
    (short : f.payload.length ≤ 4096) (c : List Byte) :
    leAt (f.covered ++ c) 0 1 = f.type ∧ leAt (f.covered ++ c) 1 1 = f.flags ∧ leAt (f.covered ++ c) 2 2 = f.payload.length ∧
      leAt (f.covered ++ c) 4 4 = f.seq ∧ leAt (f.covered ++ c) 8 4 = f.wln ∧
      ((f.covered ++ c).drop 12).take f.payload.length = f.payload := by
  simp only [PairFrame.covered, List.append_assoc]
  refine ⟨leAt_leBytes (a := []) _ rfl type, leAt_leBytes (a := leBytes 1 f.type) _ rfl flags, ?_, ?_, ?_, ?_⟩
  · simpa only [List.append_assoc] using leAt_leBytes (n := 2) (off := 2) (a := leBytes 1 f.type ++ leBytes 1 f.flags) _ rfl (by omega)
  · simpa only [List.append_assoc] using leAt_leBytes (off := 4) (a := leBytes 1 f.type ++ leBytes 1 f.flags ++ leBytes 2 f.payload.length) _ rfl seq
  · simpa only [List.append_assoc] using
      leAt_leBytes (off := 8) (a := leBytes 1 f.type ++ leBytes 1 f.flags ++ leBytes 2 f.payload.length ++ leBytes 4 f.seq) _ rfl wln
  · exact List.take_left' rfl

theorem openFrame_sealFrame {f : PairFrame} (type : f.type < 256) (flags : f.flags < 256) (seq : f.seq < 2 ^ 32) (wln : f.wln < 2 ^ 32)
    (short : f.payload.length ≤ 4096) : openFrame (sealFrame f) = some f := by
  have covered := length_covered f
  have crc : leAt (f.covered ++ leBytes 4 (crc32c f.covered)) (12 + f.payload.length) 4 = crc32c f.covered := by
    simpa using leAt_leBytes [] covered (crc32c_lt f.covered)
  obtain ⟨hType, hFlags, hLen, hSeq, hWln, hPayload⟩ := fields_sealFrame type flags seq wln short (leBytes 4 (crc32c f.covered))
  have len : (sealFrame f).length = 16 + f.payload.length := by rw [sealFrame_eq]; simp [covered]; omega
  have n : (sealFrame f).length - 16 = f.payload.length := by omega
  have cut : (sealFrame f).take (12 + f.payload.length) = f.covered := by rw [sealFrame_eq, List.take_left' covered]
  have whole : ¬((sealFrame f).length < 16 ∨ 4096 < f.payload.length ∨ leAt (sealFrame f) 2 2 ≠ f.payload.length ∨
      leAt (sealFrame f) (12 + f.payload.length) 4 ≠ crc32c ((sealFrame f).take (12 + f.payload.length))) := by
    rw [cut, sealFrame_eq, crc, hLen, ← sealFrame_eq]
    omega
  simp only [openFrame, n, if_neg whole]
  rw [sealFrame_eq, hType, hFlags, hSeq, hWln, hPayload]

/-- Symbol i of a stream stands on lane i mod 4, at place i / 4. -/
theorem getD_stripe (l : List PairSym) {i : Nat} (h : i < l.length) : ((stripe l).getD (i % 4) []).getD (i / 4) .k280 = l.getD i .k280 := by
  have lane : i % 4 < 4 := Nat.mod_lt _ (by decide)
  have col : i / 4 < (l.length + 3) / 4 := by omega
  simp [stripe, List.getD_eq_getElem?_getD, lane, col, Nat.div_add_mod]

/-! Words of Table 12-2 (R338). -/

theorem manchesterBits_manchester (l : List Bool) : manchesterBits (manchester l) = some l := by
  induction l with
  | nil => rfl
  | cons b r ih =>
    have turn : (!b) ≠ b := by cases b <;> decide
    rw [manchester] at ih
    simp [manchester, manchesterBits, turn, ih]

theorem length_msbBits (bs : List Byte) : (msbBits bs).length = 8 * bs.length := by
  simp [msbBits, List.length_flatMap]; omega

theorem bitsNat_append (a b : List Bool) : bitsNat (a ++ b) = bitsNat a * 2 ^ b.length + bitsNat b := by
  induction b using List.reverseRecOn with
  | nil => simp [bitsNat]
  | append_singleton r x ih =>
    rw [← List.append_assoc]
    simp only [bitsNat, List.foldl_append, List.foldl_cons, List.foldl_nil, List.length_append, List.length_cons, List.length_nil] at ih ⊢
    rw [ih]; ring

theorem bitsNat_byte (b : Byte) : bitsNat (msbBits [b]) = b.toNat := by
  revert b; decide +kernel

theorem bitsNat_msbBits (bs : List Byte) : bitsNat (msbBits bs) = beNat bs := by
  induction bs with
  | nil => rfl
  | cons b r ih =>
    have split : msbBits (b :: r) = msbBits [b] ++ msbBits r := by simp [msbBits]
    rw [split, bitsNat_append, bitsNat_byte, ih, length_msbBits, show b :: r = [b] ++ r from rfl, beNat_append, Nat.pow_mul]
    simp [beNat, leNat]

theorem rxWord_wordLevels (type : Nat) (w : BitVec 128) : rxWord type (.pin (wordLevels w)) = some w := by
  have bytes : beNat (beBytes 16 w.toNat) = w.toNat := beNat_beBytes w.isLt
  have split : msbBits (0xAA :: 0xAB :: beBytes 16 w.toNat) = msbBits [0xAA, 0xAB] ++ msbBits (beBytes 16 w.toNat) := by
    simp [msbBits]
  have head : (msbBits [0xAA, 0xAB]).length = 16 := rfl
  simp only [rxWord, wordLevels, manchesterBits_manchester, Option.bind_some, split, List.take_left' head, List.drop_left' head,
    List.length_append, head, length_msbBits, length_beBytes, bitsNat_msbBits, bytes]
  simp [beNat, leNat]

theorem rxWord_sealFrame {type flags seq wln : Nat} (w : BitVec 128) (ht : type < 256) (hf : flags < 256) (hs : seq < 2 ^ 32)
    (hw : wln < 2 ^ 32) : rxWord type (.stream (sealFrame ⟨type, flags, seq, wln, beBytes 16 w.toNat⟩)) = some w := by
  have opens := openFrame_sealFrame (f := ⟨type, flags, seq, wln, beBytes 16 w.toNat⟩) ht hf hs hw (by simp)
  have word : beAt (beBytes 16 w.toNat) 0 16 = w.toNat := by rw [beAt_all (length_beBytes 16 _), beNat_beBytes w.isLt]
  simp [rxWord, opens, word]

/-- The fields of a word of the beat's form before its CHECK, as one number. -/
def beatFields (type reason : Nat) (b : Beat) : Nat :=
  (((((((((type * 2 ^ 4 + b.state) * 2 + b2n b.windward) * 2 + b2n b.synced) * 2 + b2n b.strap) * 2 + b2n b.ready) * 2 ^ 4 + reason) * 2 ^ 32
    + b.epoch) * 2 ^ 16 + b.tag) * 2 ^ 16 + b.frame) * 2 ^ 16 + b.cut

theorem Beat.flags_lt_two (b : Beat) : b2n b.windward < 2 ∧ b2n b.synced < 2 ∧ b2n b.strap < 2 ∧ b2n b.ready < 2 :=
  ⟨b2n_lt_two _, b2n_lt_two _, b2n_lt_two _, b2n_lt_two _⟩

/-- The widths of a beat's fields (Table 12-2). -/
structure BeatFits (type reason : Nat) (b : Beat) : Prop where
  type   : type < 16
  reason : reason < 16
  state  : b.state < 16
  epoch  : b.epoch < 2 ^ 32
  tag    : b.tag < 2 ^ 16
  frame  : b.frame < 2 ^ 16
  cut    : b.cut < 2 ^ 16

theorem bits_eq_div_mod (v hi lo : Nat) : bits v hi lo = v / 2 ^ lo % 2 ^ (hi + 1 - lo) := by
  rw [bits, Nat.shiftRight_eq_div_pow]

theorem bit_of_div_mod {v i : Nat} {b : Bool} (h : v / 2 ^ i % 2 = b2n b) : bit v i = b := by
  rw [bit, Nat.testBit_eq_decide_div_mod_eq, h]
  cases b <;> rfl

section

variable {type reason : Nat} {b : Beat} (fits : BeatFits type reason b)
include fits

theorem beatFields_lt : beatFields type reason b < 2 ^ 96 := by
  obtain ⟨h1, h2, h3, h4, h5, h6, h7⟩ := fits
  obtain ⟨w, s, m, r⟩ := b.flags_lt_two
  unfold beatFields
  omega

theorem toNat_beatPack :
    (beatPack type reason b).toNat = beatFields type reason b * 2 ^ 32 + crc32c (beBytes 12 (beatFields type reason b)) := by
  have packed : [(type, 4), (b.state, 4), (b2n b.windward, 1), (b2n b.synced, 1), (b2n b.strap, 1), (b2n b.ready, 1), (reason, 4), (b.epoch, 32),
      (b.tag, 16), (b.frame, 16), (b.cut, 16)].foldl (fun (a : Nat) (f : Nat × Nat) => a * 2 ^ f.2 + f.1 % 2 ^ f.2) 0
      = beatFields type reason b := by
    obtain ⟨h1, h2, h3, h4, h5, h6, h7⟩ := fits
    obtain ⟨w, s, m, r⟩ := b.flags_lt_two
    simp only [List.foldl_cons, List.foldl_nil, beatFields]
    omega
  have fields := beatFields_lt fits
  have crc := crc32c_lt (beBytes 12 (beatFields type reason b))
  simp only [beatPack, packed]
  rw [BitVec.toNat_ofNat, Nat.mod_eq_of_lt]
  omega

theorem beatParse_beatPack : beatParse (beatPack type reason b) = some (type, b) := by
  have crc := crc32c_lt (beBytes 12 (beatFields type reason b))
  have whole := toNat_beatPack fits
  have high : (beatPack type reason b).toNat / 2 ^ 32 = beatFields type reason b := by rw [whole]; omega
  have low : (beatPack type reason b).toNat % 2 ^ 32 = crc32c (beBytes 12 (beatFields type reason b)) := by rw [whole]; omega
  have at_ : ∀ i, (beatPack type reason b).toNat / 2 ^ (32 + i) = beatFields type reason b / 2 ^ i := fun i => by
    rw [Nat.pow_add, ← Nat.div_div_eq_div_mul, high]
  obtain ⟨h1, h2, h3, h4, h5, h6, h7⟩ := fits
  obtain ⟨w, s, m, r⟩ := b.flags_lt_two
  have windward : bit (beatPack type reason b).toNat 119 = b.windward := bit_of_div_mod (by rw [at_ 87]; unfold beatFields; omega)
  have synced : bit (beatPack type reason b).toNat 118 = b.synced := bit_of_div_mod (by rw [at_ 86]; unfold beatFields; omega)
  have strap : bit (beatPack type reason b).toNat 117 = b.strap := bit_of_div_mod (by rw [at_ 85]; unfold beatFields; omega)
  have ready : bit (beatPack type reason b).toNat 116 = b.ready := bit_of_div_mod (by rw [at_ 84]; unfold beatFields; omega)
  have hType : bits (beatPack type reason b).toNat 127 124 = type := by rw [bits_eq_div_mod, at_ 92]; unfold beatFields; omega
  have state : bits (beatPack type reason b).toNat 123 120 = b.state := by rw [bits_eq_div_mod, at_ 88]; unfold beatFields; omega
  have epoch : bits (beatPack type reason b).toNat 111 80 = b.epoch := by rw [bits_eq_div_mod, at_ 48]; unfold beatFields; omega
  have tag : bits (beatPack type reason b).toNat 79 64 = b.tag := by rw [bits_eq_div_mod, at_ 32]; unfold beatFields; omega
  have frame : bits (beatPack type reason b).toNat 63 48 = b.frame := by rw [bits_eq_div_mod, at_ 16]; unfold beatFields; omega
  have cut : bits (beatPack type reason b).toNat 47 32 = b.cut := by rw [bits_eq_div_mod, at_ 0]; unfold beatFields; omega
  simp only [beatParse, high, low, ne_eq, not_true, if_false, windward, synced, strap, ready, hType, state, epoch, tag, frame, cut]

end

/-- Settles O43: a descrambler follows the scrambler that it listens to, a receiver in lock puts a packet's blocks together again, and a
frame, a lane and a word are taken apart where they were put together. -/
theorem linesCarryWhatIsSent : Obligations.LinesCarryWhatIsSent :=
  ⟨fun n r v lt => by rw [descramble_scramble, Nat.mod_eq_of_lt lt],
    fun _ _ lock idle => ⟨receives_short lock idle, discards_otherVer lock idle, receives_long lock idle⟩,
    fun _ type flags seq wln short => openFrame_sealFrame type flags seq wln short,
    fun l _ h => getD_stripe l h,
    fun type _ _ _ w ht hf hs hw => ⟨rxWord_wordLevels type w, rxWord_sealFrame w ht hf hs hw⟩,
    fun _ _ _ ht hr hs he hg hf hc => beatParse_beatPack ⟨ht, hr, hs, he, hg, hf, hc⟩⟩

end Sys2Proof.Machine
end

section
/-!
PROOFS. The tile link's operations as rules: what the release of packets, the pointers of a retransmit FIFO and a report of a tile leave
alone, and what they do to the packets of a lane.
-/

namespace Sys2Proof.Machine
namespace Dev

/-! What the link's operations leave alone. -/

/-- The fields that the FIFO of a lane, the stale tiles of its chain and the event log show. -/
def linkKeys (k : Nat) : List Nat :=
  [R.ERR_DROPPED.key, (R.MVL_EXHAUSTED k).key, (R.MVL_CANCELLED k).key, (R.MVL_LSTAT_SEG_LOSS k).key, (R.MVL_SEG_EPISODES k).key,
    (R.MVL_FIFO_USED k).key, (R.MVL_FIFO_PEAK k).key, (R.MVL_LSTAT_BACKPRESSURE k).key, (R.MVL_STALE_TILES k).key]

/-- Where those of the lane stand among its registers (Table 10-13). -/
def linkOffsets : List Nat := [8 * 0x24, 8 * 0x28, 2, 8 * 0x2C, 8 * 4, 8 * 4 + 16, 1, 8 * 8]

theorem mem_linkKeys {k x : Nat} : x ∈ linkKeys k ↔ x = R.ERR_DROPPED.key ∨ ∃ o ∈ linkOffsets, x = 8 * (0x241000 + 0x40 * k) + o := by
  simp only [linkKeys, linkOffsets, R.MVL_EXHAUSTED, R.MVL_CANCELLED, R.MVL_LSTAT_SEG_LOSS, R.MVL_SEG_EPISODES, R.MVL_FIFO_USED, R.MVL_FIFO_PEAK,
    R.MVL_LSTAT_BACKPRESSURE, R.MVL_STALE_TILES, List.mem_cons, List.not_mem_nil, or_false, exists_eq_or_imp, exists_eq_left]
  omega

/-- Every other block's field, but ERR's, is none of them. -/
theorem notMem_linkKeys_of_window {k x : Nat} (lt : k < 64) (err : x / 524288 ≠ 4) (mvl : x / 524288 ≠ 0x24) : x ∉ linkKeys k := by
  intro m
  rcases mem_linkKeys.mp m with rfl | ⟨o, ho, rfl⟩
  · exact err rfl
  · have : o < 512 := (show ∀ o ∈ linkOffsets, o < 512 by decide) o ho
    omega

/-- Of the lane's own registers, one at another place is none of them. -/
theorem notMem_linkKeys_of_offset {k o : Nat} (other : o ∉ linkOffsets) : 8 * (0x241000 + 0x40 * k) + o ∉ linkKeys k := by
  intro m
  rcases mem_linkKeys.mp m with h | ⟨x, hx, h⟩
  · simp only [R.ERR_DROPPED] at h
    omega
  · exact other (by rwa [show o = x by omega])

/-- e has of d: OFF, the DRAM writes made, the redundancy control, wall time, the tile link but for its lanes and its stale timers, and every
register but those that a lane's FIFO, its stale tiles and the event log show; time has not gone back. -/
structure Stays (k : Nat) (d e : Dev) : Prop where
  off  : e.off = d.off
  wq   : e.wq = d.wq
  now  : d.now ≤ e.now
  pair : e.pair = d.pair
  wtm  : e.wtm = d.wtm
  link : e.link = { d.link with lanes := e.link.lanes, heard := e.link.heard }
  rd   : ∀ f : Fld, f.key ∉ linkKeys k → e.rd f = d.rd f

namespace Stays

variable {k : Nat} {c d e : Dev}

theorem refl : Stays k d d := ⟨rfl, rfl, le_rfl, rfl, rfl, rfl, fun _ _ => rfl⟩

theorem trans (h : Stays k c d) (h' : Stays k d e) : Stays k c e :=
  ⟨h'.off.trans h.off, h'.wq.trans h.wq, h.now.trans h'.now, h'.pair.trans h.pair, h'.wtm.trans h.wtm, by rw [h'.link, h.link],
    fun f n => (h'.rd f n).trans (h.rd f n)⟩

/-- A change of parts that this says nothing of. -/
theorem parts {e' : Dev} (h : Stays k d e) (off : e'.off = e.off) (wq : e'.wq = e.wq) (now : e.now ≤ e'.now) (pair : e'.pair = e.pair)
    (wtm : e'.wtm = e.wtm) (link : e'.link = { e.link with lanes := e'.link.lanes, heard := e'.link.heard })
    (regs : e'.regs = e.regs) : Stays k d e' :=
  h.trans ⟨off, wq, now, pair, wtm, link, fun f _ => congrArg (fun r => (SMap.find? r f.key).getD f.reset) regs⟩

theorem wr {f : Fld} {v : Nat} (m : f.key ∈ linkKeys k) (h : Stays k d e) : Stays k d (e.wr f v) :=
  h.trans ⟨rfl, rfl, le_rfl, rfl, rfl, rfl, fun _ n => rd_wr_ne _ _ _ _ fun c => n (c ▸ m)⟩

theorem wrb {f : Fld} {v : Bool} (m : f.key ∈ linkKeys k) (h : Stays k d e) : Stays k d (e.wrb f v) := h.wr m
theorem cnt {f : Fld} (m : f.key ∈ linkKeys k) (h : Stays k d e) : Stays k d (e.cnt f) := h.wr m

theorem log {s i c x y p : Nat} (h : Stays k d e) : Stays k d (e.log s i c x y p) :=
  h.trans ⟨log_off .., log_wq .., (log_now ..).ge, log_pair .., log_wtm .., by rw [log_link],
    fun _ n => rd_log _ _ _ _ _ _ _ _ fun c => n (by simp [linkKeys, c])⟩

theorem ite {p : Prop} [Decidable p] {a b : Dev} (ha : Stays k d a) (hb : Stays k d b) : Stays k d (if p then a else b) := by
  split
  · exact ha
  · exact hb

theorem flag {i c : Nat} {f : Fld} {l v : Bool} (m : f.key ∈ linkKeys k) (h : Stays k d e) : Stays k d (e.flag i f c l v) :=
  ite h (ite (h.wrb m).log (ite (h.wrb m).log (h.wrb m)))

theorem putTile {t : TileLink} (h : Stays k d e) : Stays k d (e.putTile t) := h.parts rfl rfl le_rfl rfl rfl rfl rfl
theorem putLane {i : Nat} {l : Lane} (h : Stays k d e) : Stays k d (e.putLane i l) := h.parts rfl rfl le_rfl rfl rfl rfl rfl
theorem setHeard {x : List (Nat × Time)} (h : Stays k d e) : Stays k d { e with link := { e.link with heard := x } } :=
  h.parts rfl rfl le_rfl rfl rfl rfl rfl
theorem upTo {t : Time} (h : Stays k d e) : Stays k d (e.upTo t) := h.parts rfl rfl (Nat.le_max_left ..) rfl rfl rfl rfl
theorem setOwnBit {t i : Nat} {v : Bool} (h : Stays k d e) : Stays k d (e.setOwnBit t i v) := h.putTile

/-! What follows of the parts that stay. -/

theorem ct (h : Stays k d e) : e.link.ct = d.link.ct := by rw [h.link]
theorem spoke (h : Stays k d e) : e.link.spoke = d.link.spoke := by rw [h.link]
theorem myEnd (h : Stays k d e) : e.myEnd = d.myEnd := by rw [Dev.myEnd, h.link]; rfl
theorem tilePlace (h : Stays k d e) (t : Nat) : e.tilePlace t = d.tilePlace t := by rw [Dev.tilePlace, h.link]; rfl
theorem pastDeadline (h : Stays k d e) (n : Nat) : e.pastDeadline n = d.pastDeadline n := by rw [Dev.pastDeadline, h.wtm]; rfl
theorem state (h : Stays k d e) (lt : k < 64) : e.state = d.state := by
  simp only [Dev.state, h.off, h.rd R.TOP_STATE (notMem_linkKeys_of_window lt (by decide) (by decide))]
theorem epoch (h : Stays k d e) (lt : k < 64) : e.epoch = d.epoch :=
  h.rd R.VEER_EPOCH (notMem_linkKeys_of_window lt (by decide) (by decide))

/-- The windows of ERR and MVL hold what changes. -/
theorem keeps (h : Stays k d e) (lt : k < 64) : Keeps [4, 0x24] d e :=
  ⟨h.off, h.wq, fun f n => h.rd f (notMem_linkKeys_of_window lt (fun c => n (by simp [c])) fun c => n (by simp [c]))⟩

end Stays

/-! Packets in a FIFO (R283, R284, R286). -/

end Dev

/-- A packet as it stands after releases: RELEASED and what R301 counts of it may have changed, and what was released is so still. -/
structure Pkt.Later (p q : Pkt) : Prop where
  same : q = { p with released := q.released, lost := q.lost }
  released : p.released = true → q.released = true

namespace Pkt.Later

variable {p q r : Pkt}

theorem refl : Pkt.Later p p := ⟨rfl, id⟩
theorem trans (h : Pkt.Later p q) (h' : Pkt.Later q r) : Pkt.Later p r := ⟨by rw [h'.same, h.same], fun x => h'.released (h.released x)⟩
theorem setReleased : Pkt.Later p { p with released := true } := ⟨rfl, fun _ => rfl⟩
theorem setLost {b : Bool} : Pkt.Later p { p with lost := b } := ⟨rfl, id⟩
theorem tile (h : Pkt.Later p q) : q.tile = p.tile := by rw [h.same]
theorem seq (h : Pkt.Later p q) : q.seq = p.seq := by rw [h.same]
theorem dead (h : Pkt.Later p q) : q.dead = p.dead := by rw [h.same]
theorem sends (h : Pkt.Later p q) : q.sends = p.sends := by rw [h.same]

end Pkt.Later

/-- Releases in a FIFO: each packet stands where it stood, as it was but for them. -/
structure LaterFifo (l m : List Pkt) : Prop where
  length : m.length = l.length
  back   : ∀ (i : Nat) (q : Pkt), m[i]? = some q → ∃ p, l[i]? = some p ∧ Pkt.Later p q

namespace LaterFifo

variable {l m n : List Pkt}

theorem refl : LaterFifo l l := ⟨rfl, fun _ q h => ⟨q, h, .refl⟩⟩

theorem trans (h : LaterFifo l m) (h' : LaterFifo m n) : LaterFifo l n := by
  refine ⟨h'.length.trans h.length, fun i r hr => ?_⟩
  obtain ⟨q, hq, later⟩ := h'.back i r hr
  obtain ⟨p, hp, later'⟩ := h.back i q hq
  exact ⟨p, hp, later'.trans later⟩

/-- Each packet changes alone. -/
theorem of_get {f : Nat → Pkt → Pkt} (length : m.length = l.length) (get : ∀ i, m[i]? = l[i]?.map (f i))
    (later : ∀ i p, Pkt.Later p (f i p)) :
    LaterFifo l m := by
  refine ⟨length, fun i q hq => ?_⟩
  rw [get] at hq
  obtain ⟨p, hp, rfl⟩ := Option.map_eq_some_iff.mp hq
  exact ⟨p, hp, later i p⟩

theorem map_lost (b : Bool) : LaterFifo l (l.map fun p => { p with lost := b }) :=
  of_get (f := fun _ p => { p with lost := b }) (by simp) (by simp) fun _ _ => .setLost

theorem modify_lost (i : Nat) : LaterFifo l (l.modify i fun p => { p with lost := true }) :=
  of_get (f := fun j p => if i = j then { p with lost := true } else p) (by simp)
    (fun j => by rw [List.getElem?_modify]; split <;> simp_all) fun j p => by split; exacts [.setLost, .refl]

theorem set_released {i : Nat} {p : Pkt} (h : l[i]? = some p) : LaterFifo l (setAt l i { p with released := true }) := by
  refine ⟨by simp [setAt], fun j q hq => ?_⟩
  rw [setAt, List.getElem?_set] at hq
  split at hq
  · next e =>
    subst e
    split at hq
    · exact ⟨p, h, by cases hq; exact .setReleased⟩
    · cases hq
  · exact ⟨q, hq, .refl⟩

end LaterFifo

namespace Dev

/-- Two devices differ, as far as lane k and the tiles go, in the packets of its FIFO, its pointers and the floors of the tiles. -/
structure OnFifo (k : Nat) (d e : Dev) : Prop where
  stays : Stays k d e
  lane  : ∃ fifo tx upTo exh, e.lane k = { d.lane k with fifo := fifo, tx := tx, upTo := upTo, exh := exh }
  tile  : ∀ i, ∃ n, e.tileLink i = { d.tileLink i with floor := n }

/-- Packets of lane k have been released. -/
structure Released (k : Nat) (d e : Dev) : Prop where
  stays : Stays k d e
  lane  : ∃ fifo exh, e.lane k = { d.lane k with fifo := fifo, exh := exh }
  tile  : ∀ i, ∃ n, e.tileLink i = { d.tileLink i with floor := n }
  fifo  : LaterFifo (d.lane k).fifo (e.lane k).fifo

namespace OnFifo

variable {k : Nat} {c d e : Dev}

theorem refl : OnFifo k d d := ⟨.refl, ⟨_, _, _, _, rfl⟩, fun _ => ⟨_, rfl⟩⟩

theorem trans (h : OnFifo k c d) (h' : OnFifo k d e) : OnFifo k c e := by
  refine ⟨h.stays.trans h'.stays, ?_, fun i => ?_⟩
  · obtain ⟨_, _, _, _, lane⟩ := h.lane
    obtain ⟨f, x, u, n, lane'⟩ := h'.lane
    exact ⟨f, x, u, n, by rw [lane', lane]⟩
  · obtain ⟨_, tile⟩ := h.tile i
    obtain ⟨n, tile'⟩ := h'.tile i
    exact ⟨n, by rw [tile', tile]⟩

/-- Registers that a lane's FIFO shows are written. -/
theorem wr {f : Fld} {v : Nat} (m : f.key ∈ linkKeys k) (h : OnFifo k d e) : OnFifo k d (e.wr f v) := ⟨h.stays.wr m, h.lane, h.tile⟩

end OnFifo

namespace Released

variable {k : Nat} {c d e : Dev}

theorem refl : Released k d d := ⟨.refl, ⟨_, _, rfl⟩, fun _ => ⟨_, rfl⟩, .refl⟩

theorem trans (h : Released k c d) (h' : Released k d e) : Released k c e := by
  refine ⟨h.stays.trans h'.stays, ?_, fun i => ?_, h.fifo.trans h'.fifo⟩
  · obtain ⟨_, _, lane⟩ := h.lane
    obtain ⟨f, n, lane'⟩ := h'.lane
    exact ⟨f, n, by rw [lane', lane]⟩
  · obtain ⟨_, tile⟩ := h.tile i
    obtain ⟨n, tile'⟩ := h'.tile i
    exact ⟨n, by rw [tile', tile]⟩

theorem onFifo (h : Released k d e) : OnFifo k d e := by
  obtain ⟨f, n, lane⟩ := h.lane
  exact ⟨h.stays, ⟨f, _, _, n, lane⟩, h.tile⟩

/-- The lane's transmit pointers stay. -/
theorem tx (h : Released k d e) : (e.lane k).tx = (d.lane k).tx := by
  obtain ⟨_, _, lane⟩ := h.lane
  rw [lane]

/-- Parts that this says nothing of change. -/
theorem parts {e' : Dev} (h : Released k d e) (stays : Stays k e e') (lanes : e'.link.lanes = e.link.lanes) (tiles : e'.tiles = e.tiles) :
    Released k d e' := by
  have lane : e'.lane k = e.lane k := by rw [Dev.lane, lanes]; rfl
  have tile : ∀ i, e'.tileLink i = e.tileLink i := fun i => by rw [tileLink, tiles]; rfl
  exact h.trans ⟨stays, ⟨_, _, lane⟩, fun i => ⟨_, tile i⟩, lane ▸ .refl⟩

theorem ite {p : Prop} [Decidable p] {a b : Dev} (ha : Released k d a) (hb : Released k d b) : Released k d (if p then a else b) := by
  split
  · exact ha
  · exact hb

theorem cnt {f : Fld} (m : f.key ∈ linkKeys k) (h : Released k d e) : Released k d (e.cnt f) := h.parts (Stays.refl.cnt m) rfl rfl

theorem flag {i c : Nat} {f : Fld} {l v : Bool} (m : f.key ∈ linkKeys k) (h : Released k d e) : Released k d (e.flag i f c l v) :=
  h.parts (Stays.refl.flag m) (by rw [flag_link]) (flag_tiles ..)

/-- A lane takes packets that differ in what releases change. -/
theorem putLane (lt : k < 64) {fifo : List Pkt} {exh : Nat} (h : Released k d e) (later : LaterFifo (e.lane k).fifo fifo) :
    Released k d (e.putLane k { e.lane k with fifo := fifo, exh := exh }) :=
  h.trans ⟨Stays.refl.putLane, ⟨fifo, exh, lane_putLane _ _ lt⟩, fun _ => ⟨_, rfl⟩, by rw [lane_putLane _ _ lt]; exact later⟩

theorem showFloor {t : Nat} (h : Released k d e) : Released k d (e.showFloor k t) := by
  refine h.trans ⟨Stays.refl.putTile, ⟨_, _, rfl⟩, fun i => ?_, .refl⟩
  by_cases c : i = t
  · subst c
    refine ⟨e.floorOf k i, ?_⟩
    have put := e.tileLink_putTile { e.tileLink i with floor := e.floorOf k i }
    rwa [show (TileLink.id { e.tileLink i with floor := e.floorOf k i }) = i from e.tileLink_id i] at put
  · have id : (TileLink.id { e.tileLink t with floor := e.floorOf k t }) = t := e.tileLink_id t
    exact ⟨_, tileLink_putTile_ne _ _ (by rw [id]; exact c)⟩

theorem segCount (lt : k < 64) (h : Released k d e) (i : Nat) (why : Release) : Released k d (e.segCount k i why) := by
  unfold Dev.segCount
  cases why with
  | exhausted =>
    refine ite h (ite ?_ ?_)
    · exact ((h.putLane lt (.modify_lost i)).flag (by simp [linkKeys])).cnt (by simp [linkKeys])
    · exact h.putLane lt (.modify_lost i)
  | ack => exact ite h ((h.putLane lt (.map_lost false)).flag (by simp [linkKeys]))
  | cancelled => exact h
  | once => exact h

end Released

section

variable {k : Nat} {d : Dev}

/-! One packet is released (R284). -/

/-- The packet at an index is marked RELEASED. -/
def markReleased (d : Dev) (k i : Nat) (p : Pkt) : Dev :=
  d.putLane k { d.lane k with fifo := setAt (d.lane k).fifo i { p with released := true } }

/-- A release is counted by its reason (Table 10-13). -/
def countRelease (d : Dev) (k : Nat) : Release → Dev
  | .exhausted => d.cnt (R.MVL_EXHAUSTED k)
  | .cancelled => d.cnt (R.MVL_CANCELLED k)
  | _ => d

theorem releaseAt_eq {i : Nat} {p : Pkt} (h : (d.lane k).fifo[i]? = some p) (fresh : p.released = false) (why : Release) :
    d.releaseAt k i why = (((d.markReleased k i p).countRelease k why).segCount k i why).showFloor k p.tile := by
  cases why <;> simp [releaseAt, h, fresh, markReleased, countRelease]

theorem releaseAt_released {i : Nat} {p : Pkt} (h : (d.lane k).fifo[i]? = some p) (done : p.released = true) (why : Release) :
    d.releaseAt k i why = d := by simp [releaseAt, h, done]

theorem releaseAt_none {i : Nat} (h : (d.lane k).fifo[i]? = none) (why : Release) : d.releaseAt k i why = d := by simp [releaseAt, h]

theorem countRelease_keeps (why : Release) : Released k d (d.countRelease k why) := by
  cases why
  case exhausted => exact Released.refl.cnt (by simp [linkKeys])
  case cancelled => exact Released.refl.cnt (by simp [linkKeys])
  all_goals exact .refl

/-- What follows the mark changes no more than a release does. -/
theorem released_of_mark (lt : k < 64) {i : Nat} {p : Pkt} (h : (d.lane k).fifo[i]? = some p) (fresh : p.released = false) (why : Release) :
    Released k (d.markReleased k i p) (d.releaseAt k i why) := by
  rw [releaseAt_eq h fresh]
  exact ((countRelease_keeps why).segCount lt i why).showFloor

theorem released_releaseAt (lt : k < 64) (i : Nat) (why : Release) : Released k d (d.releaseAt k i why) := by
  cases h : (d.lane k).fifo[i]? with
  | none => rw [releaseAt_none h]; exact .refl
  | some p =>
    cases r : p.released with
    | true => rw [releaseAt_released h r]; exact .refl
    | false => exact (Released.refl.putLane lt (.set_released h)).trans (released_of_mark lt h r why)

/-- The packet at the index is released. -/
theorem releaseAt_get (lt : k < 64) {i : Nat} (why : Release) {q : Pkt} (h : ((d.releaseAt k i why).lane k).fifo[i]? = some q) :
    q.released = true := by
  cases hp : (d.lane k).fifo[i]? with
  | none =>
    rw [releaseAt_none hp, hp] at h
    cases h
  | some p =>
    cases r : p.released with
    | true =>
      rw [releaseAt_released hp r, hp] at h
      exact Option.some.inj h ▸ r
    | false =>
      obtain ⟨p', hp', later⟩ := (released_of_mark lt hp r why).fifo.back i q h
      have inside : i < (d.lane k).fifo.length := (List.getElem?_eq_some_iff.mp hp).1
      rw [markReleased, lane_putLane _ _ lt] at hp'
      simp only [setAt, List.getElem?_set_self inside, Option.some.injEq] at hp'
      exact later.released (hp' ▸ rfl)

theorem segCount_exhausted_get_ne (lt : k < 64) {i j : Nat} (ne : j ≠ i) :
    ((d.segCount k i .exhausted).lane k).fifo[j]? = (d.lane k).fifo[j]? := by
  have put : ((d.putLane k { d.lane k with fifo := (d.lane k).fifo.modify i fun p => { p with lost := true } }).lane k).fifo[j]?
      = (d.lane k).fifo[j]? := by
    rw [lane_putLane _ _ lt]
    simp [Ne.symm ne]
  simp only [segCount]
  split
  · rfl
  · split
    · rw [Dev.lane, cnt_link, flag_link]
      exact put
    · exact put

/-- A release as exhausted leaves every other packet as it was. -/
theorem releaseAt_exhausted_get_ne (lt : k < 64) {i j : Nat} (ne : j ≠ i) :
    ((d.releaseAt k i .exhausted).lane k).fifo[j]? = (d.lane k).fifo[j]? := by
  cases h : (d.lane k).fifo[i]? with
  | none => rw [releaseAt_none h]
  | some p =>
    cases r : p.released with
    | true => rw [releaseAt_released h r]
    | false =>
      have shown : ∀ e : Dev, (e.showFloor k p.tile).lane k = e.lane k := fun _ => rfl
      rw [releaseAt_eq h r, shown, segCount_exhausted_get_ne lt ne, countRelease, Dev.lane, cnt_link, ← Dev.lane, markReleased,
        lane_putLane _ _ lt, setAt, List.getElem?_set_ne (Ne.symm ne)]

/-! Space becomes free (R284). -/

theorem onFifo_showFifo : OnFifo k d (d.showFifo k) := by
  have used : OnFifo k d (d.wr (R.MVL_FIFO_USED k) (fifoUsed (d.lane k))) := OnFifo.refl.wr (by simp [linkKeys])
  unfold showFifo
  dsimp only
  split
  · exact (used.wr (by simp [linkKeys])).wr (by simp [linkKeys])
  · exact used.wr (by simp [linkKeys])

theorem link_showFifo : (d.showFifo k).link = d.link := by
  simp only [showFifo, wrb_link, apply_ite Dev.link, wr_link, ite_self]

/-- How many packets go from the oldest end. -/
def freed (l : Lane) : Nat := (l.fifo.takeWhile fun p => p.released).length

theorem lane_trim (lt : k < 64) : (d.trim k).lane k = { d.lane k with
    fifo := (d.lane k).fifo.drop (freed (d.lane k)), tx := (d.lane k).tx - freed (d.lane k), upTo := (d.lane k).upTo - freed (d.lane k),
    exh := lostRun (d.lane k).exh ((d.lane k).fifo.take (freed (d.lane k))) } := by
  rw [trim, Dev.lane, link_showFifo, ← Dev.lane, lane_putLane _ _ lt]
  rfl

theorem onFifo_trim (lt : k < 64) : OnFifo k d (d.trim k) :=
  OnFifo.trans ⟨Stays.refl.putLane, ⟨_, _, _, _, lane_putLane _ _ lt⟩, fun _ => ⟨_, rfl⟩⟩ onFifo_showFifo

theorem length_takeWhile_le {l : List Pkt} {i : Nat} {p : Pkt} (h : l[i]? = some p) (fresh : p.released = false) :
    (l.takeWhile fun p => p.released).length ≤ i := by
  induction l generalizing i with
  | nil => exact Nat.zero_le _
  | cons x r ih =>
    cases hx : x.released with
    | false => simp [hx]
    | true =>
      cases i with
      | zero =>
        obtain rfl : x = p := by simpa using h
        rw [fresh] at hx
        cases hx
      | succ i => simpa [List.takeWhile_cons, hx] using ih (i := i) (by simpa using h)

/-- A packet that has not been released and is to be sent next is so when space has become free. -/
theorem trim_next (lt : k < 64) {p : Pkt} (h : (d.lane k).fifo[(d.lane k).tx]? = some p) (fresh : p.released = false) :
    ((d.trim k).lane k).fifo[((d.trim k).lane k).tx]? = some p := by
  have le : freed (d.lane k) ≤ (d.lane k).tx := length_takeWhile_le h fresh
  rw [lane_trim lt]
  simpa [List.getElem?_drop, Nat.add_sub_cancel' le] using h

/-! A rewind (R286). -/

/-- Packet j of the FIFO is released as exhausted where a rewind to packet i would send it a fourth time. -/
def rewindStep (k i : Nat) (d : Dev) (j : Nat) : Dev :=
  match (d.lane k).fifo[j]? with
  | some p => if decide (i ≤ j) && decide (3 ≤ p.sends) then d.releaseAt k j .exhausted else d
  | none => d

/-- The transmit pointer goes back to packet i. -/
def pointTo (d : Dev) (k i : Nat) : Dev := d.putLane k { d.lane k with tx := i, upTo := Nat.max (d.lane k).upTo (d.lane k).tx }

theorem rewind_eq (i : Nat) : d.rewind k i = ((List.range (d.lane k).fifo.length).foldl (rewindStep k i) (d.pointTo k i)).trim k := rfl

theorem released_rewindStep (lt : k < 64) (i j : Nat) : Released k d (rewindStep k i d j) := by
  unfold rewindStep
  split
  · exact .ite (released_releaseAt lt j .exhausted) .refl
  · exact .refl

/-- A packet that a rewind may send stays as it was. -/
theorem rewindStep_get (lt : k < 64) {i j m : Nat} {p : Pkt} (h : (d.lane k).fifo[m]? = some p) (few : p.sends < 3) :
    ((rewindStep k i d j).lane k).fifo[m]? = some p := by
  unfold rewindStep
  split
  · next q hq =>
    split
    · next c =>
      have ne : m ≠ j := by
        rintro rfl
        obtain rfl : p = q := by rw [h] at hq; exact Option.some.inj hq
        simp only [Bool.and_eq_true, decide_eq_true_eq] at c
        omega
      rw [releaseAt_exhausted_get_ne lt ne, h]
    · exact h
  · exact h

theorem rewindLoop (lt : k < 64) (i : Nat) : ∀ (l : List Nat) (d : Dev), Released k d (l.foldl (rewindStep k i) d) ∧
    ∀ (m : Nat) (p : Pkt), (d.lane k).fifo[m]? = some p → p.sends < 3 → ((l.foldl (rewindStep k i) d).lane k).fifo[m]? = some p
  | [], _ => ⟨.refl, fun _ _ h _ => h⟩
  | j :: l, d => by
    obtain ⟨released, same⟩ := rewindLoop lt i l (rewindStep k i d j)
    exact ⟨(released_rewindStep lt i j).trans released, fun m p h few => same m p (rewindStep_get lt h few) few⟩

theorem onFifo_pointTo (lt : k < 64) (i : Nat) : OnFifo k d (d.pointTo k i) :=
  ⟨Stays.refl.putLane, ⟨_, _, _, _, lane_putLane _ _ lt⟩, fun _ => ⟨_, rfl⟩⟩

theorem onFifo_rewind (lt : k < 64) (i : Nat) : OnFifo k d (d.rewind k i) := by
  rw [rewind_eq]
  exact ((onFifo_pointTo lt i).trans (rewindLoop lt i _ _).1.onFifo).trans (onFifo_trim lt)

/-- The packet to which a rewind goes is the next to be sent. -/
theorem rewind_next (lt : k < 64) {i : Nat} {p : Pkt} (h : (d.lane k).fifo[i]? = some p) (fresh : p.released = false) (few : p.sends < 3) :
    ((d.rewind k i).lane k).fifo[((d.rewind k i).lane k).tx]? = some p := by
  obtain ⟨released, same⟩ := rewindLoop lt i (List.range (d.lane k).fifo.length) (d.pointTo k i)
  have pointed : (d.pointTo k i).lane k = { d.lane k with tx := i, upTo := Nat.max (d.lane k).upTo (d.lane k).tx } := lane_putLane _ _ lt
  have at_ := same i p (by rw [pointed]; exact h) few
  rw [rewind_eq]
  refine trim_next lt ?_ fresh
  rw [released.tx, pointed]
  exact at_

/-! Packets are released by a test (R284). -/

/-- A test that looks at nothing which a release changes. -/
def Stable (test : Pkt → Bool) : Prop := ∀ p q, Pkt.Later p q → test q = test p

/-- Packet i of the FIFO is released where it satisfies a test. -/
def releaseStep (k : Nat) (test : Pkt → Bool) (why : Release) (d : Dev) (i : Nat) : Dev :=
  match (d.lane k).fifo[i]? with
  | some p => if !p.released && test p then d.releaseAt k i why else d
  | none => d

theorem releaseAll_eq (test : Pkt → Bool) (why : Release) :
    d.releaseAll k test why = ((List.range (d.lane k).fifo.length).foldl (releaseStep k test why) d).trim k := rfl

theorem released_releaseStep (lt : k < 64) (test : Pkt → Bool) (why : Release) (i : Nat) : Released k d (releaseStep k test why d i) := by
  unfold releaseStep
  split
  · exact .ite (released_releaseAt lt i why) .refl
  · exact .refl

theorem releaseStep_get (lt : k < 64) {test : Pkt → Bool} (why : Release) {i : Nat} {q : Pkt}
    (h : ((releaseStep k test why d i).lane k).fifo[i]? = some q) (t : test q = true) : q.released = true := by
  unfold releaseStep at h
  split at h
  · next p hp =>
    split at h
    · exact releaseAt_get lt why h
    · next n =>
      rw [hp] at h
      simp only [Option.some.injEq] at h
      subst h
      simpa [t] using n
  · next hp =>
    rw [hp] at h
    cases h

theorem releaseLoop (lt : k < 64) {test : Pkt → Bool} (stable : Stable test) (why : Release) (n : Nat) :
    Released k d ((List.range n).foldl (releaseStep k test why) d) ∧
      ∀ i < n, ∀ q, (((List.range n).foldl (releaseStep k test why) d).lane k).fifo[i]? = some q → test q = true → q.released = true := by
  induction n with
  | zero => exact ⟨.refl, fun _ h => absurd h (Nat.not_lt_zero _)⟩
  | succ n ih =>
    rw [List.range_succ, List.foldl_append, List.foldl_cons, List.foldl_nil]
    obtain ⟨before, done⟩ := ih
    generalize (List.range n).foldl (releaseStep k test why) d = e at before done ⊢
    have step := released_releaseStep (d := e) lt test why n
    refine ⟨before.trans step, fun i hi q hq t => ?_⟩
    obtain ⟨p, hp, later⟩ := step.fifo.back i q hq
    rcases Nat.lt_succ_iff_lt_or_eq.mp hi with less | rfl
    · exact later.released (done i less p hp (stable p q later ▸ t))
    · exact releaseStep_get lt why hq t

theorem onFifo_releaseAll (lt : k < 64) {test : Pkt → Bool} (stable : Stable test) (why : Release) : OnFifo k d (d.releaseAll k test why) := by
  rw [releaseAll_eq]
  exact (releaseLoop lt stable why _).1.onFifo.trans (onFifo_trim lt)

/-- Every packet that satisfies the test has been released. -/
theorem releaseAll_mem (lt : k < 64) {test : Pkt → Bool} (stable : Stable test) (why : Release) {q : Pkt}
    (h : q ∈ ((d.releaseAll k test why).lane k).fifo) (t : test q = true) : q.released = true := by
  obtain ⟨released, done⟩ := releaseLoop (d := d) lt stable why (d.lane k).fifo.length
  rw [releaseAll_eq, lane_trim lt] at h
  obtain ⟨i, hi⟩ := List.mem_iff_getElem?.mp (List.mem_of_mem_drop h)
  refine done i ?_ q hi t
  rw [← released.fifo.length]
  exact (List.getElem?_eq_some_iff.mp hi).1

end

end Dev
end Sys2Proof.Machine
end

section
/-!
PROOFS. Return packets (Table 10-6): how a receiver that listens takes the blocks of a packet, what a report of a tile changes, and what an AK, an
NK and a TL do besides.
-/

namespace Sys2Proof.Machine

/-! Lanes that differ in their receivers' registers alone. -/

namespace Lane.AsBut

variable {l m n : Lane}

theorem refl : Lane.AsBut l l := rfl
theorem trans (h : Lane.AsBut l m) (h' : Lane.AsBut m n) : Lane.AsBut l n := Eq.trans h h'
theorem symm (h : Lane.AsBut l m) : Lane.AsBut m l := Eq.symm h
theorem eq (h : Lane.AsBut l m) : { l with dscr := 0, errs := 0, rx := none } = { m with dscr := 0, errs := 0, rx := none } := h
theorem fifo (h : Lane.AsBut l m) : l.fifo = m.fifo := (congrArg Lane.fifo h.eq :)
theorem tx (h : Lane.AsBut l m) : l.tx = m.tx := (congrArg Lane.tx h.eq :)
theorem upTo (h : Lane.AsBut l m) : l.upTo = m.upTo := (congrArg Lane.upTo h.eq :)
theorem vrs (h : Lane.AsBut l m) : l.vrs = m.vrs := (congrArg Lane.vrs h.eq :)
theorem enum (h : Lane.AsBut l m) : l.enum = m.enum := (congrArg Lane.enum h.eq :)

end Lane.AsBut

/-! The blocks of a packet reach a receiver that listens (R272, R273). -/

/-- An error that is a block older counts no more than before. -/
theorem ones_shift_le (n : Nat) : ones (2 * n % 2 ^ 64) ≤ ones n := by
  have newest : bit (2 * n % 2 ^ 64) 0 = false := by simp [bit]
  have older : ∀ i, i < 63 → bit (2 * n % 2 ^ 64) (i + 1) = bit n i := fun i h => by
    rw [bit, bit, Nat.testBit_mod_two_pow, Nat.testBit_succ, Nat.mul_div_cancel_left _ (by decide)]
    simp [show i + 1 < 64 by omega]
  have shifted : ones (2 * n % 2 ^ 64) = ((List.range 63).filter fun i => bit n i).length := by
    rw [ones, List.range_succ_eq_map, List.filter_cons, newest]
    simp only [Bool.false_eq_true, if_false, List.filter_map, List.length_map]
    congr 1
    exact List.filter_congr fun i h => older i (List.mem_range.mp h)
  rw [shifted]
  exact ((List.range_sublist.mpr (by decide)).filter _).length_le

/-- A block that holds no error and leaves the lock: its packets are taken. -/
theorem actBlock_eq {k : Nat} {b : BitVec 130} {d : Dev} (pause : (d.lane k).pause = none) (err : (takeBlock (d.lane k) b).err = false)
    (lock : (takeBlock (d.lane k) b).lane.lock = true) :
    actBlock k b d = (takeBlock (d.lane k) b).done.foldl (fun d p => actReturn k p d) (d.putLane k (takeBlock (d.lane k) b).lane) := by
  simp [actBlock, pause, err, lock]

theorem putLane_putLane (d : Dev) (k : Nat) (l m : Lane) : (d.putLane k l).putLane k m = d.putLane k m := by
  simp [Dev.putLane, setV]

theorem Lane.hears_asBut (l : Lane) (reg : Nat) (rx : Option (List Byte × Nat)) : Lane.AsBut (l.hears reg rx) l := rfl

section

variable {d : Dev} {k : Nat} {bytes : List Byte}

/-- A block that opens a packet reaches a receiver that listens. -/
theorem Dev.Listens.first (listens : d.Listens k) {v : Nat} (lt : v < 2 ^ 128) :
    actBlock k (lineBlock 2 (d.lane k).dscr v) d = (openBlock v).2.foldl (fun d p => actReturn k p d)
      (d.putLane k ((d.lane k).hears (Machine.scramble 128 (d.lane k).dscr v).2 (openBlock v).1)) := by
  obtain ⟨-, pause, lock, rx, few⟩ := listens
  have idle : ∀ bs n, (d.lane k).rx ≠ some (bs, n + 1) := by simp [rx]
  have took := takeBlock_first lock idle lt
  have lane := lane_takeBlock_first lock idle few lt
  rw [actBlock_eq pause (by rw [took, Lane.step_err]) (by rw [lane]; exact lock), lane, took, Lane.step_done]

/-- A packet of one block, or the first block of another, is taken. -/
theorem Dev.Listens.takes_one (listens : d.Listens k) (len : bytes.length = 16) :
    actBlocks k (d.asBlocks k bytes) d = (openBlock (blockOf bytes 0)).2.foldl (fun d p => actReturn k p d)
      (d.putLane k ((d.lane k).hears (Machine.scramble 128 (d.lane k).dscr (blockOf bytes 0)).2 (openBlock (blockOf bytes 0)).1)) := by
  rw [actBlocks, if_neg (by simp [listens.1]), Dev.asBlocks, linkBlocks_one len, List.foldl_cons, List.foldl_nil,
    listens.first (blockOf_lt bytes 0)]

/-- The block that ends a packet reaches its receiver. -/
theorem actBlock_last {l : Lane} {bs : List Byte} (lane : d.lane k = l) (pause : l.pause = none) (lock : l.lock = true)
    (open_ : l.rx = some (bs, 1)) (few : ones (2 * l.errs % 2 ^ 64) < 16) {v : Nat} (lt : v < 2 ^ 128) :
    actBlock k (lineBlock 1 l.dscr v) d =
      actReturn k (some (bs ++ beBytes 16 v)) (d.putLane k (l.hears (scramble 128 l.dscr v).2 none)) := by
  have took := takeBlock_last lock open_ lt
  have after := Lane.step_past few (scramble 128 l.dscr v).2 (none, [some (bs ++ beBytes 16 v)])
  subst lane
  rw [actBlock_eq pause (by rw [took, Lane.step_err]) (by rw [took, after]; exact lock), took, after, Lane.step_done]
  rfl

/-- A packet of two blocks is taken with its second. -/
theorem Dev.Listens.takes_two (listens : d.Listens k) (lt : k < 64) (len : bytes.length = 32) (type : beAt bytes 0 1 / 16 = 10)
    (ver : beAt bytes 0 1 % 16 = 1) :
    ∃ l, Lane.AsBut l (d.lane k) ∧ actBlocks k (d.asBlocks k bytes) d = actReturn k (some bytes) (d.putLane k l) := by
  have long : 16 ≤ bytes.length := by omega
  have opens := openBlock_long ((blockType long).trans type) ((blockVer long).trans ver)
  have first := listens.first (blockOf_lt bytes 0)
  have blocks := linkBlocks_two len (d.lane k).dscr
  obtain ⟨tested, pause, lock, rx, few⟩ := listens
  rw [opens, List.foldl_nil] at first
  generalize (Machine.scramble 128 (d.lane k).dscr (blockOf bytes 0)).2 = reg at first blocks
  have last := actBlock_last (l := (d.lane k).hears reg (some (beBytes 16 (blockOf bytes 0), 1))) (Dev.lane_putLane d _ lt) pause lock rfl
    ((ones_shift_le _).trans_lt few) (blockOf_lt bytes 1)
  rw [Lane.hears_dscr, beBytes_two_blocks len, putLane_putLane] at last
  exact ⟨_, (Lane.hears_asBut ..).trans (Lane.hears_asBut ..), by
    rw [actBlocks, if_neg (by simp [tested]), Dev.asBlocks, blocks, List.foldl_cons, List.foldl_cons, List.foldl_nil, first, last]⟩

/-- A packet whose check is right has the length of its TYPE, and VER 1. -/
theorem parseRet_some {r : Ret} (h : parseRet bytes = some r) :
    r.type = beAt bytes 0 1 / 16 ∧ beAt bytes 0 1 % 16 = 1 ∧
      (bytes.length = 16 ∧ (beAt bytes 0 1 / 16 = 8 ∨ beAt bytes 0 1 / 16 = 9) ∨ bytes.length = 32 ∧ beAt bytes 0 1 / 16 = 10) := by
  rw [parseRet] at h
  dsimp only at h
  rw [Option.ite_none_left_eq_some] at h
  obtain ⟨c, h⟩ := h
  have type : r.type = beAt bytes 0 1 / 16 := (congrArg Ret.type (Option.some.inj h)).symm
  simp only [Bool.or_eq_true, Bool.not_eq_true', Bool.or_eq_false_iff, decide_eq_true_eq, decide_eq_false_iff_not, ne_eq, not_or,
    Decidable.not_not, not_and_or] at c
  obtain ⟨⟨⟨known, ver⟩, len⟩, -⟩ := c
  refine ⟨type, ver, ?_⟩
  split at len
  · next t => exact .inr ⟨len, t⟩
  · next t => exact .inl ⟨len, by omega⟩

/-- The receiver takes a packet whose check is right. -/
theorem Dev.Listens.takes {r : Ret} (listens : d.Listens k) (lt : k < 64) (h : parseRet bytes = some r) :
    ∃ l, Lane.AsBut l (d.lane k) ∧ actBlocks k (d.asBlocks k bytes) d = actReturn k (some bytes) (d.putLane k l) := by
  obtain ⟨-, ver, ⟨len, type⟩ | ⟨len, type⟩⟩ := parseRet_some h
  · have took := listens.takes_one len
    rw [openBlock_short (by rwa [blockType len.ge]) ((blockVer len.ge).trans ver), beBytes_one_block len, List.foldl_cons, List.foldl_nil] at took
    exact ⟨_, Lane.hears_asBut .., took⟩
  · exact listens.takes_two lt len type ver

end

namespace Dev

/-! A tile reports (R299, R302, Table 10-8). -/

section

variable {k : Nat} {d e : Dev}

/-- What a change of a tile's fields makes of them. -/
theorem tileLink_change (d : Dev) (i : Nat) (f : TileLink → TileLink) (id : ∀ t, (f t).id = t.id) :
    (d.putTile (f (d.tileLink i))).tileLink i = f (d.tileLink i) := by
  have put := tileLink_putTile d (f (d.tileLink i))
  rwa [id, tileLink_id] at put

theorem tileLink_of_tiles (h : e.tiles = d.tiles) (i : Nat) : e.tileLink i = d.tileLink i := by rw [tileLink, h]; rfl

theorem tileLink_setOwnBit (t i : Nat) (v : Bool) :
    (d.setOwnBit t i v).tileLink t = { d.tileLink t with own := setBit (d.tileLink t).own i v } :=
  tileLink_change d t (fun x => { x with own := setBit x.own i v }) fun _ => rfl

/-- A report restarts its tile's stale timer (R302). -/
def restartStale (d : Dev) (k tile : Nat) : Dev :=
  if d.laneUp k then { d with link := { d.link with heard := (tile, d.now) :: d.link.heard.filter fun h => h.1 != tile } } else d

/-- A tile is heard again after it was stale (R302). -/
def endStale (d : Dev) (k tile : Nat) : Dev :=
  let d := d.setOwnBit tile 3 false
  let d := d.putTile { d.tileLink tile with staleWln := d.wtm.wln % 2 ^ 32 }
  (d.log 0x24 k 2 0x00F tile 2).showStale k

theorem heardTile_eq (tile : Nat) : d.heardTile k tile =
    if (d.restartStale k tile).tileStale tile then (d.restartStale k tile).endStale k tile else d.restartStale k tile := rfl

theorem stays_restartStale (tile : Nat) : Stays k d (d.restartStale k tile) := .ite Stays.refl.setHeard .refl
theorem lanes_restartStale (tile : Nat) : (d.restartStale k tile).link.lanes = d.link.lanes := by unfold restartStale; split <;> rfl
theorem tiles_restartStale (tile : Nat) : (d.restartStale k tile).tiles = d.tiles := by unfold restartStale; split <;> rfl

theorem stays_endStale (tile : Nat) : Stays k d (d.endStale k tile) := Stays.refl.setOwnBit.putTile.log.wr (by simp [linkKeys])

theorem lanes_endStale (tile : Nat) : (d.endStale k tile).link.lanes = d.link.lanes := by
  rw [endStale, showStale, wr_link, log_link]
  rfl

theorem tileLink_endStale (tile : Nat) :
    ∃ own stale, (d.endStale k tile).tileLink tile = { d.tileLink tile with own := own, staleWln := stale } := by
  have stale := tileLink_change (d.setOwnBit tile 3 false) tile
    (fun t => { t with staleWln := (d.setOwnBit tile 3 false).wtm.wln % 2 ^ 32 }) fun _ => rfl
  refine ⟨setBit (d.tileLink tile).own 3 false, (d.setOwnBit tile 3 false).wtm.wln % 2 ^ 32, ?_⟩
  refine ((tileLink_of_tiles (by rw [endStale, showStale, wr_tiles, log_tiles]) tile).trans stale).trans ?_
  rw [tileLink_setOwnBit]

theorem stays_heardTile (tile : Nat) : Stays k d (d.heardTile k tile) := by
  rw [heardTile_eq]
  exact .ite ((stays_restartStale tile).trans (stays_endStale tile)) (stays_restartStale tile)

theorem lane_heardTile (tile i : Nat) : (d.heardTile k tile).lane i = d.lane i := by
  rw [Dev.lane, Dev.lane, heardTile_eq, apply_ite Dev.link, apply_ite LinkPart.lanes, lanes_endStale, lanes_restartStale, ite_self]

/-- A report restarts the stale timer and ends staleness; nothing else of its tile changes. -/
theorem tileLink_heardTile (tile : Nat) :
    ∃ own stale, (d.heardTile k tile).tileLink tile = { d.tileLink tile with own := own, staleWln := stale } := by
  have restarted := tileLink_of_tiles (tiles_restartStale (k := k) (d := d) tile) tile
  rw [heardTile_eq]
  split
  · obtain ⟨own, stale, ended⟩ := tileLink_endStale (k := k) (d := d.restartStale k tile) tile
    exact ⟨own, stale, by rw [ended, restarted]⟩
  · exact ⟨_, _, restarted⟩

/-- A tile of lane k has reported: e is d but for its staleness, its ownership and its epoch, and for the registers of the lane's receiver. -/
structure Reported (k : Nat) (r : Ret) (d e : Dev) : Prop where
  stays : Stays k d e
  lane  : Lane.AsBut (e.lane k) (d.lane k)
  tile  : ∃ own stale, e.tileLink r.tile =
    { d.tileLink r.tile with own := own, staleWln := stale, tileOwn := r.owned + 2 * r.ownEnd, tileEpoch := r.epoch }

theorem Reported.enum {r : Ret} (h : Reported k r d e) : (e.lane k).enum = (d.lane k).enum := h.lane.enum

/-- While no claim of this device's own goes on, or the report tells of this device's, its epoch stays (R353). -/
theorem heardEpoch_eq {r : Ret} (stands : d.EpochStands r) : d.heardEpoch r = d := by
  unfold heardEpoch
  refine if_neg fun c => ?_
  simp only [Bool.and_eq_true, decide_eq_true_eq, Bool.not_eq_true'] at c
  obtain ⟨⟨⟨⟨live, claiming⟩, other⟩, above⟩, -⟩ := c
  rcases stands live claiming with own | below
  · rw [own] at other
    cases other
  · omega

theorem Stays.epochStands {r : Ret} (h : Stays k d e) (lt : k < 64) (stands : d.EpochStands r) : e.EpochStands r := by
  have report : e.ownReport r = d.ownReport r := by simp only [ownReport, h.epoch lt, h.myEnd, h.pair]
  intro live claiming
  rw [h.state lt] at live
  rw [h.pair] at claiming
  rw [report, h.epoch lt]
  exact stands live claiming

/-- A report that comes to this end of the chain has been noted. -/
def report (d : Dev) (k : Nat) (r : Ret) : Dev := (d.heardTile k r.tile).noteTile r

theorem reported (lt : k < 64) {l : Lane} (lane : Lane.AsBut l (d.lane k)) (r : Ret) : Reported k r d ((d.putLane k l).report k r) := by
  have put : Stays k d (d.putLane k l) := Stays.refl.putLane
  refine ⟨put.trans ((stays_heardTile r.tile).trans Stays.refl.putTile), ?_, ?_⟩
  · have same : ((d.putLane k l).report k r).lane k = ((d.putLane k l).heardTile k r.tile).lane k := rfl
    rw [same, lane_heardTile, lane_putLane _ _ lt]
    exact lane
  · obtain ⟨own, stale, heard⟩ := tileLink_heardTile (k := k) (d := d.putLane k l) r.tile
    refine ⟨own, stale, ?_⟩
    refine (tileLink_change ((d.putLane k l).heardTile k r.tile) r.tile
      (fun t => { t with tileOwn := r.owned + 2 * r.ownEnd, tileEpoch := r.epoch }) fun _ => rfl).trans ?_
    rw [heard]
    rfl

end

end Dev

/-! A return packet as a command. -/

section

variable {s : State} {k : Fin 64} {bs : List Byte} {r : Ret}

/-- Whatever a command that brings blocks is named after, it brings them. -/
theorem exec_receive (l : List (BitVec 130)) {c : Instr}
    (h : c = .akReceive k l ∨ c = .nkReceive k l ∨ c = .tlReceive k l ∨ c = .returnPacketBad ⟨k, l⟩) :
    exec c s = exec (.akReceive k l) s := by
  rcases h with rfl | rfl | rfl | rfl <;> rfl

theorem exec_receive_takes (on : s.dev.off = false) (listens : s.dev.Listens k) (parsed : parseRet bs = some r) :
    ∃ l, Lane.AsBut l (s.dev.lane k) ∧
      exec (.akReceive k (s.dev.asBlocks k bs)) s = .next (settle s (actReturn k (some bs) (s.start.putLane k l))) := by
  obtain ⟨l, lane, took⟩ := Dev.Listens.takes (d := s.start) listens k.isLt parsed
  refine ⟨l, lane, ?_⟩
  rw [exec_akReceive, run_on on]
  exact congrArg (fun d => Host.Outcome.next (settle s d)) took

end

end Sys2Proof.Machine
end

section
/-!
PROOFS. What an AK, an NK and a TL do besides the report of their tile (R286, R287, R291, R297, R299, R300, R306).
-/

namespace Sys2Proof.Machine
namespace Dev

section

variable {k : Nat} {d e : Dev} {r : Ret}

/-! Packets by TYPE. -/

theorem actReturn_other {bs : List Byte} (parsed : parseRet bs = some r) (other : r.end_ ≠ d.myEnd) : actReturn k (some bs) d = d := by
  simp [actReturn, parsed, other]

theorem actReturn_bad {bs : List Byte} (parsed : parseRet bs = none) : actReturn k (some bs) d = actRetBad k d := by
  simp [actReturn, parsed]

theorem actReturn_ak {bs : List Byte} (parsed : parseRet bs = some r) (mine : r.end_ = d.myEnd) (type : r.type = 8) :
    actReturn k (some bs) d = actAk k r d := by
  simp [actReturn, parsed, mine, type]

theorem actReturn_nk {bs : List Byte} (parsed : parseRet bs = some r) (mine : r.end_ = d.myEnd) (type : r.type = 9) :
    actReturn k (some bs) d = (actNk k r d).upAfter k := by
  simp [actReturn, parsed, mine, type]

theorem actReturn_tl {bs : List Byte} (parsed : parseRet bs = some r) (mine : r.end_ = d.myEnd) (type : r.type = 10) :
    actReturn k (some bs) d = actTl k r d := by
  simp [actReturn, parsed, mine, type]

/-- A lane whose enumeration waits for no set position does not come up. -/
theorem upAfter_eq (still : d.NotComingUp k) : d.upAfter k = d := by
  have check : d.laneUpCheck k = (d, false) := by
    unfold laneUpCheck
    split
    · next h => exact absurd (still _ h) (by simp)
    · rfl
  simp [upAfter, check]

theorem notComingUp_of_enum (still : d.NotComingUp k) (h : (e.lane k).enum = (d.lane k).enum) : e.NotComingUp k := fun x hx => still x (h ▸ hx)

theorem OnFifo.enum (h : OnFifo k d e) : (e.lane k).enum = (d.lane k).enum := by
  obtain ⟨_, _, _, _, lane⟩ := h.lane
  rw [lane]

/-! The end of a CT (R306). -/

/-- What the end of a CT changes: e shows it in CT_STATUS and CT_RDATA, and holds no CT. -/
structure CtEnded (d e : Dev) (err : Nat) : Prop where
  keeps : Keeps [0x24] d e
  ct    : e.link.ct = none
  lanes : e.link.lanes = d.link.lanes
  tiles : e.tiles = d.tiles
  busy  : e.rd R.MVL_CT_STATUS_BUSY = 0
  done  : e.rd R.MVL_CT_STATUS_DONE = 1
  error : e.rd R.MVL_CT_STATUS_ERROR = err % 256

/-- The device as RDATA takes the data of a CT read. -/
def ctData (d : Dev) : Option Nat → Dev
  | some v => ({ d with link := { d.link with ct := none } }).wr R.MVL_CT_RDATA v
  | none => { d with link := { d.link with ct := none } }

theorem ctEnd_eq (err : Nat) (data : Option Nat) : d.ctEnd err data =
    (((d.ctData data).wr R.MVL_CT_STATUS_ERROR err).wr R.MVL_CT_STATUS_DONE 1).wr R.MVL_CT_STATUS_BUSY 0 := by
  cases data <;> rfl

theorem ctEnded_ctEnd (err : Nat) (data : Option Nat) : CtEnded d (d.ctEnd err data) err := by
  have link : (d.ctData data).link = { d.link with ct := none } := by cases data <;> rfl
  have tiles : (d.ctData data).tiles = d.tiles := by cases data <;> rfl
  have keeps : Keeps [0x24] d (d.ctData data) := by
    cases data
    · exact Keeps.refl.set_link
    · exact Keeps.refl.set_link.wr (by decide)
  rw [ctEnd_eq]
  generalize d.ctData data = e at link tiles keeps
  refine ⟨((keeps.wr (by decide)).wr (by decide)).wr (by decide), ?_, ?_, tiles, rd_wr_self .., ?_, ?_⟩
  · simp only [wr_link, link]
  · simp only [wr_link, link]
  · rw [rd_wr_ne _ _ _ _ (by decide), rd_wr_self]; rfl
  · rw [rd_wr_ne _ _ _ _ (by decide), rd_wr_ne _ _ _ _ (by decide), rd_wr_self]; rfl

theorem ctEnd_rdata (err v : Nat) : (d.ctEnd err (some v)).rd R.MVL_CT_RDATA = v % 2 ^ 32 := by
  rw [ctEnd_eq, rd_wr_ne _ _ _ _ (by decide), rd_wr_ne _ _ _ _ (by decide), rd_wr_ne _ _ _ _ (by decide), ctData, rd_wr_self]
  rfl

/-- An AK ends a CT, or changes nothing. -/
theorem ctAck_cases (r : Ret) : d.ctAck r = d ∨ d.ctAck r = d.ctEnd (if r.status = 2 then 4 else 0) none := by
  unfold ctAck
  split
  · split
    · exact .inr rfl
    · exact .inl rfl
  · exact .inl rfl

theorem keeps_ctAck (r : Ret) : Keeps [0x24] d (d.ctAck r) := by
  rcases ctAck_cases (d := d) r with h | h <;> rw [h]
  · exact .refl
  · exact (ctEnded_ctEnd ..).keeps

theorem lane_ctAck (r : Ret) (i : Nat) : (d.ctAck r).lane i = d.lane i := by
  rcases ctAck_cases (d := d) r with h | h <;> rw [h]
  rw [Dev.lane, (ctEnded_ctEnd ..).lanes]
  rfl

theorem tileLink_ctAck (r : Ret) (i : Nat) : (d.ctAck r).tileLink i = d.tileLink i := by
  rcases ctAck_cases (d := d) r with h | h <;> rw [h]
  exact tileLink_of_tiles (ctEnded_ctEnd ..).tiles i

theorem ctAck_covered {j : CtJob} {q : Nat} (job : d.link.ct = some j) (tile : j.tile = r.tile) (op : j.op ≠ 2) (seq : j.seq = some q)
    (covered : (r.seq + 65536 - q) % 65536 ≤ 32767) : d.ctAck r = d.ctEnd (if r.status = 2 then 4 else 0) none := by
  simp [ctAck, job, tile, op, seq, covers, covered]

/-! An AK (R291, R296, R297). -/

/-- What an AK does once its tile's report has been noted. -/
def acked (d : Dev) (k : Nat) (r : Ret) : Dev :=
  if r.status ≤ 3 then ((d.releaseAll k (fun p => p.tile = r.tile && covers r.seq p.seq) (.ack r.status)).ctAck r).upAfter k
  else if r.status = 4 then d.vrDecided k r true
  else if r.status = 5 then d.vrDecided k r false
  else d

theorem actAk_eq (stands : (d.report k r).EpochStands r) : actAk k r d = (d.report k r).acked k r := by
  have same := heardEpoch_eq stands
  rw [report] at same
  rw [actAk, same]
  rfl

/-- The packets of a tile up to a sequence number. -/
theorem stable_covered (r : Ret) : Stable fun p => p.tile = r.tile && covers r.seq p.seq := fun p q later => by
  simp only [later.tile, later.seq]

theorem acked_release (lt : k < 64) (still : d.NotComingUp k) (status : r.status ≤ 3) :
    d.acked k r = (d.releaseAll k (fun p => p.tile = r.tile && covers r.seq p.seq) (.ack r.status)).ctAck r := by
  rw [acked, if_pos status, upAfter_eq]
  refine notComingUp_of_enum still ?_
  rw [lane_ctAck, (onFifo_releaseAll lt (stable_covered r) _).enum]

/-- An AK that finds no VR of its tile sent counts a refusal. -/
theorem vrDecided_unsent (accepted : Bool) (unsent : ∀ v ∈ (d.lane k).vrs, v.tile = r.tile → v.sent = none) :
    d.vrDecided k r accepted = if accepted then d else d.cnt (R.MVL_VR_REFUSED k) := by
  have lane : (if accepted then d else d.cnt (R.MVL_VR_REFUSED k)).lane k = d.lane k := by split <;> rfl
  have none_ : (d.lane k).vrs.find? (fun v => v.tile = r.tile && v.sent.isSome) = none := by
    rw [List.find?_eq_none]
    intro v hv c
    simp only [Bool.and_eq_true, decide_eq_true_eq] at c
    rw [unsent v hv c.1] at c
    exact absurd c.2 (by simp)
  simp only [vrDecided, lane, none_]

/-- The lane without the VRs of a tile. -/
def dropVrs (d : Dev) (k tile : Nat) : Dev := d.putLane k { d.lane k with vrs := (d.lane k).vrs.filter fun x => x.tile != tile }

/-- An accepted CLAIM of this device in LIVE gives it the tile and ends the repetition (R297, R304). -/
theorem vrDecided_claim {v : Vr} (found : (d.lane k).vrs.find? (fun v => v.tile = r.tile && v.sent.isSome) = some v) (kind : v.kind = 0)
    (probe : v.probe = false) (live : d.state = .live) (calm : d.pair.refusing = false) :
    ∃ p, d.vrDecided k r true = ((d.dropVrs k r.tile).putTile
      { d.tileLink r.tile with own := setBit (setBit (setBit (d.tileLink r.tile).own 0 true) 1 false) 2 false }).pput p := by
  have claimed : ∃ p, (d.dropVrs k r.tile).claimAccepted r.tile = ((d.dropVrs k r.tile).putTile
      { d.tileLink r.tile with own := setBit (setBit (setBit (d.tileLink r.tile).own 0 true) 1 false) 2 false }).pput p := by
    have calm' : ((d.dropVrs k r.tile).putTile
      { d.tileLink r.tile with own := setBit (setBit (setBit (d.tileLink r.tile).own 0 true) 1 false) 2 false }).pair.refusing = false := calm
    have tile : (d.dropVrs k r.tile).tileLink r.tile = d.tileLink r.tile := rfl
    simp only [claimAccepted, tile, calm', Bool.false_eq_true, if_false]
    exact ⟨_, rfl⟩
  obtain ⟨p, claimed⟩ := claimed
  refine ⟨p, ?_⟩
  have live' : ((d.dropVrs k r.tile).claimAccepted r.tile).state = .live := by
    rw [claimed]
    exact live
  have split : d.vrDecided k r true = ((d.dropVrs k r.tile).claimAccepted r.tile).segmentClaimed k r.tile := by
    simp [vrDecided, found, kind, probe, dropVrs]
  rw [split, segmentClaimed, live', if_neg (by simp), claimed]

theorem bit_zero_setBit {v i : Nat} (h : 0 < i) (b : Bool) : bit (setBit v i b) 0 = bit v 0 := by
  obtain ⟨j, rfl⟩ := Nat.exists_eq_succ_of_ne_zero h.ne'
  have even : 2 ^ (j + 1) = 2 * 2 ^ j := Nat.pow_succ'
  have parity : ∀ x y : Nat, x % 2 = y % 2 → bit x 0 = bit y 0 := fun x y h => by simp [bit, Nat.testBit_zero, h]
  unfold setBit
  split
  · rfl
  · next n =>
    split
    · exact parity _ _ (by omega)
    · next c =>
      have set : v.testBit (j + 1) = true := by simpa [c] using n
      have := Nat.ge_two_pow_of_testBit set
      exact parity _ _ (by omega)

/-! An NK (R286, R287). -/

/-- What an NK does once its tile's report has been noted and it has been counted. -/
def nacked (d : Dev) (k : Nat) (r : Ret) : Dev := match d.findPkt k r.tile r.seq with
  | none => d.cnt (R.MVL_NK_IGNORED k)
  | some (i, p) =>
    if p.sends = 0 || (decide ((d.lane k).tx ≤ i) && decide (i < (d.lane k).upTo)) then d.cnt (R.MVL_NK_IGNORED k) else d.rewind k i

theorem actNk_eq : actNk k r d = ((d.report k r).cnt (R.MVL_NK_RX k)).nacked k r := rfl

theorem findPkt_of_fifo (h : (e.lane k).fifo = (d.lane k).fifo) (tile seq : Nat) : e.findPkt k tile seq = d.findPkt k tile seq := by
  rw [findPkt, h]
  rfl

/-- What is found is a packet of the FIFO that has not been released. -/
theorem findPkt_some {tile seq i : Nat} {p : Pkt} (h : d.findPkt k tile seq = some (i, p)) :
    (d.lane k).fifo[i]? = some p ∧ p.released = false := by
  obtain ⟨q, hq, e⟩ := Option.map_eq_some_iff.mp h
  obtain ⟨rfl, rfl⟩ := Prod.mk.inj e
  have test := List.find?_some hq
  simp only [Bool.and_eq_true, Bool.not_eq_true'] at test
  exact ⟨List.mem_zipIdx_iff_getElem?.mp (List.mem_of_find?_eq_some hq), test.2⟩

theorem nacked_none (h : d.findPkt k r.tile r.seq = none) : d.nacked k r = d.cnt (R.MVL_NK_IGNORED k) := by simp only [nacked, h]

theorem nacked_rewind {i : Nat} {p : Pkt} (h : d.findPkt k r.tile r.seq = some (i, p)) (sent : 0 < p.sends)
    (idle : (d.lane k).tx ≤ i → (d.lane k).upTo ≤ i) : d.nacked k r = d.rewind k i := by
  simp only [nacked, h]
  refine if_neg fun c => ?_
  simp only [Bool.or_eq_true, Bool.and_eq_true, decide_eq_true_eq] at c
  omega

theorem nacked_cases : d.nacked k r = d.cnt (R.MVL_NK_IGNORED k) ∨ ∃ i, d.nacked k r = d.rewind k i := by
  unfold nacked
  split
  · exact .inl rfl
  · next i p _ =>
    split
    · exact .inl rfl
    · exact .inr ⟨i, rfl⟩

theorem key_mem_window {k o : Nat} (lt : k < 64) (small : o < 512) : (8 * (0x241000 + 0x40 * k) + o) / 524288 = 0x24 := by omega

theorem nkRx_window (lt : k < 64) : (R.MVL_NK_RX k).key / 524288 ∈ [4, 0x24] := by
  rw [R.MVL_NK_RX]
  simp only [List.mem_cons, List.not_mem_nil, or_false]
  omega

theorem nkIgnored_window (lt : k < 64) : (R.MVL_NK_IGNORED k).key / 524288 ∈ [4, 0x24] := by
  rw [R.MVL_NK_IGNORED]
  simp only [List.mem_cons, List.not_mem_nil, or_false]
  omega

/-! A TL (R299, R300, R306). -/

/-- A TL that is not ignored has been accepted, and what it brings as telemetry stored. -/
def noted (d : Dev) (r : Ret) : Dev := if r.status = 1 then d.noteTl r else (d.noteTl r).telemetry r

/-- What a TL does once its tile's report has been noted. -/
def told (d : Dev) (k : Nat) (r : Ret) : Dev :=
  if d.oldTl r then d else
  let d := d.noted r
  match r.status with
  | 1 =>
    match d.link.ct with
    | some j => if j.tile = r.tile && j.op = 2 && j.addr = r.f.getD 0 0 then d.ctEnd 0 (some (r.f.getD 1 0 * 65536 + r.f.getD 2 0)) else d
    | none => d
  | 2 =>
    match (d.lane k).enum with
    | some ⟨some t, replies, false⟩ => d.putLane k { d.lane k with enum := some ⟨some t, replies ++ [(r.tile, r.hops)], false⟩ }
    | _ => d
  | _ => d

theorem actTl_eq (stands : (d.report k r).EpochStands r) : actTl k r d = (d.report k r).told k r := by
  have same := heardEpoch_eq stands
  rw [report] at same
  rw [actTl, same]
  rfl

theorem oldTl_eq (spoke : e.link.spoke = d.link.spoke) (fseq : (e.tileLink r.tile).fseq = (d.tileLink r.tile).fseq) :
    e.oldTl r = d.oldTl r := by
  simp only [oldTl, spoke, fseq]

theorem sendFrame_link (b : PairBody) : (d.sendFrame b).link = d.link := by unfold sendFrame; split <;> rfl
theorem sendFrame_tiles (b : PairBody) : (d.sendFrame b).tiles = d.tiles := by unfold sendFrame; split <;> rfl

/-- A tile with the telemetry that a TL brings (R299). -/
def withTelemetry (t : TileLink) (r : Ret) : TileLink :=
  { t with temp := r.f.getD 0 0, volt := r.f.getD 1 0, curr := r.f.getD 2 0, dead := r.f.getD 3 0, crcErr := r.f.getD 4 0, lost := r.f.getD 5 0 }

/-- A tile is put on the list of those that brought telemetry. -/
def listed (l : List Nat) (tile : Nat) : List Nat := if l.contains tile then l else tile :: l

/-- Telemetry stands with its tile, and the climate reads it (R299). -/
def stored (d : Dev) (r : Ret) : Dev :=
  let d := d.putTile (withTelemetry (d.tileLink r.tile) r)
  { d with clr := { d.clr with fresh := listed d.clr.fresh r.tile, reported := listed d.clr.reported r.tile } }

theorem telemetry_eq (r : Ret) : d.telemetry r = if (d.stored r).state = .warm && !(d.stored r).pair.segs.isEmpty
    then (d.stored r).sendFrame (.telem (withTelemetry (d.tileLink r.tile) r)) else d.stored r := rfl

theorem keeps_telemetry (r : Ret) : Keeps [] d (d.telemetry r) := by
  have stored : Keeps [] d (d.stored r) := Keeps.refl.set_tiles.set_clr
  rw [telemetry_eq]
  exact .ite (stored.trans (keeps_sendFrame ..)) stored

theorem link_telemetry (r : Ret) : (d.telemetry r).link = d.link := by
  rw [telemetry_eq, apply_ite Dev.link, sendFrame_link, ite_self]
  rfl

theorem tileLink_telemetry (r : Ret) : (d.telemetry r).tileLink r.tile = withTelemetry (d.tileLink r.tile) r := by
  have tiles : (d.telemetry r).tiles = (d.stored r).tiles := by rw [telemetry_eq, apply_ite Dev.tiles, sendFrame_tiles, ite_self]
  rw [tileLink_of_tiles tiles]
  exact tileLink_change d r.tile (fun t => withTelemetry t r) fun _ => rfl

/-- A TL has been accepted: e is d but for its tile, for what the climate reads of telemetry and for what has gone out. -/
structure Noted (r : Ret) (d e : Dev) : Prop where
  keeps : Keeps [] d e
  lanes : e.link.lanes = d.link.lanes
  ct    : e.link.ct = d.link.ct
  fseq  : (e.tileLink r.tile).fseq = r.seq

theorem noted_noteTl (r : Ret) : Noted r d (d.noteTl r) :=
  ⟨Keeps.refl.set_tiles.set_link, rfl, rfl,
    congrArg TileLink.fseq (tileLink_change d r.tile (fun t => { t with fseq := r.seq, tlWln := d.wtm.wln % 2 ^ 32 }) fun _ => rfl)⟩

theorem noted_telemetry (h : Noted r d e) : Noted r d (e.telemetry r) := by
  refine ⟨h.keeps.trans (keeps_telemetry r), ?_, ?_, ?_⟩
  · rw [link_telemetry, h.lanes]
  · rw [link_telemetry, h.ct]
  · rw [tileLink_telemetry]
    exact h.fseq

theorem noted_noted (r : Ret) : Noted r d (d.noted r) := by
  unfold noted
  split
  · exact noted_noteTl r
  · exact noted_telemetry (noted_noteTl r)

theorem noted_telemetry_fields (other : r.status ≠ 1) : ∃ t, (d.noted r).tileLink r.tile = withTelemetry t r :=
  ⟨_, by rw [noted, if_neg other, tileLink_telemetry]⟩

/-- The data of a CT read end it; a reply to enumeration is kept; another TL brings no more than telemetry. -/
theorem told_new (new : d.oldTl r = false) : (∃ v, d.told k r = (d.noted r).ctEnd 0 (some v)) ∨ (∃ l, d.told k r = (d.noted r).putLane k l) ∨
    d.told k r = d.noted r := by
  simp only [told, new, Bool.false_eq_true, if_false]
  split
  · split
    · split
      · exact .inl ⟨_, rfl⟩
      · exact .inr (.inr rfl)
    · exact .inr (.inr rfl)
  · split
    · exact .inr (.inl ⟨_, rfl⟩)
    · exact .inr (.inr rfl)
  · exact .inr (.inr rfl)

theorem told_old (old : d.oldTl r = true) : d.told k r = d := by rw [told, if_pos old]

theorem tileLink_told (new : d.oldTl r = false) : (d.told k r).tileLink r.tile = (d.noted r).tileLink r.tile := by
  rcases told_new (k := k) new with ⟨v, h⟩ | ⟨l, h⟩ | h <;> rw [h]
  · exact tileLink_of_tiles (ctEnded_ctEnd ..).tiles _
  · rfl

theorem keeps_told (r : Ret) : Keeps [0x24] d (d.told k r) := by
  cases old : d.oldTl r with
  | true => rw [told_old old]; exact .refl
  | false =>
    have noted : Keeps [0x24] d (d.noted r) := (noted_noted r).keeps.wider (by simp)
    rcases told_new (k := k) old with ⟨v, h⟩ | ⟨l, h⟩ | h <;> rw [h]
    · exact noted.trans (ctEnded_ctEnd ..).keeps
    · exact noted.set_link
    · exact noted

theorem told_read {j : CtJob} (new : d.oldTl r = false) (read : r.status = 1) (job : d.link.ct = some j) (tile : j.tile = r.tile)
    (op : j.op = 2) (addr : j.addr = r.f.getD 0 0) :
    d.told k r = (d.noted r).ctEnd 0 (some (r.f.getD 1 0 * 65536 + r.f.getD 2 0)) := by
  have job' := (noted_noted (d := d) r).ct.trans job
  simp only [told, new, Bool.false_eq_true, if_false, read, job', tile, op, addr]
  simp

theorem told_enum {at_ : Time} {l : List (Nat × Nat)} (new : d.oldTl r = false) (reply : r.status = 2)
    (window : (d.lane k).enum = some ⟨some at_, l, false⟩) :
    d.told k r = (d.noted r).putLane k { (d.noted r).lane k with enum := some ⟨some at_, l ++ [(r.tile, r.hops)], false⟩ } := by
  have lane : (d.noted r).lane k = d.lane k := by rw [Dev.lane, (noted_noted r).lanes]; rfl
  have window' : ((d.noted r).lane k).enum = some ⟨some at_, l, false⟩ := by rw [lane, window]
  simp only [told, new, Bool.false_eq_true, if_false, reply, window']

end

end Dev
end Sys2Proof.Machine
end

section
/-!
PROOFS. O28: what a return packet leaves, from the report of its tile and from what it does besides.
-/

namespace Sys2Proof.Machine
namespace Dev

section

variable {k : Nat} {d e : Dev} {r : Ret}

/-! An AK of a FIFO status. -/

section

variable (lt : k < 64) (rep : Reported k r d e) (still : d.NotComingUp k) (status : r.status ≤ 3)
include lt rep still status

theorem Reported.acked_release : e.acked k r = (e.releaseAll k (fun p => p.tile = r.tile && covers r.seq p.seq) (.ack r.status)).ctAck r :=
  Dev.acked_release lt (notComingUp_of_enum still rep.enum) status

theorem Reported.keeps_acked : Keeps [4, 0x24] d (e.acked k r) := by
  rw [rep.acked_release lt still status]
  exact ((rep.stays.trans (onFifo_releaseAll lt (stable_covered r) _).stays).keeps lt).trans ((keeps_ctAck r).wider (by simp))

theorem Reported.tileEpoch_acked : ((e.acked k r).tileLink r.tile).tileEpoch = r.epoch := by
  obtain ⟨own, stale, tile⟩ := rep.tile
  obtain ⟨floor, released⟩ := (onFifo_releaseAll (d := e) lt (stable_covered r) (.ack r.status)).tile r.tile
  rw [rep.acked_release lt still status, tileLink_ctAck, released, tile]

theorem Reported.acked_ends {j : CtJob} {q : Nat} (job : d.link.ct = some j) (tile : j.tile = r.tile) (op : j.op ≠ 2) (seq : j.seq = some q)
    (covered : (r.seq + 65536 - q) % 65536 ≤ 32767) :
    (e.acked k r).link.ct = none ∧ (e.acked k r).rd R.MVL_CT_STATUS_BUSY = 0 ∧ (e.acked k r).rd R.MVL_CT_STATUS_DONE = 1 ∧
      (e.acked k r).rd R.MVL_CT_STATUS_ERROR = if r.status = 2 then 4 else 0 := by
  have job' := ((onFifo_releaseAll (d := e) lt (stable_covered r) (.ack r.status)).stays.ct.trans rep.stays.ct).trans job
  rw [rep.acked_release lt still status, ctAck_covered job' tile op seq covered]
  have ended := ctEnded_ctEnd (d := e.releaseAll k (fun p => p.tile = r.tile && covers r.seq p.seq) (.ack r.status))
    (if r.status = 2 then 4 else 0) none
  refine ⟨ended.ct, ended.busy, ended.done, ended.error.trans ?_⟩
  split <;> rfl

theorem Reported.acked_released {p : Pkt} (h : p ∈ ((e.acked k r).lane k).fifo) (tile : p.tile = r.tile)
    (covered : (r.seq + 65536 - p.seq) % 65536 ≤ 32767) : p.released = true := by
  rw [rep.acked_release lt still status, lane_ctAck] at h
  exact releaseAll_mem lt (stable_covered r) _ h (by simp [tile, covers, covered])

end

/-! An AK that answers a VR. -/

/-- A counter of the lane stands as it stood before the report. -/
theorem Reported.rd_offset (rep : Reported k r d e) {f : Fld} {o : Nat} (key : f.key = 8 * (0x241000 + 0x40 * k) + o) (other : o ∉ linkOffsets) :
    e.rd f = d.rd f := rep.stays.rd f (key ▸ notMem_linkKeys_of_offset other)

theorem acked_decided (status : r.status = 4 ∨ r.status = 5) : d.acked k r = d.vrDecided k r (decide (r.status = 4)) := by
  rcases status with h | h <;> simp [acked, h]

theorem Reported.refused (lt : k < 64) (rep : Reported k r d e) (status : r.status = 4 ∨ r.status = 5)
    (unsent : ∀ v ∈ (d.lane k).vrs, v.tile = r.tile → v.sent = none) :
    Keeps [4, 0x24] d (e.acked k r) ∧ ((e.acked k r).tileLink r.tile).tileEpoch = r.epoch ∧
      Lane.AsBut ((e.acked k r).lane k) (d.lane k) ∧ (e.acked k r).rd (R.MVL_VR_REFUSED k) = (if r.status = 5 then
        Nat.min (d.rd (R.MVL_VR_REFUSED k) + 1) (2 ^ (R.MVL_VR_REFUSED k).width - 1) else d.rd (R.MVL_VR_REFUSED k)) := by
  have acked : e.acked k r = if r.status = 4 then e else e.cnt (R.MVL_VR_REFUSED k) := by
    rw [acked_decided status, vrDecided_unsent _ (by rw [rep.lane.vrs]; exact unsent)]
    simp only [decide_eq_true_eq]
  have window : (R.MVL_VR_REFUSED k).key / 524288 ∈ [4, 0x24] := by
    simp only [R.MVL_VR_REFUSED, List.mem_cons, List.not_mem_nil, or_false]
    omega
  have counter : e.rd (R.MVL_VR_REFUSED k) = d.rd (R.MVL_VR_REFUSED k) :=
    rep.rd_offset (o := 8 * 0x3C) (by simp only [R.MVL_VR_REFUSED]; omega) (by decide)
  obtain ⟨own, stale, tile⟩ := rep.tile
  have epoch : (e.tileLink r.tile).tileEpoch = r.epoch := by rw [tile]
  rw [acked]
  rcases status with h | h
  · rw [if_pos h, if_neg (by omega)]
    exact ⟨rep.stays.keeps lt, epoch, rep.lane, counter⟩
  · rw [if_neg (by omega), if_pos h]
    exact ⟨(rep.stays.keeps lt).cnt window, epoch, rep.lane, by rw [rd_cnt_self, counter]⟩

theorem Reported.claimed (lt : k < 64) (rep : Reported k r d e) (status : r.status = 4) {v : Vr}
    (found : (d.lane k).vrs.find? (fun v => v.tile = r.tile && v.sent.isSome) = some v) (kind : v.kind = 0)
    (probe : v.probe = false) (live : d.state = .live) (calm : d.pair.refusing = false) :
    Keeps [4, 0x24] d (e.acked k r) ∧ bit ((e.acked k r).tileLink r.tile).own 0 = true ∧
      bit ((e.acked k r).tileLink r.tile).own 2 = false ∧ ∀ x ∈ ((e.acked k r).lane k).vrs, x.tile ≠ r.tile := by
  obtain ⟨p, claimed⟩ := vrDecided_claim (by rw [rep.lane.vrs]; exact found) kind probe ((rep.stays.state lt).trans live)
    (by rw [rep.stays.pair]; exact calm)
  have acked : e.acked k r = _ := (acked_decided (.inl status)).trans ((congrArg (e.vrDecided k r) (decide_eq_true status)).trans claimed)
  have own : ((e.acked k r).tileLink r.tile).own = setBit (setBit (setBit (e.tileLink r.tile).own 0 true) 1 false) 2 false := by
    rw [acked]
    exact congrArg TileLink.own (tileLink_change (e.dropVrs k r.tile) r.tile
      (fun t => { t with own := setBit (setBit (setBit t.own 0 true) 1 false) 2 false }) fun _ => rfl)
  have vrs : ((e.acked k r).lane k).vrs = (e.lane k).vrs.filter fun x => x.tile != r.tile := by
    rw [acked]
    exact congrArg Lane.vrs (lane_putLane e _ lt)
  refine ⟨?_, ?_, ?_, fun x hx => ?_⟩
  · rw [acked]
    exact (rep.stays.keeps lt).set_link.set_tiles.set_pair
  · rw [own, bit_zero_setBit (by decide), bit_zero_setBit (by decide), bit_setBit_true]
  · rw [own, bit_setBit_false]
  · rw [vrs] at hx
    simpa using (List.mem_filter.mp hx).2

/-! An NK. -/

section

variable (lt : k < 64) (rep : Reported k r d e)
include lt rep

theorem Reported.counted_nk : Keeps [4, 0x24] d ((e.cnt (R.MVL_NK_RX k)).nacked k r) ∧
    d.Counted ((e.cnt (R.MVL_NK_RX k)).nacked k r) (R.MVL_NK_RX k) := by
  have keeps : Keeps [4, 0x24] d (e.cnt (R.MVL_NK_RX k)) := (rep.stays.keeps lt).cnt (nkRx_window lt)
  have counted : d.Counted (e.cnt (R.MVL_NK_RX k)) (R.MVL_NK_RX k) := by
    rw [Counted, rd_cnt_self, rep.rd_offset (o := 8 * 0x18) (by simp only [R.MVL_NK_RX]; omega) (by decide)]
  generalize e.cnt (R.MVL_NK_RX k) = x at keeps counted
  rcases nacked_cases (d := x) (k := k) (r := r) with h | ⟨i, h⟩ <;> rw [h]
  · refine ⟨keeps.cnt (nkIgnored_window lt), ?_⟩
    rw [Counted, rd_cnt_ne _ _ _ (by simp only [R.MVL_NK_RX, R.MVL_NK_IGNORED]; omega)]
    exact counted
  · have moved := (onFifo_rewind (d := x) lt i).stays
    refine ⟨keeps.trans (moved.keeps lt), ?_⟩
    rw [Counted, moved.rd _ ((show (R.MVL_NK_RX k).key = 8 * (0x241000 + 0x40 * k) + 8 * 0x18 by simp only [R.MVL_NK_RX]; omega) ▸
      notMem_linkKeys_of_offset (by decide))]
    exact counted

theorem Reported.nk_sends {i : Nat} {p : Pkt} (found : d.findPkt k r.tile r.seq = some (i, p)) (sent : 0 < p.sends) (few : p.sends < 3)
    (idle : (d.lane k).tx ≤ i → (d.lane k).upTo ≤ i) :
    (((e.cnt (R.MVL_NK_RX k)).nacked k r).lane k).fifo[(((e.cnt (R.MVL_NK_RX k)).nacked k r).lane k).tx]? = some p := by
  have lane : Lane.AsBut ((e.cnt (R.MVL_NK_RX k)).lane k) (d.lane k) := rep.lane
  generalize e.cnt (R.MVL_NK_RX k) = x at lane
  have found' : x.findPkt k r.tile r.seq = some (i, p) := by rw [findPkt_of_fifo lane.fifo, found]
  obtain ⟨at_, fresh⟩ := findPkt_some found'
  rw [nacked_rewind found' sent (by rw [lane.tx, lane.upTo]; exact idle)]
  exact rewind_next lt at_ fresh few

end

theorem Reported.nk_ignored (rep : Reported k r d e) (none_ : d.findPkt k r.tile r.seq = none) :
    Lane.AsBut (((e.cnt (R.MVL_NK_RX k)).nacked k r).lane k) (d.lane k) ∧
      d.Counted ((e.cnt (R.MVL_NK_RX k)).nacked k r) (R.MVL_NK_IGNORED k) := by
  have same : (e.cnt (R.MVL_NK_RX k)).nacked k r = (e.cnt (R.MVL_NK_RX k)).cnt (R.MVL_NK_IGNORED k) :=
    nacked_none ((findPkt_of_fifo rep.lane.fifo _ _).trans none_)
  rw [same]
  refine ⟨rep.lane, ?_⟩
  rw [Counted, rd_cnt_self, rd_cnt_ne _ _ _ (by simp only [R.MVL_NK_RX, R.MVL_NK_IGNORED]; omega),
    rep.rd_offset (o := 8 * 0x1C) (by simp only [R.MVL_NK_IGNORED]; omega) (by decide)]

/-! A TL. -/

theorem Reported.oldTl (rep : Reported k r d e) : e.oldTl r = d.oldTl r := by
  obtain ⟨own, stale, tile⟩ := rep.tile
  exact oldTl_eq rep.stays.spoke (by rw [tile])

theorem Reported.told_ignored (rep : Reported k r d e) (old : d.oldTl r = true) :
    Lane.AsBut ((e.told k r).lane k) (d.lane k) ∧ (e.told k r).link.ct = d.link.ct ∧
      ((e.told k r).tileLink r.tile).temp = (d.tileLink r.tile).temp ∧ ((e.told k r).tileLink r.tile).fseq = (d.tileLink r.tile).fseq := by
  obtain ⟨own, stale, tile⟩ := rep.tile
  rw [told_old (rep.oldTl.trans old), tile]
  exact ⟨rep.lane, rep.stays.ct, rfl, rfl⟩

theorem told_fseq (new : d.oldTl r = false) : ((d.told k r).tileLink r.tile).fseq = r.seq := by
  rw [tileLink_told new]
  exact (noted_noted r).fseq

theorem told_telemetry (new : d.oldTl r = false) (other : r.status ≠ 1) : ((d.told k r).tileLink r.tile).temp = r.f.getD 0 0 ∧
    ((d.told k r).tileLink r.tile).volt = r.f.getD 1 0 ∧ ((d.told k r).tileLink r.tile).lost = r.f.getD 5 0 := by
  obtain ⟨t, tile⟩ := noted_telemetry_fields (d := d) other
  rw [tileLink_told new, tile]
  exact ⟨rfl, rfl, rfl⟩

theorem told_ends {j : CtJob} (new : d.oldTl r = false) (read : r.status = 1) (job : d.link.ct = some j) (tile : j.tile = r.tile)
    (op : j.op = 2) (addr : j.addr = r.f.getD 0 0) :
    (d.told k r).rd R.MVL_CT_RDATA = (r.f.getD 1 0 * 65536 + r.f.getD 2 0) % 2 ^ 32 ∧ (d.told k r).link.ct = none ∧
      (d.told k r).rd R.MVL_CT_STATUS_DONE = 1 ∧ (d.told k r).rd R.MVL_CT_STATUS_BUSY = 0 ∧
      (d.told k r).rd R.MVL_CT_STATUS_ERROR = 0 := by
  rw [told_read new read job tile op addr]
  have ended := ctEnded_ctEnd (d := d.noted r) 0 (some (r.f.getD 1 0 * 65536 + r.f.getD 2 0))
  exact ⟨ctEnd_rdata .., ended.ct, ended.done, ended.busy, ended.error⟩

theorem told_replied (lt : k < 64) {at_ : Time} {l : List (Nat × Nat)} (new : d.oldTl r = false) (reply : r.status = 2)
    (window : (d.lane k).enum = some ⟨some at_, l, false⟩) :
    ((d.told k r).lane k).enum = some ⟨some at_, l ++ [(r.tile, r.hops)], false⟩ := by
  rw [told_enum new reply window, lane_putLane _ _ lt]

end

/-- A block that brings no packet whose check is right, and opens none: it is bad as a whole, or the packet in it is. -/
theorem openBlock_whole {v : Nat} (idle : v / 2 ^ 124 ≠ 0) (long : v / 2 ^ 124 ≠ 10) :
    (openBlock v).2 = [none] ∨ (openBlock v).2 = [some (beBytes 16 v)] := by
  unfold openBlock
  split
  · contradiction
  · exact .inr rfl
  · exact .inr rfl
  · contradiction
  · exact .inl rfl

end Dev

/-! The commands. -/

section

variable {s : State} {k : Fin 64} {bs : List Byte} {r : Ret}

/-- A command that changes no DRAM ends with its effect, and changes the windows that its effect changes. -/
theorem ends_quiet {c : Instr} {d : Dev} {ws : List Nat} (run : exec c s = .next (settle s d)) (keeps : Dev.Keeps ws s.start d) :
    exec c s = .next (s.withDev d) ∧ s.Only ws (s.withDev d) :=
  ⟨run.trans (congrArg Host.Outcome.next (settle_quiet keeps.wq)), State.only_withDev keeps⟩

section

variable (on : s.dev.off = false) (listens : s.dev.Listens k)
include on listens

/-- A packet in one block that fails its check is counted (R273, R294). -/
theorem receives_bad (len : bs.length = 16) (idle : beAt bs 0 1 / 16 ≠ 0) (long : beAt bs 0 1 / 16 ≠ 10) (bad : parseRet bs = none) :
    ∃ t, exec (.akReceive k (s.dev.asBlocks k bs)) s = .next t ∧ s.Only [0x24] t ∧ s.dev.Counted t.dev (R.MVL_RX_BAD k) := by
  have took := Dev.Listens.takes_one (d := s.start) listens len
  have counted : ∀ d : Dev, (openBlock (blockOf bs 0)).2.foldl (fun d p => actReturn k p d) d = d.cnt (R.MVL_RX_BAD k) := fun d => by
    rcases Dev.openBlock_whole (v := blockOf bs 0) (by rwa [blockType len.ge]) (by rwa [blockType len.ge]) with h | h <;>
      rw [h, List.foldl_cons, List.foldl_nil]
    · rfl
    · rw [beBytes_one_block len, Dev.actReturn_bad bad, actRetBad]
  rw [counted] at took
  have run : exec (.akReceive k (s.dev.asBlocks k bs)) s = .next (settle s _) :=
    (exec_akReceive ..).trans ((run_on on _).trans (congrArg (fun d => Host.Outcome.next (settle s d)) took))
  have window : (R.MVL_RX_BAD k).key / 524288 ∈ [0x24] := by
    simp only [R.MVL_RX_BAD, List.mem_cons, List.not_mem_nil, or_false]
    omega
  obtain ⟨run, only⟩ := ends_quiet run (Dev.Keeps.refl.set_link.cnt window)
  exact ⟨_, run, only, Dev.rd_cnt_self ..⟩

/-- A packet that names the other end does nothing. -/
theorem receives_other (parsed : parseRet bs = some r) (other : r.end_ ≠ s.dev.myEnd) :
    ∃ t, exec (.akReceive k (s.dev.asBlocks k bs)) s = .next t ∧ s.Only [] t ∧ Lane.AsBut (t.dev.lane k) (s.dev.lane k) := by
  obtain ⟨l, lane, run⟩ := exec_receive_takes on listens parsed
  rw [Dev.actReturn_other (d := s.start.putLane k l) parsed other] at run
  obtain ⟨run, only⟩ := ends_quiet run Dev.Keeps.refl.set_link
  refine ⟨_, run, only, ?_⟩
  have put : (s.withDev (s.start.putLane k l)).dev.lane k = l := Dev.lane_putLane s.start l k.isLt
  rw [put]
  exact lane

variable (parsed : parseRet bs = some r) (stands : s.dev.EpochStands r)
include parsed stands

/-- A packet that comes to its end reports its tile. -/
theorem receives_report : ∃ l, Dev.Reported k r s.start ((s.start.putLane k l).report k r) ∧ ((s.start.putLane k l).report k r).EpochStands r ∧
    exec (.akReceive k (s.dev.asBlocks k bs)) s = .next (settle s (actReturn k (some bs) (s.start.putLane k l))) := by
  obtain ⟨l, lane, run⟩ := exec_receive_takes on listens parsed
  have rep := Dev.reported (d := s.start) k.isLt lane r
  exact ⟨l, rep, rep.stays.epochStands k.isLt stands, run⟩

variable (mine : r.end_ = s.dev.myEnd)
include mine

theorem receives_ak (type : r.type = 8) : ∃ e, Dev.Reported k r s.start e ∧
    exec (.akReceive k (s.dev.asBlocks k bs)) s = .next (settle s (e.acked k r)) := by
  obtain ⟨l, rep, stands', run⟩ := receives_report on listens parsed stands
  refine ⟨_, rep, run.trans ?_⟩
  rw [Dev.actReturn_ak (d := s.start.putLane k l) parsed mine type, Dev.actAk_eq stands']

theorem receives_nk (still : s.dev.NotComingUp k) (type : r.type = 9) : ∃ e, Dev.Reported k r s.start e ∧
    exec (.nkReceive k (s.dev.asBlocks k bs)) s = .next (settle s ((e.cnt (R.MVL_NK_RX k)).nacked k r)) := by
  obtain ⟨l, rep, -, run⟩ := receives_report on listens parsed stands
  have enum : (((((s.start.putLane k l).report k r).cnt (R.MVL_NK_RX k)).nacked k r).lane k).enum = (s.dev.lane k).enum := by
    have before : ((((s.start.putLane k l).report k r).cnt (R.MVL_NK_RX k)).lane k).enum = (s.dev.lane k).enum := rep.enum
    generalize ((s.start.putLane k l).report k r).cnt (R.MVL_NK_RX k) = x at before
    rcases Dev.nacked_cases (d := x) (k := k) (r := r) with h | ⟨i, h⟩ <;> rw [h]
    · exact before
    · exact (Dev.onFifo_rewind k.isLt i).enum.trans before
  refine ⟨_, rep, (exec_receive _ (.inr (.inl rfl))).trans (run.trans ?_)⟩
  rw [Dev.actReturn_nk (d := s.start.putLane k l) parsed mine type, Dev.actNk_eq, Dev.upAfter_eq (Dev.notComingUp_of_enum still enum)]

theorem receives_tl (type : r.type = 10) : ∃ e, Dev.Reported k r s.start e ∧
    exec (.tlReceive k (s.dev.asBlocks k bs)) s = .next (settle s (e.told k r)) := by
  obtain ⟨l, rep, stands', run⟩ := receives_report on listens parsed stands
  refine ⟨_, rep, (exec_receive _ (.inr (.inr (.inl rfl)))).trans (run.trans ?_)⟩
  rw [Dev.actReturn_tl (d := s.start.putLane k l) parsed mine type, Dev.actTl_eq stands']

end

end

/-- Settles O28: each packet is taken as a report of its tile and as what it does besides; a release, a rewind and the end of a CT change
no more than their rules say. -/
theorem returnPacketsAct : Obligations.ReturnPacketsAct := by
  unfold Obligations.ReturnPacketsAct
  intro s k bs on still listens
  have lt := k.isLt
  refine ⟨fun c named => ⟨fun len idle long bad => ?_, fun r parsed other => ?_⟩, fun r parsed mine stands => ⟨?_, ?_, ?_, ?_, ?_⟩⟩
  · rw [exec_receive _ named]
    exact receives_bad on listens len idle long bad
  · rw [exec_receive _ named]
    exact receives_other on listens parsed other
  · intro type status
    obtain ⟨e, rep, run⟩ := receives_ak on listens parsed stands mine type
    obtain ⟨run, only⟩ := ends_quiet run (rep.keeps_acked lt still status)
    exact ⟨_, run, only, rep.tileEpoch_acked lt still status, fun j q job tile op seq => rep.acked_ends lt still status job tile op seq,
      fun p => rep.acked_released lt still status⟩
  · intro type status unsent
    obtain ⟨e, rep, run⟩ := receives_ak on listens parsed stands mine type
    obtain ⟨keeps, refused⟩ := rep.refused lt status unsent
    obtain ⟨run, only⟩ := ends_quiet run keeps
    exact ⟨_, run, only, refused⟩
  · intro v type status found kind probe live calm
    obtain ⟨e, rep, run⟩ := receives_ak on listens parsed stands mine type
    obtain ⟨keeps, claimed⟩ := rep.claimed lt status found kind probe live calm
    obtain ⟨run, only⟩ := ends_quiet run keeps
    exact ⟨_, run, only, claimed⟩
  · intro type
    obtain ⟨e, rep, run⟩ := receives_nk on listens parsed stands mine still type
    obtain ⟨keeps, counted⟩ := rep.counted_nk lt
    obtain ⟨run, only⟩ := ends_quiet run keeps
    exact ⟨_, run, only, counted, fun i p => rep.nk_sends lt, fun none_ => rep.nk_ignored (d := s.start) none_⟩
  · intro type
    obtain ⟨e, rep, run⟩ := receives_tl on listens parsed stands mine type
    obtain ⟨run, only⟩ := ends_quiet run ((rep.stays.keeps lt).trans ((Dev.keeps_told r).wider (by simp)))
    refine ⟨_, run, only, rep.told_ignored, fun new => Dev.told_fseq (rep.oldTl.trans new), fun new => Dev.told_telemetry (rep.oldTl.trans new),
      fun new read j job => Dev.told_ends (rep.oldTl.trans new) read (rep.stays.ct.trans job), fun new reply at_ l window => ?_⟩
    exact Dev.told_replied lt (rep.oldTl.trans new) reply (rep.enum.trans window)

end Sys2Proof.Machine
end

section
/-!
PROOFS. The return receivers (R272, R323, R328): how a receiver out of lock acquires it, how one in lock loses it, and what the receivers of
lanes in calibration and in loopback make of their blocks.
-/

namespace Sys2Proof.Machine

section

variable {l : Lane} {b : BitVec 130}

/-! One block at a receiver. -/

theorem takeBlock_locked (lock : l.lock = true) : ∃ reg v, takeBlock l b = follow (l.past reg) (b.toNat / 2 ^ 128) v := by
  refine ⟨(descramble 128 l.dscr (b.toNat % 2 ^ 128)).2, (descramble 128 l.dscr (b.toNat % 2 ^ 128)).1, ?_⟩
  rw [takeBlock]
  exact if_pos lock

theorem takeBlock_hunting (lock : l.lock = false) :
    ∃ reg, takeBlock l b = hunt (l.past reg) (b.toNat / 2 ^ 128 = 1 || b.toNat / 2 ^ 128 = 2) := by
  refine ⟨(descramble 128 l.dscr (b.toNat % 2 ^ 128)).2, ?_⟩
  rw [takeBlock]
  exact if_neg (by simp [lock])

/-- A receiver changes in its registers, its lock and its count alone. -/
structure Lane.Hearing (l m : Lane) : Prop where
  fifo  : m.fifo = l.fifo
  pause : m.pause = l.pause

theorem hearing_hunt (valid : Bool) : Lane.Hearing l (hunt l valid).lane := by
  unfold hunt
  generalize (if valid then l.good + 1 else 0) = good
  dsimp only
  rw [apply_ite RxStep.lane]
  split
  · exact ⟨rfl, rfl⟩
  · exact ⟨rfl, rfl⟩

theorem hearing_follow (h v : Nat) : Lane.Hearing l (follow l h v).lane := by
  unfold follow
  dsimp only
  rw [apply_ite RxStep.lane]
  split
  · exact ⟨rfl, rfl⟩
  · exact ⟨rfl, rfl⟩

theorem hearing_takeBlock : Lane.Hearing l (takeBlock l b).lane := by
  cases lock : l.lock with
  | true =>
    obtain ⟨reg, v, took⟩ := takeBlock_locked (b := b) lock
    have heard := hearing_follow (l := l.past reg) (b.toNat / 2 ^ 128) v
    rw [took]
    exact ⟨heard.fifo, heard.pause⟩
  | false =>
    obtain ⟨reg, took⟩ := takeBlock_hunting (b := b) lock
    have heard := hearing_hunt (l := l.past reg) (b.toNat / 2 ^ 128 = 1 || b.toNat / 2 ^ 128 = 2)
    rw [took]
    exact ⟨heard.fifo, heard.pause⟩

/-- The lane as a block leaves it: in an offset trim no packet stands open (R328). -/
def Lane.after (l : Lane) (b : BitVec 130) : Lane :=
  if l.pause.isSome then { (takeBlock l b).lane with rx := none } else (takeBlock l b).lane

theorem Lane.after_lock : (l.after b).lock = (takeBlock l b).lane.lock := by rw [Lane.after, apply_ite Lane.lock, ite_self]
theorem Lane.after_good : (l.after b).good = (takeBlock l b).lane.good := by rw [Lane.after, apply_ite Lane.good, ite_self]
theorem Lane.after_errs : (l.after b).errs = (takeBlock l b).lane.errs := by rw [Lane.after, apply_ite Lane.errs, ite_self]

/-- A block with another header begins the count anew. -/
theorem takeBlock_hunting_invalid (lock : l.lock = false) (invalid : b.toNat / 2 ^ 128 = 0 ∨ b.toNat / 2 ^ 128 = 3) :
    (l.after b).lock = false ∧ (l.after b).good = 0 := by
  obtain ⟨reg, took⟩ := takeBlock_hunting (b := b) lock
  have header : (decide (b.toNat / 2 ^ 128 = 1) || decide (b.toNat / 2 ^ 128 = 2)) = false := by
    rw [Bool.or_eq_false_iff, decide_eq_false_iff_not, decide_eq_false_iff_not]
    omega
  rw [Lane.after_lock, Lane.after_good, took, header]
  exact ⟨lock, rfl⟩

/-- A block with a valid header counts, and the sixty-fourth gives lock. -/
theorem takeBlock_hunting_valid (lock : l.lock = false) (valid : b.toNat / 2 ^ 128 = 1 ∨ b.toNat / 2 ^ 128 = 2) :
    if l.good + 1 = 64 then (l.after b).lock = true ∧ (l.after b).rx = none ∧ (l.after b).errs = 0
    else (l.after b).lock = false ∧ (l.after b).good = l.good + 1 := by
  obtain ⟨reg, took⟩ := takeBlock_hunting (b := b) lock
  have header : (decide (b.toNat / 2 ^ 128 = 1) || decide (b.toNat / 2 ^ 128 = 2)) = true := by
    rw [Bool.or_eq_true, decide_eq_true_eq, decide_eq_true_eq]
    exact valid
  have good : (l.past reg).good = l.good := rfl
  rw [header, hunt, if_pos rfl, good] at took
  rw [Lane.after_lock, Lane.after_errs, Lane.after_good, Lane.after, apply_ite Lane.rx, took]
  split
  · exact ⟨rfl, ite_self _, rfl⟩
  · exact ⟨lock, rfl⟩

/-- A block with an invalid header, or one that continues no packet, is an error, and ends no packet. -/
theorem follow_error {h : Nat} (invalid : h = 0 ∨ h = 3 ∨ h = 1 ∧ l.rx = none) (v : Nat) :
    follow l h v = l.step true (l.rx, []) := by
  rcases invalid with rfl | rfl | ⟨rfl, rx⟩
  · simp [follow, Lane.step]
  · simp [follow, Lane.step]
  · simp [follow, Lane.step, rx]

/-- A block in error at a receiver in lock: it ends no packet, and with the sixteenth among the last 64 the lock is lost. -/
theorem takeBlock_error (lock : l.lock = true)
    (invalid : b.toNat / 2 ^ 128 = 0 ∨ b.toNat / 2 ^ 128 = 3 ∨ b.toNat / 2 ^ 128 = 1 ∧ l.rx = none) :
    (takeBlock l b).err = true ∧ (takeBlock l b).done = [] ∧
      (takeBlock l b).lane.lock = decide (ones ((2 * l.errs + 1) % 2 ^ 64) < 16) := by
  obtain ⟨reg, v, took⟩ := takeBlock_locked (b := b) lock
  have step : takeBlock l b = (l.past reg).step true (l.rx, []) := took.trans (follow_error (l := l.past reg) invalid v)
  have errs : (2 * (l.past reg).errs + b2n true) % 2 ^ 64 = (2 * l.errs + 1) % 2 ^ 64 := rfl
  refine ⟨by rw [step, Lane.step_err], by rw [step, Lane.step_done], ?_⟩
  rw [step, Lane.step]
  dsimp only
  rw [errs, apply_ite RxStep.lane, apply_ite Lane.lock]
  split
  · exact (decide_eq_false (by omega)).symm
  · exact lock.trans (decide_eq_true (by omega)).symm

end

/-! Blocks at a lane. -/

section

variable {d : Dev} {k : Nat}

/-- A receiver out of lock delivers nothing. -/
theorem actBlock_hunting (lock : (d.lane k).lock = false) (b : BitVec 130) : actBlock k b d = d.putLane k ((d.lane k).after b) := by
  obtain ⟨reg, took⟩ := takeBlock_hunting (b := b) lock
  have err : (takeBlock (d.lane k) b).err = false := by rw [took, hunt, apply_ite RxStep.err, ite_self]
  have done : (takeBlock (d.lane k) b).done = [] := by rw [took, hunt, apply_ite RxStep.done, ite_self]
  rw [actBlock, Lane.after, err, done, lock]
  exact (apply_ite (d.putLane k) _ _ _).symm

/-- Nor does one in an offset trim (R328). -/
theorem actBlock_paused (pause : (d.lane k).pause.isSome = true) (b : BitVec 130) : actBlock k b d = d.putLane k ((d.lane k).after b) := by
  rw [actBlock, Lane.after, if_pos pause, if_pos pause]

/-- Valid headers up to the sixty-fourth in a row give lock. -/
theorem actBlocks_lock (lt : k < 64) : ∀ (l : List (BitVec 130)) (d : Dev), (d.lane k).lock = false → (d.lane k).good < 64 →
    (d.lane k).good + l.length = 64 → (∀ b ∈ l, b.toNat / 2 ^ 128 = 1 ∨ b.toNat / 2 ^ 128 = 2) →
    ∃ m, l.foldl (fun d b => actBlock k b d) d = d.putLane k m ∧ m.lock = true ∧ m.rx = none ∧ m.errs = 0
  | [], d, _, few, count, _ => by
    simp at count
    omega
  | b :: l, d, lock, few, count, valid => by
    have next := takeBlock_hunting_valid lock (valid b (by simp))
    simp only [List.length_cons] at count
    rw [List.foldl_cons, actBlock_hunting lock]
    split at next
    · obtain rfl : l = [] := List.length_eq_zero_iff.mp (by omega)
      exact ⟨_, rfl, next⟩
    · obtain ⟨lock', good⟩ := next
      have lane : (d.putLane k ((d.lane k).after b)).lane k = (d.lane k).after b := Dev.lane_putLane _ _ lt
      obtain ⟨m, run, locked⟩ := actBlocks_lock lt l (d.putLane k ((d.lane k).after b)) (by rw [lane, lock'])
        (by rw [lane, good]; omega) (by rw [lane, good]; omega) fun c hc => valid c (by simp [hc])
      exact ⟨m, by rw [run, putLane_putLane], locked⟩

/-- Blocks have come to a lane in an offset trim, and changed its receiver alone. -/
structure Deaf (k : Nat) (d e : Dev) : Prop where
  keeps : Dev.Keeps [] d e
  fifo  : (e.lane k).fifo = (d.lane k).fifo
  pause : (e.lane k).pause = (d.lane k).pause
  tiles : e.tiles = d.tiles
  ct    : e.link.ct = d.link.ct

theorem Deaf.trans {c d e : Dev} (h : Deaf k c d) (h' : Deaf k d e) : Deaf k c e :=
  ⟨h.keeps.trans h'.keeps, h'.fifo.trans h.fifo, h'.pause.trans h.pause, h'.tiles.trans h.tiles, h'.ct.trans h.ct⟩

theorem deaf_actBlocks (lt : k < 64) : ∀ (l : List (BitVec 130)) (d : Dev), (d.lane k).pause.isSome = true →
    Deaf k d (l.foldl (fun d b => actBlock k b d) d)
  | [], _, _ => ⟨.refl, rfl, rfl, rfl, rfl⟩
  | b :: l, d, pause => by
    have heard := hearing_takeBlock (l := d.lane k) (b := b)
    have first : Deaf k d (actBlock k b d) := by
      rw [actBlock_paused pause]
      have lane : (d.putLane k ((d.lane k).after b)).lane k = (d.lane k).after b := Dev.lane_putLane _ _ lt
      have after : (d.lane k).after b = { (takeBlock (d.lane k) b).lane with rx := none } := if_pos pause
      exact ⟨Dev.Keeps.refl.set_link, by rw [lane, after]; exact heard.fifo, by rw [lane, after]; exact heard.pause, rfl, rfl⟩
    exact first.trans (deaf_actBlocks lt l _ (by rw [first.pause]; exact pause))

/-- A block in error is counted, and tells on the run of a lane whose lock it costs. -/
theorem actBlock_error (lock : (d.lane k).lock = true) (pause : (d.lane k).pause = none) {b : BitVec 130}
    (invalid : b.toNat / 2 ^ 128 = 0 ∨ b.toNat / 2 ^ 128 = 3 ∨ b.toNat / 2 ^ 128 = 1 ∧ (d.lane k).rx = none) :
    ∃ calib, actBlock k b d = ({ d.putLane k (takeBlock (d.lane k) b).lane with calib := calib }).cnt (R.MVL_BLOCK_ERR k) := by
  obtain ⟨err, done, -⟩ := takeBlock_error lock invalid
  simp only [actBlock, pause, Option.isSome_none, Bool.false_eq_true, if_false, err, done, if_true, List.foldl_nil]
  split
  · exact ⟨_, rfl⟩
  · exact ⟨_, rfl⟩

end

/-! The commands. -/

section

variable {s : State} {k : Fin 64}

theorem exec_blocks (on : s.dev.off = false) (used : s.dev.laneTested k = false) (l : List (BitVec 130)) :
    exec (.akReceive k l) s = .next (settle s (l.foldl (fun d b => actBlock k b d) s.start)) := by
  have taken : actBlocks k l s.start = l.foldl (fun d b => actBlock k b d) s.start := if_neg (ne_true_of_eq_false used)
  rw [exec_akReceive, run_on on, taken]

/-- Blocks that come to a lane in use, where they change no DRAM. -/
theorem blocks_end {l : List (BitVec 130)} {d : Dev} {ws : List Nat} (on : s.dev.off = false) (used : s.dev.laneTested k = false)
    (act : l.foldl (fun d b => actBlock k b d) s.start = d) (keeps : Dev.Keeps ws s.start d) :
    exec (.akReceive k l) s = .next (s.withDev d) ∧ s.Only ws (s.withDev d) :=
  ends_quiet (act ▸ exec_blocks on used l) keeps

theorem receiver_locks {l : List (BitVec 130)} (on : s.dev.off = false) (used : s.dev.laneTested k = false)
    (lock : (s.dev.lane k).lock = false) (few : (s.dev.lane k).good < 64) (count : (s.dev.lane k).good + l.length = 64)
    (valid : ∀ b ∈ l, b.toNat / 2 ^ 128 = 1 ∨ b.toNat / 2 ^ 128 = 2) :
    ∃ t, exec (.akReceive k l) s = .next t ∧ s.Only [] t ∧ (t.dev.lane k).lock = true ∧ (t.dev.lane k).rx = none ∧
      (t.dev.lane k).errs = 0 := by
  obtain ⟨m, run, locked⟩ := actBlocks_lock k.isLt l s.start lock few count valid
  obtain ⟨run, only⟩ := blocks_end on used run Dev.Keeps.refl.set_link
  have lane : (s.withDev (s.start.putLane k m)).dev.lane k = m := Dev.lane_putLane s.start m k.isLt
  exact ⟨_, run, only, by rw [lane]; exact locked⟩

theorem receiver_begins_anew {b : BitVec 130} (on : s.dev.off = false) (used : s.dev.laneTested k = false)
    (lock : (s.dev.lane k).lock = false) (invalid : b.toNat / 2 ^ 128 = 0 ∨ b.toNat / 2 ^ 128 = 3) :
    ∃ t, exec (.akReceive k [b]) s = .next t ∧ s.Only [] t ∧ (t.dev.lane k).lock = false ∧ (t.dev.lane k).good = 0 := by
  obtain ⟨run, only⟩ := blocks_end (l := [b]) on used (actBlock_hunting (d := s.start) lock b) Dev.Keeps.refl.set_link
  have lane : (s.withDev (s.start.putLane k ((s.start.lane k).after b))).dev.lane k = (s.dev.lane k).after b :=
    Dev.lane_putLane s.start _ k.isLt
  exact ⟨_, run, only, by rw [lane]; exact takeBlock_hunting_invalid lock invalid⟩

theorem receiver_paused (l : List (BitVec 130)) (on : s.dev.off = false) (used : s.dev.laneTested k = false)
    (pause : (s.dev.lane k).pause.isSome = true) :
    ∃ t, exec (.akReceive k l) s = .next t ∧ s.Only [] t ∧ (t.dev.lane k).fifo = (s.dev.lane k).fifo ∧ t.dev.tiles = s.dev.tiles ∧
      t.dev.link.ct = s.dev.link.ct := by
  have deaf := deaf_actBlocks k.isLt l s.start pause
  obtain ⟨run, only⟩ := blocks_end on used rfl deaf.keeps
  exact ⟨_, run, only, deaf.fifo, deaf.tiles, deaf.ct⟩

theorem receiver_errs {b : BitVec 130} (on : s.dev.off = false) (used : s.dev.laneTested k = false) (lock : (s.dev.lane k).lock = true)
    (pause : (s.dev.lane k).pause = none)
    (invalid : b.toNat / 2 ^ 128 = 0 ∨ b.toNat / 2 ^ 128 = 3 ∨ b.toNat / 2 ^ 128 = 1 ∧ (s.dev.lane k).rx = none) :
    ∃ t, exec (.akReceive k [b]) s = .next t ∧ s.Only [0x24] t ∧
      (t.dev.lane k).lock = decide (ones ((2 * (s.dev.lane k).errs + 1) % 2 ^ 64) < 16) ∧
      s.dev.SameBut [(R.MVL_BLOCK_ERR k).key] t.dev ∧ s.dev.Counted t.dev (R.MVL_BLOCK_ERR k) := by
  obtain ⟨calib, act⟩ := actBlock_error (d := s.start) lock pause invalid
  have window : (R.MVL_BLOCK_ERR k).key / 524288 ∈ [0x24] := by
    simp only [R.MVL_BLOCK_ERR, List.mem_cons, List.not_mem_nil, or_false]
    omega
  obtain ⟨run, only⟩ := blocks_end (l := [b]) on used act (Dev.Keeps.refl.set_link.set_calib.cnt window)
  refine ⟨_, run, only, ?_, fun f other => ?_, Dev.rd_cnt_self ..⟩
  · have lane := Dev.lane_putLane s.start (takeBlock (s.start.lane k) b).lane k.isLt
    exact (congrArg Lane.lock lane).trans (takeBlock_error lock invalid).2.2
  · exact Dev.rd_cnt_ne _ _ _ (by simpa using other)

/-- What the return lane brings goes back on the forward lane (R323). -/
theorem receiver_loops_back (l : List (BitVec 130)) (on : s.dev.off = false) (test : s.dev.rd (R.LNE_LCTRL_TEST (k / 8) (k % 8)) = 3)
    (rate : s.dev.laneMode k ≠ 0) :
    exec (.akReceive k l) s = .next (s.withDev (s.start.emit (.forwardBits k
      ((l.flatMap fun b => (List.range 130).map fun i => b.toNat.testBit (129 - i)).flatMap fun x =>
        List.replicate (if s.dev.laneMode k = 2 then 8 else 2) x)))) := by
  have tested : s.start.laneTested k = true := by
    have test' : s.start.rd (R.LNE_LCTRL_TEST (k / 8) (k % 8)) = 3 := test
    simp [Dev.laneTested, test']
  have taken : ∀ bits, s.start.patTakeBits k bits =
      s.start.emit (.forwardBits k (bits.flatMap fun x => List.replicate (if s.dev.laneMode k = 2 then 8 else 2) x)) := fun bits => by
    have test' : s.start.rd (R.LNE_LCTRL_TEST (k / 8) (k % 8)) = 3 := test
    simp only [Dev.patTakeBits, test']
    exact if_neg rate
  rw [exec_akReceive]
  refine run_eq on ?_ rfl
  rw [actBlocks, if_pos tested, taken]

end

end Sys2Proof.Machine
end

section
/-!
PROOFS. O29: the timers of the tile link (R284, R286, R300, R302, R306).
-/

namespace Sys2Proof.Machine
namespace Dev

section

variable {k : Nat} {d e : Dev}

/-! ACK_TO (R286). -/

/-- Time has come to ACK_TO after the last transmission of a packet, and the time-out has been counted. -/
def timedOut (d : Dev) (k : Nat) (p : Pkt) : Dev :=
  (d.upTo (p.lastSent + nanos (100 * Nat.max 10 (d.lv R.MVL_ACK_TO)))).cnt (R.MVL_ACK_TIMEOUT k)

theorem actAckTimeout_eq {i : Nat} {p : Pkt} (pause : (d.lane k).pause = none)
    (oldest : ((d.lane k).fifo.zipIdx.find? fun q => !q.1.released && decide (0 < q.1.sends)) = some (p, i))
    (idle : (d.lane k).tx ≤ i → (d.lane k).upTo ≤ i) : actAckTimeout k d = (d.timedOut k p).rewind k i := by
  simp only [actAckTimeout, oldest]
  refine if_neg fun c => ?_
  simp only [pause, Option.isSome_none, Bool.false_or, Bool.and_eq_true, decide_eq_true_eq] at c
  omega

theorem ackTimeout_window (lt : k < 64) : (R.MVL_ACK_TIMEOUT k).key / 524288 ∈ [4, 0x24] := by
  rw [R.MVL_ACK_TIMEOUT]
  simp only [List.mem_cons, List.not_mem_nil, or_false]
  omega

theorem ackTimeout_offset : (R.MVL_ACK_TIMEOUT k).key = 8 * (0x241000 + 0x40 * k) + 8 * 0x20 := by
  simp only [R.MVL_ACK_TIMEOUT]
  omega

theorem keeps_rewound (lt : k < 64) (i : Nat) (p : Pkt) : Keeps [4, 0x24] d ((d.timedOut k p).rewind k i) :=
  (Keeps.refl.upTo.cnt (ackTimeout_window lt)).trans ((onFifo_rewind lt i).stays.keeps lt)

theorem counted_rewound (lt : k < 64) (i : Nat) (p : Pkt) : d.Counted ((d.timedOut k p).rewind k i) (R.MVL_ACK_TIMEOUT k) := by
  rw [Counted, (onFifo_rewind (d := d.timedOut k p) lt i).stays.rd _ (ackTimeout_offset ▸ notMem_linkKeys_of_offset (by decide)), timedOut,
    rd_cnt_self]
  rfl

theorem time_rewound (lt : k < 64) (i : Nat) (p : Pkt) :
    p.lastSent + nanos (100 * Nat.max 10 (d.lv R.MVL_ACK_TO)) ≤ ((d.timedOut k p).rewind k i).now := by
  have time : p.lastSent + nanos (100 * Nat.max 10 (d.lv R.MVL_ACK_TO)) ≤ (d.timedOut k p).now := Nat.le_max_right ..
  exact time.trans (onFifo_rewind lt i).stays.now

/-! Deadlines (R284, R306). -/

theorem stable_pastDeadline (d : Dev) : Stable fun p => d.pastDeadline p.dead := fun p q later => by simp only [later.dead]

/-- The packets of a lane past their deadlines are released. -/
def expired (d : Dev) (k : Nat) : Dev := d.releaseAll k (fun p => d.pastDeadline p.dead) .exhausted

theorem actDeadline_cases : actDeadline k d = d.expired k ∨ actDeadline k d = (d.expired k).ctEnd 3 none := by
  unfold actDeadline
  dsimp only
  split
  · split
    · exact .inr rfl
    · exact .inl rfl
  · exact .inl rfl

theorem actDeadline_ends (lt : k < 64) {j : CtJob} {pos : Nat} (job : d.link.ct = some j) (past : d.pastDeadline j.dead = true)
    (place : d.tilePlace j.tile = some (k, pos)) : actDeadline k d = (d.expired k).ctEnd 3 none := by
  have stays := (onFifo_releaseAll (d := d) lt (stable_pastDeadline d) .exhausted).stays
  simp only [actDeadline, stays.ct, stays.pastDeadline, stays.tilePlace, job, past, place]
  exact if_pos (by simp)

theorem keeps_actDeadline (lt : k < 64) : Keeps [4, 0x24] d (actDeadline k d) := by
  have expired : Keeps [4, 0x24] d (d.expired k) := (onFifo_releaseAll lt (stable_pastDeadline d) _).stays.keeps lt
  rcases actDeadline_cases (k := k) (d := d) with h | h <;> rw [h]
  · exact expired
  · exact expired.trans ((ctEnded_ctEnd ..).keeps.wider (by simp))

theorem lane_actDeadline : (actDeadline k d).lane k = (d.expired k).lane k := by
  rcases actDeadline_cases (k := k) (d := d) with h | h <;> rw [h]
  rw [Dev.lane, (ctEnded_ctEnd ..).lanes]
  rfl

/-! Stale tiles (R302). -/

/-- The stale timer of a tile expires: the time and the entry. -/
def staled (d : Dev) (k tile : Nat) (t : Time) : Dev :=
  let d := (d.upTo t).setOwnBit tile 3 true
  let d := d.putTile { d.tileLink tile with staleWln := d.wtm.wln % 2 ^ 32 }
  d.log 0x24 k 2 0x00F (tile + 2 ^ 31) 1

/-- When the stale timer of a tile expires. -/
def staleAt (d : Dev) (heard : Nat × Time) : Time := heard.2 + Nat.max 1 (d.lv R.MVL_STALE_WF) * d.framePeriod

/-- The packets of a tile are released as cancelled. -/
def cancelled (d : Dev) (k tile : Nat) : Dev := d.releaseAll k (fun p => p.tile = tile) .cancelled

theorem tileGoesStale_eq {tile pos : Nat} {heard : Nat × Time} (place : d.tilePlace tile = some (k, pos))
    (last : (d.link.heard.find? fun h => h.1 = tile) = some heard) (fresh : d.tileStale tile = false) (up : d.laneUp k = true) :
    d.tileGoesStale tile = ((d.staled k tile (d.staleAt heard)).cancelled k tile).showStale k := by
  simp only [tileGoesStale, place, last, fresh, up]
  rfl

theorem stays_staled (tile : Nat) (t : Time) : Stays k d (d.staled k tile t) := Stays.refl.upTo.setOwnBit.putTile.log

theorem time_staled (tile : Nat) (t : Time) : t ≤ (d.staled k tile t).now := by
  rw [staled, log_now]
  exact Nat.le_max_right ..

theorem tileStale_staled (tile : Nat) (t : Time) : (d.staled k tile t).tileStale tile = true := by
  have stale := tileLink_change ((d.upTo t).setOwnBit tile 3 true) tile
    (fun x => { x with staleWln := ((d.upTo t).setOwnBit tile 3 true).wtm.wln % 2 ^ 32 }) fun _ => rfl
  have link : (d.staled k tile t).tileLink tile = _ := (tileLink_of_tiles (log_tiles ..) tile).trans stale
  rw [tileStale, link, tileLink_setOwnBit]
  exact bit_setBit_true ..

theorem stable_tile (tile : Nat) : Stable fun p => p.tile = tile := fun p q later => by simp only [later.tile]

theorem onFifo_cancelled (lt : k < 64) (tile : Nat) : OnFifo k d (d.cancelled k tile) := onFifo_releaseAll lt (stable_tile tile) _

theorem stays_tileGoesStale (lt : k < 64) (tile : Nat) (t : Time) : Stays k d (((d.staled k tile t).cancelled k tile).showStale k) :=
  ((stays_staled tile t).trans (onFifo_cancelled lt tile).stays).wr (by simp [linkKeys])

theorem tileStale_cancelled (lt : k < 64) {tile : Nat} (stale : d.tileStale tile = true) :
    ((d.cancelled k tile).showStale k).tileStale tile = true := by
  obtain ⟨floor, released⟩ := (onFifo_cancelled (d := d) lt tile).tile tile
  rw [tileStale, showStale, tileLink_of_tiles (wr_tiles ..), released]
  exact stale

/-! The end of an enumeration (R300). -/

/-- Every tile answered from its place, and no more. -/
def allAnswered (d : Dev) (k : Nat) (replies : List (Nat × Nat)) : Bool :=
  let found := replies.map fun r => (r.1, d.hopsPos k r.2)
  decide (found.length = (d.enumTiles k).length) && found.all (fun f => (d.enumTiles k).any fun w => f = (w.1, (w.2 : Int)))
    && (d.enumTiles k).all fun w => found.contains (w.1, (w.2 : Int))

/-- The window for replies has closed, and FOUND shows how many came. -/
def windowClosed (d : Dev) (k : Nat) (at_ : Time) (replies : List (Nat × Nat)) : Dev :=
  (d.upTo (at_ + millis 1 + d.returnTime k)).wr (R.MVL_LSTAT_FOUND k) replies.length

/-- The lane is rightly wired, and waits for its set positions. -/
def rightlyWired (d : Dev) (k : Nat) (at_ : Time) (replies : List (Nat × Nat)) : Dev :=
  (d.wr (R.MVL_LSTAT_MISWIRED k) 0).putLane k { d.lane k with enum := some ⟨some at_, replies, true⟩ }

theorem enum_rightlyWired (lt : k < 64) (at_ : Time) (replies : List (Nat × Nat)) :
    ((d.rightlyWired k at_ replies).lane k).enum = some ⟨some at_, replies, true⟩ :=
  congrArg Lane.enum (lane_putLane (d.wr (R.MVL_LSTAT_MISWIRED k) 0) { d.lane k with enum := some ⟨some at_, replies, true⟩ } lt)

/-- The lane is miswired. -/
def foundMiswired (d : Dev) (k : Nat) : Dev :=
  (((d.wr (R.MVL_LSTAT_MISWIRED k) 1).wr (R.MVL_LSTAT_UP k) 0).putLane k { d.lane k with enum := none }).log 0x24 k 2 0x011 k

/-- The set position of a tile is handed to the FIFO. -/
def sendPosition (d : Dev) (k : Nat) (w : Nat × Nat) : Dev :=
  d.queueDraft k ⟨w.1, 3, d.ctDline, d.deadOf d.ctDline, 0, 0, 0, [], [], 0, w.2⟩

theorem enumEnd_eq {at_ : Time} {replies : List (Nat × Nat)} (window : (d.lane k).enum = some ⟨some at_, replies, false⟩) :
    d.enumEnd k = if d.allAnswered k replies
      then (d.enumTiles k).foldl (fun d w => d.sendPosition k w) ((d.windowClosed k at_ replies).rightlyWired k at_ replies)
      else ((d.windowClosed k at_ replies).foundMiswired k).enumCheck (k / 8) := by
  simp only [enumEnd, window]
  rfl

theorem lane_queueDraft (lt : k < 64) (f : Draft) : (d.queueDraft k f).lane k = { d.lane k with wait := (d.lane k).wait ++ [f] } := by
  rw [queueDraft, Dev.lane, link_showFifo]
  exact lane_putLane _ _ lt

theorem stays_queueDraft (f : Draft) : Stays k d (d.queueDraft k f) := Stays.refl.putLane.trans onFifo_showFifo.stays

/-- Set positions may have been handed to the FIFO of a lane, and nothing else has come of it. -/
structure Positioning (k : Nat) (d e : Dev) : Prop where
  stays : Stays k d e
  enum  : (e.lane k).enum = (d.lane k).enum
  waits : ∀ f ∈ (d.lane k).wait, f ∈ (e.lane k).wait

theorem lane_sendPosition (lt : k < 64) (w : Nat × Nat) :
    ∃ f, f.op = 3 ∧ (d.sendPosition k w).lane k = { d.lane k with wait := (d.lane k).wait ++ [f] } :=
  ⟨_, rfl, lane_queueDraft lt ⟨w.1, 3, d.ctDline, d.deadOf d.ctDline, 0, 0, 0, [], [], 0, w.2⟩⟩

theorem positioning_sendPosition (lt : k < 64) (w : Nat × Nat) : Positioning k d (d.sendPosition k w) := by
  obtain ⟨g, -, lane⟩ := lane_sendPosition (d := d) lt w
  exact ⟨stays_queueDraft _, by rw [lane], fun f hf => by rw [lane]; exact List.mem_append_left _ hf⟩

theorem waits_sendPosition (lt : k < 64) (w : Nat × Nat) : ∃ f ∈ ((d.sendPosition k w).lane k).wait, f.op = 3 := by
  obtain ⟨f, op, lane⟩ := lane_sendPosition (d := d) lt w
  exact ⟨f, by rw [lane]; exact List.mem_append_right _ (List.mem_singleton_self _), op⟩

theorem positioning_all (lt : k < 64) : ∀ (l : List (Nat × Nat)) (d : Dev), Positioning k d (l.foldl (fun d w => d.sendPosition k w) d)
  | [], _ => ⟨.refl, rfl, fun _ hf => hf⟩
  | w :: l, d => by
    have first := positioning_sendPosition (d := d) lt w
    have rest := positioning_all lt l (d.sendPosition k w)
    exact ⟨first.stays.trans rest.stays, rest.enum.trans first.enum, fun f hf => rest.waits f (first.waits f hf)⟩

/-- Where there is a tile, a set position waits. -/
theorem position_waits (lt : k < 64) {l : List (Nat × Nat)} (some_ : l ≠ []) :
    ∃ f ∈ ((l.foldl (fun d w => d.sendPosition k w) d).lane k).wait, f.op = 3 := by
  obtain ⟨w, l, rfl⟩ := List.exists_cons_of_ne_nil some_
  obtain ⟨f, hf, op⟩ := waits_sendPosition (d := d) lt w
  exact ⟨f, (positioning_all lt l _).waits f hf, op⟩

/-- A lane whose set positions wait does not come up yet. -/
theorem upAfter_waits {at_ : Time} {replies : List (Nat × Nat)} (window : (d.lane k).enum = some ⟨some at_, replies, true⟩)
    (waits : ∃ f ∈ (d.lane k).wait, f.op = 3) : d.upAfter k = d := by
  obtain ⟨f, hf, op⟩ := waits
  have check : d.laneUpCheck k = (d, false) := by
    simp only [laneUpCheck, window]
    refine if_pos (Bool.or_eq_true_iff.mpr (.inr (List.any_eq_true.mpr ⟨f, hf, ?_⟩)))
    simp [op]
  simp [upAfter, check]

theorem keeps_enumCheck {j : Nat} (lt : j < 8) : Keeps laneWins d (d.enumCheck j) :=
  .ite (Keeps.refl.set_link.trans (keeps_seekMode _ lt)) .refl

theorem link_seekMode (j : Nat) : ∃ o, (d.seekMode j).link = { d.link with octets := o } := by
  unfold seekMode startChange
  dsimp only
  split
  · exact ⟨_, rfl⟩
  · split
    · exact ⟨_, rfl⟩
    · split
      · exact ⟨_, rfl⟩
      · exact ⟨_, rfl⟩

theorem now_seekMode (j : Nat) : (d.seekMode j).now = d.now := by
  unfold seekMode startChange
  dsimp only
  split
  · rfl
  · split
    · rfl
    · split
      · rfl
      · rfl

theorem lane_enumCheck (j i : Nat) : (d.enumCheck j).lane i = d.lane i := by
  unfold enumCheck
  split
  · obtain ⟨o, link⟩ := link_seekMode (d := d.putOctet j { d.octet j with enum := false }) j
    rw [Dev.lane, link]
    rfl
  · rfl

theorem now_enumCheck (j : Nat) : (d.enumCheck j).now = d.now := by
  unfold enumCheck
  split
  · exact now_seekMode j
  · rfl

/-! What the end of an enumeration shows. -/

theorem lstat_window {k o : Nat} (lt : k < 64) (small : o < 512) : (8 * (0x241000 + 0x40 * k) + o) / 524288 ∈ [4, 0x24] := by
  simp only [List.mem_cons, List.not_mem_nil, or_false]
  omega

theorem miswired_ne_found (k : Nat) : (R.MVL_LSTAT_MISWIRED k).key ≠ (R.MVL_LSTAT_FOUND k).key := by
  simp only [R.MVL_LSTAT_MISWIRED, R.MVL_LSTAT_FOUND]
  omega

theorem up_ne_found (k : Nat) : (R.MVL_LSTAT_UP k).key ≠ (R.MVL_LSTAT_FOUND k).key := by
  simp only [R.MVL_LSTAT_UP, R.MVL_LSTAT_FOUND]
  omega

theorem up_ne_miswired (k : Nat) : (R.MVL_LSTAT_UP k).key ≠ (R.MVL_LSTAT_MISWIRED k).key := by
  simp only [R.MVL_LSTAT_UP, R.MVL_LSTAT_MISWIRED]
  omega

/-- An enumeration has ended: the time, FOUND and MISWIRED. -/
structure EnumEnded (k : Nat) (at_ : Time) (replies : List (Nat × Nat)) (miswired : Bool) (d e : Dev) : Prop where
  keeps : Keeps (4 :: 0x24 :: laneWins) d e
  time  : at_ + millis 1 + d.returnTime k ≤ e.now
  found : e.rd (R.MVL_LSTAT_FOUND k) = replies.length % 2 ^ (R.MVL_LSTAT_FOUND k).width
  wired : e.rdb (R.MVL_LSTAT_MISWIRED k) = miswired

variable {at_ : Time} {replies : List (Nat × Nat)}

theorem keeps_windowClosed (lt : k < 64) : Keeps [4, 0x24] d (d.windowClosed k at_ replies) := Keeps.refl.upTo.wr (lstat_window lt (by decide))

theorem enumEnded_right (lt : k < 64) (l : List (Nat × Nat)) : EnumEnded k at_ replies false d
    (l.foldl (fun d w => d.sendPosition k w) ((d.windowClosed k at_ replies).rightlyWired k at_ replies)) := by
  have sent := (positioning_all lt l ((d.windowClosed k at_ replies).rightlyWired k at_ replies)).stays
  refine ⟨?_, ?_, ?_, ?_⟩
  · exact (((keeps_windowClosed lt).wr (lstat_window lt (by decide))).set_link.trans (sent.keeps lt)).wider (by simp +contextual)
  · exact (Nat.le_max_right ..).trans sent.now
  · rw [sent.rd _ (notMem_linkKeys_of_offset (by decide))]
    exact (rd_wr_ne (d.windowClosed k at_ replies) _ _ 0 (miswired_ne_found k).symm).trans (rd_wr_self ..)
  · rw [rdb, sent.rd _ (notMem_linkKeys_of_offset (by decide))]
    have clear := rd_wr_self (d.windowClosed k at_ replies) (R.MVL_LSTAT_MISWIRED k) 0
    exact (congrArg (· != 0) clear).trans rfl

theorem enumEnded_wrong (lt : k < 64) : EnumEnded k at_ replies true d
    (((d.windowClosed k at_ replies).foundMiswired k).enumCheck (k / 8)) := by
  have octet : k / 8 < 8 := by omega
  have checked := keeps_enumCheck (d := (d.windowClosed k at_ replies).foundMiswired k) octet
  have lane : ∀ o, o < 512 → (8 * (0x241000 + 0x40 * k) + o) / 524288 ∉ laneWins := fun o small c => by
    have := key_mem_window lt small
    simp [this, laneWins] at c
  have log : ∀ o, o < 512 → 8 * (0x241000 + 0x40 * k) + o ≠ R.ERR_DROPPED.key := fun o small => by
    simp only [R.ERR_DROPPED]
    omega
  refine ⟨?_, ?_, ?_, ?_⟩
  · have closed := ((keeps_windowClosed (d := d) (at_ := at_) (replies := replies) lt).wr
      (f := R.MVL_LSTAT_MISWIRED k) (v := 1) (lstat_window lt (by decide))).wr (f := R.MVL_LSTAT_UP k) (v := 0) (lstat_window lt (by decide))
    exact ((closed.set_link.log (by simp [R.ERR_DROPPED])).wider (by simp +contextual)).trans (checked.wider (by simp +contextual))
  · rw [now_enumCheck, foundMiswired, log_now]
    exact Nat.le_max_right ..
  · rw [checked.rd _ (lane _ (by decide)), foundMiswired, rd_log _ _ _ _ _ _ _ _ (log _ (by decide))]
    refine (rd_wr_ne ((d.windowClosed k at_ replies).wr (R.MVL_LSTAT_MISWIRED k) 1) _ _ 0 (up_ne_found k).symm).trans ?_
    exact (rd_wr_ne _ _ _ _ (miswired_ne_found k).symm).trans (rd_wr_self ..)
  · rw [rdb, checked.rd _ (lane _ (by decide)), foundMiswired, rd_log _ _ _ _ _ _ _ _ (log _ (by decide))]
    have set_ := (rd_wr_ne ((d.windowClosed k at_ replies).wr (R.MVL_LSTAT_MISWIRED k) 1) (R.MVL_LSTAT_UP k) (R.MVL_LSTAT_MISWIRED k) 0
      (up_ne_miswired k).symm).trans (rd_wr_self ..)
    exact (congrArg (· != 0) set_).trans rfl

theorem lane_foundMiswired (lt : k < 64) : ((d.foundMiswired k).lane k).enum = none := by
  rw [foundMiswired, Dev.lane, log_link]
  exact congrArg Lane.enum (lane_putLane ((d.wr (R.MVL_LSTAT_MISWIRED k) 1).wr (R.MVL_LSTAT_UP k) 0) _ lt)

/-- At the end of an enumeration the lane is miswired unless every tile and no more answered from its place; it does not come up yet. -/
theorem enumEnded (lt : k < 64) (window : (d.lane k).enum = some ⟨some at_, replies, false⟩) (some_ : d.enumTiles k ≠ []) :
    EnumEnded k at_ replies (!d.allAnswered k replies) d ((d.enumEnd k).upAfter k) := by
  rw [enumEnd_eq window]
  cases answered : d.allAnswered k replies with
  | true =>
    rw [if_pos rfl]
    have enum := (positioning_all lt (d.enumTiles k) ((d.windowClosed k at_ replies).rightlyWired k at_ replies)).enum
    rw [upAfter_waits (enum.trans (enum_rightlyWired lt ..)) (position_waits lt some_)]
    exact enumEnded_right lt _
  | false =>
    rw [if_neg (by simp), upAfter_eq fun x hx => by
      rw [lane_enumCheck, lane_foundMiswired lt] at hx
      cases hx]
    exact enumEnded_wrong lt

end

end Dev

/-! The commands. -/

section

variable {s : State}

/-- A command whose act is known and changes no DRAM. -/
theorem run_quiet_ends {c : Instr} {f : List Host.Cell → Dev → Dev} {d : Dev} {ws : List Nat} (on : s.dev.off = false)
    (run_ : exec c s = run s f) (act : f s.mem s.start = d) (keeps : Dev.Keeps ws s.start d) :
    exec c s = .next (s.withDev d) ∧ s.Only ws (s.withDev d) :=
  ⟨run_.trans (run_eq on act keeps.wq), State.only_withDev keeps⟩

theorem ackTimeout_sends {k : Fin 64} {i : Nat} {p : Pkt} (on : s.dev.off = false) (still : s.dev.NotComingUp k)
    (pause : (s.dev.lane k).pause = none)
    (oldest : ((s.dev.lane k).fifo.zipIdx.find? fun q => !q.1.released && decide (0 < q.1.sends)) = some (p, i))
    (idle : (s.dev.lane k).tx ≤ i → (s.dev.lane k).upTo ≤ i) :
    ∃ t, exec (.ackTimeout k) s = .next t ∧ s.Only [4, 0x24] t ∧ p.lastSent + nanos (100 * Nat.max 10 (s.dev.lv R.MVL_ACK_TO)) ≤ t.dev.now ∧
      s.dev.Counted t.dev (R.MVL_ACK_TIMEOUT k) ∧ (p.sends < 3 → (t.dev.lane k).fifo[(t.dev.lane k).tx]? = some p) := by
  have lt := k.isLt
  have still' : (s.start.timedOut k p).NotComingUp k := still
  have act : (actAckTimeout k s.start).upAfter k = (s.start.timedOut k p).rewind k i := by
    rw [Dev.actAckTimeout_eq (d := s.start) pause oldest idle]
    exact Dev.upAfter_eq (Dev.notComingUp_of_enum still' (Dev.onFifo_rewind lt i).enum)
  obtain ⟨run, only⟩ := run_quiet_ends on (exec_ackTimeout k s) act (Dev.keeps_rewound lt i p)
  have test := List.find?_some oldest
  simp only [Bool.and_eq_true, Bool.not_eq_true'] at test
  have get : ((s.start.timedOut k p).lane k).fifo[i]? = some p := List.mem_zipIdx_iff_getElem?.mp (List.mem_of_find?_eq_some oldest)
  have time := Dev.time_rewound (d := s.start) lt i p
  have counted := Dev.counted_rewound (d := s.start) lt i p
  have next := Dev.rewind_next lt get test.1
  generalize (s.start.timedOut k p).rewind k i = e at run only time counted next
  exact ⟨_, run, only, time, counted, next⟩

theorem packetDeadline_releases (k : Fin 64) (on : s.dev.off = false) (still : s.dev.NotComingUp k) :
    ∃ t, exec (.packetDeadline k) s = .next t ∧ s.Only [4, 0x24] t ∧
      (∀ p ∈ (t.dev.lane k).fifo, s.dev.pastDeadline p.dead = true → p.released = true) ∧
      ∀ (j : CtJob) (pos : Nat), s.dev.link.ct = some j → s.dev.pastDeadline j.dead = true → s.dev.tilePlace j.tile = some (k.val, pos) →
        t.dev.link.ct = none ∧ t.dev.rd R.MVL_CT_STATUS_DONE = 1 ∧ t.dev.rd R.MVL_CT_STATUS_ERROR = 3 := by
  have lt := k.isLt
  have stable := Dev.stable_pastDeadline s.start
  have lane : (actDeadline k s.start).lane k = (s.start.expired k).lane k := Dev.lane_actDeadline
  have enum : ((s.start.expired k).lane k).enum = (s.start.lane k).enum := (Dev.onFifo_releaseAll lt stable .exhausted).enum
  have act : (actDeadline k s.start).upAfter k = actDeadline k s.start :=
    Dev.upAfter_eq (Dev.notComingUp_of_enum (d := s.start) still (by rw [lane, enum]))
  obtain ⟨run, only⟩ := run_quiet_ends on (exec_packetDeadline k s) act (Dev.keeps_actDeadline lt)
  have released : ∀ p ∈ ((actDeadline k s.start).lane k).fifo, s.dev.pastDeadline p.dead = true → p.released = true := fun p hp past =>
    Dev.releaseAll_mem lt stable .exhausted (by rwa [lane] at hp) past
  have ended : ∀ (j : CtJob) (pos : Nat), s.dev.link.ct = some j → s.dev.pastDeadline j.dead = true →
      s.dev.tilePlace j.tile = some (k.val, pos) → Dev.CtEnded (s.start.expired k) (actDeadline k s.start) 3 := fun j pos job past place => by
    rw [Dev.actDeadline_ends (d := s.start) lt job past place]
    exact Dev.ctEnded_ctEnd ..
  generalize actDeadline k s.start = e at run only released ended
  refine ⟨_, run, only, released, fun j pos job past place => ?_⟩
  have ended := ended j pos job past place
  exact ⟨ended.ct, ended.done, ended.error⟩

theorem tile_goes_stale {tile : BitVec 12} {k pos : Nat} {heard : Nat × Time} (on : s.dev.off = false)
    (place : s.dev.tilePlace tile.toNat = some (k, pos)) (lt : k < 64)
    (last : (s.dev.link.heard.find? fun h => h.1 = tile.toNat) = some heard) (fresh : s.dev.tileStale tile.toNat = false)
    (up : s.dev.laneUp k = true) :
    ∃ t, exec (.tileStale tile) s = .next t ∧ s.Only [4, 0x24] t ∧ t.dev.tileStale tile.toNat = true ∧
      heard.2 + Nat.max 1 (s.dev.lv R.MVL_STALE_WF) * s.dev.framePeriod ≤ t.dev.now ∧
      ∀ p ∈ (t.dev.lane k).fifo, p.tile = tile.toNat → p.released = true := by
  have act := Dev.tileGoesStale_eq (d := s.start) place last fresh up
  obtain ⟨run, only⟩ := run_quiet_ends on (exec_tileStale tile s) act ((Dev.stays_tileGoesStale lt _ _).keeps lt)
  have stale := Dev.tileStale_cancelled lt (Dev.tileStale_staled (k := k) (d := s.start) tile.toNat (s.start.staleAt heard))
  have time := (Dev.time_staled (k := k) (d := s.start) tile.toNat (s.start.staleAt heard)).trans
    (Dev.onFifo_cancelled lt tile.toNat).stays.now
  have released : ∀ p ∈ (((s.start.staled k tile.toNat (s.start.staleAt heard)).cancelled k tile.toNat).lane k).fifo,
      p.tile = tile.toNat → p.released = true := fun p hp tile =>
    Dev.releaseAll_mem lt (Dev.stable_tile _) .cancelled hp (decide_eq_true tile)
  generalize (s.start.staled k tile.toNat (s.start.staleAt heard)).cancelled k tile.toNat = e at run only stale time released
  exact ⟨_, run, only, stale, time, released⟩

end

/-- Settles O29: the receiver's lemmas on one block and on a run of them; each timer is time passing, then a release, a rewind or the end of a CT. -/
theorem receiversAndLinkTimers : Obligations.ReceiversAndLinkTimers := by
  unfold Obligations.ReceiversAndLinkTimers
  refine ⟨fun s k l on => ⟨fun c named => ?_, receiver_locks on, fun b => receiver_begins_anew on, receiver_paused l on,
    fun b => receiver_errs on, receiver_loops_back l on⟩, fun s k i p => ackTimeout_sends, fun s k => packetDeadline_releases k,
    fun s tile k pos heard => tile_goes_stale, fun s k at_ l on window some_ => ?_⟩
  · simp only [List.mem_cons, List.not_mem_nil, or_false] at named
    rcases named with rfl | rfl | rfl | rfl | rfl <;> rfl
  · have ended := Dev.enumEnded (d := s.start) k.isLt window some_
    obtain ⟨run, only⟩ := run_quiet_ends on (exec_enumWindowEnd k s) rfl ended.keeps
    exact ⟨_, run, only, ended.time, ended.found, ended.wired⟩

end Sys2Proof.Machine
end

section
/-!
PROOFS. Calibration's queue: RESULT of a unit, units that join the queue once (R327), queued units that start to run, and retries.
-/

namespace Sys2Proof.Machine
namespace Dev

/-! RESULT of a unit. -/

/-- The field that shows RESULT of a unit. -/
def resultFld (u : CalUnit) : Fld := match u.kind with
  | 0 => R.LNE_CAL_STATUS_RESULT (u.n / 8) (u.n % 8)
  | 1 => R.CAM_CAL_STATUS_RESULT u.n
  | _ => R.DRM_CALR_RESULT (u.n / 8) (u.n % 8)

/-- The window in which a unit's registers stand. -/
def unitWin (u : CalUnit) : Nat := match u.kind with
  | 0 => 0x30 + u.n / 8
  | 1 => 0x10 + u.n
  | _ => 0x50 + u.n / 8

theorem calResult_eq (d : Dev) (u : CalUnit) : d.calResult u = d.rd (resultFld u) := by
  obtain ⟨kind, n⟩ := u
  match kind with
  | 0 | 1 | _ + 2 => rfl

theorem showResult_eq (d : Dev) (u : CalUnit) (v : Nat) : d.showResult u v = d.wr (resultFld u) v := by
  obtain ⟨kind, n⟩ := u
  match kind with
  | 0 | 1 | _ + 2 => rfl

theorem resultFld_width (u : CalUnit) : (resultFld u).width = 3 := by
  unfold resultFld
  split <;> rfl

theorem resultFld_window (u : CalUnit) : (resultFld u).key / 524288 = unitWin u := by
  unfold resultFld unitWin
  split <;> simp only [R.LNE_CAL_STATUS_RESULT, R.CAM_CAL_STATUS_RESULT, R.DRM_CALR_RESULT] <;> omega

section

variable {ws : List Nat} {c d e : Dev} {u : CalUnit}

/-! A unit joins the queue (R327). -/

/-- Units may have joined the queue of calibration, and nothing else has come of it. -/
structure Queues (ws : List Nat) (d e : Dev) : Prop where
  keeps : Keeps ws d e
  now   : e.now = d.now
  queue : d.calib.queue <+: e.calib.queue
  runs  : e.calib.runs = d.calib.runs
  retry : e.calib.retry = d.calib.retry

theorem Queues.refl : Queues ws d d := ⟨.refl, rfl, List.prefix_rfl, rfl, rfl⟩

theorem Queues.trans (h : Queues ws c d) (h' : Queues ws d e) : Queues ws c e :=
  ⟨h.keeps.trans h'.keeps, h'.now.trans h.now, h.queue.trans h'.queue, h'.runs.trans h.runs, h'.retry.trans h.retry⟩

theorem Queues.calDue (h : Queues ws d e) (due : d.CalDue u) : e.CalDue u := by
  rcases due with queued | runs
  · exact .inl (h.queue.subset queued)
  · exact .inr (h.runs ▸ runs)

/-- A unit stands at the end of the queue. -/
def enqueued (d : Dev) (u : CalUnit) : Dev := { d with calib := { d.calib with queue := d.calib.queue ++ [u] } }

theorem queueCal_of_due (due : d.CalDue u) : d.queueCal u = d := if_pos (by simpa [CalDue] using due)

theorem queueCal_of_not_due (new : ¬ d.CalDue u) :
    d.queueCal u = if u.kind = 0 ∨ u.kind = 2 then (d.enqueued u).wr (resultFld u) 5 else d.enqueued u := by
  have waits : (d.calib.queue.contains u || d.calib.runs.any fun r => decide (r.unit = u)) = false := by simpa [CalDue] using new
  unfold queueCal resultFld
  rw [if_neg (ne_true_of_eq_false waits)]
  dsimp only
  split
  · next h => rw [h]; rfl
  · next h => rw [h]; rfl
  · next h0 h2 => rw [if_neg fun h => h.elim h0 h2]; rfl

theorem queueCal_queues (win : u.kind = 0 ∨ u.kind = 2 → unitWin u ∈ ws) : Queues ws d (d.queueCal u) := by
  have joined : Queues ws d (d.enqueued u) := ⟨Keeps.refl.set_calib, rfl, List.prefix_append .., rfl, rfl⟩
  by_cases due : d.CalDue u
  · rw [queueCal_of_due due]
    exact .refl
  · rw [queueCal_of_not_due due]
    split
    · next shown => exact { joined with keeps := joined.keeps.wr (resultFld_window u ▸ win shown) }
    · exact joined

theorem calDue_queueCal : (d.queueCal u).CalDue u := by
  by_cases due : d.CalDue u
  · rwa [queueCal_of_due due]
  · rw [queueCal_of_not_due due]
    exact .inl (by split <;> simp [enqueued])

/-- Of units asked for one after another, each is due at the end. -/
theorem queueCals_queues {α : Type} (unit : α → CalUnit) : ∀ (l : List α) (d : Dev),
    (∀ a ∈ l, (unit a).kind = 0 ∨ (unit a).kind = 2 → unitWin (unit a) ∈ ws) →
    Queues ws d (l.foldl (fun d a => d.queueCal (unit a)) d) ∧ ∀ a ∈ l, (l.foldl (fun d a => d.queueCal (unit a)) d).CalDue (unit a)
  | [], _, _ => ⟨.refl, fun _ m => nomatch m⟩
  | a :: l, d, win => by
    obtain ⟨first, rest⟩ := List.forall_mem_cons.mp win
    obtain ⟨queues, due⟩ := queueCals_queues unit l (d.queueCal (unit a)) rest
    exact ⟨(queueCal_queues first).trans queues, List.forall_mem_cons.mpr ⟨queues.calDue calDue_queueCal, due⟩⟩

theorem queueRx_queues (d : Dev) : Queues laneWins d d.queueRx ∧ ∀ k < 64, d.laneUp k = true → d.queueRx.CalDue ⟨0, k⟩ := by
  obtain ⟨queues, due⟩ := queueCals_queues (ws := laneWins) (fun k => ⟨0, k⟩) ((List.range 64).filter d.laneUp) d fun k m _ =>
    mem_laneWins (j := k / 8) (by have := List.mem_range.mp (List.mem_filter.mp m).1; omega)
  exact ⟨queues, fun k lt up => due k (List.mem_filter.mpr ⟨List.mem_range.mpr lt, up⟩)⟩

theorem queueCams_queues (d : Dev) : Queues [] d d.queueCams ∧ ∀ n < 8, d.queueCams.CalDue ⟨1, n⟩ := by
  obtain ⟨queues, due⟩ := queueCals_queues (ws := []) (fun n => ⟨1, n⟩) (List.range 8) d fun n _ shown => by simp at shown
  exact ⟨queues, fun n lt => due n (List.mem_range.mpr lt)⟩

theorem queueDram_queues (d : Dev) :
    Queues [0x50, 0x51, 0x52, 0x53] d d.queueDram ∧ ∀ c < 32, d.queueDram.CalDue ⟨2, c⟩ := by
  obtain ⟨queues, due⟩ := queueCals_queues (ws := [0x50, 0x51, 0x52, 0x53]) (fun c => ⟨2, c⟩) (List.range 32) d fun c m _ => by
    have := List.mem_range.mp m
    simp only [unitWin, List.mem_cons, List.not_mem_nil, or_false]
    omega
  exact ⟨queues, fun c lt => due c (List.mem_range.mpr lt)⟩

/-! A queued unit starts to run. -/

/-- The run of a unit that starts now. -/
def freshRun (d : Dev) (u : CalUnit) : CalRun := ⟨u, 0, d.now, d.now, 0, 0, 0, false⟩

theorem startRun_keeps (win : unitWin u ∈ ws) : Keeps ws d (d.startRun u) := by
  rw [startRun, showResult_eq]
  exact Keeps.refl.set_calib.wr (resultFld_window u ▸ win)

theorem startRun_calib : (d.startRun u).calib =
    { d.calib with queue := d.calib.queue.erase u, runs := d.freshRun u :: d.calib.runs } := by
  rw [startRun, showResult_eq]
  rfl

theorem startRun_now : (d.startRun u).now = d.now := by
  rw [startRun, showResult_eq]
  rfl

theorem startRun_link : (d.startRun u).link = d.link := by
  rw [startRun, showResult_eq]
  rfl

theorem calRun_startRun : (d.startRun u).calRun u = some ((d.startRun u).freshRun u) := by
  have fresh : (d.startRun u).freshRun u = d.freshRun u := by rw [freshRun, startRun_now, freshRun]
  rw [calRun, startRun_calib, fresh]
  simp [freshRun]

theorem rd_startRun_result : (d.startRun u).rd (resultFld u) = 4 := by
  rw [startRun, showResult_eq, rd_wr_self, resultFld_width]
  rfl

theorem rd_startRun_ne {f : Fld} (other : f.key ≠ (resultFld u).key) : (d.startRun u).rd f = d.rd f := by
  rw [startRun, showResult_eq, rd_wr_ne _ _ _ _ other]
  rfl

variable {k : Nat}

/-- The receiver of a lane delivers nothing, and its ACK_TO stands still (R328). -/
def trimming (d : Dev) (k : Nat) : Dev := d.putLane k { d.lane k with lock := false, pause := some d.now }

/-- A return lane's run starts in its turn: the first lane of its octet in the queue, with no other of the octet in a run (R327). -/
theorem actRxStart_starts (queued : (⟨0, k⟩ : CalUnit) ∈ d.calib.queue)
    (first : ∀ u ∈ d.calib.queue, u.kind = 0 → u.n / 8 = k / 8 → k ≤ u.n)
    (alone : ∀ r ∈ d.calib.runs, r.unit.kind = 0 → r.unit.n / 8 ≠ k / 8) (steady : d.laneChanging k = false) :
    actRxStart k d = (d.startRun ⟨0, k⟩).trimming k := by
  have turn : (d.calib.queue.any fun u => decide (u.kind = 0) && decide (u.n / 8 = k / 8) && decide (u.n < k)) = false := by
    simpa using first
  have idle : (d.calib.runs.any fun r => decide (r.unit.kind = 0) && decide (r.unit.n / 8 = k / 8)) = false := by
    simpa using alone
  unfold actRxStart
  dsimp only
  rw [if_pos (by rw [turn, idle, steady]; simpa using queued)]
  rfl

/-- A camera port's run starts 10 µs after the rise of VS (R329). -/
theorem actCamCalStart_starts {n : Nat} {rise : Time} (queued : (⟨1, n⟩ : CalUnit) ∈ d.calib.queue)
    (last : (d.cam n).lastRise = some rise) (blank : (d.cam n).vs = true) (may : d.camCalOk n = true) :
    actCamCalStart n d = ((((d.upTo (rise + micros 10)).putCam n { d.cam n with defers := 0 }).flag n (R.CAM_CAL_STATUS_STARVED n) 2 false
      false).startRun ⟨1, n⟩) := by
  unfold actCamCalStart
  rw [last]
  exact if_pos (by simpa [blank, may] using queued)

/-- A DRAM channel's run starts 100 µs after the last one's end (R330). -/
theorem actDramWindow_starts {c : Nat} (queued : (⟨2, c⟩ : CalUnit) ∈ d.calib.queue)
    (first : ∀ u ∈ d.calib.queue, u.kind = 2 → c ≤ u.n) (alone : ∀ r ∈ d.calib.runs, r.unit.kind ≠ 2) :
    actDramWindow c d = (d.upTo (d.calib.dramAt + micros 100)).startRun ⟨2, c⟩ := by
  have turn : (d.calib.queue.any fun u => decide (u.kind = 2) && decide (u.n < c)) = false := by simpa using first
  have idle : (d.calib.runs.any fun r => decide (r.unit.kind = 2)) = false := by simpa using alone
  unfold actDramWindow
  dsimp only
  rw [if_pos (by rw [turn, idle]; simpa using queued)]

/-- Time has come to a retry of a unit, and it is armed no more. -/
def retried (d : Dev) (u : CalUnit) (t : Time) : Dev :=
  { d.upTo t with calib := { d.calib with retry := d.calib.retry.filter fun x => x.1 != u } }

end

end Dev

/-! The commands. -/

section

variable {s : State} {ws : List Nat}

/-- A write to a register whose clock runs leaves its effect, and an answer without an error. -/
theorem writeTo_ends {c : Instr} {addr : Nat} {v : Dev → Nat} {f : Dev → Dev} (bus : s.BusFree addr)
    (run_ : exec c s = run s fun _ d => d.writeTo addr (v d) f) (keeps : Dev.Keeps ws s.start (f s.start)) :
    exec c s = .next (s.answered (f s.start) 0 false) ∧ s.Only ws (s.answered (f s.start) 0 false) := by
  obtain ⟨on, wait, clock⟩ := bus
  have act := Dev.access_free (d := s.start) wait clock (some (v s.start)) fun d => (f d, 0, false)
  exact ⟨run_.trans (run_eq on act keeps.wq), State.only_answered keeps ..⟩

theorem lctrlGo_queues (k : Fin 64) (bus : s.BusFree (0x300100 + 0x10000 * (k.val / 8) + 0x40 * (k.val % 8)))
    (new : ¬ s.dev.CalDue ⟨0, k⟩) :
    ∃ t, exec (.lctrlGo k) s = .next t ∧ s.Only [0x30 + k.val / 8] t ∧ t.dev.calib.queue = s.dev.calib.queue ++ [⟨0, k⟩] ∧
      t.dev.rd (R.LNE_CAL_STATUS_RESULT (k.val / 8) (k.val % 8)) = 5 := by
  have queues : Dev.Queues [0x30 + k.val / 8] s.start (actLctrlGo k s.start) := Dev.queueCal_queues fun _ => by simp [Dev.unitWin]
  have act : actLctrlGo k s.start = (s.start.enqueued ⟨0, k⟩).wr (Dev.resultFld ⟨0, k⟩) 5 := Dev.queueCal_of_not_due (d := s.start) new
  obtain ⟨run, only⟩ := writeTo_ends bus (exec_lctrlGo k s) queues.keeps
  rw [act] at run only
  exact ⟨_, run, only, rfl, (Dev.rd_wr_self (s.start.enqueued ⟨0, k⟩) (Dev.resultFld ⟨0, k⟩) 5).trans rfl⟩

theorem camCalGo_queues (n : Fin 8) (bus : s.BusFree (0x100200 + 0x10000 * n.val)) (new : ¬ s.dev.CalDue ⟨1, n⟩) :
    ∃ t, exec (.camCalGo n) s = .next t ∧ s.Only [] t ∧ t.dev.calib.queue = s.dev.calib.queue ++ [⟨1, n⟩] := by
  have queues : Dev.Queues [] s.start (actCamCalGo n s.start) := Dev.queueCal_queues fun shown => by simp at shown
  have act : actCamCalGo n s.start = s.start.enqueued ⟨1, n⟩ := Dev.queueCal_of_not_due (d := s.start) new
  obtain ⟨run, only⟩ := writeTo_ends bus (exec_camCalGo n s) queues.keeps
  rw [act] at run only
  exact ⟨_, run, only, rfl⟩

theorem calReqRx_queues (bus : s.BusFree 0x1080C) :
    ∃ t, exec .calReqRx s = .next t ∧ s.Only [0x30, 0x31, 0x32, 0x33, 0x34, 0x35, 0x36, 0x37] t ∧
      s.dev.calib.queue <+: t.dev.calib.queue ∧ ∀ k : Fin 64, s.dev.laneUp k = true → t.dev.CalDue ⟨0, k⟩ := by
  obtain ⟨queues, due⟩ := Dev.queueRx_queues s.start
  obtain ⟨run, only⟩ := writeTo_ends bus (exec_calReqRx s) queues.keeps
  generalize s.start.queueRx = e at run only queues due
  exact ⟨_, run, only, queues.queue, fun k up => due k k.isLt up⟩

theorem calReqCam_queues (bus : s.BusFree 0x1080C) :
    ∃ t, exec .calReqCam s = .next t ∧ s.Only [] t ∧ s.dev.calib.queue <+: t.dev.calib.queue ∧ ∀ n : Fin 8, t.dev.CalDue ⟨1, n⟩ := by
  obtain ⟨queues, due⟩ := Dev.queueCams_queues s.start
  obtain ⟨run, only⟩ := writeTo_ends bus (exec_calReqCam s) queues.keeps
  generalize s.start.queueCams = e at run only queues due
  exact ⟨_, run, only, queues.queue, fun n => due n n.isLt⟩

theorem calReqDram_queues (bus : s.BusFree 0x1080C) :
    ∃ t, exec .calReqDram s = .next t ∧ s.Only [0x50, 0x51, 0x52, 0x53] t ∧ s.dev.calib.queue <+: t.dev.calib.queue ∧
      ∀ c : Fin 32, t.dev.CalDue ⟨2, c⟩ := by
  obtain ⟨queues, due⟩ := Dev.queueDram_queues s.start
  obtain ⟨run, only⟩ := writeTo_ends bus (exec_calReqDram s) queues.keeps
  generalize s.start.queueDram = e at run only queues due
  exact ⟨_, run, only, queues.queue, fun c => due c c.isLt⟩

theorem rxCal_starts (k : Fin 64) (on : s.dev.off = false) (queued : (⟨0, k⟩ : CalUnit) ∈ s.dev.calib.queue)
    (first : ∀ u ∈ s.dev.calib.queue, u.kind = 0 → u.n / 8 = k.val / 8 → k.val ≤ u.n)
    (alone : ∀ r ∈ s.dev.calib.runs, r.unit.kind = 0 → r.unit.n / 8 ≠ k.val / 8) (steady : s.dev.laneChanging k = false) :
    ∃ t, exec (.rxCalStart k) s = .next t ∧ s.Only [0x30 + k.val / 8] t ∧
      t.dev.calRun ⟨0, k⟩ = some ⟨⟨0, k⟩, 0, t.dev.now, t.dev.now, 0, 0, 0, false⟩ ∧
      t.dev.calib.queue = s.dev.calib.queue.erase ⟨0, k⟩ ∧
      t.dev.rd (R.LNE_CAL_STATUS_RESULT (k.val / 8) (k.val % 8)) = 4 ∧
      t.dev.lane k = { s.dev.lane k with lock := false, pause := some t.dev.now } := by
  have keeps : Dev.Keeps [0x30 + k.val / 8] s.start ((s.start.startRun ⟨0, k⟩).trimming k) :=
    (Dev.startRun_keeps (by simp [Dev.unitWin])).set_link
  obtain ⟨run, only⟩ := run_quiet_ends on (exec_rxCalStart k s) (Dev.actRxStart_starts (d := s.start) queued first alone steady) keeps
  refine ⟨_, run, only, Dev.calRun_startRun (d := s.start), ?_, Dev.rd_startRun_result (d := s.start) (u := ⟨0, k⟩), ?_⟩
  · exact congrArg CalibPart.queue Dev.startRun_calib
  · have lane : (s.start.startRun ⟨0, k⟩).lane k = s.dev.lane k := by rw [Dev.lane, Dev.startRun_link]; rfl
    exact (Dev.lane_putLane _ _ k.isLt).trans (by rw [lane]; rfl)

theorem camCal_starts (n : Fin 8) {rise : Time} (on : s.dev.off = false) (queued : (⟨1, n⟩ : CalUnit) ∈ s.dev.calib.queue)
    (last : (s.dev.cam n).lastRise = some rise) (blank : (s.dev.cam n).vs = true) (may : s.dev.camCalOk n = true) :
    ∃ t, exec (.camCalStart n) s = .next t ∧ s.Only [4, 0x10 + n.val] t ∧
      t.dev.calRun ⟨1, n⟩ = some ⟨⟨1, n⟩, 0, t.dev.now, t.dev.now, 0, 0, 0, false⟩ ∧ rise + micros 10 ≤ t.dev.now ∧
      t.dev.rd (R.CAM_CAL_STATUS_RESULT n) = 4 ∧ t.dev.rdb (R.CAM_CAL_STATUS_STARVED n) = false := by
  have act := Dev.actCamCalStart_starts (d := s.start) queued last blank may
  have starved : (R.CAM_CAL_STATUS_STARVED n).key / 524288 = 0x10 + n.val := by simp only [R.CAM_CAL_STATUS_STARVED]; omega
  have flagged : Dev.Keeps [4, 0x10 + n.val] s.start (((s.start.upTo (rise + micros 10)).putCam n { s.start.cam n with defers := 0 }).flag n
      (R.CAM_CAL_STATUS_STARVED n) 2 false false) := Dev.Keeps.refl.upTo.set_cams.flag (by simp [R.ERR_DROPPED]) (by simp [starved])
  have now : rise + micros 10 ≤ (((s.start.upTo (rise + micros 10)).putCam n { s.start.cam n with defers := 0 }).flag n
      (R.CAM_CAL_STATUS_STARVED n) 2 false false).now := by
    rw [Dev.flag_now]
    exact Nat.le_max_right ..
  have clear := Dev.rdb_flag_self ((s.start.upTo (rise + micros 10)).putCam n { s.start.cam n with defers := 0 }) n
    (R.CAM_CAL_STATUS_STARVED n) 2 false false (by simp only [R.CAM_CAL_STATUS_STARVED, R.ERR_DROPPED]; omega) rfl
  generalize ((s.start.upTo (rise + micros 10)).putCam n { s.start.cam n with defers := 0 }).flag n (R.CAM_CAL_STATUS_STARVED n) 2 false
    false = d at act flagged now clear
  obtain ⟨run, only⟩ := run_quiet_ends on (exec_camCalStart n s) act (flagged.trans (Dev.startRun_keeps (by simp [Dev.unitWin])))
  refine ⟨_, run, only, Dev.calRun_startRun (d := d), now.trans_eq Dev.startRun_now.symm, Dev.rd_startRun_result (u := ⟨1, n⟩), ?_⟩
  have kept : (d.startRun ⟨1, n⟩).rd (R.CAM_CAL_STATUS_STARVED n) = d.rd (R.CAM_CAL_STATUS_STARVED n) :=
    Dev.rd_startRun_ne (by simp only [Dev.resultFld, R.CAM_CAL_STATUS_STARVED, R.CAM_CAL_STATUS_RESULT]; omega)
  exact (congrArg (· != 0) kept).trans clear

theorem dramCal_starts (c : Fin 32) (on : s.dev.off = false) (queued : (⟨2, c⟩ : CalUnit) ∈ s.dev.calib.queue)
    (first : ∀ u ∈ s.dev.calib.queue, u.kind = 2 → c.val ≤ u.n) (alone : ∀ r ∈ s.dev.calib.runs, r.unit.kind ≠ 2) :
    ∃ t, exec (.dramCalWindow c) s = .next t ∧ s.Only [0x50 + c.val / 8] t ∧
      t.dev.calRun ⟨2, c⟩ = some ⟨⟨2, c⟩, 0, t.dev.now, t.dev.now, 0, 0, 0, false⟩ ∧ s.dev.calib.dramAt + micros 100 ≤ t.dev.now ∧
      t.dev.rd (R.DRM_CALR_RESULT (c.val / 8) (c.val % 8)) = 4 := by
  have keeps : Dev.Keeps [0x50 + c.val / 8] (s.start.upTo (s.dev.calib.dramAt + micros 100))
      ((s.start.upTo (s.dev.calib.dramAt + micros 100)).startRun ⟨2, c⟩) := Dev.startRun_keeps (by simp [Dev.unitWin])
  obtain ⟨run, only⟩ := run_quiet_ends on (exec_dramCalWindow c s) (Dev.actDramWindow_starts (d := s.start) queued first alone)
    (Dev.Keeps.refl.upTo.trans keeps)
  exact ⟨_, run, only, Dev.calRun_startRun,
    (Nat.le_max_right s.dev.now _).trans_eq (Dev.startRun_now (d := s.start.upTo (s.dev.calib.dramAt + micros 100))).symm,
    Dev.rd_startRun_result (u := ⟨2, c⟩)⟩

theorem calRetry_queues (kind : CalKind) (n : Fin 64) {r : CalUnit × Time} (on : s.dev.off = false)
    (due : (s.dev.calib.retry.find? fun r => r.1 = calUnit kind n) = some r) :
    ∃ t, exec (.calRetry kind n) s = .next t ∧ t.mem = s.mem ∧ t.pending = s.pending ∧ r.2 ≤ t.dev.now ∧
      t.dev.CalDue (calUnit kind n) ∧ ∀ x ∈ t.dev.calib.retry, x.1 ≠ calUnit kind n := by
  have act : actRetry kind n s.start = (s.start.retried (calUnit kind n) r.2).queueCal (calUnit kind n) := by
    simp only [actRetry, show s.start.calib = s.dev.calib from rfl, due]
    rfl
  have queues : Dev.Queues [Dev.unitWin (calUnit kind n)] (s.start.retried (calUnit kind n) r.2) _ :=
    Dev.queueCal_queues (u := calUnit kind n) fun _ => List.mem_singleton_self _
  refine ⟨_, (exec_calRetry kind n s).trans (run_eq on act queues.keeps.wq), rfl, rfl, ?_, Dev.calDue_queueCal, fun x m => ?_⟩
  · exact (Nat.le_max_right ..).trans_eq queues.now.symm
  · have left : x ∈ (s.start.retried (calUnit kind n) r.2).calib.retry := queues.retry ▸ m
    simpa using (List.mem_filter.mp left).2

end

/-- Settles O33: a request is units joining the queue (`queueCals_queues`), a start is `startRun` in its turn and time, and a retry is a
unit joining the queue. -/
theorem calibrationQueuesAndStarts : Obligations.CalibrationQueuesAndStarts := by
  unfold Obligations.CalibrationQueuesAndStarts
  exact ⟨fun s k => lctrlGo_queues k, fun s n => camCalGo_queues n,
    fun s bus => ⟨calReqRx_queues bus, calReqCam_queues bus, calReqDram_queues bus⟩, fun s k => rxCal_starts k,
    fun s n rise => camCal_starts n, fun s c => dramCal_starts c, fun s kind n r => calRetry_queues kind n⟩

end Sys2Proof.Machine
end

section
/-!
PROOFS. Calibration's runs (R328, R331): the phases of a return run, and the ends of runs, good and bad. What easing, the log and the
drawing of taps leave alone is said once, in `CalKeeps`; what the end of a run does is said once, in `RunEnded`.
-/

namespace Sys2Proof.Machine

/-- The numbers of units that there are: 64 lanes, 8 camera ports, 32 DRAM channels. -/
def CalUnit.Real (u : CalUnit) : Prop := match u.kind with
  | 0 => u.n < 64
  | 1 => u.n < 8
  | _ => u.n < 32

theorem real_calUnit (kind : CalKind) (n : Fin 64) : (calUnit kind n).Real := by
  have := n.isLt
  cases kind <;> simp only [calUnit, CalUnit.Real] <;> omega

namespace Dev

/-! What the parts of a run's end leave alone. -/

/-- The bit address of a field of CLK, or of RESULT of a unit. -/
def calKey (k : Nat) : Prop :=
  k / 524288 = 1 ∨ (k / 524288 / 8 = 2 ∧ k % 524288 = 8 * 0x204) ∨ (k / 524288 / 8 = 6 ∧ k % 512 = 64) ∨
    (k / 524288 / 4 = 0x14 ∧ k % 32 = 0)

/-- e has of d: OFF, the DRAM writes made, the time, the runs in progress, every field of CLK and RESULT of every unit. -/
structure CalKeeps (d e : Dev) : Prop where
  off  : e.off = d.off
  wq   : e.wq = d.wq
  now  : e.now = d.now
  runs : e.calib.runs = d.calib.runs
  rd   : ∀ f : Fld, calKey f.key → e.rd f = d.rd f

namespace CalKeeps

variable {c d e : Dev}

theorem refl : CalKeeps d d := ⟨rfl, rfl, rfl, rfl, fun _ _ => rfl⟩

theorem trans (h : CalKeeps c d) (h' : CalKeeps d e) : CalKeeps c e :=
  ⟨h'.off.trans h.off, h'.wq.trans h.wq, h'.now.trans h.now, h'.runs.trans h.runs, fun f k => (h'.rd f k).trans (h.rd f k)⟩

theorem wr {f : Fld} {v : Nat} (other : ¬ calKey f.key) (h : CalKeeps d e) : CalKeeps d (e.wr f v) :=
  ⟨h.off, h.wq, h.now, h.runs, fun g k => (rd_wr_ne e f g v fun c => other (c ▸ k)).trans (h.rd g k)⟩

theorem wrb {f : Fld} {v : Bool} (other : ¬ calKey f.key) (h : CalKeeps d e) : CalKeeps d (e.wrb f v) := h.wr other

/-- A change of parts that this says nothing of. -/
theorem parts {e' : Dev} (h : CalKeeps d e) (off : e'.off = e.off) (wq : e'.wq = e.wq) (now : e'.now = e.now)
    (runs : e'.calib.runs = e.calib.runs) (regs : e'.regs = e.regs) : CalKeeps d e' :=
  h.trans ⟨off, wq, now, runs, fun f _ => congrArg (fun r => (SMap.find? r f.key).getD f.reset) regs⟩

theorem drawn (h : CalKeeps d e) : CalKeeps d e.drawn := h.parts rfl rfl rfl rfl rfl
theorem setDram {l : List (List Nat × List Nat)} (h : CalKeeps d e) : CalKeeps d { e with calib := { e.calib with dram := l } } :=
  h.parts rfl rfl rfl rfl rfl
theorem putLane {k : Nat} {l : Lane} (h : CalKeeps d e) : CalKeeps d (e.putLane k l) := h.parts rfl rfl rfl rfl rfl

theorem log {s i c k x p : Nat} (h : CalKeeps d e) : CalKeeps d (e.log s i c k x p) :=
  h.trans ⟨log_off .., log_wq .., log_now .., by rw [log_calib],
    fun f m => rd_log _ _ _ _ _ _ _ _ fun c => by
      rw [c] at m
      simp only [calKey, R.ERR_DROPPED] at m
      omega⟩

theorem ite {p : Prop} [Decidable p] {a b : Dev} (ha : CalKeeps d a) (hb : CalKeeps d b) : CalKeeps d (if p then a else b) := by
  split
  · exact ha
  · exact hb

theorem foldl {α : Type} {f : Dev → α → Dev} : ∀ (l : List α) {e : Dev}, (∀ x, ∀ a ∈ l, CalKeeps x (f x a)) → CalKeeps d e →
    CalKeeps d (l.foldl f e)
  | [], _, _, h => h
  | a :: r, _, k, h => foldl r (fun x b m => k x b (List.mem_cons_of_mem _ m)) (h.trans (k _ a List.mem_cons_self))

/-- Values drawn one after another, with what has been drawn. -/
theorem foldl_fst {α β : Type} {f : Dev × β → α → Dev × β} (step : ∀ x a, CalKeeps x.1 (f x a).1) : ∀ (l : List α) (x : Dev × β),
    CalKeeps x.1 (l.foldl f x).1
  | [], _ => refl
  | a :: r, x => (step x a).trans (foldl_fst step r (f x a))

end CalKeeps

section

variable {d : Dev} {u : CalUnit}

theorem calKeeps_pick (d : Dev) (kind : Nat) (l : List Nat) (none_ : Nat) : CalKeeps d (d.pick kind l none_).1 := by
  unfold pick
  split
  · exact .refl
  · exact .drawn .refl

theorem calKeeps_eyeField (d : Dev) (n : Nat) : CalKeeps d (d.eyeField n).1 := by
  unfold eyeField
  split
  · exact .refl
  · exact .drawn .refl

/-- A field of a lane's window, but RESULT. -/
theorem not_calKey_lane {k a b : Nat} (lt : k < 64) (off : (8 * a + b) % 512 ≠ 64) (lo : 0x300100 ≤ a) (hi : 8 * a + b < 8 * 0x300140) :
    ¬ calKey (8 * (a + 0x10000 * (k / 8) + 0x40 * (k % 8)) + b) := by
  unfold calKey
  omega

/-- A field of a camera port's window, but RESULT. -/
theorem not_calKey_cam {n a b : Nat} (lt : n < 8) (off : 8 * a + b ≠ 8 * 0x100204) (lo : 0x100000 ≤ a) (hi : 8 * a + b < 8 * 0x110000) :
    ¬ calKey (8 * (a + 0x10000 * n) + b) := by
  unfold calKey
  omega

theorem not_calKey_dly {n i b : Nat} (lt : n < 8) (tap : i < 32) (small : b < 32) :
    ¬ calKey (8 * (0x100100 + 0x10000 * n + 0x4 * i) + b) := by
  unfold calKey
  omega

/-- A field of a DRAM channel's calibration register, but RESULT. -/
theorem not_calKey_dram {c b : Nat} (lt : c < 32) (off : b ≠ 0) (small : b < 32) :
    ¬ calKey (8 * (0x500600 + 0x10000 * (c / 8) + 0x4 * (c % 8)) + b) := by
  unfold calKey
  omega

theorem calKeeps_easeRx {k : Nat} (lt : k < 64) (d : Dev) (jump : Bool) : CalKeeps d (d.easeRx jump k) := by
  have phase : ¬ calKey (R.LNE_RX_TAPS_PHASE (k / 8) (k % 8)).key := not_calKey_lane lt (by decide) (by decide) (by decide)
  have thr : ¬ calKey (R.LNE_RX_TAPS_THR (k / 8) (k % 8)).key := not_calKey_lane lt (by decide) (by decide) (by decide)
  have easing : ¬ calKey (R.LNE_CAL_STATUS_EASING (k / 8) (k % 8)).key := not_calKey_lane lt (by decide) (by decide) (by decide)
  exact .ite (.wr easing (.wr thr (.wr phase .refl))) (.wrb easing (.wr thr (.wr phase .refl)))

theorem calKeeps_easeCam {n : Nat} (lt : n < 8) (d : Dev) (jump : Bool) : CalKeeps d (d.easeCam jump n) := by
  have median : ¬ calKey (R.CAM_CTL_DLY_TAP n).key := not_calKey_cam lt (by decide) (by decide) (by decide)
  have tap : ∀ i ∈ List.range 32, ¬ calKey (R.CAM_DLY_TAP n i).key := fun i m => not_calKey_dly lt (List.mem_range.mp m) (by decide)
  unfold easeCam
  dsimp only
  exact .ite (.foldl _ (fun _ i m => .wr (tap i m) .refl) .refl)
    (.wr median (.trans (.foldl _ (fun _ i m => .wr (tap i m) .refl) .refl) (calKeeps_pick ..)))

theorem calKeeps_easeNow (d : Dev) : CalKeeps d d.easeNow := by
  have lanes : CalKeeps d ((List.range 64).foldl (fun d k => d.easeRx true k) d) :=
    .foldl _ (fun x _ m => calKeeps_easeRx (List.mem_range.mp m) x true) .refl
  have ports := lanes.trans (.foldl (f := fun d n => d.easeCam true n) _ (fun x _ m => calKeeps_easeCam (List.mem_range.mp m) x true) .refl)
  unfold easeNow easeAll
  exact .ite .refl (.setDram ports)

theorem calKeeps_resumeTimer (d : Dev) (k : Nat) : CalKeeps d (d.resumeTimer k) := by
  unfold resumeTimer
  dsimp only
  split
  · exact .putLane .refl
  · exact .refl

theorem calKeeps_resumeAck (d : Dev) (k : Nat) : CalKeeps d (d.resumeAck k) :=
  .ite .refl ((CalKeeps.putLane .refl).trans (calKeeps_resumeTimer ..))

/-! The end of a run (R331). -/

/-- The field that shows RUNS of a unit. -/
def runsFld (u : CalUnit) : Fld := match u.kind with
  | 0 => R.LNE_CAL_STATUS_RUNS (u.n / 8) (u.n % 8)
  | 1 => R.CAM_CAL_STATUS_RUNS u.n
  | _ => R.DRM_CALR_RUNS (u.n / 8) (u.n % 8)

theorem countRun_eq (d : Dev) (u : CalUnit) : d.countRun u = d.cntWrap (runsFld u) := by
  obtain ⟨kind, n⟩ := u
  match kind with
  | 0 | 1 | _ + 2 => rfl

theorem not_calKey_runs (real : u.Real) : ¬ calKey (runsFld u).key := by
  obtain ⟨kind, n⟩ := u
  match kind with
  | 0 => exact not_calKey_lane real (by decide) (by decide) (by decide)
  | 1 => exact not_calKey_cam real (by decide) (by decide) (by decide)
  | _ + 2 => exact not_calKey_dram real (by decide) (by decide)

theorem calKey_result (real : u.Real) : calKey (resultFld u).key := by
  obtain ⟨kind, n⟩ := u
  match kind with
  | 0 | 1 | _ + 2 =>
    simp only [CalUnit.Real] at real
    simp only [resultFld, calKey, R.LNE_CAL_STATUS_RESULT, R.CAM_CAL_STATUS_RESULT, R.DRM_CALR_RESULT]
    omega

theorem result_not_clk {f : Fld} (clk : f.key / 524288 = 1) (u : CalUnit) : f.key ≠ (resultFld u).key := by
  intro same
  have window := resultFld_window u
  rw [← same, clk] at window
  unfold unitWin at window
  split at window <;> omega

/-- A run of a unit has ended: RESULT shows how, one of CLK's counters counts it, and CLK is otherwise as it was. -/
structure RunEnded (u : CalUnit) (result : Nat) (count : Fld) (d e : Dev) : Prop where
  off     : e.off = d.off
  wq      : e.wq = d.wq
  now     : e.now = d.now
  ended   : e.calRun u = none
  result  : e.calResult u = result
  counted : d.Counted e count
  clk     : ∀ f : Fld, f.key / 524288 = 1 → f.key ≠ count.key → e.rd f = d.rd f

variable {result : Nat} {count : Fld} {c e : Dev}

theorem RunEnded.after (h : RunEnded u result count d e) (before : CalKeeps c d) (clk : count.key / 524288 = 1) :
    RunEnded u result count c e :=
  ⟨h.off.trans before.off, h.wq.trans before.wq, h.now.trans before.now, h.ended, h.result,
    by rw [Counted, h.counted, before.rd _ (.inl clk)], fun f w n => (h.clk f w n).trans (before.rd f (.inl w))⟩

theorem RunEnded.then (h : RunEnded u result count c d) (real : u.Real) (after : CalKeeps d e) (clk : count.key / 524288 = 1) :
    RunEnded u result count c e :=
  ⟨after.off.trans h.off, after.wq.trans h.wq, after.now.trans h.now, by rw [calRun, after.runs]; exact h.ended,
    by rw [calResult_eq, after.rd _ (calKey_result real), ← calResult_eq, h.result],
    by rw [Counted, after.rd _ (.inl clk), h.counted], fun f w n => (after.rd f (.inl w)).trans (h.clk f w n)⟩

/-- The device with another state of calibration. -/
def putCalib (d : Dev) (x : CalibPart) : Dev := { d with calib := x }

theorem dropRun_with (d : Dev) (u : CalUnit) (x : CalibPart) : { d.dropRun u with calib := x } = d.putCalib x := by
  unfold dropRun
  dsimp only
  split <;> rfl

theorem dropRun_runs (d : Dev) (u : CalUnit) : (d.dropRun u).calib.runs = d.calib.runs.filter fun x => x.unit != u := by
  unfold dropRun
  dsimp only
  split <;> rfl

theorem rd_dropRun (d : Dev) (u : CalUnit) (f : Fld) : (d.dropRun u).rd f = d.rd f := by
  unfold dropRun
  dsimp only
  split <;> rfl

/-- RESULT shows how a run has ended, and the run is counted. -/
def endShown (d : Dev) (u : CalUnit) (v : Nat) (count : Fld) : Dev := ((d.showResult u v).countRun u).cnt count

theorem endShown_eq (d : Dev) (u : CalUnit) (v : Nat) (count : Fld) :
    d.endShown u v count = (((d.wr (resultFld u) v).cntWrap (runsFld u)).cnt count) := by
  rw [endShown, showResult_eq, countRun_eq]

theorem runEnded_shown (real : u.Real) {x : CalibPart} (left : x.runs = d.calib.runs.filter fun x => x.unit != u) {v : Nat} (small : v < 8)
    (clk : count.key / 524288 = 1) : RunEnded u v count d ((d.putCalib x).endShown u v count) := by
  rw [endShown_eq]
  have shown : ∀ f : Fld, f.key / 524288 = 1 → (((d.putCalib x).wr (resultFld u) v).cntWrap (runsFld u)).rd f = d.rd f := fun f w =>
    (rd_cntWrap_ne _ _ _ fun c => not_calKey_runs real (c ▸ .inl w)).trans (rd_wr_ne _ _ _ _ (result_not_clk w u))
  refine ⟨rfl, rfl, rfl, ?_, ?_, ?_, fun f w n => ?_⟩
  · have gone : x.runs.find? (fun r => decide (r.unit = u)) = none := by
      rw [left]
      simp
    exact gone
  · rw [calResult_eq, rd_cnt_ne _ _ _ (result_not_clk clk u).symm, rd_cntWrap_ne _ _ _ fun c => not_calKey_runs real (c ▸ calKey_result real),
      rd_wr_self, resultFld_width]
    exact Nat.mod_eq_of_lt small
  · rw [Counted, rd_cnt_self, shown _ clk]
  · rw [rd_cnt_ne _ _ _ n, shown f w]

/-- A run ends good. -/
theorem runEnded_runGood (real : u.Real) (d : Dev) : RunEnded u 1 R.CLK_RUNS_GOOD d (d.runGood u) := by
  have act : d.runGood u = ((d.putCalib _).endShown u 1 R.CLK_RUNS_GOOD).easeNow :=
    congrArg (fun x : Dev => (x.endShown u 1 R.CLK_RUNS_GOOD).easeNow) (dropRun_with d u _)
  rw [act]
  refine RunEnded.then (runEnded_shown real ?_ (by decide) rfl) real (calKeeps_easeNow _) rfl
  exact dropRun_runs d u

/-- The state of calibration after a bad run: the run has left, and a retry may be armed (R331). -/
def badCalib (d : Dev) (u : CalUnit) : CalibPart :=
  let n := (((d.calib.bad.find? fun b => b.1 = u).map Prod.snd).getD 0) + 1
  { (d.dropRun u).calib with
    bad := (u, n) :: (d.dropRun u).calib.bad.filter fun b => b.1 != u
    anyBad := true
    retry := if n ≤ (d.dropRun u).rd R.CLK_CAL_CFG_RETRIES then
      (u, d.now + millis (d.rd R.CLK_CAL_RETRY_MS)) :: (d.dropRun u).calib.retry.filter fun r => r.1 != u else (d.dropRun u).calib.retry }

/-- A return lane's bad runs are counted by the lane, too. -/
def badCounted (d : Dev) (u : CalUnit) : Dev := if u.kind = 0 then d.cnt (R.LNE_CAL_BAD (u.n / 8) (u.n % 8)) else d

theorem runBad_eq (d : Dev) (u : CalUnit) (eyeTaps : Nat) (timedOut : Bool) : ∃ src detail, d.runBad u eyeTaps timedOut =
    (((d.putCalib (d.badCalib u)).endShown u 2 R.CLK_RUNS_BAD).badCounted u).log src u.n 2 0x00E detail :=
  ⟨_, _, congrArg (fun x : Dev => ((x.endShown u 2 R.CLK_RUNS_BAD).badCounted u).log _ u.n 2 0x00E _) (dropRun_with d u (d.badCalib u))⟩

/-- A run ends bad. -/
theorem runEnded_runBad (real : u.Real) (d : Dev) (eyeTaps : Nat) (timedOut : Bool) :
    RunEnded u 2 R.CLK_RUNS_BAD d (d.runBad u eyeTaps timedOut) := by
  have counted : ∀ e : Dev, CalKeeps e (e.badCounted u) := fun e => by
    unfold badCounted
    split
    · next lane =>
      simp only [CalUnit.Real, lane] at real
      exact .wr (not_calKey_lane real (by decide) (by decide) (by decide)) .refl
    · exact .refl
  obtain ⟨src, detail, act⟩ := runBad_eq d u eyeTaps timedOut
  rw [act]
  refine RunEnded.then (runEnded_shown real ?_ (by decide) rfl) real (.log (counted _)) rfl
  exact dropRun_runs d u

theorem calib_runBad (d : Dev) (u : CalUnit) (eyeTaps : Nat) (timedOut : Bool) : (d.runBad u eyeTaps timedOut).calib = d.badCalib u := by
  obtain ⟨src, detail, act⟩ := runBad_eq d u eyeTaps timedOut
  rw [act, log_calib, badCounted, apply_ite Dev.calib, cnt_calib, ite_self, endShown_eq]
  rfl

/-- Of a unit without a bad run before, a retry is armed where RETRIES allows one. -/
theorem runBad_retries (d : Dev) (eyeTaps : Nat) (timedOut : Bool) (first : d.calib.bad.find? (fun b => b.1 = u) = none)
    (allowed : 1 ≤ d.rd R.CLK_CAL_CFG_RETRIES) :
    (u, d.now + millis (d.rd R.CLK_CAL_RETRY_MS)) ∈ (d.runBad u eyeTaps timedOut).calib.retry := by
  have armed : (d.badCalib u).retry = (u, d.now + millis (d.rd R.CLK_CAL_RETRY_MS)) :: (d.dropRun u).calib.retry.filter fun r => r.1 != u := by
    simp [badCalib, first, rd_dropRun, allowed]
  rw [calib_runBad, armed]
  exact List.mem_cons_self

/-- A run has passed 2 ms: TIMEOUTS counts it, and it has ended bad. -/
theorem runEnded_runTimeout (real : u.Real) (d : Dev) (r : CalRun) :
    RunEnded u 2 R.CLK_RUNS_BAD ((d.upTo (r.start + millis 2)).cnt R.CLK_TIMEOUTS) (d.runTimeout u r) :=
  (runEnded_runBad real _ _ true).after (.ite (calKeeps_resumeAck ..) .refl) rfl

theorem calib_resumeAck (d : Dev) (k : Nat) : (d.resumeAck k).calib = d.calib := by
  unfold resumeAck resumeTimer
  dsimp only
  split
  · rfl
  · split <;> rfl

/-- A run is late: the time, TIMEOUTS, and the receiver of a lane listens again. -/
def timedOutRun (d : Dev) (u : CalUnit) (r : CalRun) : Dev :=
  let e := (d.upTo (r.start + millis 2)).cnt R.CLK_TIMEOUTS
  if u.kind = 0 then e.resumeAck u.n else e

theorem runTimeout_retries (d : Dev) (r : CalRun) (first : d.calib.bad.find? (fun b => b.1 = u) = none)
    (allowed : 1 ≤ d.rd R.CLK_CAL_CFG_RETRIES) :
    (u, Nat.max d.now (r.start + millis 2) + millis (d.rd R.CLK_CAL_RETRY_MS)) ∈ (d.runTimeout u r).calib.retry := by
  have late : CalKeeps ((d.upTo (r.start + millis 2)).cnt R.CLK_TIMEOUTS) (d.timedOutRun u r) := .ite (calKeeps_resumeAck ..) .refl
  have calib : (d.timedOutRun u r).calib = d.calib := by
    rw [timedOutRun, apply_ite Dev.calib, calib_resumeAck, ite_self]
    rfl
  have cfg : ∀ f : Fld, f.key / 524288 = 1 → f.key ≠ R.CLK_TIMEOUTS.key → (d.timedOutRun u r).rd f = d.rd f := fun f clk other =>
    (late.rd f (.inl clk)).trans (rd_cnt_ne _ _ _ other)
  have armed := runBad_retries (u := u) (d.timedOutRun u r) (if u.kind = 0 then (eye r.ph).1 else 0) true (by rw [calib]; exact first)
    (by rw [cfg _ rfl (by decide)]; exact allowed)
  rw [late.now, cfg _ rfl (by decide)] at armed
  exact armed

/-- A run has ended good where a condition holds, and bad where it does not. -/
def Judged (u : CalUnit) (good : Prop) (d e : Dev) : Prop :=
  (good → RunEnded u 1 R.CLK_RUNS_GOOD d e) ∧ (¬ good → RunEnded u 2 R.CLK_RUNS_BAD d e)

theorem judged_ite {good : Prop} [Decidable good] {a b : Dev} (real : u.Real) (ha : CalKeeps d a) (hb : CalKeeps d b) {eyeTaps : Nat} :
    Judged u good d (if good then a.runGood u else b.runBad u eyeTaps false) :=
  ⟨fun h => by rw [if_pos h]; exact (runEnded_runGood real a).after ha rfl,
    fun h => by rw [if_neg h]; exact (runEnded_runBad real b eyeTaps false).after hb rfl⟩

theorem Judged.congr {p q : Prop} (h : Judged u p d e) (same : p ↔ q) : Judged u q d e := by rwa [← propext same]

theorem Judged.after {p : Prop} (h : Judged u p d e) (before : CalKeeps c d) : Judged u p c e :=
  ⟨fun g => (h.1 g).after before rfl, fun g => (h.2 g).after before rfl⟩

/-- The taps of a return receiver take the centres of its eyes as targets. -/
def rxTargets (d : Dev) (k : Nat) (r : CalRun) : Dev :=
  let p := d.pick 9 (eye r.ph).2 (d.rd (R.LNE_RX_TAPS_PHASE_TGT (k / 8) (k % 8)))
  let t := p.1.pick 9 (eye r.thr).2 (d.rd (R.LNE_RX_TAPS_THR_TGT (k / 8) (k % 8)))
  let e := (t.1.wr (R.LNE_RX_TAPS_PHASE_TGT (k / 8) (k % 8)) p.2).wr (R.LNE_RX_TAPS_THR_TGT (k / 8) (k % 8)) t.2
  e.wrb (R.LNE_CAL_STATUS_EASING (k / 8) (k % 8)) (!e.rdb (R.LNE_RX_OVR_OVR_EN (k / 8) (k % 8)) &&
    (decide (e.rd (R.LNE_RX_TAPS_PHASE (k / 8) (k % 8)) ≠ p.2) || decide (e.rd (R.LNE_RX_TAPS_THR (k / 8) (k % 8)) ≠ t.2)))

theorem calKeeps_rxTargets {k : Nat} (lt : k < 64) (d : Dev) (r : CalRun) : CalKeeps d (d.rxTargets k r) := by
  have phase : ¬ calKey (R.LNE_RX_TAPS_PHASE_TGT (k / 8) (k % 8)).key := not_calKey_lane lt (by decide) (by decide) (by decide)
  have thr : ¬ calKey (R.LNE_RX_TAPS_THR_TGT (k / 8) (k % 8)).key := not_calKey_lane lt (by decide) (by decide) (by decide)
  have easing : ¬ calKey (R.LNE_CAL_STATUS_EASING (k / 8) (k % 8)).key := not_calKey_lane lt (by decide) (by decide) (by decide)
  unfold rxTargets
  exact .wrb easing (.wr thr (.wr phase ((calKeeps_pick ..).trans (calKeeps_pick ..))))

/-- The end of a return run. -/
theorem endRx_judges {k : Nat} (lt : k < 64) (d : Dev) (r : CalRun) (kept : Bool) :
    Judged ⟨0, k⟩ (kept = true ∧ r.lost = false ∧ r.phase = 3 ∧ r.errs = 0 ∧ d.rd R.CLK_CAL_MIN_EYE_RX_PHASE ≤ (eye r.ph).1 ∧
      d.rd R.CLK_CAL_MIN_EYE_RX_THR ≤ (eye r.thr).1) d (d.endRx k r kept) := by
  have act : d.endRx k r kept = if (decide (r.phase = 3) && kept && !r.lost && decide (r.errs = 0)
      && decide (d.rd R.CLK_CAL_MIN_EYE_RX_PHASE ≤ (eye r.ph).1) && decide (d.rd R.CLK_CAL_MIN_EYE_RX_THR ≤ (eye r.thr).1)) = true then
      (d.rxTargets k r).runGood ⟨0, k⟩ else (d.resumeAck k).runBad ⟨0, k⟩ (eye r.ph).1 false := rfl
  rw [act]
  refine (judged_ite (u := ⟨0, k⟩) lt (calKeeps_rxTargets lt d r) (calKeeps_resumeAck d k)).congr ?_
  simp only [Bool.and_eq_true, decide_eq_true_eq, Bool.not_eq_true']
  exact ⟨fun ⟨⟨⟨⟨⟨p, k⟩, l⟩, e⟩, w⟩, h⟩ => ⟨k, l, p, e, w, h⟩, fun ⟨k, l, p, e, w, h⟩ => ⟨⟨⟨⟨⟨p, k⟩, l⟩, e⟩, w⟩, h⟩⟩

theorem le_foldl_min (a : Nat) : ∀ (l : List Nat) (b : Nat), a ≤ l.foldl Nat.min b ↔ a ≤ b ∧ ∀ x ∈ l, a ≤ x
  | [], b => by simp
  | x :: l, b => by
    rw [List.foldl_cons, le_foldl_min a l]
    simp only [List.forall_mem_cons]
    exact ⟨fun ⟨h, t⟩ => ⟨(Nat.le_min.mp h).1, (Nat.le_min.mp h).2, t⟩, fun ⟨h, h', t⟩ => ⟨Nat.le_min.mpr ⟨h, h'⟩, t⟩⟩

/-- The eyes of 32 lines or delays, and the width of the least (of 64 at most). -/
def eyesOf (clean : List Nat) : List (Nat × List Nat) := (List.range 32).map fun i => eye (clean.getD i 0)
def leastEye (clean : List Nat) : Nat := ((eyesOf clean).map Prod.fst).foldl Nat.min 64

theorem le_leastEye (a : Nat) (clean : List Nat) : a ≤ leastEye clean ↔ a ≤ 64 ∧ ∀ i : Fin 32, a ≤ (eye (clean.getD i 0)).1 := by
  rw [leastEye, le_foldl_min, eyesOf]
  simp only [List.map_map, List.forall_mem_map, List.mem_range, Function.comp]
  exact and_congr_right fun _ => ⟨fun h i => h i i.isLt, fun h i lt => h ⟨i, lt⟩⟩

/-- The widths of the eyes, the worst line and the errors of a camera port's run are shown. -/
def camShown (d : Dev) (n : Nat) (clean : List Nat) (errs : Nat) : Dev :=
  let worst := (List.range 32).filter fun i => ((eyesOf clean).getD i (0, [])).1 = leastEye clean
  let f := d.eyeField (leastEye clean)
  let b := f.1.pick 10 worst 0
  ((b.1.wr (R.CAM_CAL_STATUS_EYE_MIN n) f.2).wr (R.CAM_CAL_STATUS_WORST_BIT n) b.2).wr (R.CAM_CAL_ERR_ERRORS n) errs

/-- The taps of a camera port take the centres of its eyes as targets. -/
def camTargets (d : Dev) (n : Nat) (clean : List Nat) : Dev := (List.range 32).foldl (fun d i =>
  let t := d.pick 9 ((eyesOf clean).getD i (0, [])).2 (d.rd (R.CAM_DLY_CAL_TAP n i))
  t.1.wr (R.CAM_DLY_CAL_TAP n i) t.2) d

theorem calKeeps_camShown {n : Nat} (lt : n < 8) (d : Dev) (clean : List Nat) (errs : Nat) : CalKeeps d (d.camShown n clean errs) :=
  .wr (not_calKey_cam lt (by decide) (by decide) (by decide)) (.wr (not_calKey_cam lt (by decide) (by decide) (by decide))
    (.wr (not_calKey_cam lt (by decide) (by decide) (by decide)) ((calKeeps_eyeField ..).trans (calKeeps_pick ..))))

theorem calKeeps_camTargets {n : Nat} (lt : n < 8) (d : Dev) (clean : List Nat) : CalKeeps d (d.camTargets n clean) :=
  .foldl _ (fun _ _ m => .wr (not_calKey_dly lt (List.mem_range.mp m) (by decide)) (calKeeps_pick ..)) .refl

/-- The run of a unit has seen a loss of lock or clock (R331). -/
def lostIn (d : Dev) (u : CalUnit) : Bool := ((d.calRun u).map CalRun.lost).getD false

theorem lostIn_eq {d : Dev} {u : CalUnit} {r : CalRun} (running : d.calRun u = some r) : d.lostIn u = r.lost := by
  rw [lostIn, running]
  rfl

theorem endCam_eq (d : Dev) (n : Nat) (clean : List Nat) (errs : Nat) (kept : Bool) :
    d.endCam n clean errs kept =
      if ((kept && !d.lostIn ⟨1, n⟩) && decide (errs = 0) && decide ((d.camShown n clean errs).rd R.CLK_CAL_MIN_EYE_CAM ≤ leastEye clean)) = true then
        ((d.camShown n clean errs).camTargets n clean).runGood ⟨1, n⟩
      else (d.camShown n clean errs).runBad ⟨1, n⟩ (leastEye clean) false := rfl

/-- The end of a camera port's run. -/
theorem endCam_judges {n : Nat} (lt : n < 8) (d : Dev) {r : CalRun} (running : d.calRun ⟨1, n⟩ = some r) (clean : List Nat) (errs : Nat)
    (kept : Bool) :
    Judged ⟨1, n⟩ (kept = true ∧ r.lost = false ∧ errs = 0 ∧ d.rd R.CLK_CAL_MIN_EYE_CAM ≤ 64 ∧
      ∀ i : Fin 32, d.rd R.CLK_CAL_MIN_EYE_CAM ≤ (eye (clean.getD i 0)).1) d (d.endCam n clean errs kept) := by
  have shown := calKeeps_camShown lt d clean errs
  rw [endCam_eq, lostIn_eq running, shown.rd R.CLK_CAL_MIN_EYE_CAM (.inl rfl)]
  refine (judged_ite (u := ⟨1, n⟩) lt (shown.trans (calKeeps_camTargets lt ..)) shown).congr ?_
  simp only [Bool.and_eq_true, decide_eq_true_eq, Bool.not_eq_true', le_leastEye]
  tauto

/-- The width of the least eye and the errors of a DRAM channel's run are shown. -/
def dramShown (d : Dev) (c : Nat) (clean : List Nat) (errs : Nat) : Dev :=
  let f := d.eyeField (leastEye clean)
  (f.1.wr (R.DRM_CALR_EYE_MIN (c / 8) (c % 8)) f.2).wr (R.DRM_CALR_ERRORS (c / 8) (c % 8)) (Nat.min errs 255)

theorem calKeeps_dramShown {c : Nat} (lt : c < 32) (d : Dev) (clean : List Nat) (errs : Nat) : CalKeeps d (d.dramShown c clean errs) :=
  .wr (not_calKey_dram lt (by decide) (by decide)) (.wr (not_calKey_dram lt (by decide) (by decide)) (calKeeps_eyeField ..))

/-- When a DRAM channel's run ends: within 3 µs. -/
def dramEnd (d : Dev) (c : Nat) : Time := match d.calRun ⟨2, c⟩ with
  | some r => Nat.min (Nat.max d.now r.start) (r.start + micros 3)
  | none => d.now

/-- Where a DRAM channel's run is good, its delays take the centres of its eyes as targets. -/
theorem endDram_eq (d : Dev) (c : Nat) (clean : List Nat) (errs : Nat) (kept : Bool) :
    ∃ e, d.endDram c clean errs kept =
      (if (kept && !(d.upTo (d.dramEnd c)).lostIn ⟨2, c⟩ && decide (errs = 0) &&
          decide (((d.upTo (d.dramEnd c)).dramShown c clean errs).rd R.CLK_CAL_MIN_EYE_DRAM ≤ leastEye clean)) = true then
        Dev.runGood e ⟨2, c⟩
      else ((d.upTo (d.dramEnd c)).dramShown c clean errs).runBad ⟨2, c⟩ (leastEye clean) false) ∧
      CalKeeps ((d.upTo (d.dramEnd c)).dramShown c clean errs) e := by
  refine ⟨_, rfl, ?_⟩
  generalize drawn : List.foldl _ _ _ = t
  have keeps : CalKeeps ((d.upTo (d.dramEnd c)).dramShown c clean errs) t.1 := by
    rw [← drawn]
    refine CalKeeps.foldl_fst ?_ _ (_, _)
    exact fun x _ => calKeeps_pick x.1 ..
  exact keeps.setDram

/-- The end of a DRAM channel's run. -/
theorem endDram_judges {c : Nat} (lt : c < 32) (d : Dev) {r : CalRun} (running : d.calRun ⟨2, c⟩ = some r) (clean : List Nat) (errs : Nat)
    (kept : Bool) :
    Judged ⟨2, c⟩ (kept = true ∧ r.lost = false ∧ errs = 0 ∧ d.rd R.CLK_CAL_MIN_EYE_DRAM ≤ 64 ∧
      ∀ i : Fin 32, d.rd R.CLK_CAL_MIN_EYE_DRAM ≤ (eye (clean.getD i 0)).1) (d.upTo (d.dramEnd c)) (d.endDram c clean errs kept) := by
  obtain ⟨e, act, targets⟩ := endDram_eq d c clean errs kept
  have shown := calKeeps_dramShown lt (d.upTo (d.dramEnd c)) clean errs
  rw [act, lostIn_eq (d := d.upTo (d.dramEnd c)) running, shown.rd R.CLK_CAL_MIN_EYE_DRAM (.inl rfl)]
  refine (judged_ite (u := ⟨2, c⟩) lt (shown.trans targets) shown).congr ?_
  simp only [Bool.and_eq_true, decide_eq_true_eq, Bool.not_eq_true', le_leastEye, rd_upTo]
  tauto

end

end Dev
end Sys2Proof.Machine
end

section
/-!
PROOFS. Calibration's runs (R328, R331): the commands that advance them and end them.
-/

namespace Sys2Proof.Machine
namespace Dev

section

variable {d : Dev} {u : CalUnit} {r : CalRun} {k : Nat}

theorem unit_of_calRun (running : d.calRun u = some r) : r.unit = u := by simpa using List.find?_some running

theorem calRun_putRun (d : Dev) (r : CalRun) : (d.putRun r).calRun r.unit = some r := by simp [putRun, calRun]

theorem now_putRun (d : Dev) (r : CalRun) : (d.putRun r).now = d.now := rfl
theorem rd_putRun (d : Dev) (r : CalRun) (f : Fld) : (d.putRun r).rd f = d.rd f := rfl
theorem now_upTo (d : Dev) (t : Time) : (d.upTo t).now = Nat.max d.now t := rfl

theorem Keeps.putRun {ws : List Nat} {e : Dev} (h : Keeps ws d e) : Keeps ws d (e.putRun r) := h.set_calib

theorem Keeps.resumeAck {ws : List Nat} {e : Dev} (h : Keeps ws d e) : Keeps ws d (e.resumeAck k) := by
  unfold Dev.resumeAck resumeTimer
  dsimp only
  split
  · exact h
  · split
    · exact h.set_link.set_link
    · exact h.set_link

theorem Keeps.eyeField {ws : List Nat} {e : Dev} {n : Nat} (h : Keeps ws d e) : Keeps ws d (e.eyeField n).1 := by
  unfold Dev.eyeField
  split
  · exact h
  · exact h.drawn

/-- After the offset trim ACK_TO of the lane runs again. -/
theorem pause_resumeAck (lt : k < 64) (d : Dev) : ((d.resumeAck k).lane k).pause = none := by
  unfold resumeAck
  split
  · next none_ => simpa using none_
  · unfold resumeTimer
    dsimp only
    split
    · rw [lane_putLane _ _ lt]
    · assumption

/-- The offset trim of a return run ends: its receiver is released. -/
def trimmed (d : Dev) (k dt : Nat) (r : CalRun) : Dev :=
  let e := d.upTo (Nat.min (d.now + dt) (r.at_ + micros 40))
  (e.putRun { r with phase := 1, at_ := e.now }).resumeAck k

/-- A lane shows the widths of its eyes. -/
def eyesShown (d : Dev) (k a b : Nat) : Dev :=
  let w := d.eyeField a
  let h := w.1.eyeField b
  (h.1.wr (R.LNE_CAL_STATUS_EYE_W (k / 8) (k % 8)) w.2).wr (R.LNE_CAL_STATUS_EYE_H (k / 8) (k % 8)) h.2

/-- The eye scan of a return run ends at a time. -/
def scanned (d : Dev) (k ph thr : Nat) (r : CalRun) (t : Time) : Dev :=
  let e := d.upTo t
  (e.eyesShown k (eye ph).1 (eye thr).1).putRun { r with phase := 2, at_ := e.now, ph := ph, thr := thr }

/-- The residual check of a return run ends at a time: it shows the mismatches. -/
def checked (d : Dev) (k errs : Nat) (r : CalRun) (t : Time) : Dev :=
  let e := d.upTo t
  (e.wr (R.LNE_RESIDUAL (k / 8) (k % 8)) errs).putRun { r with phase := 3, at_ := e.now, errs := errs }

/-- What the end of a phase of a return run leaves. -/
def phaseDone (d : Dev) (k dt ph thr errs : Nat) (r : CalRun) : Dev := match r.phase with
  | 0 => d.trimmed k dt r
  | 1 => d.scanned k ph thr r (r.at_ + scanTime)
  | 2 => d.checked k errs r (r.at_ + scanTime)
  | _ => d

/-- The window of a register of a lane. -/
theorem lane_window {a b : Nat} (lo : 0x300000 ≤ a) (hi : 8 * a + b < 8 * 0x30F000) :
    (8 * (a + 0x10000 * (k / 8) + 0x40 * (k % 8)) + b) / 524288 = 0x30 + k / 8 := by
  omega

theorem eyeW_window : (R.LNE_CAL_STATUS_EYE_W (k / 8) (k % 8)).key / 524288 = 0x30 + k / 8 := lane_window (by decide) (by decide)
theorem eyeH_window : (R.LNE_CAL_STATUS_EYE_H (k / 8) (k % 8)).key / 524288 = 0x30 + k / 8 := lane_window (by decide) (by decide)
theorem residual_window : (R.LNE_RESIDUAL (k / 8) (k % 8)).key / 524288 = 0x30 + k / 8 := lane_window (by decide) (by decide)

variable {dt ph thr errs : Nat}

theorem phaseDone_zero (p : r.phase = 0) : d.phaseDone k dt ph thr errs r = d.trimmed k dt r := by simp only [phaseDone, p]
theorem phaseDone_one (p : r.phase = 1) : d.phaseDone k dt ph thr errs r = d.scanned k ph thr r (r.at_ + scanTime) := by simp only [phaseDone, p]
theorem phaseDone_two (p : r.phase = 2) : d.phaseDone k dt ph thr errs r = d.checked k errs r (r.at_ + scanTime) := by simp only [phaseDone, p]

theorem actRxPhase_of_run (running : d.calRun ⟨0, k⟩ = some r) (dt ph thr errs : Nat) :
    actRxPhase k dt ph thr errs d = d.phaseDone k dt ph thr errs r := by
  unfold actRxPhase
  rw [running]
  rfl

theorem keeps_phaseDone {ws : List Nat} (win : 0x30 + k / 8 ∈ ws) (dt ph thr errs : Nat) :
    Keeps ws d (d.phaseDone k dt ph thr errs r) := by
  have eyeW : (R.LNE_CAL_STATUS_EYE_W (k / 8) (k % 8)).key / 524288 ∈ ws := eyeW_window (k := k) ▸ win
  have eyeH : (R.LNE_CAL_STATUS_EYE_H (k / 8) (k % 8)).key / 524288 ∈ ws := eyeH_window (k := k) ▸ win
  have residual : (R.LNE_RESIDUAL (k / 8) (k % 8)).key / 524288 ∈ ws := residual_window (k := k) ▸ win
  unfold phaseDone
  split
  · exact Keeps.refl.upTo.putRun.resumeAck
  · exact ((Keeps.refl.upTo.eyeField.eyeField.wr eyeW).wr eyeH).putRun
  · exact (Keeps.refl.upTo.wr residual).putRun
  · exact .refl

theorem calRun_trimmed (running : d.calRun ⟨0, k⟩ = some r) (dt : Nat) :
    (d.trimmed k dt r).calRun ⟨0, k⟩ = some { r with phase := 1, at_ := (d.trimmed k dt r).now } ∧
      (d.trimmed k dt r).now ≤ Nat.max d.now (r.at_ + micros 40) := by
  have unit := unit_of_calRun running
  have now : (d.trimmed k dt r).now = Nat.max d.now (Nat.min (d.now + dt) (r.at_ + micros 40)) := (calKeeps_resumeAck _ k).now
  have run : (d.trimmed k dt r).calRun ⟨0, k⟩ = some { r with phase := 1, at_ := Nat.max d.now (Nat.min (d.now + dt) (r.at_ + micros 40)) } := by
    rw [← unit, trimmed, calRun, calib_resumeAck]
    exact calRun_putRun _ { r with phase := 1, at_ := _ }
  rw [now]
  exact ⟨run, Nat.max_le.mpr ⟨Nat.le_max_left .., (Nat.min_le_right ..).trans (Nat.le_max_right ..)⟩⟩

theorem now_eyesShown (d : Dev) (k a b : Nat) : (d.eyesShown k a b).now = d.now :=
  (calKeeps_eyeField (d.eyeField a).1 b).now.trans (calKeeps_eyeField d a).now

theorem rd_eyesShown_w (d : Dev) (k : Nat) {a b : Nat} (fits : a < 64) :
    (d.eyesShown k a b).rd (R.LNE_CAL_STATUS_EYE_W (k / 8) (k % 8)) = a := by
  have shown : (d.eyeField a).2 = a := by rw [eyeField, if_pos fits]
  have other : (R.LNE_CAL_STATUS_EYE_W (k / 8) (k % 8)).key ≠ (R.LNE_CAL_STATUS_EYE_H (k / 8) (k % 8)).key := by
    simp only [R.LNE_CAL_STATUS_EYE_W, R.LNE_CAL_STATUS_EYE_H]
    omega
  rw [eyesShown, rd_wr_ne _ _ _ _ other, rd_wr_self, shown]
  exact Nat.mod_eq_of_lt fits

theorem rd_scanned_w (d : Dev) (k ph thr : Nat) (r : CalRun) (t : Time) (fits : (eye ph).1 < 64) :
    (d.scanned k ph thr r t).rd (R.LNE_CAL_STATUS_EYE_W (k / 8) (k % 8)) = (eye ph).1 := by
  rw [scanned, rd_putRun, rd_eyesShown_w _ k fits]

theorem now_scanned (d : Dev) (k ph thr : Nat) (r : CalRun) (t : Time) : (d.scanned k ph thr r t).now = Nat.max d.now t := by
  rw [scanned, now_putRun, now_eyesShown, now_upTo]

theorem calRun_scanned (running : d.calRun ⟨0, k⟩ = some r) (ph thr : Nat) (t : Time) :
    (d.scanned k ph thr r t).calRun ⟨0, k⟩ = some { r with phase := 2, at_ := (d.scanned k ph thr r t).now, ph := ph, thr := thr } := by
  rw [now_scanned, ← unit_of_calRun running]
  exact calRun_putRun _ { r with phase := 2, at_ := _, ph := ph, thr := thr }

theorem calRun_checked (running : d.calRun ⟨0, k⟩ = some r) (errs : Nat) (t : Time) :
    (d.checked k errs r t).calRun ⟨0, k⟩ = some { r with phase := 3, at_ := (d.checked k errs r t).now, errs := errs } := by
  rw [← unit_of_calRun running]
  exact calRun_putRun _ { r with phase := 3, at_ := _, errs := errs }

end

end Dev

section

variable {s : State}

/-- A phase of a return run ends. -/
theorem rxCalPhase_advances (k : Fin 64) (dt : Nat) (ph thr : BitVec 64) (errs : Word) (r : CalRun) (on : s.dev.off = false)
    (running : s.dev.calRun ⟨0, k⟩ = some r) :
    ∃ t, exec (.rxCalPhaseDone k dt ph thr errs) s = .next t ∧ s.Only [0x30 + k.val / 8] t ∧
      (r.phase = 0 → t.dev.calRun ⟨0, k⟩ = some { r with phase := 1, at_ := t.dev.now } ∧ (t.dev.lane k).pause = none ∧
        t.dev.now ≤ Nat.max s.dev.now (r.at_ + micros 40)) ∧
      (r.phase = 1 → t.dev.calRun ⟨0, k⟩ = some { r with phase := 2, at_ := t.dev.now, ph := ph.toNat, thr := thr.toNat } ∧
        r.at_ + scanTime ≤ t.dev.now ∧ ((Dev.eye ph.toNat).1 < 64 →
          t.dev.rd (R.LNE_CAL_STATUS_EYE_W (k.val / 8) (k.val % 8)) = (Dev.eye ph.toNat).1)) ∧
      (r.phase = 2 → t.dev.calRun ⟨0, k⟩ = some { r with phase := 3, at_ := t.dev.now, errs := errs.toNat } ∧
        r.at_ + scanTime ≤ t.dev.now ∧ t.dev.rd (R.LNE_RESIDUAL (k.val / 8) (k.val % 8)) = errs.toNat) := by
  have act := Dev.actRxPhase_of_run (d := s.start) running dt ph.toNat thr.toNat errs.toNat
  obtain ⟨run, only⟩ := run_quiet_ends on (exec_rxCalPhaseDone k dt ph thr errs s) act (Dev.keeps_phaseDone (List.mem_singleton_self _) ..)
  refine ⟨_, run, only, fun p => ?_, fun p => ?_, fun p => ?_⟩
  · rw [Dev.phaseDone_zero p]
    obtain ⟨run1, now⟩ := Dev.calRun_trimmed (d := s.start) running dt
    exact ⟨run1, Dev.pause_resumeAck k.isLt _, now⟩
  · rw [Dev.phaseDone_one p]
    have run2 := Dev.calRun_scanned (d := s.start) running ph.toNat thr.toNat (r.at_ + scanTime)
    have now := (Nat.le_max_right ..).trans_eq (Dev.now_scanned s.start k ph.toNat thr.toNat r (r.at_ + scanTime)).symm
    have eyeW := Dev.rd_scanned_w s.start k ph.toNat thr.toNat r (r.at_ + scanTime)
    generalize s.start.scanned k ph.toNat thr.toNat r (r.at_ + scanTime) = d at run2 now eyeW
    exact ⟨run2, now, eyeW⟩
  · rw [Dev.phaseDone_two p]
    exact ⟨Dev.calRun_checked (d := s.start) running .., Nat.le_max_right ..,
      (Dev.rd_wr_self _ (R.LNE_RESIDUAL (k / 8) (k % 8)) _).trans (Nat.mod_eq_of_lt errs.isLt)⟩

/-- What it takes for a run that keeps its time and its conditions to end good (R331). -/
def Dev.RunGood (d : Dev) (kind : CalKind) (r : CalRun) (clean : List Nat) (errs : Nat) : Prop := match kind with
  | .rx => r.lost = false ∧ r.phase = 3 ∧ r.errs = 0 ∧ d.rd R.CLK_CAL_MIN_EYE_RX_PHASE ≤ (Dev.eye r.ph).1 ∧
      d.rd R.CLK_CAL_MIN_EYE_RX_THR ≤ (Dev.eye r.thr).1
  | .cam => r.lost = false ∧ errs = 0 ∧ d.rd R.CLK_CAL_MIN_EYE_CAM ≤ 64 ∧
      ∀ i : Fin 32, d.rd R.CLK_CAL_MIN_EYE_CAM ≤ (Dev.eye (clean.getD i 0)).1
  | .dram => r.lost = false ∧ errs = 0 ∧ d.rd R.CLK_CAL_MIN_EYE_DRAM ≤ 64 ∧
      ∀ i : Fin 32, d.rd R.CLK_CAL_MIN_EYE_DRAM ≤ (Dev.eye (clean.getD i 0)).1

/-- A run that keeps its time ends good or bad; a DRAM channel's run takes a time of its own to do so. -/
theorem actRunDone_judges {d : Dev} (kind : CalKind) (n : Fin 64) {r : CalRun} (clean : List Nat) (errs : Nat) (kept : Bool)
    (running : d.calRun (calUnit kind n) = some r) (inTime : d.now ≤ r.start + millis 2) :
    ∃ c : Dev, c.wq = d.wq ∧ (∀ f, c.rd f = d.rd f) ∧
      Dev.Judged (calUnit kind n) (kept = true ∧ d.RunGood kind r clean errs) c (actRunDone kind n clean errs kept d) := by
  have act : actRunDone kind n clean errs kept d = match kind with
      | .rx => d.endRx n r kept
      | .cam => d.endCam (n % 8) clean errs kept
      | .dram => d.endDram (n % 32) clean errs kept := by
    unfold actRunDone
    dsimp only
    rw [running]
    dsimp only
    rw [if_neg (Nat.not_lt.mpr inTime)]
    cases kind <;> rfl
  rw [act]
  cases kind with
  | rx => exact ⟨d, rfl, fun _ => rfl, Dev.endRx_judges n.isLt d r kept⟩
  | cam => exact ⟨d, rfl, fun _ => rfl, Dev.endCam_judges (Nat.mod_lt _ (by decide)) d running clean errs kept⟩
  | dram =>
    exact ⟨d.upTo (d.dramEnd (n % 32)), rfl, fun _ => rfl, Dev.endDram_judges (Nat.mod_lt _ (by decide)) d running clean errs kept⟩

theorem calRun_ends (kind : CalKind) (n : Fin 64) (clean : List (BitVec 64)) (errs : Word) (kept : Bool) {r : CalRun}
    (on : s.dev.off = false) (running : s.dev.calRun (calUnit kind n) = some r) (inTime : s.dev.now ≤ r.start + millis 2) :
    ∃ t, exec (.calRunDone kind n clean errs kept) s = .next t ∧ t.mem = s.mem ∧ t.pending = s.pending ∧
      t.dev.calRun (calUnit kind n) = none ∧
      (kept = true ∧ s.dev.RunGood kind r (clean.map BitVec.toNat) errs.toNat → t.dev.calResult (calUnit kind n) = 1 ∧
        s.dev.Counted t.dev R.CLK_RUNS_GOOD) ∧
      (¬ (kept = true ∧ s.dev.RunGood kind r (clean.map BitVec.toNat) errs.toNat) → t.dev.calResult (calUnit kind n) = 2 ∧
        s.dev.Counted t.dev R.CLK_RUNS_BAD) := by
  obtain ⟨c, wq, rd, good, bad⟩ := actRunDone_judges (d := s.start) kind n (clean.map BitVec.toNat) errs.toNat kept running inTime
  obtain ⟨e, act⟩ : ∃ e, actRunDone kind n (clean.map BitVec.toNat) errs.toNat kept s.start = e := ⟨_, rfl⟩
  rw [act] at good bad
  have ended : e.wq = [] ∧ e.calRun (calUnit kind n) = none := by
    by_cases g : kept = true ∧ s.start.RunGood kind r (clean.map BitVec.toNat) errs.toNat
    · exact ⟨(good g).wq.trans wq, (good g).ended⟩
    · exact ⟨(bad g).wq.trans wq, (bad g).ended⟩
  have counted : ∀ {f : Fld}, c.Counted e f → s.dev.Counted e f := fun {f} h => by
    rw [Dev.Counted, rd f] at h
    exact h
  exact ⟨_, (exec_calRunDone kind n clean errs kept s).trans (run_eq on act ended.1), rfl, rfl, ended.2,
    fun g => ⟨(good g).result, counted (good g).counted⟩, fun g => ⟨(bad g).result, counted (bad g).counted⟩⟩

theorem calRun_times_out (kind : CalKind) (n : Fin 64) {r : CalRun} (on : s.dev.off = false)
    (running : s.dev.calRun (calUnit kind n) = some r) :
    ∃ t, exec (.calRunTimeout kind n) s = .next t ∧ t.mem = s.mem ∧ t.pending = s.pending ∧ t.dev.calRun (calUnit kind n) = none ∧
      r.start + millis 2 ≤ t.dev.now ∧ t.dev.calResult (calUnit kind n) = 2 ∧ s.dev.Counted t.dev R.CLK_TIMEOUTS ∧
      s.dev.Counted t.dev R.CLK_RUNS_BAD ∧
      (s.dev.calib.bad.find? (fun b => b.1 = calUnit kind n) = none → 1 ≤ s.dev.rd R.CLK_CAL_CFG_RETRIES →
        (calUnit kind n, t.dev.now + millis (s.dev.rd R.CLK_CAL_RETRY_MS)) ∈ t.dev.calib.retry) := by
  have act : actRunTimeout kind n s.start = s.start.runTimeout (calUnit kind n) r := by
    unfold actRunTimeout
    dsimp only
    rw [show s.start.calRun (calUnit kind n) = some r from running]
  have ended := Dev.runEnded_runTimeout (real_calUnit kind n) s.start r
  have retries := Dev.runTimeout_retries (u := calUnit kind n) s.start r
  generalize s.start.runTimeout (calUnit kind n) r = e at act ended retries
  have late : e.now = Nat.max s.dev.now (r.start + millis 2) := ended.now
  refine ⟨_, (exec_calRunTimeout kind n s).trans (run_eq on act ended.wq), rfl, rfl, ended.ended, (Nat.le_max_right ..).trans_eq late.symm,
    ended.result, ?_, ?_, fun first allowed => ?_⟩
  · exact (ended.clk _ rfl (by decide)).trans (Dev.rd_cnt_self ..)
  · have bad := ended.counted
    rw [Dev.Counted, Dev.rd_cnt_ne _ _ _ (by decide)] at bad
    exact bad
  · have armed := retries first allowed
    exact late.symm ▸ armed

end

/-- Settles O34: a return run goes from phase to phase (`rxCalPhase_advances`); the end of a run judges it (`Judged`), and one that is late
ends bad. -/
theorem calibrationRunsAdvanceAndEnd : Obligations.CalibrationRunsAdvanceAndEnd := by
  unfold Obligations.CalibrationRunsAdvanceAndEnd
  refine ⟨fun s k => rxCalPhase_advances k, fun s kind n clean errs kept r on running inTime => ?_, fun s kind n r => calRun_times_out kind n⟩
  have ends := calRun_ends kind n clean errs kept on running inTime
  cases kind <;> exact ends

end Sys2Proof.Machine
end

section
/-!
PROOFS. The modes of octets (R313, R315, R316): requests, the steps of a change, and enumeration after it.
-/

namespace Sys2Proof.Machine
namespace Dev

section

variable {ws : List Nat} {c d e : Dev} {j k : Nat}

/-! The registers of an octet. -/

/-- The window of a register of an octet. -/
theorem octet_window {a b : Nat} (lo : 0x300000 ≤ a) (hi : 8 * a + b < 8 * 0x310000) : (8 * (a + 0x10000 * j) + b) / 524288 = 0x30 + j := by
  omega

theorem modeReq_window : (R.LNE_OCT_CTRL_MODE_REQ j).key / 524288 = 0x30 + j := octet_window (by decide) (by decide)
theorem mode_window : (R.LNE_OCT_STATUS_MODE j).key / 524288 = 0x30 + j := octet_window (by decide) (by decide)
theorem changing_window : (R.LNE_OCT_STATUS_CHANGING j).key / 524288 = 0x30 + j := octet_window (by decide) (by decide)
theorem changes_window : (R.LNE_MODE_CHANGES j).key / 524288 = 0x30 + j := octet_window (by decide) (by decide)

theorem patErr_window : (R.LNE_PAT_ERR (k / 8) (k % 8)).key / 524288 = 0x30 + k / 8 := lane_window (by decide) (by decide)
theorem patMbits_window : (R.LNE_PAT_MBITS (k / 8) (k % 8)).key / 524288 = 0x30 + k / 8 := lane_window (by decide) (by decide)

theorem mode_ne_changing : (R.LNE_OCT_STATUS_MODE j).key ≠ (R.LNE_OCT_STATUS_CHANGING j).key := by
  simp only [R.LNE_OCT_STATUS_MODE, R.LNE_OCT_STATUS_CHANGING]
  omega
theorem mode_ne_changes : (R.LNE_OCT_STATUS_MODE j).key ≠ (R.LNE_MODE_CHANGES j).key := by
  simp only [R.LNE_OCT_STATUS_MODE, R.LNE_MODE_CHANGES]
  omega
theorem changes_ne_changing : (R.LNE_MODE_CHANGES j).key ≠ (R.LNE_OCT_STATUS_CHANGING j).key := by
  simp only [R.LNE_MODE_CHANGES, R.LNE_OCT_STATUS_CHANGING]
  omega
theorem modeReq_ne_changing : (R.LNE_OCT_CTRL_MODE_REQ j).key ≠ (R.LNE_OCT_STATUS_CHANGING j).key := by
  simp only [R.LNE_OCT_CTRL_MODE_REQ, R.LNE_OCT_STATUS_CHANGING]
  omega
theorem mode_ne_modeReq : (R.LNE_OCT_STATUS_MODE j).key ≠ (R.LNE_OCT_CTRL_MODE_REQ j).key := by
  simp only [R.LNE_OCT_CTRL_MODE_REQ, R.LNE_OCT_STATUS_MODE]
  omega

/-! A change begins, and a request for a mode (R313, R316). -/

/-- An octet from idle trains for reference mode first; another drains first. -/
def changingOctet (d : Dev) (j dest : Nat) : Octet :=
  if d.rd (R.LNE_OCT_STATUS_MODE j) = 0 then { d.octet j with step := 3, dest := 1, since := d.now }
  else { d.octet j with step := 1, dest := dest, since := d.now }

/-- An octet shows that it changes. -/
def changing (d : Dev) (j : Nat) (o : Octet) : Dev := (d.putOctet j o).wr (R.LNE_OCT_STATUS_CHANGING j) 1

theorem startChange_eq (d : Dev) (j dest : Nat) : d.startChange j dest = d.changing j (d.changingOctet j dest) := by
  unfold startChange changingOctet
  dsimp only
  split <;> rfl

theorem seekMode_of_settled (settled : (d.octet j).step ≠ 0 ∨ (d.octet j).goal = d.rd (R.LNE_OCT_STATUS_MODE j)) : d.seekMode j = d :=
  if_pos settled

theorem seekMode_of_unlike (step : (d.octet j).step = 0) (unlike : (d.octet j).goal ≠ d.rd (R.LNE_OCT_STATUS_MODE j))
    (known : (d.octet j).enum = false) : d.seekMode j = d.changing j (d.changingOctet j (d.octet j).goal) := by
  rw [← startChange_eq]
  exact (if_neg fun h => h.elim (absurd step) (absurd · unlike)).trans (if_neg fun h => by rw [known] at h; simp at h)

/-- What an octet may do to reach its mode: nothing, or a change begins. -/
theorem seekMode_cases (d : Dev) (j : Nat) : d.seekMode j = d ∨ ∃ dest, d.seekMode j = d.changing j (d.changingOctet j dest) := by
  unfold seekMode
  dsimp only
  split
  · exact .inl rfl
  · split
    · exact .inl rfl
    · exact .inr ⟨_, startChange_eq ..⟩

/-- The octet with another goal. -/
def asked (d : Dev) (j m : Nat) : Dev :=
  (d.wr (R.LNE_OCT_CTRL_MODE_REQ j) m).putOctet j { d.octet j with goal := m % 3 }

theorem requestMode_of_same {m : Nat} (lt : m < 4) (same : d.rd (R.LNE_OCT_CTRL_MODE_REQ j) = m) : d.requestMode j m = d :=
  if_pos (same.trans (Nat.mod_eq_of_lt lt).symm)

theorem requestMode_of_new {m : Nat} (lt : m < 4) (new : d.rd (R.LNE_OCT_CTRL_MODE_REQ j) ≠ m) :
    d.requestMode j m = (d.asked j m).seekMode j := by
  have goal : (if m % 4 = 3 then 0 else m % 4) = m % 3 := by
    split <;> omega
  unfold requestMode
  rw [if_neg (by rwa [Nat.mod_eq_of_lt lt]), goal]
  rfl

theorem keeps_seekMode_octet (win : 0x30 + j ∈ ws) (h : Keeps ws d e) : Keeps ws d (e.seekMode j) := by
  rcases seekMode_cases e j with same | ⟨dest, begins⟩
  · rwa [same]
  · rw [begins]
    exact h.set_link.wr (changing_window ▸ win)

theorem rd_seekMode {f : Fld} (other : f.key ≠ (R.LNE_OCT_STATUS_CHANGING j).key) : (d.seekMode j).rd f = d.rd f := by
  rcases seekMode_cases d j with same | ⟨dest, begins⟩
  · rw [same]
  · rw [begins]
    exact rd_wr_ne _ _ _ _ other

theorem changingOctet_mcount (d : Dev) (j dest : Nat) : (d.changingOctet j dest).mcount = (d.octet j).mcount := by
  unfold changingOctet
  split <;> rfl

theorem changingOctet_goal (d : Dev) (j dest : Nat) : (d.changingOctet j dest).goal = (d.octet j).goal := by
  unfold changingOctet
  split <;> rfl

theorem changingOctet_since (d : Dev) (j dest : Nat) : (d.changingOctet j dest).since = d.now := by
  unfold changingOctet
  split <;> rfl

theorem changingOctet_begins (d : Dev) (j dest : Nat) :
    if d.rd (R.LNE_OCT_STATUS_MODE j) = 0 then (d.changingOctet j dest).step = 3 ∧ (d.changingOctet j dest).dest = 1
    else (d.changingOctet j dest).step = 1 ∧ (d.changingOctet j dest).dest = dest := by
  unfold changingOctet
  split <;> exact ⟨rfl, rfl⟩

theorem octet_changing (lt : j < 8) (d : Dev) (o : Octet) : (d.changing j o).octet j = o := octet_putOctet d o lt

theorem mcount_seekMode (lt : j < 8) (d : Dev) : ((d.seekMode j).octet j).mcount = (d.octet j).mcount := by
  rcases seekMode_cases d j with same | ⟨dest, begins⟩
  · rw [same]
  · rw [begins, octet_changing lt, changingOctet_mcount]

theorem octet_asked (lt : j < 8) (d : Dev) (m : Nat) : (d.asked j m).octet j = { d.octet j with goal := m % 3 } :=
  octet_putOctet _ _ lt

theorem rd_asked_mode (d : Dev) (j m : Nat) : (d.asked j m).rd (R.LNE_OCT_STATUS_MODE j) = d.rd (R.LNE_OCT_STATUS_MODE j) :=
  rd_wr_ne _ _ _ _ mode_ne_modeReq

/-! What the parts of a step leave alone. -/

/-- The windows ws but for MODE and MODE_CHANGES of octet j may change, and lanes but not octets, the chains and the time. -/
structure OctetKeeps (ws : List Nat) (j : Nat) (d e : Dev) : Prop where
  keeps   : Keeps ws d e
  now     : e.now = d.now
  chains  : e.link.chains = d.link.chains
  octets  : e.link.octets = d.link.octets
  mode    : e.rd (R.LNE_OCT_STATUS_MODE j) = d.rd (R.LNE_OCT_STATUS_MODE j)
  changes : e.rd (R.LNE_MODE_CHANGES j) = d.rd (R.LNE_MODE_CHANGES j)

namespace OctetKeeps

theorem refl : OctetKeeps ws j d d := ⟨.refl, rfl, rfl, rfl, rfl, rfl⟩

theorem trans (h : OctetKeeps ws j c d) (h' : OctetKeeps ws j d e) : OctetKeeps ws j c e :=
  ⟨h.keeps.trans h'.keeps, h'.now.trans h.now, h'.chains.trans h.chains, h'.octets.trans h.octets, h'.mode.trans h.mode,
    h'.changes.trans h.changes⟩

theorem putLane {l : Lane} (h : OctetKeeps ws j d e) : OctetKeeps ws j d (e.putLane k l) :=
  ⟨h.keeps.set_link, h.now, h.chains, h.octets, h.mode, h.changes⟩

theorem emit {o : Out} (h : OctetKeeps ws j d e) : OctetKeeps ws j d (e.emit o) :=
  ⟨h.keeps.emit, h.now, h.chains, h.octets, h.mode, h.changes⟩

theorem wr {f : Fld} {v : Nat} (win : f.key / 524288 ∈ ws) (mode : (R.LNE_OCT_STATUS_MODE j).key ≠ f.key)
    (changes : (R.LNE_MODE_CHANGES j).key ≠ f.key) (h : OctetKeeps ws j d e) : OctetKeeps ws j d (e.wr f v) :=
  ⟨h.keeps.wr win, h.now, h.chains, h.octets, (rd_wr_ne _ _ _ _ mode).trans h.mode, (rd_wr_ne _ _ _ _ changes).trans h.changes⟩

theorem foldl {α : Type} {f : Dev → α → Dev} : ∀ (l : List α) {e : Dev}, (∀ x, ∀ a ∈ l, OctetKeeps ws j x (f x a)) → OctetKeeps ws j d e →
    OctetKeeps ws j d (l.foldl f e)
  | [], _, _, h => h
  | a :: r, _, k, h => foldl r (fun x b m => k x b (List.mem_cons_of_mem _ m)) (h.trans (k _ a List.mem_cons_self))

theorem octet (h : OctetKeeps ws j d e) (i : Nat) : e.octet i = d.octet i := by rw [Dev.octet, h.octets]; rfl
theorem laneUsed (h : OctetKeeps ws j d e) (i : Nat) : e.laneUsed i = d.laneUsed i := by rw [Dev.laneUsed, chain, h.chains]; rfl

end OctetKeeps

theorem mem_octetLanes : k ∈ octetLanes j ↔ k / 8 = j := by
  simp only [octetLanes, List.mem_map, List.mem_range]
  exact ⟨fun ⟨i, lt, e⟩ => by omega, fun h => ⟨k % 8, by omega, by omega⟩⟩

/-- A lane's checker counts its bits. -/
theorem patFlush_octetKeeps (win : 0x30 + k / 8 ∈ ws) : OctetKeeps ws j d (d.patFlush k) := by
  have err : (R.LNE_PAT_ERR (k / 8) (k % 8)).key / 524288 ∈ ws := patErr_window (k := k) ▸ win
  have mbits : (R.LNE_PAT_MBITS (k / 8) (k % 8)).key / 524288 ∈ ws := patMbits_window (k := k) ▸ win
  unfold patFlush patPut
  dsimp only
  split
  · refine .wr mbits ?_ ?_ (.wr err ?_ ?_ (.putLane .refl)) <;>
      simp only [R.LNE_OCT_STATUS_MODE, R.LNE_MODE_CHANGES, R.LNE_PAT_ERR, R.LNE_PAT_MBITS] <;> omega
  · exact .refl

theorem patSend_octetKeeps : OctetKeeps ws j d (d.patSend k) := by
  unfold patSend
  dsimp only
  split
  · exact .emit .refl
  · exact .refl

theorem sendBlocks_octetKeeps {bytes : List Byte} : OctetKeeps ws j d (d.sendBlocks k bytes) := .emit (.putLane .refl)

theorem enumLane_octetKeeps : OctetKeeps ws j d (d.enumLane k) := .putLane .refl

theorem laneUp_window (lt : k < 64) : (R.MVL_LSTAT_UP k).key / 524288 = 0x24 := by
  simp only [R.MVL_LSTAT_UP]
  omega

theorem laneDown_octetKeeps (lt : k < 64) (win : 0x24 ∈ ws) : OctetKeeps ws j d (d.laneDown k) := by
  have window := laneUp_window lt
  have down : OctetKeeps ws j d ((d.wr (R.MVL_LSTAT_UP k) 0).putLane k { d.lane k with enum := none }) := by
    refine .putLane (.wr (by rwa [window]) ?_ ?_ .refl)
    · intro h
      have := mode_window (j := j)
      rw [h] at this
      omega
    · intro h
      have := changes_window (j := j)
      rw [h] at this
      omega
  exact ⟨down.keeps.set_link, down.now, down.chains, down.octets, down.mode, down.changes⟩

/-! The end of a change (R313). -/

/-- The octet after a change, with MODE, CHANGING and the count. -/
def changeShown (d : Dev) (j : Nat) (o : Octet) : Dev :=
  (((d.putOctet j { o with step := 0 }).wr (R.LNE_OCT_STATUS_MODE j) o.dest).wr (R.LNE_OCT_STATUS_CHANGING j) 0).cnt (R.LNE_MODE_CHANGES j)

theorem endChange_eq (d : Dev) (j : Nat) : ∃ old, d.endChange j =
    (((octetLanes j).foldl patFlush d).changeShown j (d.octet j)).log (0x30 + j) j 0 0x021 old := ⟨_, rfl⟩

/-- A change of octet j has ended. -/
structure ChangeEnded (ws : List Nat) (j : Nat) (d e : Dev) : Prop where
  keeps   : Keeps ws d e
  now     : e.now = d.now
  chains  : e.link.chains = d.link.chains
  octet   : e.octet j = { d.octet j with step := 0 }
  mode    : e.rd (R.LNE_OCT_STATUS_MODE j) = (d.octet j).dest % 4
  changes : d.Counted e (R.LNE_MODE_CHANGES j)

theorem endChange_ends (lt : j < 8) (log : 4 ∈ ws) (win : 0x30 + j ∈ ws) (d : Dev) : ChangeEnded ws j d (d.endChange j) := by
  have flushed : OctetKeeps ws j d ((octetLanes j).foldl patFlush d) :=
    .foldl _ (fun x k m => patFlush_octetKeeps (by rwa [mem_octetLanes.mp m])) .refl
  obtain ⟨old, ended⟩ := endChange_eq d j
  generalize (octetLanes j).foldl patFlush d = x at flushed ended
  have dropped : ∀ {f : Fld}, f.key / 524288 = 0x30 + j → f.key ≠ R.ERR_DROPPED.key := fun {f} window same => by
    rw [same, show R.ERR_DROPPED.key / 524288 = 4 from rfl] at window
    omega
  rw [ended]
  refine ⟨?_, ?_, ?_, ?_, ?_, ?_⟩
  · exact .log log (.cnt (changes_window ▸ win) (.wr (changing_window ▸ win) (.wr (mode_window ▸ win) flushed.keeps.set_link)))
  · exact (log_now ..).trans flushed.now
  · rw [log_link]
    exact flushed.chains
  · rw [Dev.octet, log_link]
    exact octet_putOctet x _ lt
  · rw [rd_log _ _ _ _ _ _ _ _ (dropped mode_window), changeShown, rd_cnt_ne _ _ _ mode_ne_changes, rd_wr_ne _ _ _ _ mode_ne_changing,
      rd_wr_self]
    rfl
  · rw [Counted, rd_log _ _ _ _ _ _ _ _ (dropped changes_window), changeShown, rd_cnt_self, rd_wr_ne _ _ _ _ changes_ne_changing,
      rd_wr_ne _ _ _ _ mode_ne_changes.symm, rd_putOctet, flushed.changes]

/-- Octet j may have begun a change, and lanes their enumeration; MODE and MODE_CHANGES stay. -/
structure Sought (ws : List Nat) (j : Nat) (d e : Dev) : Prop where
  keeps   : Keeps ws d e
  now     : e.now = d.now
  mode    : e.rd (R.LNE_OCT_STATUS_MODE j) = d.rd (R.LNE_OCT_STATUS_MODE j)
  changes : e.rd (R.LNE_MODE_CHANGES j) = d.rd (R.LNE_MODE_CHANGES j)
  mcount  : (e.octet j).mcount = (d.octet j).mcount

theorem Sought.seekMode (lt : j < 8) (win : 0x30 + j ∈ ws) (h : Sought ws j d e) : Sought ws j d (e.seekMode j) :=
  ⟨keeps_seekMode_octet win h.keeps, (now_seekMode j).trans h.now, (rd_seekMode mode_ne_changing).trans h.mode,
    (rd_seekMode changes_ne_changing).trans h.changes, (mcount_seekMode lt e).trans h.mcount⟩

theorem Sought.putOctet (lt : j < 8) {o : Octet} (markers : o.mcount = (e.octet j).mcount) (h : Sought ws j d e) :
    Sought ws j d (e.putOctet j o) :=
  ⟨h.keeps.set_link, h.now, h.mode, h.changes, by rw [octet_putOctet _ _ lt, markers, h.mcount]⟩

theorem OctetKeeps.sought (h : OctetKeeps ws j d e) : Sought ws j d e :=
  ⟨h.keeps, h.now, h.mode, h.changes, congrArg Octet.mcount (h.octet j)⟩

/-! The steps of a change. -/

/-- When an octet has drained: after 32 blocks at its rate. -/
def drainedAt (d : Dev) (j : Nat) : Time := (d.octet j).since + 32 * blockTime (d.rd (R.LNE_OCT_STATUS_MODE j))

/-- An octet is idle: its lanes are down, and it asks for what is wanted of it next. -/
def idled (d : Dev) (j : Nat) : Dev :=
  let e := (octetLanes j).foldl laneDown d
  (e.putOctet j { e.octet j with enum := false, auto_ := false, brk := 0 }).seekMode j

theorem actDrained_of_step (step : (d.octet j).step = 1) : actDrained j d =
    if (d.octet j).dest = 0 then ((d.upTo (d.drainedAt j)).endChange j).idled j
    else (d.upTo (d.drainedAt j)).putOctet j { d.octet j with step := 2, since := (d.upTo (d.drainedAt j)).now } := by
  unfold actDrained
  exact if_neg (not_not_intro step)

theorem actFck_of_step (step : (d.octet j).step = 2) : actFck j d =
    (d.upTo ((d.octet j).since + micros 2)).putOctet j
      { d.octet j with step := 3, since := (d.upTo ((d.octet j).since + micros 2)).now } := by
  unfold actFck
  exact if_neg (not_not_intro step)

theorem rd_laneDown (d : Dev) (k : Nat) (f : Fld) : (d.laneDown k).rd f = (d.wr (R.MVL_LSTAT_UP k) 0).rd f := rfl

theorem laneUp_laneDown_self (d : Dev) (k : Nat) : (d.laneDown k).laneUp k = false := by
  rw [laneUp, rdb, rd_laneDown, rd_wr_self]
  rfl

theorem laneUp_laneDown_ne {i : Nat} (other : i ≠ k) (d : Dev) : (d.laneDown k).laneUp i = d.laneUp i := by
  have key : (R.MVL_LSTAT_UP i).key ≠ (R.MVL_LSTAT_UP k).key := by
    simp only [R.MVL_LSTAT_UP]
    omega
  rw [laneUp, rdb, rd_laneDown, rd_wr_ne _ _ _ _ key]
  rfl

/-- Of lanes taken down one after another, each is down at the end. -/
theorem laneUp_lanesDown : ∀ (l : List Nat) (d : Dev) {i : Nat}, i ∈ l ∨ d.laneUp i = false → (l.foldl laneDown d).laneUp i = false
  | [], _, _, h => h.resolve_left List.not_mem_nil
  | k :: l, d, i, h => by
    refine laneUp_lanesDown l (d.laneDown k) ?_
    by_cases same : i = k
    · exact .inr (same ▸ laneUp_laneDown_self d k)
    · exact h.imp (fun m => (List.mem_cons.mp m).resolve_left same) fun down => (laneUp_laneDown_ne same d).trans down

theorem lanesDown_octetKeeps (lt : j < 8) (win : 0x24 ∈ ws) (d : Dev) : OctetKeeps ws j d ((octetLanes j).foldl laneDown d) :=
  .foldl _ (fun x k m => laneDown_octetKeeps (by have := mem_octetLanes.mp m; omega) win) .refl

theorem idled_sought (lt : j < 8) (low : 0x24 ∈ ws) (win : 0x30 + j ∈ ws) (d : Dev) : Sought ws j d (d.idled j) :=
  .seekMode lt win (.putOctet lt (by rfl) (lanesDown_octetKeeps lt low d).sought)

theorem laneUp_idled (d : Dev) {i : Nat} (lane : i / 8 = j) : (d.idled j).laneUp i = false := by
  have key : (R.MVL_LSTAT_UP i).key ≠ (R.LNE_OCT_STATUS_CHANGING j).key := by
    simp only [R.MVL_LSTAT_UP, R.LNE_OCT_STATUS_CHANGING]
    omega
  rw [laneUp, rdb, idled, rd_seekMode key]
  exact laneUp_lanesDown _ d (.inl (mem_octetLanes.mpr lane))

/-- The octet trains for its time: 50 µs, or longer as TRAIN says. -/
def trainedAt (d : Dev) (j : Nat) : Time := (d.octet j).since + micros (Nat.max 50
  (if (d.octet j).dest = 2 then d.rd (R.LNE_TRAIN_TRAIN_FWD j) else d.rd (R.LNE_TRAIN_TRAIN_REF j)))

theorem le_trainedAt (d : Dev) (j : Nat) : (d.octet j).since + micros 50 ≤ d.trainedAt j := by
  have longer : ∀ us, micros 50 ≤ micros (Nat.max 50 us) := fun us =>
    Nat.mul_le_mul_right 65536 (Nat.mul_le_mul_left 1000 (Nat.le_max_left 50 us))
  exact Nat.add_le_add_left (longer _) _

/-- The change comes from idle, or of a recovery: enumeration follows. -/
def fresh (d : Dev) (j : Nat) : Bool :=
  decide (d.rd (R.LNE_OCT_STATUS_MODE j) = 0) || ((d.octet j).auto_ && decide ((d.octet j).dest = 1))

/-- The lanes of an octet have trained: markers and patterns go out. -/
def trained (d : Dev) (j : Nat) (fresh auto_ : Bool) : Dev :=
  (octetLanes j).foldl patSend ((d.putOctet j { d.octet j with mcount := 0, enum := fresh, auto_ := auto_ }).sendMarkers j)

/-- Enumeration begins, or the octet goes on to the mode that is wanted. -/
def trainedNext (d : Dev) (j : Nat) (fresh : Bool) : Dev :=
  if fresh && decide ((d.octet j).goal = 0) then (d.putOctet j { d.octet j with enum := false }).seekMode j
  else if fresh then (((octetLanes j).filter d.laneUsed).foldl enumLane d).enumCheck j
  else d.seekMode j

theorem actTrained_of_step (step : (d.octet j).step = 3) : actTrained j d =
    (((d.upTo (d.trainedAt j)).endChange j).trained j (d.fresh j) ((d.octet j).auto_ && decide ((d.octet j).dest = 1))).trainedNext j
      (d.fresh j) := by
  unfold actTrained
  exact if_neg (not_not_intro step)

/-- Markers and patterns have gone out. -/
structure Trained (ws : List Nat) (j : Nat) (d e : Dev) : Prop where
  keeps   : Keeps ws d e
  now     : e.now = d.now
  chains  : e.link.chains = d.link.chains
  mode    : e.rd (R.LNE_OCT_STATUS_MODE j) = d.rd (R.LNE_OCT_STATUS_MODE j)
  changes : e.rd (R.LNE_MODE_CHANGES j) = d.rd (R.LNE_MODE_CHANGES j)
  goal    : (e.octet j).goal = (d.octet j).goal
  mcount  : (e.octet j).mcount = 1

/-- Markers go out on the lanes of octet j that are not in test. -/
def markersSent (d : Dev) (j n : Nat) : Dev := (List.range 8).foldl (fun d i =>
  if d.laneTested (8 * j + i) then d else d.sendBlocks (8 * j + i) (markerBytes (8 * j + i) n)) d

theorem markersSent_octetKeeps (n : Nat) : OctetKeeps ws j d (d.markersSent j n) :=
  .foldl _ (fun x i _ => by
    split
    · exact .refl
    · exact sendBlocks_octetKeeps) .refl

theorem sendMarkers_eq (d : Dev) (j : Nat) : d.sendMarkers j =
    (d.markersSent j (d.octet j).mcount).putOctet j { d.octet j with mcount := ((d.octet j).mcount + 1) % 2 ^ 32 } := rfl

theorem trained_sends (lt : j < 8) (d : Dev) (fresh auto_ : Bool) : Trained ws j d (d.trained j fresh auto_) := by
  have reset : (d.putOctet j { d.octet j with mcount := 0, enum := fresh, auto_ := auto_ }).octet j =
    { d.octet j with mcount := 0, enum := fresh, auto_ := auto_ } := octet_putOctet d _ lt
  have markers : OctetKeeps ws j _ ((d.putOctet j { d.octet j with mcount := 0, enum := fresh, auto_ := auto_ }).markersSent j 0) :=
    markersSent_octetKeeps 0
  rw [trained, sendMarkers_eq, reset]
  generalize (d.putOctet j { d.octet j with mcount := 0, enum := fresh, auto_ := auto_ }).markersSent j 0 = x at markers
  have counted : (x.putOctet j { d.octet j with mcount := (0 + 1) % 2 ^ 32, enum := fresh, auto_ := auto_ }).octet j =
    { d.octet j with mcount := (0 + 1) % 2 ^ 32, enum := fresh, auto_ := auto_ } := octet_putOctet x _ lt
  have sent : OctetKeeps ws j (x.putOctet j { d.octet j with mcount := (0 + 1) % 2 ^ 32, enum := fresh, auto_ := auto_ }) _ :=
    .foldl (f := patSend) (octetLanes j) (fun _ _ _ => patSend_octetKeeps) .refl
  dsimp only
  generalize List.foldl patSend _ (octetLanes j) = y at sent
  exact ⟨(Keeps.refl.set_link.trans markers.keeps).trans (Keeps.refl.set_link.trans sent.keeps), sent.now.trans markers.now,
    sent.chains.trans markers.chains, sent.mode.trans markers.mode, sent.changes.trans markers.changes,
    by rw [sent.octet, counted], by rw [sent.octet, counted]; rfl⟩

/-! Enumeration after a change (R315). -/

theorem lane_enumLane_self (lt : k < 64) (d : Dev) : ((d.enumLane k).lane k).enum = some ⟨none, [], false⟩ := by
  rw [enumLane, lane_putLane _ _ lt]

theorem lane_enumLane_ne {i : Nat} (other : i ≠ k) (d : Dev) : (d.enumLane k).lane i = d.lane i := lane_putLane_ne _ _ other.symm

theorem lanes_enumLanes : ∀ (l : List Nat) (d : Dev) {i : Nat}, i < 64 → i ∈ l ∨ (d.lane i).enum = some ⟨none, [], false⟩ →
    ((l.foldl enumLane d).lane i).enum = some ⟨none, [], false⟩
  | [], _, _, _, h => h.resolve_left List.not_mem_nil
  | k :: l, d, i, lt, h => by
    refine lanes_enumLanes l (d.enumLane k) lt ?_
    by_cases same : i = k
    · exact .inr (same ▸ lane_enumLane_self (same ▸ lt) d)
    · exact h.imp (fun m => (List.mem_cons.mp m).resolve_left same) fun due => by rwa [lane_enumLane_ne same]

theorem trainedNext_leads (lt : j < 8) (win : 0x30 + j ∈ ws) (d : Dev) (fresh : Bool) : Sought ws j d (d.trainedNext j fresh) := by
  have start : Sought ws j d d := OctetKeeps.refl.sought
  have begun : Sought ws j d (((octetLanes j).filter d.laneUsed).foldl enumLane d) :=
    (OctetKeeps.foldl _ (fun _ _ _ => enumLane_octetKeeps) .refl).sought
  unfold trainedNext enumCheck
  split
  · exact .seekMode lt win (.putOctet lt (by rfl) start)
  · split
    · split
      · exact .seekMode lt win (.putOctet lt (by rfl) begun)
      · exact begun
    · exact start.seekMode lt win

theorem trainedNext_enumerates (goal : (d.octet j).goal ≠ 0) {i : Nat} (lt : i < 64) (lane : i / 8 = j) (used : d.laneUsed i = true) :
    ((d.trainedNext j true).lane i).enum = some ⟨none, [], false⟩ := by
  rw [trainedNext, if_neg (by simpa using goal), if_pos rfl, lane_enumCheck]
  exact lanes_enumLanes _ d lt (.inl (List.mem_filter.mpr ⟨mem_octetLanes.mpr lane, used⟩))

end

end Dev

/-! The commands. -/

section

variable {s : State} (j : Fin 8)

theorem modeReq_asks (m : BitVec 2) (bus : s.BusFree (0x300000 + 0x10000 * j.val)) :
    (s.dev.rd (R.LNE_OCT_CTRL_MODE_REQ j) = m.toNat → exec (.modeReqWrite j m) s = .next (s.answered s.start 0 false)) ∧
    (s.dev.rd (R.LNE_OCT_CTRL_MODE_REQ j) ≠ m.toNat → (s.dev.octet j).step = 0 → (s.dev.octet j).enum = false →
      ∃ t, exec (.modeReqWrite j m) s = .next t ∧ s.Only [0x30 + j.val] t ∧ t.dev.out = .bus 0 false :: s.dev.out ∧
        t.dev.rd (R.LNE_OCT_CTRL_MODE_REQ j) = m.toNat ∧ (t.dev.octet j).goal = m.toNat % 3 ∧
        (m.toNat % 3 = s.dev.rd (R.LNE_OCT_STATUS_MODE j) → (t.dev.octet j).step = 0) ∧
        (m.toNat % 3 ≠ s.dev.rd (R.LNE_OCT_STATUS_MODE j) → t.dev.rd (R.LNE_OCT_STATUS_CHANGING j) = 1 ∧
          (t.dev.octet j).since = s.dev.now ∧
          if s.dev.rd (R.LNE_OCT_STATUS_MODE j) = 0 then (t.dev.octet j).step = 3 ∧ (t.dev.octet j).dest = 1
          else (t.dev.octet j).step = 1 ∧ (t.dev.octet j).dest = m.toNat % 3)) := by
  constructor
  · intro same
    have act : actModeReq j m.toNat s.start = s.start := Dev.requestMode_of_same m.isLt same
    have run := (writeTo_ends (ws := []) bus (exec_modeReqWrite j m s) (by rw [act]; exact .refl)).1
    rwa [act] at run
  · intro new step known
    have act : actModeReq j m.toNat s.start = (s.start.asked j m.toNat).seekMode j := Dev.requestMode_of_new m.isLt new
    have asked : Dev.Keeps [0x30 + j.val] s.start (s.start.asked j m.toNat) :=
      (Dev.Keeps.refl.wr (by simp [Dev.modeReq_window])).set_link
    have octet := Dev.octet_asked j.isLt s.start m.toNat
    have mode : (s.start.asked j m.toNat).rd (R.LNE_OCT_STATUS_MODE j) = s.dev.rd (R.LNE_OCT_STATUS_MODE j) := Dev.rd_asked_mode ..
    have req : (s.start.asked j m.toNat).rd (R.LNE_OCT_CTRL_MODE_REQ j) = m.toNat :=
      (Dev.rd_wr_self s.start _ _).trans (Nat.mod_eq_of_lt m.isLt)
    obtain ⟨run, only⟩ := writeTo_ends (ws := [0x30 + j.val]) bus (exec_modeReqWrite j m s)
      (by rw [act]; exact Dev.keeps_seekMode_octet (by simp) asked)
    rw [act] at run only
    have out : (s.start.asked j m.toNat).out = s.dev.out := rfl
    have now : (s.start.asked j m.toNat).now = s.dev.now := rfl
    have step' : ((s.start.asked j m.toNat).octet j).step = 0 := by rw [octet]; exact step
    have goal : ((s.start.asked j m.toNat).octet j).goal = m.toNat % 3 := by rw [octet]
    have known' : ((s.start.asked j m.toNat).octet j).enum = false := by rw [octet]; exact known
    generalize s.start.asked j m.toNat = d at run only mode req out now step' goal known'
    by_cases settled : m.toNat % 3 = s.dev.rd (R.LNE_OCT_STATUS_MODE j)
    · rw [Dev.seekMode_of_settled (.inr (by rw [goal, mode, settled]))] at run only
      exact ⟨_, run, only, congrArg _ out, req, goal, fun _ => step', fun unlike => absurd settled unlike⟩
    · rw [Dev.seekMode_of_unlike step' (by rwa [goal, mode]) known', goal] at run only
      have after := Dev.octet_changing j.isLt d (d.changingOctet j (m.toNat % 3))
      have change : (d.changing j (d.changingOctet j (m.toNat % 3))).rd (R.LNE_OCT_STATUS_CHANGING j) = 1 := Dev.rd_wr_self ..
      have req' : (d.changing j (d.changingOctet j (m.toNat % 3))).rd (R.LNE_OCT_CTRL_MODE_REQ j) = m.toNat :=
        (Dev.rd_wr_ne _ _ _ _ Dev.modeReq_ne_changing).trans req
      refine ⟨_, run, only, congrArg _ out, req', ?_, fun same => absurd same settled, fun _ => ⟨change, ?_, ?_⟩⟩
      · exact (congrArg Octet.goal after).trans ((Dev.changingOctet_goal ..).trans goal)
      · exact (congrArg Octet.since after).trans ((Dev.changingOctet_since ..).trans now)
      · rw [← mode]
        have begins := Dev.changingOctet_begins d j (m.toNat % 3)
        rw [← after] at begins
        exact begins

/-- The end of step 1 in an octet that goes to idle. -/
theorem drained_idles (on : s.dev.off = false) (step : (s.dev.octet j).step = 1) (idle : (s.dev.octet j).dest = 0) :
    ∃ t, exec (.octetIdleDrained j) s = .next t ∧ s.Only [4, 0x24, 0x30 + j.val] t ∧ t.dev.rd (R.LNE_OCT_STATUS_MODE j) = 0 ∧
      s.dev.Counted t.dev (R.LNE_MODE_CHANGES j) ∧
      (s.dev.octet j).since + 32 * Dev.blockTime (s.dev.rd (R.LNE_OCT_STATUS_MODE j)) ≤ t.dev.now ∧
      ∀ i : Fin 8, t.dev.laneUp (8 * j.val + i.val) = false := by
  have act := (Dev.actDrained_of_step (d := s.start) step).trans (if_pos idle)
  have change := Dev.endChange_ends (ws := [4, 0x24, 0x30 + j.val]) j.isLt (by simp) (by simp) (s.start.upTo (s.start.drainedAt j))
  have late : s.start.drainedAt j ≤ (s.start.upTo (s.start.drainedAt j)).now := Nat.le_max_right ..
  have before : Dev.Keeps [4, 0x24, 0x30 + j.val] s.start (s.start.upTo (s.start.drainedAt j)) := Dev.Keeps.refl.upTo
  generalize (s.start.upTo (s.start.drainedAt j)).endChange j = d at act change
  have idled := Dev.idled_sought (ws := [4, 0x24, 0x30 + j.val]) j.isLt (by simp) (by simp) d
  have down : ∀ i : Fin 8, (d.idled j).laneUp (8 * j + i) = false := fun i => Dev.laneUp_idled d (by omega)
  generalize d.idled j = e at act idled down
  obtain ⟨run, only⟩ := run_quiet_ends on (exec_octetIdleDrained j s) act (before.trans (change.keeps.trans idled.keeps))
  refine ⟨_, run, only, ?_, ?_, ?_, down⟩
  · exact idled.mode.trans (change.mode.trans (congrArg (· % 4) idle))
  · exact idled.changes.trans change.changes
  · exact late.trans_eq (idled.now.trans change.now).symm

/-- The end of step 1 in an octet that goes on to training. -/
theorem drained_goes_on (on : s.dev.off = false) (step : (s.dev.octet j).step = 1) (goes : (s.dev.octet j).dest ≠ 0) :
    ∃ t, exec (.octetIdleDrained j) s = .next t ∧ s.Only [] t ∧ (t.dev.octet j).step = 2 ∧ (t.dev.octet j).since = t.dev.now ∧
      (s.dev.octet j).since + 32 * Dev.blockTime (s.dev.rd (R.LNE_OCT_STATUS_MODE j)) ≤ t.dev.now := by
  have act := (Dev.actDrained_of_step (d := s.start) step).trans (if_neg goes)
  have octet := Dev.octet_putOctet (s.start.upTo (s.start.drainedAt j))
    { s.start.octet j with step := 2, since := (s.start.upTo (s.start.drainedAt j)).now } j.isLt
  obtain ⟨run, only⟩ := run_quiet_ends (ws := []) on (exec_octetIdleDrained j s) act Dev.Keeps.refl.upTo.set_link
  exact ⟨_, run, only, congrArg Octet.step octet, congrArg Octet.since octet, Nat.le_max_right ..⟩

theorem fck_starts (on : s.dev.off = false) (step : (s.dev.octet j).step = 2) :
    ∃ t, exec (.octetFckStart j) s = .next t ∧ s.Only [] t ∧ (t.dev.octet j).step = 3 ∧ (t.dev.octet j).since = t.dev.now ∧
      (s.dev.octet j).since + micros 2 ≤ t.dev.now := by
  have octet := Dev.octet_putOctet (s.start.upTo ((s.start.octet j).since + micros 2))
    { s.start.octet j with step := 3, since := (s.start.upTo ((s.start.octet j).since + micros 2)).now } j.isLt
  obtain ⟨run, only⟩ := run_quiet_ends (ws := []) on (exec_octetFckStart j s) (Dev.actFck_of_step (d := s.start) step) Dev.Keeps.refl.upTo.set_link
  exact ⟨_, run, only, congrArg Octet.step octet, congrArg Octet.since octet, Nat.le_max_right ..⟩

theorem training_ends (on : s.dev.off = false) (step : (s.dev.octet j).step = 3) :
    ∃ t, exec (.octetTrainingEnd j) s = .next t ∧ s.Only [4, 0x30 + j.val] t ∧
      t.dev.rd (R.LNE_OCT_STATUS_MODE j) = (s.dev.octet j).dest % 4 ∧ s.dev.Counted t.dev (R.LNE_MODE_CHANGES j) ∧
      (t.dev.octet j).mcount = 1 ∧ (s.dev.octet j).since + micros 50 ≤ t.dev.now ∧
      (s.dev.rd (R.LNE_OCT_STATUS_MODE j) = 0 → (s.dev.octet j).goal ≠ 0 → ∀ i : Fin 8, s.dev.laneUsed (8 * j.val + i.val) = true →
        (t.dev.lane (8 * j.val + i.val)).enum = some ⟨none, [], false⟩) := by
  have act := Dev.actTrained_of_step (d := s.start) step
  have before : Dev.Keeps [4, 0x30 + j.val] s.start (s.start.upTo (s.start.trainedAt j)) := Dev.Keeps.refl.upTo
  have late : (s.start.octet j).since + micros 50 ≤ (s.start.upTo (s.start.trainedAt j)).now :=
    (Dev.le_trainedAt s.start j).trans (Nat.le_max_right ..)
  have change := Dev.endChange_ends (ws := [4, 0x30 + j.val]) j.isLt (by simp) (by simp) (s.start.upTo (s.start.trainedAt j))
  generalize (s.start.upTo (s.start.trainedAt j)).endChange j = c at act change
  have sent := Dev.trained_sends (ws := [4, 0x30 + j.val]) j.isLt c (s.start.fresh j) ((s.start.octet j).auto_ && decide ((s.start.octet j).dest = 1))
  generalize c.trained j (s.start.fresh j) ((s.start.octet j).auto_ && decide ((s.start.octet j).dest = 1)) = d at act sent
  have next := Dev.trainedNext_leads (ws := [4, 0x30 + j.val]) j.isLt (by simp) d (s.start.fresh j)
  have enums : s.dev.rd (R.LNE_OCT_STATUS_MODE j) = 0 → (s.dev.octet j).goal ≠ 0 → ∀ i : Fin 8,
      s.dev.laneUsed (8 * j.val + i.val) = true →
      ((d.trainedNext j (s.start.fresh j)).lane (8 * j.val + i.val)).enum = some ⟨none, [], false⟩ := fun idle goal i used => by
    have fresh : s.start.fresh j = true := Bool.or_eq_true_iff.mpr (.inl (decide_eq_true idle))
    rw [fresh]
    refine Dev.trainedNext_enumerates ?_ (by omega) (by omega) ?_
    · rw [sent.goal, change.octet]
      exact goal
    · rw [Dev.laneUsed, Dev.chain, sent.chains, change.chains]
      exact used
  generalize d.trainedNext j (s.start.fresh j) = e at act next enums
  obtain ⟨run, only⟩ := run_quiet_ends on (exec_octetTrainingEnd j s) act (before.trans (change.keeps.trans (sent.keeps.trans next.keeps)))
  refine ⟨_, run, only, ?_, ?_, next.mcount.trans sent.mcount, ?_, enums⟩
  · exact next.mode.trans (sent.mode.trans change.mode)
  · exact next.changes.trans (sent.changes.trans change.changes)
  · exact late.trans_eq (next.now.trans (sent.now.trans change.now)).symm

/-- An octet that is not changing takes no step of a change. -/
theorem no_step_without_change (on : s.dev.off = false) (step : (s.dev.octet j).step = 0) :
    exec (.octetIdleDrained j) s = .next (s.withDev s.start) ∧ exec (.octetFckStart j) s = .next (s.withDev s.start) ∧
      exec (.octetTrainingEnd j) s = .next (s.withDev s.start) := by
  have other : ∀ n, 0 ≠ n → (s.start.octet j).step ≠ n := fun n ne h => ne (step.symm.trans h)
  have drained : actDrained j s.start = s.start := if_pos (other 1 (by decide))
  have fck : actFck j s.start = s.start := if_pos (other 2 (by decide))
  have trained : actTrained j s.start = s.start := if_pos (other 3 (by decide))
  exact ⟨(exec_octetIdleDrained j s).trans (run_eq on drained rfl), (exec_octetFckStart j s).trans (run_eq on fck rfl),
    (exec_octetTrainingEnd j s).trans (run_eq on trained rfl)⟩

end

/-- Settles O31: a request is `seekMode`, the end of a change is `endChange_ends`, and each step leads to the next. -/
theorem octetsChangeModeInSteps : Obligations.OctetsChangeModeInSteps := by
  unfold Obligations.OctetsChangeModeInSteps
  exact fun s j => ⟨modeReq_asks j, fun on => ⟨drained_idles j on, drained_goes_on j on, fck_starts j on, training_ends j on,
    no_step_without_change j on⟩⟩

end Sys2Proof.Machine
end

section
/-!
PROOFS. Lane tests (R323, R324), and what the pairing link shows (R322, R349).
-/

namespace Sys2Proof.Machine
namespace Dev

section

variable {ws : List Nat} {d e : Dev} {k p : Nat}

/-! What the pairing link shows. -/

theorem pairShow_keeps (log : 4 ∈ ws) (win : 0x38 ∈ ws) (h : Keeps ws d e) : Keeps ws d e.pairShow := by
  unfold pairShow
  dsimp only
  split
  · exact h
  · exact .log log (.wrb win (.ite h (.cnt win h)))

theorem rd_pairShow {f : Fld} (other : f.key ∉ [R.PAIR_STATUS_UP.key, R.PAIR_LINK_DOWN.key, R.ERR_DROPPED.key]) (d : Dev) :
    d.pairShow.rd f = d.rd f := by
  simp only [List.mem_cons, List.not_mem_nil, or_false, not_or] at other
  obtain ⟨up, down, dropped⟩ := other
  unfold pairShow
  dsimp only
  split
  · rfl
  · rw [rd_log _ _ _ _ _ _ _ _ dropped, rd_wrb_ne _ _ _ _ up]
    split
    · rfl
    · exact rd_cnt_ne _ _ _ down

theorem plane_pairShow (d : Dev) : d.pairShow.plane = d.plane := by
  unfold pairShow
  dsimp only
  split
  · rfl
  · rw [log_plane]
    split <;> rfl

/-- UP follows what the lanes show. -/
theorem pathUp_pairShow (d : Dev) : d.pairShow.pathUp = d.pairWant := by
  unfold pairShow pathUp
  dsimp only
  split
  · assumption
  · have shown : ∀ x : Dev, ((x.wrb R.PAIR_STATUS_UP d.pairWant).log 0x38 0 0 0x012 (b2n d.pairWant)).rdb R.PAIR_STATUS_UP = d.pairWant :=
      fun x => by
        rw [rdb, rd_log _ _ _ _ _ _ _ _ (by decide)]
        exact rdb_wrb_self x _ _ rfl
    exact shown _

/-! The link comes up or goes down (R349). -/

/-- With the link the device may have sent a frame, and shows SYNCED; no other field changes. -/
structure LinkTold (d e : Dev) : Prop where
  keeps : Keeps [7] d e
  out   : ∀ o ∈ d.out, o ∈ e.out
  plane : e.plane = d.plane

theorem sendFrame_told (d : Dev) (b : PairBody) : LinkTold d (d.sendFrame b) := by
  unfold sendFrame
  split
  · exact ⟨.emit .refl, fun _ m => List.mem_cons_of_mem _ m, rfl⟩
  · exact ⟨.refl, fun _ m => m, rfl⟩

theorem pairLink_told (d : Dev) (was : Bool) : LinkTold d (d.pairLink was) := by
  have same : LinkTold d d := ⟨.refl, fun _ m => m, rfl⟩
  unfold pairLink
  split
  · exact same
  · split
    · exact ⟨.set_pair (.wrb (by decide) .refl), fun _ m => m, rfl⟩
    · split
      · have sent := sendFrame_told d (.request (.versions (d.rd R.BOOT_VERS_CKPT_VER) (d.rdPair R.BOOT_FIXED_ID_LO R.BOOT_FIXED_ID_HI)))
        exact ⟨sent.keeps.set_pair, sent.out, sent.plane⟩
      · exact same

theorem pairLink_same {was : Bool} (same : d.pathUp = was) : d.pairLink was = d := if_pos same

theorem pathUp_of_keeps (h : Keeps ws d e) (other : 0x38 ∉ ws) : e.pathUp = d.pathUp := congrArg (· != 0) (h.rd R.PAIR_STATUS_UP other)

/-! Tests of a tile lane (R324). -/

theorem accessLog_keeps (log : 4 ∈ ws) (addr : Nat) (write : Bool) : Keeps ws d (d.accessLog addr write) := .log log .refl

theorem test_window : (R.LNE_LCTRL_TEST (k / 8) (k % 8)).key / 524288 = 0x30 + k / 8 := lane_window (by decide) (by decide)
theorem prbs_window : (R.LNE_LCTRL_PRBS (k / 8) (k % 8)).key / 524288 = 0x30 + k / 8 := lane_window (by decide) (by decide)

theorem test_ne_prbs : (R.LNE_LCTRL_TEST (k / 8) (k % 8)).key ≠ (R.LNE_LCTRL_PRBS (k / 8) (k % 8)).key := by
  simp only [R.LNE_LCTRL_TEST, R.LNE_LCTRL_PRBS]
  omega

/-- A lane takes TEST and PRBS, and its checker begins anew. -/
def tested (d : Dev) (k test prbs : Nat) : Dev :=
  let e := ((d.patFlush k).wr (R.LNE_LCTRL_TEST (k / 8) (k % 8)) test).wr (R.LNE_LCTRL_PRBS (k / 8) (k % 8)) prbs
  e.putLane k { e.lane k with pat := ⟨0, 0, (e.lane k).pat.bits, e.now⟩ }

/-- What a generator's pattern lets leave. -/
def patternOut (d : Dev) (k test prbs : Nat) : List Out :=
  if d.laneMode k ≠ 0 ∧ (test = 1 ∨ test = 2 ∨ test = 4) then [Out.pattern false k prbs] else []

theorem actTest_lane_refused {v : Nat} (on : testOn (bits v 10 8) = true) (used : (d.laneUp k || d.laneChanging k) = true) :
    actTest (some k) v d = (d.accessLog (0x300100 + 0x10000 * (k / 8) + 0x40 * (k % 8)) true, true) :=
  if_pos (Bool.and_eq_true_iff.mpr ⟨on, used⟩)

theorem actTest_lane_taken {v : Nat} (free : (testOn (bits v 10 8) && (d.laneUp k || d.laneChanging k)) = false) :
    actTest (some k) v d = ((d.tested k (bits v 10 8) (bits v 5 4)).patSend k, false) :=
  if_neg (ne_true_of_eq_false free)

/-- A lane in test: TEST and PRBS as written, and a generator's pattern on its way. -/
structure TestTaken (ws : List Nat) (k test prbs : Nat) (d e : Dev) : Prop where
  keeps : Keeps ws d e
  out   : e.out = d.patternOut k test prbs ++ d.out
  test  : e.rd (R.LNE_LCTRL_TEST (k / 8) (k % 8)) = test
  prbs  : e.rd (R.LNE_LCTRL_PRBS (k / 8) (k % 8)) = prbs

theorem tested_sends (win : 0x30 + k / 8 ∈ ws) {test prbs : Nat} (lt : test < 8) (lt' : prbs < 4) (d : Dev) :
    TestTaken ws k test prbs d ((d.tested k test prbs).patSend k) := by
  have flushed : OctetKeeps ws (k / 8) d (d.patFlush k) := patFlush_octetKeeps win
  have silent : (d.patFlush k).out = d.out := (Silent.patFlush d k).2
  have keeps : Keeps ws d (d.tested k test prbs) := .set_link (.wr (prbs_window (k := k) ▸ win) (.wr (test_window (k := k) ▸ win) flushed.keeps))
  have test' : (d.tested k test prbs).rd (R.LNE_LCTRL_TEST (k / 8) (k % 8)) = test :=
    (rd_wr_ne _ _ _ _ test_ne_prbs).trans ((rd_wr_self _ _ _).trans (Nat.mod_eq_of_lt lt))
  have prbs' : (d.tested k test prbs).rd (R.LNE_LCTRL_PRBS (k / 8) (k % 8)) = prbs := (rd_wr_self _ _ _).trans (Nat.mod_eq_of_lt lt')
  have mode : (d.tested k test prbs).laneMode k = d.laneMode k := by
    have other : ∀ f : Fld, f.key = 8 * (0x300004 + 0x10000 * (k / 8)) + 0 →
        f.key ≠ (R.LNE_LCTRL_TEST (k / 8) (k % 8)).key ∧ f.key ≠ (R.LNE_LCTRL_PRBS (k / 8) (k % 8)).key := fun f h => by
      simp only [h, R.LNE_LCTRL_TEST, R.LNE_LCTRL_PRBS]
      omega
    obtain ⟨t, p⟩ := other (R.LNE_OCT_STATUS_MODE (k / 8)) rfl
    exact (rd_wr_ne _ _ _ _ p).trans ((rd_wr_ne _ _ _ _ t).trans flushed.mode)
  have out : (d.tested k test prbs).out = d.out := silent
  generalize d.tested k test prbs = x at keeps test' prbs' mode out
  unfold patSend
  dsimp only
  rw [test', prbs', mode]
  by_cases generates : d.laneMode k ≠ 0 ∧ (test = 1 ∨ test = 2 ∨ test = 4)
  · rw [if_pos generates]
    exact ⟨keeps.emit, by rw [patternOut, if_pos generates, ← out]; rfl, test', prbs'⟩
  · rw [if_neg generates]
    exact ⟨keeps, by rw [patternOut, if_neg generates, ← out]; rfl, test', prbs'⟩

theorem actLaneTest_refused {lane : Option Nat} {v : Nat} (refused : actTest lane v d = (e, true)) (same : e.pathUp = d.pathUp) :
    actLaneTest lane v d = (e, true) := by
  unfold actLaneTest
  dsimp only
  rw [refused]
  cases lane with
  | none => exact congrArg (·, true) (pairLink_same same)
  | some k => exact congrArg (·, true) (pairLink_same same)

/-- GO of a lane's control register queues its calibration. -/
def goTaken (d : Dev) (k v : Nat) : Dev := if bit v 0 then d.queueCal ⟨0, k⟩ else d

theorem actLaneTest_taken {v : Nat} (taken : actTest (some k) v d = (e, false)) (same : (e.goTaken k v).pathUp = d.pathUp) :
    actLaneTest (some k) v d = (e.goTaken k v, false) := by
  unfold actLaneTest
  dsimp only
  rw [taken]
  exact congrArg (·, false) (pairLink_same same)

theorem out_queueCal (d : Dev) (u : CalUnit) : (d.queueCal u).out = d.out := by
  by_cases due : d.CalDue u
  · rw [queueCal_of_due due]
  · rw [queueCal_of_not_due due]
    split <;> rfl

theorem rd_queueCal {u : CalUnit} {f : Fld} (other : f.key ≠ (resultFld u).key) (d : Dev) : (d.queueCal u).rd f = d.rd f := by
  by_cases due : d.CalDue u
  · rw [queueCal_of_due due]
  · rw [queueCal_of_not_due due]
    split
    · exact rd_wr_ne _ _ _ _ other
    · rfl

theorem TestTaken.go {test prbs : Nat} (h : TestTaken ws k test prbs d e) (win : 0x30 + k / 8 ∈ ws) (v : Nat) :
    TestTaken ws k test prbs d (e.goTaken k v) := by
  have queues : Queues ws e (e.queueCal ⟨0, k⟩) := queueCal_queues fun _ => win
  have test_other : (R.LNE_LCTRL_TEST (k / 8) (k % 8)).key ≠ (resultFld ⟨0, k⟩).key := by
    simp only [resultFld, R.LNE_LCTRL_TEST, R.LNE_CAL_STATUS_RESULT]
    omega
  have prbs_other : (R.LNE_LCTRL_PRBS (k / 8) (k % 8)).key ≠ (resultFld ⟨0, k⟩).key := by
    simp only [resultFld, R.LNE_LCTRL_PRBS, R.LNE_CAL_STATUS_RESULT]
    omega
  unfold goTaken
  split
  · exact ⟨h.keeps.trans queues.keeps, (out_queueCal ..).trans h.out, (rd_queueCal test_other e).trans h.test,
      (rd_queueCal prbs_other e).trans h.prbs⟩
  · exact h

/-! Tests of the pairing lanes (R324). -/

/-- The checkers of the pairing lanes begin anew, and a generator's pattern leaves every lane. -/
def pairPatterns (d : Dev) (test prbs : Nat) : Dev := (List.range 4).foldl (fun d p =>
  let d := d.putPlane p { d.plane1 p with pat := ⟨0, 0, 0, d.now⟩ }
  if test = 1 ∨ test = 2 ∨ test = 4 then d.emit (.pattern true p prbs) else d) d

/-- The pairing lanes take TEST and PRBS. -/
def pairTested (d : Dev) (test prbs : Nat) : Dev :=
  (((d.wr R.PAIR_CTRL_TEST test).wr R.PAIR_CTRL_PRBS prbs).pairPatterns test prbs).pairShow

theorem actTest_pair_refused {v : Nat} (on : testOn (bits v 10 8) = true) (paired : d.rdb R.TOP_STATE_PAIRED = true)
    (unsafe_ : d.state ≠ .safe) : actTest none v d = (d.accessLog 0x380000 true, true) := by
  unfold actTest
  exact if_pos (by simp [on, paired, unsafe_])

theorem actTest_pair_taken {v : Nat} (free : (testOn (bits v 10 8) && (d.rdb R.TOP_STATE_PAIRED && d.state ≠ .safe)) = false) :
    actTest none v d = (d.pairTested (bits v 10 8) (bits v 5 4), false) := by
  unfold actTest
  exact if_neg (ne_true_of_eq_false ((Bool.and_assoc ..).trans free))

theorem pairPatterns_keeps (test prbs : Nat) : Keeps ws d (d.pairPatterns test prbs) :=
  .foldl (fun x p => by
    dsimp only
    split
    · exact .emit (.set_plane .refl)
    · exact .set_plane .refl) _ .refl

/-- The pairing lanes in test. -/
structure PairTested (v w : Nat) (d e : Dev) : Prop where
  keeps : Keeps [4, 7, 0x38] d e
  test  : e.rd R.PAIR_CTRL_TEST = v
  prbs  : e.rd R.PAIR_CTRL_PRBS = w
  down  : testOn v = true → e.pathUp = false

theorem pairWant_of_test (on : testOn (d.rd R.PAIR_CTRL_TEST) = true) : d.pairWant = false := by
  simp only [testOn, Bool.and_eq_true, decide_eq_true_eq] at on
  rw [pairWant, decide_eq_false (by omega), Bool.and_false]

theorem pairTested_tests {test prbs : Nat} (lt : test < 8) (lt' : prbs < 4) (d : Dev) : PairTested test prbs d (d.pairTested test prbs) := by
  have patterns : Keeps [] _ (((d.wr R.PAIR_CTRL_TEST test).wr R.PAIR_CTRL_PRBS prbs).pairPatterns test prbs) := pairPatterns_keeps test prbs
  have keeps : Keeps [4, 7, 0x38] d (((d.wr R.PAIR_CTRL_TEST test).wr R.PAIR_CTRL_PRBS prbs).pairPatterns test prbs) :=
    (Keeps.wr (by decide) (.wr (by decide) .refl)).trans (patterns.wider (by simp))
  have test' : (((d.wr R.PAIR_CTRL_TEST test).wr R.PAIR_CTRL_PRBS prbs).pairPatterns test prbs).rd R.PAIR_CTRL_TEST = test :=
    (patterns.rd _ (by simp)).trans ((rd_wr_ne _ _ _ _ (by decide)).trans ((rd_wr_self _ _ _).trans (Nat.mod_eq_of_lt lt)))
  have prbs' : (((d.wr R.PAIR_CTRL_TEST test).wr R.PAIR_CTRL_PRBS prbs).pairPatterns test prbs).rd R.PAIR_CTRL_PRBS = prbs :=
    (patterns.rd _ (by simp)).trans ((rd_wr_self _ _ _).trans (Nat.mod_eq_of_lt lt'))
  rw [pairTested]
  generalize ((d.wr R.PAIR_CTRL_TEST test).wr R.PAIR_CTRL_PRBS prbs).pairPatterns test prbs = x at keeps test' prbs'
  exact ⟨pairShow_keeps (by decide) (by decide) keeps, (rd_pairShow (by decide) x).trans test', (rd_pairShow (by decide) x).trans prbs',
    fun on => (pathUp_pairShow x).trans (pairWant_of_test (test'.symm ▸ on))⟩

theorem PairTested.told {c : Dev} {test prbs : Nat} (h : PairTested test prbs c d) (told : LinkTold d e) : PairTested test prbs c e :=
  ⟨h.keeps.trans (told.keeps.wider (by decide)), (told.keeps.rd _ (by decide)).trans h.test, (told.keeps.rd _ (by decide)).trans h.prbs,
    fun on => (pathUp_of_keeps told.keeps (by decide)).trans (h.down on)⟩

end

end Dev

section

variable {s : State} (v : Word)

theorem testOn_iff {test : Nat} : Dev.testOn test = true ↔ 1 ≤ test ∧ test ≤ 4 := by
  simp [Dev.testOn]

theorem test_bits : bits v.toNat 10 8 = v.toNat / 256 % 8 := bits_eq_div_mod ..
theorem prbs_bits : bits v.toNat 5 4 = v.toNat / 16 % 4 := bits_eq_div_mod ..

theorem laneTest_lane (k : Fin 64) (bus : s.BusFree (0x300100 + 0x10000 * (k.val / 8) + 0x40 * (k.val % 8))) :
    (let used := s.dev.laneUp k || s.dev.laneChanging k
     let test := v.toNat / 256 % 8
     (1 ≤ test → test ≤ 4 → used = true →
       ∃ t, exec (.laneTestWrite (some k) v) s = .next t ∧ s.Only [4] t ∧ t.dev.out = .bus 0 true :: s.dev.out) ∧
     ((test = 0 ∨ 5 ≤ test ∨ used = false) →
       ∃ t, exec (.laneTestWrite (some k) v) s = .next t ∧ s.Only [0x30 + k.val / 8] t ∧
         t.dev.out = .bus 0 false :: ((if s.dev.laneMode k ≠ 0 ∧ (test = 1 ∨ test = 2 ∨ test = 4) then
           [Out.pattern false k (v.toNat / 16 % 4)] else []) ++ s.dev.out) ∧
         t.dev.rd (R.LNE_LCTRL_TEST (k.val / 8) (k.val % 8)) = test ∧
         t.dev.rd (R.LNE_LCTRL_PRBS (k.val / 8) (k.val % 8)) = v.toNat / 16 % 4)) := by
  dsimp only
  have access := fun q => (exec_laneTestWrite (some k) v s).trans (run_access bus (some v.toNat)
    (fun _ d => ((actLaneTest (some k.val) v.toNat d).1, 0, (actLaneTest (some k.val) v.toNat d).2)) q)
  constructor
  · intro lo hi used
    have refused := Dev.actTest_lane_refused (d := s.start) (v := v.toNat) (by rw [test_bits]; exact testOn_iff.mpr ⟨lo, hi⟩) used
    have keeps : Dev.Keeps [4] s.start (s.start.accessLog (0x300100 + 0x10000 * (k.val / 8) + 0x40 * (k.val % 8)) true) :=
      Dev.accessLog_keeps (by decide) ..
    have act := Dev.actLaneTest_refused refused (Dev.pathUp_of_keeps keeps (by decide))
    rw [act] at access
    exact ⟨_, access keeps.wq, State.only_answered keeps .., congrArg _ (Dev.log_out ..)⟩
  · intro free
    have off : (Dev.testOn (bits v.toNat 10 8) && (s.start.laneUp k || s.start.laneChanging k)) = false := by
      rw [Bool.and_eq_false_iff, ← Bool.not_eq_true, test_bits, testOn_iff]
      exact free.elim (fun z => .inl (by omega)) fun h => h.imp (fun big => by omega) id
    have taken := Dev.tested_sends (ws := [0x30 + k.val / 8]) (k := k) (List.mem_singleton_self _) (test := v.toNat / 256 % 8)
      (prbs := v.toNat / 16 % 4) (Nat.mod_lt _ (by decide)) (Nat.mod_lt _ (by decide)) s.start
    have gone := taken.go (List.mem_singleton_self _) v.toNat
    have act := Dev.actLaneTest_taken (Dev.actTest_lane_taken (d := s.start) off)
      (Dev.pathUp_of_keeps (by rw [test_bits, prbs_bits]; exact gone.keeps) (by simp; omega))
    rw [test_bits, prbs_bits] at act
    rw [act] at access
    exact ⟨_, access gone.keeps.wq, State.only_answered gone.keeps .., congrArg _ gone.out, gone.test, gone.prbs⟩

theorem laneTest_pair (bus : s.BusFree 0x380000) :
    (let test := v.toNat / 256 % 8
     let used := s.dev.rdb R.TOP_STATE_PAIRED && s.dev.state ≠ .safe
     (1 ≤ test → test ≤ 4 → used = true →
       ∃ t, exec (.laneTestWrite none v) s = .next t ∧ s.Only [4] t ∧ t.dev.out = .bus 0 true :: s.dev.out) ∧
     ((test = 0 ∨ 5 ≤ test ∨ used = false) →
       ∃ t, exec (.laneTestWrite none v) s = .next t ∧ s.Only [4, 7, 0x38] t ∧
         t.dev.rd R.PAIR_CTRL_TEST = test ∧ t.dev.rd R.PAIR_CTRL_PRBS = v.toNat / 16 % 4 ∧
         (1 ≤ test → test ≤ 4 → t.dev.pathUp = false))) := by
  dsimp only
  have access := fun q => (exec_laneTestWrite none v s).trans (run_access bus (some v.toNat)
    (fun _ d => ((actLaneTest none v.toNat d).1, 0, (actLaneTest none v.toNat d).2)) q)
  constructor
  · intro lo hi used
    obtain ⟨paired, unsafe_⟩ := Bool.and_eq_true_iff.mp used
    have refused := Dev.actTest_pair_refused (d := s.start) (v := v.toNat) (by rw [test_bits]; exact testOn_iff.mpr ⟨lo, hi⟩) paired
      (of_decide_eq_true unsafe_)
    have keeps : Dev.Keeps [4] s.start (s.start.accessLog 0x380000 true) := Dev.accessLog_keeps (by decide) ..
    have act := Dev.actLaneTest_refused refused (Dev.pathUp_of_keeps keeps (by decide))
    rw [act] at access
    exact ⟨_, access keeps.wq, State.only_answered keeps .., congrArg _ (Dev.log_out ..)⟩
  · intro free
    have off : (Dev.testOn (bits v.toNat 10 8) && (s.start.rdb R.TOP_STATE_PAIRED && s.start.state ≠ .safe)) = false := by
      rw [Bool.and_eq_false_iff, ← Bool.not_eq_true, test_bits, testOn_iff]
      exact free.elim (fun z => .inl (by omega)) fun h => h.imp (fun big => by omega) id
    have act : actLaneTest none v.toNat s.start = ((s.start.pairTested (v.toNat / 256 % 8) (v.toNat / 16 % 4)).pairLink s.start.pathUp, false) := by
      unfold actLaneTest
      rw [Dev.actTest_pair_taken off, test_bits, prbs_bits]
    have tests := (Dev.pairTested_tests (test := v.toNat / 256 % 8) (prbs := v.toNat / 16 % 4) (Nat.mod_lt _ (by decide))
      (Nat.mod_lt _ (by decide)) s.start).told (Dev.pairLink_told _ s.start.pathUp)
    rw [act] at access
    generalize (s.start.pairTested (v.toNat / 256 % 8) (v.toNat / 16 % 4)).pairLink s.start.pathUp = e at access tests
    exact ⟨_, access tests.keeps.wq, State.only_answered tests.keeps .., tests.test, tests.prbs,
      fun lo hi => tests.down (testOn_iff.mpr ⟨lo, hi⟩)⟩

/-- The columns that this device sends (R321). -/
theorem alignmentColumn_sends (on : s.dev.off = false) : exec .alignmentColumnSend s =
    .next (s.withDev (if Dev.testOn (s.dev.rd R.PAIR_CTRL_TEST) then s.start else s.start.emit (.column alignColumn))) := by
  refine (exec_alignmentColumnSend s).trans (run_eq on rfl ?_)
  split <;> rfl

end

end Sys2Proof.Machine
end

section
/-!
PROOFS. Symbols of the pairing lanes (R322, R323): columns, rate compensation, alignment and its loss.
-/

namespace Sys2Proof.Machine
namespace Dev

section

variable {ws : List Nat} {c d e : Dev} {p q skew : Nat} {s : PairSym}

/-! A column of an aligned lane. -/

/-- A column's number and skew are noted, and the lane shows as aligned. -/
def columnNoted (d : Dev) (p skew : Nat) : Dev :=
  let d := d.putPlane p { d.plane1 p with late := skew }
  let d := d.wr R.PAIR_STATUS_MAP (setBits (d.rd R.PAIR_STATUS_MAP) (2 * p + 1) (2 * p) (d.plane1 p).num)
  let d := d.wr R.PAIR_STATUS_ALIGNED (setBit (d.rd R.PAIR_STATUS_ALIGNED) p true)
  d.wr R.PAIR_SKEW (Nat.max (d.rd R.PAIR_SKEW) (Nat.min skew 31))

theorem pairColumn_eq (d : Dev) (p skew : Nat) : d.pairColumn p skew = (d.columnNoted p skew).pairShow.rateComp p := rfl

theorem columnNoted_keeps (win : 0x38 ∈ ws) : Keeps ws d (d.columnNoted p skew) := .wr win (.wr win (.wr win (.set_plane .refl)))

theorem rd_columnNoted {f : Fld} (other : f.key ∉ [R.PAIR_STATUS_MAP.key, R.PAIR_STATUS_ALIGNED.key, R.PAIR_SKEW.key]) (d : Dev) (p skew : Nat) :
    (d.columnNoted p skew).rd f = d.rd f := by
  simp only [List.mem_cons, List.not_mem_nil, or_false, not_or] at other
  obtain ⟨map, aligned, far⟩ := other
  exact (rd_wr_ne _ _ _ _ far).trans ((rd_wr_ne _ _ _ _ aligned).trans (rd_wr_ne _ _ _ _ map))

theorem plane1_columnNoted_self (lt : p < 4) (d : Dev) (skew : Nat) : (d.columnNoted p skew).plane1 p = { d.plane1 p with late := skew } :=
  plane1_putPlane d _ lt

theorem plane1_columnNoted_ne (other : p ≠ q) (d : Dev) (skew : Nat) : (d.columnNoted p skew).plane1 q = d.plane1 q := plane1_putPlane_ne d _ other

theorem aligned_columnNoted (d : Dev) (p skew : Nat) :
    (d.columnNoted p skew).rd R.PAIR_STATUS_ALIGNED = setBit (d.rd R.PAIR_STATUS_ALIGNED) p true % 16 := by
  refine (rd_wr_ne _ _ _ _ (by decide)).trans ((rd_wr_self _ _ _).trans ?_)
  rw [rd_wr_ne _ _ _ _ (by decide)]
  rfl

theorem map_columnNoted (lt : p < 4) (d : Dev) (skew : Nat) :
    (d.columnNoted p skew).rd R.PAIR_STATUS_MAP = setBits (d.rd R.PAIR_STATUS_MAP) (2 * p + 1) (2 * p) (d.plane1 p).num % 256 := by
  refine (rd_wr_ne _ _ _ _ (by decide)).trans ((rd_wr_ne _ _ _ _ (by decide)).trans ((rd_wr_self _ _ _).trans ?_))
  rw [plane1_putPlane _ _ lt]
  rfl

/-! Rate compensation at a column. -/

/-- By how many K28.0 symbols each lane is to lose more: 1, -1 or 0. -/
def compTurn (d : Dev) (p : Nat) : Int :=
  if d.pairMap p ≠ 0 ∨ !d.pairReady then 0 else if 1 ≤ d.plane.ahead then 1 else if d.plane.ahead ≤ -1 then -1 else 0

/-- Rate compensation does nothing, drops a column of symbols or adds one. -/
theorem rateComp_cases (d : Dev) (p : Nat) : d.compTurn p = 0 ∧ d.rateComp p = d ∨
    d.compTurn p = 1 ∧ d.rateComp p = (d.slipLanes 1).cnt R.PAIR_COMP_DROP ∨
    d.compTurn p = -1 ∧ d.rateComp p = (d.slipLanes (-1)).cnt R.PAIR_COMP_ADD := by
  unfold compTurn rateComp
  split
  · exact .inl ⟨rfl, rfl⟩
  · split
    · exact .inr (.inl ⟨rfl, rfl⟩)
    · split
      · exact .inr (.inr ⟨rfl, rfl⟩)
      · exact .inl ⟨rfl, rfl⟩

theorem rateComp_keeps (win : 0x38 ∈ ws) : Keeps ws d (d.rateComp p) := by
  rcases rateComp_cases d p with ⟨_, act⟩ | ⟨_, act⟩ | ⟨_, act⟩ <;> rw [act]
  · exact .refl
  · exact .cnt win (.set_plane .refl)
  · exact .cnt win (.set_plane .refl)

theorem rd_rateComp {f : Fld} (other : f.key ∉ [R.PAIR_COMP_DROP.key, R.PAIR_COMP_ADD.key]) (d : Dev) (p : Nat) :
    (d.rateComp p).rd f = d.rd f := by
  simp only [List.mem_cons, List.not_mem_nil, or_false, not_or] at other
  rcases rateComp_cases d p with ⟨_, act⟩ | ⟨_, act⟩ | ⟨_, act⟩ <;> rw [act]
  · exact rd_cnt_ne _ _ _ other.1
  · exact rd_cnt_ne _ _ _ other.2

theorem plane1_slipLanes (lt : q < 4) (d : Dev) (n : Int) : (d.slipLanes n).plane1 q = { d.plane1 q with slip := (d.plane1 q).slip + n } := by
  simp [slipLanes, plane1, Vector.getD, lt]

theorem plane1_rateComp (lt : q < 4) (d : Dev) (p : Nat) :
    (d.rateComp p).plane1 q = { d.plane1 q with slip := (d.plane1 q).slip + d.compTurn p } := by
  rcases rateComp_cases d p with ⟨turn, act⟩ | ⟨turn, act⟩ | ⟨turn, act⟩ <;> rw [act, turn]
  · rw [add_zero]
  · exact plane1_slipLanes lt d 1
  · exact plane1_slipLanes lt d (-1)

theorem rateComp_counts (d : Dev) (p : Nat) : (d.compTurn p = 1 → d.Counted (d.rateComp p) R.PAIR_COMP_DROP) ∧
    (d.compTurn p = -1 → d.Counted (d.rateComp p) R.PAIR_COMP_ADD) := by
  rcases rateComp_cases d p with ⟨turn, act⟩ | ⟨turn, act⟩ | ⟨turn, act⟩ <;> rw [act, turn]
  · exact ⟨fun h => absurd h (by decide), fun h => absurd h (by decide)⟩
  · exact ⟨fun _ => rd_cnt_self _ _, fun h => absurd h (by decide)⟩
  · exact ⟨fun h => absurd h (by decide), fun _ => rd_cnt_self _ _⟩

/-- The symbols that stand for the last one of a column. -/
def compSyms (slip : Int) (s : PairSym) : List PairSym := if 1 ≤ slip then [] else if slip ≤ -1 then [s, s] else [s]

theorem pairComp_syms (d : Dev) (p : Nat) (s : PairSym) : (d.pairComp p s).2 = compSyms (d.plane1 p).slip s := by
  unfold pairComp compSyms
  dsimp only
  split
  · rfl
  · split <;> rfl

/-- The part of a lane that its receiver follows. -/
structure SameRx (l m : PairLane) : Prop where
  slot : m.slot = l.slot
  errs : m.errs = l.errs
  miss : m.miss = l.miss
  num  : m.num = l.num

theorem pairComp_leaves (lt : p < 4) (d : Dev) (s : PairSym) :
    (d.pairComp p s).1.regs = d.regs ∧ Keeps ws d (d.pairComp p s).1 ∧ SameRx (d.plane1 p) ((d.pairComp p s).1.plane1 p) := by
  unfold pairComp
  dsimp only
  split
  · exact ⟨rfl, .set_plane .refl, by rw [plane1_putPlane _ _ lt]; exact ⟨rfl, rfl, rfl, rfl⟩⟩
  · split
    · exact ⟨rfl, .set_plane .refl, by rw [plane1_putPlane _ _ lt]; exact ⟨rfl, rfl, rfl, rfl⟩⟩
    · exact ⟨rfl, .refl, ⟨rfl, rfl, rfl, rfl⟩⟩

/-- The fields that a column may change. -/
def columnKeys : List Nat := [R.PAIR_STATUS_MAP.key, R.PAIR_STATUS_ALIGNED.key, R.PAIR_SKEW.key, R.PAIR_STATUS_UP.key, R.PAIR_LINK_DOWN.key,
  R.ERR_DROPPED.key, R.PAIR_COMP_DROP.key, R.PAIR_COMP_ADD.key]

/-- A column of a lane has come. -/
structure ColumnCame (p skew : Nat) (d e : Dev) : Prop where
  keeps   : Keeps [4, 0x38] d e
  aligned : e.rd R.PAIR_STATUS_ALIGNED = (d.columnNoted p skew).rd R.PAIR_STATUS_ALIGNED
  map     : e.rd R.PAIR_STATUS_MAP = (d.columnNoted p skew).rd R.PAIR_STATUS_MAP
  up      : e.pathUp = (d.columnNoted p skew).pairWant
  rd      : ∀ f : Fld, f.key ∉ columnKeys → e.rd f = d.rd f
  lane    : SameRx (d.plane1 p) (e.plane1 p)

theorem column_came (lt : p < 4) (d : Dev) (skew : Nat) (s : PairSym) : ColumnCame p skew d ((d.pairColumn p skew).pairComp p s).1 := by
  obtain ⟨regs, keeps, same⟩ := pairComp_leaves (ws := [4, 0x38]) lt (d.pairColumn p skew) s
  have shown : Keeps [4, 0x38] d (d.columnNoted p skew).pairShow := pairShow_keeps (by decide) (by decide) (columnNoted_keeps (by decide))
  have field : ∀ f : Fld, ((d.pairColumn p skew).pairComp p s).1.rd f = (d.pairColumn p skew).rd f := fun f => by
    rw [rd, regs]
    rfl
  have low : ∀ f : Fld, f.key ∉ [R.PAIR_COMP_DROP.key, R.PAIR_COMP_ADD.key] → (d.pairColumn p skew).rd f = (d.columnNoted p skew).pairShow.rd f :=
    fun f other => rd_rateComp other _ _
  refine ⟨?_, ?_, ?_, ?_, fun f other => ?_, ?_⟩
  · exact shown.trans ((rateComp_keeps (by decide)).trans keeps)
  · rw [field, low _ (by decide), rd_pairShow (by decide)]
  · rw [field, low _ (by decide), rd_pairShow (by decide)]
  · rw [← pathUp_pairShow]
    exact congrArg (· != 0) ((field _).trans (low _ (by decide)))
  · simp only [columnKeys, List.mem_cons, List.not_mem_nil, or_false, not_or] at other
    obtain ⟨map, aligned, far, up, down, dropped, drop, add⟩ := other
    rw [field, low f (by simp [drop, add]), rd_pairShow (by simp [up, down, dropped]), rd_columnNoted (by simp [map, aligned, far])]
  · have plane : (d.pairColumn p skew).plane1 p = _ := plane1_rateComp lt (d.columnNoted p skew).pairShow p
    have before : (d.columnNoted p skew).pairShow.plane1 p = { d.plane1 p with late := skew } := by
      rw [plane1, plane_pairShow]
      exact plane1_columnNoted_self lt d skew
    rw [before] at plane
    rw [plane] at same
    exact ⟨same.slot, same.errs, same.miss, same.num⟩

/-! A symbol. -/

/-- What a symbol does to the lane's receiver. -/
def pairRx (d : Dev) (p : Nat) (s : PairSym) : PairRx :=
  if bit (d.rd R.PAIR_STATUS_ALIGNED) p then keepColumn (d.plane1 p) s else seekColumn (d.plane1 p) s

/-- The receiver has taken a symbol, and counts one in error. -/
def symTaken (d : Dev) (p : Nat) (s : PairSym) : Dev :=
  let e := d.putPlane p (d.pairRx p s).lane
  if s = .code then e.cnt R.PAIR_CODE_ERR else if s = .disp then e.cnt R.PAIR_DISP_ERR else e

theorem pairSymbol_column (column : (d.pairRx p s).column = true) (skew : Nat) :
    d.pairSymbol p skew s = ((d.symTaken p s).pairColumn p skew).pairComp p s := if_pos column

theorem pairSymbol_plain (column : (d.pairRx p s).column = false)
    (keeps : bit (d.rd R.PAIR_STATUS_ALIGNED) p = true → (d.pairRx p s).aligned = true) (skew : Nat) :
    d.pairSymbol p skew s = (d.symTaken p s, [s]) := by
  refine (if_neg (ne_true_of_eq_false column)).trans (if_neg fun h => ?_)
  obtain ⟨was, lost⟩ := Bool.and_eq_true_iff.mp h
  rw [Bool.not_eq_true'] at lost
  exact Bool.false_ne_true (lost.symm.trans (keeps was))

/-- A lane shows that its alignment is lost. -/
def pairLost (d : Dev) (p : Nat) : Dev :=
  ((d.wr R.PAIR_STATUS_ALIGNED (setBit (d.rd R.PAIR_STATUS_ALIGNED) p false)).cnt R.PAIR_REALIGN).pairShow

theorem pairSymbol_lost (column : (d.pairRx p s).column = false) (was : bit (d.rd R.PAIR_STATUS_ALIGNED) p = true)
    (lost : (d.pairRx p s).aligned = false) (skew : Nat) : d.pairSymbol p skew s = ((d.symTaken p s).pairLost p, [s]) := by
  refine (if_neg (ne_true_of_eq_false column)).trans (if_pos ?_)
  exact Bool.and_eq_true_iff.mpr ⟨was, by rw [Bool.not_eq_true']; exact lost⟩

theorem symTaken_keeps (win : 0x38 ∈ ws) : Keeps ws d (d.symTaken p s) :=
  .ite (.cnt win (.set_plane .refl)) (.ite (.cnt win (.set_plane .refl)) (.set_plane .refl))

theorem rd_symTaken {f : Fld} (other : f.key ∉ [R.PAIR_CODE_ERR.key, R.PAIR_DISP_ERR.key]) (d : Dev) (p : Nat) (s : PairSym) :
    (d.symTaken p s).rd f = d.rd f := by
  simp only [List.mem_cons, List.not_mem_nil, or_false, not_or] at other
  unfold symTaken
  dsimp only
  split
  · exact rd_cnt_ne _ _ _ other.1
  · split
    · exact rd_cnt_ne _ _ _ other.2
    · rfl

theorem plane1_symTaken (lt : p < 4) (d : Dev) (s : PairSym) : (d.symTaken p s).plane1 p = (d.pairRx p s).lane := by
  have lane := plane1_putPlane d (d.pairRx p s).lane lt
  unfold symTaken
  dsimp only
  split
  · exact lane
  · split
    · exact lane
    · exact lane

theorem plane1_symTaken_ne (other : p ≠ q) (d : Dev) (s : PairSym) : (d.symTaken p s).plane1 q = d.plane1 q := by
  have lane := plane1_putPlane_ne d (d.pairRx p s).lane other
  unfold symTaken
  dsimp only
  split
  · exact lane
  · split
    · exact lane
    · exact lane

theorem ahead_symTaken (d : Dev) (p : Nat) (s : PairSym) : (d.symTaken p s).plane.ahead = d.plane.ahead := by
  unfold symTaken
  dsimp only
  split
  · rfl
  · split <;> rfl

theorem pairLost_keeps : Keeps [4, 0x38] d (d.pairLost p) :=
  pairShow_keeps (by decide) (by decide) (.cnt (by decide) (.wr (by decide) .refl))

/-- Alignment of a lane is lost: the lane shows it, the link is down, and the loss counts. -/
theorem pairLost_shows (lt : p < 4) (d : Dev) : bit ((d.pairLost p).rd R.PAIR_STATUS_ALIGNED) p = false ∧ (d.pairLost p).pathUp = false ∧
    d.Counted (d.pairLost p) R.PAIR_REALIGN := by
  have aligned : bit ((((d.wr R.PAIR_STATUS_ALIGNED (setBit (d.rd R.PAIR_STATUS_ALIGNED) p false)).cnt R.PAIR_REALIGN)).rd
      R.PAIR_STATUS_ALIGNED) p = false := by
    rw [rd_cnt_ne _ _ _ (by decide)]
    exact bit_wr_setBit_false ..
  have notAll : ∀ x : Dev, bit (x.rd R.PAIR_STATUS_ALIGNED) p = false → x.pairWant = false := fun x clear => by
    have other : x.rd R.PAIR_STATUS_ALIGNED ≠ 15 := fun all => by
      rw [all] at clear
      have : p = 0 ∨ p = 1 ∨ p = 2 ∨ p = 3 := by omega
      rcases this with rfl | rfl | rfl | rfl <;> exact absurd clear (by decide)
    simp [pairWant, pairReady, other]
  refine ⟨?_, (pathUp_pairShow _).trans (notAll _ aligned), ?_⟩
  · rw [pairLost, rd_pairShow (by decide)]
    exact aligned
  · rw [Counted, pairLost, rd_pairShow (by decide), rd_cnt_self, rd_wr_ne _ _ _ _ (by decide)]

/-! Symbols in order, and what they do in a test. -/

theorem pairSymbols_one (d : Dev) (p skew : Nat) (s : PairSym) : d.pairSymbols p skew [s] = d.pairSymbol p skew s := rfl

theorem pairSymbols_cons (d : Dev) (p skew : Nat) (s : PairSym) (l : List PairSym) :
    (d.pairSymbols p skew (s :: l)).1 = ((d.pairSymbol p skew s).1.pairSymbols p skew l).1 := by
  have follows : ∀ (l : List PairSym) (a b : Dev × List PairSym), a.1 = b.1 →
      (l.foldl (fun a s => let r := a.1.pairSymbol p skew s; (r.1, a.2 ++ r.2)) a).1 =
      (l.foldl (fun a s => let r := a.1.pairSymbol p skew s; (r.1, a.2 ++ r.2)) b).1 := fun l => by
    induction l with
    | nil => exact fun _ _ h => h
    | cons s l ih => exact fun a b h => ih _ _ (congrArg (fun x : Dev => (x.pairSymbol p skew s).1) h)
  exact follows l _ _ rfl

/-- A checker has taken symbols: PAT_ERR alone may have counted. -/
structure Checked (d e : Dev) : Prop where
  keeps : Keeps [0x38] d e
  rd    : ∀ f : Fld, f.key ≠ R.PAIR_PAT_ERR.key → e.rd f = d.rd f

theorem Checked.addCnt {n : Nat} (h : Checked d e) : Checked d (e.addCnt R.PAIR_PAT_ERR n) :=
  ⟨h.keeps.addCnt (by decide), fun f other => (rd_addCnt_ne _ _ _ _ other).trans (h.rd f other)⟩

theorem Checked.foldl {α : Type} {f : Dev → α → Dev} (step : ∀ x a, Checked x (f x a)) : ∀ (l : List α) (d : Dev), Checked d (l.foldl f d)
  | [], _ => ⟨.refl, fun _ _ => rfl⟩
  | a :: l, d => ⟨(step d a).keeps.trans (Checked.foldl step l (f d a)).keeps,
      fun g other => ((Checked.foldl step l (f d a)).rd g other).trans ((step d a).rd g other)⟩

theorem pairTest_checked (d : Dev) (p : Nat) (syms comp : List PairSym) : Checked d (d.pairTest p syms comp) := by
  unfold pairTest
  split
  · exact ⟨.emit .refl, fun _ _ => rfl⟩
  · refine .foldl (fun x s => ?_) syms d
    split
    · exact .addCnt ⟨.set_plane .refl, fun _ _ => rfl⟩
    · exact .addCnt ⟨.refl, fun _ _ => rfl⟩
  · exact ⟨.refl, fun _ _ => rfl⟩

theorem pairTest_echoes (far : d.rd R.PAIR_CTRL_TEST = 3) (p : Nat) (syms comp : List PairSym) :
    d.pairTest p syms comp = d.emit (.pairSyms p comp) := by
  simp only [pairTest, far]

/-- The device after its partner's reference has gained some symbols on its own. -/
def gained (d : Dev) (ahead : Int) : Dev := { d with plane := { d.plane with ahead := d.plane.ahead + ahead } }

/-- The lanes after symbols, and the symbols that rate compensation makes of them. -/
def pairTaken (d : Dev) (p : Nat) (syms : List PairSym) (skew : Nat) (ahead : Int) : Dev × List PairSym :=
  (d.gained ahead).pairSymbols p skew syms

/-- Symbols of a lane have been taken: what the lanes show, and what far-end loopback sends back. -/
structure SymsTaken (p : Nat) (d : Dev) (r : Dev × List PairSym) (e : Dev) : Prop where
  keeps  : Keeps [4, 7, 0x38] d e
  rd     : ∀ f : Fld, f.key / 524288 = 0x38 → f.key ≠ R.PAIR_PAT_ERR.key → e.rd f = r.1.rd f
  echoed : r.1.rd R.PAIR_CTRL_TEST = 3 → Out.pairSyms p r.2 ∈ e.out

theorem SymsTaken.pathUp {r : Dev × List PairSym} (h : SymsTaken p d r e) : e.pathUp = r.1.pathUp :=
  congrArg (· != 0) (h.rd R.PAIR_STATUS_UP rfl (by decide))

theorem actPairSymbols_takes {syms : List PairSym} {ahead : Int} (keeps : Keeps [4, 0x38] d (d.pairTaken p syms skew ahead).1) :
    SymsTaken p d (d.pairTaken p syms skew ahead) (actPairSymbols p syms skew ahead d) := by
  have act : actPairSymbols p syms skew ahead d =
    ((d.pairTaken p syms skew ahead).1.pairTest p syms (d.pairTaken p syms skew ahead).2).pairLink d.pathUp := rfl
  generalize d.pairTaken p syms skew ahead = r at keeps act
  have checked := pairTest_checked r.1 p syms r.2
  have told := pairLink_told (r.1.pairTest p syms r.2) d.pathUp
  rw [act]
  refine ⟨?_, fun f window other => ?_, fun far => told.out _ ?_⟩
  · exact (keeps.wider (by decide)).trans ((checked.keeps.wider (by decide)).trans (told.keeps.wider (by decide)))
  · exact (told.keeps.rd f (by rw [window]; decide)).trans (checked.rd f other)
  · rw [pairTest_echoes far]
    exact List.mem_cons_self

/-! A data symbol (R323). -/

/-! An aligned receiver (R322). -/

/-- The place in its column at which an aligned receiver takes a symbol, with the errors and the missing columns that it counts. -/
def keptSlot (l : PairLane) : Nat := (l.slot.getD 0 + 1) % 1024
def keptErrs (l : PairLane) (s : PairSym) : Nat := (2 * l.errs + b2n (s = .code || s = .disp)) % 2 ^ 256
def keptMiss (l : PairLane) (s : PairSym) : Nat := if keptSlot l = 0 then (if s = .k285 then 0 else l.miss + 1) else l.miss

def keptNum (l : PairLane) (s : PairSym) : Nat := match s with
  | .data b => if keptSlot l = 1 && l.miss = 0 && decide (b.toNat < 4) then b.toNat else l.num
  | _ => l.num

/-- The lane of an aligned receiver that has kept its alignment. -/
def keptLane (l : PairLane) (s : PairSym) : PairLane :=
  { l with slot := some (keptSlot l), errs := keptErrs l s, miss := keptMiss l s, num := keptNum l s }

theorem keepColumn_eq (l : PairLane) (s : PairSym) : keepColumn l s =
    if (decide (4 ≤ ones256 (keptErrs l s)) || decide (2 ≤ keptMiss l s)) = true then
      ⟨{ l with slot := none, cols := 0, miss := 0, errs := 0 }, false, false⟩
    else ⟨keptLane l s, true, decide (keptSlot l = 3) && decide (keptMiss l s = 0)⟩ := rfl

theorem keepColumn_kept {l : PairLane} (few : ones256 (keptErrs l s) < 4) (found : keptMiss l s < 2) :
    keepColumn l s = ⟨keptLane l s, true, decide (keptSlot l = 3) && decide (keptMiss l s = 0)⟩ := by
  rw [keepColumn_eq, if_neg]
  simp only [Bool.or_eq_true, decide_eq_true_eq]
  omega

theorem keepColumn_lost {l : PairLane} (many : 4 ≤ ones256 (keptErrs l s)) :
    (keepColumn l s).aligned = false ∧ (keepColumn l s).column = false := by
  rw [keepColumn_eq, if_pos (by rw [decide_eq_true many, Bool.true_or])]
  exact ⟨rfl, rfl⟩

theorem keepColumn_of_not_third {l : PairLane} (away : l.slot.getD 0 % 1024 ≠ 2) : (keepColumn l s).column = false := by
  have other : keptSlot l ≠ 3 := by
    unfold keptSlot
    omega
  rw [keepColumn_eq]
  split
  · rfl
  · rw [decide_eq_false other, Bool.false_and]

theorem seekColumn_data (l : PairLane) (b : Byte) : (seekColumn l (.data b)).column = false := by
  match slot : l.slot with
  | none => simp only [seekColumn, slot]
  | some 0 =>
    simp only [seekColumn, slot]
    split <;> rfl
  | some 1 => simp only [seekColumn, slot]
  | some 2 => simp only [seekColumn, slot]
  | some (n + 3) =>
    simp only [seekColumn, slot]
    split <;> rfl

theorem pairRx_aligned (aligned : bit (d.rd R.PAIR_STATUS_ALIGNED) p = true) (s : PairSym) : d.pairRx p s = keepColumn (d.plane1 p) s :=
  if_pos aligned

/-- What a symbol may do besides: the pairing registers and the log alone change, and TEST is not one of them. -/
theorem pairSymbol_keeps (lt : p < 4) (d : Dev) (skew : Nat) (s : PairSym) :
    Keeps [4, 0x38] d (d.pairSymbol p skew s).1 ∧ (d.pairSymbol p skew s).1.rd R.PAIR_CTRL_TEST = d.rd R.PAIR_CTRL_TEST := by
  have taken : Keeps [4, 0x38] d (d.symTaken p s) := symTaken_keeps (by decide)
  have test : (d.symTaken p s).rd R.PAIR_CTRL_TEST = d.rd R.PAIR_CTRL_TEST := rd_symTaken (by decide) ..
  by_cases column : (d.pairRx p s).column = true
  · have came := column_came lt (d.symTaken p s) skew s
    rw [pairSymbol_column column]
    exact ⟨taken.trans came.keeps, (came.rd _ (by decide)).trans test⟩
  · have plain := Bool.eq_false_of_not_eq_true column
    by_cases lost : bit (d.rd R.PAIR_STATUS_ALIGNED) p = true ∧ (d.pairRx p s).aligned = false
    · rw [pairSymbol_lost plain lost.1 lost.2]
      refine ⟨taken.trans pairLost_keeps, (rd_pairShow (by decide) _).trans (.trans ?_ test)⟩
      exact (rd_cnt_ne _ _ _ (by decide)).trans (rd_wr_ne _ _ _ _ (by decide))
    · rw [pairSymbol_plain plain fun was => by_contra fun gone => lost ⟨was, Bool.eq_false_of_not_eq_true gone⟩]
      exact ⟨taken, test⟩

theorem pairSymbol_syms (plain : (d.pairRx p s).column = false) : (d.pairSymbol p skew s).2 = [s] := by
  by_cases lost : bit (d.rd R.PAIR_STATUS_ALIGNED) p = true ∧ (d.pairRx p s).aligned = false
  · rw [pairSymbol_lost plain lost.1 lost.2]
  · rw [pairSymbol_plain plain fun was => by_contra fun gone => lost ⟨was, Bool.eq_false_of_not_eq_true gone⟩]

theorem pairRx_data (away : (d.plane1 p).slot.getD 0 % 1024 ≠ 2) (b : Byte) : (d.pairRx p (.data b)).column = false := by
  unfold pairRx
  split
  · exact keepColumn_of_not_third away
  · exact seekColumn_data ..

/-! The column of an aligned lane, and rate compensation at it. -/

theorem pairMap_same_map {x y : Dev} (same : y.rd R.PAIR_STATUS_MAP = x.rd R.PAIR_STATUS_MAP % 256) (lt : q < 4) : y.pairMap q = x.pairMap q := by
  have : q = 0 ∨ q = 1 ∨ q = 2 ∨ q = 3 := by omega
  rw [pairMap, pairMap, same, bits_eq_div_mod, bits_eq_div_mod]
  rcases this with rfl | rfl | rfl | rfl <;> omega

theorem setBits_same {v hi lo x : Nat} (same : bits v hi lo = x) : setBits v hi lo x = v := by
  have small : x % 2 ^ (hi + 1 - lo) = x := by
    rw [← same]
    exact Nat.mod_mod ..
  have le : x * 2 ^ lo ≤ v := by
    rw [← same, bits_eq_div_mod]
    exact (Nat.mul_le_mul_right _ (Nat.mod_le ..)).trans (Nat.div_mul_le_self ..)
  rw [setBits, same, small, Nat.sub_add_cancel le]

theorem bits_setBits {v x : Nat} (lt : p < 4) : bits (setBits v (2 * p + 1) (2 * p) x % 256) (2 * p + 1) (2 * p) = x % 4 := by
  have : p = 0 ∨ p = 1 ∨ p = 2 ∨ p = 3 := by omega
  rw [setBits, bits_eq_div_mod, bits_eq_div_mod]
  rcases this with rfl | rfl | rfl | rfl <;> omega

theorem pairReady_iff (d : Dev) : d.pairReady = true ↔ d.rd R.PAIR_STATUS_ALIGNED = 15 ∧ (∀ q < 4, (d.plane1 q).late ≤ 16) ∧
    ((List.range 4).map d.pairMap).dedup.length = 4 := by
  simp only [pairReady, deskewed, Bool.and_eq_true, decide_eq_true_eq, List.all_eq_true, List.mem_range, and_assoc]

/-- The lanes stay ready while they show the same, within the skew that is tolerated. -/
theorem pairReady_of_same (ready : d.pairReady = true) (aligned : e.rd R.PAIR_STATUS_ALIGNED = 15) (late : ∀ q < 4, (e.plane1 q).late ≤ 16)
    (map : ∀ q < 4, e.pairMap q = d.pairMap q) : e.pairReady = true := by
  obtain ⟨_, _, distinct⟩ := (pairReady_iff d).mp ready
  have maps : (List.range 4).map e.pairMap = (List.range 4).map d.pairMap := List.map_congr_left fun q m => map q (List.mem_range.mp m)
  exact (pairReady_iff e).mpr ⟨aligned, late, maps ▸ distinct⟩

theorem pairReady_columnNoted (lt : p < 4) (ready : d.pairReady = true) (number : d.pairMap p = (d.plane1 p).num) (near : skew ≤ 16) :
    (d.columnNoted p skew).pairReady = true ∧ ∀ q < 4, (d.columnNoted p skew).pairMap q = d.pairMap q := by
  obtain ⟨aligned, late, _⟩ := (pairReady_iff d).mp ready
  have map : ∀ q < 4, (d.columnNoted p skew).pairMap q = d.pairMap q := fun q lt' =>
    pairMap_same_map ((map_columnNoted lt d skew).trans (by rw [setBits_same number])) lt'
  refine ⟨pairReady_of_same ready ?_ (fun q lt' => ?_) map, map⟩
  · rw [aligned_columnNoted, aligned]
    have : p = 0 ∨ p = 1 ∨ p = 2 ∨ p = 3 := by omega
    rcases this with rfl | rfl | rfl | rfl <;> rfl
  · by_cases same : p = q
    · subst same
      rw [plane1_columnNoted_self lt]
      exact near
    · rw [plane1_columnNoted_ne same]
      exact late q lt'

/-- How a column of a lane that is ready turns rate compensation. -/
def turnOf (num : Nat) (ahead : Int) : Int := if num ≠ 0 then 0 else if 1 ≤ ahead then 1 else if ahead ≤ -1 then -1 else 0

theorem compTurn_of_ready (ready : d.pairReady = true) : d.compTurn p = turnOf (d.pairMap p) d.plane.ahead := by
  simp [compTurn, turnOf, ready]

/-- The column that a K28.0 ends in a lane that is ready. -/
theorem column_compensates (lt : p < 4) (ready : d.pairReady = true) (number : d.pairMap p = (d.plane1 p).num) (near : skew ≤ 16)
    (s : PairSym) :
    ((d.pairColumn p skew).pairComp p s).2 = compSyms ((d.plane1 p).slip + turnOf (d.plane1 p).num d.plane.ahead) s ∧
      (turnOf (d.plane1 p).num d.plane.ahead = 1 → d.Counted ((d.pairColumn p skew).pairComp p s).1 R.PAIR_COMP_DROP) ∧
      (turnOf (d.plane1 p).num d.plane.ahead = -1 → d.Counted ((d.pairColumn p skew).pairComp p s).1 R.PAIR_COMP_ADD) := by
  obtain ⟨ready', map⟩ := pairReady_columnNoted lt ready number near
  have plane := plane_pairShow (d.columnNoted p skew)
  have lane : (d.columnNoted p skew).pairShow.plane1 p = { d.plane1 p with late := skew } := by
    rw [plane1, plane]
    exact plane1_columnNoted_self lt d skew
  have shown : (d.columnNoted p skew).pairShow.pairReady = true :=
    pairReady_of_same ready' ((rd_pairShow (by decide) _).trans ((pairReady_iff _).mp ready').1)
      (fun q lt' => by rw [plane1, plane]; exact ((pairReady_iff _).mp ready').2.1 q lt')
      fun q _ => by rw [pairMap, rd_pairShow (by decide)]; rfl
  have turn : (d.columnNoted p skew).pairShow.compTurn p = turnOf (d.plane1 p).num d.plane.ahead := by
    have num : (d.columnNoted p skew).pairShow.pairMap p = (d.plane1 p).num := by
      rw [pairMap, rd_pairShow (by decide)]
      exact (map p lt).trans number
    rw [compTurn_of_ready shown, num, plane]
    rfl
  have counts := rateComp_counts (d.columnNoted p skew).pairShow p
  have before : ∀ f : Fld, f.key ∉ [R.PAIR_STATUS_MAP.key, R.PAIR_STATUS_ALIGNED.key, R.PAIR_SKEW.key] →
      f.key ∉ [R.PAIR_STATUS_UP.key, R.PAIR_LINK_DOWN.key, R.ERR_DROPPED.key] →
      (d.columnNoted p skew).pairShow.rd f = d.rd f := fun f low high => (rd_pairShow high _).trans (rd_columnNoted low ..)
  have after : ∀ f : Fld, ((d.pairColumn p skew).pairComp p s).1.rd f = (d.pairColumn p skew).rd f := fun f => by
    rw [rd, (pairComp_leaves (ws := []) lt (d.pairColumn p skew) s).1]
    rfl
  rw [turn] at counts
  refine ⟨?_, fun drops => ?_, fun adds => ?_⟩
  · rw [pairComp_syms, pairColumn_eq, plane1_rateComp lt, lane, turn]
  · rw [Counted, after, pairColumn_eq, counts.1 drops, before _ (by decide) (by decide)]
  · rw [Counted, after, pairColumn_eq, counts.2 adds, before _ (by decide) (by decide)]

/-- A K28.0 that ends a column of a lane that is ready. -/
theorem last_compensates (lt : p < 4) (ready : d.pairReady = true) (number : d.pairMap p = (d.plane1 p).num) (near : skew ≤ 16)
    (slot : (d.plane1 p).slot = some 2) (miss : (d.plane1 p).miss = 0) (few : ones256 (2 * (d.plane1 p).errs % 2 ^ 256) < 4) :
    (d.pairSymbol p skew .k280).2 = compSyms ((d.plane1 p).slip + turnOf (d.plane1 p).num d.plane.ahead) .k280 ∧
      (turnOf (d.plane1 p).num d.plane.ahead = 1 → d.Counted (d.pairSymbol p skew .k280).1 R.PAIR_COMP_DROP) ∧
      (turnOf (d.plane1 p).num d.plane.ahead = -1 → d.Counted (d.pairSymbol p skew .k280).1 R.PAIR_COMP_ADD) := by
  obtain ⟨aligned, late, _⟩ := (pairReady_iff d).mp ready
  have keptSlot_ : keptSlot (d.plane1 p) = 3 := by rw [keptSlot, slot]; rfl
  have keptMiss_ : keptMiss (d.plane1 p) .k280 = 0 := by rw [keptMiss, keptSlot_, miss]; rfl
  have rx : d.pairRx p .k280 = ⟨keptLane (d.plane1 p) .k280, true, true⟩ := by
    have bit_ : bit (d.rd R.PAIR_STATUS_ALIGNED) p = true := by
      have : p = 0 ∨ p = 1 ∨ p = 2 ∨ p = 3 := by omega
      rw [aligned]
      rcases this with rfl | rfl | rfl | rfl <;> rfl
    have keptErrs_ : keptErrs (d.plane1 p) .k280 = 2 * (d.plane1 p).errs % 2 ^ 256 := by
      rw [keptErrs, show b2n (decide (PairSym.k280 = .code) || decide (PairSym.k280 = .disp)) = 0 from rfl, Nat.add_zero]
    rw [pairRx_aligned bit_, keepColumn_kept (keptErrs_ ▸ few) (by rw [keptMiss_]; decide), keptSlot_, keptMiss_]
    rfl
  have lane : (d.symTaken p .k280).plane1 p = keptLane (d.plane1 p) .k280 := by rw [plane1_symTaken lt, rx]
  have map : ∀ q < 4, (d.symTaken p .k280).pairMap q = d.pairMap q := fun q _ => by rw [pairMap, rd_symTaken (by decide)]; rfl
  have ready' : (d.symTaken p .k280).pairReady = true := by
    refine pairReady_of_same ready ((rd_symTaken (by decide) ..).trans aligned) (fun q lt' => ?_) map
    by_cases same : p = q
    · subst same
      rw [lane]
      exact late p lt
    · rw [plane1_symTaken_ne same]
      exact late q lt'
  have number' : (d.symTaken p .k280).pairMap p = ((d.symTaken p .k280).plane1 p).num := by
    rw [map p lt, lane]
    exact number
  have comp := column_compensates lt ready' number' near .k280
  rw [lane, ahead_symTaken, ← pairSymbol_column (by rw [rx])] at comp
  obtain ⟨syms, drop, add⟩ := comp
  refine ⟨syms, fun drops => (drop drops).trans ?_, fun adds => (add adds).trans ?_⟩
  · rw [rd_symTaken (by decide)]
  · rw [rd_symTaken (by decide)]

/-! A lane that is not aligned finds its columns. -/

theorem seek_comma {l : PairLane} (slot : l.slot = some 1023) (cols : l.cols = 3) :
    seekColumn l .k285 = ⟨{ l with slot := some 0, cols := 4 }, false, false⟩ := by
  simp only [seekColumn, slot, cols]

theorem seek_number {l : PairLane} (slot : l.slot = some 0) {n : Nat} (lt : n < 4) :
    seekColumn l (.data (BitVec.ofNat 8 n)) = ⟨{ l with slot := some 1, num := n }, false, false⟩ := by
  have small : (BitVec.ofNat 8 n).toNat = n := by
    rw [BitVec.toNat_ofNat]
    omega
  simp only [seekColumn, slot, small, if_pos lt]

theorem seek_first {l : PairLane} (slot : l.slot = some 1) : seekColumn l .k280 = ⟨{ l with slot := some 2 }, false, false⟩ := by
  simp only [seekColumn, slot]

theorem seek_last {l : PairLane} (slot : l.slot = some 2) (cols : l.cols = 4) :
    seekColumn l .k280 = ⟨{ l with slot := some 3, miss := 0, errs := 0 }, true, true⟩ := by
  simp [seekColumn, slot, cols]

theorem pairRx_seeking (unaligned : bit (d.rd R.PAIR_STATUS_ALIGNED) p = false) (s : PairSym) :
    d.pairRx p s = seekColumn (d.plane1 p) s := if_neg (ne_true_of_eq_false unaligned)

theorem pairSymbol_seeks (unaligned : bit (d.rd R.PAIR_STATUS_ALIGNED) p = false) {l : PairLane}
    (seeks : seekColumn (d.plane1 p) s = ⟨l, false, false⟩) (lt : p < 4) (skew : Nat) :
    (d.pairSymbol p skew s).1.plane1 p = l ∧ (d.pairSymbol p skew s).1.rd R.PAIR_STATUS_ALIGNED = d.rd R.PAIR_STATUS_ALIGNED := by
  have rx := (pairRx_seeking unaligned s).trans seeks
  rw [pairSymbol_plain (by rw [rx]) (fun was => absurd (was.symm.trans unaligned) (by decide))]
  exact ⟨by rw [plane1_symTaken lt, rx], rd_symTaken (by decide) ..⟩

/-- The fourth column of a lane in a row aligns it. -/
theorem fourth_column_aligns (lt : p < 4) (unaligned : bit (d.rd R.PAIR_STATUS_ALIGNED) p = false) (slot : (d.plane1 p).slot = some 1023)
    (cols : (d.plane1 p).cols = 3) {n : Nat} (small : n < 4) (skew : Nat) :
    ∃ x : Dev, Keeps [4, 0x38] d x ∧ (x.plane1 p).num = n ∧
      (d.pairSymbols p skew [.k285, .data (BitVec.ofNat 8 n), .k280, .k280]).1 = ((x.pairColumn p skew).pairComp p .k280).1 := by
  obtain ⟨lane1, aligned1⟩ := pairSymbol_seeks unaligned (seek_comma slot cols) lt skew
  have keeps1 := (pairSymbol_keeps lt d skew .k285).1
  rw [pairSymbols_cons, pairSymbols_cons, pairSymbols_cons, pairSymbols_one]
  generalize (d.pairSymbol p skew .k285).1 = d1 at *
  obtain ⟨lane2, aligned2⟩ := pairSymbol_seeks (d := d1) (by rw [aligned1]; exact unaligned) (seek_number (by rw [lane1]) small) lt skew
  have keeps2 := (pairSymbol_keeps lt d1 skew (.data (BitVec.ofNat 8 n))).1
  generalize (d1.pairSymbol p skew (.data (BitVec.ofNat 8 n))).1 = d2 at *
  obtain ⟨lane3, aligned3⟩ := pairSymbol_seeks (d := d2) (by rw [aligned2, aligned1]; exact unaligned) (seek_first (by rw [lane2])) lt skew
  have keeps3 := (pairSymbol_keeps lt d2 skew .k280).1
  generalize (d2.pairSymbol p skew .k280).1 = d3 at *
  have last := seek_last (l := d3.plane1 p) (by rw [lane3]) (by rw [lane3, lane2, lane1])
  have rx := (pairRx_seeking (d := d3) (by rw [aligned3, aligned2, aligned1]; exact unaligned) .k280).trans last
  refine ⟨d3.symTaken p .k280, ?_, ?_, by rw [pairSymbol_column (by rw [rx])]⟩
  · exact keeps1.trans (keeps2.trans (keeps3.trans (symTaken_keeps (by decide))))
  · rw [plane1_symTaken lt, rx, lane3, lane2]

/-- What an aligned lane shows after its column. -/
theorem column_shows (lt : p < 4) (d : Dev) (skew : Nat) {e : Dev} (came : ColumnCame p skew d e) :
    bit (e.rd R.PAIR_STATUS_ALIGNED) p = true ∧ e.pairMap p = (d.plane1 p).num % 4 ∧
      (e.rd R.PAIR_STATUS_ALIGNED ≠ 15 ∨ 16 < skew → e.pathUp = false) := by
  refine ⟨?_, ?_, fun unready => ?_⟩
  · rw [came.aligned, aligned_columnNoted]
    have set_ : (setBit (d.rd R.PAIR_STATUS_ALIGNED) p true).testBit p = true := bit_setBit_true ..
    exact (Nat.testBit_mod_two_pow _ 4 p).trans (by rw [set_, decide_eq_true lt]; rfl)
  · rw [pairMap, came.map, map_columnNoted lt, bits_setBits lt]
  · have notReady : ¬ (d.columnNoted p skew).pairReady = true := fun ready => by
      obtain ⟨aligned, late, _⟩ := (pairReady_iff _).mp ready
      have near := late p lt
      rw [plane1_columnNoted_self lt] at near
      exact unready.elim (fun h => h (came.aligned.trans aligned)) fun far => absurd near (Nat.not_le.mpr far)
    rw [came.up, pairWant, Bool.eq_false_of_not_eq_true notReady, Bool.false_and]

/-! Four symbols in error (R322). -/

/-- An aligned lane has taken n symbols in error in a row, and no more than one of their columns can be missing. -/
structure Erring (p n : Nat) (d : Dev) : Prop where
  aligned : bit (d.rd R.PAIR_STATUS_ALIGNED) p = true
  errs    : (d.plane1 p).errs = 2 ^ n - 1
  miss    : (d.plane1 p).miss = 0 ∨ ((d.plane1 p).miss = 1 ∧ (d.plane1 p).slot.getD 0 < n)

theorem code_errs {l : PairLane} {n : Nat} (lt : n < 4) (errs : l.errs = 2 ^ n - 1) :
    keptErrs l .code = 2 ^ (n + 1) - 1 ∧ ones256 (keptErrs l .code) = n + 1 := by
  have : n = 0 ∨ n = 1 ∨ n = 2 ∨ n = 3 := by omega
  have next : keptErrs l .code = 2 ^ (n + 1) - 1 := by
    unfold keptErrs
    rw [errs]
    rcases this with rfl | rfl | rfl | rfl <;> rfl
  refine ⟨next, next ▸ ?_⟩
  rcases this with rfl | rfl | rfl | rfl <;> rfl

theorem code_miss {l : PairLane} {n : Nat} (lt : n < 4) (miss : l.miss = 0 ∨ (l.miss = 1 ∧ l.slot.getD 0 < n)) :
    keptMiss l .code = 0 ∨ (keptMiss l .code = 1 ∧ keptSlot l < n + 1) := by
  unfold keptMiss keptSlot
  simp only [reduceCtorEq, if_false]
  split <;> omega

theorem rd_codeTaken (d : Dev) (p : Nat) : d.Counted (d.symTaken p .code) R.PAIR_CODE_ERR := rd_cnt_self (d.putPlane p _) _

/-- A symbol in error before the fourth: it counts, and the lane stays aligned. -/
theorem code_kept {n : Nat} (lt : p < 4) (few : n < 3) (erring : Erring p n d) (skew : Nat) :
    Erring p (n + 1) (d.pairSymbol p skew .code).1 ∧ d.Counted (d.pairSymbol p skew .code).1 R.PAIR_CODE_ERR ∧
      (d.pairSymbol p skew .code).1.rd R.PAIR_REALIGN = d.rd R.PAIR_REALIGN := by
  obtain ⟨errs, ones⟩ := code_errs (Nat.lt_succ_of_lt few) erring.errs
  have miss := code_miss (Nat.lt_succ_of_lt few) erring.miss
  have rx := (pairRx_aligned erring.aligned .code).trans (keepColumn_kept (by omega) (by omega))
  have lane : (d.symTaken p .code).plane1 p = keptLane (d.plane1 p) .code := by rw [plane1_symTaken lt, rx]
  have taken : Erring p (n + 1) (d.symTaken p .code) :=
    ⟨by rw [rd_symTaken (by decide)]; exact erring.aligned, by rw [lane]; exact errs, by rw [lane]; exact miss⟩
  have realign : (d.symTaken p .code).rd R.PAIR_REALIGN = d.rd R.PAIR_REALIGN := rd_symTaken (by decide) ..
  by_cases column : (d.pairRx p .code).column = true
  · have came := column_came lt (d.symTaken p .code) skew .code
    rw [pairSymbol_column column]
    refine ⟨⟨(column_shows lt _ skew came).1, came.lane.errs.trans taken.errs, ?_⟩, ?_, (came.rd _ (by decide)).trans realign⟩
    · rw [came.lane.miss, came.lane.slot]
      exact taken.miss
    · exact (came.rd _ (by decide)).trans (rd_codeTaken d p)
  · rw [pairSymbol_plain (Bool.eq_false_of_not_eq_true column) fun _ => by rw [rx]]
    exact ⟨taken, rd_codeTaken d p, realign⟩

/-- The fourth symbol in error: the lane loses its alignment. -/
theorem code_lost (lt : p < 4) (erring : Erring p 3 d) (skew : Nat) :
    bit ((d.pairSymbol p skew .code).1.rd R.PAIR_STATUS_ALIGNED) p = false ∧ (d.pairSymbol p skew .code).1.pathUp = false ∧
      d.Counted (d.pairSymbol p skew .code).1 R.PAIR_REALIGN ∧ d.Counted (d.pairSymbol p skew .code).1 R.PAIR_CODE_ERR := by
  obtain ⟨lost, column⟩ := keepColumn_lost (s := .code) (code_errs (by decide) erring.errs).2.ge
  have rx := pairRx_aligned erring.aligned .code
  obtain ⟨clear, down, realign⟩ := pairLost_shows lt (d.symTaken p .code)
  rw [pairSymbol_lost (by rw [rx, column]) erring.aligned (by rw [rx, lost])]
  refine ⟨clear, down, ?_, ?_⟩
  · rw [Counted, realign, rd_symTaken (by decide)]
  · rw [Counted, pairLost, rd_pairShow (by decide), rd_cnt_ne _ _ _ (by decide), rd_wr_ne _ _ _ _ (by decide), rd_codeTaken]

theorem four_codes_lose (lt : p < 4) (erring : Erring p 0 d) (skew : Nat) {e : Dev}
    (taken : (d.pairSymbols p skew [.code, .code, .code, .code]).1 = e) :
    bit (e.rd R.PAIR_STATUS_ALIGNED) p = false ∧ e.pathUp = false ∧ d.Counted e R.PAIR_REALIGN ∧ d.Counted e R.PAIR_CODE_ERR 4 := by
  rw [pairSymbols_cons, pairSymbols_cons, pairSymbols_cons, pairSymbols_one] at taken
  obtain ⟨erring1, code1, realign1⟩ := code_kept lt (by decide) erring skew
  generalize (d.pairSymbol p skew .code).1 = d1 at *
  obtain ⟨erring2, code2, realign2⟩ := code_kept lt (by decide) erring1 skew
  generalize (d1.pairSymbol p skew .code).1 = d2 at *
  obtain ⟨erring3, code3, realign3⟩ := code_kept lt (by decide) erring2 skew
  generalize (d2.pairSymbol p skew .code).1 = d3 at *
  obtain ⟨clear, down, realign4, code4⟩ := code_lost lt erring3 skew
  rw [taken] at clear down realign4 code4
  refine ⟨clear, down, ?_, ?_⟩
  · rw [Counted, realign4, realign3, realign2, realign1]
  · rw [Counted] at *
    rw [code4, code3, code2, code1]
    simp only [Nat.min_def]
    split_ifs <;> omega

theorem pairSymbols_keeps (lt : p < 4) (d : Dev) (skew : Nat) (l : List PairSym) : Keeps [4, 0x38] d (d.pairSymbols p skew l).1 := by
  induction l generalizing d with
  | nil => exact .refl
  | cons s l ih =>
    rw [pairSymbols_cons]
    exact (pairSymbol_keeps lt d skew s).1.trans (ih _)

end

end Dev
end Sys2Proof.Machine
end

section
/-!
PROOFS. The commands of the pairing lanes' symbols (R322, R323).
-/

namespace Sys2Proof.Machine

section

variable {s : State} (p : Fin 4) (skew : Nat) (ahead : Int)

/-- Symbols reach a pairing lane. -/
theorem pairLane_ends (on : s.dev.off = false) (syms : List PairSym)
    (keeps : Dev.Keeps [4, 0x38] s.start (s.start.pairTaken p syms skew ahead).1) :
    ∃ e : Dev, Dev.SymsTaken p s.start (s.start.pairTaken p syms skew ahead) e ∧
      exec (.pairLaneAligned p syms ⟨skew, ahead⟩) s = .next (s.withDev e) ∧ s.Only [4, 7, 0x38] (s.withDev e) := by
  have takes := Dev.actPairSymbols_takes keeps
  exact ⟨_, takes, run_quiet_ends on (exec_pairLaneAligned p syms ⟨skew, ahead⟩ s) rfl takes.keeps⟩

theorem pairAlignment_same_act (syms : List PairSym) :
    exec (.pairAlignmentLost p syms ⟨skew, ahead⟩) s = exec (.pairLaneAligned p syms ⟨skew, ahead⟩) s :=
  (exec_pairAlignmentLost ..).trans (exec_pairLaneAligned ..).symm

/-- Far-end loopback sends a data symbol back. -/
theorem data_echoed (on : s.dev.off = false) (far : s.dev.rd R.PAIR_CTRL_TEST = 3) (b : Byte)
    (away : (s.dev.plane1 p).slot.getD 0 % 1024 ≠ 2) :
    ∃ t, exec (.pairLaneAligned p [.data b] ⟨skew, ahead⟩) s = .next t ∧ s.Only [4, 7, 0x38] t ∧
      Out.pairSyms p [.data b] ∈ t.dev.out := by
  obtain ⟨keeps, test⟩ := Dev.pairSymbol_keeps p.isLt (s.start.gained ahead) skew (.data b)
  have syms : (s.start.pairTaken p [.data b] skew ahead).2 = [.data b] :=
    Dev.pairSymbol_syms (Dev.pairRx_data (d := s.start.gained ahead) away b)
  obtain ⟨e, taken, run, only⟩ := pairLane_ends p skew ahead on [.data b] (Dev.Keeps.refl.set_plane.trans keeps)
  exact ⟨_, run, only, syms ▸ taken.echoed (test.trans far)⟩

/-- Far-end loopback sends a column's last symbol back after rate compensation. -/
theorem column_echoed (on : s.dev.off = false) (far : s.dev.rd R.PAIR_CTRL_TEST = 3) (ready : s.dev.pairReady = true)
    (number : s.dev.pairMap p = (s.dev.plane1 p).num) (near : skew ≤ 16) (slot : (s.dev.plane1 p).slot = some 2)
    (miss : (s.dev.plane1 p).miss = 0) (few : ones256 (2 * (s.dev.plane1 p).errs % 2 ^ 256) < 4) :
    ∃ t, exec (.pairLaneAligned p [.k280] ⟨skew, ahead⟩) s = .next t ∧ s.Only [4, 7, 0x38] t ∧
      Out.pairSyms p (Dev.compSyms ((s.dev.plane1 p).slip + Dev.turnOf (s.dev.plane1 p).num (s.dev.plane.ahead + ahead)) .k280) ∈ t.dev.out ∧
      (Dev.turnOf (s.dev.plane1 p).num (s.dev.plane.ahead + ahead) = 1 → s.dev.Counted t.dev R.PAIR_COMP_DROP) ∧
      (Dev.turnOf (s.dev.plane1 p).num (s.dev.plane.ahead + ahead) = -1 → s.dev.Counted t.dev R.PAIR_COMP_ADD) := by
  obtain ⟨keeps, test⟩ := Dev.pairSymbol_keeps p.isLt (s.start.gained ahead) skew .k280
  obtain ⟨e, taken, run, only⟩ := pairLane_ends p skew ahead on [.k280] (Dev.Keeps.refl.set_plane.trans keeps)
  obtain ⟨syms, drop, add⟩ := Dev.last_compensates (d := s.start.gained ahead) p.isLt ready number near slot miss few
  refine ⟨_, run, only, syms ▸ taken.echoed (test.trans far), fun drops => ?_, fun adds => ?_⟩
  · exact (taken.rd R.PAIR_COMP_DROP rfl (by decide)).trans (drop drops)
  · exact (taken.rd R.PAIR_COMP_ADD rfl (by decide)).trans (add adds)

/-- The fourth column in a row aligns a lane, which shows the number it carries; the link is down without all four. -/
theorem lane_aligns (on : s.dev.off = false) (logical : Fin 4) (unaligned : bit (s.dev.rd R.PAIR_STATUS_ALIGNED) p = false)
    (slot : (s.dev.plane1 p).slot = some 1023) (cols : (s.dev.plane1 p).cols = 3) :
    ∃ t, exec (.pairLaneAligned p [.k285, .data (BitVec.ofNat 8 logical), .k280, .k280] ⟨skew, ahead⟩) s = .next t ∧
      s.Only [4, 7, 0x38] t ∧ bit (t.dev.rd R.PAIR_STATUS_ALIGNED) p = true ∧ t.dev.pairMap p = logical.val ∧
      (t.dev.rd R.PAIR_STATUS_ALIGNED ≠ 15 ∨ 16 < skew → t.dev.pathUp = false) := by
  obtain ⟨x, keeps, num, syms⟩ := Dev.fourth_column_aligns (d := s.start.gained ahead) p.isLt unaligned slot cols logical.isLt skew
  have came := Dev.column_came p.isLt x skew .k280
  obtain ⟨aligned, map, down⟩ := Dev.column_shows p.isLt x skew came
  rw [← syms] at came aligned map down
  obtain ⟨e, taken, run, only⟩ := pairLane_ends p skew ahead on _ (Dev.Keeps.refl.set_plane.trans (keeps.trans came.keeps))
  have showsAligned := taken.rd R.PAIR_STATUS_ALIGNED rfl (by decide)
  have showsMap := taken.rd R.PAIR_STATUS_MAP rfl (by decide)
  refine ⟨_, run, only, ?_, ?_, fun unready => ?_⟩
  · exact (congrArg (bit · p) showsAligned).trans aligned
  · exact (congrArg (bits · (2 * p.val + 1) (2 * p.val)) showsMap).trans (map.trans (by rw [num]; exact Nat.mod_eq_of_lt logical.isLt))
  · exact taken.pathUp.trans (down (unready.imp_left fun other same => other (showsAligned.trans same)))

/-- Four symbols in error lose a lane its alignment. -/
theorem lane_loses_alignment (on : s.dev.off = false) (aligned : bit (s.dev.rd R.PAIR_STATUS_ALIGNED) p = true)
    (errs : (s.dev.plane1 p).errs = 0) (miss : (s.dev.plane1 p).miss = 0) :
    ∃ t, exec (.pairAlignmentLost p [.code, .code, .code, .code] ⟨skew, ahead⟩) s = .next t ∧ s.Only [4, 7, 0x38] t ∧
      bit (t.dev.rd R.PAIR_STATUS_ALIGNED) p = false ∧ t.dev.pathUp = false ∧
      s.dev.Counted t.dev R.PAIR_REALIGN ∧ s.dev.Counted t.dev R.PAIR_CODE_ERR 4 := by
  have erring : Dev.Erring p 0 (s.start.gained ahead) := ⟨aligned, errs, .inl miss⟩
  obtain ⟨clear, down, realign, code⟩ := Dev.four_codes_lose p.isLt erring skew rfl
  have keeps := Dev.pairSymbols_keeps p.isLt (s.start.gained ahead) skew [.code, .code, .code, .code]
  obtain ⟨e, taken, run, only⟩ := pairLane_ends p skew ahead on _ (Dev.Keeps.refl.set_plane.trans keeps)
  rw [← pairAlignment_same_act] at run
  refine ⟨_, run, only, ?_, ?_, ?_, ?_⟩
  · exact (congrArg (bit · p) (taken.rd R.PAIR_STATUS_ALIGNED rfl (by decide))).trans clear
  · exact taken.pathUp.trans down
  · exact (taken.rd R.PAIR_REALIGN rfl (by decide)).trans realign
  · exact (taken.rd R.PAIR_CODE_ERR rfl (by decide)).trans code

end

/-- Settles O32: a test is refused or taken (`tested_sends`, `pairTested_tests`); the symbols of a pairing lane align it
(`fourth_column_aligns`), lose it (`four_codes_lose`) and go back after rate compensation (`last_compensates`). -/
theorem laneTestsAndPairingLanes : Obligations.LaneTestsAndPairingLanes := by
  unfold Obligations.LaneTestsAndPairingLanes
  refine ⟨fun s k v => laneTest_lane v k, fun s v => laneTest_pair v, fun s => alignmentColumn_sends, fun s p skew ahead on =>
    ⟨pairAlignment_same_act p skew ahead, fun far => ⟨fun b => data_echoed p skew ahead on far b, ?_⟩,
      fun logical => lane_aligns p skew ahead on logical, lane_loses_alignment p skew ahead on⟩⟩
  exact fun ready number near slot miss few => column_echoed p skew ahead on far ready number near slot miss few

end Sys2Proof.Machine
end
